-- ==== Sys2Proof/Word.lean ====
section
/-! DEFINITION. The words the GQ12 is made of. Bit 0 of a word is its least significant bit (R1). -/

namespace Sys2Proof

/-- One byte of memory. -/
abbrev Byte := BitVec 8

/-- A 32-bit register word. -/
abbrev Word32 := BitVec 32

/-- A 64-bit register word, instruction word, signal word or packet header word. -/
abbrev Word64 := BitVec 64

/-- A finite map by number, kept as a list of pairs with rising keys that holds no pair whose value is the default. -/
abbrev SMap (α : Type) := List (Nat × α)

end Sys2Proof
end

