-- ==== Sys2Proof/Syntax.lean ====
section
/-! DEFINITION. The commands of the block: one constructor of `Instr` for each row of spec/opcode_table.json, and the
plain data that commands carry. -/

namespace Sys2Proof

/-- What the on-die ECC finds at a DRAM sector (R297, R298). -/
inductive Ecc where
  | clean            -- no error that was not there before
  | corrected        -- a single-bit error, corrected (R297)
  | uncorrectable    -- a double-bit error, detected (R298, R299)
deriving DecidableEq, Repr

/-- What the on-die ECC finds at the sectors of one access: the number of the sector within the access, and the finding. -/
abbrev Errs := List (Nat × Ecc)

/-- A request to a stack interface: who asks (SOURCE of Table 7.10), the core identifier it acts for, the local
address it issued, and the number by which the requester tells its own requests apart. -/
structure StackReq where
  source : Nat
  core   : Nat
  addr   : Nat
  job    : Nat := 0
deriving DecidableEq, Repr

/-- The header of a Kryrum packet (Table 10.1) with its payload; `rsv2` and `rsv7` are the reserved bits of w2 and w7. -/
structure Packet where
  dest     : Nat
  src      : Nat
  cls      : Nat
  flag     : Bool
  ll       : Bool
  op       : Nat
  status   : Nat
  len      : Nat
  share    : Nat
  hops     : Nat
  jobTag   : BitVec 32
  seq      : BitVec 32
  space    : Nat
  offset   : Nat
  ackSeq   : BitVec 32
  ackV     : Bool
  epoch    : BitVec 16
  tag      : Nat
  w4       : BitVec 64
  w5       : BitVec 64
  w6       : BitVec 64
  rsv2     : Nat
  rsv7     : Nat
  esc      : Bool
  crc      : Word32
  payload  : List Byte
deriving DecidableEq, Repr

/-- One entry of a muster frame (Table 18.3). -/
structure MusterEntry where
  subject  : Nat
  kind     : Nat
  ttl      : Nat
  reporter : Nat
deriving DecidableEq, Repr

/-- A muster frame (Table 18.2). -/
structure MusterFrame where
  jobTag  : BitVec 32
  fseq    : BitVec 16
  state   : Nat
  resv    : Bool             -- a reserved byte is not zero
  entries : List MusterEntry
deriving DecidableEq, Repr

/-- A lane-management message (Table 15.4). -/
inductive LaneMsg where
  | none
  | swapReq (rx : Bool) (slot wavelength boundary : Nat)
  | swapAck (rx : Bool) (slot wavelength boundary : Nat)
  | laserOut (wavelength : Nat)
  | retrain
deriving DecidableEq, Repr

/-- The data of a control codeword (Table 15.3). -/
structure ControlWord where
  credits    : List Nat          -- the eight running totals modulo 16: adaptive then escape, REQ FWD RSP COL
  cseq       : Nat
  lane       : LaneMsg
  muster     : Option MusterFrame
  selfDevice : Nat
  selfPort   : Nat
  crc        : BitVec 32
deriving DecidableEq, Repr

/-- How the host's or peer's completion of a far-tier request ends (R396). -/
inductive FarEnd where
  | data (bytes : List Byte)     -- a read's line, or the observation of a write (R395)
  | unsupported                  -- Unsupported Request or Completer Abort
  | poisoned
deriving DecidableEq, Repr

/-- The transport of an SPDM connection (R719). -/
inductive Transport where
  | doe
  | mctp
deriving DecidableEq, Repr

/-- An SPDM FINISH: its bytes, and the IDE keys that the host programs in the session that it completes, if any (R399). -/
structure FinishReq where
  bytes : List Byte
  keys  : List Byte
deriving DecidableEq, Repr

/-- Who writes a register (R28): the host through BAR0, the drover, or a fabric packet. -/
inductive Origin where
  | host
  | drover
  | fabric
deriving DecidableEq, Repr

/-- The commands. In the instruction rows `f` is the logical flock index F (R25), `c` the logical core and `w` the
instruction word that the control unit fetched (R175). -/
inductive Instr where
  -- core instructions (05_instructions.md)
  | alu (f c : Nat) (w : Word64)
  | alui (f c : Nat) (w : Word64)
  | li (f c : Nat) (w : Word64)
  | ld (f c : Nat) (w : Word64)
  | st (f c : Nat) (w : Word64)
  | br (f c : Nat) (w : Word64)
  | jal (f c : Nat) (w : Word64)
  | jr (f c : Nat) (w : Word64)
  | tixr (f c : Nat) (w : Word64)
  | qwait (f c : Nat) (w : Word64)
  | qwaitRelease (f c : Nat)
  | stop (f c : Nat) (w : Word64)
  | nop (f c : Nat) (w : Word64)
  | sread (f c : Nat) (w : Word64)
  | movt (f c : Nat) (w : Word64)
  | mft (f c : Nat) (w : Word64)
  | taddi (f c : Nat) (w : Word64)
  | vop (f c : Nat) (w : Word64)
  | vops (f c : Nat) (w : Word64)
  | vfma (f c : Nat) (w : Word64)
  | vld (f c : Nat) (w : Word64)
  | vst (f c : Nat) (w : Word64)
  | vred (f c : Nat) (w : Word64)
  | vlane (f c : Nat) (w : Word64)
  | vmxq (f c : Nat) (w : Word64)
  | wload (f c : Nat) (w : Word64)
  | wswap (f c : Nat) (w : Word64)
  | stream (f c : Nat) (w : Word64)
  | drain (f c : Nat) (w : Word64)
  | tclr (f c : Nat) (w : Word64)
  | accview (f c : Nat) (w : Word64)
  | gdrain (f c : Nat) (w : Word64)
  | dma (f c : Nat) (w : Word64)
  | ratom (f c : Nat) (w : Word64)
  | rsig (f c : Nat) (w : Word64)
  | rfence (f c : Nat) (w : Word64)
  | sigadd (f c : Nat) (w : Word64)
  | sigrd (f c : Nat) (w : Word64)
  | siginit (f c : Nat) (w : Word64)
  | wait (f c : Nat) (w : Word64)
  -- the array, the roads, waits, restarts (03, 04, 05, 12)
  | arrayStart (f c : Nat)
  | arrayRowFetch (f c : Nat) (k : Nat) (residueFails : Bool)
  | roadRowArrival (f q : Nat) (parityOk : Bool)
  | roadCreditReturn (f p : Nat)
  | roadTimeout (f c : Nat)
  | waitPoll (f c : Nat)
  | waitSatisfied (f c : Nat)
  | waitExpiry (f c : Nat)
  | flkCoreHaltWrite (f c : Nat)
  | flkCoreDoneWrite (f c : Nat)
  | coreRestart (f c : Nat)
  -- DMA descriptors and bales (04)
  | dmaDescriptorStart (f c : Nat)
  | dmaComplete (f c n : Nat)
  | dmaTimeout (f c n : Nat)
  | dmaPushAdmit (f : Nat)
  | baleReadComplete (f c n : Nat) (errs : Errs)
  -- fold images (06)
  | foldLoad (v : Word64)
  | remap (v : Word64)
  | unload (v : Word64)
  | pipelineStart (f : Nat)
  | drvRankWrite (v : Word64)
  -- stacked memory (07)
  | stackWholeBaleRead (r : StackReq) (errs : Errs)
  | stackTaggedWrite (r : StackReq) (data : List Byte) (tag crc : Word32)
  | stackUntaggedWrite (r : StackReq) (data : List Byte)
  | stackSectorRead (r : StackReq) (ecc : Ecc)
  | stackSectorWrite (r : StackReq) (mask : BitVec 32) (data : List Byte) (ecc : Ecc)
  | stackEntryGrant (stack : Nat)
  | refresh (stack subBank : Nat)
  | scrub (stack q : Nat) (errs : Errs)
  | zeroFill (stack : Nat)
  | wipe (stack : Nat)
  | wipeComplete (stack : Nat)
  | writeGateChange (stack : Nat) (closed : Bool)
  | heldWriteExpiry (stack n : Nat)
  -- peat units (08)
  | peatDescriptorAdmit (f c n : Nat)
  | gather (f c n : Nat)
  | segsum (f c n : Nat)
  | wpool (f c n : Nat)
  | optupd (f c n : Nat)
  | kread (f c n : Nat)
  | kwrite (f c n : Nat)
  | kadd (f c n : Nat)
  | peatRowRequest (stack : Nat)
  | peatRowData (stack : Nat) (errs : Errs)
  | deliveryBlock (f c n : Nat) (damage : List (Nat × Byte))
  | peatComplete (f c n : Nat)
  -- host link, queues, management (09)
  | cxlMemRead (x : Nat) (grant : Bool) (errs : Errs)
  | cxlMemWrite (x : Nat) (mask : Word64) (data : List Byte) (poison : Bool) (errs : Errs)
  | cxlHostEvict (line : Nat)
  | birsp (line : Nat) (stillValid : Bool)
  | biTimeout (n : Nat)
  | bar0Access (off width : Nat) (wr : Option Word64)
  | cxlQsqDb (q : Nat) (v : Word32)
  | cxlQcqDb (q : Nat) (v : Word32)
  | queueEnable (q : Nat) (v : Word64)
  | queueDisable (q : Nat) (v : Word64)
  | sqFetch (q : Nat) (entry : List Byte)
  | queueNop (q n : Nat)
  | queueCopy (q n : Nat) (host : List Byte)
  | queueSignal (q n : Nat)
  | queueFence (q n : Nat)
  | cqPost (q : Nat)
  | farTierResponse (n : Nat) (r : FarEnd)
  | farTierTimeout (n : Nat)
  | linkUp (full : Bool) (width rate : Nat)
  | linkDown
  | cxlReset
  | ideFail
  | getEventRecords
  | clearEventRecords
  | getEventInterruptPolicy
  | setEventInterruptPolicy (v : Byte)
  | getFwInfo
  | transferFw (slot action off : Nat) (data : List Byte)
  | activateFw (slot : Nat) (atReset : Bool)
  | getSupportedLogs
  | getLog (req : List Byte)
  | mailboxUnsupported (opcode : Nat)
  | mctpSetEndpointId (eid : Byte)
  | pldmRequest (req : List Byte)
  | getVersion (t : Transport) (req : List Byte)
  | getCapabilities (t : Transport) (req : List Byte)
  | negotiateAlgorithms (t : Transport) (req : List Byte)
  | getDigests (t : Transport) (req : List Byte)
  | getCertificate (t : Transport) (req : List Byte)
  | challenge (t : Transport) (req : List Byte)
  | getMeasurements (t : Transport) (signed : Bool) (req : List Byte)
  | keyExchange (t : Transport) (req : List Byte)
  | finish (t : Transport) (req : FinishReq)
  | endSession (t : Transport) (req : List Byte)
  | getLmsCert (t : Transport) (off : Nat)
  | getLmsSig (t : Transport)
  -- the fabric and remote memory (10, 11, 12)
  | routerPacketArrival (slice port : Nat) (mesh : Bool) (p : Packet) (poisoned : Bool)
  | packetForward (slice queue : Nat)
  | niPacketSend (share : Nat)
  | write (p : Packet)
  | read (p : Packet)
  | atomic (p : Packet)
  | signal (p : Packet)
  | cohFwd (p : Packet)
  | response (p : Packet)
  | ack (p : Packet)
  | contrib (p : Packet)
  | relayData (port : Nat) (p : Packet)
  | relayAck (port : Nat) (p : Packet)
  | relayResult (port : Nat) (p : Packet)
  | relayActivate (port : Nat) (p : Packet)
  | relayAbort (port : Nat) (p : Packet)
  | relayAckTimeout
  | flagHoldRelease (src : Nat)
  | resendIntervalExpiry (tag : Nat)
  | deferredBackoffExpiry (tag : Nat)
  | tagDeadlineExpiry (tag : Nat)
  | ackTimerExpiry (dst : Nat)
  | niPairReset (v : Word64)
  -- the kiln and gradient reduction (13, 14)
  | klnSubmit (o : Origin) (v : Word64)
  | bucketSubmit (o : Origin) (v : Word64)
  | redeliverSubmit (o : Origin) (v : Word64)
  | klnCtrlAbort (v : Word64)
  | klnCtrlReset (v : Word64)
  | collectiveStart (g : Nat)
  | chunkStart (g : Nat)
  | kilnPacketInject (slice : Nat)
  | kilnStallExpiry (g : Nat)
  | kilnMemoryComplete (g chunk : Nat) (errs : Errs)
  | collectiveEnd (g : Nat)
  | channelRowAccept (ch : Nat)
  | chunkComplete (g chunk : Nat)
  | verifyCompare (g chunk : Nat)
  | sealExchangeStart (g : Nat)
  | bucketSeal (g : Nat)
  | redeliveryEnd (n : Nat)
  -- the optical edge (15)
  | codewordDecode (port : Nat) (slots : List Nat) (lanes : List (List (BitVec 10)))
  | controlCodeword (port : Nat) (w : ControlWord)
  | swapReq (port : Nat) (rx : Bool) (slot wavelength boundary : Nat)
  | swapAck (port : Nat) (rx : Bool) (slot wavelength boundary : Nat)
  | laserOut (port wavelength : Nat)
  | retrain (port : Nat)
  | swapSwitch (port : Nat) (rx : Bool)
  | portTrain (port : Nat) (goodTx goodRx : BitVec 9) (answered : Bool)
  | trainingFrame (port device farPort : Nat)
  | trainingRetryExpiry (port : Nat)
  | level1Calibration (port : Nat) (rx : Bool)
  | ringSweepComplete (port : Nat) (rx : Bool) (k : Nat) (confirmed : Bool)
  | pilotToneCheck (port k : Nat) (tone : Option Nat)
  | serWindowExpiry (port : Nat)
  | laserFailure (hearth k : Nat)
  | portRetrainWrite (port : Nat)
  | portDisable (port : Nat)
  | portEnable (port : Nat)
  | stileChangeComplete (hearth pair : Nat)
  | slewGovernorTick (p : Nat)
  -- clocks, reset, bring-up and pins (16, 20)
  | resetFlock (v : Word32)
  | resetPasture (v : Word32)
  | resetRouterSlice (v : Word32)
  | resetPort (v : Word32)
  | resetHearth (v : Word32)
  | resetDevice (v : Word32)
  | drainEnd
  | drainLimitExpiry
  | creditReturnMessage (peer resource count : Nat)
  | reinitAck (peer : Nat)
  | resetPin
  | powerOn
  | powerLoss
  | pllLockLoss (bit : Nat)
  | pllLock (bit : Nat)
  | droverBoot
  | pastureRelease (p : Nat)
  | stackTrainingComplete (s : Nat)
  -- thermal model and power (17)
  | thermalModelUpdate (nodes : List Int)
  | sensorReading (readings : List Int)
  | powerMeasurement (rails : List Nat)
  | packagePowerMeasurement (watts10 : Nat)
  | fractionApply (p : Nat)
  | fractionWatchdog (p : Nat)
  | gateDecisionWatchdog (s : Nat)
  | holdWrite (v : Word32)
  | sensorTrip (site : Nat)
  -- reliability and shadow mode (18)
  | eventPop
  | drvRetire (v : Word32)
  | spareSelfTest (f phys : Nat) (passed : Bool)
  | musterPeriodicFrame (port : Nat)
  | musterSilenceExpiry (port : Nat)
  | voteExpiry (subject reporter : Nat)
  | drvDeclare (v : Word32)
  | stateArrayError
  | shadowEnable (v : Word64)
  | shadowDisable (v : Word64)
  | stepMark
  | digestComplete
  -- firmware and security (19)
  | fwCommit
  | fwActivateOnline (v : Word32)
  | fwActivateAtReset (v : Word32)
  | unitRestartComplete (passed : Bool)
  | foldKeyEnrol (v : Word64)
  | foldKeyClear (v : Word64)
  | policyWrite (v : Word32)
  | relaySend (v : Word32)
  -- the last rows of the table
  | rcRead (o : Origin) (addr width : Nat)
  | registerWrite (o : Origin) (addr width : Nat) (v : Word64)
  | resetPinRelease
  | railOutOfRange
  | hearthLasersStable (h : Nat) (ok : BitVec 9)
  | ringSetpointReturn (port : Nat) (rx : Bool)
  | sqReadError (q : Nat)
  | cqWriteError (q : Nat)
  | hostSnoop (line : Nat)
deriving DecidableEq, Repr

end Sys2Proof
end

