-- ==== Sys2Proof/Config.lean ====
section
/-! DEFINITION. The values the spec leaves open. Each is a constant with no body: nothing can be proved of its value,
so a claim about it holds whatever it is (log entry 1). -/

namespace Sys2Proof.Config

/-- Free values, one for each number of `State.fresh`: core cycle counts (R200), the random part of `NI_EPOCH` (R445),
bytes of an overlapping COPY (R155), bytes of DST after an abort (R550). -/
opaque freeValue : Nat → BitVec 64

/-- The result bits of the special vector functions EXP2, LOG2, RCP, RSQRT and TANH away from their special cases:
the spec gives only a bound of 2 units in the last place and that every GQ12 gives the same bits (R206). -/
opaque special : BitVec 9 → BitVec 32 → BitVec 32

/-- SHA-384, a published standard the spec names and does not restate (R237, R715). -/
opaque sha384 : List (BitVec 8) → BitVec 384

/-- Whether an ECDSA P-384 signature of 96 bytes over a message verifies under a public key (R725, R726). -/
opaque ecdsaOk : List (BitVec 8) → List (BitVec 8) → List (BitVec 8) → Bool

/-- Whether an HSS signature of 3,124 bytes over a message verifies under a 60-byte public key (R716, R726). -/
opaque hssOk : List (BitVec 8) → List (BitVec 8) → List (BitVec 8) → Bool

/-- The public keys of an Izlogus firmware key slot, whose digests are fused: ECDSA key and HSS key (Table 19.2). -/
opaque firmwareKey : Nat → List (BitVec 8) × List (BitVec 8)

/-- An ECDSA P-384 signature by the device identity key over a transcript (R719). -/
opaque deviceSign : List (BitVec 8) → List (BitVec 8)

/-- An HSS signature by the device LMS key over a transcript with a level-2 leaf index (R721). -/
opaque lmsSign : Nat → List (BitVec 8) → List (BitVec 8)

/-- The bytes of a response whose layout a published standard gives: SPDM, PLDM, MCTP and the CXL mailbox
(R400, R402, R719), by the request's name and its bytes. -/
opaque standardReply : String → List (BitVec 8) → List (BitVec 8)

/-- The identifier of the Command Effects Log, which CXL 3.1 fixes (R400). -/
opaque effectsLogId : List (BitVec 8)

/-- The bytes of the device certificate chain, whose subject serialNumber is given (R717). -/
opaque certificateChain : List (BitVec 8) → List (BitVec 8)

/-- The device's HSS public key, and the HSS signature over a message by the Izlogus firmware key of slot 0 (R718). -/
opaque lmsPublic : List (BitVec 8)
opaque izlogusSign : List (BitVec 8) → List (BitVec 8)

/-- The fused identity of die `i` of Table 19.1: fab lot in ASCII, wafer number, and die column and row (R714). -/
opaque dieLot : Nat → BitVec 48
opaque dieWafer : Nat → BitVec 8
opaque diePlace : Nat → BitVec 32

/-- Whether the revocation fuse of an Izlogus firmware key slot is blown (Table 19.2, R726). -/
opaque keyRevoked : Nat → Bool

/-- The firmware image that the factory leaves in bank A, and the drover boot ROM (R720, R728; log entry 3). -/
opaque factoryImage : List (BitVec 8)
opaque bootRom : List (BitVec 8)

/-- The forward buffers, less one, that a device holds for the COH_FWDs of this one; the spec does not give their number (R425, log
entry 69). -/
opaque forwardBuffers : Nat → Nat

end Sys2Proof.Config
end

