-- ==== Sys2Proof/Machine/Bits.lean ====
section
/-! DEFINITION. Bit fields, byte order (R1), sign extension and rounding to the nearest integer (R64). -/

namespace Sys2Proof.Machine

/-- Bits `hi:lo` of a number, bit 0 being the least significant (R1). -/
def bits (w hi lo : Nat) : Nat := (w >>> lo) % 2 ^ (hi + 1 - lo)

/-- Bit `i` of a number. -/
def bit (w i : Nat) : Bool := w.testBit i

/-- `w` with bits `hi:lo` replaced by `v`, cut to the field's width. -/
def setBits (w hi lo v : Nat) : Nat :=
  w - (bits w hi lo) <<< lo + (v % 2 ^ (hi + 1 - lo)) <<< lo

/-- Bit `i` of `w` set to `b`. -/
def setBit (w i : Nat) (b : Bool) : Nat := setBits w i i b.toNat

/-- The two's complement value of the low `n` bits of `w`. -/
def sext (n w : Nat) : Int :=
  let v := w % 2 ^ n
  if 2 * v < 2 ^ n then (v : Int) else (v : Int) - 2 ^ n

/-- The low `n` bits of an integer in two's complement. -/
def wrap (n : Nat) (x : Int) : Nat := (x % (2 ^ n : Nat)).toNat

/-- The little-endian bytes of a number (R1), `n` of them. -/
def leBytes : Nat → Nat → List Byte
  | 0, _ => []
  | n + 1, v => BitVec.ofNat 8 v :: leBytes n (v / 256)

/-- The number that little-endian bytes hold (R1). -/
def ofLE : List Byte → Nat
  | [] => 0
  | b :: bs => b.toNat + 256 * ofLE bs

/-- `n` bytes of a list from place `i`; bytes past the end are zero. -/
def slice (bs : List Byte) (i n : Nat) : List Byte :=
  let r := (bs.drop i).take n
  r ++ List.replicate (n - r.length) 0

/-- The little-endian number of `n` bytes at place `i` of a list. -/
def leAt (bs : List Byte) (i n : Nat) : Nat := ofLE (slice bs i n)

/-- `x / 2^n` rounded to nearest, ties to even (R64). -/
def rshRne (x : Int) (n : Nat) : Int :=
  let q := x / (2 ^ n : Nat)
  let r := x % (2 ^ n : Nat)
  if 2 * r > (2 ^ n : Nat) ∨ (2 * r = (2 ^ n : Nat) ∧ q % 2 ≠ 0) then q + 1 else q

/-- `m · 2^e` rounded to an integer, ties to even (R64). -/
def rneInt (m : Int) (e : Int) : Int :=
  if 0 ≤ e then m * (2 ^ e.toNat : Nat) else rshRne m (-e).toNat

/-- `m · 2^e` is an integer: rounding it discards no non-zero bit (R68). -/
def exactInt (m : Int) (e : Int) : Bool :=
  decide (0 ≤ e) || m % (2 ^ (-e).toNat : Nat) == 0

/-- An integer held to a range. -/
def clampInt (lo hi x : Int) : Int := if x < lo then lo else if hi < x then hi else x

/-- The lowest index below `n` at which `p` holds. -/
def lowest (n : Nat) (p : Nat → Bool) : Option Nat := (List.range n).find? p

/-- One more, but held at the greatest value of an `n`-bit counter (a counter that stops at all ones). -/
def satInc (n v : Nat) : Nat := min (v + 1) (2 ^ n - 1)

/-- The list with entry `i` replaced. -/
def setAt {α : Type} (l : List α) (i : Nat) (a : α) : List α := l.set i a

/-- The list with entry `i` changed by `f`. -/
def modAt {α : Type} (l : List α) (i : Nat) (f : α → α) : List α :=
  match l[i]? with
  | some a => l.set i (f a)
  | none => l

end Sys2Proof.Machine
end

