-- ==== Sys2Proof/Machine/RegMap.lean ====
section
/-! DEFINITION. Every register of the GQ12 (R774 to R776, Tables 21.1 to 21.12), with the fields, access codes and reset
values of its field table, and the address map of register blocks (Table 1.8, R777). A reset value that a table gives as
"see meaning" stands here as 0, but for FLK_PHYS_GOOD (log entry 3); such fields are kept or computed elsewhere. -/

namespace Sys2Proof.Machine

/-- The register blocks of Table 1.8. -/
inductive Block where
  | drv | thm | sec | cxl | rtr | kln | hth | ni | flk | pas | stk | peat
deriving DecidableEq, Repr

/-- The access codes of Table 0.3; reserved bits are the bits that no field covers. -/
inductive Access where
  | ro | rw | wo | w1c | w1s | rc
deriving DecidableEq, Repr

/-- A field `hi:lo` of a register with its access code and reset value. -/
structure Field where
  hi  : Nat
  lo  : Nat
  acc : Access
  rst : Nat
deriving DecidableEq, Repr

/-- A register or register family: block, offset of member 0, step between members, number of members, width, whether
fabric-writable (R775) and fold-settable (R776), and its fields. -/
structure RegRow where
  block  : Block
  off    : Nat
  step   : Nat
  count  : Nat
  width  : Nat
  fab    : Bool
  fold   : Bool
  fields : List Field
deriving DecidableEq, Repr

/-- The registers by name. -/
inductive Reg where
  | drvPartId | drvSelf | drvFoldSrc | drvFoldCtrl | drvFoldStatus | drvFoldId
  | drvRankWrite | drvReady | drvResetCtrl | drvResetStatus | drvResetCfg | drvResetAddr
  | drvResetInfo | drvClkStatus | drvEvtHead | drvEvtDetail | drvEvtAddr | drvEvtStatus
  | drvRetire | drvMusterCfg | drvMusterStatus | drvDeclare | drvShadowCtrl | drvShadowRing
  | drvShadowWin | drvShadowStatus | thmStatus | thmCfg | thmSlew | thmPower
  | thmEvent | thmPas | thmStk | secFwStatus | secFwCtrl | secBank
  | secPolicy | secFoldKey | secLms | secRelayCfg | secRelayStatus | secIdLo
  | secIdHi | cxlStatus | cxlHdm | cxlTimeouts | cxlTracker | cxlFaultAddr
  | cxlFaultInfo | cxlFarMap | cxlFarTgt | cxlQsqBase | cxlQcqBase | cxlQctrl
  | cxlQsqDb | cxlQcqDb | rtrStatus | rtrAdapt | rtrClassWeight | rtrDrop
  | rtrFaultAddr | rtrFaultInfo | niStatus | niEpoch | niResend | niCntA
  | niCntB | niPairReset | niFaultAddr | niFaultInfo | niReplay | niCoh
  | niFatal | klnStatus | klnSubmit | klnCtrl | klnStall | klnCnt
  | klnFaultAddr | klnFaultInfo | klnFaultDigest | klnGradSubmit | klnOverflow | klnRedelivery
  | klnSubmitResult | klnGroup | klnChan | klnChanCfg | hthStatus | hthCfg
  | hthEvent | hthPortStatus | hthPortCtrl | hthLaneTx | hthLaneRx | hthPortCnt
  | flkArithInexactLo | flkArithInexactHi | flkArithOverflowLo | flkArithOverflowHi | flkArrayFault | flkCoreFault
  | flkCoreHaltLo | flkCoreHaltHi | flkFaultAddr | flkFaultInfo | flkTimeouts | flkCoreDoneLo
  | flkCoreDoneHi | flkSigFault | flkCoreMap | flkPhysGoodLo | flkPhysGoodHi | flkFoldState
  | pasArithSummary | stkStatus | stkCtrl | stkEcc | stkGate | stkFaultAddr
  | stkFaultInfo | peatStatus | peatSkipped | peatFaultAddr | peatFaultInfo
deriving DecidableEq, Repr

/-- The row of each register, from its field table. -/
def Reg.row : Reg → RegRow
  | .drvPartId => -- DRV_PART_ID
    ⟨.drv, 0x0, 0, 1, 64, false, false,
      [⟨55, 48, .ro, 0x10⟩, ⟨47, 40, .ro, 0xC⟩, ⟨39, 32, .ro, 0x10⟩, ⟨31, 16, .ro, 0xC12⟩, ⟨15, 0, .ro, 0x1A70⟩]⟩
  | .drvSelf => -- DRV_SELF
    ⟨.drv, 0x8, 0, 1, 64, false, false,
      [⟨46, 32, .ro, 0x0⟩, ⟨30, 30, .ro, 0x0⟩, ⟨29, 16, .ro, 0x0⟩, ⟨13, 0, .ro, 0x0⟩]⟩
  | .drvFoldSrc => -- DRV_FOLD_SRC
    ⟨.drv, 0x100, 0, 1, 64, false, false,
      [⟨47, 12, .rw, 0x0⟩]⟩
  | .drvFoldCtrl => -- DRV_FOLD_CTRL
    ⟨.drv, 0x108, 0, 1, 64, false, false,
      [⟨41, 32, .rw, 0x0⟩, ⟨30, 24, .rw, 0x0⟩, ⟨22, 16, .rw, 0x0⟩, ⟨1, 0, .wo, 0x0⟩]⟩
  | .drvFoldStatus => -- DRV_FOLD_STATUS
    ⟨.drv, 0x110, 0, 1, 64, false, false,
      [⟨63, 63, .ro, 0x0⟩, ⟨62, 62, .w1c, 0x0⟩, ⟨61, 61, .w1c, 0x0⟩, ⟨60, 60, .w1c, 0x0⟩, ⟨59, 56, .ro, 0x0⟩, ⟨55, 48, .ro, 0x0⟩, ⟨47, 32, .ro, 0x0⟩, ⟨27, 0, .ro, 0x0⟩]⟩
  | .drvFoldId => -- DRV_FOLD_ID
    ⟨.drv, 0x118, 0, 1, 64, false, false,
      [⟨63, 32, .ro, 0x0⟩, ⟨31, 0, .ro, 0x0⟩]⟩
  | .drvRankWrite => -- DRV_RANK_WRITE
    ⟨.drv, 0x120, 0, 1, 64, false, false,
      [⟨45, 32, .wo, 0x0⟩, ⟨13, 0, .wo, 0x0⟩]⟩
  | .drvReady => -- DRV_READY
    ⟨.drv, 0x200, 0, 1, 64, false, false,
      [⟨63, 63, .ro, 0x0⟩, ⟨62, 62, .ro, 0x0⟩, ⟨61, 61, .ro, 0x0⟩, ⟨60, 60, .ro, 0x0⟩, ⟨59, 59, .ro, 0x0⟩, ⟨58, 58, .w1c, 0x0⟩, ⟨55, 44, .ro, 0x0⟩, ⟨43, 32, .ro, 0x0⟩, ⟨27, 16, .ro, 0x0⟩, ⟨15, 0, .ro, 0x0⟩]⟩
  | .drvResetCtrl => -- DRV_RESET_CTRL
    ⟨.drv, 0x208, 0, 1, 32, false, false,
      [⟨31, 31, .wo, 0x0⟩, ⟨26, 24, .rw, 0x0⟩, ⟨9, 0, .rw, 0x0⟩]⟩
  | .drvResetStatus => -- DRV_RESET_STATUS
    ⟨.drv, 0x210, 0, 1, 64, false, false,
      [⟨63, 63, .ro, 0x0⟩, ⟨62, 62, .w1c, 0x0⟩, ⟨61, 61, .w1c, 0x0⟩, ⟨60, 60, .ro, 0x0⟩, ⟨58, 56, .ro, 0x0⟩, ⟨52, 50, .ro, 0x0⟩, ⟨49, 40, .ro, 0x0⟩, ⟨31, 0, .rc, 0x0⟩]⟩
  | .drvResetCfg => -- DRV_RESET_CFG
    ⟨.drv, 0x218, 0, 1, 32, false, true,
      [⟨15, 0, .rw, 0x40⟩]⟩
  | .drvResetAddr => -- DRV_RESET_ADDR
    ⟨.drv, 0x220, 0, 1, 64, false, false,
      [⟨47, 0, .ro, 0x0⟩]⟩
  | .drvResetInfo => -- DRV_RESET_INFO
    ⟨.drv, 0x228, 0, 1, 64, false, false,
      [⟨63, 63, .w1c, 0x0⟩, ⟨62, 62, .w1c, 0x0⟩, ⟨61, 46, .rc, 0x0⟩, ⟨45, 42, .ro, 0x0⟩, ⟨41, 39, .ro, 0x0⟩, ⟨38, 29, .ro, 0x0⟩, ⟨28, 25, .ro, 0x0⟩, ⟨16, 0, .ro, 0x0⟩]⟩
  | .drvClkStatus => -- DRV_CLK_STATUS
    ⟨.drv, 0x230, 0, 1, 64, false, false,
      [⟨63, 48, .ro, 0x0⟩, ⟨47, 36, .ro, 0x0⟩, ⟨35, 24, .ro, 0x0⟩, ⟨2, 2, .ro, 0x0⟩, ⟨1, 1, .ro, 0x0⟩, ⟨0, 0, .ro, 0x1⟩]⟩
  | .drvEvtHead => -- DRV_EVT_HEAD
    ⟨.drv, 0x300, 0, 1, 64, false, false,
      [⟨63, 63, .ro, 0x0⟩, ⟨55, 40, .ro, 0x0⟩, ⟨39, 32, .ro, 0x0⟩, ⟨31, 24, .ro, 0x0⟩, ⟨23, 0, .ro, 0x0⟩]⟩
  | .drvEvtDetail => -- DRV_EVT_DETAIL
    ⟨.drv, 0x308, 0, 1, 64, false, false,
      [⟨63, 0, .ro, 0x0⟩]⟩
  | .drvEvtAddr => -- DRV_EVT_ADDR
    ⟨.drv, 0x310, 0, 1, 64, false, false,
      [⟨47, 0, .ro, 0x0⟩]⟩
  | .drvEvtStatus => -- DRV_EVT_STATUS
    ⟨.drv, 0x318, 0, 1, 64, false, false,
      [⟨63, 32, .rc, 0x0⟩, ⟨24, 16, .ro, 0x0⟩, ⟨0, 0, .wo, 0x0⟩]⟩
  | .drvRetire => -- DRV_RETIRE
    ⟨.drv, 0x320, 0, 1, 32, false, false,
      [⟨25, 16, .wo, 0x0⟩, ⟨6, 0, .wo, 0x0⟩]⟩
  | .drvMusterCfg => -- DRV_MUSTER_CFG
    ⟨.drv, 0x328, 0, 1, 32, false, true,
      [⟨31, 31, .rw, 0x1⟩, ⟨27, 24, .rw, 0x2⟩, ⟨23, 20, .rw, 0x3⟩]⟩
  | .drvMusterStatus => -- DRV_MUSTER_STATUS
    ⟨.drv, 0x330, 0, 1, 64, false, false,
      [⟨63, 62, .ro, 0x0⟩, ⟨61, 60, .ro, 0x0⟩, ⟨59, 46, .ro, 0x0⟩, ⟨45, 32, .ro, 0x0⟩, ⟨31, 0, .rc, 0x0⟩]⟩
  | .drvDeclare => -- DRV_DECLARE
    ⟨.drv, 0x338, 0, 1, 32, false, false,
      [⟨13, 0, .wo, 0x0⟩]⟩
  | .drvShadowCtrl => -- DRV_SHADOW_CTRL
    ⟨.drv, 0x340, 0, 1, 64, true, false,
      [⟨63, 63, .rw, 0x0⟩, ⟨62, 62, .rw, 0x0⟩, ⟨61, 61, .wo, 0x0⟩, ⟨13, 0, .rw, 0x0⟩]⟩
  | .drvShadowRing => -- DRV_SHADOW_RING
    ⟨.drv, 0x348, 0, 1, 64, false, false,
      [⟨47, 0, .rw, 0x0⟩]⟩
  | .drvShadowWin => -- DRV_SHADOW_WIN
    ⟨.drv, 0x350, 0, 1, 64, false, false,
      [⟨57, 29, .rw, 0x0⟩, ⟨28, 0, .rw, 0x0⟩]⟩
  | .drvShadowStatus => -- DRV_SHADOW_STATUS
    ⟨.drv, 0x358, 0, 1, 64, false, false,
      [⟨63, 61, .ro, 0x0⟩, ⟨60, 60, .ro, 0x0⟩, ⟨59, 48, .rc, 0x0⟩, ⟨47, 32, .ro, 0x0⟩, ⟨31, 0, .ro, 0x0⟩]⟩
  | .thmStatus => -- THM_STATUS
    ⟨.thm, 0x0, 0, 1, 64, false, false,
      [⟨63, 63, .ro, 0x0⟩, ⟨62, 61, .ro, 0x0⟩, ⟨60, 60, .ro, 0x0⟩, ⟨59, 48, .ro, 0xFFF⟩, ⟨47, 36, .ro, 0x0⟩, ⟨35, 24, .w1c, 0x0⟩, ⟨23, 12, .w1c, 0x0⟩]⟩
  | .thmCfg => -- THM_CFG
    ⟨.thm, 0x8, 0, 1, 32, false, true,
      [⟨31, 31, .rw, 0x0⟩, ⟨28, 24, .rw, 0x8⟩, ⟨10, 0, .rw, 0x578⟩]⟩
  | .thmSlew => -- THM_SLEW
    ⟨.thm, 0xC, 0, 1, 32, false, true,
      [⟨7, 0, .rw, 0x1E⟩]⟩
  | .thmPower => -- THM_POWER
    ⟨.thm, 0x10, 0, 1, 64, false, false,
      [⟨63, 48, .rc, 0x0⟩, ⟨31, 16, .ro, 0x0⟩, ⟨15, 0, .ro, 0x0⟩]⟩
  | .thmEvent => -- THM_EVENT
    ⟨.thm, 0x18, 0, 1, 64, false, false,
      [⟨63, 63, .w1c, 0x0⟩, ⟨62, 62, .w1c, 0x0⟩, ⟨61, 46, .rc, 0x0⟩, ⟨45, 42, .ro, 0x0⟩, ⟨41, 38, .ro, 0x0⟩, ⟨31, 16, .ro, 0x0⟩, ⟨15, 0, .ro, 0x0⟩]⟩
  | .thmPas => -- THM_PAS
    ⟨.thm, 0x100, 8, 12, 64, false, false,
      [⟨63, 48, .ro, 0x0⟩, ⟨47, 32, .ro, 0x0⟩, ⟨31, 23, .ro, 0x0⟩, ⟨22, 20, .ro, 0x0⟩, ⟨15, 0, .ro, 0x0⟩]⟩
  | .thmStk => -- THM_STK
    ⟨.thm, 0x200, 8, 12, 64, false, false,
      [⟨63, 48, .ro, 0x0⟩, ⟨47, 32, .ro, 0x0⟩, ⟨31, 16, .ro, 0x0⟩, ⟨15, 15, .ro, 0x1⟩, ⟨14, 14, .ro, 0x0⟩, ⟨13, 13, .ro, 0x0⟩]⟩
  | .secFwStatus => -- SEC_FW_STATUS
    ⟨.sec, 0x0, 0, 1, 64, false, false,
      [⟨63, 63, .ro, 0x0⟩, ⟨62, 62, .w1c, 0x0⟩, ⟨61, 61, .w1c, 0x0⟩, ⟨60, 60, .ro, 0x0⟩, ⟨59, 59, .ro, 0x0⟩, ⟨58, 58, .w1c, 0x0⟩, ⟨57, 56, .ro, 0x0⟩, ⟨55, 52, .ro, 0x0⟩, ⟨51, 48, .ro, 0x0⟩, ⟨47, 40, .ro, 0x0⟩, ⟨31, 0, .ro, 0x0⟩]⟩
  | .secFwCtrl => -- SEC_FW_CTRL
    ⟨.sec, 0x8, 0, 1, 32, false, false,
      [⟨31, 31, .wo, 0x0⟩, ⟨30, 30, .wo, 0x0⟩, ⟨29, 29, .rw, 0x0⟩, ⟨28, 28, .rw, 0x0⟩]⟩
  | .secBank => -- SEC_BANK
    ⟨.sec, 0x10, 8, 2, 64, false, false,
      [⟨63, 62, .ro, 0x0⟩, ⟨61, 56, .ro, 0x0⟩, ⟨55, 48, .ro, 0x0⟩, ⟨31, 0, .ro, 0x0⟩]⟩
  | .secPolicy => -- SEC_POLICY
    ⟨.sec, 0x20, 0, 1, 32, false, false,
      [⟨31, 31, .w1s, 0x0⟩, ⟨30, 30, .rw, 0x0⟩, ⟨29, 29, .ro, 0x0⟩, ⟨5, 0, .ro, 0x0⟩]⟩
  | .secFoldKey => -- SEC_FOLD_KEY
    ⟨.sec, 0x28, 0, 1, 64, false, false,
      [⟨63, 63, .wo, 0x0⟩, ⟨62, 62, .wo, 0x0⟩, ⟨47, 0, .rw, 0x0⟩]⟩
  | .secLms => -- SEC_LMS
    ⟨.sec, 0x30, 0, 1, 64, false, false,
      [⟨63, 63, .ro, 0x0⟩, ⟨62, 62, .ro, 0x0⟩, ⟨25, 0, .ro, 0x0⟩]⟩
  | .secRelayCfg => -- SEC_RELAY_CFG
    ⟨.sec, 0x38, 0, 1, 32, false, false,
      [⟨31, 31, .rw, 0x0⟩, ⟨30, 30, .rw, 0x0⟩, ⟨29, 29, .rw, 0x0⟩, ⟨28, 28, .wo, 0x0⟩, ⟨13, 8, .rw, 0x0⟩]⟩
  | .secRelayStatus => -- SEC_RELAY_STATUS
    ⟨.sec, 0x40, 0, 1, 64, false, false,
      [⟨63, 63, .ro, 0x0⟩, ⟨62, 62, .ro, 0x0⟩, ⟨61, 61, .w1c, 0x0⟩, ⟨60, 60, .w1c, 0x0⟩, ⟨55, 48, .ro, 0x0⟩, ⟨37, 32, .ro, 0x0⟩, ⟨31, 0, .ro, 0x0⟩]⟩
  | .secIdLo => -- SEC_ID_LO
    ⟨.sec, 0x1000, 16, 234, 64, false, false,
      [⟨63, 32, .ro, 0x0⟩, ⟨23, 16, .ro, 0x0⟩, ⟨15, 8, .ro, 0x0⟩, ⟨7, 0, .ro, 0x0⟩]⟩
  | .secIdHi => -- SEC_ID_HI
    ⟨.sec, 0x1008, 16, 234, 64, false, false,
      [⟨63, 48, .ro, 0x0⟩, ⟨47, 32, .ro, 0x0⟩, ⟨23, 16, .ro, 0x0⟩, ⟨15, 0, .ro, 0x0⟩]⟩
  | .cxlStatus => -- CXL_STATUS
    ⟨.cxl, 0x0, 0, 1, 64, false, false,
      [⟨63, 63, .ro, 0x0⟩, ⟨62, 62, .ro, 0x0⟩, ⟨61, 60, .ro, 0x0⟩, ⟨59, 59, .ro, 0x0⟩, ⟨58, 58, .w1c, 0x0⟩, ⟨57, 57, .ro, 0x0⟩, ⟨51, 48, .ro, 0x0⟩, ⟨47, 44, .ro, 0x0⟩]⟩
  | .cxlHdm => -- CXL_HDM
    ⟨.cxl, 0x8, 0, 1, 64, false, false,
      [⟨10, 0, .rw, 0x600⟩]⟩
  | .cxlTimeouts => -- CXL_TIMEOUTS
    ⟨.cxl, 0x10, 0, 1, 32, false, true,
      [⟨31, 16, .rw, 0x400⟩, ⟨15, 0, .rw, 0x4000⟩]⟩
  | .cxlTracker => -- CXL_TRACKER
    ⟨.cxl, 0x18, 0, 1, 64, false, false,
      [⟨63, 32, .rc, 0x0⟩, ⟨19, 0, .ro, 0x0⟩]⟩
  | .cxlFaultAddr => -- CXL_FAULT_ADDR
    ⟨.cxl, 0x20, 0, 1, 64, false, false,
      [⟨47, 0, .ro, 0x0⟩]⟩
  | .cxlFaultInfo => -- CXL_FAULT_INFO
    ⟨.cxl, 0x28, 0, 1, 64, false, false,
      [⟨63, 63, .w1c, 0x0⟩, ⟨62, 62, .w1c, 0x0⟩, ⟨47, 32, .rc, 0x0⟩, ⟨31, 28, .ro, 0x0⟩, ⟨27, 24, .ro, 0x0⟩, ⟨20, 17, .ro, 0x0⟩, ⟨16, 0, .ro, 0x0⟩]⟩
  | .cxlFarMap => -- CXL_FAR_MAP
    ⟨.cxl, 0x100, 16, 16, 64, false, false,
      [⟨63, 63, .rw, 0x0⟩, ⟨62, 62, .rw, 0x0⟩, ⟨43, 32, .rw, 0x0⟩, ⟨12, 0, .rw, 0x0⟩]⟩
  | .cxlFarTgt => -- CXL_FAR_TGT
    ⟨.cxl, 0x108, 16, 16, 64, false, false,
      [⟨51, 30, .rw, 0x0⟩]⟩
  | .cxlQsqBase => -- CXL_QSQ_BASE
    ⟨.cxl, 0x1000, 64, 16, 64, false, false,
      [⟨51, 12, .rw, 0x0⟩]⟩
  | .cxlQcqBase => -- CXL_QCQ_BASE
    ⟨.cxl, 0x1008, 64, 16, 64, false, false,
      [⟨51, 12, .rw, 0x0⟩]⟩
  | .cxlQctrl => -- CXL_QCTRL
    ⟨.cxl, 0x1010, 64, 16, 64, false, false,
      [⟨63, 63, .rw, 0x0⟩, ⟨62, 62, .rw, 0x0⟩, ⟨61, 60, .ro, 0x0⟩, ⟨59, 56, .rw, 0x0⟩, ⟨55, 52, .ro, 0x0⟩, ⟨31, 16, .ro, 0x0⟩, ⟨15, 0, .ro, 0x0⟩]⟩
  | .cxlQsqDb => -- CXL_QSQ_DB
    ⟨.cxl, 0x1018, 64, 16, 32, false, false,
      [⟨15, 0, .wo, 0x0⟩]⟩
  | .cxlQcqDb => -- CXL_QCQ_DB
    ⟨.cxl, 0x1020, 64, 16, 32, false, false,
      [⟨15, 0, .wo, 0x0⟩]⟩
  | .rtrStatus => -- RTR_STATUS
    ⟨.rtr, 0x0, 0, 1, 64, false, false,
      [⟨63, 63, .ro, 0x0⟩, ⟨62, 62, .ro, 0x0⟩, ⟨31, 0, .rc, 0x0⟩]⟩
  | .rtrAdapt => -- RTR_ADAPT
    ⟨.rtr, 0x8, 0, 1, 32, false, true,
      [⟨15, 8, .rw, 0xFF⟩, ⟨3, 0, .rw, 0x1⟩]⟩
  | .rtrClassWeight => -- RTR_CLASS_WEIGHT
    ⟨.rtr, 0xC, 0, 1, 32, false, true,
      [⟨31, 24, .rw, 0x8⟩, ⟨23, 16, .rw, 0x4⟩, ⟨15, 8, .rw, 0x2⟩, ⟨7, 0, .rw, 0x2⟩]⟩
  | .rtrDrop => -- RTR_DROP
    ⟨.rtr, 0x10, 0, 1, 64, false, false,
      [⟨63, 48, .rc, 0x0⟩, ⟨47, 32, .rc, 0x0⟩, ⟨31, 16, .rc, 0x0⟩]⟩
  | .rtrFaultAddr => -- RTR_FAULT_ADDR
    ⟨.rtr, 0x18, 0, 1, 64, false, false,
      [⟨47, 0, .ro, 0x0⟩]⟩
  | .rtrFaultInfo => -- RTR_FAULT_INFO
    ⟨.rtr, 0x20, 0, 1, 64, false, false,
      [⟨63, 63, .w1c, 0x0⟩, ⟨62, 62, .w1c, 0x0⟩, ⟨61, 46, .rc, 0x0⟩, ⟨45, 44, .ro, 0x0⟩, ⟨43, 38, .ro, 0x0⟩, ⟨37, 37, .ro, 0x0⟩, ⟨36, 35, .ro, 0x0⟩, ⟨34, 21, .ro, 0x0⟩, ⟨20, 7, .ro, 0x0⟩, ⟨6, 6, .ro, 0x0⟩]⟩
  | .niStatus => -- NI_STATUS
    ⟨.ni, 0x0, 0, 1, 64, false, false,
      [⟨63, 63, .ro, 0x0⟩, ⟨58, 48, .ro, 0x0⟩, ⟨47, 32, .ro, 0x0⟩, ⟨16, 0, .ro, 0x0⟩]⟩
  | .niEpoch => -- NI_EPOCH
    ⟨.ni, 0x8, 0, 1, 32, false, false,
      [⟨15, 0, .ro, 0x0⟩]⟩
  | .niResend => -- NI_RESEND
    ⟨.ni, 0x10, 0, 1, 64, false, true,
      [⟨63, 48, .rw, 0x40⟩, ⟨35, 32, .rw, 0x5⟩, ⟨15, 0, .rw, 0x20⟩]⟩
  | .niCntA => -- NI_CNT_A
    ⟨.ni, 0x18, 0, 1, 64, false, false,
      [⟨63, 32, .rc, 0x0⟩, ⟨31, 0, .rc, 0x0⟩]⟩
  | .niCntB => -- NI_CNT_B
    ⟨.ni, 0x20, 0, 1, 64, false, false,
      [⟨63, 32, .rc, 0x0⟩, ⟨31, 0, .rc, 0x0⟩]⟩
  | .niPairReset => -- NI_PAIR_RESET
    ⟨.ni, 0x28, 0, 1, 64, false, false,
      [⟨13, 0, .wo, 0x0⟩]⟩
  | .niFaultAddr => -- NI_FAULT_ADDR
    ⟨.ni, 0x30, 0, 1, 64, false, false,
      [⟨47, 0, .ro, 0x0⟩]⟩
  | .niFaultInfo => -- NI_FAULT_INFO
    ⟨.ni, 0x38, 0, 1, 64, false, false,
      [⟨63, 63, .w1c, 0x0⟩, ⟨62, 62, .w1c, 0x0⟩, ⟨61, 46, .rc, 0x0⟩, ⟨45, 42, .ro, 0x0⟩, ⟨41, 41, .ro, 0x0⟩, ⟨40, 39, .ro, 0x0⟩, ⟨38, 37, .ro, 0x0⟩, ⟨36, 31, .ro, 0x0⟩, ⟨30, 17, .ro, 0x0⟩, ⟨16, 13, .ro, 0x0⟩]⟩
  | .niReplay => -- NI_REPLAY
    ⟨.ni, 0x40, 0, 1, 64, false, false,
      [⟨47, 32, .rc, 0x0⟩, ⟨31, 0, .rc, 0x0⟩]⟩
  | .niCoh => -- NI_COH
    ⟨.ni, 0x48, 0, 1, 64, false, false,
      [⟨63, 32, .rc, 0x0⟩, ⟨20, 0, .ro, 0x0⟩]⟩
  | .niFatal => -- NI_FATAL
    ⟨.ni, 0x50, 0, 1, 64, false, false,
      [⟨63, 63, .w1c, 0x0⟩, ⟨62, 62, .w1c, 0x0⟩, ⟨59, 56, .ro, 0x0⟩, ⟨13, 0, .ro, 0x0⟩]⟩
  | .klnStatus => -- KLN_STATUS
    ⟨.kln, 0x0, 0, 1, 64, false, false,
      [⟨63, 63, .ro, 0x0⟩, ⟨59, 48, .ro, 0x0⟩, ⟨6, 0, .ro, 0x0⟩]⟩
  | .klnSubmit => -- KLN_SUBMIT
    ⟨.kln, 0x8, 0, 1, 64, true, false,
      [⟨47, 0, .wo, 0x0⟩]⟩
  | .klnCtrl => -- KLN_CTRL
    ⟨.kln, 0x10, 0, 1, 64, false, false,
      [⟨9, 8, .wo, 0x0⟩, ⟨5, 0, .wo, 0x0⟩]⟩
  | .klnStall => -- KLN_STALL
    ⟨.kln, 0x18, 0, 1, 32, false, true,
      [⟨15, 0, .rw, 0x100⟩]⟩
  | .klnCnt => -- KLN_CNT
    ⟨.kln, 0x20, 0, 1, 64, false, false,
      [⟨63, 32, .rc, 0x0⟩, ⟨31, 0, .rc, 0x0⟩]⟩
  | .klnFaultAddr => -- KLN_FAULT_ADDR
    ⟨.kln, 0x28, 0, 1, 64, false, false,
      [⟨47, 0, .ro, 0x0⟩]⟩
  | .klnFaultInfo => -- KLN_FAULT_INFO
    ⟨.kln, 0x30, 0, 1, 64, false, false,
      [⟨63, 63, .w1c, 0x0⟩, ⟨62, 62, .w1c, 0x0⟩, ⟨61, 58, .ro, 0x0⟩, ⟨57, 54, .ro, 0x0⟩, ⟨53, 48, .ro, 0x0⟩, ⟨47, 32, .ro, 0x0⟩, ⟨31, 18, .ro, 0x0⟩, ⟨17, 4, .ro, 0x0⟩, ⟨3, 0, .ro, 0x0⟩]⟩
  | .klnFaultDigest => -- KLN_FAULT_DIGEST
    ⟨.kln, 0x38, 0, 1, 64, false, false,
      [⟨63, 0, .ro, 0x0⟩]⟩
  | .klnGradSubmit => -- KLN_GRAD_SUBMIT
    ⟨.kln, 0x40, 0, 1, 64, true, false,
      [⟨47, 0, .wo, 0x0⟩]⟩
  | .klnOverflow => -- KLN_OVERFLOW
    ⟨.kln, 0x48, 0, 1, 64, false, false,
      [⟨63, 32, .rc, 0x0⟩, ⟨31, 16, .ro, 0x0⟩, ⟨13, 8, .ro, 0x0⟩]⟩
  | .klnRedelivery => -- KLN_REDELIVERY
    ⟨.kln, 0x50, 0, 1, 64, false, false,
      [⟨63, 32, .rc, 0x0⟩, ⟨31, 0, .rc, 0x0⟩]⟩
  | .klnSubmitResult => -- KLN_SUBMIT_RESULT
    ⟨.kln, 0x58, 0, 1, 64, false, false,
      [⟨63, 63, .ro, 0x0⟩, ⟨59, 56, .ro, 0x0⟩, ⟨55, 48, .ro, 0x0⟩, ⟨47, 0, .ro, 0x0⟩]⟩
  | .klnGroup => -- KLN_GROUP
    ⟨.kln, 0x100, 8, 64, 64, false, false,
      [⟨63, 63, .ro, 0x0⟩, ⟨62, 62, .ro, 0x0⟩, ⟨61, 57, .ro, 0x0⟩, ⟨56, 56, .ro, 0x0⟩, ⟨47, 32, .ro, 0x0⟩, ⟨31, 0, .ro, 0x0⟩]⟩
  | .klnChan => -- KLN_CHAN
    ⟨.kln, 0x400, 8, 16, 64, false, false,
      [⟨63, 63, .ro, 0x0⟩, ⟨62, 62, .ro, 0x0⟩, ⟨61, 59, .ro, 0x0⟩, ⟨57, 52, .ro, 0x0⟩, ⟨51, 32, .ro, 0x0⟩, ⟨31, 0, .ro, 0x0⟩]⟩
  | .klnChanCfg => -- KLN_CHAN_CFG
    ⟨.kln, 0x480, 4, 16, 32, false, true,
      [⟨15, 0, .rw, 0x40⟩]⟩
  | .hthStatus => -- HTH_STATUS
    ⟨.hth, 0x0, 0, 1, 64, false, false,
      [⟨63, 63, .ro, 0x0⟩, ⟨62, 54, .ro, 0x0⟩, ⟨53, 52, .ro, 0x0⟩]⟩
  | .hthCfg => -- HTH_CFG
    ⟨.hth, 0x8, 0, 1, 32, false, true,
      [⟨31, 24, .rw, 0xA⟩, ⟨23, 20, .rw, 0x1⟩, ⟨15, 0, .rw, 0x1000⟩]⟩
  | .hthEvent => -- HTH_EVENT
    ⟨.hth, 0x10, 0, 1, 64, false, false,
      [⟨63, 63, .w1c, 0x0⟩, ⟨62, 62, .w1c, 0x0⟩, ⟨61, 46, .rc, 0x0⟩, ⟨45, 44, .ro, 0x0⟩, ⟨43, 43, .ro, 0x0⟩, ⟨42, 39, .ro, 0x0⟩, ⟨38, 35, .ro, 0x0⟩]⟩
  | .hthPortStatus => -- HTH_PORT_STATUS
    ⟨.hth, 0x1000, 256, 4, 64, false, false,
      [⟨63, 63, .ro, 0x0⟩, ⟨62, 60, .ro, 0x0⟩, ⟨59, 56, .ro, 0x0⟩, ⟨55, 52, .ro, 0x0⟩, ⟨51, 46, .ro, 0x0⟩, ⟨43, 30, .ro, 0x0⟩, ⟨15, 0, .rc, 0x0⟩]⟩
  | .hthPortCtrl => -- HTH_PORT_CTRL
    ⟨.hth, 0x1008, 256, 4, 32, false, false,
      [⟨1, 1, .rw, 0x0⟩, ⟨0, 0, .wo, 0x0⟩]⟩
  | .hthLaneTx => -- HTH_LANE_TX
    ⟨.hth, 0x1010, 256, 4, 64, false, false,
      [⟨57, 40, .ro, 0x0⟩, ⟨39, 36, .ro, 0xF⟩, ⟨35, 32, .ro, 0xF⟩, ⟨31, 0, .ro, 0xFFFFFFFF⟩]⟩
  | .hthLaneRx => -- HTH_LANE_RX
    ⟨.hth, 0x1018, 256, 4, 64, false, false,
      [⟨57, 40, .ro, 0x0⟩, ⟨39, 36, .ro, 0xF⟩, ⟨35, 32, .ro, 0xF⟩, ⟨31, 0, .ro, 0xFFFFFFFF⟩]⟩
  | .hthPortCnt => -- HTH_PORT_CNT
    ⟨.hth, 0x1020, 256, 4, 64, false, false,
      [⟨63, 32, .rc, 0x0⟩, ⟨31, 0, .rc, 0x0⟩]⟩
  | .flkArithInexactLo => -- FLK_ARITH_INEXACT_LO
    ⟨.flk, 0x18000, 0, 1, 64, false, false,
      [⟨63, 0, .w1c, 0x0⟩]⟩
  | .flkArithInexactHi => -- FLK_ARITH_INEXACT_HI
    ⟨.flk, 0x18008, 0, 1, 64, false, false,
      [⟨55, 0, .w1c, 0x0⟩]⟩
  | .flkArithOverflowLo => -- FLK_ARITH_OVERFLOW_LO
    ⟨.flk, 0x18010, 0, 1, 64, false, false,
      [⟨63, 0, .w1c, 0x0⟩]⟩
  | .flkArithOverflowHi => -- FLK_ARITH_OVERFLOW_HI
    ⟨.flk, 0x18018, 0, 1, 64, false, false,
      [⟨55, 0, .w1c, 0x0⟩]⟩
  | .flkArrayFault => -- FLK_ARRAY_FAULT
    ⟨.flk, 0x18100, 8, 120, 64, false, false,
      [⟨63, 63, .w1c, 0x0⟩, ⟨62, 62, .w1c, 0x0⟩, ⟨59, 56, .ro, 0x0⟩, ⟨55, 52, .ro, 0x0⟩, ⟨51, 47, .ro, 0x0⟩, ⟨46, 45, .ro, 0x0⟩, ⟨41, 21, .ro, 0x0⟩, ⟨20, 0, .ro, 0x0⟩]⟩
  | .flkCoreFault => -- FLK_CORE_FAULT
    ⟨.flk, 0x18800, 8, 120, 64, false, false,
      [⟨63, 63, .w1c, 0x0⟩, ⟨62, 62, .w1c, 0x0⟩, ⟨61, 61, .ro, 0x0⟩, ⟨59, 56, .ro, 0x0⟩, ⟨55, 52, .ro, 0x0⟩, ⟨51, 47, .ro, 0x0⟩, ⟨43, 24, .ro, 0x0⟩, ⟨23, 16, .ro, 0x0⟩, ⟨15, 0, .ro, 0x0⟩]⟩
  | .flkCoreHaltLo => -- FLK_CORE_HALT_LO
    ⟨.flk, 0x18C00, 0, 1, 64, false, false,
      [⟨63, 0, .w1c, 0x0⟩]⟩
  | .flkCoreHaltHi => -- FLK_CORE_HALT_HI
    ⟨.flk, 0x18C08, 0, 1, 64, false, false,
      [⟨55, 0, .w1c, 0x0⟩]⟩
  | .flkFaultAddr => -- FLK_FAULT_ADDR
    ⟨.flk, 0x18C10, 0, 1, 64, false, false,
      [⟨47, 0, .ro, 0x0⟩]⟩
  | .flkFaultInfo => -- FLK_FAULT_INFO
    ⟨.flk, 0x18C18, 0, 1, 64, false, false,
      [⟨63, 63, .w1c, 0x0⟩, ⟨62, 62, .w1c, 0x0⟩, ⟨47, 32, .rc, 0x0⟩, ⟨31, 28, .ro, 0x0⟩, ⟨27, 24, .ro, 0x0⟩, ⟨16, 0, .ro, 0x0⟩]⟩
  | .flkTimeouts => -- FLK_TIMEOUTS
    ⟨.flk, 0x18C20, 0, 1, 32, false, true,
      [⟨31, 16, .rw, 0x4000⟩, ⟨15, 0, .rw, 0x4000⟩]⟩
  | .flkCoreDoneLo => -- FLK_CORE_DONE_LO
    ⟨.flk, 0x18C40, 0, 1, 64, false, false,
      [⟨63, 0, .w1c, 0x0⟩]⟩
  | .flkCoreDoneHi => -- FLK_CORE_DONE_HI
    ⟨.flk, 0x18C48, 0, 1, 64, false, false,
      [⟨55, 0, .w1c, 0x0⟩]⟩
  | .flkSigFault => -- FLK_SIG_FAULT
    ⟨.flk, 0x18C50, 0, 1, 64, false, false,
      [⟨63, 63, .w1c, 0x0⟩, ⟨62, 62, .w1c, 0x0⟩, ⟨59, 56, .ro, 0x0⟩, ⟨55, 52, .ro, 0x0⟩, ⟨51, 51, .ro, 0x0⟩, ⟨50, 34, .ro, 0x0⟩, ⟨21, 0, .ro, 0x0⟩]⟩
  | .flkCoreMap => -- FLK_CORE_MAP
    ⟨.flk, 0x19000, 8, 15, 64, false, false,
      [⟨62, 56, .ro, 0x0⟩, ⟨54, 48, .ro, 0x0⟩, ⟨46, 40, .ro, 0x0⟩, ⟨38, 32, .ro, 0x0⟩, ⟨30, 24, .ro, 0x0⟩, ⟨22, 16, .ro, 0x0⟩, ⟨14, 8, .ro, 0x0⟩, ⟨6, 0, .ro, 0x0⟩]⟩
  | .flkPhysGoodLo => -- FLK_PHYS_GOOD_LO
    ⟨.flk, 0x19080, 0, 1, 64, false, false,
      [⟨63, 0, .ro, 0xFFFFFFFFFFFFFFFF⟩]⟩
  | .flkPhysGoodHi => -- FLK_PHYS_GOOD_HI
    ⟨.flk, 0x19088, 0, 1, 64, false, false,
      [⟨63, 0, .ro, 0xFFFFFFFFFFFFFFFF⟩]⟩
  | .flkFoldState => -- FLK_FOLD_STATE
    ⟨.flk, 0x19090, 0, 1, 64, false, false,
      [⟨33, 32, .ro, 0x0⟩, ⟨31, 0, .ro, 0x0⟩]⟩
  | .pasArithSummary => -- PAS_ARITH_SUMMARY
    ⟨.pas, 0x1000, 0, 1, 64, false, false,
      [⟨55, 0, .ro, 0x0⟩]⟩
  | .stkStatus => -- STK_STATUS
    ⟨.stk, 0x0, 0, 1, 64, false, false,
      [⟨63, 63, .ro, 0x0⟩, ⟨62, 62, .ro, 0x0⟩, ⟨61, 61, .ro, 0x1⟩, ⟨60, 60, .ro, 0x0⟩, ⟨59, 59, .ro, 0x0⟩, ⟨58, 58, .w1c, 0x0⟩, ⟨44, 32, .ro, 0x0⟩, ⟨12, 0, .ro, 0x0⟩]⟩
  | .stkCtrl => -- STK_CTRL
    ⟨.stk, 0x8, 0, 1, 32, false, false,
      [⟨0, 0, .wo, 0x0⟩]⟩
  | .stkEcc => -- STK_ECC
    ⟨.stk, 0x10, 0, 1, 64, false, false,
      [⟨63, 32, .rc, 0x0⟩, ⟨31, 0, .rc, 0x0⟩]⟩
  | .stkGate => -- STK_GATE
    ⟨.stk, 0x18, 0, 1, 32, false, true,
      [⟨15, 0, .rw, 0x400⟩]⟩
  | .stkFaultAddr => -- STK_FAULT_ADDR
    ⟨.stk, 0x20, 0, 1, 64, false, false,
      [⟨47, 0, .ro, 0x0⟩]⟩
  | .stkFaultInfo => -- STK_FAULT_INFO
    ⟨.stk, 0x28, 0, 1, 64, false, false,
      [⟨63, 63, .w1c, 0x0⟩, ⟨62, 62, .w1c, 0x0⟩, ⟨47, 32, .rc, 0x0⟩, ⟨31, 28, .ro, 0x0⟩, ⟨27, 24, .ro, 0x0⟩, ⟨23, 20, .ro, 0x0⟩, ⟨16, 0, .ro, 0x0⟩]⟩
  | .peatStatus => -- PEAT_STATUS
    ⟨.peat, 0x80000, 0, 1, 64, false, false,
      [⟨63, 63, .ro, 0x0⟩, ⟨62, 62, .ro, 0x0⟩, ⟨6, 0, .ro, 0x0⟩]⟩
  | .peatSkipped => -- PEAT_SKIPPED
    ⟨.peat, 0x80008, 0, 1, 32, false, false,
      [⟨31, 0, .rc, 0x0⟩]⟩
  | .peatFaultAddr => -- PEAT_FAULT_ADDR
    ⟨.peat, 0x80010, 0, 1, 64, false, false,
      [⟨47, 0, .ro, 0x0⟩]⟩
  | .peatFaultInfo => -- PEAT_FAULT_INFO
    ⟨.peat, 0x80018, 0, 1, 64, false, false,
      [⟨63, 63, .w1c, 0x0⟩, ⟨62, 62, .w1c, 0x0⟩, ⟨61, 46, .rc, 0x0⟩, ⟨45, 42, .ro, 0x0⟩, ⟨41, 34, .ro, 0x0⟩, ⟨33, 17, .ro, 0x0⟩, ⟨16, 0, .ro, 0x0⟩]⟩

/-- The registers of each block (R774). -/
def Block.regs : Block → List Reg
  | .drv => [.drvPartId, .drvSelf, .drvFoldSrc, .drvFoldCtrl, .drvFoldStatus, .drvFoldId, .drvRankWrite,
      .drvReady, .drvResetCtrl, .drvResetStatus, .drvResetCfg, .drvResetAddr, .drvResetInfo, .drvClkStatus,
      .drvEvtHead, .drvEvtDetail, .drvEvtAddr, .drvEvtStatus, .drvRetire, .drvMusterCfg, .drvMusterStatus,
      .drvDeclare, .drvShadowCtrl, .drvShadowRing, .drvShadowWin, .drvShadowStatus]
  | .thm => [.thmStatus, .thmCfg, .thmSlew, .thmPower, .thmEvent, .thmPas, .thmStk]
  | .sec => [.secFwStatus, .secFwCtrl, .secBank, .secPolicy, .secFoldKey, .secLms, .secRelayCfg,
      .secRelayStatus, .secIdLo, .secIdHi]
  | .cxl => [.cxlStatus, .cxlHdm, .cxlTimeouts, .cxlTracker, .cxlFaultAddr, .cxlFaultInfo, .cxlFarMap,
      .cxlFarTgt, .cxlQsqBase, .cxlQcqBase, .cxlQctrl, .cxlQsqDb, .cxlQcqDb]
  | .rtr => [.rtrStatus, .rtrAdapt, .rtrClassWeight, .rtrDrop, .rtrFaultAddr, .rtrFaultInfo]
  | .ni => [.niStatus, .niEpoch, .niResend, .niCntA, .niCntB, .niPairReset, .niFaultAddr, .niFaultInfo,
      .niReplay, .niCoh, .niFatal]
  | .kln => [.klnStatus, .klnSubmit, .klnCtrl, .klnStall, .klnCnt, .klnFaultAddr, .klnFaultInfo,
      .klnFaultDigest, .klnGradSubmit, .klnOverflow, .klnRedelivery, .klnSubmitResult, .klnGroup, .klnChan,
      .klnChanCfg]
  | .hth => [.hthStatus, .hthCfg, .hthEvent, .hthPortStatus, .hthPortCtrl, .hthLaneTx, .hthLaneRx, .hthPortCnt]
  | .flk => [.flkArithInexactLo, .flkArithInexactHi, .flkArithOverflowLo, .flkArithOverflowHi, .flkArrayFault,
      .flkCoreFault, .flkCoreHaltLo, .flkCoreHaltHi, .flkFaultAddr, .flkFaultInfo, .flkTimeouts,
      .flkCoreDoneLo, .flkCoreDoneHi, .flkSigFault, .flkCoreMap, .flkPhysGoodLo, .flkPhysGoodHi, .flkFoldState]
  | .pas => [.pasArithSummary]
  | .stk => [.stkStatus, .stkCtrl, .stkEcc, .stkGate, .stkFaultAddr, .stkFaultInfo]
  | .peat => [.peatStatus, .peatSkipped, .peatFaultAddr, .peatFaultInfo]

/-- The base of instance `i` of a block (Table 1.8); FLK_ instances are numbered by the logical flock index F. -/
def Block.base : Block → Nat → Nat
  | .drv, _ => 0x030000000000
  | .thm, _ => 0x030000100000
  | .sec, _ => 0x030000200000
  | .cxl, _ => 0x030000300000
  | .rtr, i => 0x030001000000 + i * 0x10000
  | .kln, _ => 0x030002000000
  | .hth, i => 0x030003000000 + i * 0x40000
  | .ni, _ => 0x030004000000
  | .flk, i => 0x030010000000 + (i / 56) * 0x1000000 + (i % 56) * 0x20000
  | .pas, i => 0x030010000000 + i * 0x1000000 + 0x800000
  | .stk, i => 0x030020000000 + i * 0x100000
  | .peat, i => 0x030020000000 + i * 0x100000

/-- The address of member `j` of a register in instance `i` of its block. -/
def Reg.addr (r : Reg) (i j : Nat) : Nat := r.row.block.base i + r.row.off + j * r.row.step

/-- The value of a register whose fields hold their table's reset values. -/
def Reg.resetVal (r : Reg) : Nat := r.row.fields.foldl (fun acc f => acc + f.rst <<< f.lo) 0

/-- What stands at an address of the register range. -/
inductive RegHit where
  | unmapped                           -- in no window (R777)
  | hole (b : Block) (i : Nat)         -- within a window, no register (R3)
  | reg (r : Reg) (i j : Nat)
deriving DecidableEq, Repr

/-- The window that an address lies in: block, instance and offset (Table 1.8, R777). -/
def windowOf (a : Nat) : Option (Block × Nat × Nat) :=
  let o := a - 0x030000000000
  if a < 0x030000000000 then none
  else if o < 0x100000 then some (.drv, 0, o)
  else if o < 0x200000 then some (.thm, 0, o - 0x100000)
  else if o < 0x300000 then some (.sec, 0, o - 0x200000)
  else if o < 0x400000 then some (.cxl, 0, o - 0x300000)
  else if 0x1000000 ≤ o ∧ o < 0x10C0000 then some (.rtr, (o - 0x1000000) / 0x10000, o % 0x10000)
  else if 0x2000000 ≤ o ∧ o < 0x2100000 then some (.kln, 0, o - 0x2000000)
  else if 0x3000000 ≤ o ∧ o < 0x3400000 then some (.hth, (o - 0x3000000) / 0x40000, o % 0x40000)
  else if 0x4000000 ≤ o ∧ o < 0x4100000 then some (.ni, 0, o - 0x4000000)
  else if 0x10000000 ≤ o ∧ o < 0x1C000000 then
    let p := (o - 0x10000000) / 0x1000000
    let q := o % 0x1000000
    if q < 0x700000 then some (.flk, p * 56 + q / 0x20000, q % 0x20000)
    else if 0x800000 ≤ q ∧ q < 0x900000 then some (.pas, p, q - 0x800000)
    else none
  else if 0x20000000 ≤ o ∧ o < 0x20C00000 then
    let q := o % 0x100000
    some (if q < 0x80000 then .stk else .peat, (o - 0x20000000) / 0x100000, q)
  else none

/-- The member of a register row at an offset of its block, if the row holds a register exactly there. -/
def RegRow.member (w : RegRow) (o : Nat) : Option Nat :=
  if o < w.off then none
  else if w.step = 0 then (if o = w.off then some 0 else none)
  else if (o - w.off) % w.step = 0 ∧ (o - w.off) / w.step < w.count then some ((o - w.off) / w.step)
  else none

/-- The register of a block at an offset, with its member number. -/
def Block.find (b : Block) (o : Nat) : Option (Reg × Nat) :=
  b.regs.findSome? fun r => (r.row.member o).map fun j => (r, j)

/-- What stands at an address of the register range (R777). -/
def regAt (a : Nat) : RegHit :=
  match windowOf a with
  | none => .unmapped
  | some (b, i, o) =>
    match b.find o with
    | some (r, j) => .reg r i j
    | none => .hole b i

/-- What the stored bits of a register become when software writes `v` (R4): RW fields take the value, W1C fields clear
where it has ones, W1S fields set where it has ones, and every other field keeps its bits. WO fields hold no value. -/
def Reg.written (r : Reg) (old v : Nat) : Nat :=
  r.row.fields.foldl (fun acc f =>
    match f.acc with
    | .rw => setBits acc f.hi f.lo (bits v f.hi f.lo)
    | .w1c => setBits acc f.hi f.lo (bits acc f.hi f.lo &&& (2 ^ 64 - 1 - bits v f.hi f.lo))
    | .w1s => setBits acc f.hi f.lo (bits acc f.hi f.lo ||| bits v f.hi f.lo)
    | _ => acc) old

/-- What a read of a register returns from its current bits: WO fields and reserved bits read zero (R4). -/
def Reg.readVal (r : Reg) (cur : Nat) : Nat :=
  r.row.fields.foldl (fun acc f =>
    match f.acc with
    | .wo => acc
    | _ => acc + (bits cur f.hi f.lo) <<< f.lo) 0

/-- What the stored bits of a register become when it is read: RC fields clear (R4). -/
def Reg.afterRead (r : Reg) (cur : Nat) : Nat :=
  r.row.fields.foldl (fun acc f =>
    match f.acc with
    | .rc => setBits acc f.hi f.lo 0
    | _ => acc) cur

end Sys2Proof.Machine
end

