-- ==== Sys2Proof/Machine/Sparse.lean ====
section
/-! DEFINITION. Finite maps by number in one canonical form: keys rise strictly and no entry holds the default, so
equal maps are equal lists. Memory, registers and the instances of repeated units are such maps. -/

namespace Sys2Proof.Machine

variable {α : Type}

/-- The value at `k`: the first entry's, or the default. -/
def Sparse.get (d : α) : SMap α → Nat → α
  | [], _ => d
  | (k', v) :: m, k => if k = k' then v else Sparse.get d m k

/-- The map without entries at `k`. -/
def Sparse.erase : SMap α → Nat → SMap α
  | [], _ => []
  | (k', v) :: m, k => if k = k' then Sparse.erase m k else (k', v) :: Sparse.erase m k

/-- The map with entry `(k, v)`, in order. -/
def Sparse.insert : SMap α → Nat → α → SMap α
  | [], k, v => [(k, v)]
  | (k', v') :: m, k, v =>
    if k = k' then (k, v) :: m else if k < k' then (k, v) :: (k', v') :: m else (k', v') :: Sparse.insert m k v

/-- The map with `v` at `k`; writing the default removes the entry. -/
def Sparse.set [DecidableEq α] (d : α) (m : SMap α) (k : Nat) (v : α) : SMap α :=
  if v = d then Sparse.erase m k else Sparse.insert m k v

/-- The map with the value at `k` changed by `f`. -/
def Sparse.upd [DecidableEq α] (d : α) (m : SMap α) (k : Nat) (f : α → α) : SMap α :=
  Sparse.set d m k (f (Sparse.get d m k))

/-- The map without the entries whose key satisfies `p`: those keys return to the default. -/
def Sparse.drop (p : Nat → Bool) (m : SMap α) : SMap α := m.filter fun e => !p e.1

/-- The canonical form: keys rise strictly above `lo` and no value is the default. -/
def Sparse.above [DecidableEq α] (d : α) : Option Nat → SMap α → Bool
  | _, [] => true
  | lo, (k, v) :: m =>
    (match lo with | none => true | some l => decide (l < k)) && !decide (v = d) && Sparse.above d (some k) m

/-- The map is in canonical form. -/
def Sparse.wf [DecidableEq α] (d : α) (m : SMap α) : Bool := Sparse.above d none m

/-- The bytes of `n` addresses from `a`; an address that is not listed reads as zero. -/
def Sparse.readBytes (m : SMap Byte) (a : Nat) : Nat → List Byte
  | 0 => []
  | n + 1 => Sparse.get 0 m a :: Sparse.readBytes m (a + 1) n

/-- The memory with the bytes stored from address `a` on. -/
def Sparse.writeBytes (m : SMap Byte) (a : Nat) : List Byte → SMap Byte
  | [] => m
  | b :: bs => Sparse.writeBytes (Sparse.set 0 m a b) (a + 1) bs

end Sys2Proof.Machine
end

