-- ==== Sys2Proof/Machine/Formats.lean ====
section
/-! DEFINITION. Number formats (02_arithmetic.md): the floating-point layouts of Table 2.3, conversion with one rounding
to nearest, ties to even (R64), and microscaled blocks (R50 to R52, R66). -/

namespace Sys2Proof.Machine

/-- A floating-point layout of Table 2.3: exponent and mantissa widths, bias, and whether the format has infinities
and NaNs by IEEE 754, only the single E4M3 NaN, or neither. -/
structure FloatFmt where
  eb   : Nat
  mb   : Nat
  bias : Nat
  ieee : Bool
  one  : Bool      -- E4M3: S.1111.111 is a NaN
deriving DecidableEq, Repr

def fp32 : FloatFmt := { eb := 8, mb := 23, bias := 127, ieee := true, one := false }
def bf16 : FloatFmt := { eb := 8, mb := 7, bias := 127, ieee := true, one := false }
def fp16 : FloatFmt := { eb := 5, mb := 10, bias := 15, ieee := true, one := false }
def e4m3 : FloatFmt := { eb := 4, mb := 3, bias := 7, ieee := false, one := true }
def e5m2 : FloatFmt := { eb := 5, mb := 2, bias := 15, ieee := true, one := false }
def e3m2 : FloatFmt := { eb := 3, mb := 2, bias := 3, ieee := false, one := false }
def e2m3 : FloatFmt := { eb := 2, mb := 3, bias := 1, ieee := false, one := false }
def e2m1 : FloatFmt := { eb := 2, mb := 1, bias := 1, ieee := false, one := false }

/-- The exact value of a floating-point element: `fin neg m e` is `(-1)^neg · m · 2^e`. -/
inductive FVal where
  | nan (neg : Bool)
  | inf (neg : Bool)
  | fin (neg : Bool) (m : Nat) (e : Int)
deriving DecidableEq, Repr

/-- The place of the sign bit. -/
def FloatFmt.signBit (f : FloatFmt) : Nat := f.eb + f.mb

/-- The greatest code, without sign, of a finite value (Table 2.3). -/
def FloatFmt.maxCode (f : FloatFmt) : Nat :=
  if f.ieee then (2 ^ f.eb - 1) * 2 ^ f.mb - 1
  else if f.one then 2 ^ (f.eb + f.mb) - 2
  else 2 ^ (f.eb + f.mb) - 1

/-- The code, without sign, of the NaN that the GQ12 produces (R47). -/
def FloatFmt.nanCode (f : FloatFmt) : Nat :=
  if f.ieee then (2 ^ f.eb - 1) * 2 ^ f.mb + 2 ^ (f.mb - 1) else 2 ^ (f.eb + f.mb) - 1

/-- The value of an element (R46, R48: subnormal codes are values). -/
def FloatFmt.decode (f : FloatFmt) (w : Nat) : FVal :=
  let neg := bit w f.signBit
  let ex := bits w (f.eb + f.mb - 1) f.mb
  let mant := w % 2 ^ f.mb
  if f.ieee && ex == 2 ^ f.eb - 1 then (if mant = 0 then .inf neg else .nan neg)
  else if f.one && w % 2 ^ (f.eb + f.mb) == 2 ^ (f.eb + f.mb) - 1 then .nan neg
  else if ex = 0 then .fin neg mant (1 - (f.bias : Int) - f.mb)
  else .fin neg (2 ^ f.mb + mant) ((ex : Int) - f.bias - f.mb)

/-- The code, without sign, of the magnitude `m · 2^e` rounded to nearest, ties to even (R64); none beyond the largest
finite value. -/
def FloatFmt.roundMag (f : FloatFmt) (m : Nat) (e : Int) : Option Nat :=
  if m = 0 then some 0 else
    let emin : Int := 1 - f.bias
    let lead : Int := (Nat.log2 m : Int) + e
    let top := max lead emin
    let q := top - f.mb
    let mant := (rneInt m (e - q)).toNat
    let code := ((top + f.bias - 1) * (2 ^ f.mb : Nat)).toNat + mant
    if code ≤ f.maxCode then some code else none

/-- The code with its sign. -/
def FloatFmt.signed (f : FloatFmt) (neg : Bool) (code : Nat) : Nat := code + neg.toNat * 2 ^ f.signBit

/-- A value converted to a plain element of the format by R64 and Table 2.5. FP32, BF16 and FP16 go to infinity beyond
the largest finite value; E4M3 and E5M2 hold the largest finite value, and E4M3 holds it for an infinity too. -/
def FloatFmt.encode (f : FloatFmt) : FVal → Nat
  | .nan neg => f.signed neg f.nanCode
  | .inf neg => f.signed neg (if f.ieee then f.maxCode + 1 else f.maxCode)
  | .fin neg m e =>
    match f.roundMag m e with
    | some c => f.signed neg c
    | none => f.signed neg (if f.ieee && f.mb > 2 then f.maxCode + 1 else f.maxCode)

/-- The sign of a value. -/
def FVal.neg : FVal → Bool
  | .nan n => n
  | .inf n => n
  | .fin n _ _ => n

/-- The value with its sign flipped when `b`. -/
def FVal.flip (b : Bool) : FVal → FVal
  | .nan n => .nan (n != b)
  | .inf n => .inf (n != b)
  | .fin n m e => .fin (n != b) m e

/-- The signed significand of a finite value. -/
def sgn (neg : Bool) (m : Nat) : Int := if neg then -(m : Int) else m

/-- A value that is a number with significand `x` and exponent `e`; zero takes the sign `zneg`. -/
def FVal.ofInt (zneg : Bool) (x : Int) (e : Int) : FVal :=
  if x = 0 then .fin zneg 0 e else .fin (decide (x < 0)) x.natAbs e

/-- The exact sum by IEEE 754: an exact zero sum of opposite signs is +0, and a sum of opposite infinities is a NaN.
A NaN operand gives a NaN with the sign of the first one (R47). -/
def FVal.add : FVal → FVal → FVal
  | .nan n, _ => .nan n
  | _, .nan n => .nan n
  | .inf a, .inf b => if a = b then .inf a else .nan false
  | .inf a, _ => .inf a
  | _, .inf b => .inf b
  | .fin an am ae, .fin bn bm be =>
    let e := min ae be
    let x := sgn an am * (2 ^ (ae - e).toNat : Nat) + sgn bn bm * (2 ^ (be - e).toNat : Nat)
    .ofInt (an && bn) x e

/-- The exact product by IEEE 754. -/
def FVal.mul : FVal → FVal → FVal
  | .nan n, _ => .nan n
  | _, .nan n => .nan n
  | .inf a, .inf b => .inf (a != b)
  | .inf a, .fin n m _ => if m = 0 then .nan false else .inf (a != n)
  | .fin n m _, .inf a => if m = 0 then .nan false else .inf (a != n)
  | .fin an am ae, .fin bn bm be => .fin (an != bn) (am * bm) (ae + be)

/-- The FP32 value of a word. -/
def f32 (w : Nat) : FVal := fp32.decode w

/-- A value rounded to FP32. -/
def toF32 (v : FVal) : Nat := fp32.encode v

/-- FP32 addition, rounded to nearest, ties to even. -/
def fAdd (a b : Nat) : Nat := toF32 (FVal.add (f32 a) (f32 b))

/-- FP32 multiplication. -/
def fMul (a b : Nat) : Nat := toF32 (FVal.mul (f32 a) (f32 b))

/-- FP32 `a · b + c` with one rounding. -/
def fFma (a b c : Nat) : Nat :=
  match f32 a, f32 b, f32 c with
  | .nan n, _, _ => toF32 (.nan n)
  | _, .nan n, _ => toF32 (.nan n)
  | _, _, .nan n => toF32 (.nan n)
  | x, y, z => toF32 (FVal.add (FVal.mul x y) z)

/-- FP32 with its sign flipped, the sign bit alone (R205). -/
def fNeg (a : Nat) : Nat := (a % 2 ^ 32) ^^^ 2 ^ 31

/-- FP32 subtraction; a NaN operand keeps its own sign (R47). -/
def fSub (a b : Nat) : Nat :=
  match f32 a, f32 b with
  | .nan n, _ => toF32 (.nan n)
  | _, .nan n => toF32 (.nan n)
  | x, y => toF32 (FVal.add x (y.flip true))

/-- FP32 division, correctly rounded: the quotient's significand carries 64 extra bits and a sticky bit, so that the one
rounding that follows is exact. -/
def fDiv (a b : Nat) : Nat :=
  toF32 (match f32 a, f32 b with
  | .nan n, _ => .nan n
  | _, .nan n => .nan n
  | .inf _, .inf _ => .nan false
  | .inf x, .fin n _ _ => .inf (x != n)
  | .fin n _ _, .inf y => .fin (n != y) 0 0
  | .fin an am ae, .fin bn bm be =>
    if bm = 0 then (if am = 0 then .nan false else .inf (an != bn))
    else
      let q := am * 2 ^ 64 / bm
      let sticky := if am * 2 ^ 64 % bm = 0 then 0 else 1
      .fin (an != bn) (2 * q + sticky) (ae - be - 65))

/-- The integer square root, found bit by bit from bit `k - 1` down. -/
def isqrtFrom (r : Nat) : Nat → Nat → Nat
  | 0, s => s
  | k + 1, s => isqrtFrom r k (if (s + 2 ^ k) * (s + 2 ^ k) ≤ r then s + 2 ^ k else s)

/-- FP32 square root, correctly rounded. The root of a negative number is a NaN; the root of −0 is −0. -/
def fSqrt (a : Nat) : Nat :=
  toF32 (match f32 a with
  | .nan n => .nan n
  | .inf n => if n then .nan false else .inf false
  | .fin n m e =>
    if m = 0 then .fin n 0 0
    else if n then .nan false
    else
      let odd : Nat := (e % 2).toNat
      let r := m * 2 ^ (odd + 64)
      let s := isqrtFrom r 48 0
      let sticky := if s * s = r then 0 else 1
      .fin false (2 * s + sticky) ((e - odd - 64) / 2 - 1))

/-- The order of two values that are not NaN; the zeros are equal. -/
def FVal.lt (a b : FVal) : Bool :=
  match a, b with
  | .nan _, _ => false
  | _, .nan _ => false
  | .inf x, .inf y => x && !y
  | .inf x, .fin _ _ _ => x
  | .fin _ _ _, .inf y => !y
  | .fin an am ae, .fin bn bm be =>
    let e := min ae be
    decide (sgn an am * (2 ^ (ae - e).toNat : Nat) < sgn bn bm * (2 ^ (be - e).toNat : Nat))

/-- Whether a value is a NaN. -/
def FVal.isNan : FVal → Bool
  | .nan _ => true
  | _ => false

/-- A value rounded to an integer of `n` bits in two's complement, held to its range; a NaN gives 0 (Table 2.5). -/
def toIntSat (n : Nat) (v : FVal) : Int :=
  let lo : Int := -(2 ^ (n - 1) : Nat)
  let hi : Int := (2 ^ (n - 1) : Nat) - 1
  match v with
  | .nan _ => 0
  | .inf neg => if neg then lo else hi
  | .fin neg m e => clampInt lo hi (rneInt (sgn neg m) e)

/-! ### Format codes (Table 2.1) -/

/-- The codes of Table 2.1 (R44). -/
def fmtListed (c : Nat) : Bool :=
  [0x00, 0x01, 0x02, 0x03, 0x04, 0x05, 0x06, 0x08, 0x09, 0x0A, 0x0B, 0x0C, 0x0D, 0x10, 0x11, 0x12].contains c

/-- The floating-point layout of a format code, where it has one. -/
def fmtFloat : Nat → Option FloatFmt
  | 0x00 => some fp32
  | 0x01 => some bf16
  | 0x02 => some fp16
  | 0x03 => some e4m3
  | 0x04 => some e5m2
  | 0x08 => some e4m3
  | 0x09 => some e5m2
  | 0x0A => some e3m2
  | 0x0B => some e2m3
  | 0x0C => some e2m1
  | _ => none

/-- Whether a format code is microscaled. -/
def fmtMx (c : Nat) : Bool := 0x08 ≤ c && c ≤ 0x0D

/-- The element bits of a format code (Table 2.1). -/
def fmtBits : Nat → Nat
  | 0x00 => 32 | 0x01 => 16 | 0x02 => 16 | 0x03 => 8 | 0x04 => 8 | 0x05 => 8 | 0x06 => 4
  | 0x08 => 8 | 0x09 => 8 | 0x0A => 6 | 0x0B => 6 | 0x0C => 4 | 0x0D => 8
  | 0x10 => 32 | 0x11 => 64 | 0x12 => 128 | _ => 0

/-- Element `i` of a packed region in a format, as bits (R49, R52). -/
def packedElem (c : Nat) (bs : List Byte) (i : Nat) : Nat :=
  let n := fmtBits c
  if n = 4 then bits (leAt bs (i / 2) 1) (4 * (i % 2) + 3) (4 * (i % 2))
  else if n = 6 then bits (leAt bs (3 * (i / 4)) 3) (6 * (i % 4) + 5) (6 * (i % 4))
  else leAt bs (i * (n / 8)) (n / 8)

/-- The bytes that `n` elements of a format occupy (R49, R52). -/
def packedLen (c n : Nat) : Nat := (n * fmtBits c + 7) / 8

/-- Elements given as bits, packed (R49, R52). -/
def packElems (c : Nat) (es : List Nat) : List Byte :=
  let n := fmtBits c
  leBytes (packedLen c es.length) (es.foldr (fun e acc => e % 2 ^ n + acc * 2 ^ n) 0)

/-- The value of an element's bits in a format: integers are exact, MXINT8 carries its factor 2^−6 (R52). -/
def elemVal (c w : Nat) : FVal :=
  match fmtFloat c with
  | some f => f.decode w
  | none =>
    let n := fmtBits c
    let x := sext n w
    .ofInt false x (if c = 0x0D then -6 else 0)

/-- A value converted to a plain element of a format (Table 2.5): bits. -/
def elemOf (c : Nat) (v : FVal) : Nat :=
  match fmtFloat c with
  | some f => f.encode v
  | none => wrap (fmtBits c) (toIntSat (fmtBits c) v)

/-! ### Microscaled blocks (R50, R66) -/

/-- The `emax` of R66 step 2. -/
def mxEmax : Nat → Int
  | 0x08 => 8
  | 0x09 => 15
  | 0x0A => 4
  | 0x0B => 2
  | 0x0C => 2
  | _ => 0

/-- The greatest finite magnitude of an element of an MX block, as its code without sign. -/
def mxLargest (c : Nat) (neg : Bool) : Nat :=
  match fmtFloat c with
  | some f => f.signed neg f.maxCode
  | none => if neg then 0x80 else 0x7F

/-- One element of an MX block: the value divided by `2^s` and rounded; beyond the largest finite value it takes that
value, and so does an infinity (R66, Table 2.5). -/
def mxElem (c : Nat) (s : Int) : FVal → Nat
  | .nan _ => 0
  | .inf neg => mxLargest c neg
  | .fin neg m e =>
    match fmtFloat c with
    | some f =>
      match f.roundMag m (e - s) with
      | some k => f.signed neg k
      | none => mxLargest c neg
    | none => wrap 8 (clampInt (-128) 127 (rneInt (sgn neg m) (e - s + 6)))

/-- `floor(log2)` of the largest finite magnitude of a list of values; none when every finite value is zero. -/
def mxLead : List FVal → Option Int
  | [] => none
  | .fin _ m e :: vs =>
    if m = 0 then mxLead vs
    else
      let l : Int := (Nat.log2 m : Int) + e
      match mxLead vs with
      | none => some l
      | some k => some (max l k)
  | _ :: vs => mxLead vs

/-- The quantisation of a block of FP32 values to an MX format: the scale byte and the elements' bits (R66). -/
def mxQuantise (c : Nat) (ws : List Nat) : Nat × List Nat :=
  let vs := ws.map f32
  if vs.any FVal.isNan then (0xFF, vs.map fun _ => 0)
  else
    let s : Int := match mxLead vs with
      | none => 0
      | some l => clampInt (-127) 127 (l - mxEmax c)
    ((s + 127).toNat, vs.map (mxElem c s))

/-- The value of an MX element with its E8M0 scale byte; the scale 0xFF is a NaN (R50). -/
def mxVal (c scale w : Nat) : FVal :=
  if scale = 0xFF then .nan false
  else match elemVal c w with
    | .fin n m e => .fin n m (e + ((scale : Int) - 127))
    | v => v

end Sys2Proof.Machine
end

