-- ==== Sys2Proof/Machine/Tally.lean ====
section
/-! DEFINITION. Tallies: exact accumulation (R53 to R63), their conversion (R65, R109, R110) and fabric integers
(R68 to R72). -/

namespace Sys2Proof.Machine

/-- A tally: the 96-bit body and the fields of the side word (Table 2.4). `special` is 0 finite, 1 +infinity,
2 −infinity, 3 NaN. -/
structure Tally where
  body     : BitVec 96
  anchored : Bool
  inexact  : Bool
  special  : Nat
  pair     : Nat
  xhi      : Int
  xlo      : Int
deriving DecidableEq, Repr

/-- A cleared tally: T = 0 and a side word of zero (R53). -/
def Tally.empty : Tally :=
  { body := 0, anchored := false, inexact := false, special := 0, pair := 0, xhi := 0, xlo := 0 }

/-- The product LSB exponent L of a pair code (Table 2.2). -/
def pairL : Nat → Int
  | 0x1 => -18 | 0x2 => -25 | 0x3 => -32 | 0x4 => 0 | 0x5 => 0 | 0x6 => -18
  | 0x7 => -8 | 0x8 => -7 | 0x9 => -6 | 0xA => -2 | 0xB => -12 | _ => 0

/-- The pair code of two operand formats (Table 2.2); none where the array does not multiply them (R45). -/
def pairCode : Nat → Nat → Option Nat
  | 0x03, 0x03 => some 0x1
  | 0x03, 0x04 => some 0x2
  | 0x04, 0x03 => some 0x2
  | 0x04, 0x04 => some 0x3
  | 0x05, 0x05 => some 0x4
  | 0x06, 0x06 => some 0x5
  | 0x08, 0x08 => some 0x6
  | 0x0A, 0x0A => some 0x7
  | 0x0A, 0x0B => some 0x8
  | 0x0B, 0x0A => some 0x8
  | 0x0B, 0x0B => some 0x9
  | 0x0C, 0x0C => some 0xA
  | 0x0D, 0x0D => some 0xB
  | 0x01, 0x01 => some 0xC
  | 0x02, 0x02 => some 0xC
  | _, _ => none

/-- One finite contribution `p` in units of `2^(L + x)` to a tally of the pair, by the procedure of R55; the second
component is whether this contribution set INEXACT (R61). -/
def Tally.addFinite (t : Tally) (p : Int) (x : Int) : Tally × Bool :=
  let t := if t.anchored then t else { t with xlo := x, xhi := x, anchored := true }
  let t := { t with xhi := max t.xhi x }
  let t :=
    if x < t.xlo ∧ t.xhi - x ≤ 30 then
      { t with body := t.body <<< (t.xlo - x).toNat, xlo := x }
    else t
  let (t, moved) :=
    if t.xhi - t.xlo > 30 then
      ({ t with body := BitVec.ofInt 96 (rshRne t.body.toInt (t.xhi - 30 - t.xlo).toNat),
                xlo := t.xhi - 30, inexact := true }, true)
    else (t, false)
  if t.xlo ≤ x then
    ({ t with body := t.body + BitVec.ofInt 96 (p * (2 ^ (x - t.xlo).toNat : Nat)) }, moved)
  else
    ({ t with body := t.body + BitVec.ofInt 96 (rshRne p (t.xlo - x).toNat), inexact := true }, true)

/-- A special contribution (R57): 1 +infinity, 2 −infinity, 3 NaN. -/
def Tally.addSpecial (t : Tally) (k : Nat) : Tally :=
  if k = 3 then { t with special := 3 }
  else if t.special = 0 then { t with special := k }
  else if t.special = 3 ∨ t.special = k then t
  else { t with special := 3 }

/-- One product of an exact pair: `a` and `b` are the two elements' exact values, `x` the scale exponent, and `scaleNan`
says that a scale byte is 0xFF (R54, R55, R57). -/
def Tally.contribute (t : Tally) (pair : Nat) (a b : FVal) (x : Int) (scaleNan : Bool) : Tally × Bool :=
  let t := if t.pair = 0 then { t with pair := pair } else t
  if scaleNan then (t.addSpecial 3, false)
  else match FVal.mul a b with
    | .nan _ => (t.addSpecial 3, false)
    | .inf neg => (t.addSpecial (if neg then 2 else 1), false)
    | .fin neg m e => t.addFinite (rneInt (sgn neg m) (e - pairL pair)) x

/-- The FP32 accumulator of a tally in FP32 mode (pair code 0xC). -/
def Tally.acc32 (t : Tally) : Nat := bits t.body.toNat 31 0

/-- The FP32 tree of R62: adjacent pairs are added level by level. -/
def pairSums : List Nat → List Nat
  | a :: b :: r => fAdd a b :: pairSums r
  | l => l

/-- Level 1 of the tree: adjacent exact products are added and the sum is rounded once (R62). -/
def treeLevel1 : List FVal → List Nat
  | a :: b :: r => toF32 (FVal.add a b) :: treeLevel1 r
  | [a] => [toF32 a]
  | [] => []

/-- The sum of 16 exact products through the fixed tree of R62. -/
def tree16 (ps : List FVal) : Nat :=
  ((pairSums (pairSums (pairSums (treeLevel1 ps)))).head?).getD 0

/-- One result element of FP32 mode: the tree of the products, then the accumulator (R62). The accumulator counts as the first
operand of R47 (DESIGN CHOICE, log entry 72). -/
def Tally.addTree (t : Tally) (ps : List FVal) : Tally :=
  { t with pair := 0xC, body := BitVec.ofNat 96 (fAdd t.acc32 (tree16 ps)) }

/-- The exact value of a tally: its FP32 value in FP32 mode, the special value, or `T · 2^(L + XLO)` (R65, R109). An
empty tally is +0 (R110). -/
def Tally.value (t : Tally) : FVal :=
  if t.pair = 0 then .fin false 0 0
  else if t.pair = 0xC then f32 t.acc32
  else if t.special = 1 then .inf false
  else if t.special = 2 then .inf true
  else if t.special = 3 then .nan false
  else .ofInt false t.body.toInt (pairL t.pair + t.xlo)

/-- The side word (Table 2.4). -/
def Tally.side (t : Tally) : Nat :=
  t.anchored.toNat * 2 ^ 27 + t.inexact.toNat * 2 ^ 26 + (t.special % 4) * 2 ^ 24 + (t.pair % 16) * 2 ^ 20
    + wrap 10 t.xhi * 2 ^ 10 + wrap 10 t.xlo

/-- The raw tally image of 16 bytes (R53); an empty tally's is zero (R110). -/
def Tally.raw (t : Tally) : List Byte := leBytes 12 t.body.toNat ++ leBytes 4 t.side

/-- The non-finite marker (R69). -/
def fabMarker : Nat := 2 ^ 63

/-- A conversion to a fabric integer (R68 to R70): the 64-bit value, whether it discarded a non-zero bit of an exact
tally (R68, R63), and whether it raises the integer overflow fault (R70). -/
def Tally.fabric (t : Tally) (g : Int) : Nat × Bool × Bool :=
  match t.value with
  | .nan _ => (fabMarker, false, false)
  | .inf _ => (fabMarker, false, false)
  | .fin neg m e =>
    let x := rneInt (sgn neg m) (e - g)
    let inx := !exactInt (sgn neg m) (e - g) && t.pair != 0xC
    if x.natAbs < 2 ^ 63 then (wrap 64 x, inx, false) else (fabMarker, inx, true)

/-- The sum of fabric integers (R71): a marker anywhere gives the marker, and an exact sum outside the range of R69 gives
the marker with the overflow fault. -/
def fabSum (xs : List Nat) : Nat × Bool :=
  if xs.contains fabMarker then (fabMarker, false)
  else
    let s := (xs.map (sext 64)).sum
    if s.natAbs < 2 ^ 63 then (wrap 64 s, false) else (fabMarker, true)

/-- A reduced fabric integer with scale `g`, as a value (R72). -/
def fabVal (g : Int) (w : Nat) : FVal :=
  if w = fabMarker then .nan false else .ofInt false (sext 64 w) g

/-- The bytes of one drained or passed element in an output format (Table 3.3); fabric integers are not made here. -/
def outElem (c : Nat) (v : FVal) : List Byte := leBytes (fmtBits c / 8) (elemOf c v)

end Sys2Proof.Machine
end

