-- ==== Sys2Proof/Machine/State.lean ====
section
/-! DEFINITION. The state of the GQ12: every register (Tables 21.1 to 21.12), every memory, and the state of every unit
that the spec gives the part; the queue of waiting commands; and the state after reset. -/

namespace Sys2Proof.Machine

/-- The reasons a step can stop with a fault. The spec reports every violation in state (fault logs, halt bits, response
status), so a fault of the machine is never raised. -/
inductive Fault where
  /-- Raised by no command. Safe. -/
  | never
deriving DecidableEq, Repr

/-- The reasons a command is refused. -/
inductive Refusal where
  /-- A command that has no meaning in the model yet; raised by `exec`'s arms only. Safe. -/
  | notModelled (mnemonic : String)
deriving DecidableEq, Repr

/-! ### Cores and flocks (02 to 05, 12) -/

/-- A weight tile: its format and its 16 column segments as stored bytes, with the scale byte of each column (R85). -/
structure Tile where
  fmt    : Nat
  segs   : List (List Byte)
  scales : List Nat
deriving DecidableEq, Repr

/-- An entry of the array queue (R112): the instruction word, its index, and the operands it read at issue (R130): the
registers tA, tA+1 and tB, and sB and sC. -/
structure ArrayEntry where
  w   : Word64
  pc  : Nat
  ta  : Word64
  ta1 : Word64
  tb  : Word64
  sb  : Word32
  sc  : Word32
deriving DecidableEq, Repr

/-- A running array instruction: the rows or segments done of those requested, and a WLOAD's segments so far. -/
structure ArrayRun where
  e      : ArrayEntry
  done   : Nat
  total  : Nat
  segs   : List (List Byte)
  scales : List Nat
deriving DecidableEq, Repr

/-- A WAIT that holds issue (R507 to R510): the word (`off` in the flock store when `inStore`, else in core scratch), the
target pair, the status register, the limit, whether it is monitored, and whether a satisfied evaluation is on its way
to the retire point. -/
structure Wait where
  inStore : Bool
  off     : Nat
  te      : Nat
  tc      : Nat
  sreg    : Nat
  imm     : Nat
  monitor : Bool
  sat     : Bool
deriving DecidableEq, Repr

/-- What holds a core's issue (R183, R157). A stalled DMA push keeps where its descriptor lies. -/
inductive Hold where
  | free
  | qwait (mask : Nat)
  | rfence
  | stop
  | wait (w : Wait)
  | push (inStore : Bool) (off : Nat)
deriving DecidableEq, Repr

/-- A RATOM or RSIG between issue and status write (R225): its number, result pair and status register. -/
structure Remote where
  id   : Nat
  atom : Bool
  res  : Nat
  sreg : Nat
deriving DecidableEq, Repr

/-- A DMA descriptor between push and completion (R157): its push number, its 32 bytes, whether it has started, the
pieces of a PUT or GET that have not been answered, the status of the failing piece with the lowest OFFSET and that OFFSET
(R468), GET payloads that wait to be written (piece, local address, bytes), the bytes of a COPY or the bales that are done,
whether the current bale is being read again (R153), and the far-tier lines that are done. -/
structure Dma where
  seq     : Nat
  raw     : List Byte
  started : Bool
  left    : Nat
  status  : Nat
  failOff : Nat
  land    : List (Nat × Nat × List Byte)
  done    : Nat
  again   : Bool
deriving DecidableEq, Repr

/-- A row of fabric integers that a GDRAIN has converted and that waits at its core for tally channel `ch` (R562): the 16
values, the scale and the peak exponent. -/
structure GradRow where
  ch   : Nat
  vals : List Nat
  g    : Int
  peak : Int
deriving DecidableEq, Repr

/-- Whether a core runs: `idle` (never started), `running`, or `restarting` (its halt or done bit was cleared and the
conditions of R169 are awaited). A halted or stopped core is `running` with its FLK_CORE_HALT or FLK_CORE_DONE bit set. -/
inductive CoreRun where
  | idle
  | running
  | restarting
deriving DecidableEq, Repr

/-- A core: the registers of Table 4.1 (a register not listed holds its reset value), tallies, tiles (`loaded` says that
a load of the standby tile has completed since the last WSWAP or reset, R90), control unit,
the core cycle count at the last read of it and its captured high half (R200), array queue, DMA descriptors and remote
operations. Tally i of tally row r is entry 16 r + i; lane l of vector register
v is entry 16 v + l. -/
structure Core where
  sreg     : SMap Word32
  vreg     : SMap Word32
  treg     : SMap Word64
  view     : SMap Word32
  tally    : SMap Tally
  active   : Option Tile
  standby  : Option Tile
  loaded   : Bool
  grad     : Option GradRow
  pc       : Nat
  run      : CoreRun
  hold     : Hold
  cycles   : Nat
  cycleHi  : Word32
  remotes  : List Remote
  nextId   : Nat
  queue    : List ArrayEntry
  runs     : List ArrayRun
  dma      : List Dma
  pushes   : Nat
deriving DecidableEq, Repr

/-- A core after a flock reset (Table 4.1, R91, R94, R124) that has not been started. -/
def Core.fresh : Core :=
  { sreg := [], vreg := [], treg := [], view := [], tally := [], active := none, standby := none, loaded := false,
    grad := none, pc := 0, run := .idle,
    hold := .free, cycles := 0, cycleHi := 0, remotes := [], nextId := 0, queue := [], runs := [], dma := [], pushes := 0 }

/-- A road row (R149): 64 bytes, a scale byte, and whether it arrived with good parity (R150). -/
structure RoadRow where
  data  : List Byte
  scale : Nat
  ok    : Bool
deriving DecidableEq, Repr

/-- An inbound road port: rows still on their way, rows in the buffer (R147, R148), and whether the road delivers nothing
more after a parity failure (R150). -/
structure InPort where
  transit : List RoadRow
  buf     : List RoadRow
  dead    : Bool
deriving DecidableEq, Repr

/-- An outbound road port: rows sent whose credit has not come back, and credits on their way back (R148). -/
structure OutPort where
  used      : Nat
  returning : Nat
deriving DecidableEq, Repr

/-- A flock: the copies of the FLOCK section and preset entries that last configured it (R273; no section while it is
unconfigured), the spare map where it is not logical c to physical c, the pipelines its shepherd has yet to start
(R780), the cores whose DMA push is stalled, in attempt order (R157), and the road ports. -/
structure Flock where
  conf    : List Byte
  presets : List (Nat × Nat)
  map     : SMap Nat
  starting : List Nat
  stalled : List Nat
  inp     : SMap InPort
  outp    : SMap OutPort
deriving DecidableEq, Repr

/-- A flock that no fold has configured. -/
def Flock.fresh : Flock :=
  { conf := [], presets := [], map := [], starting := [], stalled := [], inp := [], outp := [] }

/-! ### The loaded fold (06) -/

/-- A dimension of the torus (Table 6.5). -/
structure TorusDim where
  size  : Nat
  wrap  : Bool
  coord : Nat
  plus  : Nat
  minus : Nat
deriving DecidableEq, Repr

/-- A ROUTES entry (Table 6.6); the minimal ports are a mask of device ports. -/
structure Route where
  first    : Nat
  last     : Nat
  minPorts : Nat
  esc      : Nat
deriving DecidableEq, Repr

/-- A collective group (Table 6.7) with its member list in ring order. -/
structure Group where
  num     : Nat
  resv    : Nat
  limit   : Nat
  my      : Nat
  quantum : Nat
  members : List Nat
deriving DecidableEq, Repr

/-- A kiln reservation (R246). -/
structure KilnRes where
  index : Nat
  slice : Nat
  bytes : Nat
  off   : Nat
deriving DecidableEq, Repr

/-- A coherent window (R247). -/
structure Window where
  base    : Nat
  len     : Nat
  members : List Nat
deriving DecidableEq, Repr

/-- A tally channel (R248): the flocks bound to it are the set bits of a 672-bit map. -/
structure Chan where
  enable : Bool
  group  : Nat
  flocks : Nat
deriving DecidableEq, Repr

/-- What a full fold gives the device (R259 step 3): its 128-byte header (R720), identity, rank table, torus, routes, collective groups, kiln
reservations, coherent windows and tally channels. -/
structure Fold where
  header    : List Byte
  device    : Nat
  rank      : Nat
  threshold : Nat
  jobTag    : Nat
  ranks     : List Nat
  dims      : List TorusDim
  routes    : List Route
  groups    : List Group
  resvs     : List KilnRes
  windows   : List Window
  chans     : List Chan
deriving DecidableEq, Repr

/-! ### Coherence of stacked memory (09, 11) -/

/-- A back-invalidate snoop (R377, R378): the line, whether it is BISnpInv, how far it is, and the device-side accesses that wait for
it; none where it makes place in a set of the tracker. -/
inductive SnoopSt where
  | sent | answered | late
deriving DecidableEq, Repr

structure Snoop where
  line : Nat
  inv  : Bool
  st   : SnoopSt
  reqs : List StackReq
deriving DecidableEq, Repr

/-- An access that waits for a fill: the request, and whether it reads the line's bytes and no whole bale, so that a fill that
arrives in FI serves it (Table 11.5, R489). -/
structure FillWait where
  req   : StackReq
  reads : Bool
deriving DecidableEq, Repr

/-- What a fill that left no copy brought to an access that waited for it: its bytes, or the status that it failed with. -/
structure Brought where
  line   : Nat
  req    : StackReq
  status : Nat
  data   : List Byte
deriving DecidableEq, Repr

/-- The state of a line of a coherent window: Table 11.5 at a member that does not home it, with the accesses that wait for a
fill; Table 11.6 at its home, where `inv` stands for IDLE. Masks are over the window's member list. -/
inductive LineSt where
  | inv
  | fill (ws : List FillWait)
  | fillInv (ws : List FillWait)
  | valid
  | shared (mask : Nat)
  | busy (mask : Nat)
deriving DecidableEq, Repr

/-- A local write or KADD to a line homed elsewhere, on its way to the home (Table 11.5): the access that makes it, its bytes from
`addr` on, and the home's status once it has arrived, with the old value that a KADD brings. -/
structure CohWrite where
  req  : StackReq
  addr : Nat
  data : List Byte
  add  : Bool
  st   : Option Nat
  old  : Nat
deriving DecidableEq, Repr

/-! ### The network interface (10, 11) -/

/-- Where a packet's payload is read (R440). -/
inductive PaySrc where
  | bytes (bs : List Byte)
  | mem (f c addr n : Nat)
deriving DecidableEq, Repr

/-- Who gets the final status of a request that the NI carries: a RATOM or RSIG, a piece of a PUT or GET (with the piece's
place in the descriptor and its local address), a fill, a write or an invalidation of a window line, a CONTRIB of group
`g` to a member (or an abort notice), a redelivery fetch, the mirror stream, an issuer that a reset has cleared (R646), or a core that has
started again since (R513). -/
inductive TagOwner where
  | remote (f c id : Nat)
  | put (f c seq off : Nat)
  | get (f c seq off dst : Nat)
  | fill (line : Nat)
  | cohWrite (req : StackReq) (addr : Nat)
  | inval (line member : Nat)
  | kiln (g seq rcv : Nat) (notice : Bool)
  | redeliver (n off : Nat)
  | mirror
  | late
  | gone
deriving DecidableEq, Repr

/-- A request that waits at an NI share for a tag, the send window and an injection buffer. `dest` is a rank when
`byRank` (R31), else a device number; `after` counts the descriptors that its core had pushed before it (R478). -/
structure NiReq where
  share  : Nat
  dest   : Nat
  byRank : Bool
  op     : Nat
  flag   : Bool
  space  : Nat
  offset : Nat
  w4     : Word64
  w5     : Word64
  w6     : Word64
  pay    : PaySrc
  owner  : TagOwner
  after  : Nat
deriving DecidableEq, Repr

/-- A live tag (R440 to R443): its index, request, destination device and SEQ, the re-sends since a response, and whether
it waits in DEFERRED back-off. -/
structure Tag where
  num     : Nat
  req     : NiReq
  dest    : Nat
  seq     : Nat
  resends : Nat
  backoff : Bool
deriving DecidableEq, Repr

/-- A receive record (R433): EXP, the RECEIVED and RETIRED bits of the 256 positions from EXP, RACK and EPOCH. -/
structure RxRec where
  inUse : Bool
  exp   : Nat
  epoch : Nat
  rcv   : Nat
  ret   : Nat
  rack  : Nat
deriving DecidableEq, Repr

def RxRec.fresh : RxRec := { inUse := false, exp := 0, epoch := 0, rcv := 0, ret := 0, rack := 0 }

/-- A replay entry (R472). -/
structure Replay where
  src     : Nat
  seq     : Nat
  status  : Nat
  result  : Nat
  pending : Bool
  share   : Nat
  pool    : Bool
deriving DecidableEq, Repr

/-- A packet in the flag hold of a share or in its pool (R449). -/
structure Held where
  p     : Packet
  share : Nat
  pool  : Bool
deriving DecidableEq, Repr

/-- A packet whose operation has started and waits in a processing entry with its RSP injection slot (R426); `dup` marks a
duplicate of a READ that is performed again (R435), and the answer of an orphan is discarded (R446, R698). -/
structure Proc where
  p      : Packet
  share  : Nat
  target : Nat
  dup    : Bool
  orphan : Bool
deriving DecidableEq, Repr

/-- The network interface: requests that wait, tags, send counters, acknowledgements sent, receive records, replay table,
flag hold, processing entries, dead devices, the window directory, what fills brought, the writes on their way to a home, and the
issuer that each share served last (R451). -/
structure Ni where
  waiting : List NiReq
  tags    : List Tag
  next    : SMap Nat
  acked   : SMap Nat
  rx      : SMap RxRec
  replay  : List Replay
  held    : List Held
  proc    : List Proc
  dead    : List Nat
  lines   : SMap LineSt
  brought : List Brought
  cohw    : List CohWrite
  turn    : SMap Nat
deriving DecidableEq, Repr

def Ni.fresh : Ni :=
  { waiting := [], tags := [], next := [], acked := [], rx := [], replay := [], held := [], proc := [], dead := [],
    lines := [], brought := [], cohw := [], turn := [] }

/-! ### The far tier (09) -/

/-- A far-tier request in progress (R394): the descriptor it serves, its window address, and whether it writes. The number of the flock is
0xFFFF once a reset has cleared it (R646), and 0xFFFE once the core has started again (R513). -/
structure FarReq where
  f     : Nat
  c     : Nat
  seq   : Nat
  write : Bool
  addr  : Nat
  off   : Nat
deriving DecidableEq, Repr

/-! ### Peat units (08) -/

/-- A write of a unit: its bytes, and for a whole-bale access the tag of a tagged write (R291, R292). -/
structure UnitWrite where
  addr  : Nat
  data  : List Byte
  whole : Option (Option Nat)
deriving DecidableEq, Repr

/-- A peat descriptor that its executing peat unit has admitted: its core and push number, its bytes, whether it holds a
shared entry (R327), the positions whose requests serving units have taken (a mask), the results that came back (position,
status, bytes), the positions done, the writes that its current position has still to make, the output and the bytes of
it that are delivered, whether the current block is being sent again (R339), and its status with the address to log
and, for a kindling descriptor, the lowest failing position. -/
structure PeatJob where
  f      : Nat
  c      : Nat
  seq    : Nat
  raw    : List Byte
  pool   : Bool
  asked  : Nat
  got    : List (Nat × Nat × List Byte)
  done   : Nat
  todo   : List UnitWrite
  formed : Bool
  out    : List Byte
  sent   : Nat
  again  : Bool
  status : Nat
  addr   : Nat
  low    : Nat
deriving DecidableEq, Repr

/-- A request that a serving peat unit has taken: the descriptor and the position. -/
structure PeatAsk where
  f   : Nat
  c   : Nat
  seq : Nat
  pos : Nat
deriving DecidableEq, Repr

/-- A serving peat unit: the executing unit that it served last (R329) and the requests that it has taken. -/
structure PeatServe where
  last : Nat
  asks : List PeatAsk
deriving DecidableEq, Repr

def PeatServe.fresh : PeatServe := { last := 11, asks := [] }

/-! ### Command queues (09) -/

/-- A command of a queue between fetch and posting: its submission entry with its index in the SQ, the bytes that a COPY has read,
its status and BYTES_DONE once done, and whether a link-down keeps it from posting (R397). -/
structure QCmd where
  raw  : List Byte
  num  : Nat
  data : List Byte
  res  : Option (Nat × Nat)
  mute : Bool
deriving DecidableEq, Repr

/-- A command queue: the SQ tail and the CQ head that the host last wrote, the completed passes through the CQ, and the
commands in progress in SQ order. -/
structure CmdQueue where
  tail   : Nat
  head   : Nat
  passes : Nat
  cmds   : List QCmd
deriving DecidableEq, Repr

def CmdQueue.fresh : CmdQueue := { tail := 0, head := 0, passes := 0, cmds := [] }

/-! ### The kiln (13, 14) -/

/-- One step of a member's schedule (Table 13.5): PHASE and STEP, the element range sent and its receiver, the element
range received and its sender, and how it combines (0 replaces, 1 own + received, 2 received + own). -/
structure KStep where
  phase : Nat
  step  : Nat
  dest  : Option Nat
  sLo   : Nat
  sLen  : Nat
  src   : Option Nat
  rLo   : Nat
  rLen  : Nat
  comb  : Nat
deriving DecidableEq, Repr

/-- A CONTRIB payload in a slot: place in the schedule, OFFSET, bytes. -/
structure KPart where
  at'  : Nat
  off  : Nat
  data : List Byte
deriving DecidableEq, Repr

/-- How far a chunk is: waiting for SRC, in its schedule, or waiting for its result to be written. -/
inductive KStage where
  | loading | stepping | storing | compared
deriving DecidableEq, Repr

/-- A chunk in flight (R537): index, whether it runs on the verification path (R578), its schedule and place in it, the bytes
sent of the current step, the elements in kiln width (wide partials while `wide`), the range whose final values this member
forms, the slots, the sums found out of range (R576), and the positions at which a partial that passed here was the marker (R71). -/
structure KChunk where
  idx   : Nat
  ver   : Bool
  stage : KStage
  sched : List KStep
  place : Nat
  sent  : Nat
  elems : List Nat
  wide  : Bool
  ownLo : Nat
  ownN  : Nat
  slots : List KPart
  ovf   : Nat
  marks : List Nat
deriving DecidableEq, Repr

/-- Why a collective aborts: CAUSE, CULPRIT, DETECTOR and the culprit's digest (Tables 13.8, 13.9). -/
structure KAbort where
  cause    : Nat
  culprit  : Nat
  detector : Nat
  digest   : Nat
deriving DecidableEq, Repr

/-- What only a bucket has (14): its feed list, the current entry with its accepted rows, the elements fed, the peak exponent,
the retained copy by chunk, the chunks that have completed, MARKERS, and the FLAGS of Table 14.1. -/
structure KBucket where
  chan    : Nat
  feed    : List (Nat × Nat)
  entry   : Nat
  rows    : Nat
  fed     : List Nat
  peak    : Int
  kept    : List (Nat × List Nat)
  markers : Nat
  flags   : Nat
deriving DecidableEq, Repr

/-- A collective or a bucket that is queued or running: descriptor address and bytes, SEQ, ALG, DIGEST, the place in the
order of submissions, whether it runs, the chunks in flight, the next chunk to start and the completed ones. -/
structure KJob where
  addr   : Nat
  raw    : List Byte
  seq    : Nat
  alg    : Nat
  digest : Nat
  order  : Nat
  run    : Bool
  chunks : List KChunk
  next   : Nat
  ended  : Nat
  bucket : Option KBucket
deriving DecidableEq, Repr

/-- An abort recorded against a SEQ that has not started (R542), or that was ahead then (R552). -/
structure KPend where
  seq   : Nat
  ab    : KAbort
  ahead : Bool
deriving DecidableEq, Repr

/-- An abort notice that waits for injection: receiver, the digest word with GROUP and SEQ, the abort. -/
structure KNotice where
  dest   : Nat
  digest : Nat
  ab     : KAbort
deriving DecidableEq, Repr

/-- A collective group's state: next SEQ, most recently aborted SEQ, the aborted SEQ whose CONTRIBs the next start still waits
for (R550), the queue with the running job first, recorded aborts,
notices already forwarded (SEQ, detector), and the deficit and last receiver of R548. -/
structure KGroup where
  next    : Nat
  aborted : Nat
  owed    : Option Nat
  jobs    : List KJob
  pend    : List KPend
  heard   : List (Nat × Nat)
  deficit : Nat
  last    : Nat
deriving DecidableEq, Repr

def KGroup.fresh : KGroup :=
  { next := 0, aborted := 0, owed := none, jobs := [], pend := [], heard := [], deficit := 0, last := 0 }

/-- A redelivery (R583 to R587): descriptor address, its bytes, the bytes of the bucket descriptor, the group, the bales done,
the peer being read (0 for the retained copy), the pieces of the current bale that came back, and the pieces asked for. -/
structure Redel where
  id    : Nat
  addr  : Nat
  raw   : List Byte
  buck  : List Byte
  group : Nat
  done  : Nat
  peer  : Nat
  got   : List (Nat × Nat × List Byte)
  asked : Bool
  stat  : Nat
deriving DecidableEq, Repr

/-- A collective or bucket that has ended and whose descriptor waits for DST writes that the write gate holds (R530): its group,
the members, the job, and what its descriptor will say. -/
structure KEnd where
  group  : Nat
  m      : Nat
  job    : KJob
  status : Nat
  ab     : KAbort
  peak   : Int
deriving DecidableEq, Repr

/-- A submission of the host or the drover whose descriptor cannot be read yet: its address, and whether it is a gradient
submission (R527). -/
structure KSub where
  addr : Nat
  grad : Bool
deriving DecidableEq, Repr

/-- The kiln: groups, the group that each slice serves (R548), submissions so far, the redeliveries under way, the abort notices to
inject in the order in which they were formed, the jobs whose descriptor is still to be written, and the submissions still to be
answered. -/
structure Kiln where
  groups  : SMap KGroup
  turn    : SMap Nat
  order   : Nat
  redel   : List Redel
  notices : List KNotice
  ending  : List KEnd
  subs    : List KSub
deriving DecidableEq, Repr

def Kiln.fresh : Kiln := { groups := [], turn := [], order := 0, redel := [], notices := [], ending := [], subs := [] }

/-! ### Router slices (10) -/

/-- The packet buffers of the router slices (queue number of R423 within slice × 4,096), and by port × 8 + escape × 4 + class
the credits spent towards the far device, the running total of buffers freed here, and that of the far device as far as seen
(R424, R604, R605); and for the arbitration of R421 by output (slice × 128 + output) the class whose turn it is with the packets
of it sent, and by output × 8 + class × 2 + escape the input that was served last. -/
structure Rtr where
  queues : SMap (List Packet)
  spent  : SMap Nat
  freed  : SMap Nat
  seen   : SMap Nat
  turn   : SMap (Nat × Nat)
  input  : SMap Nat
deriving DecidableEq, Repr

def Rtr.fresh : Rtr := { queues := [], spent := [], freed := [], seen := [], turn := [], input := [] }

/-! ### Stacked memory (07) -/

/-- The metadata of a bale (R289): its tensor tag, and the difference (exclusive or) between the stored CRC and the CRC
of R290 over what is stored, which no sector write changes (R293). -/
structure Meta where
  tag    : Word32
  crcErr : Word32
deriving DecidableEq, Repr

/-- What a stack request does (R280), with what the on-die ECC finds (R297). The last four are of units inside the part: bytes
written by sectors, a read-modify-write of an 8-byte word (the operation of Table 11.2 with its operands), an entry granted to
a unit that makes its access by its own command, and the write-back of a scrubbed sector (R309). -/
inductive StkAcc where
  | baleRead (errs : Errs)
  | tagged (data : List Byte) (tag crc : Word32)
  | untagged (data : List Byte)
  | sectorRead (ecc : Ecc)
  | sectorWrite (mask : BitVec 32) (data : List Byte) (ecc : Ecc)
  | lineRead (grant : Bool) (errs : Errs)                     -- the two sectors of a CXL.mem read (R371)
  | lineWrite (mask : Word64) (data : List Byte) (errs : Errs)
  | put (data : List Byte)
  | rmw (op x y : Nat)
  | ticket
  | scrub
deriving DecidableEq, Repr

/-- Who is answered when a stack request completes: the requester that its SOURCE names, the host's CXL.mem path for the
line at an address, a unit inside the part, which finds the result by its own command, a requester that a reset has cleared
(R646), the line whose fill it writes (R486), or no one (a scrub). -/
inductive StkOwner where
  | port
  | host
  | unit
  | late
  | fill
  | none
deriving DecidableEq, Repr

/-- A request that holds entries of a stack interface (R281): its class of Table 7.1, the flock for the own-bale-port
class, how many of its entries came from the shared pool, and the request. -/
structure StkEnt where
  cls   : Nat
  flock : Nat
  pool  : Nat
  req   : StackReq
  acc   : StkAcc
  owner : StkOwner
deriving DecidableEq, Repr

/-- The result of a unit's write that was held or waited for an entry, until the unit takes it. -/
structure StkRes where
  req    : StackReq
  status : Nat
  data   : List Byte
deriving DecidableEq, Repr

/-- A stack interface: entries in arrival order (held writes and reads behind them, R314, R315), requests that wait for
an entry (R282), results that units have not taken, the round-robin places of R283, whether the stack is trained, whether a
zero-fill is owed since power was applied (R310), whether the running initialisation is a wipe (R312), and the channel and the
sub-bank that were refreshed last. -/
structure Stk where
  ents    : List StkEnt
  waiting : List StkEnt
  results : List StkRes
  rrClass : Nat
  rrFlock : Nat
  trained : Bool
  owed    : Bool
  wiping  : Bool
  lastRef : Nat × Nat
deriving DecidableEq, Repr

/-- A stack interface at power-on. -/
def Stk.fresh : Stk :=
  { ents := [], waiting := [], results := [], rrClass := 0, rrFlock := 0, trained := false, owed := true, wiping := false,
    lastRef := (0, 0) }

/-! ### Muster and shadow mode (18) -/

/-- The muster engine: (port, device, silent) for each learned peer (R692, R693), the devices that this one suspects, the
votes of other reporters (subject, reporter; R695), the devices whose quorum has been logged in report mode, the devices
learned dead, and the number of the next frame of each port (R691). -/
structure Muster where
  learned : List (Nat × Nat × Bool)
  suspect : List Nat
  votes   : List (Nat × Nat)
  quorate : List Nat
  dead    : List Nat
  fseq    : SMap Nat
deriving DecidableEq, Repr

def Muster.fresh : Muster :=
  { learned := [], suspect := [], votes := [], quorate := [], dead := [], fseq := [] }

/-- Shadow mode: the next slot of the outcome ring at the primary, the slots at the shadow that have not been freed (R707),
the digests (STEP, digest) that this shadow and its primary have published and that wait for their counterpart (R710), and
the marks whose digest is still to be published (R709). -/
structure Shadow where
  ring : Nat
  full : List Nat
  own  : List (Nat × Nat)
  prim : List (Nat × Nat)
  due  : Nat
deriving DecidableEq, Repr

def Shadow.fresh : Shadow := { ring := 0, full := [], own := [], prim := [], due := 0 }

/-! ### Ports (15) -/

/-- A swap (R611): slot, new wavelength, boundary, whether it is acknowledged, and whether it needs no handshake (R616). -/
structure Swap where
  slot   : Nat
  wl     : Nat
  bound  : Nat
  acked  : Bool
  urgent : Bool
deriving DecidableEq, Repr

/-- A device port beside its registers: the swaps that this end asked for in its receive direction and those that it has
granted in its transmit direction, the numbers of the next control codeword to send and of the last one received, the next
wavelength to calibrate in each direction (R609), the slot that the spare serves with its own wavelength, the slots whose
wavelength has failed and that wait for the spare (R615), and by wavelength the wrong tone comparisons and failed sweeps in
a row (R612, R613), the corrected symbols of the current 1 ms (R614), the relay buffers of R734 since the link came UP,
modulo 256 (spent at the far end, freed here, and freed at the far end as far as seen), and of each direction the place of its next
codeword among 20, 0 for the control codeword (R599), with the bytes of flits that wait for the next codeword to send, and those
received, each with the mark of R600, of a packet that is not whole. -/
structure Port where
  asked   : List Swap
  granted : List Swap
  next    : Nat
  got     : Nat
  calTx   : Nat
  calRx   : Nat
  away    : Option (Nat × Nat)
  claims  : List Nat
  wrong   : SMap Nat
  sweeps  : SMap Nat
  corr    : SMap Nat
  relSent  : Nat
  relFreed : Nat
  relSeen  : Nat
  txPos   : Nat
  txBytes : List Byte
  rxPos   : Nat
  rxBytes : List (Byte × Bool)
deriving DecidableEq, Repr

def Port.fresh : Port :=
  { asked := [], granted := [], next := 0, got := 0, calTx := 0, calRx := 0, away := none, claims := [], wrong := [],
    sweeps := [], corr := [], relSent := 0, relFreed := 0, relSeen := 0, txPos := 0, txBytes := [], rxPos := 0, rxBytes := [] }

/-! ### Thermal model (17) -/

/-- The thermal model beside its registers: calibration offsets and latest readings of the sensors (pasture dies 0 to 11, top
DRAM dies 12 to 23), whether readings wait for the next update, the acting temperatures Tp and Ts of the last ten updates
(newest first), updates done, fcap, the last 1,000 measurements of the twelve compute powers and the last 100 of package
input power (newest first), the fraction that each pasture applies and the slew governor's fraction as numerator and
denominator, and the sites whose watchdog acted (pastures 0 to 11, stacks 12 to 23; R674); the measurements of `power` and
`pkg` taken since THERMAL became 1 (R672), the sites whose level or rate term was not zero at the last update (R680), and the
sites whose sensor comparator last found 125 °C (R676). -/
structure Therm where
  offs    : SMap Int
  sensors : List Int
  unread  : Bool
  hist    : List (List Int)
  fcap    : Nat
  power   : List (List Nat)
  pkg     : List Nat
  frac    : SMap Nat
  slew    : SMap (Nat × Nat)
  dogs    : List Nat
  newPower : Nat
  newPkg   : Nat
  terms    : Nat
  hot      : Nat
deriving DecidableEq, Repr

def Therm.fresh : Therm :=
  { offs := [], sensors := [], unread := false, hist := [], fcap := 0, power := [], pkg := [], frac := [], slew := [],
    dogs := [], newPower := 0, newPkg := 0, terms := 0, hot := 0 }

/-- Pads (Table 20.2): VIN_48 in range, every rail in range, RESET_N; and the pastures that the drover has released. -/
structure Pads where
  vin      : Bool
  rails    : Bool
  resetN   : Bool
  released : Nat
deriving DecidableEq, Repr

/-! ### Resets (16) -/

/-- A reset in progress (R643): scope and target of Table 16.2, phase of Table 16.3, whether DRV_RESET_CTRL requested
it, whether its end awaits a PLL lock (R660), and the peers whose acknowledgement is awaited (R648). -/
structure ResetOp where
  scope     : Nat
  target    : Nat
  phase     : Nat
  requested : Bool
  lockWait  : Bool
  peers     : List Nat
deriving DecidableEq, Repr

/-- The apply phase of a fold image that is not over (R259, R270): the address of the staged image, the memory mode that the load
reads it through, its bytes up to the end of the directory, the flock of a partial fold, what a full fold will give the device, the
step that is next, and in step 6 the DATA sections that have been written with the bytes of the next one. -/
structure FoldJob where
  src   : Nat
  mode  : Bool
  top   : List Byte
  flock : Option Nat
  fold  : Option Fold
  step  : Nat
  sec   : Nat
  off   : Nat
deriving DecidableEq, Repr

/-- A fold operation that is not over: the header or check phase of a LOAD at an address, with the bytes of the image that have been
read; the apply phase; a REMAP of a logical core to a physical core that waits for its flock to drain (R273); or the start phase,
of one flock or of all. -/
inductive FoldOp where
  | load (src : Nat) (got : List Byte)
  | apply (job : FoldJob)
  | remap (f logical phys : Nat)
  | start (flock : Option Nat)
deriving DecidableEq, Repr

/-! ### Event records (18) -/

/-- An event record (R681): its number, SOURCE, KIND, LOCATION, DETAIL and ADDR. -/
structure Evt where
  eseq   : Nat
  source : Nat
  kind   : Nat
  loc    : Nat
  detail : Nat
  addr   : Nat
deriving DecidableEq, Repr

/-! ### Firmware and attestation (19) -/

/-- An image that is being staged (R730 to R734): the inactive bank, the link and SESSION of a relay, the length that a
relay declared, and the bytes received. -/
structure Staging where
  bank  : Nat
  relay : Option (Nat × Nat)
  total : Nat
  got   : List Byte
deriving DecidableEq, Repr

/-- An image that is being relayed (R734): the port, SESSION, the last NEXT received and the next offset to send. -/
structure RelayTx where
  port    : Nat
  session : Nat
  next    : Nat
  sent    : Nat
deriving DecidableEq, Repr

/-- A wavelength failure that waits for its hearth controller: port, wavelength and event kind (Table 19.12a). -/
structure LateFail where
  port : Nat
  wl   : Nat
  kind : Nat
deriving DecidableEq, Repr

/-- A running activation (R737, R738): the bank, whether it is being rolled back, and who gets the result: the SEC_ registers
(0), the mailbox (1), or the relay of port `q` (2 + q) with its SESSION. -/
structure Moving where
  bank    : Nat
  back    : Bool
  asker   : Nat
  session : Nat
deriving DecidableEq, Repr

/-- The drover's firmware beside its registers: the image in each bank (an empty one stands for the factory's), the bank that
the boot record names and the roll-back bank of a set in trial (R739), the image being staged, the link and SESSION of the last
relayed reception, the running activation, the image being relayed, the last SESSION chosen, the operator fold key package (R742), the address of a package whose read has to wait, whether the drover is in recovery (R729), the end of the reserved block of LMS indices
(R723), and what waits for a restarting drover or hearth controller. -/
structure Firmware where
  image    : SMap (List Byte)
  boot     : Nat
  prev     : Nat
  staging  : Option Staging
  rxLast   : Option (Nat × Nat)
  moving   : Option Moving
  tx       : Option RelayTx
  sessions : Nat
  foldKey  : List Byte
  enrol    : Option Nat
  recovery : Bool
  lmsEnd   : Nat
  events   : List Evt
  fails    : List LateFail
deriving DecidableEq, Repr

/-- The firmware of a device from the factory (log entry 3). -/
def Firmware.fresh : Firmware :=
  { image := [], boot := 0, prev := 0, staging := none, rxLast := none, moving := none, tx := none, sessions := 0, foldKey := [],
    enrol := none, recovery := false, lmsEnd := 0, events := [], fails := [] }

/-- An SPDM connection (R719, R722): the byte string that the latest signed response covered, the index and LMS signature of it
once it is made, and whether a session has been opened (1) and completed (2). -/
structure Conn where
  transcript : Option (List Byte)
  sig        : Option (Nat × List Byte)
  session    : Nat
deriving DecidableEq, Repr

def Conn.fresh : Conn := { transcript := none, sig := none, session := 0 }

/-! ### What leaves the part -/

/-- The return codes of the mailbox (Table 19.9, R400). -/
inductive MbRet where
  | success | invalidInput | unsupported | internalError | busy | outOfOrder | verificationFailed | invalidSlot | rolledBack
deriving DecidableEq, Repr

/-- What the part sends to the outside, kept in order. -/
inductive Output where
  | event (e : Evt)                                          -- a PLDM PlatformEventMessage over MCTP (R683)
  | codeword (port : Nat) (slots : List (Nat × List (BitVec 10)))  -- a codeword on the active slots of a device port (R598)
  | hostData (x : Nat) (data : List Byte) (poison : Bool)     -- the data of a CXL.mem read (R374)
  | hostDone (x : Nat)                                      -- the completion of a CXL.mem write
  | aer                                                     -- an uncorrectable non-fatal internal error (R374)
  | farRead (hpa kind : Nat)                                 -- a 64-byte read of the far tier (R393)
  | farWrite (hpa kind : Nat) (data : List Byte)
  | bisnp (line : Nat) (inv : Bool)                          -- a back-invalidate snoop on CXL.mem (R377, R378)
  | hostWrite (hpa : Nat) (data : List Byte)                  -- a write of host memory by the queue engine (R382, R388)
  | msix (vector : Nat)                                      -- an MSI-X interrupt (Table 9.2)
  | regDone (o : Origin) (a status value : Nat)               -- the end of a register read (R2 to R6, R370)
  | rspIHitI (line : Nat)                                     -- the answer to a host snoop (R393)
  | mailbox (opcode : Nat) (ret : MbRet) (data : List Byte)   -- the response of a mailbox command (R400)
  | mctp (data : List Byte)                                  -- an MCTP or PLDM response (R402)
  | spdm (t : Transport) (data : List Byte)                   -- an SPDM response (R719)
  | stack (req : StackReq) (status : Nat) (data : List Byte) (tag crc : Word32) -- the end of a stack request
deriving DecidableEq, Repr

/-- The whole state. Of the fields that no type above describes: `bad` and `weak` are the sectors (by byte key / 32) that hold an
uncorrectable and a single-bit error (R297, R298), `inter` is the memory mode (R284), `trk` the tracker's lines in the order in which
they were made (R376), `ideStop` whether an IDE failure stops CXL.cache and CXL.mem (R399), `ideKeys` the IDE keys (R397), `policy`
the event interrupt policy and `eid` the MCTP endpoint ID (R400, R402), `range` the size in GiB of DVSEC range 1 (R398), `gen` the
reset generations by scope × 1,024 + target (R643), `returns` the credit-return messages on their way as peer, resource and count
(R647), `folding` the fold operation that is not over, `nor` the retirement record (R688), `evt` the event ring with the number of
the next record and whether an event receiver is set (R682, R683), `fresh` the number of the next free value (log entry 1; the
model's own), `out` what the part has sent, and `pending` the commands that wait. -/
structure State where
  regs    : SMap Word64
  dram    : SMap Byte
  store   : SMap Byte
  scratch : SMap Byte
  cores   : SMap Core
  flocks  : SMap Flock
  bales   : SMap Meta
  bad     : SMap Bool
  weak    : SMap Bool
  inter   : Bool
  stks    : SMap Stk
  fold    : Option Fold
  trk     : List Nat
  ideStop : Bool
  ideKeys : List Byte
  snoops  : List Snoop
  ni      : Ni
  rtr     : Rtr
  far     : List FarReq
  peat    : List PeatJob
  pserve  : SMap PeatServe
  queues  : SMap CmdQueue
  kiln    : Kiln
  policy  : Byte
  eid     : Byte
  muster  : Muster
  shadow  : Shadow
  ports   : SMap Port
  therm   : Therm
  pads    : Pads
  fw      : Firmware
  conns   : SMap Conn
  range   : Nat
  rst     : List ResetOp
  gen     : SMap Nat
  returns : List (Nat × Nat × Nat)
  folding : Option FoldOp
  nor     : List (Nat × Nat)
  evt     : List Evt
  eseq    : Nat
  evtRecv : Bool
  fresh   : Nat
  out     : List Output
  pending : List Instr
deriving DecidableEq, Repr

/-- The state right after power is applied and before RESET_N rises: every register at its reset value, nothing in any
memory, no command waiting. Bank A holds the factory's image and is VALID (log entry 3). -/
def State.reset : State :=
  { regs := [(Reg.secBank.addr 0 0, 0x4000000000000000#64)], dram := [], store := [], scratch := [], cores := [], flocks := [],
    bales := [], bad := [], weak := [], inter := false, stks := [], fold := none, trk := [], ideStop := false, ideKeys := [],
    snoops := [], ni := Ni.fresh, rtr := Rtr.fresh, far := [], peat := [], pserve := [], queues := [], kiln := Kiln.fresh,
    policy := 0, eid := 0, muster := Muster.fresh, shadow := Shadow.fresh, ports := [], therm := Therm.fresh,
    pads := { vin := true, rails := true, resetN := false, released := 0 }, fw := Firmware.fresh, conns := [], range := 0x600,
    rst := [], gen := [], returns := [], folding := none, nor := [], evt := [], eseq := 0, evtRecv := false, fresh := 0, out := [],
    pending := [] }

end Sys2Proof.Machine
end

