-- ==== Sys2Proof/Machine/Ops.lean ====
section
/-! DEFINITION. The named operations over the state: registers, units, local addresses (R21), signal-word memories with
their monitors (R507), fault logs and event records. -/

namespace Sys2Proof.Machine

/-! ### Status codes (Table 0.4) -/

def stOk : Nat := 0x0
def stDeferred : Nat := 0x1
def stRefused : Nat := 0x2
def stTargetReset : Nat := 0x3
def stJobMismatch : Nat := 0x4
def stAddressFault : Nat := 0x5
def stChecksumFault : Nat := 0x6
def stMismatch : Nat := 0x7
def stAborted : Nat := 0x8
def stTimeout : Nat := 0x9
def stSeqStale : Nat := 0xA

/-! ### Outcomes -/

/-- An outcome of one step. -/
abbrev Out := Host.Outcome State Fault Refusal

/-- The effect of a command that names core `c` of flock `f`. No event concerns a core that the part does not have (log
entry 14). -/
def onCore (f c : Nat) (s : State) (k : State → State) : Out := .next (if f < 672 ∧ c < 120 then k s else s)

/-- The effect of a command that names unit `i` of `n`. No event concerns a unit that the part does not have (log entry
14). -/
def inRange (i n : Nat) (s : State) (k : State → State) : Out := .next (if i < n then k s else s)

/-! ### Registers -/

/-- The bits that a register holds. -/
def State.reg (s : State) (r : Reg) (i j : Nat) : Nat :=
  (Sparse.get (BitVec.ofNat 64 r.resetVal) s.regs (r.addr i j)).toNat

/-- The state with a register's bits replaced. -/
def State.setReg (s : State) (r : Reg) (i j v : Nat) : State :=
  { s with regs := Sparse.set (BitVec.ofNat 64 r.resetVal) s.regs (r.addr i j) (BitVec.ofNat 64 v) }

/-- Field `hi:lo` of a register. -/
def State.fld (s : State) (r : Reg) (i j hi lo : Nat) : Nat := bits (s.reg r i j) hi lo

/-- The state with field `hi:lo` of a register replaced. -/
def State.setFld (s : State) (r : Reg) (i j hi lo v : Nat) : State :=
  s.setReg r i j (setBits (s.reg r i j) hi lo v)

/-- Bit `b` of a register. -/
def State.rbit (s : State) (r : Reg) (i j b : Nat) : Bool := bit (s.reg r i j) b

/-- The state with bit `b` of a register replaced. -/
def State.setRbit (s : State) (r : Reg) (i j b : Nat) (v : Bool) : State := s.setFld r i j b b v.toNat

/-- A counter field of a register, one more, stopping at all ones. -/
def State.incFld (s : State) (r : Reg) (i j hi lo : Nat) : State :=
  s.setFld r i j hi lo (satInc (hi + 1 - lo) (s.fld r i j hi lo))

/-- A counter field of a register raised by `n`, stopping at all ones. -/
def State.addFld (s : State) (r : Reg) (i j hi lo n : Nat) : State :=
  s.setFld r i j hi lo (min (s.fld r i j hi lo + n) (2 ^ (hi + 1 - lo) - 1))

/-- A register back at its table's reset value. -/
def State.resetReg (s : State) (r : Reg) (i j : Nat) : State := s.setReg r i j r.resetVal

/-- A register of a pair that holds one bit for each of 120 cores: which half and which bit (Tables 2.6 and 2.7). -/
def coreBit (lo hi : Reg) (c : Nat) : Reg × Nat := if c < 64 then (lo, c) else (hi, c - 64)

/-- The bit of core `c` in such a pair of flock `f`. -/
def State.cbit (s : State) (lo hi : Reg) (f c : Nat) : Bool :=
  s.rbit (coreBit lo hi c).1 f 0 (coreBit lo hi c).2

/-- The state with the bit of core `c` in such a pair of flock `f` replaced. -/
def State.setCbit (s : State) (lo hi : Reg) (f c : Nat) (v : Bool) : State :=
  s.setRbit (coreBit lo hi c).1 f 0 (coreBit lo hi c).2 v

/-- Core `c` is halted by a fault (R168). -/
def State.halted (s : State) (f c : Nat) : Bool := s.cbit .flkCoreHaltLo .flkCoreHaltHi f c

/-- Core `c` is stopped (R233). -/
def State.doneBit (s : State) (f c : Nat) : Bool := s.cbit .flkCoreDoneLo .flkCoreDoneHi f c

/-- The TALLY_INEXACT flag of a core (R75, R76). -/
def State.inexactFlag (s : State) (f c : Nat) : Bool := s.cbit .flkArithInexactLo .flkArithInexactHi f c

/-- The state with a core's TALLY_INEXACT flag set when `b` (R61). -/
def State.flagInexact (s : State) (f c : Nat) (b : Bool) : State :=
  if b then s.setCbit .flkArithInexactLo .flkArithInexactHi f c true else s

/-! ### Units -/

/-- The logical core index C of R26. -/
def coreIdx (f c : Nat) : Nat := f * 120 + c

/-- The 17-bit core identifier of R36. -/
def coreId (f c : Nat) : Nat := (f / 56) * 2 ^ 13 + (f % 56) * 2 ^ 7 + c

/-- The flock index and core of a core identifier; none where it names a value outside R37. -/
def coreOfId (id : Nat) : Option (Nat × Nat) :=
  let p := bits id 16 13
  let fl := bits id 12 7
  let c := bits id 6 0
  if p < 12 ∧ fl < 56 ∧ c < 120 then some (p * 56 + fl, c) else none

def State.core (s : State) (f c : Nat) : Core := Sparse.get Core.fresh s.cores (coreIdx f c)

def State.setCore (s : State) (f c : Nat) (k : Core) : State :=
  { s with cores := Sparse.set Core.fresh s.cores (coreIdx f c) k }

/-- The row that waits for a tally channel is gone (R562, R588); a GDRAIN that had drained its last row has ended. -/
def Core.gradTaken (k : Core) : Core := { k with grad := none, runs := k.runs.filter fun r => r.done != r.total }

def State.modCore (s : State) (f c : Nat) (g : Core → Core) : State := s.setCore f c (g (s.core f c))

def State.flock (s : State) (f : Nat) : Flock := Sparse.get Flock.fresh s.flocks f

def State.setFlock (s : State) (f : Nat) (k : Flock) : State :=
  { s with flocks := Sparse.set Flock.fresh s.flocks f k }

def State.modFlock (s : State) (f : Nat) (g : Flock → Flock) : State := s.setFlock f (g (s.flock f))

/-- A free value (log entry 1): an opaque value, new at each use. -/
def State.freeVal (s : State) : Word64 := Config.freeValue s.fresh

/-- The state after a free value has been used. -/
def State.bump (s : State) : State := { s with fresh := s.fresh + 1 }

/-- The state with one more item sent to the outside. -/
def State.emit (s : State) (o : Output) : State := { s with out := s.out ++ [o] }

/-! ### Local addresses (R21, Table 1.7) -/

/-- What a local address names. -/
inductive Loc where
  | stacked (a : Nat)
  | store (f off : Nat)
  | scratch (f c off : Nat)
  | regs (a : Nat)
  | far (off : Nat)
  | unmapped
deriving DecidableEq, Repr

def storeBase : Nat := 0x020000000000
def scratchBase : Nat := 0x021000000000
def storeSize : Nat := 0x400000
def scratchSize : Nat := 0x8000

/-- The decoding of a local address (R21, R25, R26, R777). -/
def locOf (a : Nat) : Loc :=
  if a < 0x018000000000 then .stacked a
  else if storeBase ≤ a ∧ a < 0x0200A8000000 then .store ((a - storeBase) / storeSize) ((a - storeBase) % storeSize)
  else if scratchBase ≤ a ∧ a < 0x02109D800000 then
    let o := a - scratchBase
    .scratch (o / scratchSize / 120) (o / scratchSize % 120) (o % scratchSize)
  else if 0x030000000000 ≤ a ∧ a < 0x040000000000 then
    match windowOf a with
    | some _ => .regs a
    | none => .unmapped
  else if 0x040000000000 ≤ a ∧ a < 0x080000000000 then .far (a - 0x040000000000)
  else .unmapped

/-- The local address of a byte of a flock store. -/
def storeAddr (f off : Nat) : Nat := storeBase + f * storeSize + off

/-- The local address of a byte of a core scratch. -/
def scratchAddr (f c off : Nat) : Nat := scratchBase + coreIdx f c * scratchSize + off

/-! ### Event records (R681 to R683) -/

/-- The step of a running online activation (Table 19.12a), 0 while none runs, and its unit. -/
def State.fwStep (s : State) : Nat := s.fld .secFwStatus 0 0 55 52
def State.fwUnit (s : State) : Nat := s.fld .secFwStatus 0 0 51 48

/-- A record is formed: it takes the next number, goes out over MCTP when a receiver is set, and enters the ring, or is
dropped and counted when the ring holds 256 records. -/
def State.record (s : State) (e : Evt) : State :=
  let e : Evt := { e with eseq := s.eseq }
  let s := { s with eseq := (s.eseq + 1) % 2 ^ 16 }
  let s := if s.evtRecv then s.emit (.event e) else s
  if s.evt.length < 256 then { s with evt := s.evt ++ [e] } else s.incFld .drvEvtStatus 0 0 63 32

/-- An event for the drover, which waits while the drover restarts (Table 19.12a). -/
def State.event (s : State) (source kind loc detail addr : Nat) : State :=
  let e : Evt := { eseq := 0, source := source, kind := kind, loc := loc, detail := detail, addr := addr }
  if s.fwStep = 1 then { s with fw := { s.fw with events := s.fw.events ++ [e] } } else s.record e

/-- A fault log (R172 and its kin): while VALID (bit 63) is 0 the log takes `v`, VALID and the address; afterwards only
OVERRUN (bit 62) is set. The count field `cnt` rises either way. The drover forms a record of the first kind of event. -/
def State.log (s : State) (r : Reg) (i j v : Nat) (cnt : Option (Nat × Nat)) (addr : Option (Reg × Nat))
    (source loc : Nat) : State :=
  let old := s.reg r i j
  let count (w : Nat) : Nat := match cnt with
    | some (hi, lo) => setBits w hi lo (satInc (hi + 1 - lo) (bits old hi lo))
    | none => w
  if bit old 63 then s.setReg r i j (count (setBit old 62 true))
  else
    let w := count (setBit (setBit v 63 true) 62 (bit old 62))
    let s := s.setReg r i j w
    let s := match addr with
      | some (ar, a) => s.setReg ar i 0 (a % 2 ^ 48)
      | none => s
    s.event source 0 loc w (match addr with | some (_, a) => a % 2 ^ 48 | none => 0)

/-- The flock fault log (R171, R172): SOURCE of Table 4.7, the status returned and the core identifier. -/
def State.flkLog (s : State) (f addr status source core : Nat) : State :=
  s.log .flkFaultInfo f 0 (status * 2 ^ 28 + source * 2 ^ 24 + core) (some (47, 32)) (some (.flkFaultAddr, addr)) 0x02 f

/-- The signal fault register (R515, R516). -/
def State.sigLog (s : State) (f cause source : Nat) (inScratch : Bool) (core off : Nat) : State :=
  let old := s.reg .flkSigFault f 0
  if bit old 63 then s.setRbit .flkSigFault f 0 62 true
  else s.setReg .flkSigFault f 0
    (2 ^ 63 + old % 2 ^ 63 / 2 ^ 62 * 2 ^ 62 + cause * 2 ^ 56 + source * 2 ^ 52 + inScratch.toNat * 2 ^ 51 + core * 2 ^ 34
      + off % 2 ^ 22)

/-! ### Core faults (R163 to R168) -/

/-- A core halts (R165): its halt bit is set, every array instruction still waiting in its queue is discarded, and what
held its issue is released without effect (R511). -/
def State.haltCore (s : State) (f c : Nat) : State :=
  let s := s.setCbit .flkCoreHaltLo .flkCoreHaltHi f c true
  let s := s.modCore f c fun k => { k with queue := [], hold := .free }
  s.modFlock f fun k => { k with stalled := k.stalled.filter (· != c) }

/-- A fault is recorded in FLK_CORE_FAULT (R166, R167) and the core halts (R164). -/
def State.coreFault (s : State) (f c cls status dropped pc op seq : Nat) (imprecise : Bool) : State :=
  let v := imprecise.toNat * 2 ^ 61 + cls * 2 ^ 56 + status * 2 ^ 52 + dropped * 2 ^ 47 + pc * 2 ^ 24 + op * 2 ^ 16 + seq
  let old := s.reg .flkCoreFault f c
  let s :=
    if bit old 63 then s.setRbit .flkCoreFault f c 62 true
    else
      let w := setBit (setBit v 63 true) 62 (bit old 62)
      (s.event 0x01 0 (coreId f c) w (s.reg .flkFaultAddr f 0)).setReg .flkCoreFault f c w
  s.haltCore f c

/-! ### Flock stores and core scratch -/

/-- `n` bytes of a flock store. -/
def State.rdStore (s : State) (f off n : Nat) : List Byte := Sparse.readBytes s.store (f * storeSize + off) n

/-- `n` bytes of a core scratch. -/
def State.rdScratch (s : State) (f c off n : Nat) : List Byte :=
  Sparse.readBytes s.scratch (coreIdx f c * scratchSize + off) n

/-- The kind bit, epoch tag and count of a signal word (Table 12.1). -/
def sigEpoch (w : Nat) : Nat := bits w 63 48
def sigCount (w : Nat) : Nat := bits w 47 0

/-- Whether a word satisfies a target pair (R504). -/
def sigSatisfied (w te tc : Nat) : Bool :=
  (te == 0 || te == sigEpoch w) && decide ((sigCount w + 2 ^ 48 - tc) % 2 ^ 48 < 2 ^ 47)

/-- A core's wait, evaluated when `hit` says that its word was read or written (R507). -/
def Hold.evaluate (h : Hold) (hit : Wait → Option Nat) : Hold :=
  match h with
  | .wait w =>
    match hit w with
    | some v => if sigSatisfied v w.te w.tc then .wait { w with sat := true } else h
    | none => h
  | _ => h

/-- Where the word of a wait lies, counted from the first flock store or the first core scratch, for core index `k`. -/
def Wait.flat (w : Wait) (k : Nat) : Nat :=
  if w.inStore then k / 120 * storeSize + w.off else k * scratchSize + w.off

/-- The word of a monitored wait, when a write of `n` bytes at `a` covers a byte of it. -/
def Wait.hit (m : SMap Byte) (inStore : Bool) (a n k : Nat) (w : Wait) : Option Nat :=
  let x := w.flat k
  if w.monitor && w.inStore == inStore && decide (a < x + 8) && decide (x < a + n) then some (ofLE (Sparse.readBytes m x 8))
  else none

/-- After a write of `n` bytes at byte `a` of the flock stores (or of the core scratches), the bank evaluates every
monitored WAIT on a word that the write covers in part or whole (R507). -/
def State.notify (s : State) (inStore : Bool) (a n : Nat) : State :=
  let m := if inStore then s.store else s.scratch
  { s with cores := s.cores.map fun e => (e.1, { e.2 with hold := e.2.hold.evaluate (Wait.hit m inStore a n e.1) }) }

/-- Bytes written at byte `a` of the flock stores. -/
def State.wrStoreAt (s : State) (a : Nat) (bs : List Byte) : State :=
  State.notify { s with store := Sparse.writeBytes s.store a bs } true a bs.length

/-- Bytes written at byte `a` of the core scratches. -/
def State.wrScratchAt (s : State) (a : Nat) (bs : List Byte) : State :=
  State.notify { s with scratch := Sparse.writeBytes s.scratch a bs } false a bs.length

/-- Bytes written to a flock store. -/
def State.wrStore (s : State) (f off : Nat) (bs : List Byte) : State := s.wrStoreAt (f * storeSize + off) bs

/-- Bytes written to a core scratch. -/
def State.wrScratch (s : State) (f c off : Nat) (bs : List Byte) : State :=
  s.wrScratchAt (coreIdx f c * scratchSize + off) bs

/-- What an addition does to a signal word (R499): the new word, or the cause of the counter fault (Table 12.8). -/
def sigAdd (w : Nat) (i : Int) : Except Nat Nat :=
  let cnt := sigCount w
  if bit w 63 then
    let x : Int := cnt + i
    if x < 0 then .error 0x1
    else if x > 2 ^ 47 - 1 then .error 0x2
    else .ok (setBits w 47 0 x.toNat)
  else if i < 0 then .error 0x1
  else .ok (setBits w 47 0 ((cnt + i.toNat) % 2 ^ 48))

/-- A signal word of a flock store or a core scratch. -/
inductive SigPlace where
  | store (f off : Nat)
  | scratch (f c off : Nat)
deriving DecidableEq, Repr

/-- The whole word at a place. -/
def State.sigWord (s : State) : SigPlace → Nat
  | .store f off => ofLE (s.rdStore f off 8)
  | .scratch f c off => ofLE (s.rdScratch f c off 8)

/-- A whole word written at a place. -/
def State.setSigWord (s : State) (p : SigPlace) (v : Nat) : State :=
  match p with
  | .store f off => s.wrStore f off (leBytes 8 v)
  | .scratch f c off => s.wrScratch f c off (leBytes 8 v)

/-- The flock that holds a signal word, with SPACE, the core identifier of its core scratch, and the offset. -/
def SigPlace.parts : SigPlace → Nat × Bool × Nat × Nat
  | .store f off => (f, false, 0, off)
  | .scratch f c off => (f, true, coreId f c, off)

/-- An addition to a signal word as one step at the bank (R499 to R502): on a counter fault the word is unchanged and the
flock that holds it records the fault with SOURCE `source` and, for a fault of an issuing core, its identifier. The
second component is the status, OK or REFUSED. -/
def State.addSignal (s : State) (p : SigPlace) (i : Int) (source : Nat) (issuer : Option Nat) : State × Nat :=
  match sigAdd (s.sigWord p) i with
  | .ok w => (s.setSigWord p w, stOk)
  | .error cause =>
    let (f, inScratch, own, off) := p.parts
    (s.sigLog f cause source inScratch (issuer.getD own) off, stRefused)

/-! ### Whether a core may issue -/

/-- Instruction configuration of a core in the FLOCK section that last configured its flock (Table 6.8): region offset,
length, entry point and pipeline. -/
def Flock.region (k : Flock) (c : Nat) : Nat := leAt k.conf (144 + 16 * c) 4
def Flock.regionLen (k : Flock) (c : Nat) : Nat := leAt k.conf (144 + 16 * c + 4) 4
def Flock.entry (k : Flock) (c : Nat) : Nat := leAt k.conf (144 + 16 * c + 8) 4
def Flock.pipeline (k : Flock) (c : Nat) : Nat := leAt k.conf (144 + 16 * c + 12) 1

/-- The physical core of a logical core (R38). -/
def Flock.phys (k : Flock) (c : Nat) : Nat := Sparse.get c k.map c

/-- Road ports of a FLOCK section (Table 6.8). -/
def Flock.outEn (k : Flock) (p : Nat) : Bool := leAt k.conf (2064 + 8 * p) 1 == 1
def Flock.outCore (k : Flock) (p : Nat) : Nat := leAt k.conf (2064 + 8 * p + 1) 1
def Flock.destFlock (k : Flock) (p : Nat) : Nat := leAt k.conf (2064 + 8 * p + 2) 2
def Flock.destPort (k : Flock) (p : Nat) : Nat := leAt k.conf (2064 + 8 * p + 4) 1
def Flock.inEn (k : Flock) (q : Nat) : Bool := leAt k.conf (2128 + 4 * q) 1 == 1
def Flock.inCore (k : Flock) (q : Nat) : Nat := leAt k.conf (2128 + 4 * q + 1) 1

/-- Physical core `n` of flock `f` is usable (Table 6.18). -/
def State.physGood (s : State) (f n : Nat) : Bool := s.cbit .flkPhysGoodLo .flkPhysGoodHi f n

/-- The logical core that a physical core serves. -/
def Flock.logicalOf (k : Flock) (n : Nat) : Option Nat := lowest 120 fun c => k.phys c == n

/-- The retirement of a physical core (R686, R688): its GOOD bit clears, the retirement record takes it while it has
room, and the drover forms an event record. A core whose bit is already clear has been retired before. -/
def State.retire (s : State) (f n kind : Nat) : State :=
  if !s.physGood f n then s
  else
    let keep := decide (s.nor.length < 4096)
    let s := s.setCbit .flkPhysGoodLo .flkPhysGoodHi f n false
    let s := if keep then { s with nor := s.nor ++ [(f, n)] } else s
    s.event 0x0E kind (f * 2 ^ 14 + ((s.flock f).logicalOf n).getD 0x7F * 2 ^ 7 + n) (!keep).toNat 0

/-! ### DMA descriptors (Table 4.3) -/

def Dma.src (d : Dma) : Nat := leAt d.raw 0 8
def Dma.dst (d : Dma) : Nat := leAt d.raw 8 8
def Dma.len (d : Dma) : Nat := leAt d.raw 16 4
def Dma.tag (d : Dma) : Nat := leAt d.raw 20 4
def Dma.comp (d : Dma) : Nat := leAt d.raw 24 4
def Dma.op (d : Dma) : Nat := leAt d.raw 28 1
def Dma.flags (d : Dma) : Nat := leAt d.raw 29 1
def Dma.ordered (d : Dma) : Bool := bit d.flags 0

/-! ### Parts that are being reset or are not ready (R643, R655) -/

/-- A reset in progress takes in flock `f`: one of scope 0b001 for it or of scope 0b010 for its pasture. -/
def ResetOp.hasFlock (r : ResetOp) (f : Nat) : Bool :=
  (r.scope == 1 && r.target == f) || (r.scope == 2 && r.target == f / 56)

/-- Pasture `p` is ready (Table 16.4). -/
def State.pastureReady (s : State) (p : Nat) : Bool := s.rbit .drvReady 0 0 (44 + p)

/-- The flock takes no request and issues nothing: its pasture is not ready or a reset takes it in (R644, R655). -/
def State.flockQuiet (s : State) (f : Nat) : Bool :=
  !s.pastureReady (f / 56) || s.rst.any fun r => r.hasFlock f

/-- A request to a part that is being reset or is not ready: the drover logs its address (R644, R655, R661). SOURCE is
that of Table 16.11. -/
def State.resetLog (s : State) (addr scope target source core : Nat) : State :=
  s.log .drvResetInfo 0 0 (stTargetReset * 2 ^ 42 + scope * 2 ^ 39 + target * 2 ^ 29 + source * 2 ^ 25 + core)
    (some (61, 46)) (some (.drvResetAddr, addr)) 0x0C 0

/-- The scope and target that a quiet flock is logged with. -/
def State.flockScope (s : State) (f : Nat) : Nat × Nat :=
  match s.rst.find? fun r => r.hasFlock f with
  | some r => (r.scope, r.target)
  | none => (0, 0)

end Sys2Proof.Machine
end

