-- ==== Sys2Proof/Machine/Roads.lean ====
section
/-! DEFINITION. Drove roads (R146 to R151). -/

namespace Sys2Proof.Machine

def InPort.fresh : InPort := { transit := [], buf := [], dead := false }
def OutPort.fresh : OutPort := { used := 0, returning := 0 }

def State.inPort (s : State) (f q : Nat) : InPort := Sparse.get InPort.fresh (s.flock f).inp q
def State.outPort (s : State) (f p : Nat) : OutPort := Sparse.get OutPort.fresh (s.flock f).outp p

def State.setInPort (s : State) (f q : Nat) (x : InPort) : State :=
  s.modFlock f fun k => { k with inp := Sparse.set InPort.fresh k.inp q x }

def State.setOutPort (s : State) (f p : Nat) (x : OutPort) : State :=
  s.modFlock f fun k => { k with outp := Sparse.set OutPort.fresh k.outp p x }

/-- The flock and inbound port that outbound port `p` of flock `f` leads to. -/
def State.roadDest (s : State) (f p : Nat) : Nat × Nat :=
  (f / 56 * 56 + (s.flock f).destFlock p, (s.flock f).destPort p)

/-- The flock and outbound port whose road ends at inbound port `q` of flock `f` (R250). -/
def State.roadSource (s : State) (f q : Nat) : Option (Nat × Nat) :=
  (List.range 448).findSome? fun n =>
    let g := f / 56 * 56 + n / 8
    let p := n % 8
    if (s.flock g).outEn p && s.roadDest g p == (f, q) then some (g, p) else none

/-- The road port is in use and bound to the core (R146). -/
def State.roadIn (s : State) (f c q : Nat) : Bool := (s.flock f).inEn q && (s.flock f).inCore q == c
def State.roadOut (s : State) (f c p : Nat) : Bool := (s.flock f).outEn p && (s.flock f).outCore p == c

/-- The flock at the other end of a road is being reset (R151). -/
def State.farInQuiet (s : State) (f q : Nat) : Bool :=
  match s.roadSource f q with
  | some (g, _) => s.flockQuiet g
  | none => false
def State.farOutQuiet (s : State) (f p : Nat) : Bool := s.flockQuiet (s.roadDest f p).1

/-- A road row leaves outbound port `p` and takes one of its 32 credits (R148). -/
def State.roadSend (s : State) (f p : Nat) (data : List Byte) : State :=
  let o := s.outPort f p
  let (g, q) := s.roadDest f p
  let s := s.setOutPort f p { o with used := o.used + 1 }
  let i := s.inPort g q
  s.setInPort g q { i with transit := i.transit ++ [{ data := slice data 0 64, scale := 0x7F, ok := true }] }

/-- A sink row as consecutive road rows of 64 bytes, lowest bytes first (R149). `n` bounds the rows. -/
def State.roadSendAll (s : State) (f p : Nat) : Nat → List Byte → State
  | 0, _ => s
  | n + 1, bs => if bs.isEmpty then s else (s.roadSend f p (bs.take 64)).roadSendAll f p n (bs.drop 64)

/-- The oldest row of an inbound port is consumed and its credit starts back (R148). -/
def State.roadTake (s : State) (f q : Nat) : State :=
  let i := s.inPort f q
  let s := s.setInPort f q { i with buf := i.buf.drop 1 }
  match s.roadSource f q with
  | some (g, p) => let o := s.outPort g p; s.setOutPort g p { o with returning := o.returning + 1 }
  | none => s

/-- The flock that sends on its outbound port `p` starts afresh: a road that a parity failure has closed delivers again, and what
was on its way on it is gone (R150). -/
def State.reviveRoad (s : State) (f p : Nat) : State :=
  let (g, q) := s.roadDest f p
  let i := s.inPort g q
  if (s.flock f).outEn p && i.dead then s.setInPort g q { i with transit := [], dead := false } else s

/-- Every road that flock `f` sends on delivers again. -/
def State.reviveRoads (s : State) (f : Nat) : State := (List.range 8).foldl (fun s p => s.reviveRoad f p) s

/-- The effect of a command that names a port of a flock. -/
def onPort (f p : Nat) (s : State) (k : State → State) : Out :=
  .next (if f < 672 ∧ p < 8 then k s else s)

/-- ROAD_ROW_ARRIVAL (R147, R150): the oldest row on its way enters the buffer. After a row that failed its parity check
the road delivers nothing more. -/
def execRoadRowArrival (f q : Nat) (parityOk : Bool) (s : State) : Out :=
  onPort f q s fun s =>
    let i := s.inPort f q
    match i.transit with
    | r :: rest =>
      if i.dead then s
      else s.setInPort f q { transit := rest, buf := i.buf ++ [{ r with ok := parityOk }], dead := !parityOk }
    | [] => s

/-- ROAD_CREDIT_RETURN (R148): a credit reaches the sending port. -/
def execRoadCreditReturn (f p : Nat) (s : State) : Out :=
  onPort f p s fun s =>
    let o := s.outPort f p
    if o.returning = 0 then s
    else s.setOutPort f p { used := o.used - 1, returning := o.returning - 1 }

end Sys2Proof.Machine
end

