-- ==== Sys2Proof/Machine/Special.lean ====
section
/-! DEFINITION. The special functions of the vector unit (Table 5.8, R206): their IEEE 754 special cases, and the bound of 2
units in the last place that every other result keeps. The spec fixes no bits inside that bound, so they are those of an
opaque function wherever it keeps the bound (log entry 8). -/

namespace Sys2Proof.Machine

/-- One, with the 96 binary places that the exact values are worked out to. -/
def fixOne : Nat := 2 ^ 96

/-- The sum of `t^k / k!` from the `n` terms that follow the term `x`, number `k`. -/
def expTerms (t : Nat) : Nat → Nat → Nat → Nat
  | 0, _, x => x
  | n + 1, k, x => x + expTerms t n (k + 1) (x * t / fixOne / k)

/-- 2 to the power of a fraction: the exponential of the fraction times the natural logarithm of 2. -/
def expFrac (f : Nat) : Nat := expTerms (f * 54916777467707473351141471128 / fixOne) 32 1 fixOne

/-- `n` binary places of the logarithm to base 2 of a number from 1 to 2, by squaring. -/
def logPlaces : Nat → Nat → Nat → Nat
  | 0, _, x => x
  | n + 1, y, x =>
    let y := y * y / fixOne
    if y < 2 * fixOne then logPlaces n y (2 * x) else logPlaces n (y / 2) (2 * x + 1)

/-- EXP2 of a finite value. -/
def exactExp2 (n : Bool) (m : Nat) (e : Int) : FVal :=
  let limit (k : Nat) : FVal := .fin false k 0
  if FVal.lt (limit 256) (.fin false m e) then .fin false 1 (if n then -256 else 256)
  else
    let x : Int := sgn n m * (2 ^ (e + 96).toNat : Nat) / (2 ^ (-96 - e).toNat : Nat)
    .fin false (expFrac (x % (fixOne : Nat)).toNat) (x / (fixOne : Nat) - 96)

/-- LOG2 of a positive value. -/
def exactLog2 (m : Nat) (e : Int) : FVal :=
  let l := Nat.log2 m
  .ofInt false ((e + l) * (2 ^ 80 : Nat) + (logPlaces 80 (m * fixOne / 2 ^ l) 0 : Nat)) (-80)

/-- RCP of a value other than zero. -/
def exactRcp (n : Bool) (m : Nat) (e : Int) : FVal := .fin n (2 ^ 104 / m) (-104 - e)

/-- RSQRT of a positive value. -/
def exactRsqrt (m : Nat) (e : Int) : FVal :=
  let odd : Nat := (e % 2).toNat
  .fin false (isqrtFrom (2 ^ 200 / (m * 2 ^ odd)) 101 0) (-100 - (e - odd) / 2)

/-- TANH of a value other than zero: near zero the first two terms of its series, far from it one less a trace, between them
`(y - 1) / (y + 1)` for `y` = 2 to the power `2 · |x| / ln 2`. -/
def exactTanh (n : Bool) (m : Nat) (e : Int) : FVal :=
  if FVal.lt (.fin false m e) (.fin false 1 (-16)) then
    .fin n (m * (fixOne - m * m * fixOne / 2 ^ (-2 * e).toNat / 3)) (e - 96)
  else if FVal.lt (.fin false 24 0) (.fin false m e) then .fin n (2 ^ 60 - 1) (-60)
  else
    let x := m * 2 ^ (e + 97).toNat / 2 ^ (-97 - e).toNat
    let p := x * 114302077158074026402637675936 / fixOne
    let y := expFrac (p % fixOne) * 2 ^ (p / fixOne)
    .fin n ((y - fixOne) * fixOne / (y + fixOne)) (-96)

/-- The value of a function away from its special cases, to more places than FP32 holds. -/
def exactSpecial (fn : Nat) (n : Bool) (m : Nat) (e : Int) : FVal :=
  match fn with
  | 0x12 => exactExp2 n m e
  | 0x13 => exactLog2 m e
  | 0x14 => exactRcp n m e
  | 0x15 => exactRsqrt m e
  | _ => exactTanh n m e

/-- A value lies within 2 units in the last place of an exact one that is not zero, and a zero has its sign; an infinity stands at
2^128. The bound is drawn in by 2^-30 of a unit for the places that the exact value lacks. -/
def within2Ulp (v x : FVal) : Bool :=
  let v := match v with
    | .inf n => FVal.fin n 1 128
    | v => v
  match v, x with
  | .fin vn vm ve, .fin xn xm xe =>
    let ulp : Int := max ((Nat.log2 xm : Int) + xe - 23) (-149)
    (vm != 0 || vn == xn) &&
    match FVal.add (.fin vn vm ve) (.fin (!xn) xm xe) with
    | .fin _ dm de => !(FVal.lt (.fin false (2 ^ 31 - 1) (ulp - 30)) (.fin false dm de))
    | _ => false
  | _, _ => false

/-- The result bits of a special function away from its special cases: the opaque ones where they keep the bound, else the
rounded value. -/
def boundSpecial (fn a : Nat) (n : Bool) (m : Nat) (e : Int) : Nat :=
  let other := (Config.special (BitVec.ofNat 9 fn) (BitVec.ofNat 32 a)).toNat
  let x := exactSpecial fn n m e
  if within2Ulp (f32 other) x then other else toF32 x

/-- The special functions (R206): the NaN and the IEEE 754 special cases are fixed; every other result keeps the bound. -/
def vSpecial (fn a : Nat) : Nat :=
  let ninf := 0xFF800000
  let pinf := 0x7F800000
  let qnan := 0x7FC00000
  match f32 a, fn with
  | .nan n, _ => toF32 (.nan n)
  | .inf n, 0x12 => if n then 0 else pinf
  | .inf n, 0x13 => if n then qnan else pinf
  | .fin n m e, 0x13 =>
    if m = 0 then ninf else if n then qnan else if a = 0x3F800000 then 0 else boundSpecial fn a n m e
  | .inf n, 0x14 => if n then 0x80000000 else 0
  | .fin n m e, 0x14 => if m = 0 then (if n then ninf else pinf) else boundSpecial fn a n m e
  | .inf n, 0x15 => if n then qnan else 0
  | .fin n m e, 0x15 => if m = 0 then (if n then ninf else pinf) else if n then qnan else boundSpecial fn a n m e
  | .inf n, _ => if n then 0xBF800000 else 0x3F800000
  | .fin n m e, 0x16 => if m = 0 then a else boundSpecial fn a n m e
  | .fin n m e, _ => boundSpecial fn a n m e

end Sys2Proof.Machine
end

