-- ==== Sys2Proof/Machine/Flags.lean ====
section
/-! DEFINITION. What the scalar and vector units compute: the functions of Tables 5.5 and 5.8, the branch conditions of
R191 and the reductions of R208. -/

namespace Sys2Proof.Machine

/-- The ALU functions of Table 5.5 on 32-bit operands, modulo 2^32 (R188). -/
def aluFn (fn a b : Nat) : Nat :=
  let sa := sext 32 a
  let sb := sext 32 b
  match fn with
  | 0x00 => (a + b) % 2 ^ 32
  | 0x01 => (a + 2 ^ 32 - b) % 2 ^ 32
  | 0x02 => a &&& b
  | 0x03 => a ||| b
  | 0x04 => a ^^^ b
  | 0x05 => (a <<< (b % 32)) % 2 ^ 32
  | 0x06 => a >>> (b % 32)
  | 0x07 => wrap 32 (sa / (2 ^ (b % 32) : Nat))
  | 0x08 => (a * b) % 2 ^ 32
  | 0x09 => (a * b) / 2 ^ 32
  | 0x0A => wrap 32 (sa * sb / (2 ^ 32 : Nat))
  | 0x0B => (decide (sa < sb)).toNat
  | 0x0C => (decide (a < b)).toNat
  | 0x0D => if sa < sb then a else b
  | _ => if sa < sb then b else a

/-- The branch conditions of R191. -/
def branchTaken (cond a b : Nat) : Bool :=
  match cond with
  | 0 => a == b
  | 1 => a != b
  | 2 => decide (sext 32 a < sext 32 b)
  | 3 => decide (sext 32 b ≤ sext 32 a)
  | 4 => decide (a < b)
  | _ => decide (b ≤ a)

/-- Whether `a` orders below `b`, with −0 below +0 (R205). -/
def fBelow (a b : Nat) : Bool :=
  (f32 a).lt (f32 b) || (a % 2 ^ 31 == 0 && b % 2 ^ 31 == 0 && bit a 31 && !bit b 31)

/-- The canonical NaN that a NaN operand of a binary function gives, with the sign of the first one (R47). -/
def nanOf (a b : Nat) : Option Nat :=
  if (f32 a).isNan then some (toF32 (f32 a))
  else if (f32 b).isNan then some (toF32 (f32 b))
  else none

/-- MIN (R205). -/
def fMin (a b : Nat) : Nat := (nanOf a b).getD (if fBelow b a then b else a)

/-- MAX (R205). -/
def fMax (a b : Nat) : Nat := (nanOf a b).getD (if fBelow a b then b else a)

/-- CMPGT: 1.0 when a > b, else +0 (R205). -/
def fGt (a b : Nat) : Nat := if (f32 b).lt (f32 a) then 0x3F800000 else 0

/-- The binary vector functions 0x00 to 0x05 of Table 5.8. -/
def vBinary (fn a b : Nat) : Nat :=
  match fn with
  | 0x00 => fAdd a b
  | 0x01 => fSub a b
  | 0x02 => fMul a b
  | 0x03 => fMin a b
  | 0x04 => fMax a b
  | _ => fGt a b

/-- RINT: rounded to an integral value, ties to even; a zero result keeps the sign of the operand. -/
def fRint (a : Nat) : Nat :=
  match f32 a with
  | .fin n m e => toF32 (FVal.ofInt n (rneInt (sgn n m) e) 0)
  | v => toF32 v

/-- The unary vector functions of Table 5.8. -/
def vUnary (fn a : Nat) : Nat :=
  match fn with
  | 0x10 => a % 2 ^ 31
  | 0x11 => fNeg a
  | 0x17 => fRint a
  | _ => vSpecial fn a

/-- One level of the reduction tree of R208. -/
def redLevel (g : Nat → Nat → Nat) : List Nat → List Nat
  | a :: b :: r => g a b :: redLevel g r
  | l => l

/-- VRED of 16 lanes (R208): SUM, MAX or MIN by the tree of R62. -/
def vReduce (fn : Nat) (ls : List Nat) : Nat :=
  let g := match fn with
    | 0 => fAdd
    | 1 => fMax
    | _ => fMin
  ((redLevel g (redLevel g (redLevel g (redLevel g ls)))).head?).getD 0

end Sys2Proof.Machine
end

