-- ==== Sys2Proof/Machine/Operands.lean ====
section
/-! DEFINITION. Instruction words and operands (R175 to R180): the fields, the listed and reserved codes of R176, the
registers of a core, effective addresses, and the issue of one instruction. -/

namespace Sys2Proof.Machine

/-! ### Fields of the instruction word (Table 5.1) -/

def iOp (w : Word64) : Nat := bits w.toNat 63 56
def iA (w : Word64) : Nat := bits w.toNat 55 51
def iB (w : Word64) : Nat := bits w.toNat 50 46
def iC (w : Word64) : Nat := bits w.toNat 45 41
def iFn (w : Word64) : Nat := bits w.toNat 40 32
def iImm (w : Word64) : Nat := bits w.toNat 31 0

/-- IMM read as a signed value. -/
def iSimm (w : Word64) : Int := sext 32 (iImm w)

/-- The kinds of register field in Table 5.4. -/
inductive RegKind where
  | none | s | pair | quad | v | vpair | t | base
  | any -- a field that the instruction ignores (R215)
deriving DecidableEq, Repr

/-- The opcodes of Table 5.4 (R187), each with the kinds of its A, B and C fields and the bits of FN and IMM that are not
reserved. -/
def opRow : Nat → Option (RegKind × RegKind × RegKind × Nat × Nat)
  | 0x01 => some (.s, .s, .s, 0x1FF, 0)
  | 0x02 => some (.s, .s, .none, 0x1FF, 0xFFFFFFFF)
  | 0x03 => some (.s, .none, .none, 0, 0xFFFFFFFF)
  | 0x04 => some (.s, .base, .none, 0x187, 0xFFFFFFFF)
  | 0x05 => some (.s, .base, .none, 0x183, 0xFFFFFFFF)
  | 0x08 => some (.s, .s, .none, 0x007, 0xFFFFFFFF)
  | 0x09 => some (.s, .none, .none, 0, 0xFFFFFFFF)
  | 0x0A => some (.s, .s, .none, 0, 0xFFFFFFFF)
  | 0x0B => some (.s, .none, .none, 0x001, 0)
  | 0x0C => some (.none, .none, .none, 0x007, 0)
  | 0x0D => some (.none, .none, .none, 0, 0)
  | 0x0E => some (.none, .none, .none, 0, 0)
  | 0x0F => some (.s, .none, .none, 0x1FF, 0)
  | 0x10 => some (.t, .s, .s, 0, 0)
  | 0x11 => some (.s, .t, .none, 0x001, 0)
  | 0x12 => some (.t, .t, .none, 0, 0xFFFFFFFF)
  | 0x20 => some (.v, .v, .v, 0x1FF, 0)
  | 0x21 => some (.v, .v, .s, 0x1FF, 0)
  | 0x22 => some (.v, .v, .v, 0, 0)
  | 0x23 => some (.v, .base, .none, 0x19F, 0xFFFFFFFF)
  | 0x24 => some (.v, .base, .none, 0x19F, 0xFFFFFFFF)
  | 0x25 => some (.s, .v, .none, 0x003, 0)
  | 0x26 => some (.v, .v, .s, 0x18F, 0)
  | 0x27 => some (.s, .vpair, .s, 0x19F, 0)
  | 0x40 => some (.t, .s, .s, 0x01F, 0)
  | 0x41 => some (.none, .none, .none, 0, 0)
  | 0x42 => some (.t, .t, .s, 0x1FF, 0xFC1FFFFF)
  | 0x43 => some (.t, .s, .s, 0x17F, 0x041FFFFF)
  | 0x44 => some (.none, .none, .s, 0x060, 0x041FFFFF)
  | 0x45 => some (.none, .none, .none, 0x060, 0x0000FF7F)
  | 0x46 => some (.none, .s, .s, 0x16F, 0x041FFFFF)
  | 0x60 => some (.none, .base, .none, 0x180, 0xFFFFFFFF)
  | 0x61 => some (.pair, .pair, .pair, 0x1FF, 0)
  | 0x62 => some (.none, .pair, .s, 0x1F1, 0)
  | 0x63 => some (.none, .none, .none, 0, 0)
  | 0x68 => some (.s, .base, .s, 0x180, 0xFFFFFFFF)
  | 0x69 => some (.pair, .base, .none, 0x180, 0xFFFFFFFF)
  | 0x6A => some (.pair, .base, .none, 0x180, 0xFFFFFFFF)
  | 0x6B => some (.base, .pair, .none, 0x1FE, 0xFFFFFFFF)
  | _ => none

/-- The SPACE code of an instruction, 0 where it carries none. -/
def iSpace (w : Word64) : Nat :=
  if iOp w = 0x6B then bits (iFn w) 3 2
  else if [0x04, 0x05, 0x23, 0x24, 0x27, 0x60, 0x68, 0x69, 0x6A].contains (iOp w) then bits (iFn w) 8 7
  else 0

/-- NREG of a counted array instruction (R211). -/
def iNreg (w : Word64) : Bool := bit (iImm w) 26

/-- The kinds of the A, B and C fields, where an instruction's own rules change Table 5.4: unary VOP, VLANE, a WLOAD of
no MX format, a count in IMM, the scale that a DRAIN ignores, COMPARE_SWAP (R204, R209, R211, R212, R215, R221). -/
def fieldKinds (w : Word64) (a b c : RegKind) : RegKind × RegKind × RegKind :=
  match iOp w with
  | 0x20 => if 0x10 ≤ iFn w then (a, b, .none) else (a, b, c)
  | 0x26 => if bits (iFn w) 8 7 = 1 then (.s, b, .none) else (a, .none, c)
  | 0x40 => if fmtMx (bits (iFn w) 4 0) then (a, b, c) else (a, .none, .none)
  | 0x42 => (a, b, if iNreg w then c else .none)
  | 0x43 => (a, if bits (iFn w) 4 0 = 0x11 then b else .any, if iNreg w then c else .none)
  | 0x44 => (a, b, if iNreg w then c else .none)
  | 0x46 => (a, b, if iNreg w then c else .none)
  | 0x61 => (a, b, if bits (iFn w) 3 0 = 2 then .quad else c)
  | _ => (a, b, c)

/-- A register field holds a value that its kind admits (R176 items 2 to 4). -/
def RegKind.admits (k : RegKind) (space v : Nat) : Bool :=
  match k with
  | .none => v == 0
  | .s => true
  | .pair => v % 2 == 0
  | .quad => v % 4 == 0
  | .v => decide (v < 16)
  | .vpair => decide (v < 16) && v % 2 == 0
  | .t => decide (v < 8)
  | .base => space != 2 || v % 2 == 0
  | .any => true

/-- The listed function, condition, selector, size, lane and SPACE codes (R176 item 5), with the reserved uses that the
instructions' own rules add (R190, R195, R203, R209, R210, R211). -/
def codesListed (w : Word64) : Bool :=
  let fn := iFn w
  let space := iSpace w
  let nreg := !iNreg w || bits (iImm w) 20 0 == 0
  space != 3 &&
  match iOp w with
  | 0x01 => decide (fn ≤ 0x0E)
  | 0x02 => decide (fn ≤ 0x0E)
  | 0x04 => bits fn 1 0 != 3
  | 0x05 => bits fn 1 0 != 3
  | 0x08 => decide (fn ≤ 5)
  | 0x0C => fn != 0
  | 0x0F => decide (fn ≤ 6)
  | 0x12 => iImm w % 4 == 0
  | 0x20 => decide (fn ≤ 5) || (decide (0x10 ≤ fn) && decide (fn ≤ 0x17))
  | 0x21 => decide (fn ≤ 5)
  | 0x25 => fn != 3
  | 0x26 => bits fn 8 7 != 3 && (bits fn 8 7 != 2 || bits fn 3 0 == 0)
  | 0x27 => space != 2
  | 0x42 => nreg
  | 0x43 => nreg
  | 0x44 => nreg
  | 0x46 => nreg
  | 0x61 => decide (bits fn 3 0 ≤ 5)
  | _ => true

/-- The instruction raises ILLEGAL at issue (R176). -/
def illegal (w : Word64) : Bool :=
  match opRow (iOp w) with
  | none => true
  | some (a, b, c, fm, im) =>
    let (ka, kb, kc) := fieldKinds w a b c
    let sp := iSpace w
    !((iFn w ||| fm) == fm && (iImm w ||| im) == im && ka.admits sp (iA w) && kb.admits sp (iB w) && kc.admits sp (iC w)
      && codesListed w)

/-- The scalar registers that a field of a kind names. -/
def RegKind.scalars (k : RegKind) (space v : Nat) : List Nat :=
  match k with
  | .s => [v]
  | .pair => [v, v + 1]
  | .quad => [v, v + 1, v + 2, v + 3]
  | .base => if space = 2 then [v, v + 1] else [v]
  | _ => []

/-- The scalar registers that an instruction reads or writes, the status register of a remote operation or a WAIT
included. -/
def scalarsUsed (w : Word64) : List Nat :=
  match opRow (iOp w) with
  | none => []
  | some (a, b, c, _, _) =>
    let (ka, kb, kc) := fieldKinds w a b c
    let sp := iSpace w
    ka.scalars sp (iA w) ++ kb.scalars sp (iB w) ++ kc.scalars sp (iC w) ++
      (if [0x61, 0x62, 0x6B].contains (iOp w) then [bits (iFn w) 8 4] else [])

/-! ### Core registers -/

/-- A scalar register; s0 reads as zero (Table 4.1). -/
def Core.s (k : Core) (r : Nat) : Nat := if r = 0 then 0 else (Sparse.get 0 k.sreg r).toNat

/-- A scalar register written; a write to s0 is ignored. -/
def Core.setS (k : Core) (r v : Nat) : Core :=
  if r = 0 then k else { k with sreg := Sparse.set 0 k.sreg r (BitVec.ofNat 32 v) }

/-- A register pair (R178). -/
def Core.pair (k : Core) (r : Nat) : Nat := k.s r + k.s (r + 1) * 2 ^ 32

/-- A register pair written. -/
def Core.setPair (k : Core) (r v : Nat) : Core := (k.setS r (bits v 31 0)).setS (r + 1) (bits v 63 32)

/-- A lane of a vector register. -/
def Core.lane (k : Core) (v l : Nat) : Nat := (Sparse.get 0 k.vreg (16 * v + l)).toNat

/-- The 16 lanes of a vector register. -/
def Core.lanes (k : Core) (v : Nat) : List Nat := (List.range 16).map (k.lane v)

/-- One lane written. -/
def Core.setLane (k : Core) (v l x : Nat) : Core :=
  { k with vreg := Sparse.set 0 k.vreg (16 * v + l) (BitVec.ofNat 32 x) }

/-- The lanes of a vector register written. -/
def Core.setLanes (k : Core) (v : Nat) (xs : List Nat) : Core :=
  (xs.zipIdx).foldl (fun k p => k.setLane v p.2 p.1) k

/-- A tile-address register (Table 4.2). -/
def Core.t (k : Core) (r : Nat) : Nat := (Sparse.get 0 k.treg r).toNat

/-- A tile-address register written; reserved bits keep reading zero (R201). -/
def Core.setT (k : Core) (r v : Nat) : Core :=
  let x := bits v 63 48 * 2 ^ 48 + bits v 42 40 * 2 ^ 40 + bits v 21 0
  { k with treg := Sparse.set 0 k.treg r (BitVec.ofNat 64 x) }

/-- The reset value of view N (Table 3.2). -/
def viewReset (n : Nat) : Word32 := BitVec.ofNat 32 (0x2000 + 32 * n)

/-- An accumulator view. -/
def Core.accView (k : Core) (n : Nat) : Nat := (Sparse.get (viewReset n) k.view n).toNat

/-- The rows and the base of a view. -/
def Core.viewRows (k : Core) (n : Nat) : Nat := bits (k.accView n) 15 8
def Core.viewBase (k : Core) (n : Nat) : Nat := bits (k.accView n) 6 0

/-- A tally: entry `i` of tally row `r`. -/
def Core.tly (k : Core) (r i : Nat) : Tally := Sparse.get Tally.empty k.tally (16 * r + i)

/-- A tally replaced. -/
def Core.setTly (k : Core) (r i : Nat) (t : Tally) : Core :=
  { k with tally := Sparse.set Tally.empty k.tally (16 * r + i) t }

/-! ### Effective addresses (R179, R180, R143) -/

/-- The core's own core scratch or flock store, at an offset. -/
structure Place where
  inStore : Bool
  off     : Nat
deriving DecidableEq, Repr

/-- What forming an address gives: a place, or a MEM fault with a status and the local address that the flock fault log
records (R11, R143, R171). -/
inductive EA where
  | ok (p : Place)
  | bad (status addr : Nat)
deriving DecidableEq, Repr

/-- An offset in the flock store, or the core scratch, of core `c` of flock `f`, aligned to `align` and with `n` bytes inside
it (R180). The address of a violation is the base of that memory plus the offset (DESIGN CHOICE, log entry 60). -/
def placeAt (f c : Nat) (inStore : Bool) (off align n : Nat) : EA :=
  if off % align = 0 ∧ off + n ≤ (if inStore then storeSize else scratchSize) then .ok { inStore := inStore, off := off }
  else .bad stAddressFault (if inStore then storeAddr f off else scratchAddr f c off)

/-- The address of R179 from SPACE, the base register and an offset. `strict` is the form of DMA and signal instructions,
for which every address outside the core's own memories is REFUSED (R219, R228). An address that is both misaligned and
outside the core's own memories takes the status of where it lies (DESIGN CHOICE, log entry 60). -/
def effAddr (f c : Nat) (k : Core) (space base : Nat) (imm align n : Nat) (strict : Bool) : EA :=
  if space = 2 then
    let a := wrap 48 ((k.pair base : Int) + sext 32 imm)
    match locOf a with
    | .store f' off => if f' = f then placeAt f c true off align n else .bad stRefused a
    | .scratch f' c' off => if f' = f ∧ c' = c then placeAt f c false off align n else .bad stRefused a
    | .unmapped => .bad (if strict then stRefused else stAddressFault) a
    | _ => .bad stRefused a
  else placeAt f c (space == 1) ((k.s base + imm) % 2 ^ 32) align n

/-- Bytes of a place. -/
def State.rdPlace (s : State) (f c : Nat) (p : Place) (n : Nat) : List Byte :=
  if p.inStore then s.rdStore f p.off n else s.rdScratch f c p.off n

/-- Bytes written at a place. -/
def State.wrPlace (s : State) (f c : Nat) (p : Place) (bs : List Byte) : State :=
  if p.inStore then s.wrStore f p.off bs else s.wrScratch f c p.off bs

/-- The signal word at a place. -/
def Place.sig (p : Place) (f c : Nat) : SigPlace := if p.inStore then .store f p.off else .scratch f c p.off

/-! ### Issue of one instruction (R126 to R129, R164) -/

/-- The issue of every core is withheld while the device is TRIPPED (R677). -/
def State.tripped (s : State) : Bool := s.rbit .thmStatus 0 0 63

/-- All issue of a flock's pasture is withheld: the device is TRIPPED, or the pasture applies the whole fraction (R671,
R674, R675). -/
def State.withheld (s : State) (f : Nat) : Bool := s.tripped || Sparse.get 0 s.therm.frac (f / 56) == 256

/-- A scalar register whose result a remote operation has yet to write (R129). -/
def Core.awaits (k : Core) (r : Nat) : Bool :=
  r != 0 && k.remotes.any fun m => m.sreg == r || (m.atom && (m.res == r || m.res + 1 == r))

/-- Whether a core can issue its next instruction: it runs, it is neither halted nor stopped, nothing holds its issue,
and issue is not withheld from the device or its flock. -/
def State.canIssue (s : State) (f c : Nat) : Bool :=
  (s.core f c).run == .running && !s.halted f c && !s.doneBit f c && (s.core f c).hold == .free && !s.withheld f
    && !s.flockQuiet f

/-- The program counter moves past the instruction that issues. -/
def State.advance (s : State) (f c : Nat) : State := s.modCore f c fun k => { k with pc := k.pc + 1 }

/-- A precise fault of the instruction at the program counter (R164). DMA_SEQ has no meaning for it and is a free value (log
entry 1). -/
def State.precise (s : State) (f c cls status op : Nat) : State :=
  s.bump.coreFault f c cls status 0 (s.core f c).pc op (s.freeVal.toNat % 2 ^ 16) false

/-- A MEM fault of the instruction at the program counter (R143, R180): the flock fault log records the address (R11, R27,
R171, R778). -/
def State.memFault (s : State) (f c op status addr : Nat) : State :=
  (s.flkLog f addr status 0x0 (coreId f c)).precise f c 0x3 status op

/-- The array fault register (R122, R123). A row count above 2^21 - 1, which only a register can give, is recorded by its low 21
bits (DESIGN CHOICE, log entry 61). -/
def State.arrayLog (s : State) (f c cause status fmt set done req : Nat) : State :=
  let old := s.reg .flkArrayFault f c
  if bit old 63 then s.setRbit .flkArrayFault f c 62 true
  else s.setReg .flkArrayFault f c
    (setBit (2 ^ 63 + cause * 2 ^ 56 + status * 2 ^ 52 + fmt * 2 ^ 47 + set * 2 ^ 45 + (done % 2 ^ 21) * 2 ^ 21
      + req % 2 ^ 21) 62 (bit old 62))

/-- A format code that the instruction does not accept: FORMAT_FAULT at issue (R177). -/
def State.fmtFault (s : State) (f c op code : Nat) : State :=
  (s.arrayLog f c 0x1 0 code 0 0 0).precise f c 0x1 0 op

/-- A fetch outside the program region (R128): no instruction is there, so OPCODE is a free value too. -/
def State.fetchFault (s : State) (f c : Nat) : State := s.bump.precise f c 0x4 0 (s.freeVal.toNat % 2 ^ 8)

/-- The issue of the instruction word `w` whose major opcode is `op` by core `c` of flock `f`. A word with another opcode is the
event of another row (log entry 14). A core that cannot issue,
or whose registers are still awaited, does not issue now: nothing changes. A fetch outside the program region raises
FETCH with PC at the region length (R128, R193), and a word of R176 raises ILLEGAL; otherwise the meaning takes place. -/
def issue (op : Nat) (f c : Nat) (w : Word64) (s : State) (k : State → State) : Out :=
  if iOp w ≠ op then .next s
  else onCore f c s fun s =>
    if !s.canIssue f c then s
    else if (s.flock f).regionLen c ≤ (s.core f c).pc then s.fetchFault f c
    else if (scalarsUsed w).any (s.core f c).awaits then s
    else if illegal w then s.precise f c 0x2 0 op
    else k s

end Sys2Proof.Machine
end

