-- ==== Sys2Proof/Machine/Scalar.lean ====
section
/-! DEFINITION. Scalar, control and tile-address instructions (R188 to R203). -/

namespace Sys2Proof.Machine

/-- A scalar result: sd takes the value and the program counter moves on. -/
def State.retS (s : State) (f c r v : Nat) : State := (s.modCore f c fun k => k.setS r v).advance f c

/-- ALU (R188, Table 5.5). A word whose opcode Table 5.4 does not list reaches issue by this row and raises ILLEGAL
(R176 item 1). -/
def execAlu (f c : Nat) (w : Word64) (s : State) : Out :=
  issue (if (opRow (iOp w)).isNone then iOp w else 0x01) f c w s fun s =>
    let k := s.core f c
    s.retS f c (iA w) (aluFn (iFn w) (k.s (iB w)) (k.s (iC w)))

/-- ALUI (R188). -/
def execAlui (f c : Nat) (w : Word64) (s : State) : Out :=
  issue 0x02 f c w s fun s => s.retS f c (iA w) (aluFn (iFn w) ((s.core f c).s (iB w)) (iImm w))

/-- LI (R189). -/
def execLi (f c : Nat) (w : Word64) (s : State) : Out :=
  issue 0x03 f c w s fun s => s.retS f c (iA w) (iImm w)

/-- LD (R190): 1, 2 or 4 bytes, zero- or sign-extended. -/
def execLd (f c : Nat) (w : Word64) (s : State) : Out :=
  issue 0x04 f c w s fun s =>
    let n := 2 ^ bits (iFn w) 1 0
    match effAddr f c (s.core f c) (iSpace w) (iB w) (iImm w) n n false with
    | .bad st a => s.memFault f c 0x04 st a
    | .ok p =>
      let v := ofLE (s.rdPlace f c p n)
      s.retS f c (iA w) (if bit (iFn w) 2 then wrap 32 (sext (8 * n) v) else v)

/-- ST (R190): the low 1, 2 or 4 bytes of ss. -/
def execSt (f c : Nat) (w : Word64) (s : State) : Out :=
  issue 0x05 f c w s fun s =>
    let n := 2 ^ bits (iFn w) 1 0
    match effAddr f c (s.core f c) (iSpace w) (iB w) (iImm w) n n false with
    | .bad st a => s.memFault f c 0x05 st a
    | .ok p => (s.wrPlace f c p (leBytes n ((s.core f c).s (iA w)))).advance f c

/-- A branch or jump to an instruction index (R193): outside the program region it raises FETCH as its own precise fault
and writes no link register; inside, `link` takes place and the program counter takes the target. -/
def State.jump (s : State) (f c op : Nat) (target : Int) (link : Core → Core) : State :=
  if 0 ≤ target ∧ target < (s.flock f).regionLen c then
    s.modCore f c fun k => { link k with pc := target.toNat }
  else s.precise f c 0x4 0 op

/-- BR (R191). -/
def execBr (f c : Nat) (w : Word64) (s : State) : Out :=
  issue 0x08 f c w s fun s =>
    let k := s.core f c
    if branchTaken (iFn w) (k.s (iA w)) (k.s (iB w)) then s.jump f c 0x08 (k.pc + iSimm w) id
    else s.advance f c

/-- JAL (R192). -/
def execJal (f c : Nat) (w : Word64) (s : State) : Out :=
  issue 0x09 f c w s fun s =>
    let pc := (s.core f c).pc
    s.jump f c 0x09 (pc + iSimm w) fun k => k.setS (iA w) (pc + 1)

/-- JR (R192): the base register is read before the link register is written. -/
def execJr (f c : Nat) (w : Word64) (s : State) : Out :=
  issue 0x0A f c w s fun s =>
    let k := s.core f c
    s.jump f c 0x0A (((k.s (iB w) + iImm w) % 2 ^ 32 : Nat)) fun k' => k'.setS (iA w) (k.pc + 1)

/-- TIXR (R194): sd takes the TALLY_INEXACT flag, which CLEAR then clears. -/
def execTixr (f c : Nat) (w : Word64) (s : State) : Out :=
  issue 0x0B f c w s fun s =>
    let b := s.inexactFlag f c
    let s := s.retS f c (iA w) b.toNat
    if bit (iFn w) 0 then s.setCbit .flkArithInexactLo .flkArithInexactHi f c false else s

/-- The array has neither a waiting nor a running instruction. -/
def Core.arrayIdle (k : Core) : Bool := k.queue.isEmpty && k.runs.isEmpty

/-- The conditions that a QWAIT mask selects (R195). The step of a store writes its bytes, so STORES holds (DESIGN CHOICE, log
entry 63). -/
def Core.qwaitDone (k : Core) (mask : Nat) : Bool :=
  (!bit mask 0 || k.arrayIdle) && (!bit mask 1 || k.dma.isEmpty)

/-- Every earlier PUT and GET descriptor, RATOM and RSIG has its end-to-end acknowledgement (R226). -/
def Core.fenceDone (k : Core) : Bool :=
  k.remotes.isEmpty && !k.dma.any fun d =>
    (d.op == 0x08 || d.op == 0x09) && !(d.started && d.left == 0 && d.land.isEmpty)

/-- The conditions of STOP (R197). -/
def Core.stopDone (k : Core) : Bool := k.qwaitDone 7 && k.remotes.isEmpty

/-- What a held QWAIT, RFENCE or STOP does when its condition holds (R183, R197): issue resumes, or the core stops with
its done bit set. -/
def State.release (s : State) (f c : Nat) : State :=
  let k := s.core f c
  match k.hold with
  | .qwait m => if k.qwaitDone m then s.modCore f c fun k => { k with hold := .free } else s
  | .rfence => if k.fenceDone then s.modCore f c fun k => { k with hold := .free } else s
  | .stop =>
    if k.stopDone then
      (s.modCore f c fun k => { k with hold := .free }).setCbit .flkCoreDoneLo .flkCoreDoneHi f c true
    else s
  | _ => s

/-- Issue holds, and resumes at once where the condition already holds. -/
def State.holdIssue (s : State) (f c : Nat) (h : Hold) : State :=
  ((s.advance f c).modCore f c fun k => { k with hold := h }).release f c

/-- QWAIT (R195). -/
def execQwait (f c : Nat) (w : Word64) (s : State) : Out :=
  issue 0x0C f c w s fun s => s.holdIssue f c (.qwait (iFn w))

/-- QWAIT_RELEASE (R183): issue resumes once the condition of a waiting QWAIT, RFENCE or STOP holds. -/
def execQwaitRelease (f c : Nat) (s : State) : Out := onCore f c s fun s => s.release f c

/-- STOP (R197). -/
def execStop (f c : Nat) (w : Word64) (s : State) : Out :=
  issue 0x0D f c w s fun s => s.holdIssue f c .stop

/-- RFENCE (R226). -/
def execRfence (f c : Nat) (w : Word64) (s : State) : Out :=
  issue 0x63 f c w s fun s => s.holdIssue f c .rfence

/-- NOP (R198). -/
def execNop (f c : Nat) (w : Word64) (s : State) : Out :=
  issue 0x0E f c w s fun s => s.advance f c

/-- The core cycle count when CYCLE_LO reads it (R200): some cycles after the read before it, a free number of them. -/
def State.cycleNow (s : State) (f c : Nat) : Nat := (s.core f c).cycles + 1 + s.freeVal.toNat

/-- SREAD (R199, Table 5.7). CYCLE_LO gives bits 31:0 of the core cycle count and captures bits 63:32 for CYCLE_HI (R200). -/
def execSread (f c : Nat) (w : Word64) (s : State) : Out :=
  issue 0x0F f c w s fun s =>
    match iFn w with
    | 0 => s.retS f c (iA w) (coreId f c)
    | 1 => s.retS f c (iA w) (s.fld .drvSelf 0 0 29 16)
    | 2 => s.retS f c (iA w) (s.fld .drvSelf 0 0 46 32)
    | 3 => s.retS f c (iA w) (s.fld .drvSelf 0 0 13 0)
    | 4 =>
      let v := s.cycleNow f c
      (s.bump.modCore f c fun k => { k with cycles := v, cycleHi := BitVec.ofNat 32 (bits v 63 32) }).retS f c (iA w)
        (bits v 31 0)
    | 5 => s.retS f c (iA w) (s.core f c).cycleHi.toNat
    | _ => s.retS f c (iA w) ((s.flock f).regionLen c)

/-- MOVT (R201). -/
def execMovt (f c : Nat) (w : Word64) (s : State) : Out :=
  issue 0x10 f c w s fun s =>
    (s.modCore f c fun k => k.setT (iA w) (k.s (iB w) + k.s (iC w) * 2 ^ 32)).advance f c

/-- MFT (R202). -/
def execMft (f c : Nat) (w : Word64) (s : State) : Out :=
  issue 0x11 f c w s fun s =>
    let t := (s.core f c).t (iB w)
    s.retS f c (iA w) (if bit (iFn w) 0 then bits t 63 32 else bits t 31 0)

/-- TADDI (R203): OFFSET becomes (OFFSET + IMM) modulo 2^22. -/
def execTaddi (f c : Nat) (w : Word64) (s : State) : Out :=
  issue 0x12 f c w s fun s =>
    (s.modCore f c fun k =>
      let t := k.t (iB w)
      k.setT (iA w) (setBits t 21 0 (wrap 22 ((bits t 21 0 : Int) + iSimm w)))).advance f c

end Sys2Proof.Machine
end

