-- ==== Sys2Proof/Machine/Array.lean ====
section
/-! DEFINITION. The broadcast matrix array (03_matrix_array.md, R211 to R218): array instructions enter the array queue
when they issue, ARRAY_START starts them in order with the checks of Table 3.8, and ARRAY_ROW_FETCH takes one row or
segment through every stage. -/

namespace Sys2Proof.Machine

/-! ### Entering the array queue -/

/-- The array operand formats of Table 2.1, which WLOAD and STREAM accept (R213). -/
def arrayFmt (c : Nat) : Bool := [0x01, 0x02, 0x03, 0x04, 0x05, 0x06, 0x08, 0x0A, 0x0B, 0x0C, 0x0D].contains c

/-- The output formats of pass mode and of DRAIN (Table 3.3). -/
def passFmt (c : Nat) : Bool := [0x00, 0x01, 0x02, 0x03, 0x04, 0x05, 0x10].contains c
def drainFmt (c : Nat) : Bool := passFmt c || c == 0x11 || c == 0x12

/-- An array instruction issues into the queue with the operands that it reads (R112, R130, R182), or, where it carries a
format code that it does not accept, raises FORMAT_FAULT as it issues (R44, R106, R177). While the queue is full it does not
issue. That the output formats of R106 are checked here, with R177, and not when the array starts the instruction is a choice
(DESIGN CHOICE, log entry 61). -/
def State.enqueue (s : State) (f c : Nat) (w : Word64) (bad : Option Nat) : State :=
  let k := s.core f c
  if 4 ≤ k.queue.length then s
  else match bad with
  | some code => s.fmtFault f c (iOp w) code
  | none =>
    let b (n v : Nat) := BitVec.ofNat n v
    let e : ArrayEntry :=
      { w := w, pc := k.pc, ta := b 64 (k.t (iA w % 8)), ta1 := b 64 (k.t ((iA w + 1) % 8)), tb := b 64 (k.t (iB w % 8)),
        sb := b 32 (k.s (iB w)), sc := b 32 (k.s (iC w)) }
    (s.modCore f c fun k => { k with queue := k.queue ++ [e] }).advance f c

/-- The count of STREAM, DRAIN, TCLR and GDRAIN (R211). -/
def ArrayEntry.count (e : ArrayEntry) : Nat := if iNreg e.w then e.sc.toNat else bits (iImm e.w) 20 0

/-- The view that FN names. -/
def iView (w : Word64) : Nat := bits (iFn w) 6 5

/-- The format code of FN when the instruction does not accept it. -/
def badFmt (w : Word64) (accepts : Nat → Bool) : Option Nat :=
  if accepts (bits (iFn w) 4 0) then none else some (bits (iFn w) 4 0)

/-- WLOAD (R212, R213). -/
def execWload (f c : Nat) (w : Word64) (s : State) : Out :=
  issue 0x40 f c w s fun s => s.enqueue f c w (badFmt w arrayFmt)

/-- WSWAP (R89). -/
def execWswap (f c : Nat) (w : Word64) (s : State) : Out := issue 0x41 f c w s fun s => s.enqueue f c w none

/-- Pass mode of a STREAM (R99). -/
def passMode (w : Word64) (n : Nat) : Bool := decide (128 < n) || bit (iFn w) 7

/-- STREAM (R99, R214); pass mode adds its output format to the codes that it must accept. A code that is refused is recorded
as its input format (Table 3.9). -/
def execStream (f c : Nat) (w : Word64) (s : State) : Out :=
  issue 0x42 f c w s fun s =>
    let n := if iNreg w then (s.core f c).s (iC w) else bits (iImm w) 20 0
    s.enqueue f c w (badFmt w fun code => arrayFmt code && (!passMode w n || passFmt (bits (iImm w) 31 27)))

/-- DRAIN (R108, R215). -/
def execDrain (f c : Nat) (w : Word64) (s : State) : Out :=
  issue 0x43 f c w s fun s => s.enqueue f c w (badFmt w drainFmt)

/-- TCLR (R217). -/
def execTclr (f c : Nat) (w : Word64) (s : State) : Out := issue 0x44 f c w s fun s => s.enqueue f c w none

/-- ACCVIEW (R218). -/
def execAccview (f c : Nat) (w : Word64) (s : State) : Out := issue 0x45 f c w s fun s => s.enqueue f c w none

/-- GDRAIN (R216). -/
def execGdrain (f c : Nat) (w : Word64) (s : State) : Out := issue 0x46 f c w s fun s => s.enqueue f c w none

/-! ### Tile-address registers (Table 4.2) -/

def tKind (t : Word64) : Nat := bits t.toNat 63 62
def tStride (t : Word64) : Nat := bits t.toNat 61 48 * 4
def tRoad (t : Word64) : Nat := bits t.toNat 42 40
def tOff (t : Word64) : Nat := bits t.toNat 21 0

/-- KIND 0b11, or an OFFSET that is not a multiple of 4; a road ignores OFFSET (R136). -/
def tBad (t : Word64) : Bool := tKind t == 3 || (decide (tKind t < 2) && tOff t % 4 != 0)

/-- A source or sink register that the array refuses at issue: R136, or a road port that is not bound to the core
(R146). -/
def State.tSourceBad (s : State) (f c : Nat) (t : Word64) : Bool :=
  tBad t || (tKind t == 2 && !s.roadIn f c (tRoad t))
def State.tSinkBad (s : State) (f c : Nat) (t : Word64) : Bool :=
  tBad t || (tKind t == 2 && !s.roadOut f c (tRoad t))

/-- The size of the memory of a KIND. -/
def kindSize (kind : Nat) : Nat := if kind = 1 then storeSize else scratchSize

/-- Bytes of a core's own core scratch or flock store, by KIND. -/
def State.rdKind (s : State) (f c kind off n : Nat) : List Byte :=
  if kind = 1 then s.rdStore f off n else s.rdScratch f c off n

/-! ### Starting an instruction -/

/-- The rows of K of a tile (Table 3.1). -/
def tileK (fmt : Nat) : Nat := if fmt = 0x06 ∨ fmt = 0x0C then 32 else 16

/-- A transposed stream of a 4-bit tile gives two tally rows for each input row (R102). -/
def wideRows (w : Word64) (t : Tile) : Bool := bit (iFn w) 8 && tileK t.fmt == 32

/-- The causes of Table 3.8 that an instruction meets at issue; the lowest is reported (R119). Two points are choices (DESIGN
CHOICE, log entry 61): R104 looks at the target rows inside the view only, and a scale register t2m+1 with KIND 0b10, or with a
KIND or OFFSET that R136 refuses, raises OPERAND_FAULT where the source is not a road. -/
def startCause (s : State) (f c : Nat) (e : ArrayEntry) : Option Nat :=
  let k := s.core f c
  let n := e.count
  let v := iView e.w
  let rows := k.viewRows v
  let base := k.viewBase v
  let badRange := n == 0 || decide (rows < n)
  let oper (b : Bool) : Option Nat := if b then some 3 else none
  match iOp e.w with
  | 0x40 => oper (tBad e.ta || tKind e.ta == 2)
  | 0x41 => oper (!k.loaded)
  | 0x45 =>
    let r := bits (iImm e.w) 15 8
    oper (r == 0 || decide (128 < bits (iImm e.w) 6 0 + r))
  | 0x44 => if badRange then some 2 else none
  | 0x43 => if badRange then some 2 else oper (s.tSinkBad f c e.ta)
  | 0x46 =>
    let bound := match s.fold with
      | some x => match x.chans[bits (iFn e.w) 3 0]? with
        | some ch => ch.enable && bit ch.flocks f
        | none => false
      | none => false
    if badRange then some 2 else oper (!bound)
  | _ =>
    let code := bits (iFn e.w) 4 0
    let pass := passMode e.w n
    let pair := match k.active with
      | some t => pairCode t.fmt code
      | none => some 0
    let need := match k.active with
      | some t => if wideRows e.w t then 2 * n else n
      | none => n
    let mixed := !pass && k.active.isSome && (List.range (min need rows)).any fun i =>
      let p := (k.tly (base + i) 0).pair
      p != 0 && some p != pair
    if pair.isNone || mixed then some 1
    else if !pass && decide (rows < need) then some 2
    else oper (n == 0 || decide (2 ^ 20 < n) || k.active.isNone || s.tSourceBad f c e.ta ||
      (fmtMx code && (iA e.w % 2 == 1 || (tKind e.ta != 2 && (tBad e.ta1 || tKind e.ta1 == 2)))) ||
      (pass && s.tSinkBad f c e.tb))

/-- The rows or segments that an instruction runs through (Table 3.9). -/
def ArrayEntry.req (e : ArrayEntry) : Nat :=
  match iOp e.w with
  | 0x40 => 16
  | 0x41 => 0
  | 0x45 => 0
  | _ => e.count

/-- The format that FLK_ARRAY_FAULT records: the input format, or the output format for a sink fault (Table 3.9); `x` for an
instruction that names none. A DRAIN names an output format alone, which is recorded for every cause (DESIGN CHOICE, log entry
61). -/
def ArrayEntry.fmt (e : ArrayEntry) (cause x : Nat) : Nat :=
  match iOp e.w with
  | 0x40 => bits (iFn e.w) 4 0
  | 0x42 => if cause = 5 then bits (iImm e.w) 31 27 else bits (iFn e.w) 4 0
  | 0x43 => bits (iFn e.w) 4 0
  | _ => x

/-- The view and the row count that FLK_ARRAY_FAULT records; `x` for an instruction that names none. -/
def ArrayEntry.set (e : ArrayEntry) (x : Nat) : Nat := if iOp e.w = 0x40 ∨ iOp e.w = 0x41 then x else iView e.w
def ArrayEntry.reqd (e : ArrayEntry) (x : Nat) : Nat := if iOp e.w = 0x41 ∨ iOp e.w = 0x45 then x else e.req

/-- An array fault of a started instruction or of one at its start (R119 to R123): the log, then the core's fault of class
ARRAY, precise with the instruction's own index at issue and imprecise at a row. Fields without a meaning for the instruction
or the fault are free values (log entry 1). -/
def State.arrayFault (s : State) (f c : Nat) (e : ArrayEntry) (cause status done : Nat) (atRow : Bool) : State :=
  let x := s.freeVal.toNat
  let s := s.bump.arrayLog f c cause status (e.fmt cause (bits x 4 0)) (e.set (bits x 6 5)) done (e.reqd (bits x 27 7))
  s.coreFault f c 0x1 status 0 (if atRow then (s.core f c).pc else e.pc) (iOp e.w) (bits x 43 28) atRow

/-- The head of the queue can start: the array runs one instruction at a time, but for a WLOAD, whose segments another
instruction's rows may overlap (Table 3.5, R90, R113, R114). -/
def Core.canStart (k : Core) (e : ArrayEntry) : Bool :=
  let loading := k.runs.any fun r => iOp r.e.w == 0x40
  let busy := k.runs.any fun r => iOp r.e.w != 0x40
  !busy && !(loading && (iOp e.w == 0x40 || iOp e.w == 0x41))

/-- Rows `base` to `base + n - 1` of the tally file made empty (R111, R217). -/
def Core.clearRows (k : Core) (base n : Nat) : Core :=
  { k with tally := Sparse.drop (fun x => decide (16 * base ≤ x) && decide (x < 16 * (base + n))) k.tally }

/-- ARRAY_START (R113): the next queued instruction starts. TCLR, WSWAP and ACCVIEW take effect at once; WLOAD, STREAM,
DRAIN and GDRAIN then run row by row. -/
def execArrayStart (f c : Nat) (s : State) : Out :=
  onCore f c s fun s =>
    let k := s.core f c
    match k.queue with
    | [] => s
    | e :: rest =>
      if !k.canStart e || s.withheld f || s.flockQuiet f then s
      else
        let s := s.modCore f c fun k => { k with queue := rest }
        match startCause s f c e with
        | some cause => s.arrayFault f c e cause 0 0 false
        | none =>
          let v := iView e.w
          let run : ArrayRun := { e := e, done := 0, total := e.req, segs := [], scales := [] }
          match iOp e.w with
          | 0x41 => s.modCore f c fun k => { k with active := k.standby, standby := k.active, loaded := false }
          | 0x44 => s.modCore f c fun k => k.clearRows (k.viewBase v) e.count
          | 0x45 => s.modCore f c fun k =>
              { k with view := Sparse.set (viewReset v) k.view v (BitVec.ofNat 32 (iImm e.w)) }
          | 0x40 => s.modCore f c fun k => { k with standby := none, loaded := false, runs := k.runs ++ [run] }
          | _ => s.modCore f c fun k => { k with runs := k.runs ++ [run] }

/-! ### Rows -/

/-- What fetching an input row gives: nothing yet, a status other than OK, or the row's bytes and scale byte. -/
inductive Fetch where
  | stall
  | fail (status : Nat)
  | row (data : List Byte) (scale : Nat)
deriving DecidableEq, Repr

/-- Input row `r` of a STREAM (R100, R137, R138, R149 to R151). -/
def State.fetchRow (s : State) (f c : Nat) (e : ArrayEntry) (r nb : Nat) (mx : Bool) : Fetch :=
  let kind := tKind e.ta
  if kind = 2 then
    let q := tRoad e.ta
    if s.farInQuiet f q then .fail stTargetReset
    else match (s.inPort f q).buf with
      | [] => .stall
      | x :: _ => if x.ok then .row (x.data.take nb) x.scale else .fail stChecksumFault
  else
    let a := tOff e.ta + r * tStride e.ta
    let a1 := tOff e.ta1 + r * tStride e.ta1
    if kindSize kind < a + nb then .fail stAddressFault
    else if mx && decide (kindSize (tKind e.ta1) ≤ a1) then .fail stAddressFault
    else .row (s.rdKind f c kind a nb) (if mx then ofLE (s.rdKind f c (tKind e.ta1) a1 1) else 0x7F)

/-- What a sink can do with a row of `n` bytes: take it, not now, or answer a status other than OK. -/
inductive Sink where
  | ready
  | stall
  | fail (status : Nat)
deriving DecidableEq, Repr

/-- The sink that a register names, for row `r` (R137, R148, R151). A row of several road rows waits for the credits of all of
them (DESIGN CHOICE, log entry 62). -/
def State.sinkFor (s : State) (f : Nat) (t : Word64) (r n : Nat) : Sink :=
  if tKind t = 2 then
    if s.farOutQuiet f (tRoad t) then .fail stTargetReset
    else if (s.outPort f (tRoad t)).used + (n + 63) / 64 ≤ 32 then .ready else .stall
  else if kindSize (tKind t) < tOff t + r * tStride t + n then .fail stAddressFault
  else .ready

/-- A row written to its sink (R134, R149). -/
def State.writeSink (s : State) (f c : Nat) (t : Word64) (r : Nat) (bs : List Byte) : State :=
  let a := tOff t + r * tStride t
  match tKind t with
  | 2 => s.roadSendAll f (tRoad t) 4 bs
  | 1 => s.wrStore f a bs
  | _ => s.wrScratch f c a bs

/-- The element bits of column segment `n` of a tile. -/
def Tile.col (t : Tile) (n : Nat) : List Nat :=
  (List.range (tileK t.fmt)).map (packedElem t.fmt ((t.segs[n]?).getD []))

/-- The contributions of one input row to each result element: pairs of element values, with the scale exponent of R101
and whether a scale byte is NaN. Forward: element n takes x[k] · w[k][n] (R80). Transposed: element k takes
g[n] · w[k][n] (R81). -/
def rowProducts (t : Tile) (code : Nat) (transposed : Bool) (x : List Byte) (xs : Nat) :
    List (List (FVal × FVal × Int × Bool)) :=
  let k := tileK t.fmt
  let cols := (List.range 16).map fun n => ((t.col n).map (elemVal t.fmt), (t.scales[n]?).getD 0x7F)
  let inp := (List.range (if transposed then 16 else k)).map fun i => elemVal code (packedElem code x i)
  let mx := fmtMx code
  let term (xe we : FVal) (ws : Nat) : FVal × FVal × Int × Bool :=
    if mx then (xe, we, ((xs : Int) - 127) + ((ws : Int) - 127), xs == 0xFF || ws == 0xFF) else (xe, we, 0, false)
  if transposed then
    (List.range k).map fun j =>
      List.zipWith (fun xe col => term xe ((col.1[j]?).getD (.fin false 0 0)) col.2) inp cols
  else cols.map fun col => List.zipWith (fun xe we => term xe we col.2) inp col.1

/-- The unscaled value that an element of an exact pair contributes: MX elements enter as their own values, their scales
as X. -/
def Tally.addAll (t : Tally) (pair : Nat) : List (FVal × FVal × Int × Bool) → Tally × Bool
  | [] => (t, false)
  | (a, b, x, nan) :: r =>
    let (t, i) := t.contribute pair a b x nan
    let (t, j) := t.addAll pair r
    (t, i || j)

/-- The effect of one row's products on one tally (R55, R62): the tally, and whether INEXACT was set. -/
def Tally.addRow (t : Tally) (pair : Nat) (ps : List (FVal × FVal × Int × Bool)) : Tally × Bool :=
  if pair = 0xC then (t.addTree (ps.map fun p => FVal.mul p.1 p.2.1), false) else t.addAll pair ps

/-- One row of results added into tally row `row`, entries from place `i` (R102). -/
def Core.accumulate (k : Core) (pair row : Nat) : Nat → List (List (FVal × FVal × Int × Bool)) → Core × Bool
  | _, [] => (k, false)
  | i, ps :: r =>
    let (t, a) := (k.tly (row + i / 16) (i % 16)).addRow pair ps
    let (k, b) := (k.setTly (row + i / 16) (i % 16) t).accumulate pair row (i + 1) r
    (k, a || b)

/-- A result row of pass mode: each element as a fresh tally holds it, rounded once to the output format (R105). -/
def passRow (pair out : Nat) (res : List (List (FVal × FVal × Int × Bool))) : List Byte × Bool :=
  let ts := res.map (Tally.empty.addRow pair)
  ((ts.map fun p => outElem out p.1.value).flatten, ts.any fun p => p.1.inexact)

/-- The running instruction at place `i` of a core after one more row: it ends with its last row. -/
def Core.rowDone (k : Core) (i : Nat) : Core :=
  match k.runs[i]? with
  | some r =>
    if r.done + 1 = r.total then { k with runs := k.runs.eraseIdx i }
    else { k with runs := k.runs.set i { r with done := r.done + 1 } }
  | none => k

/-- A fault at a row (R120): the instruction stops with the rows before it done. A road row has no local address, so the one
logged is a free value (log entry 1). -/
def State.rowFault (s : State) (f c i : Nat) (r : ArrayRun) (cause status : Nat) : State :=
  let s := s.modCore f c fun k => { k with runs := k.runs.eraseIdx i }
  let s := if status = stTargetReset then
      let t := if cause = 4 then r.e.ta else if iOp r.e.w = 0x43 then r.e.ta else r.e.tb
      let far := if cause = 4 then ((s.roadSource f (tRoad t)).map Prod.fst).getD f else (s.roadDest f (tRoad t)).1
      let sc := s.flockScope far
      s.bump.resetLog (s.freeVal.toNat % 2 ^ 48) sc.1 sc.2 0x6 (coreId f c)
    else s
  s.arrayFault f c r.e cause status r.done true

/-- The failed residue check of R684 at a row (R685): the instruction stops, the core halts without FLK_CORE_FAULT, and
its physical core is retired. -/
def State.residueFault (s : State) (f c i : Nat) : State :=
  let s := (s.modCore f c fun k => { k with runs := k.runs.eraseIdx i }).haltCore f c
  s.retire f ((s.flock f).phys c) 0x1

/-- The bytes that an input row of a STREAM occupies (Table 3.1). -/
def inRowBytes (t : Tile) (code : Nat) (transposed : Bool) : Nat :=
  packedLen code (if transposed then 16 else tileK t.fmt)

/-- A row of a STREAM. -/
def streamRow (f c i : Nat) (r : ArrayRun) (residueFails : Bool) (s : State) : State :=
  match (s.core f c).active with
  | none => s
  | some t =>
    let w := r.e.w
    let code := bits (iFn w) 4 0
    let tr := bit (iFn w) 8
    let pass := passMode w r.e.count
    let pair := (pairCode t.fmt code).getD 0
    let out := bits (iImm w) 31 27
    let outN := (if tr then tileK t.fmt else 16) * (fmtBits out / 8)
    match s.fetchRow f c r.e r.done (inRowBytes t code tr) (fmtMx code) with
    | .stall => s
    | .fail st =>
      let s := if tKind r.e.ta = 2 && st == stChecksumFault then s.roadTake f (tRoad r.e.ta) else s
      s.rowFault f c i r 4 st
    | .row x xs =>
      let sink := if pass then s.sinkFor f r.e.tb r.done outN else .ready
      if sink = .stall then s
      else
        let s := if tKind r.e.ta = 2 then s.roadTake f (tRoad r.e.ta) else s
        match sink with
        | .fail st => s.rowFault f c i r 5 st
        | _ =>
          if residueFails && pair != 0xC then s.residueFault f c i
          else
            let res := rowProducts t code tr x xs
            if pass then
              let (bs, inx) := passRow pair out res
              ((s.writeSink f c r.e.tb r.done bs).flagInexact f c inx).modCore f c fun k => k.rowDone i
            else
              let k := s.core f c
              let row := k.viewBase (iView w) + (if wideRows w t then 2 * r.done else r.done)
              let (k, inx) := k.accumulate pair row 0 res
              (s.setCore f c (k.rowDone i)).flagInexact f c inx

/-- The scale G in a scalar register, bits 15:0 read as signed (R215). -/
def ArrayEntry.scale (e : ArrayEntry) : Int := sext 16 e.sb.toNat

/-- The 16 tallies of a tally row. -/
def Core.tallyRow (k : Core) (row : Nat) : List Tally := (List.range 16).map (k.tly row)

/-- What a conversion of a tally row to fabric integers leaves behind: TALLY_INEXACT and the INEXACT bits of R68, the
overflow flag of R575, and empty tallies after CLEAR (R111). -/
def State.afterDrain (s : State) (f c row : Nat) (fab clear : Bool) (g : Int) : State :=
  let k := s.core f c
  let cs := (k.tallyRow row).map fun t => t.fabric g
  let s := if fab then
      let s := s.flagInexact f c (cs.any fun x => x.2.1)
      if cs.any fun x => x.2.2 then s.setCbit .flkArithOverflowLo .flkArithOverflowHi f c true else s
    else s
  s.modCore f c fun k =>
    if clear then k.clearRows row 1
    else if fab then
      (List.range 16).foldl (fun k i =>
        let t := k.tly row i
        k.setTly row i { t with inexact := t.inexact || (t.fabric g).2.1 }) k
    else k

/-- A row of a DRAIN (R108 to R111): the tally row is converted, written to the destination, and cleared when CLEAR is
set. -/
def drainRow (f c i : Nat) (r : ArrayRun) (s : State) : State :=
  let w := r.e.w
  let out := bits (iFn w) 4 0
  let k := s.core f c
  let row := k.viewBase (iView w) + r.done
  let bs := ((k.tallyRow row).map fun t =>
    if out = 0x12 then t.raw
    else if out = 0x11 then leBytes 8 (t.fabric r.e.scale).1
    else outElem out t.value).flatten
  match s.sinkFor f r.e.ta r.done bs.length with
  | .stall => s
  | .fail st => s.rowFault f c i r 5 st
  | .ready =>
    ((s.writeSink f c r.e.ta r.done bs).afterDrain f c row (out == 0x11) (bit (iFn w) 8) r.e.scale).modCore f c
      fun k => k.rowDone i

/-- floor(log2) of a finite non-zero value, and −32,768 for every other. -/
def FVal.lead : FVal → Int
  | .fin _ m e => if m = 0 then -32768 else (Nat.log2 m : Int) + e
  | _ => -32768

/-- A row of a GDRAIN (R216, R562): the converted row waits at its core until the channel accepts it; the next row is not
drained before. -/
def gdrainRow (f c i : Nat) (r : ArrayRun) (s : State) : State :=
  let w := r.e.w
  let k := s.core f c
  if k.grad.isSome ∨ r.done = r.total then s
  else
    let row := k.viewBase (iView w) + r.done
    let ts := k.tallyRow row
    let g := r.e.scale
    let gr : GradRow :=
      { ch := bits (iFn w) 3 0, vals := ts.map fun t => (t.fabric g).1, g := g,
        peak := (ts.map fun t => t.value.lead).foldl max (-32768) }
    (s.afterDrain f c row true (bit (iFn w) 8) g).modCore f c fun k =>
      { k with grad := some gr, runs := k.runs.set i { r with done := r.done + 1 } }

/-- Segment `done` of a WLOAD with its scale byte (R85, R87, R93, R212). The last one makes the standby tile. -/
def wloadRow (f c i : Nat) (r : ArrayRun) (s : State) : State :=
  let e := r.e
  let code := bits (iFn e.w) 4 0
  let n := packedLen code (tileK code)
  let kind := tKind e.ta
  let a := tOff e.ta + r.done * tStride e.ta
  let sa := e.sb.toNat + r.done * e.sc.toNat
  if kindSize kind < a + n ∨ (fmtMx code ∧ kindSize kind ≤ sa) then
    (s.modCore f c fun k => { k with standby := none, loaded := false }).rowFault f c i r 4 stAddressFault
  else
    let segs := r.segs ++ [s.rdKind f c kind a n]
    let scales := r.scales ++ [if fmtMx code then ofLE (s.rdKind f c kind sa 1) else 0x7F]
    s.modCore f c fun k =>
      if r.done + 1 = r.total then
        { (k.rowDone i) with standby := some { fmt := code, segs := segs, scales := scales }, loaded := true }
      else { k with runs := k.runs.set i { r with done := r.done + 1, segs := segs, scales := scales } }

/-- ARRAY_ROW_FETCH (R100, R107, R120): the next row or segment of the running instruction at place `k`. -/
def execArrayRowFetch (f c k : Nat) (residueFails : Bool) (s : State) : Out :=
  onCore f c s fun s =>
    if s.withheld f || s.flockQuiet f then s
    else match (s.core f c).runs[k]? with
      | none => s
      | some r =>
        match iOp r.e.w with
        | 0x40 => wloadRow f c k r s
        | 0x42 => streamRow f c k r residueFails s
        | 0x43 => drainRow f c k r s
        | _ => gdrainRow f c k r s

/-- ROAD_TIMEOUT (R150): a STREAM that waits for a road row past FLK_TIMEOUTS.ROAD raises SOURCE_FAULT with TIMEOUT. -/
def execRoadTimeout (f c : Nat) (s : State) : Out :=
  onCore f c s fun s =>
    let waits (r : ArrayRun) : Bool :=
      iOp r.e.w == 0x42 && tKind r.e.ta == 2 && (s.inPort f (tRoad r.e.ta)).buf.isEmpty
    if s.fld .flkTimeouts f 0 15 0 = 0 then s
    else match (s.core f c).runs.findIdx? waits with
      | none => s
      | some i =>
        match (s.core f c).runs[i]? with
        | some r => s.rowFault f c i r 4 stTimeout
        | none => s

end Sys2Proof.Machine
end

