-- ==== Sys2Proof/Machine/Stack.lean ====
section
/-! DEFINITION. The content of stacked memory (07_stacked_memory.md): placing addresses on stacks, bale metadata, sector
and whole-bale accesses, and the stack fault log. -/

namespace Sys2Proof.Machine

/-! ### Placing addresses (R284 to R288) -/

/-- The sum of the seven nibbles of a bale index (R285). -/
def nibbleSum (q : Nat) : Nat := (List.range 7).foldl (fun h i => h + bits q (4 * i + 3) (4 * i)) 0

/-- The stack and the stack-internal address of a local address of the stacked-memory range, in interleaved mode when
`inter` (R284, R285). -/
def stackPlace (inter : Bool) (a : Nat) : Nat × Nat :=
  if inter then
    let b := a / 4096
    ((b % 12 + nibbleSum (b / 12)) % 12, b / 12 * 4096 + a % 4096)
  else (a / 2 ^ 37, a % 2 ^ 37)

/-- The stack of a local address. -/
def State.stackOf (s : State) (a : Nat) : Nat := (stackPlace s.inter a).1

/-- Where a byte of stacked memory is kept: stack · 2^37 + stack-internal address. -/
def State.phys (s : State) (a : Nat) : Nat := (stackPlace s.inter a).1 * 2 ^ 37 + (stackPlace s.inter a).2

/-- The channel, the sub-bank of that channel and the bale row of that sub-bank that hold bale index `q` of a stack (R286). -/
def channelOf (q : Nat) : Nat := bits q 5 0
def subBankOf (q : Nat) : Nat := bits q 13 6
def baleRowOf (q : Nat) : Nat := bits q 24 14

/-- The number of the physical bale that a byte lies in, which is its location word (R287). -/
def baleOf (key : Nat) : Nat := key / 4096

/-! ### CRC-32C (R290) -/

/-- One bit of the reflected CRC-32C. -/
def crcBit (c : Nat) : Nat := if c % 2 = 1 then (c / 2) ^^^ 0x82F63B78 else c / 2

/-- One byte of the reflected CRC-32C. -/
def crcByte (c : Nat) (b : Byte) : Nat :=
  crcBit (crcBit (crcBit (crcBit (crcBit (crcBit (crcBit (crcBit (c ^^^ b.toNat))))))))

/-- CRC-32C of a list of bytes. -/
def crc32c (bs : List Byte) : Nat := (bs.foldl crcByte 0xFFFFFFFF) ^^^ 0xFFFFFFFF

/-- The CRC of a bale: data, tag, location word (R290). -/
def baleCrc (data : List Byte) (tag loc : Nat) : Nat := crc32c (data ++ leBytes 4 tag ++ leBytes 4 loc)

/-! ### Content -/

def Meta.fresh : Meta := { tag := 0, crcErr := 0 }

def State.bale (s : State) (b : Nat) : Meta := Sparse.get Meta.fresh s.bales b

def State.setBale (s : State) (b : Nat) (m : Meta) : State :=
  { s with bales := Sparse.set Meta.fresh s.bales b m }

/-- The 4,096 data bytes of a physical bale. -/
def State.baleData (s : State) (b : Nat) : List Byte := Sparse.readBytes s.dram (b * 4096) 4096

/-- The stored CRC of a physical bale. -/
def State.storedCrc (s : State) (b : Nat) : Nat :=
  baleCrc (s.baleData b) (s.bale b).tag.toNat b ^^^ (s.bale b).crcErr.toNat

/-- A sector (numbered by byte key / 32) holds an uncorrectable error (R298), or a single-bit error (R297). -/
def State.badSector (s : State) (k : Nat) : Bool := Sparse.get false s.bad k
def State.weakSector (s : State) (k : Nat) : Bool := Sparse.get false s.weak k

/-- The sectors of a bale that a map of sectors lists. -/
def sectorsIn (m : SMap Bool) (b : Nat) : List Nat := (m.filter fun e => e.2 && e.1 / 128 == b).map (·.1)

/-- A rewritten sector holds no single-bit error; a whole-bale write also clears the fault of every sector it writes (R299). -/
def State.rewritten (s : State) (k : Nat) : State := { s with weak := Sparse.erase s.weak k }
def State.mendBale (s : State) (b : Nat) : State :=
  { s with bad := Sparse.drop (fun k => k / 128 == b) s.bad, weak := Sparse.drop (fun k => k / 128 == b) s.weak }

/-- What the on-die ECC finds at the sector with byte key `key` stays with the sector until it is rewritten (R297, R299). -/
def State.ecc (s : State) (key : Nat) : Ecc → State
  | .clean => s
  | .corrected => if s.badSector (key / 32) then s else { s with weak := Sparse.set false s.weak (key / 32) true }
  | .uncorrectable =>
    { s with bad := Sparse.set false s.bad (key / 32) true, weak := Sparse.erase s.weak (key / 32) }

/-- The findings at `n` sectors of local memory from address `a` on. -/
def State.eccs (s : State) (a n : Nat) (errs : Errs) : State :=
  errs.foldl (fun s x => if x.1 < n then s.ecc (s.phys (a / 32 * 32 + 32 * x.1)) x.2 else s) s

/-! ### The interface -/

def State.stk (s : State) (i : Nat) : Stk := Sparse.get Stk.fresh s.stks i
def State.setStk (s : State) (i : Nat) (k : Stk) : State := { s with stks := Sparse.set Stk.fresh s.stks i k }
def State.modStk (s : State) (i : Nat) (g : Stk → Stk) : State := s.setStk i (g (s.stk i))

/-- STK_STATUS.READY, INIT_BUSY and WGATE (Table 7.6). -/
def State.stkReady (s : State) (i : Nat) : Bool := s.rbit .stkStatus i 0 63
def State.initBusy (s : State) (i : Nat) : Bool := s.rbit .stkStatus i 0 62
def State.gateClosed (s : State) (i : Nat) : Bool := s.rbit .stkStatus i 0 61

/-- The stack fault log (R322, Table 7.10). The core identifier is kept for own bale ports and other pastures only. -/
def State.stkLog (s : State) (i addr status source type core : Nat) : State :=
  s.log .stkFaultInfo i 0
    (status * 2 ^ 28 + source * 2 ^ 24 + type * 2 ^ 20 + (if source = 0 ∨ source = 2 then core else 0))
    (some (47, 32)) (some (.stkFaultAddr, addr)) 0x03 i

/-- The SOURCE of Table 16.11 for a stack request's SOURCE. -/
def resetSource (source : Nat) : Nat :=
  match source with
  | 0 => 1 | 1 => 2 | 2 => 1 | 3 => 3 | 4 => 4 | 5 => 5 | _ => 1

/-- A request to a stack that is not ready, or that a wipe or a pasture reset keeps from requests, completes with
TARGET_RESET and is logged by the interface and the drover (R312, R319, R644, R655). -/
def State.stkRefuse (s : State) (i addr source core : Nat) : State :=
  let sc := match s.rst.find? fun r => r.scope == 2 && r.target == i with
    | some r => (r.scope, r.target)
    | none => (0, 0)
  let rs := resetSource source
  (s.stkLog i addr stTargetReset source 0x5 core).resetLog addr sc.1 sc.2 rs (if rs = 1 then core else 0)

/-- Whether a stack answers requests: it is ready, no wipe runs, and no pasture reset takes it in. -/
def State.stkOpen (s : State) (i : Nat) : Bool :=
  s.stkReady i && !s.initBusy i && !s.rst.any fun r => r.scope == 2 && r.target == i

/-- `n` sectors met an uncorrectable error in one access: they are counted, and the access is logged (R298, R299). -/
def State.uncorrected (s : State) (i addr n source type core : Nat) : State :=
  (s.addFld .stkEcc i 0 31 0 n).stkLog i addr stChecksumFault source type core

/-- `n` sectors with a single-bit error are corrected as they are read (R297). -/
def State.corrected (s : State) (i n : Nat) : State := if n = 0 then s else s.addFld .stkEcc i 0 63 32 n

/-- A read of one sector (R296 to R298): `a` is any byte of it, and the request carries the address of its first byte. -/
def State.readSector (s : State) (source core a : Nat) : State × Nat × List Byte :=
  let i := s.stackOf a
  let x := a / 32 * 32
  let key := s.phys x
  if !s.stkOpen i then (s.stkRefuse i x source core, stTargetReset, [])
  else if s.badSector (key / 32) then (s.uncorrected i x 1 source 0x1 core, stChecksumFault, [])
  else (s.corrected i (s.weakSector (key / 32)).toNat, stOk, Sparse.readBytes s.dram key 32)

/-- A masked write of one sector (R293, R299): the stretches of bytes go to their addresses inside the sector of `a`, the old
bytes are read; the tag and the CRC's defect, if any, stay. -/
def State.writeSector (s : State) (source core a : Nat) (runs : List (Nat × List Byte)) : State × Nat :=
  let i := s.stackOf a
  let x := a / 32 * 32
  let key := s.phys x
  if !s.stkOpen i then (s.stkRefuse i x source core, stTargetReset)
  else if s.badSector (key / 32) then (s.uncorrected i x 1 source 0x2 core, stChecksumFault)
  else
    let s := (s.corrected i (s.weakSector (key / 32)).toNat).rewritten (key / 32)
    ({ s with dram := runs.foldl (fun m r => Sparse.writeBytes m (s.phys r.1) r.2) s.dram }, stOk)

/-- A read of `n` bytes from `a`, sector by sector (R280), that ends at the first status other than OK. `fuel` bounds the
sectors. -/
def State.readStack (s : State) (source core : Nat) : Nat → Nat → Nat → State × Nat × List Byte
  | 0, _, _ => (s, stOk, [])
  | fuel + 1, a, n =>
    if n = 0 then (s, stOk, [])
    else
      let m := min n (32 - a % 32)
      match s.readSector source core a with
      | (s, 0, bs) =>
        let (s, st, rest) := s.readStack source core fuel (a + m) (n - m)
        (s, st, (bs.drop (a % 32)).take m ++ rest)
      | (s, st, _) => (s, st, [])

/-- A write of bytes from `a`, sector by sector, that ends at the first status other than OK. -/
def State.writeStack (s : State) (source core : Nat) : Nat → Nat → List Byte → State × Nat
  | 0, _, _ => (s, stOk)
  | fuel + 1, a, bs =>
    if bs.isEmpty then (s, stOk)
    else
      let m := 32 - a % 32
      match s.writeSector source core a [(a, bs.take m)] with
      | (s, 0) => s.writeStack source core fuel (a + min m bs.length) (bs.drop m)
      | r => r

/-- A whole-bale read: data, tag and stored CRC (R294, R298). -/
def State.readBale (s : State) (source core a : Nat) : State × Nat × List Byte × Nat × Nat :=
  let i := s.stackOf a
  let b := baleOf (s.phys a)
  if !s.stkOpen i then (s.stkRefuse i a source core, stTargetReset, [], 0, 0)
  else
    let s' := s.corrected i (sectorsIn s.weak b).length
    match (sectorsIn s.bad b).length with
    | 0 => (s', stOk, s.baleData b, (s.bale b).tag.toNat, s.storedCrc b)
    | n => (s'.uncorrected i a n source 0x1 core, stChecksumFault, [], 0, 0)

/-- A tagged write (R291): the bale and its metadata are stored when the CRC matches. -/
def State.writeTagged (s : State) (source core a : Nat) (data : List Byte) (tag crc : Nat) : State × Nat :=
  let i := s.stackOf a
  let b := baleOf (s.phys a)
  if !s.stkOpen i then (s.stkRefuse i a source core, stTargetReset)
  else if baleCrc data tag b ≠ crc then (s.stkLog i a stChecksumFault source 0x3 core, stChecksumFault)
  else
    (({ s with dram := Sparse.writeBytes s.dram (b * 4096) data }.setBale b
      { tag := BitVec.ofNat 32 tag, crcErr := 0 }).mendBale b, stOk)

/-- An untagged whole-bale write (R292): the stored tag stays and the CRC is computed afresh. -/
def State.writeUntagged (s : State) (source core a : Nat) (data : List Byte) : State × Nat :=
  let i := s.stackOf a
  let b := baleOf (s.phys a)
  if !s.stkOpen i then (s.stkRefuse i a source core, stTargetReset)
  else
    (({ s with dram := Sparse.writeBytes s.dram (b * 4096) data }.setBale b
      { (s.bale b) with crcErr := 0 }).mendBale b, stOk)

/-- A tagged write whose writer computes the CRC itself (R152, R254). -/
def State.putTagged (s : State) (source core a : Nat) (data : List Byte) (tag : Nat) : State × Nat :=
  s.writeTagged source core a data tag (baleCrc data tag (baleOf (s.phys a)))

/-- Every bale of a stack with zero data, TAG 0 and its CRC (R310). -/
def State.clearStack (s : State) (i : Nat) : State :=
  { s with
    dram := Sparse.drop (fun k => k / 2 ^ 37 == i) s.dram
    bales := Sparse.drop (fun b => b / 2 ^ 25 == i) s.bales
    bad := Sparse.drop (fun k => k / 2 ^ 32 == i) s.bad
    weak := Sparse.drop (fun k => k / 2 ^ 32 == i) s.weak }

end Sys2Proof.Machine
end

