-- ==== Sys2Proof/Machine/Coh.lean ====
section
/-! DEFINITION. What an access to stacked memory meets before the stack: the back-invalidate tracker (R376 to R380) and the
coherent windows (R482 to R492); and the mirror stream of writes (R705 to R708). -/

namespace Sys2Proof.Machine

/-- Whether an access can proceed. -/
inductive Ready where
  | go
  | wait
  | fail (status : Nat)
deriving DecidableEq, Repr

/-- Both accesses can proceed, or the first reason that one cannot; a failure wins over a wait. -/
def Ready.and : Ready → Ready → Ready
  | .go, r => r
  | .fail st, _ => .fail st
  | .wait, .fail st => .fail st
  | .wait, _ => .wait

/-! ### The tracker -/

/-- The CXL fault log (R404, Table 9.15). An entry is an event record of the mailbox, which the policy can report on vector
16 (R400, Table 9.2; log entry 7). -/
def State.cxlLog (s : State) (addr status path queue core : Nat) : State :=
  let first := !s.rbit .cxlFaultInfo 0 0 63 && s.policy.toNat % 4 == 1
  let s := s.log .cxlFaultInfo 0 0 (status * 2 ^ 28 + path * 2 ^ 24 + queue * 2 ^ 17 + core) (some (47, 32))
    (some (.cxlFaultAddr, addr)) 0x05 0
  if first then s.emit (.msix 16) else s

/-- Host-managed device memory covers a local address: it lies in the first SIZE times 1 GiB (R371). -/
def State.inHdm (s : State) (a : Nat) : Bool := decide (a / 2 ^ 30 < s.fld .cxlHdm 0 0 10 0)

/-- The link carries CXL.mem traffic, snoops among it (R397, R399). -/
def State.hostTraffic (s : State) : Bool := s.fld .cxlStatus 0 0 61 60 == 2 && !s.ideStop

/-- The snoops replaced. -/
def State.setSnoops (s : State) (xs : List Snoop) : State := { s with snoops := xs }

/-- Accesses leave the snoops that they waited for; one that is answered and awaited no more is over. -/
def State.leaveSnoops (s : State) (at' : Snoop → Bool) (sel : StackReq → Bool) : State :=
  s.setSnoops ((s.snoops.map fun x => if at' x then { x with reqs := x.reqs.filter fun r => !sel r } else x).filter fun x =>
    x.st != .answered || x.reqs != [])

/-- A back-invalidate snoop goes out for a tracked line; once an IDE failure has stopped CXL.mem it stays unsent, and its time
runs out (R399). -/
def State.sendSnoop (s : State) (line : Nat) (inv : Bool) (reqs : List StackReq) : State :=
  let s := s.setSnoops (s.snoops ++ [{ line := line, inv := inv, st := .sent, reqs := reqs }])
  if s.hostTraffic then (s.incFld .cxlTracker 0 0 63 32).emit (.bisnp line inv) else s

/-- A device-side access to a line meets the tracker (R378, R380): a snoop that is on its way is waited for, even when the host
evicts the line meanwhile; one whose time has run out ends the accesses that waited for it. -/
def State.trackLine (s : State) (r : StackReq) (write : Bool) (line : Nat) : State × Ready :=
  if !s.inHdm line then (s, .go)
  else match s.snoops.find? fun x => x.line == line && (x.inv || !write) && (x.st == .sent || x.reqs.contains r) with
    | none => if s.trk.contains line then (s.sendSnoop line write [r], .wait) else (s, .go)
    | some x =>
      match x.st with
      | .sent =>
        (s.setSnoops (s.snoops.map fun y => if y = x ∧ !y.reqs.contains r then { y with reqs := y.reqs ++ [r] } else y), .wait)
      | .answered => (s, .go)
      | .late => ((s.leaveSnoops (· == x) (· == r)).cxlLog line stTimeout 0x4 0 0, .fail stTimeout)

/-- The answered snoops of a line are used up by an access that waited for them. -/
def State.useSnoops (s : State) (r : StackReq) (line : Nat) : State :=
  s.leaveSnoops (fun x => x.line == line && x.st == .answered) (· == r)

/-! ### Coherent windows -/

def State.lineSt (s : State) (line : Nat) : LineSt := Sparse.get .inv s.ni.lines line

def State.setLine (s : State) (line : Nat) (x : LineSt) : State :=
  { s with ni := { s.ni with lines := Sparse.set .inv s.ni.lines line x } }

/-- The window that a local address lies in (R247). -/
def State.windowAt (s : State) (a : Nat) : Option Window :=
  match s.fold with
  | some x => x.windows.find? fun w => decide (w.base ≤ a) && decide (a < w.base + w.len)
  | none => none

/-- The rank of the home of a line of a window (R484). -/
def Window.home (w : Window) (a : Nat) : Nat := (w.members[(a - w.base) / 4096 % w.members.length]?).getD 0

/-- The rank of this device. -/
def State.rank (s : State) : Nat := match s.fold with
  | some x => x.rank
  | none => 0

/-- The home of a window line that another device homes. -/
def State.homedElsewhere (s : State) (a : Nat) : Option Nat :=
  match s.windowAt a with
  | some w => if w.home a = s.rank then none else some (w.home a)
  | none => none

/-- A request joins those that wait at the NI. -/
def State.niAsk (s : State) (r : NiReq) : State := { s with ni := { s.ni with waiting := s.ni.waiting ++ [r] } }

/-- A request to a member of a window. -/
def State.askMember (s : State) (rank op line : Nat) (w4 : Nat) (pay : PaySrc) (owner : TagOwner) : State :=
  s.niAsk { share := s.stackOf line, dest := rank, byRank := true, op := op, flag := false, space := 0, offset := line,
            w4 := BitVec.ofNat 64 w4, w5 := 0, w6 := 0, pay := pay, owner := owner, after := 0 }

/-- What a fill brought to an access that waited for it. -/
def State.broughtTo (s : State) (r : StackReq) (line : Nat) : Option Brought :=
  s.ni.brought.find? fun b => b.line == line && b.req == r

/-- An access has taken what fills brought it. -/
def State.takeBrought (s : State) (r : StackReq) : State :=
  { s with ni := { s.ni with brought := s.ni.brought.filter fun b => b.req != r } }

/-- What a fill brought, or the status that it failed with, goes to accesses that waited for it. -/
def State.bring (s : State) (line st : Nat) (data : List Byte) (ws : List FillWait) : State :=
  { s with ni := { s.ni with brought := s.ni.brought ++ ws.map fun w => { line := line, req := w.req, status := st, data := data } } }

/-- The bytes of a fill have been written into this member's copy, or their write failed (R486): the line becomes S, or I where an
invalidation has arrived meanwhile. -/
def State.filled (s : State) (line st : Nat) : State :=
  match s.lineSt line with
  | .fill ws => if st = stOk then s.setLine line .valid else (s.bring line st [] ws).setLine line .inv
  | .fillInv ws => (if st = stOk then s else s.bring line st [] ws).setLine line .inv
  | _ => s

/-- An access joins those that wait for a fill. -/
def joinFill (ws : List FillWait) (w : FillWait) : List FillWait := if ws.contains w then ws else ws ++ [w]

/-- A local read meets the coherence rules of a line (Table 11.5). A fill that arrived in FI serves it where it `reads` the line
alone; a whole-bale read fills such a line again (R489). -/
def State.cohRead (s : State) (r : StackReq) (reads : Bool) (line : Nat) : State × Ready :=
  match s.homedElsewhere line with
  | none => (s, .go)
  | some home =>
    match s.broughtTo r line with
    | some b => (s, if b.status = stOk then .go else .fail b.status)
    | none =>
      let w : FillWait := { req := r, reads := reads }
      match s.lineSt line with
      | .valid => (s, .go)
      | .inv => ((s.askMember home 0x02 line 64 (.bytes []) (.fill line)).setLine line (.fill [w]), .wait)
      | .fill ws => (s.setLine line (.fill (joinFill ws w)), .wait)
      | .fillInv ws => (s.setLine line (.fillInv (joinFill ws w)), .wait)
      | _ => (s, .wait)

/-- The members of a sharer mask. -/
def Window.sharers (w : Window) (mask : Nat) : List Nat :=
  ((List.range w.members.length).filter (bit mask)).filterMap fun i => w.members[i]?

/-- The home asks every sharer of a line to invalidate it, and the line becomes BUSY (Table 11.6). -/
def State.invalidate (s : State) (w : Window) (line mask : Nat) : State :=
  ((w.sharers mask).foldl (fun s m => s.askMember m 0x10 line 0 (.bytes []) (.inval line m)) s).setLine line (.busy mask)

/-- A write meets the sharers of a line that this device homes (Table 11.6). -/
def State.cohHomeWrite (s : State) (line : Nat) : State × Ready :=
  match s.windowAt line, s.lineSt line with
  | some w, .shared m => (s.invalidate w line m, .wait)
  | some _, .busy _ => (s, .wait)
  | _, _ => (s, .go)

/-- The writes on their way to a home replaced. -/
def State.setCohw (s : State) (xs : List CohWrite) : State := { s with ni := { s.ni with cohw := xs } }

/-- The write of an access to address `a` that is on its way to the home. -/
def State.cohWriteOf (s : State) (r : StackReq) (a : Nat) : Option CohWrite :=
  s.ni.cohw.find? fun x => x.req == r && x.addr == a

/-- A local write, or KADD, of bytes of a line that `home` homes (Table 11.5): the line becomes I, the write goes to the
home, and the access waits for the home's status. -/
def State.cohRemoteWrite (s : State) (r : StackReq) (home a : Nat) (bs : List Byte) (add : Bool) : State × Ready :=
  let line := a / 64 * 64
  let w : FillWait := { req := r, reads := false }
  match s.cohWriteOf r a, s.broughtTo r line, s.lineSt line with
  | some x, _, _ => (s, if x.st.isSome then .go else .wait)
  | none, some b, _ => (s, .fail b.status)
  | none, none, .fill ws => (s.setLine line (.fill (joinFill ws w)), .wait)
  | none, none, .fillInv ws => (s.setLine line (.fillInv (joinFill ws w)), .wait)
  | none, none, _ =>
    let s := s.setLine line .inv
    let s := s.setCohw (s.ni.cohw ++ [{ req := r, addr := a, data := bs, add := add, st := none, old := 0 }])
    if add then (s.askMember home 0x03 a (ofLE bs) (.bytes []) (.cohWrite r a), .wait)
    else (s.askMember home 0x01 a 0 (.bytes bs) (.cohWrite r a), .wait)

/-- The status that a home gave a write, with the old value that a KADD brought; the write is then forgotten. -/
def State.takeCohWrite (s : State) (r : StackReq) (a : Nat) : State × Nat × Nat :=
  match s.cohWriteOf r a with
  | some x => (s.setCohw (s.ni.cohw.filter (· != x)), x.st.getD stOk, x.old)
  | none => (s, stOk, 0)

/-! ### The mirror stream (R705 to R708) -/

/-- The records of the mirror stream that wait for a tag or the send window. -/
def State.mirrorQueue (s : State) : Nat := (s.ni.waiting.filter fun r => r.owner == .mirror).length

/-- A record for the shadow joins the stream while STATE is MIRRORING; a full queue stops the stream (R708). -/
def State.mirrorRec (s : State) (a : Nat) (bs : List Byte) : State :=
  if s.fld .drvShadowStatus 0 0 63 61 ≠ 1 then s
  else
    let peer := s.fld .drvShadowCtrl 0 0 13 0
    if 4096 ≤ s.mirrorQueue then (s.setFld .drvShadowStatus 0 0 63 61 3).event 0x0F 0x1 peer s.mirrorQueue 0
    else s.niAsk { share := 8, dest := peer, byRank := false, op := 0x01, flag := true, space := 0, offset := a, w4 := 0,
                   w5 := 0, w6 := 0, pay := .bytes bs, owner := .mirror, after := 0 }

/-- A write into local memory is mirrored in pieces of at most 512 bytes (R706); bytes of a line that another device homes went
there. -/
def State.mirrorWrite (s : State) : Nat → Nat → List Byte → State
  | 0, _, _ => s
  | n + 1, a, bs =>
    if bs.isEmpty ∨ s.fld .drvShadowStatus 0 0 63 61 ≠ 1 then s
    else
      let m := 512 - a % 512
      (if (s.homedElsewhere a).isSome then s else s.mirrorRec a (bs.take m)).mirrorWrite n (a + m) (bs.drop m)

/-- A write by the NI, the kiln, the CXL controller or the queue engine, mirrored when it is performed. -/
def State.mirrored (s : State) (a : Nat) (bs : List Byte) : State := s.mirrorWrite (bs.length / 512 + 2) a bs

/-- An outcome record of the primary goes to the next slot of the ring (R706, Table 18.6). -/
def State.outcome (s : State) (core kind ordinal status result : Nat) : State :=
  if s.fld .drvShadowStatus 0 0 63 61 ≠ 1 then s
  else
    let bs := leBytes 4 (core + kind * 2 ^ 28) ++ leBytes 2 ordinal ++ leBytes 2 status ++ leBytes 8 result
    let s := s.mirrorRec (s.fld .drvShadowRing 0 0 47 0 + s.shadow.ring * 16) bs
    { s with shadow := { s.shadow with ring := (s.shadow.ring + 1) % 4096 } }

end Sys2Proof.Machine
end

