-- ==== Sys2Proof/Machine/Serve.lean ====
section
/-! DEFINITION. The entries of the stack interfaces (R281 to R283), the write gate and held writes (R313 to R318), and the serving
of requests in arrival order (R300, R318). -/

namespace Sys2Proof.Machine

/-! ### Entries (R281, Table 7.1) -/

/-- The class of a SOURCE of Table 7.10. The stack interface's own scrub writes take shared entries only (log entry 66). -/
def stkClass (source : Nat) : Nat :=
  match source with
  | 0 => 0 | 1 => 1 | 2 => 2 | 3 => 2 | 7 => 2 | 6 => 4 | _ => 3

/-- The reserved entries of a class (of one flock for own bale ports). -/
def stkReserved (cls : Nat) : Nat :=
  match cls with
  | 0 => 32 | 1 => 1024 | 2 => 768 | 3 => 64 | _ => 0

/-- The flock of an own-bale-port request. -/
def reqFlock (r : StackReq) : Nat := match coreOfId r.core with
  | some (f, _) => f % 56
  | none => 0

/-- The entries that a request takes: one for each sector access or whole-bale access that it makes (R280, R371). -/
def StkAcc.entries (a : Nat) : StkAcc → Nat
  | .lineRead _ _ => 2
  | .lineWrite _ _ _ => 2
  | .put bs => (a % 32 + bs.length + 31) / 32
  | _ => 1

def StkEnt.weight (e : StkEnt) : Nat := e.acc.entries e.req.addr

/-- The entries that some requests take together, and those of them that come from the shared pool. -/
def weight (es : List StkEnt) : Nat := (es.map StkEnt.weight).sum
def pooled (es : List StkEnt) : Nat := (es.map StkEnt.pool).sum

/-- The requests in a class (of one flock for own bale ports). -/
def StkEnt.inClass (r : StackReq) (e : StkEnt) : Bool :=
  e.cls == stkClass r.source && (e.cls != 0 || e.flock == reqFlock r)

/-- How many of `n` entries a request would take from the shared pool, beyond what its reservation has left; none where it does
not find as many. -/
def Stk.room (k : Stk) (r : StackReq) (n : Nat) : Option Nat :=
  let mine := k.ents.filter (StkEnt.inClass r)
  let p := n - min n (stkReserved (stkClass r.source) - (weight mine - pooled mine))
  if pooled k.ents + p ≤ 448 then some p else none

/-- The entry of a request. -/
def stkEnt (r : StackReq) (acc : StkAcc) (owner : StkOwner) (pool : Nat) : StkEnt :=
  { cls := stkClass r.source, flock := reqFlock r, pool := pool, req := r, acc := acc, owner := owner }

/-- A request takes its entries. -/
def Stk.enter (k : Stk) (e : StkEnt) : Stk := { k with ents := k.ents ++ [e] }

/-- A write, which the gate holds. -/
def StkAcc.isWrite : StkAcc → Bool
  | .baleRead _ => false
  | .sectorRead _ => false
  | .lineRead _ _ => false
  | .ticket => false
  | _ => true

/-- The held writes of a stack (R314, R316). -/
def State.heldWrites (s : State) (i : Nat) : List StkEnt :=
  if s.gateClosed i then (s.stk i).ents.filter fun e => e.acc.isWrite else []

/-- Whether a request finds its entries now; while the gate is closed a write also needs a place among the 2,048 of R316. -/
def State.roomFor (s : State) (i : Nat) (r : StackReq) (acc : StkAcc) : Option Nat :=
  let n := acc.entries r.addr
  if acc.isWrite && s.gateClosed i && decide (2048 < weight (s.heldWrites i) + n) then none else (s.stk i).room r n

/-- Whether a waiting request goes before one that arrives: one of its class, or any where shared entries are needed (R283). -/
def Stk.contended (k : Stk) (r : StackReq) (pool : Nat) : Bool :=
  k.waiting.any fun e => e.inClass r || decide (0 < pool)

/-- A request that arrives finds its entries now. -/
def State.arrivalRoom (s : State) (i : Nat) (r : StackReq) (acc : StkAcc) : Option Nat :=
  match s.roomFor i r acc with
  | some p => if (s.stk i).contended r p then none else some p
  | none => none

/-- A pending request to the bale of a local address, which goes first (R300, R315, R318). -/
def State.behind (s : State) (a : Nat) : Bool :=
  (s.stk (s.stackOf a)).ents.any fun e => e.acc != .ticket && baleOf (s.phys e.req.addr) == baleOf (s.phys a)

/-! ### What an access needs -/

/-- The 64-byte lines that `n` bytes from `a` touch. -/
def linesOf (a n : Nat) : List Nat :=
  if n = 0 then [] else (List.range ((a + n - 1) / 64 + 1 - a / 64)).map fun i => (a / 64 + i) * 64

/-- The bytes that go to each line: pairs of address and bytes inside one line. -/
def linePieces : Nat → Nat → List Byte → List (Nat × List Byte)
  | 0, _, _ => []
  | n + 1, a, bs =>
    if bs.isEmpty then [] else
      let m := 64 - a % 64
      (a, bs.take m) :: linePieces n (a + m) (bs.drop m)

/-- The stretches of bytes that a mask selects in bytes at address `a`, from the `i`-th on. -/
def maskRuns (mask : Nat) (a : Nat) : Nat → List Byte → List (Nat × List Byte)
  | _, [] => []
  | i, b :: bs =>
    match bit mask i, maskRuns mask a (i + 1) bs with
    | false, rs => rs
    | true, (x, r) :: rs => if x = a + i + 1 then (a + i, b :: r) :: rs else (a + i, [b]) :: (x, r) :: rs
    | true, [] => [(a + i, [b])]

/-- What the lines of a read need before it can proceed. The host's own accesses do not meet the tracker (R378). -/
def State.prepRead (s : State) (host : Bool) (r : StackReq) (reads : Bool) : List Nat → State × Ready
  | [] => (s, .go)
  | l :: ls =>
    let (s, x) :=
      if !s.stkOpen (s.stackOf l) then (s, Ready.go)
      else
        let (s, a) := if host then (s, Ready.go) else s.trackLine r false l
        let (s, b) := s.cohRead r reads l
        (s, a.and b)
    let (s, y) := s.prepRead host r reads ls
    (s, x.and y)

/-- What a write to one line needs before it can proceed. -/
def State.prepLine (s : State) (host : Bool) (r : StackReq) (a : Nat) (bs : List Byte) : State × Ready :=
  let (s, x) := if host then (s, Ready.go) else s.trackLine r true (a / 64 * 64)
  match s.homedElsewhere a with
  | some home => match x with
    | .go => s.cohRemoteWrite r home a bs false
    | x => (s, x)
  | none =>
    let (s, y) := s.cohHomeWrite (a / 64 * 64)
    (s, x.and y)

/-- What a write by lines needs before it can proceed. -/
def State.prepLines (s : State) (host : Bool) (r : StackReq) : List (Nat × List Byte) → State × Ready
  | [] => (s, .go)
  | (a, bs) :: ps =>
    let (s, x) := if s.stkOpen (s.stackOf a) || (s.homedElsewhere a).isSome then s.prepLine host r a bs else (s, .go)
    let (s, y) := s.prepLines host r ps
    (s, x.and y)

/-! ### Performing an access -/

/-- The answered snoops of some lines are used up by an access. -/
def State.useLines (s : State) (r : StackReq) (ls : List Nat) : State := ls.foldl (fun s l => s.useSnoops r l) s

/-- `m` bytes of one line: from the fill that was brought to this access, or from the stack. -/
def State.readLine (s : State) (r : StackReq) (a m : Nat) : State × Nat × List Byte :=
  match s.broughtTo r (a / 64 * 64) with
  | some b => (s, b.status, slice b.data (a % 64) m)
  | none => s.readStack r.source r.core 4 a m

/-- The bytes that a read by sectors returns, up to the first sector that fails. The first number bounds the lines. -/
def State.readLines (s : State) (r : StackReq) : Nat → Nat → Nat → State × Nat × List Byte
  | 0, _, _ => (s, stOk, [])
  | fuel + 1, a, n =>
    if n = 0 then (s, stOk, [])
    else
      let m := min n (64 - a % 64)
      let (s, st, bs) := s.readLine r a m
      if st ≠ stOk then (s, st, bs)
      else
        let (s, st, rest) := s.readLines r fuel (a + m) (n - m)
        (s, st, bs ++ rest)

/-- The sectors that `n` bytes from `a` touch, by the address of their first byte. -/
def sectorsOf (a n : Nat) : List Nat :=
  if n = 0 then [] else (List.range ((a + n - 1) / 32 + 1 - a / 32)).map fun i => (a / 32 + i) * 32

/-- Bytes are written all or none: a sector whose stack is closed or that holds an uncorrectable error ends the write before any
byte changes (R474, Table 9.4). -/
def State.writeWhole (s : State) (source core a : Nat) (bs : List Byte) : State × Nat :=
  match (sectorsOf a bs.length).find? fun x => !s.stkOpen (s.stackOf x) || s.badSector (s.phys x / 32) with
  | some x => s.writeSector source core x []
  | none => s.writeStack source core (bs.length / 32 + 2) a bs

/-- The new word of a read-modify-write (Table 11.2). -/
def atomicNew (op old w4 w5 : Nat) : Nat :=
  match op with
  | 0 => (old + w4) % 2 ^ 64
  | 1 => w4
  | 2 => if old = w4 then w5 else old
  | 3 => old &&& w4
  | 4 => old ||| w4
  | _ => if sext 64 old < sext 64 w4 then w4 else old

/-- What a served request delivers. -/
structure Served where
  status : Nat
  data   : List Byte
  tag    : Nat
  crc    : Nat
deriving DecidableEq, Repr

def Served.of (st : Nat) : Served := { status := st, data := [], tag := 0, crc := 0 }

/-- The bytes that a write entry writes, by line. -/
def StkEnt.pieces (e : StkEnt) : List (Nat × List Byte) :=
  match e.acc with
  | .tagged bs _ _ => linePieces 65 e.req.addr bs
  | .untagged bs => linePieces 65 e.req.addr bs
  | .sectorWrite m bs _ => maskRuns m.toNat e.req.addr 0 bs
  | .lineWrite m bs _ => maskRuns m.toNat e.req.addr 0 bs
  | .put bs => linePieces (bs.length / 64 + 2) e.req.addr bs
  | .rmw _ _ _ => [(e.req.addr, List.replicate 8 0)]
  | _ => []

/-- The bytes that a read entry reads. -/
def StkAcc.size : StkAcc → Nat
  | .baleRead _ => 4096
  | .sectorRead _ => 32
  | .lineRead _ _ => 64
  | _ => 0

/-- The 8-byte word of a read-modify-write is read, changed and written in one sector access (R467). -/
def State.writeRmw (s : State) (r : StackReq) (op x y : Nat) : State × Served :=
  let old := Sparse.readBytes s.dram (s.phys r.addr) 8
  match s.writeSector r.source r.core r.addr [(r.addr, leBytes 8 (atomicNew op (ofLE old) x y))] with
  | (s, st) => (s, { Served.of st with data := if st = stOk then old else [] })

/-- The two sectors of a CXL.mem write (R371, R374): nothing is written where one of them holds an uncorrectable error. -/
def State.writeLine (s : State) (r : StackReq) (mask : Nat) (bs : List Byte) : State × Nat :=
  let half (x : Nat) : List (Nat × List Byte) := (maskRuns mask r.addr 0 bs).filterMap fun p =>
    let lo := max p.1 x
    let hi := min (p.1 + p.2.length) (x + 32)
    if lo < hi then some (lo, slice p.2 (lo - p.1) (hi - lo)) else none
  match [r.addr, r.addr + 32].filter fun x => !s.stkOpen (s.stackOf x) || s.badSector (s.phys x / 32) with
  | [] => (((s.writeSector r.source r.core r.addr (half r.addr)).1.writeSector r.source r.core (r.addr + 32) (half (r.addr + 32))).1,
      stOk)
  | x :: xs =>
    let (s, st) := s.writeSector r.source r.core x []
    (xs.foldl (fun s y => (s.writeSector r.source r.core y []).1) s, st)

/-- The pieces of a write that went to their home: every status is taken, and the first other than OK counts. -/
def State.takeCohWrites (s : State) (r : StackReq) : List (Nat × List Byte) → State × Nat
  | [] => (s, stOk)
  | (a, _) :: ps =>
    let (s, st, _) := s.takeCohWrite r a
    let (s, st') := s.takeCohWrites r ps
    (s, if st = stOk then st' else st)

/-- A write entry of a line that this device homes is performed (R291 to R293, R299). -/
def State.writeHere (s : State) (e : StkEnt) : State × Served :=
  let r := e.req
  let of (x : State × Nat) : State × Served := (x.1, Served.of x.2)
  match e.acc with
  | .tagged bs tag crc => of (s.writeTagged r.source r.core r.addr bs tag.toNat crc.toNat)
  | .untagged bs => of (s.writeUntagged r.source r.core r.addr bs)
  | .sectorWrite m bs x => of ((s.ecc (s.phys r.addr) x).writeSector r.source r.core r.addr (maskRuns m.toNat r.addr 0 bs))
  | .lineWrite m bs errs =>
    let (s, st) := (s.eccs r.addr 2 errs).writeLine r m.toNat bs
    (if st = stOk then e.pieces.foldl (fun s p => s.mirrored p.1 p.2) s else s, Served.of st)
  | .put bs =>
    of (if r.source = 3 then s.writeWhole r.source r.core r.addr bs
      else s.writeStack r.source r.core (bs.length / 32 + 2) r.addr bs)
  | .rmw op x y => s.writeRmw r op x y
  | .scrub => (s.rewritten (s.phys r.addr / 32), Served.of stOk)
  | _ => (s, Served.of stOk)

/-- A write of bytes that go to the home of their line; the write of a fill stays here. -/
def StkEnt.away (e : StkEnt) (s : State) : Bool := e.owner != .fill && (s.homedElsewhere e.req.addr).isSome

/-- An entry is performed. -/
def State.perfEnt (s : State) (e : StkEnt) : State × Served :=
  let r := e.req
  if e.acc.isWrite then
    let s := s.useLines r (e.pieces.map fun p => p.1 / 64 * 64)
    if e.away s then
      let (s, st) := s.takeCohWrites r e.pieces
      (s, Served.of st)
    else s.writeHere e
  else
    let ls := linesOf r.addr e.acc.size
    match e.acc with
    | .baleRead errs =>
      let (s, st, bs, tag, crc) := (s.eccs r.addr 128 errs).readBale r.source r.core r.addr
      (s.useLines r ls, { status := st, data := bs, tag := tag, crc := crc })
    | a =>
      let s := match a with
        | .sectorRead x => s.ecc (s.phys r.addr) x
        | .lineRead _ errs => s.eccs r.addr 2 errs
        | _ => s
      let (s, st, bs) := s.readLines r 2 r.addr a.size
      ((s.useLines r ls).takeBrought r, { Served.of st with data := bs })

/-! ### Serving (R300, R314, R315, R318) -/

/-- Whether an entry can be served now; the snoops, fills and invalidations that it needs are sent. -/
def State.entReady (s : State) (i : Nat) (e : StkEnt) : State × Ready :=
  let host := e.owner == .host
  if !s.stkOpen i then (s, .go)
  else if e.acc.isWrite then
    if s.gateClosed i && !e.away s then (s, .wait)
    else if e.owner == .fill then s.trackLine e.req true e.req.addr
    else s.prepLines host e.req e.pieces
  else match e.acc with
    | .baleRead _ => s.prepRead host e.req false (linesOf e.req.addr 4096)
    | a => s.prepRead host e.req true (linesOf e.req.addr a.size)

/-- Lines of a set of the tracker (R376). -/
def trkSet (line : Nat) : Nat := bits line 20 6

/-- The host is granted a line: an entry is made, or the earliest entry of a full set is snooped first and the grant waits for the
BIRsp (R376, R377). No line is granted while the link carries no CXL.mem traffic. -/
def State.grantLine (s : State) (line : Nat) : State × Bool :=
  let inSet := s.trk.filter fun l => trkSet l == trkSet line
  if s.trk.contains line ∨ !s.inHdm line ∨ !s.hostTraffic then (s, true)
  else if inSet.length < 16 then ({ s with trk := s.trk ++ [line] }, true)
  else
    match inSet.head? with
    | none => (s, true)
    | some old =>
      if s.snoops.any fun x => x.line == old && x.inv && x.st != .answered then (s, false)
      else (s.sendSnoop old true [], false)

/-- A result for a unit that will look for it. -/
def State.putResult (s : State) (i : Nat) (x : StkRes) : State := s.modStk i fun k => { k with results := k.results ++ [x] }

/-- The answer of a served entry reaches its requester (Table 9.4 for the host). -/
def State.answer (s : State) (i : Nat) (e : StkEnt) (v : Served) : State :=
  match e.owner with
  | .unit => s.putResult i { req := e.req, status := v.status, data := v.data }
  | .late => s.incFld .drvResetStatus 0 0 31 0
  | .port => s.emit (.stack e.req v.status v.data (BitVec.ofNat 32 v.tag) (BitVec.ofNat 32 v.crc))
  | .fill => s.filled e.req.addr v.status
  | .none => s
  | .host =>
    let s := if v.status = stOk then s else (s.cxlLog e.req.addr v.status 0x1 0 0).emit .aer
    if !s.hostTraffic then s
    else if e.acc.isWrite then s.emit (.hostDone e.req.addr)
    else s.emit (.hostData e.req.addr (if v.status = stOk then v.data else List.replicate 64 0) (v.status != stOk))

/-- A host read that wants the line is granted it before it is performed. -/
def State.grantFor (s : State) (e : StkEnt) (r : Ready) : State × Bool :=
  match e.acc, r with
  | .lineRead true _, .go => s.grantLine e.req.addr
  | _, _ => (s, true)

/-- An entry is performed, or fails with what it waited for; it is returned and its requester answered. -/
def State.endEnt (s : State) (i : Nat) (e : StkEnt) (r : Ready) : State :=
  let (s, v) := match r with
    | .fail st => ((s.takeBrought e.req).leaveSnoops (fun _ => true) (· == e.req), Served.of st)
    | _ => s.perfEnt e
  (s.modStk i fun k => { k with ents := k.ents.erase e }).answer i e v

/-- An entry of stack `i` is served if nothing earlier to its bale is before it (R300) and nothing else holds it. -/
def State.serveEnt (s : State) (i : Nat) (e : StkEnt) : State :=
  let k := s.stk i
  let place (x : StkEnt) : Nat := baleOf (s.phys x.req.addr)
  let before := (k.ents.takeWhile (· != e)).filter fun x => x.acc != .ticket
  if !k.ents.contains e || e.acc == .ticket || before.any fun x => place x == place e then s
  else
    match s.entReady i e with
    | (s, .wait) => s
    | (s, r) =>
      match s.grantFor e r with
      | (s, true) => s.endEnt i e r
      | (s, false) => s

/-- The entries of a stack are served in arrival order as far as they can be. -/
def State.serve (s : State) (i : Nat) : State := (s.stk i).ents.foldl (fun s e => s.serveEnt i e) s

/-- Every stack serves what it can. -/
def State.serveAll (s : State) : State := (List.range 12).foldl State.serve s

/-! ### Arrival and grants (R281 to R283, R316) -/

/-- The next waiting request in round-robin order of class, and of flock within the own-bale-port class (R283); within one class
and flock they keep their order. -/
def State.nextWaiting (s : State) (i : Nat) : Option StkEnt :=
  let k := s.stk i
  let order (e : StkEnt) : Nat :=
    (e.cls + 4 - k.rrClass) % 5 * 56 + (if e.cls = 0 then (e.flock + 55 - k.rrFlock) % 56 else 0)
  let can := k.waiting.filter fun e =>
    (s.roomFor i e.req e.acc).isSome && k.waiting.find? (StkEnt.inClass e.req) == some e
  can.foldl (fun best e => match best with
    | some b => if order e < order b then some e else some b
    | none => some e) none

/-- A waiting request takes freed entries; the round-robin places move on. -/
def State.grantOne (s : State) (i : Nat) : Option State :=
  match s.nextWaiting i with
  | none => none
  | some e =>
    match s.roomFor i e.req e.acc with
    | none => none
    | some pool => some (s.modStk i fun k =>
        { (k.enter { e with pool := pool }) with
          waiting := k.waiting.erase e, rrClass := if 0 < pool then e.cls else k.rrClass,
          rrFlock := if e.cls = 0 then e.flock else k.rrFlock })

/-- Waiting requests take what is free, at most `n` of them, and what they ask is served. -/
def State.grants (s : State) (i : Nat) : Nat → State
  | 0 => s
  | n + 1 => match s.grantOne i with
    | some t => (t.serve i).grants i n
    | none => s

/-- Every waiting request that can takes its entries: an arrival overtakes none of them. -/
def State.grantAll (s : State) (i : Nat) : State := s.grants i (s.stk i).waiting.length

/-- A request arrives at stack `i`: it is refused while the stack is closed, answered DEFERRED or kept waiting without an
entry, or takes an entry and is served when it can be. -/
def State.arrive (s : State) (i : Nat) (r : StackReq) (acc : StkAcc) (owner : StkOwner) : State :=
  let e := stkEnt r acc owner
  if !s.stkOpen i then (s.stkRefuse i r.addr r.source r.core).answer i (e 0) (Served.of stTargetReset)
  else
    let s := s.grantAll i
    match s.arrivalRoom i r acc with
    | some pool => (s.modStk i fun k => k.enter (e pool)).serve i
    | none =>
      if r.source = 3 ∧ owner ≠ .fill then s.answer i (e 0) (Served.of stDeferred)
      else s.modStk i fun k => { k with waiting := k.waiting ++ [e 0] }

/-- Every request at a stack that has performed no write ends with TARGET_RESET (R312, R319, R645). A unit that waits for an entry
or holds one without a write meets the closed stack itself. -/
def State.refuseAll (s : State) (i : Nat) : State :=
  let asks (e : StkEnt) : Bool := e.acc != .ticket && e.acc != .scrub
  let es := ((s.stk i).ents ++ (s.stk i).waiting).filter asks
  let s := s.modStk i fun k => { k with ents := [], waiting := [] }
  es.foldl (fun s e => (s.stkRefuse i e.req.addr e.req.source e.req.core).answer i e (Served.of stTargetReset)) s

/-- What the units that `sel` names wait for at the stacks and lines is dropped: a write that is held stays in its entry, and its
result goes to `owner`. -/
def State.dropUnits (s : State) (sel : StackReq → Bool) (owner : StkOwner) : State :=
  let mine (e : StkEnt) : Bool := e.owner == .unit && sel e.req
  let s := (List.range 12).foldl (fun s i => s.modStk i fun k => { k with
    ents := (k.ents.filter fun e => !(mine e && e.acc == .ticket)).map fun e => if mine e then { e with owner := owner } else e
    waiting := k.waiting.filter fun e => !mine e
    results := k.results.filter fun x => !sel x.req }) (s.leaveSnoops (fun _ => true) sel)
  let keep (ws : List FillWait) : List FillWait := ws.filter fun w => !sel w.req
  { s with ni := { s.ni with
    brought := s.ni.brought.filter fun b => !sel b.req
    cohw := s.ni.cohw.filter fun x => !sel x.req
    lines := s.ni.lines.map fun e => (e.1, match e.2 with
      | .fill ws => .fill (keep ws)
      | .fillInv ws => .fillInv (keep ws)
      | x => x) } }

end Sys2Proof.Machine
end

