-- ==== Sys2Proof/Machine/Access.lean ====
section
/-! DEFINITION. Accesses to local memory by the units of the part. An access that has to wait, for an entry, the write gate, the
tracker, a window line or an earlier request to its bale, starts what it waits for and is tried again by its unit's next command. -/

namespace Sys2Proof.Machine

/-! ### Entries of units (R281 to R283) -/

/-- A unit's request that waits for an entry at stack `i`, or its entry there. -/
def State.unitWaits (s : State) (i : Nat) (r : StackReq) : Bool := (s.stk i).waiting.any fun e => e.owner == .unit && e.req == r
def State.unitEnt (s : State) (i : Nat) (r : StackReq) : Option StkEnt :=
  (s.stk i).ents.find? fun e => e.owner == .unit && e.req == r

/-- A unit's request takes its turn among those that wait for an entry. -/
def State.unitQueue (s : State) (i : Nat) (r : StackReq) (acc : StkAcc) : State :=
  let mine (e : StkEnt) : Bool := e.owner == .unit && e.req == r
  s.modStk i fun k =>
    let ws := if k.waiting.any mine then k.waiting.map fun e => if mine e then { e with acc := acc } else e
      else k.waiting ++ [stkEnt r acc .unit 0]
    { k with waiting := ws }

/-- A unit's request finds an entry now (it takes and returns it in the step of its access), or waits for one. -/
def State.unitRoom (s : State) (i : Nat) (r : StackReq) : State × Bool :=
  if !s.stkOpen i then (s, true)
  else
    let s := s.grantAll i
    if (s.unitEnt i r).isSome then (s, true)
    else if s.unitWaits i r then (s, false)
    else match s.arrivalRoom i r .ticket with
      | some _ => (s, true)
      | none => (s.unitQueue i r .ticket, false)

/-- A unit's entry without a write is returned. -/
def State.unitLeave (s : State) (i : Nat) (r : StackReq) : State :=
  if (s.unitEnt i r).isSome then
    s.modStk i fun k => { k with ents := k.ents.filter fun e => !(e.owner == .unit && e.req == r && e.acc == .ticket) }
  else s

/-- The stacks that some lines lie in. -/
def State.stacksOf (s : State) (ls : List Nat) : List Nat := (List.range 12).filter fun i => ls.any fun l => s.stackOf l == i

/-- A read of a unit finds an entry at each stack that it reads, or waits. -/
def State.unitRooms (s : State) (r : StackReq) : List Nat → State × Bool
  | [] => (s, true)
  | i :: is =>
    let (s, a) := s.unitRoom i r
    let (s, b) := s.unitRooms r is
    (s, a && b)

/-! ### Reads -/

/-- A read of a unit meets tracker, windows, earlier requests to its bales and the entries. -/
def State.unitRead (s : State) (r : StackReq) (reads : Bool) (ls : List Nat) : State × Ready :=
  match s.prepRead false r reads ls with
  | (s, .go) =>
    if ls.any fun l => s.stkOpen (s.stackOf l) && s.behind l then (s, .wait)
    else match s.unitRooms r (s.stacksOf ls) with
      | (s, true) => (s, .go)
      | (s, false) => (s, .wait)
  | x => x

/-- What a read of a unit waited for is used up. -/
def State.unitDone (s : State) (r : StackReq) (ls : List Nat) : State :=
  (s.stacksOf ls).foldl (fun s i => s.unitLeave i r) ((s.useLines r ls).takeBrought r)

/-- A unit reads `n` bytes of stacked memory; none while it has to wait. A request of the NI that finds no entry gets DEFERRED
(R282). -/
def State.tryRead (s : State) (r : StackReq) (n : Nat) : State × Option (Nat × List Byte) :=
  let ls := linesOf r.addr n
  match s.unitRead r true ls with
  | (s, .wait) => (s, none)
  | (s, .fail st) => (s.dropUnits (· == r) .none, some (st, []))
  | (s, .go) =>
    let (s, st, bs) := s.readLines r (n / 64 + 2) r.addr n
    (s.unitDone r ls, some (st, bs))

/-- A unit reads a whole bale with its tag and CRC (R294, R489). -/
def State.tryReadBale (s : State) (r : StackReq) (errs : Errs) : State × Option (Nat × List Byte × Nat × Nat) :=
  let ls := linesOf r.addr 4096
  match s.unitRead r false ls with
  | (s, .wait) => (s, none)
  | (s, .fail st) => (s.dropUnits (· == r) .none, some (st, [], 0, 0))
  | (s, .go) =>
    let (s, st, bs, tag, crc) := (s.eccs r.addr 128 errs).readBale r.source r.core r.addr
    (s.unitDone r ls, some (st, bs, tag, crc))

/-! ### Writes -/

/-- Bytes cut at the sectors. -/
def sectorPieces : Nat → Nat → List Byte → List (Nat × List Byte)
  | 0, _, _ => []
  | n + 1, a, bs =>
    if bs.isEmpty then [] else
      let m := 32 - a % 32
      (a, bs.take m) :: sectorPieces n (a + m) (bs.drop m)

/-- The stack accesses of a write: the bale, or the bytes of each line; the NI's bytes of one bale go together (R474), and the
queue engine's go sector by sector, so that BYTES_DONE counts them (R381, R383). At a member
that does not home the bale its bytes go to the home without a tag (R489). -/
def State.parts (s : State) (source : Nat) (w : UnitWrite) : List (Nat × StkAcc) :=
  match w.whole, s.homedElsewhere w.addr with
  | some (some t), none =>
    [(w.addr, .tagged w.data (BitVec.ofNat 32 t) (BitVec.ofNat 32 (baleCrc w.data t (baleOf (s.phys w.addr)))))]
  | some none, none => [(w.addr, .untagged w.data)]
  | _, _ =>
    if source = 3 ∧ w.addr / 4096 = (w.addr + w.data.length - 1) / 4096 then [(w.addr, .put w.data)]
    else
      let ps := if source = 4 then sectorPieces (w.data.length / 32 + 2) w.addr w.data
        else linePieces (w.data.length / 64 + 2) w.addr w.data
      ps.map fun p => (p.1, .put p.2)

/-- The bytes of an access, by line. -/
def StkAcc.lines (a : Nat) (acc : StkAcc) : List (Nat × List Byte) := (stkEnt { source := 0, core := 0, addr := a } acc .unit 0).pieces

/-- The result of a unit's held write. -/
def State.unitResult (s : State) (i : Nat) (r : StackReq) : Option StkRes := (s.stk i).results.find? fun x => x.req == r

def State.takeResult (s : State) (i : Nat) (r : StackReq) : State :=
  s.modStk i fun k => { k with results := k.results.filter fun x => x.req != r }

/-- A write that the gate completed with DEFERRED is issued again by every unit but the NI (R160, R357, R375, log entry 66). -/
def State.reissue (s : State) (i : Nat) (r : StackReq) : State :=
  match s.unitResult i r with
  | some x => if x.status = stDeferred ∧ r.source ≠ 3 then s.takeResult i r else s
  | none => s

/-- A write of a unit meets a closed gate: it is held in an entry, or waits for one (R314, R316). -/
def State.hold (s : State) (i : Nat) (r : StackReq) (acc : StkAcc) : State :=
  let s := (s.unitLeave i r).grantAll i
  match s.arrivalRoom i r acc with
  | some pool => s.modStk i fun k => { (k.enter (stkEnt r acc .unit pool)) with
      waiting := k.waiting.filter fun e => !(e.owner == .unit && e.req == r) }
  | none => s.unitQueue i r acc

/-- A write at a stack whose gate is closed is held; at an open one it waits for earlier requests to its bale, the tracker, the
sharers of its lines and an entry. -/
def State.prepHere (s : State) (i : Nat) (r : StackReq) (acc : StkAcc) : State × Ready :=
  if s.gateClosed i then (s.hold i r acc, .wait)
  else if s.behind r.addr then (s, .wait)
  else match s.prepLines false r (acc.lines r.addr) with
    | (s, .go) =>
      let (s, ok) := s.unitRoom i r
      if (s.unitResult i r).isSome then (s, .go)
      else (s, if ok && (s.unitEnt i r).all (fun e => e.acc == .ticket) then .go else .wait)
    | x => x

/-- A write or KADD of a line that `home` homes goes there (Table 11.5). -/
def State.prepAway (s : State) (home : Nat) (r : StackReq) (acc : StkAcc) : State × Ready :=
  let (s, x) := s.trackLine r true (r.addr / 64 * 64)
  match x, acc with
  | .go, .rmw _ y _ => s.cohRemoteWrite r home r.addr (leBytes 8 y) true
  | .go, .put bs => s.cohRemoteWrite r home r.addr bs false
  | x, _ => (s, x)

/-- What one access of a write needs before it can proceed. One that was held and has its result, or that its stack refuses, needs
nothing more. -/
def State.prepPart (s : State) (u : StackReq) (p : Nat × StkAcc) : State × Ready :=
  let r : StackReq := { u with addr := p.1 }
  let i := s.stackOf p.1
  match s.homedElsewhere p.1 with
  | some home => s.prepAway home r p.2
  | none =>
    let s := s.reissue i r
    if (s.unitResult i r).isSome || !s.stkOpen i then (s, .go)
    else if (s.unitEnt i r).any fun e => e.acc != .ticket then (s, .wait)
    else s.prepHere i r p.2

def State.prepParts (s : State) (u : StackReq) : List (Nat × StkAcc) → State × Ready
  | [] => (s, .go)
  | p :: ps =>
    let (s, x) := s.prepPart u p
    let (s, y) := s.prepParts u ps
    (s, x.and y)

/-- One access of a write is performed, or its result is taken. -/
def State.commitPart (s : State) (u : StackReq) (p : Nat × StkAcc) : State × Nat × List Byte :=
  let r : StackReq := { u with addr := p.1 }
  let i := s.stackOf p.1
  match s.unitResult i r, s.homedElsewhere p.1 with
  | some x, _ => (s.takeResult i r, x.status, x.data)
  | none, some _ =>
    let (s, st, old) := (s.useSnoops r (p.1 / 64 * 64)).takeCohWrite r p.1
    (s, st, leBytes 8 old)
  | none, none =>
    let (s, v) := s.perfEnt (stkEnt r p.2 .unit 0)
    (s.unitLeave i r, v.status, v.data)

/-- The accesses of a write are performed in order, and the first status other than OK ends it; accesses that already have a
result are taken in any case. With it come the bytes written before the end. -/
def State.commitParts (s : State) (u : StackReq) (n : Nat) : List (Nat × StkAcc) → State × Nat × Nat
  | [] => (s, stOk, n)
  | p :: ps =>
    let (s, st, _) := s.commitPart u p
    if st = stOk then s.commitParts u (n + ((p.2.lines p.1).map fun x => x.2.length).sum) ps
    else (s.dropUnits (fun q => ps.any fun x => q == { u with addr := x.1 }) .none, st, n)

/-- Several writes of a unit: whether all of them can be made now. What they wait for is started; where one fails, the others are
given up. -/
def State.prepWrites (s : State) (u : StackReq) (ws : List UnitWrite) : State × Ready :=
  let ps := ws.flatMap (s.parts u.source)
  match s.prepParts u ps with
  | (s, .fail st) => (s.dropUnits (fun q => ps.any fun x => q == { u with addr := x.1 }) .none, .fail st)
  | x => x

/-- One write that can be made now is made: its status and the bytes written. -/
def State.commitUnit (s : State) (u : StackReq) (w : UnitWrite) : State × Nat × Nat := s.commitParts u 0 (s.parts u.source w)

/-- A unit writes stacked memory; none while it has to wait. -/
def State.tryUnit (s : State) (u : StackReq) (w : UnitWrite) : State × Option Nat :=
  match s.prepWrites u [w] with
  | (s, .wait) => (s, none)
  | (s, .fail st) => (s, some st)
  | (s, .go) =>
    let (s, st, _) := s.commitUnit u w
    (s, some st)

/-- A unit writes bytes of stacked memory by sectors. -/
def State.tryWrite (s : State) (r : StackReq) (bs : List Byte) : State × Option Nat :=
  s.tryUnit r { addr := r.addr, data := bs, whole := none }

/-- A unit writes a whole bale, tagged with its CRC computed by the writer, or untagged (R291, R292). -/
def State.tryWriteBale (s : State) (r : StackReq) (tag : Option Nat) (bs : List Byte) : State × Option Nat :=
  s.tryUnit r { addr := r.addr, data := bs, whole := some tag }

/-- A unit reads, changes and writes an 8-byte word as one access (R348, R466): the status and the old bytes. A KADD of a line that
another device homes goes there. -/
def State.tryRmw (s : State) (r : StackReq) (op x y : Nat) : State × Option (Nat × List Byte) :=
  let p : Nat × StkAcc := (r.addr, .rmw op x y)
  match s.prepPart r p with
  | (s, .wait) => (s, none)
  | (s, .fail st) => (s.dropUnits (· == r) .none, some (st, []))
  | (s, .go) =>
    let (s, st, old) := s.commitPart r p
    (s, some (st, old))

/-! ### Local addresses -/

/-- The kinds of local memory. -/
inductive Mem where
  | stacked
  | store
  | scratch
deriving DecidableEq, Repr

/-- The memory that the whole range lies in; none for a range that leaves it. -/
def memOf (a n : Nat) : Option Mem :=
  if a + n ≤ 0x018000000000 then some .stacked
  else if storeBase ≤ a ∧ a + n ≤ 0x0200A8000000 then some .store
  else if scratchBase ≤ a ∧ a + n ≤ 0x02109D800000 then some .scratch
  else none

/-- The flocks whose store or scratch a range touches. -/
def flocksOf (m : Mem) (a n : Nat) : List Nat :=
  match m with
  | .stacked => []
  | .store => (List.range 672).filter fun f =>
      decide (storeAddr f 0 < a + n) && decide (a < storeAddr f 0 + storeSize)
  | .scratch => (List.range 672).filter fun f =>
      decide (scratchAddr f 0 0 < a + n) && decide (a < scratchAddr f 0 0 + 120 * scratchSize)

/-- The SOURCE of Table 7.10 for a core's flock at the stack of an address. -/
def State.portSource (s : State) (f a : Nat) : Nat := if f / 56 = s.stackOf a then 0 else 2

/-- An access to the memory of a flock that a reset takes in ends with TARGET_RESET and is logged; `rs` is the SOURCE of Table
16.11. -/
def State.flockRefuses (s : State) (r : StackReq) (rs f : Nat) : State :=
  s.resetLog r.addr (s.flockScope f).1 (s.flockScope f).2 rs (if rs < 2 then r.core else 0)

/-- A unit reads `n` bytes of local memory from the address of its request. -/
def State.tryReadMem (s : State) (r : StackReq) (rs n : Nat) : State × Option (Nat × List Byte) :=
  match memOf r.addr n with
  | none => (s, some (stAddressFault, []))
  | some .stacked => s.tryRead r n
  | some m =>
    match (flocksOf m r.addr n).find? s.flockQuiet with
    | some f => (s.flockRefuses r rs f, some (stTargetReset, []))
    | none =>
      (s, some (stOk, if m = .store then Sparse.readBytes s.store (r.addr - storeBase) n
        else Sparse.readBytes s.scratch (r.addr - scratchBase) n))

/-- A unit writes bytes of local memory. -/
def State.tryWriteMem (s : State) (r : StackReq) (rs : Nat) (bs : List Byte) : State × Option Nat :=
  match memOf r.addr bs.length with
  | none => (s, some stAddressFault)
  | some .stacked => s.tryWrite r bs
  | some m =>
    match (flocksOf m r.addr bs.length).find? s.flockQuiet with
    | some f => (s.flockRefuses r rs f, some stTargetReset)
    | none =>
      (if m = .store then s.wrStoreAt (r.addr - storeBase) bs else s.wrScratchAt (r.addr - scratchBase) bs, some stOk)

end Sys2Proof.Machine
end

