-- ==== Sys2Proof/Machine/NiBase.lean ====
section
/-! DEFINITION. The source side of the network interface: packets (R405 to R409), tags, send counters and acknowledgements
(R431, R432, R438), the queues of the router slices, and the sending of one waiting request. -/

namespace Sys2Proof.Machine

/-! ### Packets -/

/-- The eight header words of a packet (Table 10.1). -/
def pktWords (p : Packet) : List Nat :=
  [p.dest * 2 ^ 50 + p.src * 2 ^ 36 + p.cls * 2 ^ 34 + p.flag.toNat * 2 ^ 33 + p.ll.toNat * 2 ^ 32 + p.op * 2 ^ 26
      + p.status * 2 ^ 22 + p.len * 2 ^ 12 + p.share * 2 ^ 8 + p.hops,
    p.jobTag.toNat * 2 ^ 32 + p.seq.toNat,
    p.rsv2 * 2 ^ 50 + p.space * 2 ^ 48 + p.offset,
    p.ackSeq.toNat * 2 ^ 32 + p.epoch.toNat * 2 ^ 16 + p.tag,
    p.w4.toNat, p.w5.toNat, p.w6.toNat,
    p.ackV.toNat * 2 ^ 63 + p.esc.toNat * 2 ^ 62 + p.rsv7 * 2 ^ 32 + p.crc.toNat]

/-- The header flit of a packet (R406). -/
def pktHeader (p : Packet) : List Byte := ((pktWords p).map (leBytes 8)).flatten

/-- The payload flits of `n` bytes from the front of a list, the last one padded with zero bytes (R405). -/
def payFlits : Nat → List Byte → List (List Byte)
  | 0, _ => []
  | n + 1, bs => if bs.isEmpty then [] else slice bs 0 64 :: payFlits n (bs.drop 64)

/-- The flits of a packet (R405). -/
def pktFlits (p : Packet) : List (List Byte) := pktHeader p :: payFlits (p.payload.length / 64 + 1) p.payload

/-- The end-to-end CRC of a packet (R407). -/
def pktCrc (p : Packet) : Nat :=
  crc32c (pktHeader { p with hops := 0, esc := false, crc := 0 } ++ p.payload)

/-- A packet with its CRC; and whether the CRC of a packet that arrives matches. -/
def pktSigned (p : Packet) : Packet := { p with crc := BitVec.ofNat 32 (pktCrc p) }
def pktOk (p : Packet) : Bool := p.crc.toNat == pktCrc p

/-- A reserved header bit is not zero (R408). -/
def pktReserved (p : Packet) : Bool := p.rsv2 != 0 || p.rsv7 != 0

/-- CLASS of an operation (Table 10.2). -/
def opClass (op : Nat) : Nat :=
  match op with
  | 0x10 => 1 | 0x11 => 1 | 0x20 => 2 | 0x21 => 2 | 0x30 => 3 | _ => 0

/-- The device number of this device, and the job tag of its fold. -/
def State.device (s : State) : Nat := match s.fold with
  | some x => x.device
  | none => 0
def State.jobTag (s : State) : Nat := match s.fold with
  | some x => x.jobTag
  | none => 0

/-- The device number of a rank (R31, R32). -/
def State.deviceOf (s : State) (rank : Nat) : Option Nat := match s.fold with
  | some x => x.ranks[rank]?
  | none => none

def State.setNi (s : State) (n : Ni) : State := { s with ni := n }

/-- The next SEQ to a device (R431). -/
def Ni.nextSeq (n : Ni) (dest : Nat) : Nat := Sparse.get 0 n.next dest

/-- ACK_SEQ to a device (R438): the lowest SEQ whose tag has not retired, or the next one. -/
def Ni.ackSeq (n : Ni) (dest : Nat) : Nat :=
  let next := n.nextSeq dest
  let age (t : Tag) : Nat := (next + 2 ^ 32 - t.seq) % 2 ^ 32
  let oldest := ((n.tags.filter fun t => t.dest == dest).map age).foldl max 0
  (next + 2 ^ 32 - oldest) % 2 ^ 32

/-- A packet from this device with the fields of R409 and R438 filled; its CRC is computed when it enters a queue. -/
def State.packet (s : State) (dest op : Nat) (flag : Bool) (status share seq space offset tag : Nat) (w4 w5 w6 : Word64)
    (pay : List Byte) : Packet :=
  { dest := dest, src := s.device, cls := opClass op, flag := flag, ll := false, op := op, status := status,
    len := pay.length, share := share, hops := 0, jobTag := BitVec.ofNat 32 s.jobTag, seq := BitVec.ofNat 32 seq,
    space := space, offset := offset, ackSeq := BitVec.ofNat 32 (s.ni.ackSeq dest), ackV := true,
    epoch := BitVec.ofNat 16 (s.fld .niEpoch 0 0 15 0), tag := tag, w4 := w4, w5 := w5, w6 := w6, rsv2 := 0, rsv7 := 0,
    esc := false, crc := 0, payload := pay }

/-! ### Router queues (Table 10.4) -/

/-- Queue numbers within a slice: NI injection, NI ejection, slice-mesh inputs by direction (adaptive, and escape by ring)
and device-port inputs. -/
def qInject (cls : Nat) : Nat := cls
def qEject (cls : Nat) : Nat := 8 + cls
def qMesh (dir cls : Nat) : Nat := 16 + dir * 4 + cls
def qMeshEsc (dir ring cls : Nat) : Nat := 64 + (dir * 8 + ring) * 4 + cls
def qPort (port cls : Nat) : Nat := 512 + port * 8 + cls
def qPortEsc (port cls : Nat) : Nat := 512 + port * 8 + 4 + cls

def State.queue (s : State) (slice q : Nat) : List Packet := Sparse.get [] s.rtr.queues (slice * 4096 + q)

def State.setQueue (s : State) (slice q : Nat) (ps : List Packet) : State :=
  { s with rtr := { s.rtr with queues := Sparse.set [] s.rtr.queues (slice * 4096 + q) ps } }

def State.pushQueue (s : State) (slice q : Nat) (p : Packet) : State := s.setQueue slice q (s.queue slice q ++ [p])

/-- The RSP injection slots of a share that processing entries hold for their answers (R426). -/
def State.slotsHeld (s : State) (share : Nat) : Nat := (s.ni.proc.filter fun x => x.share == share && !x.orphan).length

/-- An injection queue has a free buffer that no processing entry holds. -/
def State.injectRoom (s : State) (share cls : Nat) : Bool :=
  decide ((s.queue share (qInject cls)).length + (if cls = 2 then s.slotsHeld share else 0) < 8)

/-- A packet enters the injection queue of a share with its CRC, and its ACK_SEQ counts as carried (R438). -/
def State.inject (s : State) (share : Nat) (p : Packet) : State :=
  let s := s.pushQueue share (qInject p.cls) (pktSigned p)
  s.setNi { s.ni with acked := Sparse.set 0 s.ni.acked p.dest p.ackSeq.toNat }

/-! ### Logs -/

/-- The NI fault log (R458, Table 10.21). -/
def State.niLog (s : State) (status : Nat) (dir : Bool) (space cls op peer share addr : Nat) : State :=
  s.log .niFaultInfo 0 0 (status * 2 ^ 42 + dir.toNat * 2 ^ 41 + space * 2 ^ 39 + cls * 2 ^ 37 + op * 2 ^ 31
    + peer * 2 ^ 17 + share * 2 ^ 13) (some (61, 46)) (some (.niFaultAddr, addr)) 0x07 0

/-- A job-fatal event (R497). Every event is reported to the drover. -/
def State.niFatalEvent (s : State) (cause device : Nat) : State :=
  let old := s.reg .niFatal 0 0
  let s := if bit old 63 then s.setRbit .niFatal 0 0 62 true
    else s.setReg .niFatal 0 0 (setBit (2 ^ 63 + cause * 2 ^ 56 + device) 62 (bit old 62))
  s.event 0x08 0 device (s.reg .niFatal 0 0) 0

/-! ### Tags -/

/-- The lowest free tag of a share, or of the pool (Table 10.6). -/
def Ni.freeTag (n : Ni) (share : Nat) : Option Nat :=
  let free (k : Nat) : Bool := !n.tags.any fun t => t.num == k
  match lowest 5120 fun i => free (5120 * share + i) with
  | some i => some (5120 * share + i)
  | none => match lowest 4096 fun i => free (61440 + i) with
    | some i => some (61440 + i)
    | none => none

/-- The live tag with an index. -/
def Ni.tag (n : Ni) (num : Nat) : Option Tag := n.tags.find? fun t => t.num == num

/-- The send window to a device has room (R432). -/
def Ni.windowRoom (n : Ni) (dest : Nat) : Bool :=
  decide ((n.nextSeq dest + 2 ^ 32 - n.ackSeq dest) % 2 ^ 32 < 256)

/-- A tag leaves. -/
def State.dropTag (s : State) (num : Nat) : State :=
  s.setNi { s.ni with tags := s.ni.tags.filter fun t => t.num != num }

/-- A tag replaced. -/
def State.setTag (s : State) (t : Tag) : State :=
  s.setNi { s.ni with tags := s.ni.tags.map fun x => if x.num = t.num then t else x }

/-- DEST, SPACE and OFFSET of a fabric address (Table 1.9). -/
def fabDest (a : Nat) : Nat := bits a 63 50
def fabSpace (a : Nat) : Nat := bits a 49 48
def fabOff (a : Nat) : Nat := bits a 47 0

/-- A piece of a PUT or GET has ended with a status; the failing piece with the lowest OFFSET counts (R468). -/
def Dma.piece (d : Dma) (off st : Nat) : Dma :=
  let d := { d with left := d.left - 1 }
  if st = stOk then d
  else if d.status = stOk ∨ off < d.failOff then { d with status := st, failOff := off }
  else d

/-- The descriptor of a core with a push number changed. -/
def State.modDma (s : State) (f c seq : Nat) (g : Dma → Dma) : State :=
  s.modCore f c fun k => { k with dma := k.dma.map fun d => if d.seq = seq then g d else d }

/-! ### Sending one waiting request -/

/-- The core of a request, if a core's operation caused it. -/
def TagOwner.core : TagOwner → Option (Nat × Nat)
  | .remote f c _ => some (f, c)
  | .put f c _ _ => some (f, c)
  | .get f c _ _ _ => some (f, c)
  | _ => none

/-- A flagged RSIG waits until every earlier PUT of its core to the same device has started and every WRITE of it has its
SEQ (R478). -/
def State.flagWaits (s : State) (r : NiReq) (dest : Nat) : Bool :=
  r.flag && match r.owner with
    | .remote f c _ =>
      ((s.core f c).dma.any fun d =>
        !d.started && d.op == 0x08 && decide (d.seq < r.after) && s.deviceOf (fabDest d.dst) == some dest) ||
      (s.ni.waiting.any fun x => match x.owner with
        | .put f' c' seq _ => f' == f && c' == c && decide (seq < r.after) && s.deviceOf x.dest == some dest
        | _ => false)
    | _ => false

/-- This device is a shadow (R705, R707). -/
def State.isShadow (s : State) : Bool :=
  s.fld .drvShadowStatus 0 0 63 61 == 2 || (s.fld .drvShadowStatus 0 0 63 61 == 4 && s.rbit .drvShadowCtrl 0 0 62)

/-- The device is fenced (R700). -/
def State.fenced (s : State) : Bool := s.fld .drvMusterStatus 0 0 61 60 != 0

/-- A COH_FWD needs a forward credit of its receiver: a forward buffer there that no unanswered COH_FWD holds (R425). How many
buffers a receiver has the spec does not say (log entry 69). -/
def State.forwardRoom (s : State) (op dest : Nat) : Bool :=
  op != 0x10 || decide ((s.ni.tags.filter fun t => t.req.op == 0x10 && t.dest == dest).length < Config.forwardBuffers dest + 1)

/-- What trying to send a request gives: it went out, it waits, or it ends at its source with a status. -/
inductive Sending where
  | sent
  | blocked
  | ended (status : Nat)
deriving DecidableEq, Repr

/-- The request of a descriptor of a core to local memory: its SOURCE, its core and its push number. -/
def State.dmaReq (s : State) (f c seq a : Nat) : StackReq :=
  { source := s.portSource f a, core := coreId f c, addr := a, job := seq + 1 }

/-- The descriptor that a packet carries a piece of. -/
def TagOwner.seq : TagOwner → Nat
  | .put _ _ seq _ => seq
  | .get _ _ seq _ _ => seq
  | _ => 0

/-- The payload of a request: none while it cannot be read yet, or a status other than OK (R461). -/
def State.payload (s : State) (r : NiReq) : State × Option (Nat × List Byte) :=
  match r.pay with
  | .bytes bs => (s, some (stOk, bs))
  | .mem f c a n => s.tryReadMem (s.dmaReq f c r.owner.seq a) 0x1 n

/-- A request leaves the waiting ones. -/
def State.unask (s : State) (r : NiReq) : State := s.setNi { s.ni with waiting := s.ni.waiting.erase r }

/-- The packet of a tag (R409, R440). -/
def State.tagPacket (s : State) (t : Tag) (pay : List Byte) : Packet :=
  s.packet t.dest t.req.op t.req.flag 0 t.req.share t.seq t.req.space t.req.offset t.num t.req.w4 t.req.w5 t.req.w6 pay

/-- One request is sent if it can be: a live destination, room in the window and in the injection queue, a tag, and its
payload read (R425, R431, R432, R461, R493). Invalidations are counted as they are sent (Table 11.9). -/
def State.sendReq (s : State) (r : NiReq) : State × Sending :=
  match (if r.byRank then s.deviceOf r.dest else some r.dest) with
  | none => (s.unask r, .ended stAddressFault)
  | some dest =>
    if s.fenced || s.ni.dead.contains dest then (s.unask r, .ended stTimeout)
    else if s.isShadow && dest != s.device then (s, .blocked)
    else if !s.ni.windowRoom dest || !s.injectRoom r.share (opClass r.op) || s.flagWaits r dest || !s.forwardRoom r.op dest then
      (s, .blocked)
    else match s.ni.freeTag r.share with
      | none => (s, .blocked)
      | some num =>
        match s.payload r with
        | (s, none) => (s, .blocked)
        | (s, some (st, bs)) =>
          if st ≠ stOk then (s.unask r, .ended st)
          else
            let s := s.unask r
            let seq := s.ni.nextSeq dest
            let t : Tag := { num := num, req := r, dest := dest, seq := seq, resends := 0, backoff := false }
            let s := s.setNi { s.ni with tags := s.ni.tags ++ [t], next := Sparse.set 0 s.ni.next dest ((seq + 1) % 2 ^ 32) }
            let s := if r.op = 0x10 then s.incFld .niCoh 0 0 63 32 else s
            (s.inject r.share (s.tagPacket t bs), .sent)

/-- Two requests are pieces of one PUT, whose pieces are sent in order (R461). -/
def NiReq.samePut (r x : NiReq) : Bool :=
  match r.owner, x.owner with
  | .put f c n _, .put f' c' n' _ => f == f' && c == c' && n == n'
  | .mirror, .mirror => true
  | _, _ => false

/-- The number of the issuer of a request at a share: the cores' remote operations and DMA engines, the groups of the kiln, its
redeliveries, the coherent windows and the mirror stream. -/
def TagOwner.issuer (o : TagOwner) : Nat :=
  match o with
  | .remote f c _ => 2 * coreIdx f c
  | .put f c _ _ => 2 * coreIdx f c + 1
  | .get f c _ _ _ => 2 * coreIdx f c + 1
  | .kiln g _ _ _ => 200000 + g
  | .redeliver _ _ => 200064
  | .fill _ => 200065
  | .cohWrite _ _ => 200065
  | .inval _ _ => 200065
  | _ => 200066

/-- A list without repeats, in the order of first places. -/
def distinct : List Nat → List Nat
  | [] => []
  | x :: xs => x :: (distinct xs).filter (· != x)

/-- The list with `x` before the first entry that comes later by `key`. -/
def insertBy (key : Nat → Nat) (x : Nat) : List Nat → List Nat
  | [] => [x]
  | y :: ys => if key x < key y then x :: y :: ys else y :: insertBy key x ys

/-- The requests that wait at a share, in the order in which they are served: issuers in turn after the one served last (R451),
each issuer's requests as they came. -/
def State.inTurn (s : State) (share : Nat) : List NiReq :=
  let rs := s.ni.waiting.filter fun r => r.share == share
  let key (i : Nat) : Nat := (i + 2 ^ 20 - 1 - Sparse.get 0 s.ni.turn share) % 2 ^ 20
  let is := (distinct (rs.map fun r => r.owner.issuer)).foldl (fun l i => insertBy key i l) []
  is.flatMap fun i => rs.filter fun r => r.owner.issuer == i

/-- The first request of a list that can be sent is sent; a piece never overtakes an earlier piece of its PUT. The result
names a request that ended at its source. -/
def State.sendFirst (s : State) : List NiReq → List NiReq → State × Option (NiReq × Nat)
  | _, [] => (s, none)
  | stuck, r :: rest =>
    if stuck.any r.samePut then s.sendFirst stuck rest
    else match s.sendReq r with
      | (s, .sent) => (s.setNi { s.ni with turn := Sparse.set 0 s.ni.turn r.share r.owner.issuer }, none)
      | (s, .blocked) => s.sendFirst (r :: stuck) rest
      | (s, .ended st) => (s, some (r, st))

end Sys2Proof.Machine
end

