-- ==== Sys2Proof/Machine/Dma.lean ====
section
/-! DEFINITION. DMA descriptors (R152 to R162, R219, R220, R391 to R396, R460 to R463, R468): push, start, movement and
completion. -/

namespace Sys2Proof.Machine

/-! ### Push (R157, R219, R220) -/

/-- The descriptor slots of a flock that a credit-return message has yet to free (R647); 1 is their resource number. -/
def State.slotsOwed (s : State) (f : Nat) : Nat :=
  s.returns.foldl (fun n x => if x.1 = f ∧ x.2.1 = 1 then n + x.2.2 else n) 0

/-- The descriptors of a flock between push and completion, with the slots that a reset has yet to return. -/
def State.flockDmas (s : State) (f : Nat) : Nat :=
  (List.range 120).foldl (fun n c => n + (s.core f c).dma.length) (s.slotsOwed f)

/-- A push would pass neither limit of R157. -/
def State.dmaRoom (s : State) (f c : Nat) : Bool :=
  decide ((s.core f c).dma.length < 16) && decide (s.flockDmas f < 256)

/-- A descriptor is pushed: its 32 bytes are read, and the instruction is past (R220). -/
def State.push (s : State) (f c : Nat) (p : Place) : State :=
  let raw := s.rdPlace f c p 32
  (s.modCore f c fun k =>
    { k with
      dma := k.dma ++ [{ seq := k.pushes, raw := raw, started := false, left := 0, status := stOk, failOff := 0, land := [],
                         done := 0, again := false }]
      pushes := k.pushes + 1 }).advance f c

/-- DMA (R219): the descriptor is pushed, or the core stalls until DMA_PUSH_ADMIT admits it (R157). -/
def execDma (f c : Nat) (w : Word64) (s : State) : Out :=
  issue 0x60 f c w s fun s =>
    match effAddr f c (s.core f c) (iSpace w) (iB w) (iImm w) 32 32 true with
    | .bad st a => s.memFault f c 0x60 st a
    | .ok p =>
      if s.dmaRoom f c then s.push f c p
      else
        (s.modCore f c fun k => { k with hold := .push p.inStore p.off }).modFlock f fun k =>
          { k with stalled := k.stalled ++ [c] }

/-- DMA_PUSH_ADMIT (R157): the push that stalled first is admitted when both limits allow it. -/
def execDmaPushAdmit (f : Nat) (s : State) : Out :=
  inRange f 672 s fun s =>
    match (s.flock f).stalled with
    | [] => s
    | c :: rest =>
      match (s.core f c).hold with
      | .push inStore off =>
        if s.dmaRoom f c && !s.flockQuiet f && !s.withheld f then
          let s := s.modFlock f fun k => { k with stalled := rest }
          (s.modCore f c fun k => { k with hold := .free }).push f c { inStore := inStore, off := off }
        else s
      | _ => s.modFlock f fun k => { k with stalled := rest }

/-! ### Completion (R159, R161, R162) -/

/-- A descriptor leaves its core, and with it what it still waits for. -/
def State.dropDma (s : State) (f c seq : Nat) : State :=
  (s.modCore f c fun k => { k with dma := k.dma.filter fun d => d.seq != seq }).dropUnits
    (fun r => decide (r.source ≤ 2) && r.core == coreId f c && r.job == seq + 1) .none

/-- The outcome record of a PUT or GET (R706). -/
def State.dmaOutcome (s : State) (f c : Nat) (d : Dma) (st : Nat) : State :=
  if d.op = 0x08 ∨ d.op = 0x09 then s.outcome (coreId f c) 2 (d.seq % 2 ^ 16) st 0 else s

/-- A descriptor completes with a status other than OK: the core's descriptors that have not started are discarded and the
core takes a DMA fault (R161, R164). -/
def State.dmaFail (s : State) (f c : Nat) (d : Dma) (st : Nat) : State :=
  let s := (s.dmaOutcome f c d st).dropDma f c d.seq
  let k := s.core f c
  let dropped := (k.dma.filter fun x => !x.started).length
  let s := s.modCore f c fun k => { k with dma := k.dma.filter fun x => x.started }
  s.coreFault f c 0x5 st dropped k.pc 0 (d.seq % 2 ^ 16) true

/-- The completion word that a descriptor names, if ENABLE is set (Table 4.3). -/
def Dma.word (d : Dma) (f c : Nat) : Option SigPlace :=
  if bit d.comp 31 then
    some (if bit d.comp 30 then .scratch f c (bits d.comp 21 0) else .store f (bits d.comp 21 0))
  else none

/-- A descriptor's effects are done with status OK: exactly 1 is added to its completion word (R159); a counter fault
turns the status into REFUSED (R162). -/
def State.dmaOk (s : State) (f c : Nat) (d : Dma) : State :=
  match d.word f c with
  | none => (s.dmaOutcome f c d stOk).dropDma f c d.seq
  | some p =>
    let (s, st) := s.addSignal p 1 0x4 (some (coreId f c))
    if st = stOk then (s.dmaOutcome f c d stOk).dropDma f c d.seq else s.dmaFail f c d st

/-- A descriptor ends with a status. -/
def State.dmaEnd (s : State) (f c : Nat) (d : Dma) (st : Nat) : State :=
  if st = stOk then s.dmaOk f c d else s.dmaFail f c d st

/-- A violation that the bale engine (0x1) or the DMA engine (0x2) detects (R11, R27, R172). -/
def State.dmaViolation (s : State) (f c : Nat) (d : Dma) (st addr : Nat) : State :=
  (s.flkLog f addr st (if d.op = 0x02 ∨ d.op = 0x03 then 0x1 else 0x2) (coreId f c)).dmaFail f c d st

/-! ### Checks before the start (R154, R155, R391, R463) -/

/-- R154. -/
def Dma.refused (d : Dma) : Bool :=
  !([0x01, 0x02, 0x03, 0x04, 0x08, 0x09].contains d.op) || decide (2 ≤ d.flags) || leAt d.raw 30 2 != 0 ||
    bits d.comp 29 22 != 0 || (d.tag != 0 && d.op != 0x02 && d.op != 0x03) || d.len == 0 || decide (2 ^ 24 < d.len)

/-- A range of the far-tier window. -/
def inFar (a n : Nat) : Bool := decide (0x040000000000 ≤ a) && decide (a + n ≤ 0x080000000000)

/-- The CXL_FAR_MAP entry that holds a window offset (R392). -/
def State.farEntry (s : State) (o : Nat) : Option Nat :=
  lowest 16 fun i =>
    let m := s.reg .cxlFarMap 0 i
    bit m 63 && decide (bits m 43 32 * 2 ^ 30 ≤ o) && decide (o < (bits m 43 32 + bits m 12 0) * 2 ^ 30) &&
      decide (bits m 43 32 + bits m 12 0 ≤ 4096)

/-- The first line of a window range that no entry holds (R392). -/
def State.farUnmapped (s : State) (a n : Nat) : Option Nat :=
  (lowest (n / 64) fun i => (s.farEntry (a - 0x040000000000 + 64 * i)).isNone).map fun i => a + 64 * i

/-- The range lies in the flock's own store. -/
def inOwnStore (f a n : Nat) : Bool := decide (storeAddr f 0 ≤ a) && decide (a + n ≤ storeAddr f 0 + storeSize)

/-- A local side of a COPY (R155, R391): stacked memory, flock stores, core scratch, or the far-tier window. -/
def copySide (a n : Nat) : Bool :=
  a % 4 == 0 && (if inFar a n then a % 64 == 0 && n % 64 == 0 else (memOf a n).isSome)

/-- The address that breaks R155, R391 or R463, if any. The translation of R392 is checked when the far side starts. -/
def State.dmaBad (s : State) (f : Nat) (d : Dma) : Option Nat :=
  let off := bits d.comp 21 0
  let compBad := bit d.comp 31 &&
    (off % 8 != 0 || decide ((if bit d.comp 30 then scratchSize else storeSize) < off + 8))
  let compAddr := if bit d.comp 30 then scratchAddr f 0 off else storeAddr f off
  let n := d.len
  let first (srcOk dstOk : Bool) : Option Nat :=
    if !srcOk then some d.src else if !dstOk then some d.dst else if compBad then some compAddr else none
  match d.op with
  | 0x01 => first (n % 4 == 0 && copySide d.src n) (copySide d.dst n)
  | 0x02 => first (n % 4096 == 0 && d.src % 4096 == 0 && memOf d.src n == some .stacked)
      (d.dst % 4096 == 0 && inOwnStore f d.dst n)
  | 0x03 => first (n % 4096 == 0 && d.src % 4096 == 0 && inOwnStore f d.src n)
      (d.dst % 4096 == 0 && memOf d.dst n == some .stacked)
  | 0x04 => first (inOwnStore f d.src n) true
  | 0x08 => first (n % 4 == 0 && d.src % 4 == 0 && (memOf d.src n).isSome)
      (fabOff d.dst % 4 == 0 && (s.deviceOf (fabDest d.dst)).isSome)
  | _ => first (n % 4 == 0 && fabOff d.src % 4 == 0 && (s.deviceOf (fabDest d.src)).isSome)
      (d.dst % 4 == 0 && (memOf d.dst n).isSome)

/-! ### Pieces of PUT and GET (R461, R462) -/

/-- The pieces of `n` bytes from OFFSET `o`, cut at every 512-byte boundary: place in the descriptor and length. -/
def cut512 : Nat → Nat → Nat → Nat → List (Nat × Nat)
  | 0, _, _, _ => []
  | k + 1, at', o, n =>
    if n = 0 then [] else
      let m := min n (512 - o % 512)
      (at', m) :: cut512 k (at' + m) (o + m) (n - m)

/-- The request of one piece. -/
def Dma.pieceReq (d : Dma) (f c : Nat) (p : Nat × Nat) : NiReq :=
  if d.op = 0x08 then
    { share := f / 56, dest := fabDest d.dst, byRank := true, op := 0x01, flag := false, space := fabSpace d.dst,
      offset := fabOff d.dst + p.1, w4 := 0, w5 := 0, w6 := 0, pay := .mem f c (d.src + p.1) p.2,
      owner := .put f c d.seq p.1, after := 0 }
  else
    { share := f / 56, dest := fabDest d.src, byRank := true, op := 0x02, flag := false, space := fabSpace d.src,
      offset := fabOff d.src + p.1, w4 := BitVec.ofNat 64 p.2, w5 := 0, w6 := 0, pay := .bytes [],
      owner := .get f c d.seq p.1 (d.dst + p.1), after := 0 }

/-- A PUT or GET starts: its pieces wait at the NI share in ascending order of OFFSET. -/
def State.startRemote (s : State) (f c : Nat) (d : Dma) : State :=
  let ps := cut512 (d.len / 512 + 2) 0 (fabOff (if d.op = 0x08 then d.dst else d.src)) d.len
  let s := s.modDma f c d.seq fun d => { d with started := true, left := ps.length }
  ps.foldl (fun s p => s.niAsk (d.pieceReq f c p)) s

/-! ### The far tier (R391 to R396) -/

/-- The status that CXL_STATUS.MODE gives a far-tier request before it is sent (R396). -/
def State.farMode (s : State) : Nat :=
  match s.fld .cxlStatus 0 0 61 60 with
  | 0 => stTargetReset
  | 1 => stRefused
  | _ => stOk

/-- Whether a COPY has a far side, and the window address of that side. -/
def Dma.farSide (d : Dma) : Option Nat :=
  if inFar d.src d.len then some d.src else if inFar d.dst d.len then some d.dst else none

/-- Window address of byte `i` of the far side, and whether the request writes the far tier. When both sides lie in the far
tier, each line is read first. -/
def Dma.farRead (d : Dma) : Bool := inFar d.src d.len

/-- The host address and kind of a window address (R392). -/
def State.farTarget (s : State) (a : Nat) : Nat × Nat :=
  let o := a - 0x040000000000
  match s.farEntry o with
  | some i => (s.fld .cxlFarTgt 0 i 51 30 * 2 ^ 30 + o - s.fld .cxlFarMap 0 i 43 32 * 2 ^ 30,
      s.fld .cxlFarMap 0 i 62 62)
  | none => (0, 0)

/-- The status that a request for a line of the window gets before it is sent: its translation, then the mode (R392, R396). -/
def State.farStatus (s : State) (a : Nat) : Nat :=
  if (s.farEntry (a - 0x040000000000)).isNone then stAddressFault else s.farMode

/-- The far-tier requests in progress replaced. -/
def State.setFar (s : State) (xs : List FarReq) : State := { s with far := xs }

/-- A far-tier request is sent. After an IDE failure one of KIND 0 stays unsent, and its time runs out (R399). -/
def State.farSend (s : State) (f c seq : Nat) (write : Bool) (addr off : Nat) (bs : List Byte) : State :=
  let (hpa, kind) := s.farTarget addr
  let s := s.setFar (s.far ++ [{ f := f, c := c, seq := seq, write := write, addr := addr, off := off }])
  if s.ideStop ∧ kind = 0 then s else s.emit (if write then .farWrite hpa kind bs else .farRead hpa kind)

/-- The next lines of a COPY with a far side are requested while the controller has entries for DMA requests (R394);
`n` bounds the lines. A line whose local bytes cannot be read yet waits. -/
def State.farIssue (s : State) (f c seq : Nat) : Nat → State
  | 0 => s
  | n + 1 =>
    match (s.core f c).dma.find? fun d => d.seq == seq with
    | none => s
    | some d =>
      if d.len ≤ d.done ∨ 896 ≤ s.far.length ∨
          (s.ideStop ∧ (s.farTarget ((if d.farRead then d.src else d.dst) + d.done)).2 = 0) then s
      else
        let next (s : State) : State := s.modDma f c seq fun d => { d with done := d.done + 64 }
        let a := (if d.farRead then d.src else d.dst) + d.done
        if s.farStatus a ≠ stOk then
          ((((next s).cxlLog a (s.farStatus a) 0x3 0 (coreId f c))).modDma f c seq fun x =>
            x.piece d.done (s.farStatus a)).farIssue f c seq n
        else if d.farRead then
          ((next s).farSend f c seq false (d.src + d.done) d.done []).farIssue f c seq n
        else
          match s.tryReadMem (s.dmaReq f c d.seq (d.src + d.done)) 0x1 64 with
          | (s, none) => s
          | (s, some (st, bs)) =>
            if st = stOk then ((next s).farSend f c seq true (d.dst + d.done) d.done bs).farIssue f c seq n
            else (((next s).modDma f c seq fun x => x.piece d.done st)).farIssue f c seq n

/-- A COPY with a far side starts, or ends with the status of its first line without a translation, or with the status that the
mode gives (R392, R396). -/
def State.startFar (s : State) (f c : Nat) (d : Dma) (addr : Nat) : State :=
  let lost (a : Nat) : Option Nat := if inFar a d.len then s.farUnmapped a d.len else none
  match (lost d.src).orElse fun _ => lost d.dst with
  | some a => (s.cxlLog a stAddressFault 0x3 0 (coreId f c)).dmaFail f c d stAddressFault
  | none =>
  if s.farMode ≠ stOk then (s.cxlLog addr s.farMode 0x3 0 (coreId f c)).dmaFail f c d s.farMode
  else (s.modDma f c d.seq fun d => { d with started := true, left := d.len / 64 }).farIssue f c d.seq 896

/-- DMA_DESCRIPTOR_START (R154 to R158, R391, R463): the next descriptor of a core in push order starts; ORDERED waits for
every earlier one to complete. A descriptor that fails a check completes without moving a byte. -/
def execDmaDescriptorStart (f c : Nat) (s : State) : Out :=
  onCore f c s fun s =>
    match (s.core f c).dma.find? fun d => !d.started with
    | none => s
    | some d =>
      let first := (s.core f c).dma.head? == some d
      if s.flockQuiet f || (d.ordered && !first) then s
      else if d.refused then s.dmaViolation f c d stRefused d.src
      else match s.dmaBad f d with
        | some a =>
          -- a far side that R391 turns away is logged by the CXL controller as well (R396)
          let s := if d.op = 0x01 ∧ inFar a d.len then s.cxlLog a stAddressFault 0x3 0 (coreId f c) else s
          s.dmaViolation f c d stAddressFault a
        | none =>
          match d.op with
          | 0x08 => s.startRemote f c d
          | 0x09 => s.startRemote f c d
          | 0x01 => match d.farSide with
            | some a => s.startFar f c d a
            | none => s.modDma f c d.seq fun d => { d with started := true }
          | _ => s.modDma f c d.seq fun d => { d with started := true }

/-! ### Movement -/

/-- What byte `i` of a COPY with overlapping ranges may become (R155): a source byte `i - m · delta` (or `i + m · delta`
downwards), where `m` is 0 for the byte itself; the free value picks `m` among those that stay inside the range. -/
def overlapPick (src dst n i free : Nat) (bs : List Byte) : Byte :=
  if src < dst then
    let d := dst - src
    (bs[i - free % (i / d + 1) * d]?).getD 0
  else
    let d := src - dst
    (bs[i + free % ((n - 1 - i) / d + 1) * d]?).getD 0

/-- The ranges of a COPY overlap at different addresses. -/
def overlaps (src dst n : Nat) : Bool := src != dst && decide (src < dst + n) && decide (dst < src + n)

/-- The bytes that a COPY writes; with overlapping ranges one free value is used for each byte. -/
def State.copied (s : State) (src dst n : Nat) (bs : List Byte) : List Byte :=
  if overlaps src dst n then
    (List.range n).map fun i => overlapPick src dst n i (Config.freeValue (s.fresh + i)).toNat bs
  else bs

/-- The bytes that a COPY has read are written, and it ends. -/
def State.copyOut (s : State) (f c : Nat) (d : Dma) (bs : List Byte) : State :=
  match s.tryWriteMem (s.dmaReq f c d.seq d.dst) 0x1 bs with
  | (s, none) => s
  | (s, some st) => s.dmaEnd f c d st

/-- A COPY between local memories is performed (R155): its source is read once, and its bytes are kept until they are written. -/
def State.doCopy (s : State) (f c : Nat) (d : Dma) : State :=
  match d.land with
  | (_, _, bs) :: _ => s.copyOut f c d bs
  | [] =>
    match s.tryReadMem (s.dmaReq f c d.seq d.src) 0x1 d.len with
    | (s, none) => s
    | (s, some (st, bs)) =>
      if st ≠ stOk then s.dmaFail f c d st
      else
        let bs := s.copied d.src d.dst d.len bs
        let s := if overlaps d.src d.dst d.len then { s with fresh := s.fresh + d.len } else s
        let d' := { d with land := [(0, d.dst, bs)] }
        (s.modDma f c d.seq fun _ => d').copyOut f c d' bs

/-- The next bales of a BALE_OUT are written with the descriptor's tag and a computed CRC (R152); `n` bounds the bales. -/
def State.doBaleOut (s : State) (f c : Nat) (d : Dma) : Nat → State
  | 0 => s.dmaEnd f c d stOk
  | n + 1 =>
    if d.len ≤ d.done then s.dmaEnd f c d stOk
    else
      let a := d.dst + d.done
      let bs := s.rdStore f (d.src + d.done - storeAddr f 0) 4096
      match s.tryWriteBale (s.dmaReq f c d.seq a) (some d.tag) bs with
      | (s, none) => s
      | (s, some st) =>
        if st ≠ stOk then s.dmaFail f c d st
        else (s.modDma f c d.seq fun d => { d with done := d.done + 4096 }).doBaleOut f c { d with done := d.done + 4096 } n

/-- BALE_READ_COMPLETE (R152, R153, R295): the bale engine takes the next bale of a BALE_IN, checks its CRC and tag, reads
it once more when a check fails, and ends the descriptor with CHECKSUM_FAULT when both reads fail. A read that itself returns
another status than OK ends the descriptor at once with it (DESIGN CHOICE, log entry 62). -/
def execBaleReadComplete (f c n : Nat) (errs : Errs) (s : State) : Out :=
  onCore f c s fun s =>
    match (s.core f c).dma[n]? with
    | none => s
    | some d =>
      if !d.started || d.op != 0x02 || decide (d.len ≤ d.done) then s
      else
        let a := d.src + d.done
        match s.tryReadBale (s.dmaReq f c d.seq a) errs with
        | (s, none) => s
        | (s, some (st, bs, tag, crc)) =>
          if st ≠ stOk then s.dmaFail f c d st
          else if baleCrc bs tag (baleOf (s.phys a)) = crc ∧ (d.tag = 0 ∨ d.tag = tag) then
            (s.wrStore f (d.dst + d.done - storeAddr f 0) bs).modDma f c d.seq fun d =>
              { d with done := d.done + 4096, again := false }
          else if d.again then s.dmaViolation f c d stChecksumFault a
          else s.modDma f c d.seq fun d => { d with again := true }

/-- The bytes that a GET or a far-tier read brought are written locally; those that have to wait stay (R462). -/
def State.landAll (s : State) (f c : Nat) (d : Dma) : List (Nat × Nat × List Byte) → State
  | [] => s
  | (off, a, bs) :: rest =>
    match s.tryWriteMem (s.dmaReq f c d.seq a) 0x1 bs with
    | (s, none) => s.landAll f c d rest
    | (s, some st) =>
      let s := s.modDma f c d.seq fun x =>
        let x := { x with land := x.land.erase (off, a, bs) }
        if st = stOk then x else { (x.piece off st) with left := x.left }
      (if d.op = 0x09 ∧ st = stOk then s.mirrored a bs else s).landAll f c d rest

/-- A descriptor whose answers have all arrived ends once everything is written (R395, R468, R475). -/
def State.settle (s : State) (f c : Nat) (d : Dma) : State :=
  let s := s.landAll f c d d.land
  match (s.core f c).dma.find? fun x => x.seq == d.seq with
  | some x => if x.left = 0 ∧ x.land = [] then s.dmaEnd f c x x.status else s
  | none => s

/-- DMA_COMPLETE (R158 to R162): descriptor `n` of the core moves what it can move now and completes when it is done. -/
def execDmaComplete (f c n : Nat) (s : State) : Out :=
  onCore f c s fun s =>
    match (s.core f c).dma[n]? with
    | none => s
    | some d =>
      if !d.started then s
      else match d.op with
        | 0x01 => match d.farSide with
          | some _ => (s.farIssue f c d.seq 896).settle f c d
          | none => s.doCopy f c d
        | 0x02 => if d.len ≤ d.done then s.dmaOk f c d else s
        | 0x03 => s.doBaleOut f c d (d.len / 4096 + 1)
        | 0x04 => s
        | _ => s.settle f c d

end Sys2Proof.Machine
end

