-- ==== Sys2Proof/Machine/FoldImage.lean ====
section
/-! DEFINITION. Fold images (R235 to R254): the header, the directory and the sections, with the checks of the header and
check phases (R258) and the errors of Table 6.15. Each check gives the errors it finds with the image offset of the field
in error; the drover reports the one with the lowest offset (R264). -/

namespace Sys2Proof.Machine

/-- An error: image offset, SECTION and ERROR of Table 6.12. -/
structure FErr where
  off  : Nat
  sec  : Nat
  code : Nat
deriving DecidableEq, Repr

/-- SECTION for the header and the signature block. -/
def noSec : Nat := 0xFFFF

/-- An error unless the condition holds. -/
def need (ok : Bool) (off sec code : Nat) : List FErr := if ok then [] else [{ off := off, sec := sec, code := code }]

/-- The error that is first in image byte order (R264). -/
def firstErr : List FErr → Option FErr
  | [] => none
  | e :: r => match firstErr r with
    | some x => some (if x.off < e.off then x else e)
    | none => some e

/-- Errors at the bytes of a reserved stretch that are not zero. -/
def needZero (b : List Byte) (i n base sec code : Nat) : List FErr :=
  match (slice b i n).findIdx? (· != 0) with
  | some j => need false (base + i + j) sec code
  | none => []

/-! ### Header (Table 6.1) -/

structure FoldHeader where
  kind    : Nat
  flags   : Nat
  total   : Nat
  count   : Nat
  jobTag  : Nat
  serial  : Nat
  fwMin   : Nat
  target  : Nat
  digest  : List Byte
  sigLen  : Nat
deriving DecidableEq, Repr

def parseHeader (b : List Byte) : FoldHeader :=
  { kind := leAt b 6 1, flags := leAt b 7 1, total := leAt b 8 4, count := leAt b 12 4, jobTag := leAt b 16 4,
    serial := leAt b 20 4, fwMin := leAt b 24 4, target := leAt b 28 4, digest := slice b 32 48, sigLen := leAt b 80 4 }

def FoldHeader.full (h : FoldHeader) : Bool := h.kind == 1
def FoldHeader.signed (h : FoldHeader) : Bool := bit h.flags 0
/-- Where the directory starts and ends (R235). -/
def FoldHeader.dir (h : FoldHeader) : Nat := (128 + h.sigLen + 63) / 64 * 64
def FoldHeader.dirEnd (h : FoldHeader) : Nat := h.dir + 16 * h.count

/-- The header phase but for the signature (R237, R258, R735); `version` is the running set version. -/
def headerErrs (b : List Byte) (version : Nat) : List FErr :=
  let h := parseHeader b
  need (leAt b 0 4 == 0x444C4F46) 0 noSec 0x01 ++
  need (leAt b 4 2 == 0x0100) 4 noSec 0x02 ++
  need (h.kind == 1 || h.kind == 2) 6 noSec 0x01 ++
  need (decide (h.flags < 2)) 7 noSec 0x01 ++
  need (h.total % 64 == 0 && decide (h.total ≤ if h.full then 2 ^ 28 else 2 ^ 23)) 8 noSec 0x01 ++
  need (decide (1 ≤ h.count) && decide (h.count ≤ 2048)) 12 noSec 0x01 ++
  need (h.jobTag != 0) 16 noSec 0x01 ++
  need (decide (h.fwMin ≤ version)) 24 noSec 0x03 ++
  need (if h.full then h.target == 0xFFFFFFFF else decide (h.target < 672)) 28 noSec 0x01 ++
  need (h.sigLen == if h.signed then 3224 else 0) 80 noSec 0x01 ++
  needZero b 84 44 0 noSec 0x01

/-! ### Signature blocks (R725, R726, Table 19.6) -/

/-- A signature block is authentic over a message under a key pair (R726), with KEY_SLOT `slot` and reserved bytes zero
(Table 19.6). -/
def authentic (block msg : List Byte) (ecKey hssKey : List Byte) : Bool :=
  Config.ecdsaOk ecKey msg (slice block 4 96) && Config.hssOk hssKey msg (slice block 100 3124)

/-- The signature part of the header phase (R741): the policy for an unsigned image, and the check of a signed one with
the enrolled key package, if any. -/
def signatureErrs (hdr block : List Byte) (foldSigned : Bool) (key : Option (List Byte)) : List FErr :=
  if bit (leAt hdr 7 1) 0 then
    match key with
    | none => need false 128 noSec 0x04
    | some k =>
      need (leAt block 0 4 == 0 && authentic block (slice hdr 0 128) (slice k 0 97) (slice k 100 60)) 128 noSec 0x04
  else need (!foldSigned) 7 noSec 0x04

/-! ### Directory (R235 to R239) -/

/-- A section: its directory index, TYPE, OFFSET, and bytes. -/
structure FoldSec where
  idx  : Nat
  type : Nat
  off  : Nat
  len  : Nat
  crc  : Nat
  body : List Byte
deriving DecidableEq, Repr

def readSec (img : List Byte) (h : FoldHeader) (k : Nat) : FoldSec :=
  let o := h.dir + 16 * k
  { idx := k, type := leAt img o 2, off := leAt img (o + 4) 4, len := leAt img (o + 8) 4, crc := leAt img (o + 12) 4,
    body := slice img (leAt img (o + 4) 4) (leAt img (o + 8) 4) }

/-- The bytes of an image that have been read hold the section, or the whole image has been read. -/
def FoldSec.has (s : FoldSec) (img : List Byte) (total : Nat) : Bool :=
  decide (total ≤ img.length) || decide (s.off + s.len ≤ img.length)

def up8 (n : Nat) : Nat := (n + 7) / 8 * 8

/-- The length that Table 6.3 gives a section of a listed type. -/
def secLen (s : FoldSec) : Option Nat :=
  let n := leAt s.body 0 4
  match s.type with
  | 0x01 => some 64
  | 0x02 => some (up8 (8 + 2 * n))
  | 0x03 => some (8 + 32 * leAt s.body 1 1)
  | 0x04 => some (8 + 24 * n)
  | 0x05 => some (up8 (8 + 32 * n + 2 * ((List.range (min n (s.body.length / 32))).foldl (fun a i => a + leAt s.body (8 + 32 * i + 2) 2) 0)))
  | 0x06 => some (8 + 16 * n)
  | 0x07 => some (8 + 40 * n)
  | 0x08 => some 1536
  | 0x10 => some 2160
  | 0x20 => some (8 + 16 * n)
  | 0x30 => some (16 + leAt s.body 8 4)
  | _ => none

/-- The key by which Table 6.3 counts a section: its type, and in a full fold the flock of a FLOCK section. -/
def secKey (full : Bool) (s : FoldSec) : Nat × Nat := (s.type, if full && s.type == 0x10 then leAt s.body 0 2 else 0)

/-- The errors of one directory entry; `after` is where the preceding section ends, `before` the sections before it. The length and
the CRC of a section are checked when the section `has` been read. -/
def entryErrs (h : FoldHeader) (before : List FoldSec) (after : Nat) (s : FoldSec) (has : Bool) : List FErr :=
  let o := h.dir + 16 * s.idx
  let notPartial := !h.full && (secLen s).isSome && !([0x01, 0x10, 0x20, 0x30].contains s.type)
  need (secLen s).isSome o s.idx 0x06 ++
  need (!notPartial) o s.idx 0x09 ++
  need (s.type == 0x30 || notPartial || !before.any fun t => secKey h.full t == secKey h.full s) o s.idx 0x08 ++
  need (decide (after ≤ s.off) && s.off % 64 == 0 && decide (s.off + s.len ≤ h.total)) (o + 4) s.idx 0x06 ++
  need (!has || secLen s == some s.len || (secLen s).isNone) (o + 8) s.idx 0x06 ++
  need (!has || crc32c s.body == s.crc) (o + 12) s.idx 0x07

/-- The errors of the directory entries in order, with their reserved bytes. -/
def entriesErrs (img : List Byte) (h : FoldHeader) : List FoldSec → Nat → List FoldSec → List FErr
  | _, _, [] => []
  | before, after, s :: r =>
    entryErrs h before after s (s.has img h.total) ++ needZero img (h.dir + 16 * s.idx + 2) 2 0 s.idx 0x06 ++
      entriesErrs img h (before ++ [s]) (max after (s.off + s.len)) r

/-- The bytes of the image that belong to no part are zero (R236). -/
def gapErrs (img : List Byte) (total : Nat) : Nat → List FoldSec → List FErr
  | at', [] => needZero img at' (total - at') 0 noSec 0x06
  | at', s :: r => needZero img at' (s.off - at') 0 noSec 0x06 ++ gapErrs img total (max at' (s.off + s.len)) r

/-- The sections that Table 6.3 requires; the lowest missing TYPE is reported (R264). -/
def missingErrs (h : FoldHeader) (ss : List FoldSec) : List FErr :=
  ((if h.full then [0x01, 0x02, 0x03, 0x04] else [0x01, 0x10]).map fun t =>
    need (ss.any fun s => s.type == t) h.dirEnd h.count 0x08).flatten

/-! ### Sections -/

/-- The first section of a type. -/
def secOf (ss : List FoldSec) (t : Nat) : Option FoldSec := ss.find? fun s => s.type == t

/-- A size limit of the latency-optimal algorithms: 0, or a multiple of 64 from 64 to 16 MiB. -/
def thresholdOk (t : Nat) : Bool := t == 0 || (t % 64 == 0 && decide (t ≤ 2 ^ 24))

/-- The four compared fields of a DEVICE section: DEVICE, RANK, MEM_MODE, THRESHOLD (R240). -/
def deviceFields (b : List Byte) : Nat × Nat × Nat × Nat := (leAt b 0 2, leAt b 2 2, leAt b 4 1, leAt b 8 4)

/-- DEVICE (R240); `loaded` are the fields that a partial fold must equal (R268). -/
def deviceErrs (s : FoldSec) (loaded : Option (Nat × Nat × Nat × Nat)) : List FErr :=
  let b := s.body
  let o := s.off
  let (d, r, m, t) := deviceFields b
  let same (f : Nat × Nat × Nat × Nat → Nat) (v : Nat) : Bool := match loaded with
    | some x => f x == v
    | none => true
  need (decide (d < 2 ^ 14)) o s.idx 0x0A ++ need (same (·.1) d) o s.idx 0x0E ++
  need (decide (r < 2 ^ 14)) (o + 2) s.idx 0x0A ++ need (same (·.2.1) r) (o + 2) s.idx 0x0E ++
  need (decide (m < 2)) (o + 4) s.idx 0x0A ++ need (same (·.2.2.1) m) (o + 4) s.idx 0x0E ++
  needZero b 5 3 o s.idx 0x0A ++
  need (thresholdOk t) (o + 8) s.idx 0x0A ++ need (same (·.2.2.2) t) (o + 8) s.idx 0x0E ++
  needZero b 12 52 o s.idx 0x0A

/-- The entries of a RANK_TABLE section. -/
def rankEntries (b : List Byte) : List Nat := (List.range (min (leAt b 0 4) 16384)).map fun r => leAt b (8 + 2 * r) 2

/-- Errors at entries that repeat an earlier one or break a bound. -/
def distinctErrs (ok : Nat → Bool) (off step sec code : Nat) : List Nat → List Nat → List FErr
  | _, [] => []
  | seen, x :: r =>
    need (ok x && !seen.contains x) off sec code ++ distinctErrs ok (off + step) step sec code (x :: seen) r

/-- RANK_TABLE (R241). -/
def rankErrs (s : FoldSec) (device rank : Nat) : List FErr :=
  let n := leAt s.body 0 4
  let es := rankEntries s.body
  need (decide (1 ≤ n) && decide (n ≤ 16384) && decide (rank < n)) s.off s.idx 0x0A ++
  needZero s.body 4 4 s.off s.idx 0x0A ++
  distinctErrs (fun x => decide (x < 2 ^ 14)) (s.off + 8) 2 s.idx 0x0A [] es ++
  need (decide (n ≤ rank) || es[rank]? == some device) (s.off + 8 + 2 * rank) s.idx 0x0A ++
  needZero s.body (8 + 2 * n) (s.len - (8 + 2 * n)) s.off s.idx 0x0A

/-- The number of set bits of a device-port mask. -/
def popcount (m : Nat) : Nat := (List.range 64).foldl (fun a i => a + (bit m i).toNat) 0

/-- The dimensions of a TORUS section. -/
def torusDims (b : List Byte) : List TorusDim :=
  (List.range (leAt b 1 1)).map fun d =>
    let o := 8 + 32 * d
    { size := leAt b o 2, wrap := leAt b (o + 2) 1 == 1, coord := leAt b (o + 4) 2, plus := leAt b (o + 8) 8,
      minus := leAt b (o + 16) 8 }

/-- TORUS (R242, R243); `used` are the ports of the fields before, `prod` the product of the sizes before. -/
def torusDimErrs (s : FoldSec) (d used prod : Nat) : Nat → List FErr
  | 0 => []
  | n + 1 =>
    let o := 8 + 32 * d
    let size := leAt s.body o 2
    let plus := leAt s.body (o + 8) 8
    let minus := leAt s.body (o + 16) 8
    let ports (m u : Nat) : Bool := decide (1 ≤ popcount m) && decide (popcount m ≤ 16) && (m &&& u) == 0
    need (decide (2 ≤ size) && decide (size * prod ≤ 16384)) (s.off + o) s.idx 0x0A ++
    need (decide (leAt s.body (o + 2) 1 < 2)) (s.off + o + 2) s.idx 0x0A ++
    needZero s.body (o + 3) 1 s.off s.idx 0x0A ++
    need (decide (leAt s.body (o + 4) 2 < size)) (s.off + o + 4) s.idx 0x0A ++
    needZero s.body (o + 6) 2 s.off s.idx 0x0A ++
    need (ports plus used) (s.off + o + 8) s.idx 0x0A ++
    need (ports minus (used ||| plus)) (s.off + o + 16) s.idx 0x0A ++
    needZero s.body (o + 24) 8 s.off s.idx 0x0A ++
    torusDimErrs s (d + 1) (used ||| plus ||| minus) (size * prod) n

def torusErrs (s : FoldSec) : List FErr :=
  let top := leAt s.body 0 1
  let nd := leAt s.body 1 1
  need (decide (top < 2)) s.off s.idx 0x0A ++
  need (if top = 0 then decide (1 ≤ nd) && decide (nd ≤ 4) else nd == 0) (s.off + 1) s.idx 0x0A ++
  needZero s.body 2 6 s.off s.idx 0x0A ++ torusDimErrs s 0 0 1 (min nd 4)

/-- The entries of a ROUTES section. -/
def routeEntries (b : List Byte) : List Route :=
  (List.range (min (leAt b 0 4) 4096)).map fun i =>
    let o := 8 + 24 * i
    { first := leAt b o 2, last := leAt b (o + 2) 2, minPorts := leAt b (o + 8) 8, esc := leAt b (o + 16) 1 }

/-- The errors of the ROUTES entries from the one at place `i` on; `prev` is one more than the last device so far. -/
def routeEntryErrs (s : FoldSec) (device : Nat) : Nat → Nat → List Route → List FErr
  | _, _, [] => []
  | i, prev, r :: rest =>
    let o := 8 + 24 * i
    need (decide (prev ≤ r.first) && !(decide (r.first ≤ device) && decide (device ≤ r.last))) (s.off + o) s.idx 0x0A ++
    need (decide (r.first ≤ r.last)) (s.off + o + 2) s.idx 0x0A ++
    needZero s.body (o + 4) 4 s.off s.idx 0x0A ++
    need (r.minPorts != 0) (s.off + o + 8) s.idx 0x0A ++
    need (decide (r.esc < 64)) (s.off + o + 16) s.idx 0x0A ++
    needZero s.body (o + 17) 7 s.off s.idx 0x0A ++
    routeEntryErrs s device (i + 1) (r.last + 1) rest

/-- Whether a device number lies in a range (R244). -/
def Route.covers (r : Route) (d : Nat) : Bool := decide (r.first ≤ d) && decide (d ≤ r.last)

/-- ROUTES (R244). -/
def routesErrs (s : FoldSec) (device : Nat) (ranks : List Nat) : List FErr :=
  let n := leAt s.body 0 4
  let rs := routeEntries s.body
  need (decide (1 ≤ n) && decide (n ≤ 4096) && ranks.all fun d => d == device || rs.any fun r => r.covers d)
    s.off s.idx 0x0A ++
  needZero s.body 4 4 s.off s.idx 0x0A ++ routeEntryErrs s device 0 0 rs

/-- The entries of a KILN_RES section. -/
def kilnEntries (b : List Byte) : List KilnRes :=
  (List.range (min (leAt b 0 4) 64)).map fun i =>
    let o := 8 + 16 * i
    { index := leAt b o 1, slice := leAt b (o + 1) 1, bytes := leAt b (o + 4) 4, off := leAt b (o + 8) 4 }

def kilnEntryErrs (s : FoldSec) : Nat → List KilnRes → List KilnRes → List FErr
  | _, _, [] => []
  | i, before, r :: rest =>
    let o := s.off + 8 + 16 * i
    need (!before.any fun t => t.index == r.index) o s.idx 0x0A ++
    need (decide (r.slice < 12)) (o + 1) s.idx 0x0A ++
    need (r.bytes % 65536 == 0 && decide (65536 ≤ r.bytes)) (o + 4) s.idx 0x0A ++
    need (r.off % 65536 == 0) (o + 8) s.idx 0x0A ++
    need (decide (r.off + r.bytes ≤ 2 ^ 22) && !before.any fun t =>
      t.slice == r.slice && decide (r.off < t.off + t.bytes) && decide (t.off < r.off + r.bytes)) (o + 8) s.idx 0x0D ++
    kilnEntryErrs s (i + 1) (r :: before) rest

/-- KILN_RES (R246). -/
def kilnErrs (s : FoldSec) : List FErr :=
  let n := leAt s.body 0 4
  need (decide (1 ≤ n) && decide (n ≤ 64)) s.off s.idx 0x0A ++ needZero s.body 4 4 s.off s.idx 0x0A ++
    kilnEntryErrs s 0 [] (kilnEntries s.body)

/-- The reservations that an image holds. -/
def foldResvs (ss : List FoldSec) : List KilnRes := match secOf ss 0x06 with
  | some s => kilnEntries s.body
  | none => []

/-- The entries of a COLL_GROUPS section; a THRESHOLD of 0 takes the device's, whose 0 selects 256 KiB. -/
def groupEntries (b : List Byte) (threshold : Nat) : List Group :=
  let dev := if threshold = 0 then 2 ^ 18 else threshold
  (List.range (min (leAt b 0 4) 64)).map fun i =>
    let o := 8 + 32 * i
    let t := leAt b (o + 4) 4
    { num := leAt b o 1, resv := leAt b (o + 1) 1, limit := if t = 0 then dev else t, my := leAt b (o + 8) 2,
      quantum := leAt b (o + 16) 4,
      members := (List.range (leAt b (o + 2) 2)).map fun j => leAt b (leAt b (o + 12) 4 + 2 * j) 2 }

def groupEntryErrs (s : FoldSec) (rank count : Nat) (resvs : List KilnRes) : Nat → List Nat → List Group → List FErr
  | _, _, [] => []
  | i, nums, g :: rest =>
    let o := 8 + 32 * i
    let m := g.members.length
    let lo := leAt s.body (o + 12) 4
    need (decide (g.num < 64) && !nums.contains g.num) (s.off + o) s.idx 0x0A ++
    need (resvs.any fun r => r.index == g.resv) (s.off + o + 1) s.idx 0x0A ++
    need (decide (2 ≤ m) && decide (m ≤ 16384)) (s.off + o + 2) s.idx 0x0A ++
    need (thresholdOk (leAt s.body (o + 4) 4)) (s.off + o + 4) s.idx 0x0A ++
    need (decide (g.my < m)) (s.off + o + 8) s.idx 0x0A ++
    needZero s.body (o + 10) 2 s.off s.idx 0x0A ++
    need (lo % 2 == 0 && decide (8 + 32 * leAt s.body 0 4 ≤ lo) && decide (lo + 2 * m ≤ s.len)) (s.off + o + 12)
      s.idx 0x0A ++
    need (g.quantum % 64 == 0 && decide (64 ≤ g.quantum) && decide (g.quantum ≤ 65536)) (s.off + o + 16) s.idx 0x0A ++
    needZero s.body (o + 20) 12 s.off s.idx 0x0A ++
    distinctErrs (fun r => decide (r < count)) (s.off + lo) 2 s.idx 0x0A [] g.members ++
    need (g.members[g.my]? == some rank || decide (m ≤ g.my)) (s.off + lo + 2 * g.my) s.idx 0x0A ++
    groupEntryErrs s rank count resvs (i + 1) (g.num :: nums) rest

/-- COLL_GROUPS (R245, R518). -/
def groupsErrs (s : FoldSec) (rank count : Nat) (resvs : List KilnRes) : List FErr :=
  let n := leAt s.body 0 4
  need (decide (1 ≤ n) && decide (n ≤ 64)) s.off s.idx 0x0A ++ needZero s.body 4 4 s.off s.idx 0x0A ++
    groupEntryErrs s rank count resvs 0 [] (groupEntries s.body 0)

/-- The entries of a COH_WINDOWS section. -/
def windowEntries (b : List Byte) : List Window :=
  (List.range (min (leAt b 0 4) 16)).map fun i =>
    let o := 8 + 40 * i
    { base := leAt b o 8, len := leAt b (o + 8) 8,
      members := (List.range (min (leAt b (o + 16) 1) 8)).map fun j => leAt b (o + 18 + 2 * j) 2 }

def windowEntryErrs (s : FoldSec) (rank : Nat) : Nat → Nat → List Window → List Window → List FErr
  | _, _, _, [] => []
  | i, sum, before, w :: rest =>
    let o := 8 + 40 * i
    let m := leAt s.body (o + 16) 1
    need (w.base % 4096 == 0 && decide (w.base < 0x018000000000)) (s.off + o) s.idx 0x0A ++
    need (w.len % 4096 == 0 && decide (w.base + w.len ≤ 0x018000000000) && decide (sum + w.len ≤ 2 ^ 26) &&
      !before.any fun x => decide (w.base < x.base + x.len) && decide (x.base < w.base + w.len)) (s.off + o + 8) s.idx
      0x0A ++
    need (decide (1 ≤ m) && decide (m ≤ 8)) (s.off + o + 16) s.idx 0x0A ++
    needZero s.body (o + 17) 1 s.off s.idx 0x0A ++
    need (w.members.contains rank) (s.off + o + 18) s.idx 0x0A ++
    needZero s.body (o + 18 + 2 * min m 8) (22 - 2 * min m 8) s.off s.idx 0x0A ++
    windowEntryErrs s rank (i + 1) (sum + w.len) (w :: before) rest

/-- COH_WINDOWS (R247, R482). -/
def windowsErrs (s : FoldSec) (rank : Nat) : List FErr :=
  let n := leAt s.body 0 4
  need (decide (1 ≤ n) && decide (n ≤ 16)) s.off s.idx 0x0A ++ needZero s.body 4 4 s.off s.idx 0x0A ++
    windowEntryErrs s rank 0 0 [] (windowEntries s.body)

/-- The entries of a TALLY_CHANNELS section. -/
def chanEntries (b : List Byte) : List Chan :=
  (List.range 16).map fun i =>
    { enable := leAt b (96 * i) 1 == 1, group := leAt b (96 * i + 1) 1, flocks := leAt b (96 * i + 4) 84 }

/-- TALLY_CHANNELS (R248, R569). -/
def chansErrs (s : FoldSec) (groups : List Group) (resvs : List KilnRes) : List FErr :=
  ((List.range 16).map fun i =>
    let o := 96 * i
    let en := leAt s.body o 1
    let gr := groups.find? fun g => g.num == leAt s.body (o + 1) 1
    let big := match gr with
      | some g => resvs.any fun r => r.index == g.resv && decide (2 ^ 20 ≤ r.bytes)
      | none => true
    need (decide (en < 2)) (s.off + o) s.idx 0x0A ++
    need (en != 1 || gr.isSome) (s.off + o + 1) s.idx 0x0A ++
    need (en != 1 || big) (s.off + o + 1) s.idx 0x0D ++
    needZero s.body (o + 2) 2 s.off s.idx 0x0A ++ needZero s.body (o + 88) 8 s.off s.idx 0x0A).flatten

/-- The usable physical cores of a flock in ascending order. -/
def State.usable (s : State) (f : Nat) : List Nat := (List.range 128).filter fun n => s.physGood f n

/-- FLOCK (R249, R251). -/
def flockErrs (st : State) (s : FoldSec) : List FErr :=
  let b := s.body
  let o := s.off
  let f := leAt b 0 2
  let map := bit (leAt b 2 1) 0
  let e (ok : Bool) (i : Nat) : List FErr := need ok (o + i) s.idx 0x0A
  let z (i n : Nat) : List FErr := needZero b i n o s.idx 0x0A
  e (decide (f < 672)) 0 ++ e (decide (leAt b 2 1 < 2)) 2 ++ z 3 13 ++
  (if map then
    ((List.range 120).map fun c => e (decide (leAt b (16 + c) 1 < 128)) (16 + c)).flatten ++
    distinctErrs (fun n => decide (128 ≤ n) || st.physGood f n) (o + 16) 1 s.idx 0x0C []
      ((List.range 120).map fun c => leAt b (16 + c) 1)
  else z 16 120 ++ need (decide (120 ≤ (st.usable f).length)) (o + 2) s.idx 0x0C) ++
  z 136 8 ++
  ((List.range 120).map fun c =>
    let q := 144 + 16 * c
    let r := leAt b q 4
    let n := leAt b (q + 4) 4
    e (r % 8 == 0) q ++ e (decide (1 ≤ n) && decide (r + 8 * n ≤ storeSize)) (q + 4) ++
    e (decide (leAt b (q + 8) 4 < n)) (q + 8) ++ z (q + 13) 3).flatten ++
  ((List.range 8).map fun p =>
    let q := 2064 + 8 * p
    e (decide (leAt b q 1 < 2)) q ++ e (decide (leAt b (q + 1) 1 < 120)) (q + 1) ++
    e (decide (leAt b (q + 2) 2 < 56)) (q + 2) ++ e (decide (leAt b (q + 4) 1 < 8)) (q + 4) ++ z (q + 5) 3).flatten ++
  ((List.range 8).map fun p =>
    let q := 2128 + 4 * p
    e (decide (leAt b q 1 < 2)) q ++ e (decide (leAt b (q + 1) 1 < 120)) (q + 1) ++ z (q + 2) 2).flatten

/-- The flocks of an image with their sections. -/
def flockSecs (ss : List FoldSec) : List (Nat × FoldSec) :=
  (ss.filter fun s => s.type == 0x10).map fun s => (leAt s.body 0 2, s)

/-- The enabled outbound ports of a FLOCK section of flock `f`: port, flock and inbound port of the far end. -/
def roadsOut (f : Nat) (b : List Byte) : List (Nat × Nat × Nat) :=
  ((List.range 8).filter fun p => leAt b (2064 + 8 * p) 1 == 1).map fun p =>
    (p, f / 56 * 56 + leAt b (2064 + 8 * p + 2) 2, leAt b (2064 + 8 * p + 4) 1)

/-- Roads of a full fold (R250). -/
def roadErrs (fs : List (Nat × FoldSec)) : List FErr :=
  let ends := (fs.map fun x => (roadsOut x.1 x.2.body).map fun r => (r.2.1, r.2.2)).flatten
  (fs.map fun x =>
    ((roadsOut x.1 x.2.body).map fun r =>
      let inOk := fs.any fun y => y.1 == r.2.1 && leAt y.2.body (2128 + 4 * r.2.2) 1 == 1
      need (inOk && (ends.filter (· == (r.2.1, r.2.2))).length == 1) (x.2.off + 2064 + 8 * r.1) x.2.idx 0x0B).flatten ++
    ((List.range 8).map fun q =>
      need (leAt x.2.body (2128 + 4 * q) 1 != 1 || ends.contains (x.1, q)) (x.2.off + 2128 + 4 * q) x.2.idx
        0x0B).flatten).flatten

/-- Roads of a partial fold of flock `f` (R269): a road to or from another flock stays as the loaded configuration has
it, and the roads inside the flock are consistent. -/
def partialRoadErrs (st : State) (f : Nat) (s : FoldSec) : List FErr :=
  let old := (st.flock f).conf
  let outs (b : List Byte) (p : Nat) : Option (Nat × Nat) :=
    ((roadsOut f b).find? fun r => r.1 == p).map fun r => r.2
  let far (x : Option (Nat × Nat)) : Bool := match x with
    | some (g, _) => g != f
    | none => false
  let inner := ((roadsOut f s.body).filter fun r => r.2.1 == f).map fun r => r.2.2
  ((List.range 8).map fun p =>
    need (!(far (outs old p) || far (outs s.body p)) || outs old p == outs s.body p) (s.off + 2064 + 8 * p) s.idx
      0x0B).flatten ++
  ((List.range 8).map fun q =>
    let fromFar := match (List.range 448).findSome? fun n =>
        let g := f / 56 * 56 + n / 8
        if g != f && (roadsOut g (st.flock g).conf).contains (n % 8, f, q) then some () else none with
      | some _ => true
      | none => false
    let feeds := (inner.filter (· == q)).length + fromFar.toNat
    need (if leAt s.body (2128 + 4 * q) 1 = 1 then feeds == 1 else feeds == 0) (s.off + 2128 + 4 * q) s.idx
      0x0B).flatten

/-- REG_PRESET entries: address and value. -/
def presetEntries (b : List Byte) : List (Nat × Nat) :=
  (List.range (min (leAt b 0 4) 1024)).map fun i => (leAt b (8 + 16 * i) 8, leAt b (16 + 16 * i) 8)

/-- REG_PRESET (R253, R776); in a partial fold every address lies in the FLK_ block of the target (R268). -/
def presetErrs (s : FoldSec) (target : Option Nat) : List FErr :=
  let n := leAt s.body 0 4
  need (decide (1 ≤ n) && decide (n ≤ 1024)) s.off s.idx 0x0A ++ needZero s.body 4 4 s.off s.idx 0x0A ++
  ((presetEntries s.body).zipIdx.map fun p =>
    let o := s.off + 8 + 16 * p.2
    let inTarget := match target with
      | some f => match windowOf p.1.1 with
        | some (.flk, g, _) => g == f
        | _ => false
      | none => true
    let foldable := match regAt p.1.1 with
      | .reg r _ _ => r.row.fold
      | _ => false
    let narrow := match regAt p.1.1 with
      | .reg r _ _ => r.row.width == 64 || decide (p.1.2 < 2 ^ 32)
      | _ => true
    need inTarget o s.idx 0x09 ++ need foldable o s.idx 0x0A ++ need narrow (o + 12) s.idx 0x0A).flatten

/-- Whether two bale ranges share a physical bale: bales of a DATA section under the image's memory mode and of the
staged image under the mode in force (R262). -/
def sharesBale (newInter oldInter : Bool) (dest len src total : Nat) : Bool :=
  let staged := (List.range ((src + total + 4095) / 4096 - src / 4096)).map fun i =>
    stackPlace oldInter ((src / 4096 + i) * 4096)
  (List.range (len / 4096)).any fun i => staged.contains (stackPlace newInter (dest + 4096 * i))

/-- DATA (R254, R262, R268). -/
def dataErrs (st : State) (s : FoldSec) (h : FoldHeader) (inter : Bool) (src : Nat) : List FErr :=
  let dest := leAt s.body 0 8
  let len := leAt s.body 8 4
  let e (ok : Bool) (i code : Nat) : List FErr := need ok (s.off + i) s.idx code
  let small (f off size : Nat) : List FErr :=
    e (h.full || f == h.target) 0 0x09 ++ e (off % 4 == 0) 0 0x0A ++
    e (len % 4 == 0 && decide (off + len ≤ size)) 8 0x0A ++ e (leAt s.body 12 4 == 0) 12 0x0A
  match locOf dest with
  | .store f off => small f off storeSize
  | .scratch f _ off => small f off scratchSize
  | .stacked a =>
    e h.full 0 0x09 ++ e (a % 4096 == 0) 0 0x0A ++
    e (len % 4096 == 0 && decide (a + len ≤ 0x018000000000)) 8 0x0A ++
    e (!(h.full && sharesBale inter st.inter dest len src h.total)) 0 0x0D
  | _ => e false 0 0x0A

/-- Every error of the check phase (R258 step 2). `src` is the address of the staged image, and `img` holds the bytes of it that could
be read: a check that needs bytes beyond them is not made. -/
def checkErrs (st : State) (img : List Byte) (src : Nat) (loaded : Option (Nat × Nat × Nat × Nat)) : List FErr :=
  let h := parseHeader img
  let whole := decide (h.total ≤ img.length)
  let ss := ((List.range h.count).filter fun k => whole || decide (h.dir + 16 * k + 16 ≤ img.length)).map (readSec img h)
  let tables := ss.all fun s => s.has img h.total || s.type ≥ 0x10
  let dev := match secOf ss 0x01 with
    | some s => deviceFields s.body
    | none => (0, 0, 0, 0)
  let ranks := match secOf ss 0x02 with
    | some s => rankEntries s.body
    | none => []
  let groups := match secOf ss 0x05 with
    | some s => groupEntries s.body 0
    | none => []
  let resvs := foldResvs ss
  need (h.full || loaded.isSome) 16 noSec 0x09 ++
  need (h.full || loaded.isNone || h.jobTag == st.fld .drvFoldId 0 0 63 32) 16 noSec 0x0E ++
  need (!whole || decide (Config.sha384 (slice img h.dir (h.total - h.dir)) =
    BitVec.ofNat 384 (h.digest.foldl (fun a b => a * 256 + b.toNat) 0))) 32 noSec 0x05 ++
  need (decide (h.dirEnd ≤ h.total)) 8 noSec 0x06 ++
  entriesErrs img h [] h.dirEnd ss ++
  needZero img (128 + h.sigLen) (h.dir - (128 + h.sigLen)) 0 noSec 0x06 ++
  gapErrs img h.total h.dirEnd ss ++ (if whole || decide (h.dirEnd ≤ img.length) then missingErrs h ss else []) ++
  (ss.map fun s =>
    if !(tables && s.has img h.total) then []
    else match s.type with
    | 0x01 => deviceErrs s (if h.full then none else loaded)
    | 0x02 => rankErrs s dev.1 dev.2.1
    | 0x03 => torusErrs s
    | 0x04 => routesErrs s dev.1 ranks
    | 0x05 => groupsErrs s dev.2.1 ranks.length resvs
    | 0x06 => kilnErrs s
    | 0x07 => windowsErrs s dev.2.1
    | 0x08 => chansErrs s groups resvs
    | 0x10 => need (h.full || leAt s.body 0 2 == h.target) s.off s.idx 0x09 ++ flockErrs st s
    | 0x20 => presetErrs s (if h.full then none else some h.target)
    | 0x30 => dataErrs st s h (dev.2.2.1 == 1) src
    | _ => []).flatten ++
  (if !whole then []
   else if h.full then roadErrs (flockSecs ss)
   else match (flockSecs ss).find? fun x => x.1 == h.target with
    | some x => partialRoadErrs st h.target x.2
    | none => [])

/-- The sections of an image; bodies as far as the bytes go. -/
def foldSecs (img : List Byte) : List FoldSec :=
  let h := parseHeader img
  (List.range h.count).map (readSec img h)

/-- What a full fold gives the device (R259 step 3): its header bytes and its sections. -/
def foldOf (hdr : List Byte) (ss : List FoldSec) : Fold :=
  let h := parseHeader hdr
  let body (t : Nat) : List Byte := match secOf ss t with
    | some s => s.body
    | none => []
  let (d, r, _, t) := deviceFields (body 0x01)
  { header := slice hdr 0 128, device := d, rank := r, threshold := t, jobTag := h.jobTag, ranks := rankEntries (body 0x02),
    dims := torusDims (body 0x03), routes := routeEntries (body 0x04), groups := groupEntries (body 0x05) t,
    resvs := kilnEntries (body 0x06), windows := windowEntries (body 0x07), chans := chanEntries (body 0x08) }

end Sys2Proof.Machine
end

