-- ==== Sys2Proof/Machine/CoreCtl.lean ====
section
/-! DEFINITION. Remote instructions (R221 to R225) and the restart of halted and stopped cores (R168, R169, R227, R233,
R234, R689). -/

namespace Sys2Proof.Machine

/-! ### RATOM and RSIG -/

/-- The result and status of a RATOM or RSIG reach the core's registers together (R222). `v` is the old value of a RATOM
that ended with OK. -/
def Core.remoteDone (k : Core) (id st v : Nat) : Core :=
  match k.remotes.find? fun m => m.id == id with
  | none => k
  | some m =>
    let k := { k with remotes := k.remotes.filter fun m => m.id != id }
    let k := if m.atom then k.setPair m.res (if st = stOk then v else 0) else k
    k.setS m.sreg st

/-- A RATOM or RSIG ends, with its outcome record when a shadow follows (R706). -/
def State.remoteDone (s : State) (f c id st v : Nat) : State :=
  if (s.core f c).remotes.any fun m => m.id == id then
    (s.modCore f c fun k => k.remoteDone id st v).outcome (coreId f c) 1 (id % 2 ^ 16) st (if st = stOk then v else 0)
  else s

/-- The issue of a RATOM or RSIG with fabric address `a`: at most eight are under way (R225), and a misaligned address or a
rank outside the table ends it at once with ADDRESS_FAULT (R224). -/
def State.issueRemote (s : State) (f c a : Nat) (m : Remote) (r : NiReq) : State :=
  if 8 ≤ (s.core f c).remotes.length then s
  else
    let s := (s.modCore f c fun k => { k with remotes := k.remotes ++ [m], nextId := k.nextId + 1 }).advance f c
    if a % 8 ≠ 0 ∨ (s.deviceOf (fabDest a)).isNone then s.remoteDone f c m.id stAddressFault 0 else s.niAsk r

/-- RATOM (R221): one ATOMIC packet with the operands of Table 11.2. -/
def execRatom (f c : Nat) (w : Word64) (s : State) : Out :=
  issue 0x61 f c w s fun s =>
    let k := s.core f c
    let a := k.pair (iB w)
    let op := bits (iFn w) 3 0
    s.issueRemote f c a { id := k.nextId, atom := true, res := iA w, sreg := bits (iFn w) 8 4 }
      { share := f / 56, dest := fabDest a, byRank := true, op := 0x03, flag := false, space := fabSpace a,
        offset := fabOff a, w4 := BitVec.ofNat 64 (k.pair (iC w)),
        w5 := if op = 2 then BitVec.ofNat 64 (k.pair (iC w + 2)) else 0, w6 := BitVec.ofNat 64 op, pay := .bytes [],
        owner := .remote f c k.nextId, after := k.pushes }

/-- The payload of a SIGNAL: a signed increment of 48 bits in 8 bytes (R503). -/
def signalPayload (i : Int) : List Byte := leBytes 8 (wrap 48 i)

/-- RSIG (R223): one SIGNAL packet, flagged when FN bit 0 is set. -/
def execRsig (f c : Nat) (w : Word64) (s : State) : Out :=
  issue 0x62 f c w s fun s =>
    let k := s.core f c
    let a := k.pair (iB w)
    s.issueRemote f c a { id := k.nextId, atom := false, res := 0, sreg := bits (iFn w) 8 4 }
      { share := f / 56, dest := fabDest a, byRank := true, op := 0x04, flag := bit (iFn w) 0, space := fabSpace a,
        offset := fabOff a, w4 := 0, w5 := 0, w6 := 0, pay := .bytes (signalPayload (sext 32 (k.s (iC w)))),
        owner := .remote f c k.nextId, after := k.pushes }

/-! ### Restart -/

/-- The physical core that serves a logical core is retired (R689). -/
def State.coreRetired (s : State) (f c : Nat) : Bool := !s.physGood f ((s.flock f).phys c)

/-- A write of 1 to a core's halt or done bit (R169, R234): a set bit clears and the core restarts once it can; while its
physical core is retired the write has no effect. -/
def State.restartBit (s : State) (lo hi : Reg) (f c : Nat) : State :=
  if s.cbit lo hi f c && !s.coreRetired f c then
    (s.setCbit lo hi f c false).modCore f c fun k => { k with run := .restarting }
  else s

/-- FLK_CORE_HALT_WRITE (R169). -/
def execFlkCoreHaltWrite (f c : Nat) (s : State) : Out :=
  onCore f c s fun s => s.restartBit .flkCoreHaltLo .flkCoreHaltHi f c

/-- FLK_CORE_DONE_WRITE (R234). -/
def execFlkCoreDoneWrite (f c : Nat) (s : State) : Out :=
  onCore f c s fun s => s.restartBit .flkCoreDoneLo .flkCoreDoneHi f c

/-- A core at its entry point with the registers of Table 4.1; tallies and tiles stay (R169). -/
def Core.started (k : Core) (entry : Nat) : Core :=
  { Core.fresh with
    tally := k.tally, active := k.active, standby := k.standby, loaded := k.loaded, pc := entry, run := .running }

/-- A core starts again: what is still under way of its earlier descriptors, which have completed, is no longer its (R513). -/
def State.forgetCore (s : State) (f c : Nat) : State :=
  let mine (o : TagOwner) : TagOwner := if o.core = some (f, c) then .gone else o
  let s := s.setNi { s.ni with
    waiting := s.ni.waiting.map fun r => { r with owner := mine r.owner }
    tags := s.ni.tags.map fun t => { t with req := { t.req with owner := mine t.req.owner } } }
  s.setFar (s.far.map fun r => if r.f = f ∧ r.c = c then { r with f := 0xFFFE } else r)

/-- CORE_RESTART (R169, R227): a core whose halt or done bit was written starts again once it has no descriptor in flight,
no array instruction running, and no RATOM or RSIG without its status. -/
def execCoreRestart (f c : Nat) (s : State) : Out :=
  onCore f c s fun s =>
    let k := s.core f c
    if k.run == .restarting && k.dma.isEmpty && k.runs.isEmpty && k.remotes.isEmpty && !s.halted f c && !s.doneBit f c then
      (s.forgetCore f c).modCore f c fun k => k.started ((s.flock f).entry c)
    else s

end Sys2Proof.Machine
end

