-- ==== Sys2Proof/Machine/KilnSched.lean ====
section
/-! DEFINITION. The kiln's algorithms without its packets: schedules (R533, Tables 13.4, 13.5, 14.3), combination (R545,
R546, Table 13.8a), wide partials, and a chunk's way through its schedule (R538, R539). -/

namespace Sys2Proof.Machine

/-! ### Schedules -/

/-- The rounds of a tree over `m` members: ceil(log2 m). -/
def rounds (m : Nat) : Nat := if m ≤ 1 then 0 else Nat.log2 (m - 1) + 1

def isPow2 (m : Nat) : Bool := m == 2 ^ Nat.log2 m

/-- A step without traffic. -/
def kIdle (phase step : Nat) : KStep :=
  { phase := phase, step := step, dest := none, sLo := 0, sLen := 0, src := none, rLo := 0, rLen := 0, comb := 0 }

/-- `i` with bit `r` inverted. -/
def flipBit (i r : Nat) : Nat := if bit i r then i - 2 ^ r else i + 2 ^ r

/-- Recursive doubling of a reduction over `n` elements: own + received. -/
def doublingReduce (m i n : Nat) : List KStep :=
  (List.range (rounds m)).map fun r =>
    { kIdle 0 r with dest := some (flipBit i r), sLen := n, src := some (flipBit i r), rLen := n, comb := 1 }

/-- Recursive doubling of an all-gather over pieces of `p` elements. -/
def doublingGather (m i p : Nat) : List KStep :=
  (List.range (rounds m)).map fun r =>
    let o := flipBit i r
    { kIdle 1 r with dest := some o, sLo := i / 2 ^ r * 2 ^ r * p, sLen := 2 ^ r * p, src := some o,
                     rLo := o / 2 ^ r * 2 ^ r * p, rLen := 2 ^ r * p }

/-- The member of relative index `k` under a root. -/
def fromRel (m root k : Nat) : Nat := (k + root) % m

/-- The relative index of member `i` under a root. -/
def toRel (m root i : Nat) : Nat := (i + m - root) % m

/-- Binomial reduce to `root` over `n` elements: own partial + received. -/
def binomialReduce (m root i n : Nat) : List KStep :=
  let k := toRel m root i
  ((List.range (rounds m)).filter fun r => k % 2 ^ r == 0).filterMap fun r =>
    if bit k r then some { kIdle 0 r with dest := some (fromRel m root (k - 2 ^ r)), sLen := n }
    else if k % 2 ^ (r + 1) = 0 ∧ k + 2 ^ r < m then
      some { kIdle 0 r with src := some (fromRel m root (k + 2 ^ r)), rLen := n, comb := 1 }
    else none

/-- Binomial broadcast from `root` over `n` elements. -/
def binomialBroadcast (m root i n : Nat) : List KStep :=
  let k := toRel m root i
  (List.range (rounds m)).reverse.filterMap fun r =>
    if k % 2 ^ (r + 1) = 0 ∧ k + 2 ^ r < m then
      some { kIdle 1 r with dest := some (fromRel m root (k + 2 ^ r)), sLen := n }
    else if k % 2 ^ (r + 1) = 2 ^ r then
      some { kIdle 1 r with src := some (fromRel m root (k - 2 ^ r)), rLen := n }
    else none

/-- The first element of ring segment `j` of a chunk of `n` elements (R536). -/
def segLo (m n j : Nat) : Nat := j * (n / 16) / m * 16
/-- The elements of ring segment `j`. -/
def segLen (m n j : Nat) : Nat := segLo m n (j + 1) - segLo m n j

/-- A ring step with the segments it moves; an empty segment moves nothing. `back` is the verification direction, in which
`i - 1` stands for `i + 1` and segment numbers run the other way. -/
def ringStep (back : Bool) (phase comb m i n r a b : Nat) : KStep :=
  let up := (i + 1) % m
  let down := (i + m - 1) % m
  let x := if back then (i + r + a) % m else (i + 2 * m - r - a) % m
  let y := if back then (i + r + b) % m else (i + 2 * m - r - b) % m
  { phase := phase, step := r,
    dest := if segLen m n x = 0 then none else some (if back then down else up), sLo := segLo m n x, sLen := segLen m n x,
    src := if segLen m n y = 0 then none else some (if back then up else down), rLo := segLo m n y, rLen := segLen m n y,
    comb := comb }

/-- Ring reduce-scatter: received + own. -/
def ringReduce (back : Bool) (m i n : Nat) : List KStep :=
  (List.range (m - 1)).map fun r => ringStep back 0 2 m i n r 1 2

/-- Ring all-gather. -/
def ringGather (back : Bool) (m i n : Nat) : List KStep :=
  (List.range (m - 1)).map fun r => ringStep back 1 0 m i n r 0 1

/-- The chain from `root`: a block is received and then forwarded. -/
def chain (m root i n : Nat) : List KStep :=
  let k := toRel m root i
  (if k = 0 then [] else [{ kIdle 1 0 with src := some (fromRel m root (k - 1)), rLen := n }]) ++
    (if k + 1 < m then [{ kIdle 1 0 with dest := some (fromRel m root (k + 1)), sLen := n }] else [])

/-- The schedule of OP (Table 13.1; 6 a bucket) and ALG for member `i` of `m` over `n` elements (Table 13.4), with the range
whose reduced values this member forms; `ver` takes the verification path of Table 14.3. -/
def kSchedule (op alg m i root n : Nat) (ver : Bool) : List KStep × Nat × Nat :=
  let reduceAll : List KStep × Nat × Nat :=
    if ver then
      (binomialReduce m (m - 1) i n ++ binomialBroadcast m (m - 1) i n, 0, if i = m - 1 then n else 0)
    else if isPow2 m then (doublingReduce m i n, 0, n)
    else (binomialReduce m 0 i n ++ binomialBroadcast m 0 i n, 0, if i = 0 then n else 0)
  match op, alg with
  | 1, 1 => (ringReduce ver m i n ++ ringGather ver m i n, segLo m n i, segLen m n i)
  | 6, 1 => (ringReduce ver m i n ++ ringGather ver m i n, segLo m n i, segLen m n i)
  | 2, 1 => (ringReduce false m i n, segLo m n i, segLen m n i)
  | 3, 0 => (if isPow2 m then doublingGather m i (n / m) else ringGather false m i n, 0, 0)
  | 3, _ => (ringGather false m i n, 0, 0)
  | 4, 0 => (binomialBroadcast m root i n, 0, 0)
  | 4, _ => (chain m root i n, 0, 0)
  | _, _ => reduceAll

/-! ### Elements -/

/-- The bytes of an element of a TYPE: FP32 and INT32 take 4, fabric integers 8. -/
def kElem (ty : Nat) : Nat := if ty = 0x11 then 8 else 4

/-- The marker of a wide partial (R539). -/
def wideMarker : Nat := 2 ^ 127

/-- A fabric integer as a wide partial. -/
def toWide (x : Nat) : Nat := if x = fabMarker then wideMarker else wrap 128 (sext 64 x)

/-- A wide partial as a fabric integer, and whether its sum lies outside the range of R69. -/
def fromWide (x : Nat) : Nat × Bool :=
  if x = wideMarker then (fabMarker, false)
  else if (sext 128 x).natAbs < 2 ^ 63 then (wrap 64 (sext 128 x), false) else (fabMarker, true)

/-- One combination of two elements in operand order (Table 13.8a). -/
def kCombine (ty redop : Nat) (wide : Bool) (a b : Nat) : Nat :=
  if ty = 0x11 then
    if wide then (if a = wideMarker ∨ b = wideMarker then wideMarker else wrap 128 (sext 128 a + sext 128 b))
    else if a = fabMarker ∨ b = fabMarker then fabMarker
    else if redop = 1 then (if sext 64 a < sext 64 b then b else a)
    else (if sext 64 b < sext 64 a then b else a)
  else if ty = 0x10 then
    if redop = 0 then (a + b) % 2 ^ 32
    else if redop = 1 then (if sext 32 a < sext 32 b then b else a)
    else (if sext 32 b < sext 32 a then b else a)
  else if redop = 0 then fAdd a b else if redop = 1 then fMax a b else fMin a b

/-! ### A chunk in its schedule -/

/-- The bytes of an element on the wire now (R534). -/
def KChunk.width (k : KChunk) (ty : Nat) : Nat := if k.wide then 16 else kElem ty

/-- The current step. -/
def KChunk.cur (k : KChunk) : Option KStep := k.sched[k.place]?

/-- The bytes that a step of the schedule carries: wide partials in the reduce phase of a fabric-integer sum, else elements
in their own width. -/
def KChunk.stepWidth (sumWide : Bool) (ty : Nat) (x : KStep) : Nat := if sumWide && x.phase == 0 then 16 else kElem ty

/-- The bytes of a step's received data. -/
def KStep.rBytes (x : KStep) (sumWide : Bool) (ty : Nat) : Nat := x.rLen * KChunk.stepWidth sumWide ty x

/-- The bytes in a slot. -/
def KChunk.inSlot (k : KChunk) (p : Nat) : Nat :=
  (k.slots.filter fun x => x.at' == p).foldl (fun n x => n + x.data.length) 0

/-- The elements that a full slot holds, in OFFSET order. -/
def KChunk.slotElems (k : KChunk) (p w n : Nat) : List Nat :=
  (List.range n).map fun i =>
    match k.slots.find? fun x => x.at' == p && decide (x.off ≤ i * w) && decide (i * w < x.off + x.data.length) with
    | some x => leAt x.data (i * w - x.off) w
    | none => 0

/-- The elements become fabric integers once the reduce phase is over; sums out of range are counted in this member's
range, and the partials that hold the marker are known to be no overflow (R71). -/
def KChunk.finalise (k : KChunk) : KChunk :=
  if !k.wide then k
  else
    let own (i : Nat) : Bool := decide (k.ownLo ≤ i) && decide (i < k.ownLo + k.ownN)
    let xs := k.elems.map fromWide
    let ovf := ((xs.zipIdx).filter fun x => x.1.2 && own x.2).length
    let marks := ((k.elems.zipIdx).filter fun x => x.1 == wideMarker).map fun x => x.2
    { k with elems := xs.map fun x => x.1, wide := false, ovf := ovf, marks := marks }

/-- The received elements of the current step enter the chunk. -/
def KChunk.absorb (k : KChunk) (ty redop : Nat) (x : KStep) : KChunk :=
  let new := k.slotElems k.place (k.width ty) x.rLen
  let comb (i : Nat) (own : Nat) : Nat :=
    let r := (new[i - x.rLo]?).getD 0
    if x.comb = 0 then r else if x.comb = 1 then kCombine ty redop k.wide own r else kCombine ty redop k.wide r own
  { k with
    elems := (k.elems.zipIdx).map fun e =>
      if x.rLo ≤ e.2 ∧ e.2 < x.rLo + x.rLen then comb e.2 e.1 else e.1
    slots := k.slots.filter fun y => y.at' != k.place }

/-- The chunk moves past every step whose data is sent and received; `n` bounds the steps. -/
def KChunk.advance (ty redop : Nat) : Nat → KChunk → KChunk
  | 0, k => k
  | n + 1, k =>
    match k.cur with
    | none => if k.stage = .stepping then { k.finalise with stage := .storing } else k
    | some x =>
      let k := if x.phase = 1 then k.finalise else k
      let w := k.width ty
      let sentAll := x.dest.isNone || decide (x.sLen * w ≤ k.sent)
      let gotAll := x.src.isNone || decide (x.rLen * w ≤ k.inSlot k.place)
      if sentAll && gotAll then
        let k := if x.src.isSome then k.absorb ty redop x else k
        KChunk.advance ty redop n { k with place := k.place + 1, sent := 0 }
      else k

/-- A chunk that has just been loaded enters its schedule. -/
def KChunk.begin (k : KChunk) (ty redop : Nat) : KChunk := KChunk.advance ty redop (k.sched.length + 1) { k with stage := .stepping }

/-- The chunk has sent its last packet (R537). -/
def KChunk.allSent (k : KChunk) (ty : Nat) : Bool :=
  k.stage != .loading && (k.sched.zipIdx).all fun x =>
    x.1.dest.isNone || decide (x.2 < k.place) || (x.2 == k.place && decide (x.1.sLen * k.width ty ≤ k.sent))

/-- The next packet of a chunk: receiver, PHASE, STEP, OFFSET and payload. -/
def KChunk.ready (k : KChunk) (ty : Nat) : Option (Nat × Nat × Nat × Nat × List Byte) :=
  if k.stage ≠ .stepping then none
  else match k.cur with
    | none => none
    | some x =>
      let k := if x.phase = 1 then k.finalise else k
      let w := k.width ty
      match x.dest with
      | none => none
      | some d =>
        if x.sLen * w ≤ k.sent then none
        else
          let n := min 512 (x.sLen * w - k.sent)
          let es := (List.range (n / w)).map fun i => (k.elems[x.sLo + k.sent / w + i]?).getD 0
          some (d, x.phase, x.step, k.sent, (es.map (leBytes w)).flatten)

end Sys2Proof.Machine
end

