-- ==== Sys2Proof/Machine/Kiln.lean ====
section
/-! DEFINITION. The kiln's collectives (13_collectives.md): submission, start, chunks, CONTRIB packets and their answers,
aborts and endings. Buckets share these operations and add their own in Grad.lean. -/

namespace Sys2Proof.Machine

/-! ### Groups -/

def State.setKiln (s : State) (k : Kiln) : State := { s with kiln := k }
def State.kgroup (s : State) (g : Nat) : KGroup := Sparse.get KGroup.fresh s.kiln.groups g
def State.setGroup (s : State) (g : Nat) (k : KGroup) : State :=
  s.setKiln { s.kiln with groups := Sparse.set KGroup.fresh s.kiln.groups g k }
def State.modGroup (s : State) (g : Nat) (f : KGroup → KGroup) : State := s.setGroup g (f (s.kgroup g))

/-- The configuration of a group, and its reservation (R245, R246). -/
def State.groupConf (s : State) (g : Nat) : Option Group := match s.fold with
  | some x => x.groups.find? fun c => c.num == g
  | none => none
def State.resvOf (s : State) (c : Group) : KilnRes := match s.fold with
  | some x => (x.resvs.find? fun r => r.index == c.resv).getD { index := 0, slice := 0, bytes := 0, off := 0 }
  | none => { index := 0, slice := 0, bytes := 0, off := 0 }

/-- A kiln slice is in quiesce or not ready (R555, Table 13.11). -/
def State.sliceQuiet (s : State) (i : Nat) : Bool :=
  (s.rst.any fun r => r.scope == 3 && r.target == i) || !s.rbit .klnStatus 0 0 (48 + i)

/-- The running collective or bucket of a group. -/
def KGroup.running (k : KGroup) : Option KJob := k.jobs.find? fun j => j.run

/-- The current SEQ (R541). -/
def KGroup.current (k : KGroup) : Nat := match k.jobs with
  | j :: _ => j.seq
  | [] => k.next

/-- The job with a SEQ replaced. -/
def KGroup.put (k : KGroup) (j : KJob) : KGroup := { k with jobs := k.jobs.map fun x => if x.seq = j.seq then j else x }
def State.putKJob (s : State) (g : Nat) (j : KJob) : State := s.modGroup g fun k => k.put j

/-! ### Descriptors (Table 13.1) -/

def KJob.op (j : KJob) : Nat := if j.bucket.isSome then 6 else leAt j.raw 0 1
def KJob.redop (j : KJob) : Nat := if j.bucket.isSome then 0 else if leAt j.raw 0 1 = 5 then 1 else leAt j.raw 1 1
def KJob.ty (j : KJob) : Nat := if j.bucket.isSome then 0x11 else leAt j.raw 2 1
def KJob.count (j : KJob) : Nat := leAt j.raw 4 4
def KJob.src (j : KJob) : Nat := leAt j.raw 8 8
def KJob.dst (j : KJob) : Nat := leAt j.raw 16 8
def KJob.comp (j : KJob) : Nat := leAt j.raw 24 8
def KJob.root (j : KJob) : Nat := if j.bucket.isSome then 0 else leAt j.raw 32 2

/-- A fabric-integer SUM travels as wide partials (R534). -/
def KJob.sumWide (j : KJob) : Bool :=
  j.ty == 0x11 && j.redop == 0 && (j.op == 1 || j.op == 2 || j.op == 6)

/-- The index of the seal exchange's chunk (R580). -/
def sealIdx : Nat := 0x7FFFFFFF

/-- Reduction function, and whether wide partials are used, for a chunk; the seal exchange takes MAX (R580). -/
def KJob.chunkRedop (j : KJob) (k : KChunk) : Nat := if k.idx = sealIdx then 1 else j.redop
def KJob.chunkWide (j : KJob) (k : KChunk) : Bool := j.sumWide && k.idx != sealIdx

/-- ALG of R531 for a size. -/
def kAlg (c : Group) (size : Nat) : Nat := if size ≤ c.limit then 0 else 1

/-- The size S of Table 13.2. -/
def kSize (op count m ty : Nat) : Nat := if op = 5 then 0 else if op = 3 then m * count * kElem ty else count * kElem ty

/-- The digest of Table 13.3 with SIZE given. -/
def kDigest (seq group op redop ty alg size : Nat) : Nat :=
  seq * 2 ^ 48 + group * 2 ^ 42 + op % 8 * 2 ^ 39 + redop % 4 * 2 ^ 37 +
    (if ty = 0x11 then 2 else if ty = 0x10 then 1 else 0) * 2 ^ 35 + alg * 2 ^ 34 + size % 2 ^ 34

/-! ### Chunks (R534 to R537, R569) -/

/-- The chunk capacity C. -/
def KJob.cap (j : KJob) (bytes : Nat) : Nat := min (2 ^ 20) (if j.bucket.isSome then bytes / 8 else bytes / 4)

/-- The rounds that share the receive area (R535). -/
def KJob.slotsNeeded (j : KJob) (m : Nat) : Nat :=
  if j.alg = 1 ∨ j.op = 4 ∨ (j.op = 3 ∧ !isPow2 m) then 1 else max 1 (rounds m)

/-- The chunk element count E. -/
def KJob.chunkE (j : KJob) (m bytes : Nat) : Nat :=
  let w := if j.sumWide then 16 else kElem j.ty
  let q := if j.bucket.isSome then 512 else 16
  max q (j.cap bytes / (w * j.slotsNeeded m) / q * q)

/-- The elements of one member's share, and of one piece of it (R536). -/
def KJob.share (j : KJob) (m : Nat) : Nat := if j.op = 2 then j.count / m else j.count
def KJob.piece (j : KJob) (m bytes : Nat) : Nat := max 16 (j.chunkE m bytes / m / 16 * 16)

/-- Operations cut by share. -/
def KJob.byShare (j : KJob) : Bool := j.op == 2 || j.op == 3

/-- The number of chunks. -/
def KJob.nchunks (j : KJob) (m bytes : Nat) : Nat :=
  if j.op = 5 then 1
  else if j.byShare then (j.share m + j.piece m bytes - 1) / j.piece m bytes
  else (j.count + j.chunkE m bytes - 1) / j.chunkE m bytes

/-- The elements of one member's piece in chunk `k`, or of the whole chunk where it is not cut by share. -/
def KJob.partN (j : KJob) (m bytes k : Nat) : Nat :=
  if j.op = 5 then 16
  else if j.byShare then min (j.piece m bytes) (j.share m - k * j.piece m bytes)
  else min (j.chunkE m bytes) (j.count - k * j.chunkE m bytes)

/-- The elements of chunk `k`. -/
def KJob.chunkN (j : KJob) (m bytes k : Nat) : Nat := (if j.byShare then m else 1) * j.partN m bytes k

/-- The SRC ranges of chunk `k`: address, bytes, and the element of the chunk that the range fills from. -/
def KJob.srcParts (j : KJob) (m i bytes k : Nat) : List (Nat × Nat × Nat) :=
  let e := kElem j.ty
  let p := j.partN m bytes k
  match j.op with
  | 1 => [(j.src + k * j.chunkE m bytes * e, p * e, 0)]
  | 2 => (List.range m).map fun x => (j.src + (x * j.share m + k * j.piece m bytes) * e, p * e, x * p)
  | 3 => [(j.src + k * j.piece m bytes * e, p * e, i * p)]
  | 4 => if i = j.root then [(j.src + k * j.chunkE m bytes * e, p * e, 0)] else []
  | _ => []

/-- The DST ranges of chunk `k`: address, first element, elements. -/
def KJob.dstParts (j : KJob) (m i bytes k : Nat) : List (Nat × Nat × Nat) :=
  let e := kElem j.ty
  let p := j.partN m bytes k
  match j.op with
  | 1 => [(j.dst + k * j.chunkE m bytes * e, 0, p)]
  | 2 => [(j.dst + k * j.piece m bytes * e, i * p, p)]
  | 3 => (List.range m).map fun x => (j.dst + (x * j.count + k * j.piece m bytes) * e, x * p, p)
  | 4 => [(j.dst + k * j.chunkE m bytes * e, 0, p)]
  | _ => []

/-- A chunk of `n` elements with its schedule. -/
def KJob.mkChunk (j : KJob) (c : Group) (idx n : Nat) (ver : Bool) (elems : List Nat) (stage : KStage) : KChunk :=
  let (sched, lo, len) :=
    if idx = sealIdx then kSchedule 5 0 c.members.length c.my 0 n false
    else kSchedule j.op j.alg c.members.length c.my j.root n ver
  { idx := idx, ver := ver, stage := stage, sched := sched, place := 0, sent := 0, elems := elems,
    wide := j.sumWide && idx != sealIdx, ownLo := lo, ownN := len, slots := [], ovf := 0, marks := [] }

/-- A chunk enters its schedule. -/
def KJob.enter (j : KJob) (k : KChunk) : KChunk := k.begin j.ty (j.chunkRedop k)

/-- A chunk goes on. -/
def KJob.go (j : KJob) (k : KChunk) : KChunk := KChunk.advance j.ty (j.chunkRedop k) (k.sched.length + 1) k

/-- A chunk replaced in its job. -/
def KJob.putChunk (j : KJob) (k : KChunk) : KJob :=
  { j with chunks := j.chunks.map fun x => if x.idx = k.idx ∧ x.ver = k.ver then k else x }
def KJob.chunk (j : KJob) (idx : Nat) (ver : Bool) : Option KChunk := j.chunks.find? fun x => x.idx == idx && x.ver == ver
def KJob.dropChunk (j : KJob) (k : KChunk) : KJob :=
  { j with chunks := j.chunks.filter fun x => !(x.idx == k.idx && x.ver == k.ver) }

/-! ### Memory accesses of the kiln -/

/-- The request of a job for one of its chunks to local memory. -/
def kReq (g seq chunk a : Nat) : StackReq := { source := 7, core := 0, addr := a, job := (g * 2 ^ 16 + seq) * 2 ^ 32 + chunk }

/-- The requests of the job with a SEQ, and those of one chunk. -/
def kMine (g seq : Nat) (r : StackReq) : Bool := r.source == 7 && r.job / 2 ^ 32 == g * 2 ^ 16 + seq
def kSame (u r : StackReq) : Bool := r.source == 7 && r.job == u.job

/-- The request by which the kiln reads a descriptor that is submitted. -/
def kSubReq (a : Nat) : StackReq := { source := 7, core := 0, addr := a, job := 2 ^ 60 }

/-- The first sector of a range whose access does not end with OK. -/
def State.badAt (s : State) (a n : Nat) : Nat :=
  ((sectorsOf a n).find? fun x => !s.stkOpen (s.stackOf x) || s.badSector (s.phys x / 32)).getD a

/-- Whether ranges can all be read now; the address comes with a failure. -/
def State.kilnReady (s : State) (u : StackReq) : List (Nat × Nat) → State × Ready × Nat
  | [] => (s, .go, 0)
  | (a, n) :: rest =>
    let (s, x) := if memOf a n = some .stacked then s.unitRead { u with addr := a } true (linesOf a n) else (s, Ready.go)
    let (s, y, b) := s.kilnReady u rest
    (s, x.and y, match x with
      | .fail _ => a
      | _ => b)

/-- Ranges that can be read now are read: the first status other than OK with its address, or the bytes. -/
def State.kilnTake (s : State) (u : StackReq) : List (Nat × Nat) → State × Option (Nat × Nat × List (List Byte))
  | [] => (s, some (stOk, 0, []))
  | (a, n) :: rest =>
    if n = 0 then
      match s.kilnTake u rest with
      | (s, some (st, x, bss)) => (s, some (st, x, [] :: bss))
      | r => r
    else match s.tryReadMem { u with addr := a } 0x1 n with
      | (s, none) => (s, none)
      | (s, some (st, bs)) =>
        if st ≠ stOk then (s.dropUnits (kSame u) .none, some (st, s.badAt a n, []))
        else match s.kilnTake u rest with
          | (s, some (st, x, bss)) => (s, some (st, x, bs :: bss))
          | r => r

/-- Reads of local ranges: none while one must wait. -/
def State.kilnReads (s : State) (u : StackReq) (rs : List (Nat × Nat)) : State × Option (Nat × Nat × List (List Byte)) :=
  match s.kilnReady u rs with
  | (s, .wait, _) => (s, none)
  | (s, .fail st, a) => (s.dropUnits (kSame u) .none, some (st, a, []))
  | (s, .go, _) => s.kilnTake u rs

/-- A read of one range. -/
def State.kilnRead (s : State) (u : StackReq) (n : Nat) : State × Option (Nat × List Byte) :=
  match s.kilnReads u [(u.addr, n)] with
  | (s, some (st, _, bss)) => (s, some (st, bss.flatten))
  | (s, none) => (s, none)

/-- A write of a local range; a whole aligned bale of stacked memory is written as a bale without a tag (R292). -/
def kWrite (a : Nat) (bs : List Byte) : UnitWrite :=
  { addr := a, data := bs, whole := if a % 4096 = 0 ∧ bs.length = 4096 then some none else none }

/-- Whether writes to local ranges can all be made now; the address comes with a failure. -/
def State.kilnPrep (s : State) (u : StackReq) : List (Nat × List Byte) → State × Ready × Nat
  | [] => (s, .go, 0)
  | (a, bs) :: rest =>
    let (s, x) := if memOf a bs.length = some .stacked then s.prepParts u (s.parts 7 (kWrite a bs)) else (s, Ready.go)
    let (s, y, b) := s.kilnPrep u rest
    (s, x.and y, match x with
      | .fail _ => a
      | _ => b)

/-- Writes that can all be made now are made. The first status other than OK comes with its address. -/
def State.kilnCommit (s : State) (u : StackReq) : List (Nat × List Byte) → State × Nat × Nat
  | [] => (s, stOk, 0)
  | (a, bs) :: rest =>
    let (s, st) := if memOf a bs.length = some .stacked then
        let (s, st, _) := s.commitUnit u (kWrite a bs)
        (s, st)
      else
        let (s, st) := s.tryWriteMem { u with addr := a } 0x1 bs
        (s, st.getD stOk)
    if st = stOk then (s.mirrored a bs).kilnCommit u rest
    else (s.dropUnits (kSame u) .none, st, s.badAt a bs.length)

/-- Writes to local ranges: none while one must wait. -/
def State.kilnStore (s : State) (u : StackReq) (ws : List (Nat × List Byte)) : State × Option (Nat × Nat) :=
  match s.kilnPrep u ws with
  | (s, .wait, _) => (s, none)
  | (s, .fail st, a) => (s.dropUnits (kSame u) .none, some (st, a))
  | (s, .go, _) =>
    let (s, st, a) := s.kilnCommit u ws
    (s, some (st, a))

/-- What the on-die ECC finds at the sectors of some ranges, numbered through from `k` on. -/
def State.kilnEccs (s : State) (errs : Errs) : Nat → List (Nat × Nat) → State
  | _, [] => s
  | k, (a, n) :: rest =>
    let here := (errs.filter fun x => decide (k ≤ x.1)).map fun x => (x.1 - k, x.2)
    let s := if memOf a n = some .stacked then s.eccs a (n / 32) here else s
    s.kilnEccs errs (k + n / 32) rest

/-- The bytes of a range cut at the bales. -/
def balePieces : Nat → Nat → List Byte → List (Nat × List Byte)
  | 0, _, _ => []
  | n + 1, a, bs =>
    if bs.isEmpty then [] else
      let m := 4096 - a % 4096
      (a, bs.take m) :: balePieces n (a + m) (bs.drop m)

/-- `n` bytes that the spec leaves open: free values. -/
def State.freeBytes (s : State) (n : Nat) : List Byte := (List.range n).map fun i => (Config.freeValue (s.fresh + i)).setWidth 8

/-- A range of local memory after which any byte of it may hold any value (R550, R582): each byte takes a free value (log
entry 1). A flock that takes no writes keeps its bytes. -/
def State.scatter (s : State) (a n : Nat) : State :=
  let bs := s.freeBytes n
  let s := { s with fresh := s.fresh + n }
  match memOf a n with
  | some .stacked =>
    let ps := (balePieces (n / 4096 + 2) a bs).filter fun x => (s.homedElsewhere x.1).isNone
    { s with dram := ps.foldl (fun m x => Sparse.writeBytes m (s.phys x.1) x.2) s.dram }
  | some .store => if ((flocksOf .store a n).find? s.flockQuiet).isSome then s else s.wrStoreAt (a - storeBase) bs
  | some .scratch => if ((flocksOf .scratch a n).find? s.flockQuiet).isSome then s else s.wrScratchAt (a - scratchBase) bs
  | none => s

/-! ### Logs (R558) -/

/-- The kiln fault log. -/
def State.klnLog (s : State) (status : Nat) (ab : KAbort) (g seq kind addr : Nat) : State :=
  let s := if s.rbit .klnFaultInfo 0 0 63 then s
    else s.setReg .klnFaultDigest 0 0 (if kind = 1 ∧ ab.cause = 1 then ab.digest else 0)
  s.log .klnFaultInfo 0 0
    (status * 2 ^ 58 + (if kind = 1 then ab.cause else 0) * 2 ^ 54 + g * 2 ^ 48 + seq * 2 ^ 32 + ab.culprit * 2 ^ 18
      + ab.detector * 2 ^ 4 + kind) none (some (.klnFaultAddr, addr)) 0x09 0

def KAbort.none : KAbort := { cause := 0, culprit := 0, detector := 0, digest := 0 }

/-- An event of KIND 0x2 or 0x3: CULPRIT and DETECTOR, for a failed submission SEQ, and GROUP where no descriptor was read,
have no meaning and are free values (log entry 1). -/
def State.klnEvent (s : State) (status kind : Nat) (group seq : Option Nat) (addr : Nat) : State :=
  let x := s.freeVal.toNat
  s.bump.klnLog status { cause := 0, culprit := bits x 13 0, detector := bits x 27 14, digest := 0 }
    (group.getD (bits x 49 44)) (seq.getD (bits x 43 28)) kind addr

/-! ### Ending a job (R530, R550) -/

/-- The bytes that the kiln writes into a collective descriptor from byte 40 on. -/
def KJob.tail (j : KJob) (status : Nat) (ab : KAbort) : List Byte :=
  leBytes 8 j.digest ++ leBytes 1 (status + 128) ++ leBytes 1 j.alg ++ leBytes 2 j.seq ++ leBytes 1 ab.cause ++ leBytes 1 0 ++
    leBytes 2 ab.culprit ++ leBytes 2 ab.detector

/-- NEXT_G of R574. -/
def nextG (m headroom : Nat) (peak g : Int) : Int :=
  if peak = -32768 then g else clampInt (-32768) 32767 (peak + rounds m + headroom - 61)

/-- The bytes that the kiln writes into a bucket descriptor from byte 64 on; `peak` is the group-wide peak exponent. -/
def KJob.bucketTail (j : KJob) (b : KBucket) (m status : Nat) (ab : KAbort) (sealed : Bool) (peak : Int) : List Byte :=
  let g := sext 16 (leAt j.raw 32 2)
  leBytes 8 j.digest ++ leBytes 1 (status + 128 + sealed.toNat * 64) ++ leBytes 1 ab.cause ++ leBytes 1 j.alg ++
    leBytes 1 b.flags ++ leBytes 2 j.seq ++ leBytes 2 (wrap 16 (nextG m (leAt j.raw 35 1 % 16) peak g)) ++
    leBytes 2 ab.culprit ++ leBytes 2 ab.detector ++ leBytes 2 (wrap 16 peak) ++ leBytes 2 0 ++ leBytes 4 b.markers ++
    leBytes 4 0

/-- A write of the kiln into a flock store or a core scratch. -/
def State.kilnPut (s : State) (a : Nat) (bs : List Byte) : State :=
  match s.tryWriteMem (kSubReq a) 0x1 bs with
  | (s, some 0) => s.mirrored a bs
  | (s, _) => s

/-- The flock that a signal word at an address belongs to, and its place. -/
def sigPlaceOf (a : Nat) : Option (Nat × SigPlace) :=
  match locOf a with
  | .store f off => some (f, .store f off)
  | .scratch f c off => some (f, .scratch f c off)
  | _ => none

/-- Exactly 1 is added to a completion word in a flock store or a core scratch; the status is that of the addition. -/
def State.kilnSignal (s : State) (a : Nat) : State × Nat :=
  match sigPlaceOf a with
  | none => (s, stOk)
  | some (f, p) =>
    if s.flockQuiet f then (s.flockRefuses (kSubReq a) 0x1 f, stTargetReset)
    else
      let (s, st) := s.addSignal p 1 0x5 none
      (if st = stOk then s.mirrored a (leBytes 8 (s.sigWord p)) else s, st)

/-- The completion word of a descriptor advances; a counter fault is logged (R530). -/
def State.kilnComplete (s : State) (a g seq addr : Nat) : State :=
  if a = 0 then s
  else
    let (s, st) := s.kilnSignal a
    if st = stRefused then s.klnEvent stRefused 2 (some g) (some seq) addr else s

/-- The rows that wait at the cores which the rest of a bucket's feed list names are discarded (R588). -/
def State.dropRows (s : State) (b : KBucket) : State :=
  (b.feed.drop b.entry).foldl (fun s e => match coreOfId e.1 with
    | some (f, c) => s.modCore f c fun k => match k.grad with
      | some r => if r.ch = b.chan then k.gradTaken else k
      | none => k
    | none => s) s

/-- The bytes of the DST range (Tables 13.2 and 14.1). -/
def KJob.dstBytes (j : KJob) (m : Nat) : Nat :=
  if j.bucket.isSome then j.count * (if leAt j.raw 3 1 = 0x11 then 8 else 4)
  else match j.op with
    | 2 => j.count / m * kElem j.ty
    | 3 => m * j.count * kElem j.ty
    | _ => j.count * kElem j.ty

/-- The descriptor of a job that has ended is written, and the completion word advances; DST of one that did not end with OK may
hold any value (R530, R550, R582). -/
def State.writeEnd (s : State) (e : KEnd) (sealed : Bool) : State :=
  let j := e.job
  let s := if e.status = stOk then s else s.scatter j.dst (j.dstBytes e.m)
  let s := match j.bucket with
    | some b => s.kilnPut (j.addr + 64) (j.bucketTail b e.m e.status e.ab sealed e.peak)
    | none => s.kilnPut (j.addr + 40) (j.tail e.status e.ab)
  s.kilnComplete j.comp e.group j.seq j.addr

/-- DST writes of a job are held by a write gate. -/
def State.kilnHolds (s : State) (g seq : Nat) : Bool :=
  (List.range 12).any fun i => (s.stk i).ents.any fun e => e.acc != .ticket && kMine g seq e.req

/-- A job ends and leaves its group: its accesses end, and its descriptor is written once every DST write is complete. -/
def State.endKJob (s : State) (e : KEnd) (sealed : Bool) : State :=
  let j := e.job
  let s := s.dropUnits (kMine e.group j.seq) .none
  let s := if s.kilnHolds e.group j.seq then s.setKiln { s.kiln with ending := s.kiln.ending ++ [e] } else s.writeEnd e sealed
  s.modGroup e.group fun k =>
    { k with jobs := k.jobs.filter fun x => x.seq != j.seq, pend := k.pend.filter fun p => p.seq != j.seq }

/-- The descriptors of a group's ended jobs whose DST writes are complete are written. -/
def State.writeEnds (s : State) (g : Nat) : State :=
  (s.kiln.ending.filter fun e => e.group == g && !s.kilnHolds g e.job.seq).foldl
    (fun s e => (s.setKiln { s.kiln with ending := s.kiln.ending.erase e }).writeEnd e false) s

/-- The children of a member in the binomial broadcast tree of a root (R551). -/
def treeChildren (m root i : Nat) : List Nat := (binomialBroadcast m root i 1).filterMap fun x => x.dest

/-- Abort notices are formed for the children in the tree of the detector. -/
def State.tell (s : State) (c : Group) (digest : Nat) (ab : KAbort) : State :=
  let seq := bits digest 63 48
  if (s.kgroup c.num).heard.contains (seq, ab.detector) then s
  else
    let s := s.modGroup c.num fun k => { k with heard := k.heard ++ [(seq, ab.detector)] }
    s.setKiln { s.kiln with notices := s.kiln.notices ++ (treeChildren c.members.length ab.detector c.my).map fun d =>
      { dest := d, digest := digest, ab := ab } }

/-- CONTRIBs of a group's SEQ that have not been sent leave the NI. -/
def State.dropContribs (s : State) (g seq : Nat) : State :=
  s.setNi { s.ni with waiting := s.ni.waiting.filter fun r => match r.owner with
    | .kiln g' q _ notice => g' != g || q != seq || notice
    | _ => true }

/-- The status of an abort (R549). -/
def KAbort.status (ab : KAbort) : Nat := if ab.cause = 1 then stMismatch else stAborted

/-- A job ends with ABORTED or MISMATCH: it is counted and logged, and the descriptor is written. PEAK of an aborted bucket, for
which no seal exchange ended, is a free value (log entry 1). -/
def State.endAborted (s : State) (c : Group) (j : KJob) (ab : KAbort) (addr : Nat) : State :=
  let s := (s.incFld .klnCnt 0 0 31 0).klnLog ab.status ab c.num j.seq 1 addr
  let s := match j.bucket with
    | some b => s.dropRows b
    | none => s
  s.bump.endKJob { group := c.num, m := c.members.length, job := j, status := ab.status, ab := ab,
                   peak := sext 16 s.freeVal.toNat } false

/-- A job ends by an abort (R549 to R551); `addr` is what KLN_FAULT_ADDR names. -/
def State.abortKJob (s : State) (c : Group) (j : KJob) (ab : KAbort) (addr : Nat) : State :=
  let s := s.dropContribs c.num j.seq
  let s := if ab.cause ≠ 5 ∧ ab.detector = c.my then s.tell c j.digest ab else s
  (s.endAborted c j ab addr).modGroup c.num fun k =>
    { k with aborted := j.seq, owed := if j.run then some j.seq else k.owed }

/-- An abort is recorded against a SEQ that has not started; the first for each SEQ counts. -/
def State.pendAbort (s : State) (g seq : Nat) (ab : KAbort) (ahead : Bool) : State :=
  s.modGroup g fun k =>
    if k.pend.any fun p => p.seq == seq then k else { k with pend := k.pend ++ [{ seq := seq, ab := ab, ahead := ahead }] }

/-- The current collective of a group aborts, or the abort is recorded against the current SEQ (R542). -/
def State.abortGroup (s : State) (c : Group) (ab : KAbort) : State :=
  match (s.kgroup c.num).running with
  | some j => s.abortKJob c j ab j.addr
  | none => s.pendAbort c.num (s.kgroup c.num).current ab false

/-! ### Submission (R523 to R527) -/

/-- A range within stacked memory, one flock store or one core scratch. -/
def inOne (a n : Nat) : Bool :=
  match locOf a, locOf (a + n - 1) with
  | .stacked _, .stacked _ => true
  | .store f _, .store f' _ => f == f'
  | .scratch f c _, .scratch f' c' _ => f == f' && c == c'
  | _, _ => false

/-- A range within one flock store or one core scratch. -/
def inSram (a n : Nat) : Bool := inOne a n && (match locOf a with
  | .stacked _ => false
  | _ => true)

/-- A completion address: 0, or a signal word in a flock store or a core scratch. -/
def compOk (a : Nat) : Bool := a == 0 || (a % 8 == 0 && inSram a 8)

/-- Outcome 4 of R526. -/
def collWellFormed (d : List Byte) (m : Nat) : Bool :=
  let op := leAt d 0 1
  let count := leAt d 4 4
  leAt d 34 6 == 0 && leAt d 58 6 == 0 && decide (1 ≤ op) && decide (op ≤ 5) &&
    (if op ≤ 2 then decide (leAt d 1 1 ≤ 2) else leAt d 1 1 == 0) &&
    (if op = 5 then leAt d 2 1 == 0 else [0x00, 0x10, 0x11].contains (leAt d 2 1)) &&
    (match op with
      | 1 => decide (16 ≤ count) && decide (count ≤ 2 ^ 30) && count % 16 == 0
      | 2 => decide (0 < count) && decide (count ≤ 2 ^ 30) && count % (16 * m) == 0
      | 3 => decide (16 ≤ count) && decide (count ≤ 2 ^ 30) && count % 16 == 0
      | 4 => decide (16 ≤ count) && decide (count ≤ 2 ^ 20 - 16) && count % 16 == 0
      | _ => count == 0) &&
    decide (leAt d 32 2 < m)

/-- Outcome 5 of R526. -/
def collAddresses (a : Nat) (d : List Byte) (m : Nat) : Bool :=
  let op := leAt d 0 1
  let count := leAt d 4 4
  let e := kElem (leAt d 2 1)
  let src := leAt d 8 8
  let dst := leAt d 16 8
  let nSrc := count * e
  let nDst := if op = 2 then count / m * e else if op = 3 then m * count * e else count * e
  a % 64 == 0 && inSram a 64 && compOk (leAt d 24 8) &&
    (if op = 5 then src == 0 && dst == 0
     else src % 64 == 0 && dst % 64 == 0 && inOne src nSrc && inOne dst nDst &&
       (decide (src + nSrc ≤ dst) || decide (dst + nDst ≤ src) || (op == 1 && src == dst)))

/-- Descriptors that a group has queued or running. -/
def KGroup.queued (k : KGroup) : Nat := k.jobs.length

/-- A job joins its group and takes the next SEQ. An abort recorded against that SEQ while it was ahead ends it at once (R552);
one recorded against the current SEQ waits for its start (R542). -/
def State.enqueueKJob (s : State) (c : Group) (j : KJob) : State :=
  let s := s.modGroup c.num fun k => { k with jobs := k.jobs ++ [j], next := (k.next + 1) % 2 ^ 16 }
  let s := s.setKiln { s.kiln with order := s.kiln.order + 1 }
  match (s.kgroup c.num).pend.find? fun p => p.seq == j.seq && p.ahead with
  | some p => s.abortKJob c j p.ab j.addr
  | none => s

/-- The job that a collective descriptor makes. -/
def collJob (c : Group) (a : Nat) (d : List Byte) (seq order : Nat) : KJob :=
  let op := leAt d 0 1
  let ty := leAt d 2 1
  let count := leAt d 4 4
  let alg := kAlg c (kSize op count c.members.length ty)
  let size := if op = 4 then leAt d 32 2 * 2 ^ 20 + count else count
  { addr := a, raw := d, seq := seq, alg := alg, digest := kDigest seq c.num op (leAt d 1 1) ty alg size, order := order,
    run := false, chunks := [], next := 0, ended := 0, bucket := none }

/-- The kiln answers a submission (R526): the state, and the status with the GROUP that the descriptor names; none while the
descriptor cannot be read. -/
def State.submitColl (s : State) (a : Nat) : State × Option (Nat × Option Nat) :=
  match s.kilnRead (kSubReq a) 64 with
  | (s, none) => (s, none)
  | (s, some (st, d)) =>
    if st ≠ stOk then (s, some (st, none))
    else
      let g := leAt d 3 1
      let say (st : Nat) : Option (Nat × Option Nat) := some (st, some (g % 64))
      match s.groupConf g with
      | none => (s, say stRefused)
      | some c =>
        let k := s.kgroup c.num
        if s.sliceQuiet (s.resvOf c).slice then (s, say stTargetReset)
        else if !collWellFormed d c.members.length then (s, say stRefused)
        else if !collAddresses a d c.members.length then (s, say stAddressFault)
        else if 16 ≤ k.queued then (s, say stDeferred)
        else (s.enqueueKJob c (collJob c a d k.next s.kiln.order), say stOk)

/-- The answer to a submission of the host or the drover goes to KLN_SUBMIT_RESULT (R527); a failure is logged. -/
def State.submitResult (s : State) (a st : Nat) (group : Option Nat) : State :=
  let n := s.fld .klnSubmitResult 0 0 55 48
  let s := s.setReg .klnSubmitResult 0 0 (2 ^ 63 + st * 2 ^ 56 + (n + 1) % 256 * 2 ^ 48 + a)
  if st = stOk ∨ st = stDeferred then s else s.klnEvent st 3 group none a

/-! ### Start, chunks and completion (R520, R528, R537) -/

/-- The groups that share a reservation. -/
def State.sharing (s : State) (c : Group) : List Group := match s.fold with
  | some x => x.groups.filter fun d => d.resv == c.resv
  | none => []

/-- The oldest job that a group has not started. -/
def KGroup.head (k : KGroup) : Option KJob := match k.jobs with
  | j :: _ => if j.run then none else some j
  | [] => none

/-- A CONTRIB of a group's aborted SEQ has no final answer yet (R550). -/
def State.contribsOut (s : State) (g : Nat) (seq : Option Nat) : Bool :=
  let mine (o : TagOwner) : Bool := match o with
    | .kiln g' q _ notice => g' == g && some q == seq && !notice
    | _ => false
  (s.ni.tags.any fun t => mine t.req.owner) || s.ni.waiting.any fun r => mine r.owner

/-- COLLECTIVE_START (R520, R528, R542, R550, R552): the next job of a group starts, or ends at once with the abort recorded
against its SEQ. -/
def execCollectiveStart (g : Nat) (s : State) : Out :=
  inRange g 64 s fun s =>
    match s.groupConf g, (s.kgroup g).head with
    | some c, some j =>
      let others := (s.sharing c).flatMap fun d => (s.kgroup d.num).jobs
      let blocked := (others.any fun x => x.run || decide (x.order < j.order)) || s.sliceQuiet (s.resvOf c).slice ||
        s.contribsOut g (s.kgroup g).owed
      match (s.kgroup g).pend.find? fun p => p.seq == j.seq with
      | some p => if blocked then s else s.abortKJob c j p.ab j.addr
      | none => if blocked then s else s.modGroup g fun k => { k.put { j with run := true } with owed := none }
    | _, _ => s

/-- Whether the next chunk may go in flight: at most two are, and the one before it has sent its last packet. -/
def KJob.mayStart (j : KJob) (m bytes : Nat) : Bool :=
  decide (j.next < j.nchunks m bytes) && decide ((j.chunks.filter fun k => !k.ver).length < 2) &&
    (j.chunks.all fun k => k.ver || k.allSent j.ty)

/-- The positions of a bucket that chunk `k` holds. -/
def KJob.fedChunk (j : KJob) (b : KBucket) (e k : Nat) : List Nat := (b.fed.drop (k * e)).take (min e (j.count - k * e))

/-- Chunk `k` of a bucket is sampled (R577). -/
def sampled (sample seq k : Nat) : Bool := sample != 0 && (k + seq) % sample == 0

/-- The next chunk of a job goes in flight, a bucket's sampled chunk on both paths. -/
def State.startChunk (s : State) (c : Group) (j : KJob) : State :=
  let m := c.members.length
  let bytes := (s.resvOf c).bytes
  let k := j.next
  let n := j.chunkN m bytes k
  match j.bucket with
  | none =>
    let parts := j.srcParts m c.my bytes k
    let ch := j.mkChunk c k n false (List.replicate n 0) .loading
    let ch := if parts.isEmpty then j.enter ch else ch
    s.putKJob c.num { j with chunks := j.chunks ++ [ch], next := k + 1 }
  | some b =>
    let fed := j.fedChunk b (j.chunkE m bytes) k
    let sample := sampled (s.fld .klnChanCfg 0 b.chan 15 0) j.seq k
    if fed.length < n ∨ (sample ∧ (j.chunks.any fun x => x.ver)) then s
    else
      let mk (ver : Bool) : KChunk := j.enter (j.mkChunk c k n ver (fed.map toWide) .loading)
      s.putKJob c.num { j with chunks := j.chunks ++ [mk false] ++ (if sample then [mk true] else []), next := k + 1 }

/-- CHUNK_START (R537, R570, R577). -/
def execChunkStart (g : Nat) (s : State) : Out :=
  inRange g 64 s fun s =>
    match s.groupConf g, (s.kgroup g).running with
    | some c, some j => if j.mayStart c.members.length (s.resvOf c).bytes then s.startChunk c j else s
    | _, _ => s

/-- The elements in a list of bytes. -/
def elemsOf (e : Nat) (bs : List Byte) : List Nat := (List.range (bs.length / e)).map fun i => leAt bs (i * e) e

/-- Elements placed from element `lo` on. -/
def placeElems (xs : List Nat) (lo : Nat) (ys : List Nat) : List Nat := xs.take lo ++ ys ++ xs.drop (lo + ys.length)

/-- SRC of a chunk is read and the chunk enters its schedule. -/
def State.loadChunk (s : State) (c : Group) (j : KJob) (k : KChunk) : State :=
  let parts := j.srcParts c.members.length c.my (s.resvOf c).bytes k.idx
  match s.kilnReads (kReq c.num j.seq k.idx 0) (parts.map fun x => (x.1, x.2.1)) with
  | (s, none) => s
  | (s, some (st, a, bss)) =>
    if st ≠ stOk then s.abortKJob c j { KAbort.none with cause := 4, culprit := c.my, detector := c.my } a
    else
      let widen (x : Nat) : Nat := if k.wide then toWide x else x
      let xs := (parts.zip bss).foldl (fun xs p => placeElems xs p.1.2.2 ((elemsOf (kElem j.ty) p.2).map widen)) k.elems
      s.putKJob c.num (j.putChunk (j.enter { k with elems := xs }))

/-- Sums out of range are recorded in KLN_OVERFLOW (Table 14.2). -/
def State.countOverflow (s : State) (g seq n : Nat) : State :=
  if n = 0 then s
  else (s.addFld .klnOverflow 0 0 63 32 n).setReg .klnOverflow 0 0
    (setBits (setBits ((s.addFld .klnOverflow 0 0 63 32 n).reg .klnOverflow 0 0) 31 16 seq) 13 8 g)

/-- The result of a chunk is written to DST. -/
def State.storeChunk (s : State) (c : Group) (j : KJob) (k : KChunk) : State :=
  let e := kElem j.ty
  let parts := (j.dstParts c.members.length c.my (s.resvOf c).bytes k.idx).map fun x =>
    (x.1, (((k.elems.drop x.2.1).take x.2.2).map (leBytes e)).flatten)
  match s.kilnStore (kReq c.num j.seq k.idx 0) (parts.flatMap fun x => balePieces (x.2.length / 4096 + 2) x.1 x.2) with
  | (s, none) => s
  | (s, some (st, a)) =>
    if st ≠ stOk then s.abortKJob c j { KAbort.none with cause := 4, culprit := c.my, detector := c.my } a
    else (s.countOverflow c.num j.seq k.ovf).putKJob c.num { (j.dropChunk k) with ended := j.ended + 1 }

/-- KILN_MEMORY_COMPLETE (R549): a chunk's SRC is read, or its result is written to DST; a status other than OK aborts the
collective with cause 0x4. `errs` is what the ECC finds at the sectors of SRC, or of DST, that the chunk moves. -/
def execKilnMemoryComplete (g chunk : Nat) (errs : Errs) (s : State) : Out :=
  inRange g 64 s fun s =>
    match s.groupConf g, (s.kgroup g).running with
    | some c, some j =>
      match j.chunk chunk false with
      | none => s
      | some k =>
        if j.bucket.isSome then s
        else
          let m := c.members.length
          let bytes := (s.resvOf c).bytes
          if k.stage = .loading then
            (s.kilnEccs errs 0 ((j.srcParts m c.my bytes k.idx).map fun x => (x.1, x.2.1))).loadChunk c j k
          else if k.stage = .storing then
            (s.kilnEccs errs 0 ((j.dstParts m c.my bytes k.idx).map fun x => (x.1, x.2.2 * kElem j.ty))).storeChunk c j k
          else s
    | _, _ => s

/-- COLLECTIVE_END (R530): a collective whose chunks are all done ends with OK; the descriptors of aborted ones whose DST writes
have been held are written once they are complete. -/
def execCollectiveEnd (g : Nat) (s : State) : Out :=
  inRange g 64 s fun s =>
    let s := s.writeEnds g
    match s.groupConf g, (s.kgroup g).running with
    | some c, some j =>
      if j.bucket.isNone ∧ j.ended = j.nchunks c.members.length (s.resvOf c).bytes then
        s.endKJob { group := g, m := c.members.length, job := j, status := stOk, ab := KAbort.none, peak := 0 } false
      else s
    | _, _ => s

/-! ### Injection (R539, R540, R548) -/

/-- CONTRIBs of a group to a member that have no final answer. -/
def State.creditsUsed (s : State) (g d : Nat) : Nat :=
  let mine (o : TagOwner) : Bool := match o with
    | .kiln g' _ d' notice => g' == g && d' == d && !notice
    | _ => false
  (s.ni.tags.filter fun t => mine t.req.owner).length + (s.ni.waiting.filter fun r => mine r.owner).length

/-- The packets that a group has ready and holds a credit for: receiver, chunk number, and the chunk. -/
def State.readyPackets (s : State) (g : Nat) : List (Nat × Nat × KChunk) :=
  match (s.kgroup g).running with
  | none => []
  | some j => j.chunks.filterMap fun k =>
    match k.ready j.ty with
    | some (d, _) => if s.creditsUsed g d < 16 then some (d, k.idx + k.ver.toNat * 2 ^ 31, k) else none
    | none => none

/-- The next packet of a group: the receiver that comes next in turn, and its packet of the lowest chunk. -/
def State.pickPacket (s : State) (g m : Nat) : Option KChunk :=
  let last := (s.kgroup g).last
  let order (x : Nat × Nat × KChunk) : Nat := (x.1 + m - 1 - last % m) % m * 2 ^ 32 + x.2.1
  ((s.readyPackets g).foldl (fun best x => match best with
    | some y => if order x < order y then some x else some y
    | none => some x) (none : Option (Nat × Nat × KChunk))).map fun x => x.2.2

/-- The request of a CONTRIB (Table 13.6). -/
def contribReq (c : Group) (slice seq dest digest phase step chunk off : Nat) (pay : List Byte) : NiReq :=
  { share := slice, dest := (c.members[dest]?).getD 0, byRank := true, op := 0x30, flag := false, space := 0, offset := 0,
    w4 := BitVec.ofNat 64 digest,
    w5 := BitVec.ofNat 64 (slice * 2 ^ 60 + phase * 2 ^ 56 + step * 2 ^ 32 + chunk),
    w6 := BitVec.ofNat 64 (c.my * 2 ^ 50 + off), pay := .bytes pay,
    owner := .kiln c.num seq dest (phase == 15), after := 0 }

/-- The payload of an abort notice (Table 13.9). -/
def noticePayload (ab : KAbort) : List Byte :=
  leBytes 2 ab.cause ++ leBytes 2 ab.culprit ++ leBytes 4 ab.detector ++ leBytes 8 (if ab.cause = 1 then ab.digest else 0) ++
    leBytes 48 0

/-- The cost of a packet (R548). -/
def packetCost (len : Nat) : Nat := 64 * (1 + (len + 63) / 64)

/-- A group's packet is handed to the NI. -/
def State.sendContrib (s : State) (c : Group) (slice : Nat) (j : KJob) (k : KChunk) : State :=
  match k.ready j.ty with
  | none => s
  | some (d, phase, step, off, pay) =>
    let s := s.niAsk (contribReq c slice j.seq d j.digest phase step (k.idx + k.ver.toNat * 2 ^ 31) off pay)
    let s := s.putKJob c.num (j.putChunk (j.go { k with sent := k.sent + pay.length }))
    s.modGroup c.num fun g => { g with last := d, deficit := g.deficit - packetCost pay.length }

/-- The groups of a slice in ascending order. -/
def State.sliceGroups (s : State) (slice : Nat) : List Nat :=
  (List.range 64).filter fun g => match s.groupConf g with
    | some c => (s.resvOf c).slice == slice
    | none => false

/-- The deficit round-robin goes on to the next group that may send; `n` bounds the visits. -/
def State.drr (s : State) (slice : Nat) (gs : List Nat) : Nat → State
  | 0 => s
  | n + 1 =>
    let g := Sparse.get 64 s.kiln.turn slice
    let next := (gs.find? fun x => decide (g < x)).getD (gs.head?.getD 64)
    let visit (s : State) : State :=
      let s := s.setKiln { s.kiln with turn := Sparse.set 64 s.kiln.turn slice next }
      match s.groupConf next with
      | some c => s.modGroup next fun k => { k with deficit := k.deficit + c.quantum }
      | none => s
    match s.groupConf g, (s.kgroup g).running with
    | some c, some j =>
      match s.pickPacket g c.members.length with
      | some k =>
        let cost := match k.ready j.ty with
          | some (_, _, _, _, pay) => packetCost pay.length
          | none => 0
        if cost ≤ (s.kgroup g).deficit then s.sendContrib c slice j k else (visit s).drr slice gs n
      | none => (visit (s.modGroup g fun k => { k with deficit := 0 })).drr slice gs n
    | _, _ => (visit (s.modGroup g fun k => { k with deficit := 0 })).drr slice gs n

/-- The group of a notice. -/
def KNotice.group (x : KNotice) : Nat := bits x.digest 47 42

/-- KILN_PACKET_INJECT (R540, R548): a slice offers one notice, or one CONTRIB by deficit round-robin. -/
def execKilnPacketInject (slice : Nat) (s : State) : Out :=
  inRange slice 12 s fun s =>
    let gs := s.sliceGroups slice
    if s.sliceQuiet slice then s
    else match s.kiln.notices.find? fun x => gs.contains x.group with
      | some x =>
        match s.groupConf x.group with
        | some c =>
          (s.setKiln { s.kiln with notices := s.kiln.notices.erase x }).niAsk
            (contribReq c slice (bits x.digest 63 48) x.dest x.digest 15 0 0 0 (noticePayload x.ab))
        | none => s
      | none => if gs.any fun g => !(s.readyPackets g).isEmpty then s.drr slice gs 8192 else s

/-! ### Answering a CONTRIB (R541, R542, R552) -/

/-- The operands of a CONTRIB (Table 13.6). -/
def kpGroup (p : Packet) : Nat := bits p.w4.toNat 47 42
def kpSeq (p : Packet) : Nat := bits p.w4.toNat 63 48
def kpSlice (p : Packet) : Nat := bits p.w5.toNat 63 60
def kpPhase (p : Packet) : Nat := bits p.w5.toNat 59 56
def kpStep (p : Packet) : Nat := bits p.w5.toNat 47 32
def kpChunk (p : Packet) : Nat := bits p.w5.toNat 31 0
def kpSender (p : Packet) : Nat := bits p.w6.toNat 63 50
def kpOff (p : Packet) : Nat := bits p.w6.toNat 19 0

/-- How SEQ `q` stands to the current one (R541): 0 equal, 1 ahead, 2 behind. -/
def seqPlace (cur q : Nat) : Nat :=
  let d := (q + 2 ^ 16 - cur) % 2 ^ 16
  if d = 0 then 0 else if d < 2 ^ 15 then 1 else 2

/-- An abort notice (R552): of the current SEQ, of one that is ahead and held or not yet taken, or of one that is behind. -/
def State.takeNotice (s : State) (c : Group) (p : Packet) : State :=
  let ab : KAbort := { cause := leAt p.payload 0 1, culprit := leAt p.payload 2 2, detector := leAt p.payload 4 2,
                       digest := leAt p.payload 8 8 }
  let k := s.kgroup c.num
  let s := match seqPlace k.current (kpSeq p) with
    | 0 => s.abortGroup c ab
    | 1 => match k.jobs.find? fun (j : KJob) => j.seq == kpSeq p with
      | some j => s.abortKJob c j ab j.addr
      | none => s.pendAbort c.num (kpSeq p) ab true
    | _ => s
  s.tell c p.w4.toNat ab

/-- The digest that this kiln holds for its current SEQ, or zero (R542). -/
def KGroup.ownDigest (k : KGroup) : Nat := match k.jobs with
  | j :: _ => j.digest
  | [] => 0

/-- The place in a schedule of the received step with a PHASE and STEP. -/
def KChunk.findStep (k : KChunk) (phase step : Nat) : Option (Nat × KStep) :=
  ((k.sched.zipIdx).find? fun x => x.1.phase == phase && x.1.step == step && x.1.src.isSome).map fun x => (x.2, x.1)

/-- The slot of a place is open (R538): a ring or chain opens the current and the next step, a latency algorithm every round
to come. -/
def KJob.open (j : KJob) (k : KChunk) (m p : Nat) : Bool :=
  decide (k.place ≤ p) && (decide (p ≤ k.place + 1) || !(j.alg == 1 || (j.op == 3 && !isPow2 m)) || k.idx == sealIdx)

/-- Data for an open slot: the status, the chunk after it, and whether it breaks the schedule. -/
def KJob.takeData (j : KJob) (m : Nat) (p : Packet) : Nat × Option KChunk × Bool :=
  match j.chunk (kpChunk p % 2 ^ 31) (bit (kpChunk p) 31) with
  | none => (stDeferred, none, false)
  | some k =>
    if k.stage ≠ .loading ∧ k.stage ≠ .stepping then (stDeferred, none, false)
    else match k.findStep (kpPhase p) (kpStep p) with
      | none => (stDeferred, none, false)
      | some (at', x) =>
        let n := p.payload.length
        if !j.open k m at' ||
            k.slots.any fun y => y.at' == at' && decide (y.off < kpOff p + n) && decide (kpOff p < y.off + y.data.length) then
          (stDeferred, none, false)
        else if x.src ≠ some (kpSender p) ∨ x.rBytes (j.chunkWide k) j.ty < kpOff p + n then (stRefused, none, true)
        else
          let k := { k with slots := k.slots ++ [{ at' := at', off := kpOff p, data := p.payload }] }
          (stOk, some (if k.stage = .stepping then j.go k else k), false)

/-- The kiln's answer to a CONTRIB (Table 13.7, R555): state, status, and the 8 bytes of a MISMATCH. -/
def State.kilnAnswer (s : State) (p : Packet) : State × Nat × Nat :=
  let mismatch (s : State) (c : Group) : State × Nat × Nat :=
    (s.abortGroup c { cause := 1, culprit := kpSender p, detector := c.my, digest := p.w4.toNat }, stMismatch,
      (s.kgroup c.num).ownDigest)
  let defer (s : State) : State × Nat × Nat := (s.incFld .klnCnt 0 0 63 32, stDeferred, 0)
  if kpSlice p < 12 ∧ s.sliceQuiet (kpSlice p) then (s, stTargetReset, 0)
  else match s.groupConf (kpGroup p) with
  | none => (s, stRefused, 0)
  | some c =>
    if (s.resvOf c).slice ≠ kpSlice p then (s, stRefused, 0)
    else if kpPhase p = 15 then (s.takeNotice c p, stOk, 0)
    else
      let k := s.kgroup c.num
      match seqPlace k.current (kpSeq p), k.running with
      | 2, _ => if kpSeq p = k.aborted then (s, stAborted, 0) else mismatch s c
      | 0, some j =>
        if p.w4.toNat ≠ j.digest then mismatch s c
        else match j.takeData c.members.length p with
          | (st, some ch, _) => (s.putKJob c.num (j.putChunk ch), st, 0)
          | (_, none, true) =>
            (s.abortGroup c { cause := 8, culprit := kpSender p, detector := c.my, digest := 0 }, stRefused, 0)
          | (_, none, false) => defer s
      | _, _ => defer s

/-- The sending kiln acts on the final answer to a CONTRIB (R544). -/
def State.contribFinal (s : State) (g seq peer st payload : Nat) (notice : Bool) : State :=
  if notice ∨ st = stOk then s
  else match s.groupConf g, (s.kgroup g).running with
    | some c, some j =>
      if j.seq ≠ seq then s
      else
        let ab : KAbort :=
          if st = stMismatch then { cause := 1, culprit := peer, detector := peer, digest := payload }
          else if st = stAborted then { cause := 5, culprit := peer, detector := 0, digest := 0 }
          else if st = stTimeout then { cause := 3, culprit := peer, detector := c.my, digest := 0 }
          else { cause := 8, culprit := peer, detector := c.my, digest := 0 }
        s.abortKJob c j ab j.addr
    | _, _ => s

/-! ### Control (R549, R554 to R556) -/

/-- The running collective of a group aborts with its own index as culprit and detector. -/
def State.abortOwn (s : State) (g cause : Nat) : State :=
  match s.groupConf g, (s.kgroup g).running with
  | some c, some j => s.abortKJob c j { cause := cause, culprit := c.my, detector := c.my, digest := 0 } j.addr
  | _, _ => s

/-- KLN_CTRL_ABORT (R554). -/
def execKlnCtrlAbort (v : Word64) (s : State) : Out := .next (s.abortOwn (bits v.toNat 5 0) 6)

/-- KLN_CTRL_RESET (R554): the running collective aborts, every queued descriptor ends with ABORTED, and the group's SEQ
state and recorded aborts clear. -/
def execKlnCtrlReset (v : Word64) (s : State) : Out :=
  let g := bits v.toNat 5 0
  let s := s.abortOwn g 6
  .next (match s.groupConf g with
    | none => s
    | some c =>
      let ab : KAbort := { cause := 6, culprit := c.my, detector := c.my, digest := 0 }
      let s := (s.kgroup g).jobs.foldl (fun s j => s.endAborted c j ab j.addr) s
      s.modGroup g fun k => { k with next := 0, aborted := 0, pend := [], heard := [] })

/-- KILN_STALL_EXPIRY (cause 0x7 of R549). -/
def execKilnStallExpiry (g : Nat) (s : State) : Out :=
  inRange g 64 s fun s => if s.fld .klnStall 0 0 15 0 = 0 then s else s.abortOwn g 7

/-- A kiln slice enters quiesce (R555). -/
def State.quiesceKiln (s : State) (slice : Nat) : State := (s.sliceGroups slice).foldl (fun s g => s.abortOwn g 9) s

/-- The device of a member is declared dead (cause 0x2 of R549). -/
def State.kilnDead (s : State) (device : Nat) : State :=
  (List.range 64).foldl (fun s g => match s.groupConf g, (s.kgroup g).running with
    | some c, some j =>
      match lowest c.members.length fun i => ((c.members[i]?).bind s.deviceOf) == some device with
      | some i => s.abortKJob c j { cause := 2, culprit := i, detector := c.my, digest := 0 } j.addr
      | none => s
    | _, _ => s) s

/-- A full fold ends every collective without writing any descriptor (R556). -/
def State.clearKiln (s : State) : State :=
  (s.dropUnits (fun r => r.source == 7) .none).setKiln { Kiln.fresh with order := s.kiln.order, subs := s.kiln.subs }

end Sys2Proof.Machine
end

