-- ==== Sys2Proof/Machine/Grad.lean ====
section
/-! DEFINITION. Gradient reduction (14_gradient_reduction.md): buckets and their tally channels, chunks of a bucket, sampled
verification, the seal and redelivery. -/

namespace Sys2Proof.Machine

/-! ### Bucket descriptors (Table 14.1) -/

def bkChan (d : List Byte) : Nat := leAt d 1 1
def bkOutFmt (d : List Byte) : Nat := leAt d 3 1
def bkCount (d : List Byte) : Nat := leAt d 4 4
def bkFeed (d : List Byte) : Nat := leAt d 8 8
def bkDst (d : List Byte) : Nat := leAt d 16 8
def bkG (d : List Byte) : Int := sext 16 (leAt d 32 2)
def bkFeedCount (d : List Byte) : Nat := leAt d 36 2
def bkSeal (d : List Byte) : Nat := leAt d 40 8

/-- The bytes of a result element in OUT_FMT, and of the whole result (R571). -/
def bkElem (d : List Byte) : Nat := if bkOutFmt d = 0x11 then 8 else 4
def bkBytes (d : List Byte) : Nat := bkCount d * bkElem d

/-- The entries of the seal table. -/
def bkBales (d : List Byte) : Nat := (bkBytes d + 4095) / 4096

/-- The feed list in its bytes (R560). -/
def feedEntries : Nat → List Byte → List (Nat × Nat)
  | 0, _ => []
  | n + 1, bs => (bits (leAt bs 0 4) 31 15, bits (leAt bs 0 4) 14 0) :: feedEntries n (bs.drop 4)

/-- The enabled channel with a number (R248). -/
def State.chanConf (s : State) (ch : Nat) : Option Chan := match s.fold with
  | some x => match x.chans[ch]? with
    | some c => if c.enable then some c else none
    | none => none
  | none => none

/-- Outcome 4 of R565. FEED_COUNT and the row counts are held to Table 14.1 and R560 here (DESIGN CHOICE, log entry 68). -/
def bucketWellFormed (d : List Byte) (feed : List (Nat × Nat)) (ch : Chan) (bytes : Nat) : Bool :=
  let c := min (2 ^ 20) (bytes / 8)
  leAt d 0 1 == 6 && decide (leAt d 2 1 ≤ 1) && [0x00, 0x11].contains (bkOutFmt d) && bkCount d % 512 == 0 &&
    decide (512 ≤ bkCount d) && decide (bkCount d * 8 ≤ bytes - 6 * c) && (leAt d 2 1 == 1 || leAt d 34 1 == 0) &&
    decide (leAt d 35 1 < 16) && decide (1 ≤ bkFeedCount d) && decide (bkFeedCount d ≤ 4096) && leAt d 38 2 == 0 &&
    ofLE (slice d 48 16) == 0 && ofLE (slice d 96 32) == 0 &&
    (feed.all fun e => decide (1 ≤ e.2) && match coreOfId e.1 with
      | some (f, _) => bit ch.flocks f
      | none => true) &&
    (feed.map fun e => e.2).sum * 16 == bkCount d

/-- Outcome 5 of R565. -/
def bucketAddresses (a : Nat) (d : List Byte) : Bool :=
  a % 128 == 0 && inSram a 128 && bkFeed d % 4 == 0 && inSram (bkFeed d) (4 * bkFeedCount d) && bkDst d % 4096 == 0 &&
    memOf (bkDst d) (bkBytes d) == some .stacked && compOk (leAt d 24 8) && bkSeal d % 64 == 0 &&
    inOne (bkSeal d) (4 * bkBales d)

/-- The buckets that a channel has queued or running. -/
def State.chanJobs (s : State) (ch : Nat) : List KJob :=
  (s.kiln.groups.flatMap fun g => g.2.jobs).filter fun j => match j.bucket with
    | some b => b.chan == ch
    | none => false

/-- The job that a bucket descriptor makes (R566). -/
def bucketJob (c : Group) (a : Nat) (d : List Byte) (feed : List (Nat × Nat)) (seq order : Nat) : KJob :=
  let alg := kAlg c (bkCount d * 8)
  let size := leAt d 32 2 * 2 ^ 18 + leAt d 2 1 * 2 ^ 17 + leAt d 34 1 * 2 ^ 9 + bkCount d / 512 % 512
  { addr := a, raw := d, seq := seq, alg := alg, digest := kDigest seq c.num 6 0 0x11 alg size, order := order, run := false,
    chunks := [], next := 0, ended := 0,
    bucket := some { chan := bkChan d, feed := feed, entry := 0, rows := 0, fed := [], peak := -32768, kept := [],
                     markers := 0, flags := 0 } }

/-- The kiln's answer to a bucket submission (R565): the state, and the status with the channel's group; none while a read has to
wait. A feed entry that names no core of R37 gets ADDRESS_FAULT. -/
def State.submitBucket (s : State) (a : Nat) : State × Option (Nat × Option Nat) :=
  match s.kilnReads (kSubReq a) [(a, 128)] with
  | (s, none) => (s, none)
  | (s, some (st, _, bss)) =>
    let d := bss.flatten
    if st ≠ stOk then (s, some (st, none))
    else match s.kilnRead (kSubReq (bkFeed d)) (4 * bkFeedCount d) with
      | (s, none) => (s, none)
      | (s, some (st, fbs)) =>
        let group := (s.chanConf (bkChan d)).map fun ch => ch.group
        let say (st : Nat) : Option (Nat × Option Nat) := some (st, group)
        if st ≠ stOk then (s, say st)
        else
          let feed := feedEntries (bkFeedCount d) fbs
          match s.chanConf (bkChan d), group.bind s.groupConf with
          | some ch, some c =>
            let k := s.kgroup c.num
            if s.sliceQuiet (s.resvOf c).slice then (s, say stTargetReset)
            else if !bucketWellFormed d feed ch (s.resvOf c).bytes then (s, say stRefused)
            else if !bucketAddresses a d || feed.any fun e => (coreOfId e.1).isNone then (s, say stAddressFault)
            else if 4 ≤ (s.chanJobs (bkChan d)).length ∨ 16 ≤ k.queued then (s, say stDeferred)
            else (s.enqueueKJob c (bucketJob c a d feed k.next s.kiln.order), say stOk)
          | _, _ => (s, say stRefused)

/-! ### Redelivery descriptors (Table 14.5) -/

def rdBucket (d : List Byte) : Nat := leAt d 8 8
def rdFirst (d : List Byte) : Nat := leAt d 16 4
def rdBales (d : List Byte) : Nat := leAt d 20 4
def rdComp (d : List Byte) : Nat := leAt d 24 8

/-- A descriptor as Table 14.5 has it. -/
def redelWellFormed (a : Nat) (d buck : List Byte) : Bool :=
  a % 64 == 0 && inSram a 64 && ofLE (slice d 1 7) == 0 && ofLE (slice d 40 24) == 0 && decide (1 ≤ rdBales d) &&
    decide (rdFirst d + rdBales d ≤ bkBales buck) && compOk (rdComp d)

/-- The running bucket of a group whose descriptor lies at an address. -/
def State.runningBucket (s : State) (g a : Nat) : Option KJob := match (s.kgroup g).running with
  | some j => if j.bucket.isSome ∧ j.addr = a then some j else none
  | none => none

/-- The chunks that hold result bytes of bale `b`. -/
def KJob.baleChunks (j : KJob) (m bytes b : Nat) : List Nat :=
  let e := j.chunkE m bytes * bkElem j.raw
  let lo := b * 4096 / e
  let hi := (min (b * 4096 + 4096) (bkBytes j.raw) - 1) / e
  (List.range (hi + 1 - lo)).map fun i => lo + i

/-- Every chunk that holds result bytes of bale `b` has completed. -/
def KJob.baleDone (j : KJob) (m bytes b : Nat) : Bool := match j.bucket with
  | some x => (j.baleChunks m bytes b).all fun k => x.kept.any fun y => y.1 == k
  | none => false

/-- The kiln's answer to a redelivery submission (R584): the state, and the status with the bucket's group. -/
def State.submitRedel (s : State) (a : Nat) : State × Option (Nat × Option Nat) :=
  match s.kilnRead (kSubReq a) 64 with
  | (s, none) => (s, none)
  | (s, some (st, d)) =>
    if st ≠ stOk then (s, some (st, none))
    else match s.kilnRead (kSubReq (rdBucket d)) 96 with
      | (s, none) => (s, none)
      | (s, some (st, buck)) =>
        if st ≠ stOk then (s, some (st, none))
        else match (s.chanConf (bkChan buck)).bind fun ch => s.groupConf ch.group with
          | none => (s, some (stRefused, none))
          | some c =>
            let m := c.members.length
            let bytes := (s.resvOf c).bytes
            let run := s.runningBucket c.num (rdBucket d)
            let ready : Bool := match run with
              | some j => (List.range (rdBales d)).all fun i => j.baleDone m bytes (rdFirst d + i)
              | none => bit (leAt buck 72 1) 6
            if s.sliceQuiet (s.resvOf c).slice then (s, some (stTargetReset, some c.num))
            else if !redelWellFormed a d buck || leAt buck 0 1 != 6 || !ready then (s, some (stRefused, some c.num))
            else
              let r : Redel := { id := s.kiln.order, addr := a, raw := d, buck := buck, group := c.num, done := 0,
                                 peer := if run.isSome then 0 else 1, got := [], asked := false, stat := stOk }
              (s.setKiln { s.kiln with redel := s.kiln.redel ++ [r], order := s.kiln.order + 1 }, some (stOk, some c.num))

/-- The kiln's answer to a write of KLN_GRAD_SUBMIT: OP tells a redelivery from a bucket (R583). -/
def State.submitGrad (s : State) (a : Nat) : State × Option (Nat × Option Nat) :=
  match s.kilnRead (kSubReq a) 64 with
  | (s, none) => (s, none)
  | (s, some (st, d)) =>
    if st ≠ stOk then (s, some (st, none)) else if leAt d 0 1 = 7 then s.submitRedel a else s.submitBucket a

/-! ### Submissions (R525, R527) -/

/-- The kiln's answer to a submission; none while it cannot read what it is given. -/
def State.submit (s : State) (x : KSub) : State × Option (Nat × Option Nat) :=
  if x.grad then s.submitGrad x.addr else s.submitColl x.addr

/-- The submissions of the host and the drover are answered in the order in which they arrived, as far as they can be (R527). -/
def State.answerSubs (s : State) : Nat → State
  | 0 => s
  | n + 1 => match s.kiln.subs with
    | [] => s
    | x :: _ => match s.submit x with
      | (s, none) => s
      | (s, some (st, g)) =>
        ((s.setKiln { s.kiln with subs := s.kiln.subs.drop 1 }).submitResult x.addr st g).answerSubs n

/-- A submission by an origin: a fabric write is answered in its packet, the others in KLN_SUBMIT_RESULT. -/
def State.submitBy (s : State) (o : Origin) (x : KSub) : State :=
  if o = .fabric then (s.submit x).1
  else
    let s := s.setKiln { s.kiln with subs := s.kiln.subs ++ [x] }
    s.answerSubs s.kiln.subs.length

/-- KLN_SUBMIT (R525 to R527). -/
def execKlnSubmit (o : Origin) (v : Word64) (s : State) : Out := .next (s.submitBy o { addr := bits v.toNat 47 0, grad := false })

/-- BUCKET_SUBMIT (R527, R565). -/
def execBucketSubmit (o : Origin) (v : Word64) (s : State) : Out := .next (s.submitBy o { addr := bits v.toNat 47 0, grad := true })

/-- REDELIVER_SUBMIT (R527, R584). -/
def execRedeliverSubmit (o : Origin) (v : Word64) (s : State) : Out := .next (s.submitBy o { addr := bits v.toNat 47 0, grad := true })

/-! ### Rows (R559 to R563, R570 to R573) -/

/-- The lowest chunk of a bucket that has not completed. -/
def KBucket.lowOpen (b : KBucket) (n : Nat) : Nat := (lowest n fun k => !b.kept.any fun x => x.1 == k).getD n

/-- A row has been accepted. -/
def KBucket.accept (b : KBucket) (r : GradRow) (count : Nat) : KBucket :=
  let last := decide (count ≤ b.rows + 1)
  { b with
    fed := b.fed ++ r.vals
    peak := if b.peak < r.peak then r.peak else b.peak
    entry := if last then b.entry + 1 else b.entry
    rows := if last then 0 else b.rows + 1 }

/-- The row that waits for a channel at the core that the current entry names. -/
def State.offered (s : State) (b : KBucket) : Option (Nat × Nat × Nat × GradRow) :=
  match b.feed[b.entry]? with
  | none => none
  | some (id, count) => match coreOfId id with
    | none => none
    | some (f, c) => match (s.core f c).grad with
      | some r => if r.ch = b.chan then some (f, c, count, r) else none
      | none => none

/-- CHANNEL_ROW_ACCEPT (R560 to R563, R570, R572, R573): the channel takes the next row of the running bucket while the
row's chunk has room; a row with another G aborts the bucket. -/
def execChannelRowAccept (ch : Nat) (s : State) : Out :=
  inRange ch 16 s fun s =>
    match (s.chanConf ch).bind fun x => s.groupConf x.group with
    | none => s
    | some c => match (s.kgroup c.num).running with
      | none => s
      | some j => match j.bucket with
        | none => s
        | some b => match s.offered b with
          | none => s
          | some (f, k, count, r) =>
            let m := c.members.length
            let bytes := (s.resvOf c).bytes
            if b.chan ≠ ch ∨ b.lowOpen (j.nchunks m bytes) + 2 ≤ b.fed.length / j.chunkE m bytes then s
            else
              let s := s.modCore f k Core.gradTaken
              if r.g ≠ bkG j.raw then s.abortOwn c.num 0xA
              else s.putKJob c.num { j with bucket := some (b.accept r count) }

/-- A core that the rest of a running bucket's feed list names will not feed it (cause 0xB of Table 14.7). -/
def State.feedLost (s : State) (lost : Nat → Nat → Bool) : State :=
  (List.range 64).foldl (fun s g => match (s.kgroup g).running with
    | some j => match j.bucket with
      | some b =>
        if (b.feed.drop b.entry).any fun e => match coreOfId e.1 with
          | some (f, c) => lost f c
          | none => false
        then s.abortOwn g 0xB else s
      | none => s
    | none => s) s

/-! ### Chunks of a bucket (R571, R576, R579) -/

/-- A result element in OUT_FMT (R72). -/
def KJob.outBytes (j : KJob) (x : Nat) : List Byte :=
  if bkOutFmt j.raw = 0x11 then leBytes 8 x else outElem 0x00 (fabVal (bkG j.raw) x)

/-- Result bytes in a range of DST, from the retained copy. -/
def KJob.resultBytes (j : KJob) (m bytes lo n : Nat) : List Byte :=
  let e := bkElem j.raw
  let ce := j.chunkE m bytes
  let kept := match j.bucket with
    | some b => b.kept
    | none => []
  let elem (p : Nat) : Nat := match kept.find? fun x => x.1 == p / ce with
    | some x => (x.2[p % ce]?).getD 0
    | none => 0
  slice ((List.range ((n + e - 1) / e + 1)).flatMap fun i => j.outBytes (elem (lo / e + i))) (lo % e) n

/-- The result bytes of bale `b`: 4,096, or what the end of the result leaves. -/
def bkBaleLen (d : List Byte) (b : Nat) : Nat := min 4096 (bkBytes d - b * 4096)

/-- The seal-table entries that a chunk's completion makes: address and bytes. -/
def KJob.sealEntries (j : KJob) (m bytes k : Nat) : List (Nat × List Byte) :=
  ((List.range (bkBales j.raw)).filter fun b => (j.baleChunks m bytes b).contains k && j.baleDone m bytes b).map fun b =>
    (bkSeal j.raw + 4 * b, leBytes 4 (crc32c (j.resultBytes m bytes (b * 4096) (bkBaleLen j.raw b))))

/-- A marker among the elements whose sum another member formed, where no partial that passed here was the marker: the data does
not say whether that sum was out of range (R71). -/
def KChunk.foreignMark (k : KChunk) : Bool :=
  (k.elems.zipIdx).any fun x =>
    x.1 == fabMarker && !(decide (k.ownLo ≤ x.2) && decide (x.2 < k.ownLo + k.ownN)) && !k.marks.contains x.2

/-- A chunk's result is kept and its overflows and markers recorded (Table 14.2). `other` says whether another member's sum
was out of range where the result leaves that open. -/
def KJob.keep (j : KJob) (k : KChunk) (other : Bool) : KJob := match j.bucket with
  | none => j
  | some b =>
    let marks := (k.elems.filter (· == fabMarker)).length
    let flags := b.flags ||| (if marks = 0 then 0 else 1) ||| (if k.ovf = 0 ∧ !(other && k.foreignMark) then 0 else 2)
    { (j.dropChunk k) with
      bucket := some { b with kept := b.kept ++ [(k.idx, k.elems)], markers := b.markers + marks, flags := flags }
      ended := j.ended + 1 }

/-- A chunk of a bucket completes: retained copy, seal table, DST, count (R571). Whether OVERFLOW is set for a marker of
another member's sum is a free value (log entry 1). -/
def State.completeChunk (s : State) (c : Group) (j : KJob) (k : KChunk) : State :=
  let m := c.members.length
  let bytes := (s.resvOf c).bytes
  let j' := j.keep k (bit s.freeVal.toNat 0)
  let s := s.bump
  let seals := j'.sealEntries m bytes k.idx
  let lo := k.idx * j.chunkE m bytes * bkElem j.raw
  let result := k.elems.flatMap j.outBytes
  let writes := seals ++ balePieces (result.length / 4096 + 2) (bkDst j.raw + lo) result
  let bad (s : State) (a : Nat) : State :=
    s.abortKJob c j { KAbort.none with cause := 4, culprit := c.my, detector := c.my } a
  match s.kilnStore (kReq c.num j.seq k.idx 0) writes with
  | (s, none) => s
  | (s, some (st, a)) => if st ≠ stOk then bad s a else (s.countOverflow c.num j.seq k.ovf).putKJob c.num j'

/-- CHUNK_COMPLETE (R571, R576). -/
def execChunkComplete (g chunk : Nat) (s : State) : Out :=
  inRange g 64 s fun s =>
    match s.groupConf g, (s.kgroup g).running with
    | some c, some j => match j.chunk chunk false with
      | some k => if j.bucket.isSome ∧ k.stage = .storing ∧ k.idx ≠ sealIdx then s.completeChunk c j k else s
      | none => s
    | _, _ => s

/-- VERIFY_COMPARE (R579): both paths of a sampled chunk have ended. -/
def execVerifyCompare (g chunk : Nat) (s : State) : Out :=
  inRange g 64 s fun s =>
    match (s.kgroup g).running with
    | some j => match j.bucket, j.chunk chunk true with
      | some b, some v => match b.kept.find? fun x => x.1 == chunk with
        | some x =>
          if v.stage ≠ .storing then s
          else
            let flags := b.flags ||| (if x.2 = v.elems then 4 else 8)
            s.putKJob g { (j.dropChunk v) with bucket := some { b with flags := flags } }
        | none => s
      | _, _ => s
    | none => s

/-! ### The seal (R580 to R582) -/

/-- This member's seal block (Table 14.4) as eight elements. -/
def KBucket.block (b : KBucket) (digest : Nat) : List Nat :=
  [wrap 64 b.peak, (bit b.flags 3).toNat, digest, wrap 64 (-(digest : Int)), 0, 0, 0, 0]

/-- SEAL_EXCHANGE_START (R580). -/
def execSealExchangeStart (g : Nat) (s : State) : Out :=
  inRange g 64 s fun s =>
    match s.groupConf g, (s.kgroup g).running with
    | some c, some j => match j.bucket with
      | none => s
      | some b =>
        if j.ended < j.nchunks c.members.length (s.resvOf c).bytes ∨ j.chunks ≠ [] then s
        else match s.kilnReads (kReq g j.seq sealIdx 0) [(bkSeal j.raw, 4 * bkBales j.raw)] with
          | (s, none) => s
          | (s, some (st, a, bss)) =>
            if st ≠ stOk then s.abortKJob c j { KAbort.none with cause := 4, culprit := c.my, detector := c.my } a
            else
              let k := j.enter (j.mkChunk c sealIdx 8 false (b.block (crc32c bss.flatten)) .loading)
              s.putKJob g { j with chunks := [k] }
    | _, _ => s

/-- A redelivery from the retained copy of a bucket is under way (R586). -/
def State.keptInUse (s : State) (a : Nat) : Bool :=
  s.kiln.redel.any fun r => r.peer == 0 && rdBucket r.raw == a && r.stat == stOk && decide (r.done < rdBales r.raw)

/-- BUCKET_SEAL (R573, R574, R581, R582, R586): after CHECKSUM_FAULT, DST may hold any value. -/
def execBucketSeal (g : Nat) (s : State) : Out :=
  inRange g 64 s fun s =>
    match s.groupConf g, (s.kgroup g).running with
    | some c, some j => match j.chunk sealIdx false with
      | some k =>
        if k.stage ≠ .storing ∨ s.keptInUse j.addr then s
        else
          let el (i : Nat) : Nat := (k.elems[i]?).getD 0
          let ok := el 1 == 0 && (el 2 + el 3) % 2 ^ 64 == 0
          s.endKJob { group := g, m := c.members.length, job := j, status := if ok then stOk else stChecksumFault,
                      ab := KAbort.none, peak := sext 64 (el 0) } ok
      | none => s
    | _, _ => s

/-! ### Redelivery (R583 to R587) -/

/-- A redelivery replaced, or taken out. -/
def State.putRedel (s : State) (r : Redel) : State :=
  s.setKiln { s.kiln with redel := s.kiln.redel.map fun x => if x.id = r.id then r else x }
def State.dropRedel (s : State) (id : Nat) : State :=
  s.setKiln { s.kiln with redel := s.kiln.redel.filter fun x => x.id != id }

/-- The current bale, its local address and its result bytes. -/
def Redel.bale (r : Redel) : Nat := rdFirst r.raw + r.done
def Redel.addrOf (r : Redel) : Nat := bkDst r.buck + r.bale * 4096
def Redel.len (r : Redel) : Nat := bkBaleLen r.buck r.bale

/-- The member read now. -/
def Redel.member (r : Redel) (c : Group) : Nat := (c.my + r.peer) % c.members.length

/-- The request of a redelivery to local memory. -/
def Redel.req (r : Redel) (a : Nat) : StackReq := { source := 7, core := 0, addr := a, job := 2 ^ 60 + 1 + r.id }

/-- The bytes that came back, in order, when every piece came back with OK. -/
def Redel.bytes (r : Redel) : Option (List Byte) :=
  let offs := (List.range ((r.len + 511) / 512)).map (512 * ·)
  (offs.mapM fun o => (r.got.find? fun x => x.1 == o && x.2.1 == stOk).map fun x => x.2.2).map fun bss => bss.flatten

/-- The bale is written whole; the rest of a short bale is read first and written back (R585). -/
def State.rewrite (s : State) (r : Redel) (bs : List Byte) : State × Bool :=
  let stop (s : State) (st : Nat) : State × Bool := (s.putRedel { r with stat := st }, true)
  let put (s : State) (bs : List Byte) : State × Bool :=
    match s.tryWriteBale (r.req r.addrOf) none bs with
    | (s, none) => (s, false)
    | (s, some st) =>
      if st ≠ stOk then stop s st
      else (((s.mirrored r.addrOf bs).incFld .klnRedelivery 0 0 63 32).putRedel
        { r with done := r.done + 1, peer := if r.done + 1 < rdBales r.raw then min r.peer 1 else r.peer, got := [],
                 asked := false }, true)
  if r.len = 4096 then put s bs
  else match s.tryReadMem (r.req (r.addrOf + r.len)) 0x1 (4096 - r.len) with
    | (s, none) => (s, false)
    | (s, some (st, rest)) => if st ≠ stOk then stop s st else put s (bs ++ rest)

/-- The READs of a bale are asked of the current peer. -/
def State.askBale (s : State) (c : Group) (r : Redel) : State :=
  ((List.range ((r.len + 511) / 512)).foldl (fun s i =>
    s.niAsk { share := (s.resvOf c).slice, dest := (c.members[r.member c]?).getD 0, byRank := true, op := 0x02, flag := false,
              space := 0, offset := r.addrOf + 512 * i, w4 := BitVec.ofNat 64 (min 512 (r.len - 512 * i)), w5 := 0, w6 := 0,
              pay := .bytes [], owner := .redeliver r.id (512 * i), after := 0 }) s).putRedel { r with asked := true }

/-- One step of a redelivery on its current bale; the second component says whether it went on. -/
def State.redelStep (s : State) (c : Group) (r : Redel) : State × Bool :=
  if r.peer = 0 then
    match s.runningBucket r.group (rdBucket r.raw) with
    | some j => s.rewrite r (j.resultBytes c.members.length (s.resvOf c).bytes (r.bale * 4096) r.len)
    | none => (s.putRedel { r with stat := stChecksumFault }, true)
  else if c.members.length ≤ r.peer then (s.putRedel { r with stat := stChecksumFault }, true)
  else if !r.asked then (s.askBale c r, false)
  else if r.got.length < (r.len + 511) / 512 then (s, false)
  else
    let next (s : State) : State × Bool := (s.putRedel { r with peer := r.peer + 1, got := [], asked := false }, true)
    match r.bytes with
    | none => next s
    | some bs => match s.tryReadMem (r.req (bkSeal r.buck + 4 * r.bale)) 0x1 4 with
      | (s, none) => (s, false)
      | (s, some (st, e)) =>
        if st ≠ stOk then (s.putRedel { r with stat := st }, true)
        else if ofLE e = crc32c bs then s.rewrite r bs
        else next s

/-- A redelivery ends: bytes 32 to 39, the completion word and the counters (R587). -/
def State.endRedel (s : State) (c : Group) (r : Redel) : State :=
  let tail := leBytes 1 (r.stat + 128) ++ leBytes 1 (if r.peer = 0 then 0 else 1) ++
    leBytes 2 (if r.peer = 0 then 0 else (c.my + min r.peer (c.members.length - 1)) % c.members.length) ++ leBytes 4 r.done
  let s := s.kilnPut (r.addr + 32) tail
  let s := s.kilnComplete (rdComp r.raw) r.group (leAt r.buck 76 2) r.addr
  (if r.stat = stOk then s else s.incFld .klnRedelivery 0 0 31 0).dropRedel r.id

/-- A redelivery goes on until it ends or has to wait; `fuel` bounds the steps. -/
def State.redeliver (s : State) (c : Group) (id : Nat) : Nat → State
  | 0 => s
  | fuel + 1 =>
    match s.kiln.redel.find? fun r => r.id == id with
    | none => s
    | some r =>
      if r.stat ≠ stOk ∨ rdBales r.raw ≤ r.done then s.endRedel c r
      else match s.redelStep c r with
        | (s, true) => s.redeliver c id fuel
        | (s, false) => s

/-- REDELIVERY_END (R585 to R587): redelivery `n` rewrites the bales that it can, and ends after the last one. -/
def execRedeliveryEnd (n : Nat) (s : State) : Out :=
  .next (match s.kiln.redel[n]? with
    | none => s
    | some r => match s.groupConf r.group with
      | none => s.dropRedel r.id
      | some c => s.redeliver c r.id (rdBales r.raw * (c.members.length + 1) + 2))

/-- A piece of a peer's bale has come back (R585). -/
def State.redelPiece (s : State) (id off st : Nat) (bs : List Byte) : State :=
  s.setKiln { s.kiln with redel := s.kiln.redel.map fun r => if r.id = id then { r with got := r.got ++ [(off, st, bs)] } else r }

end Sys2Proof.Machine
end

