-- ==== Sys2Proof/Machine/PeatCheck.lean ====
section
/-! DEFINITION. Peat descriptors: their fields (Table 8.1, Table 8.5) and the checks of R330 to R333, R340 and R490 in the
order of R781. -/

namespace Sys2Proof.Machine

/-! ### Fields -/

def pkOp (d : List Byte) : Nat := leAt d 0 1
def pkFlags (d : List Byte) : Nat := leAt d 1 1
def pkExact (d : List Byte) : Bool := bit (pkFlags d) 0
def pkDense (d : List Byte) : Bool := bit (pkFlags d) 1
def pkRowFmt (d : List Byte) : Nat := leAt d 2 1
def pkOutFmt (d : List Byte) : Nat := leAt d 3 1
def pkWgtFmt (d : List Byte) : Nat := leAt d 4 1
def pkCount (d : List Byte) : Nat := leAt d 8 4
def pkSegs (d : List Byte) : Nat := leAt d 12 4
def pkTable (d : List Byte) : Nat := leAt d 16 8
def pkStride (d : List Byte) : Nat := leAt d 24 4
def pkRows (d : List Byte) : Nat := leAt d 28 4
def pkIdxOff (d : List Byte) : Nat := leAt d 32 4
def pkSegOff (d : List Byte) : Nat := leAt d 36 4
def pkWgtOff (d : List Byte) : Nat := leAt d 40 4
def pkDestOff (d : List Byte) : Nat := leAt d 44 4
def pkOutTag (d : List Byte) : Nat := leAt d 48 4
def pkElems (d : List Byte) : Nat := leAt d 52 2
def pkTabTag (d : List Byte) : Nat := leAt d 56 4
def pkMBase (d : List Byte) : Nat := leAt d 64 8
def pkVBase (d : List Byte) : Nat := leAt d 72 8
def pkAlg (d : List Byte) : Nat := leAt d 108 1
def pkG (d : List Byte) : Int := sext 16 (leAt d 110 2)

/-- Whether an ALG of Table 8.6 uses M, and V. -/
def algUsesM (alg : Nat) : Bool := alg == 2 || alg == 3
def algUsesV (alg : Nat) : Bool := alg == 3 || alg == 4

/-- GATHER, SEGSUM and WPOOL. -/
def pkLookup (d : List Byte) : Bool := [0x01, 0x02, 0x03].contains (pkOp d)
def pkOptupd (d : List Byte) : Bool := pkOp d == 0x08
/-- KREAD, KWRITE and KADD. -/
def pkKindling (d : List Byte) : Bool := [0x10, 0x11, 0x12].contains (pkOp d)
/-- SEGSUM and WPOOL. -/
def pkPools (d : List Byte) : Bool := pkOp d == 0x02 || pkOp d == 0x03

/-! ### Step 1: the descriptor's own fields (R330 to R332) -/

/-- Bytes `i` to `i + n - 1` hold zero. -/
def zeroAt (d : List Byte) (i n : Nat) : Bool := leAt d i n == 0

/-- The output formats of Table 8.2. -/
def outFmtOk (c : Nat) : Bool := decide (c ≤ 0x05) || c == 0x10

/-- ROW_STRIDE of Table 8.1. -/
def strideOk (d : List Byte) : Bool :=
  let n := pkStride d
  if pkKindling d then n == 8 || (n == 16 && pkOp d != 0x12)
  else [32, 64, 128, 256, 512, 1024, 2048].contains n || (n % 4096 == 0 && decide (4096 ≤ n) && decide (n ≤ 2 ^ 20))

/-- The format codes and fields that a lookup descriptor must hold. -/
def lookupFields (d : List Byte) : Bool :=
  let row := pkRowFmt d
  let ex := pkExact d
  (if ex then decide (3 ≤ row) && decide (row ≤ 5) else decide (row ≤ 5)) && outFmtOk (pkOutFmt d) &&
    (if pkOp d = 0x03 then
      (if ex then (match pairCode (pkWgtFmt d) row with
        | some p => decide (p ≤ 4)
        | none => false) else pkWgtFmt d == 0)
     else zeroAt d 4 1 && zeroAt d 40 4) &&
    (if pkPools d then decide (1 ≤ pkSegs d) && decide (pkSegs d ≤ 65536) else zeroAt d 12 4 && zeroAt d 36 4) &&
    zeroAt d 56 4

/-- The format codes and fields that an OPTUPD descriptor must hold (Tables 8.2 and 8.5). -/
def optupdFields (d : List Byte) : Bool :=
  let alg := pkAlg d
  decide (pkRowFmt d ≤ 1) && (pkWgtFmt d == 0x00 || pkWgtFmt d == 0x11) && zeroAt d 3 1 && zeroAt d 12 4 && zeroAt d 36 4 &&
    zeroAt d 44 4 &&
    (if pkDense d then zeroAt d 32 4 && decide (pkCount d ≤ pkRows d) else zeroAt d 56 4) &&
    decide (1 ≤ alg) && decide (alg ≤ 4) && (algUsesM alg || zeroAt d 64 8) && (algUsesV alg || zeroAt d 72 8) &&
    zeroAt d 109 1 && (pkWgtFmt d == 0x11 || zeroAt d 110 2) && zeroAt d 112 16

/-- The fields that a kindling descriptor must hold (R331, R346). -/
def kindlingFields (d : List Byte) : Bool :=
  zeroAt d 2 3 && zeroAt d 12 4 && zeroAt d 16 8 && zeroAt d 28 4 && zeroAt d 48 4 && zeroAt d 52 2 && zeroAt d 56 4 &&
    (pkOp d != 0x10 || zeroAt d 40 4) && (pkOp d != 0x11 || zeroAt d 44 4)

/-- FLAGS of Table 8.1: EXACT for SEGSUM and WPOOL only, DENSE for OPTUPD only. -/
def flagsOk (d : List Byte) : Bool :=
  decide (pkFlags d < 4) && (!pkExact d || pkPools d) && (!pkDense d || pkOptupd d)

/-- Step 1 of R781; `len` is LENGTH of the DMA descriptor. -/
def fieldsOk (d : List Byte) (len : Nat) : Bool :=
  (pkLookup d || pkOptupd d || pkKindling d) && len == (if pkOptupd d then 128 else 64) && flagsOk d && zeroAt d 5 3 &&
    zeroAt d 54 2 && zeroAt d 60 4 && decide (1 ≤ pkCount d) && decide (pkCount d ≤ 65536) && strideOk d &&
    (if pkKindling d then kindlingFields d
     else (if pkOptupd d then optupdFields d else lookupFields d) && pkElems d % 16 == 0 &&
       decide (16 ≤ pkElems d) && decide (pkElems d ≤ 2048) &&
       decide (pkElems d * (fmtBits (pkRowFmt d) / 8) ≤ min (pkStride d) 4096))

/-! ### Step 2: the arrays (R331) -/

/-- The bytes of one weight of a WPOOL, or of one gradient element of an OPTUPD. -/
def wgtBytes (d : List Byte) : Nat := if pkOptupd d then fmtBits (pkWgtFmt d) / 8 else if pkExact d then 1 else 4

/-- The bytes of one output row. -/
def outRowBytes (d : List Byte) : Nat := pkElems d * (fmtBits (pkOutFmt d) / 8)

/-- The output rows of a lookup. -/
def outRows (d : List Byte) : Nat := if pkPools d then pkSegs d else pkCount d

/-- The arrays of a descriptor: place of the offset field, offset, bytes and alignment. -/
def pkArrays (d : List Byte) : List (Nat × Nat × Nat × Nat) :=
  let n := pkCount d
  let x := pkStride d
  if pkKindling d then
    [(32, pkIdxOff d, 8 * n, 8), (36, pkSegOff d, n, 8)] ++
      (if pkOp d = 0x10 then [] else [(40, pkWgtOff d, n * x, 8)]) ++
      (if pkOp d = 0x11 then [] else [(44, pkDestOff d, n * x, 64)])
  else if pkOptupd d then
    (if pkDense d then [] else [(32, pkIdxOff d, 4 * n, 8)]) ++ [(40, pkWgtOff d, n * pkElems d * wgtBytes d, 8)]
  else
    [(32, pkIdxOff d, 4 * n, 8)] ++ (if pkPools d then [(36, pkSegOff d, 4 * pkSegs d, 8)] else []) ++
      (if pkOp d = 0x03 then [(40, pkWgtOff d, n * wgtBytes d, 8)] else []) ++
      [(44, pkDestOff d, outRows d * outRowBytes d, 64)]

/-- The field of the array that breaks R331, the array with the lowest offset first. -/
def arrayBad (d : List Byte) : Option Nat :=
  let bad := (pkArrays d).filter fun x => x.2.1 % x.2.2.2 != 0 || decide (storeSize < x.2.1 + x.2.2.1)
  (bad.foldl (fun m x => match m with
    | some y => if x.2.1 < y.2.1 then some x else some y
    | none => some x) (none : Option (Nat × Nat × Nat × Nat))).map fun x => x.1

/-! ### Steps 3 to 6 -/

/-- The little-endian numbers of an array. -/
def State.storeNums (s : State) (f off n w : Nat) : List Nat :=
  (List.range n).map fun i => ofLE (s.rdStore f (off + w * i) w)

/-- Segment ends do not decrease and the last equals COUNT. -/
def segEndsOk (count : Nat) : Nat → List Nat → Bool
  | prev, [] => prev == count
  | prev, e :: es => decide (prev ≤ e) && segEndsOk count e es

/-- The bytes of the M range, and of the V range (R340). -/
def mRange (d : List Byte) : Nat := pkRows d * pkElems d * 4
def vRange (d : List Byte) : Nat := if pkAlg d = 4 then pkRows d * 4 else mRange d

/-- The ranges that a lookup or an update reaches: field, base and bytes. -/
def pkRanges (d : List Byte) : List (Nat × Nat × Nat) :=
  [(16, pkTable d, pkRows d * pkStride d)] ++
    (if pkOptupd d && algUsesM (pkAlg d) then [(64, pkMBase d, mRange d)] else []) ++
    (if pkOptupd d && algUsesV (pkAlg d) then [(72, pkVBase d, vRange d)] else [])

/-- The field whose base or range breaks R333. -/
def rangeBad (d : List Byte) : Option Nat :=
  ((pkRanges d).find? fun x => x.2.1 % 4096 != 0 || decide (0x018000000000 < x.2.1 + x.2.2)).map fun x => x.1

/-- Two ranges share a byte. -/
def rangesMeet (x y : Nat × Nat × Nat) : Bool := decide (x.2.1 < y.2.1 + y.2.2) && decide (y.2.1 < x.2.1 + x.2.2)

/-- Some two of the parameter, M and V ranges overlap (R340). -/
def rangesOverlap : List (Nat × Nat × Nat) → Bool
  | [] => false
  | x :: xs => xs.any (rangesMeet x) || rangesOverlap xs

/-- A range has a line of a coherent window that this device does not home (R490). -/
def State.touchesForeign (s : State) (a n : Nat) : Bool :=
  match s.fold with
  | none => false
  | some x => x.windows.any fun w => (List.range w.members.length).any fun i =>
      -- the first page of the window in the range that member `i` homes
      let lo := max a w.base
      let hi := min (a + n) (w.base + w.len)
      let p := (lo - w.base) / 4096
      let q := p + (i + w.members.length - p % w.members.length) % w.members.length
      decide (lo < hi) && decide (w.base + q * 4096 < hi) && decide ((w.members[i]?).getD 0 ≠ x.rank)

/-- The row index of position `i` of a lookup or an update. -/
def State.pkRow (s : State) (f : Nat) (d : List Byte) (i : Nat) : Nat :=
  if pkDense d then i else ofLE (s.rdStore f (pkIdxOff d + 4 * i) 4)

/-- The address of the table row, or the kindling address, of position `i`. -/
def State.pkAddr (s : State) (f : Nat) (d : List Byte) (i : Nat) : Nat :=
  if pkKindling d then ofLE (s.rdStore f (pkIdxOff d + 8 * i) 8) else pkTable d + s.pkRow f d i * pkStride d

/-- The bytes of a table row. -/
def pkRowBytes (d : List Byte) : Nat := pkElems d * (fmtBits (pkRowFmt d) / 8)

/-- The address and bytes of the M row, and of the V row, of parameter row `r` (R340); no bytes where ALG uses none. -/
def mRow (d : List Byte) (r : Nat) : Nat × Nat :=
  (pkMBase d + r * pkElems d * 4, if algUsesM (pkAlg d) then pkElems d * 4 else 0)
def vRow (d : List Byte) (r : Nat) : Nat × Nat :=
  if pkAlg d = 4 then (pkVBase d + 4 * r, 4)
  else (pkVBase d + r * pkElems d * 4, if algUsesV (pkAlg d) then pkElems d * 4 else 0)

/-- The whole bales of a range: a DENSE update reads and writes them back (R345). -/
def wholeBales (rng : Nat × Nat × Nat) : List Nat := (List.range (rng.2.2 / 4096)).map fun i => rng.2.1 + 4096 * i

/-- The ranges that position `i` of an update accesses. -/
def State.rowRanges (s : State) (f : Nat) (d : List Byte) (i : Nat) : List (Nat × Nat) :=
  [(s.pkAddr f d i, pkRowBytes d)] ++
    (if pkOptupd d then [mRow d (s.pkRow f d i), vRow d (s.pkRow f d i)].filter fun x => decide (0 < x.2) else [])

/-- A descriptor accesses a line of a coherent window that this device does not home (R490). -/
def State.peatForeign (s : State) (f : Nat) (d : List Byte) : Bool :=
  ((List.range (pkCount d)).any fun i => (s.rowRanges f d i).any fun x => s.touchesForeign x.1 x.2) ||
    (pkDense d && (pkRanges d).any fun x => s.touchesForeign x.2.1 (x.2.2 / 4096 * 4096))

/-- The first failing check of a descriptor at flock-store offset `off` (R332, R333, R340, R490, R781): status and the
address to log. -/
def State.peatCheck (s : State) (f off len : Nat) (d : List Byte) : Option (Nat × Nat) :=
  let here := storeAddr f off
  if !fieldsOk d len then some (stRefused, here)
  else match arrayBad d with
    | some x => some (stAddressFault, here + x)
    | none =>
      if pkPools d && !segEndsOk (pkCount d) 0 (s.storeNums f (pkSegOff d) (pkSegs d) 4) then some (stRefused, here)
      else if pkKindling d then none
      else match rangeBad d with
        | some x => some (stAddressFault, here + x)
        | none =>
          if rangesOverlap (pkRanges d) then some (stRefused, here)
          else match (if pkDense d then none else lowest (pkCount d) fun i => decide (pkRows d ≤ s.pkRow f d i)) with
            | some i => some (stAddressFault, storeAddr f (pkIdxOff d + 4 * i))
            | none => if s.peatForeign f d then some (stRefused, here) else none

end Sys2Proof.Machine
end

