-- ==== Sys2Proof/Machine/Peat.lean ====
section
/-! DEFINITION. The peat units (08_peat_units.md): admission, requests to serving units, lookups and pooling, optimizer
updates, kindling accesses, delivery and completion. -/

namespace Sys2Proof.Machine

/-! ### Descriptors in a peat unit -/

def PeatJob.is (j : PeatJob) (f c seq : Nat) : Bool := j.f == f && j.c == c && j.seq == seq

def State.job (s : State) (f c seq : Nat) : Option PeatJob := s.peat.find? fun j => j.is f c seq

def State.setPeat (s : State) (js : List PeatJob) : State := { s with peat := js }

def State.putJob (s : State) (j : PeatJob) : State := s.setPeat (s.peat.map fun x => if x.is j.f j.c j.seq then j else x)

def State.dropJob (s : State) (j : PeatJob) : State := s.setPeat (s.peat.filter fun x => !x.is j.f j.c j.seq)

/-- The peat fault log of the executing peat unit (R363). -/
def State.peatLog (s : State) (f c op status rows addr : Nat) : State :=
  s.log .peatFaultInfo (f / 56) 0 (status * 2 ^ 42 + op * 2 ^ 34 + rows * 2 ^ 17 + coreId f c) (some (61, 46))
    (some (.peatFaultAddr, addr)) 0x04 (f / 56)

/-- The descriptor `n` of a core, if it is a started peat descriptor. -/
def State.peatDma (s : State) (f c n : Nat) : Option Dma :=
  match (s.core f c).dma[n]? with
  | some d => if d.started && d.op == 0x04 then some d else none
  | none => none

/-- The effect of a command on an admitted descriptor `n` of a core. -/
def onJob (f c n : Nat) (s : State) (k : PeatJob → State → State) : Out :=
  onCore f c s fun s =>
    match s.peatDma f c n with
    | none => s
    | some d => match s.job f c d.seq with
      | some j => k j s
      | none => s

/-- A descriptor of the given operation. -/
def onPeatOp (op f c n : Nat) (s : State) (k : PeatJob → State → State) : Out :=
  onJob f c n s fun j s => if pkOp j.raw = op ∧ j.status = stOk then k j s else s

/-! ### Admission (R327, R328, R332, R361, R781) -/

/-- The peat unit admits no new descriptor (Table 17.2, R677). -/
def State.peatHeld (s : State) (p : Nat) : Bool := s.rbit .thmStk 0 p 13 || s.tripped || (s.fwStep == 4 && s.fwUnit == p)

/-- The entry that a descriptor of a flock takes: its flock's own (false), a shared one (true), or none. -/
def State.peatEntry (s : State) (f : Nat) : Option Bool :=
  if !(s.peat.any fun j => j.f == f && !j.pool) then some false
  else if (s.peat.filter fun j => j.f / 56 == f / 56 && j.pool).length < 8 then some true
  else none

/-- PEAT_DESCRIPTOR_ADMIT: a descriptor that the shepherd forwarded is refused, put off (DEFERRED, which the DMA engine
retries), or read, checked and admitted. -/
def execPeatDescriptorAdmit (f c n : Nat) (s : State) : Out :=
  onCore f c s fun s =>
    match s.peatDma f c n with
    | none => s
    | some d =>
      let off := d.src - storeAddr f 0
      let raw := s.rdStore f off d.len
      let op := leAt raw 0 1
      if (s.job f c d.seq).isSome || s.flockQuiet f then s
      else if !s.stkReady (f / 56) then (s.peatLog f c op stTargetReset 0 d.src).dmaFail f c d stTargetReset
      else if s.peatHeld (f / 56) then s
      else match s.peatEntry f with
        | none => s
        | some pool =>
          match s.peatCheck f off d.len raw with
          | some (st, a) => (s.peatLog f c op st 0 a).dmaFail f c d st
          | none =>
            s.setPeat (s.peat ++ [{ f := f, c := c, seq := d.seq, raw := raw, pool := pool, asked := 0, got := [], done := 0,
                                    todo := [], formed := false, out := [], sent := 0, again := false, status := stOk,
                                    addr := d.src, low := 0 }])

/-! ### Serving units (R326, R329, R361) -/

def State.serveUnit (s : State) (i : Nat) : PeatServe := Sparse.get PeatServe.fresh s.pserve i

def State.setServe (s : State) (i : Nat) (u : PeatServe) : State :=
  { s with pserve := Sparse.set PeatServe.fresh s.pserve i u }

/-- The status of a kindling access that never reaches a serving unit (R347, R490). -/
def State.kindleBad (s : State) (j : PeatJob) (i : Nat) : Nat :=
  let a := s.pkAddr j.f j.raw i
  let n := pkStride j.raw
  if 0x018000000000 < a + n ∨ a % n ≠ 0 then stAddressFault
  else if (s.homedElsewhere a).isSome ∧ pkOp j.raw ≠ 0x12 then stRefused
  else stOk

/-- The lowest position of a descriptor whose row or address lies in stack `i` and whose request no unit has taken. -/
def State.nextAsk (s : State) (j : PeatJob) (i : Nat) : Option Nat :=
  if j.status ≠ stOk then none
  else lowest (pkCount j.raw) fun k =>
    !bit j.asked k && (!pkKindling j.raw || s.kindleBad j k == stOk) && s.stackOf (s.pkAddr j.f j.raw k) == i

/-- The first descriptor of executing unit `e` with a request for stack `i`. -/
def State.firstAsk (s : State) (e i : Nat) : Option (PeatJob × Nat) :=
  s.peat.findSome? fun j => if j.f / 56 = e then (s.nextAsk j i).map fun k => (j, k) else none

/-- PEAT_ROW_REQUEST (R329): the serving unit takes one request, round-robin over executing units. A unit that is not
ready answers TARGET_RESET (R361). -/
def execPeatRowRequest (stack : Nat) (s : State) : Out :=
  inRange stack 12 s fun s =>
    let u := s.serveUnit stack
    match (List.range 12).findSome? fun k =>
        let e := (u.last + 1 + k) % 12
        (s.firstAsk e stack).map fun x => (e, x) with
    | none => s
    | some (e, j, k) =>
      let j := { j with asked := setBit j.asked k true }
      if s.stkReady stack then
        (s.putJob j).setServe stack { last := e, asks := u.asks ++ [{ f := j.f, c := j.c, seq := j.seq, pos := k }] }
      else (s.putJob { j with got := j.got ++ [(k, stTargetReset, [])] }).setServe stack { u with last := e }

/-- The request of a descriptor to stacked memory: the SOURCE of the peat units, the core it acts for, and its push number. -/
def PeatJob.reqAt (j : PeatJob) (a : Nat) : StackReq := { source := 1, core := coreId j.f j.c, addr := a, job := j.seq + 1 }

/-- Another descriptor is in the middle of updating a row of these ranges: the access waits for it (R344). -/
def State.rowLocked (s : State) (j : PeatJob) (rs : List (Nat × Nat)) : Bool :=
  s.peat.any fun k => !k.is j.f j.c j.seq && k.todo.any fun w => rs.any fun x =>
    decide (w.addr < x.1 + x.2) && decide (x.1 < w.addr + w.data.length)

/-- PEAT_ROW_DATA (R296, R298, R326): the oldest request of the serving unit is carried to its row. A table row of a
lookup is read and returns; for an update or a kindling access, the executing unit learns that the row can be reached, and
its operation makes the accesses. -/
def execPeatRowData (stack : Nat) (errs : Errs) (s : State) : Out :=
  inRange stack 12 s fun s =>
    let u := s.serveUnit stack
    match u.asks with
    | [] => s
    | q :: rest =>
      let pop (s : State) : State := s.setServe stack { u with asks := rest }
      match s.job q.f q.c q.seq with
      | none => pop s
      | some j =>
        let a := s.pkAddr j.f j.raw q.pos
        let n := if pkKindling j.raw then pkStride j.raw else pkRowBytes j.raw
        let s := s.eccs a ((a % 32 + n + 31) / 32) errs
        let back (s : State) (st : Nat) (bs : List Byte) : State :=
          pop (s.putJob { j with got := j.got ++ [(q.pos, st, bs)] })
        if pkLookup j.raw then
          if s.rowLocked j [(a, n)] then s
          else match s.tryRead (j.reqAt a) n with
            | (s, none) => s
            | (s, some (st, bs)) => back s st bs
        else if s.stkOpen stack then back s stOk []
        else back (s.stkRefuse stack a 0x1 (coreId j.f j.c)) stTargetReset []

/-! ### Lookups (R335 to R338) -/

/-- The bytes that came back for a position. -/
def PeatJob.row (j : PeatJob) (i : Nat) : List Byte :=
  match j.got.find? fun x => x.1 == i with
  | some (_, _, bs) => bs
  | none => []

/-- Element `e` of the table row of position `i`. -/
def PeatJob.elem (j : PeatJob) (i e : Nat) : FVal := elemVal (pkRowFmt j.raw) (packedElem (pkRowFmt j.raw) (j.row i) e)

/-- The first position of segment `k`, and the one after its last. -/
def State.segment (s : State) (j : PeatJob) (k : Nat) : Nat × Nat :=
  let e (i : Nat) : Nat := ofLE (s.rdStore j.f (pkSegOff j.raw + 4 * i) 4)
  (if k = 0 then 0 else e (k - 1), e k)

/-- The weight of position `i`: 1 for SEGSUM, else its list entry in WGT_FMT. -/
def State.weight (s : State) (j : PeatJob) (i : Nat) : FVal :=
  if pkOp j.raw = 0x02 then .fin false 1 0
  else elemVal (pkWgtFmt j.raw)
    (ofLE (s.rdStore j.f (pkWgtOff j.raw + i * wgtBytes j.raw) (wgtBytes j.raw)))

/-- The pair code of an EXACT descriptor (R338). -/
def exactPair (d : List Byte) : Nat :=
  (pairCode (if pkOp d = 0x02 then pkRowFmt d else pkWgtFmt d) (pkRowFmt d)).getD 0

/-- Element `e` of the sum over positions (R336 to R338). -/
def State.pooled (s : State) (j : PeatJob) (ps : List Nat) (e : Nat) : FVal :=
  if pkExact j.raw then
    (ps.foldl (fun t i => (t.contribute (exactPair j.raw) (s.weight j i) (j.elem i e) 0 false).1) Tally.empty).value
  else
    f32 (ps.foldl (fun acc i =>
      let x := toF32 (j.elem i e)
      if pkOp j.raw = 0x02 then fAdd acc x else fFma (toF32 (s.weight j i)) x acc) 0)

/-- Output row `r`. -/
def State.outRow (s : State) (j : PeatJob) (r : Nat) : List Byte :=
  let es := List.range (pkElems j.raw)
  if pkOp j.raw = 0x01 then (es.map fun e => outElem (pkOutFmt j.raw) (j.elem r e)).flatten
  else
    let (a, b) := s.segment j r
    (es.map fun e => outElem (pkOutFmt j.raw) (s.pooled j ((List.range (b - a)).map (a + ·)) e)).flatten

/-- The lowest position whose row came back with a status other than OK. -/
def PeatJob.firstFail (j : PeatJob) : Option (Nat × Nat) :=
  j.got.foldl (fun m x => if x.2.1 = stOk then m else match m with
    | some y => if x.1 < y.1 then some (x.1, x.2.1) else some y
    | none => some (x.1, x.2.1)) none

/-- The output row that a position contributes to. -/
def State.rowOf (s : State) (j : PeatJob) (i : Nat) : Nat :=
  if pkOp j.raw = 0x01 then i
  else (lowest (pkSegs j.raw) fun k => decide (i < (s.segment j k).2)).getD 0

/-- The output of a lookup is formed once every row has come back; a failing row leaves the blocks before the block that
needs it (R356). -/
def State.formLookup (s : State) (j : PeatJob) : State :=
  if j.formed || j.got.length < pkCount j.raw then s
  else
    let rows (n : Nat) : List Byte := ((List.range n).map fun r => s.outRow j r).flatten
    match j.firstFail with
    | none => s.putJob { j with formed := true, out := rows (outRows j.raw) }
    | some (i, st) =>
      let r := s.rowOf j i
      s.putJob { j with
        formed := true, out := (rows r).take (r * outRowBytes j.raw / 4096 * 4096), status := st,
        addr := s.pkAddr j.f j.raw i }

/-- GATHER (R335). -/
def execGather (f c n : Nat) (s : State) : Out := onPeatOp 0x01 f c n s fun j s => s.formLookup j

/-- SEGSUM (R336 to R338). -/
def execSegsum (f c n : Nat) (s : State) : Out := onPeatOp 0x02 f c n s fun j s => s.formLookup j

/-- WPOOL (R336 to R338). -/
def execWpool (f c n : Nat) (s : State) : Out := onPeatOp 0x03 f c n s fun j s => s.formLookup j

/-! ### Optimizer updates (R340 to R345) -/

/-- The FP32 gradient of element `e` at position `i` (R342). -/
def State.gradient (s : State) (j : PeatJob) (i e : Nat) : Nat :=
  let n := wgtBytes j.raw
  let w := ofLE (s.rdStore j.f (pkWgtOff j.raw + (i * pkElems j.raw + e) * n) n)
  if pkWgtFmt j.raw = 0x11 then toF32 (fabVal (pkG j.raw) w) else w

/-- A finite FP32 value. -/
def f32Finite (w : Nat) : Bool := match f32 w with
  | .fin _ _ _ => true
  | _ => false

/-- The FP32 constants of the extension (Table 8.5). -/
def pkLr (d : List Byte) : Nat := leAt d 80 4
def pkWd (d : List Byte) : Nat := leAt d 84 4
def pkBeta1 (d : List Byte) : Nat := leAt d 88 4
def pkBeta2 (d : List Byte) : Nat := leAt d 92 4
def pkEps (d : List Byte) : Nat := leAt d 96 4
def pkC1 (d : List Byte) : Nat := leAt d 100 4
def pkC2 (d : List Byte) : Nat := leAt d 104 4

def fpOne : Nat := 0x3F800000

/-- One element by Table 8.6: new p, m and v. For ALG 0x4 `v` is already the row's new value. -/
def updateElem (d : List Byte) (p m v g : Nat) : Nat × Nat × Nat :=
  let lr := pkLr d
  let decay := fMul (pkWd d) p
  match pkAlg d with
  | 1 => (fSub p (fMul lr (fAdd g decay)), m, v)
  | 2 =>
    let m := fAdd (fMul (pkBeta1 d) m) g
    (fSub p (fMul lr (fAdd m decay)), m, v)
  | 3 =>
    let m := fAdd (fMul (pkBeta1 d) m) (fMul (fSub fpOne (pkBeta1 d)) g)
    let v := fAdd (fMul (pkBeta2 d) v) (fMul (fSub fpOne (pkBeta2 d)) (fMul g g))
    (fSub p (fMul lr (fAdd (fDiv (fMul m (pkC1 d)) (fAdd (fSqrt (fMul v (pkC2 d))) (pkEps d))) decay)), m, v)
  | _ => (fSub p (fMul lr (fDiv g (fAdd (fSqrt v) (pkEps d)))), m, v)

/-- The new V of a row for ALG 0x4. -/
def rowV (d : List Byte) (v : Nat) (gs : List Nat) : Nat :=
  fAdd v (fDiv (gs.foldl (fun a g => fAdd a (fMul g g)) 0) (toF32 (.ofInt false (pkElems d) 0)))

/-- The writes of one row update: addresses and bytes, from the old bytes and the gradients. -/
def updateRow (d : List Byte) (r : Nat) (ps ms vs : List Byte) (gs : List Nat) : List (Nat × List Byte) :=
  let fmt := pkRowFmt d
  let w := if pkAlg d = 4 then rowV d (leAt vs 0 4) gs else 0
  let new := (List.range (pkElems d)).map fun e =>
    updateElem d (toF32 (elemVal fmt (packedElem fmt ps e))) (leAt ms (4 * e) 4)
      (if pkAlg d = 4 then w else leAt vs (4 * e) 4) ((gs[e]?).getD 0)
  let ws := [(pkTable d + r * pkStride d, (new.map fun x => outElem fmt (f32 x.1)).flatten),
    ((mRow d r).1, if (mRow d r).2 = 0 then [] else (new.map fun x => leBytes 4 x.2.1).flatten),
    ((vRow d r).1, if (vRow d r).2 = 0 then [] else if pkAlg d = 4 then leBytes 4 w
      else (new.map fun x => leBytes 4 x.2.2).flatten)]
  ws.filter fun x => !x.2.isEmpty

/-- Writes by sectors. -/
def bySectors (ws : List (Nat × List Byte)) : List UnitWrite :=
  (ws.flatMap fun w => sectorPieces (w.2.length / 32 + 2) w.1 w.2).map fun p => { addr := p.1, data := p.2, whole := none }

/-- The stretches of `n` bytes from `a`, cut at the bales. -/
def cut4096 : Nat → Nat → Nat → List (Nat × Nat)
  | 0, _, _ => []
  | k + 1, a, n =>
    if n = 0 then [] else
      let m := min n (4096 - a % 4096)
      (a, m) :: cut4096 k (a + m) (n - m)

/-- Whether reads of several ranges can all be made now; what they wait for is started. -/
def State.readsReady (s : State) (j : PeatJob) (reads : Bool) : List (Nat × Nat) → State × Ready
  | [] => (s, .go)
  | (a, n) :: rest =>
    let (s, x) := s.unitRead (j.reqAt a) reads (linesOf a n)
    let (s, y) := s.readsReady j reads rest
    (s, x.and y)

/-- Reads that can all be made now: the first status other than OK with its address, or the bytes of each. -/
def State.readMany (s : State) (j : PeatJob) : List (Nat × Nat) → State × Nat × Nat × List (List Byte)
  | [] => (s, stOk, 0, [])
  | (a, n) :: rest =>
    match s.tryRead (j.reqAt a) n with
    | (s, none) => (s, stOk, a, [])
    | (s, some (st, bs)) =>
      if st ≠ stOk then (s, st, a, [])
      else
        let (s, st, x, bss) := s.readMany j rest
        (s, st, x, bs :: bss)

/-- Some ranges hold an address. -/
def inRanges (rs : List (Nat × Nat)) (a : Nat) : Bool := rs.any fun x => decide (x.1 ≤ a) && decide (a < x.1 + x.2)

/-- The bytes at `a`, `n` of them, from pieces that were read. -/
def pick (ps : List (Nat × List Byte)) (a n : Nat) : List Byte :=
  (List.range n).map fun i => match ps.find? fun p => decide (p.1 ≤ a + i) && decide (a + i < p.1 + p.2.length) with
    | some p => (p.2[a + i - p.1]?).getD 0
    | none => 0

/-- Bytes at `a` with writes laid over them. -/
def overlay (a : Nat) (bs : List Byte) (ws : List (Nat × List Byte)) : List Byte :=
  bs.zipIdx.map fun x => match ws.find? fun w => decide (w.1 ≤ a + x.2) && decide (a + x.2 < w.1 + w.2.length) with
    | some w => (w.2[a + x.2 - w.1]?).getD 0
    | none => x.1

/-! #### One row of a sparse update -/

/-- The gradients of a position. -/
def State.gradients (s : State) (j : PeatJob) (i : Nat) : List Nat := (List.range (pkElems j.raw)).map (s.gradient j i)

/-- A row with a gradient that is not finite is skipped and counted at the peat unit that serves it (R343). -/
def State.skipRow (s : State) (a : Nat) : State := s.incFld .peatSkipped (s.stackOf a) 0 31 0

/-- The next write of the row in progress is made. The writes of a row start once all of them can be made, and a reader may see a
row with some sectors written and others not (R355). -/
def State.writeNext (s : State) (j : PeatJob) : State :=
  match j.todo with
  | [] => s
  | w :: rest =>
    let u := j.reqAt 0
    match (if j.formed then s.prepWrites u [w] else s.prepWrites u j.todo) with
    | (s, .wait) => s
    | (s, .fail st) => s.putJob { j with status := st, addr := w.addr, todo := [], formed := false }
    | (s, .go) =>
      let (s, st, _) := s.commitUnit u w
      if st ≠ stOk then
        (s.dropUnits (· == { u with addr := w.addr }) .none).putJob { j with status := st, addr := w.addr, todo := [], formed := false }
      else if rest.isEmpty then
        if pkDense j.raw then s.putJob { j with todo := [], formed := false, status := j.low }
        else s.putJob { j with todo := [], formed := false, done := j.done + 1 }
      else s.putJob { j with todo := rest, formed := true }

/-- The next position of a sparse update (R341 to R345): its row, M row and V row are read, and its writes are formed. -/
def State.updateNext (s : State) (j : PeatJob) : State :=
  let d := j.raw
  match j.got.find? fun x => x.1 == j.done with
  | none => s
  | some (_, st, _) =>
    let r := s.pkRow j.f d j.done
    let a := pkTable d + r * pkStride d
    let rs := s.rowRanges j.f d j.done
    let gs := s.gradients j j.done
    if st ≠ stOk then s.putJob { j with status := st, addr := a }
    else if !gs.all f32Finite then (s.skipRow a).putJob { j with done := j.done + 1 }
    else if s.rowLocked j rs then s
    else match s.readsReady j true rs with
      | (s, .wait) => s
      | (s, .fail st) => s.putJob { j with status := st, addr := a }
      | (s, .go) =>
        let (s, st, x, bss) := s.readMany j rs
        if st ≠ stOk then s.putJob { j with status := st, addr := x }
        else
          let ps := (rs.map (·.1)).zip bss
          let of (p : Nat × Nat) : List Byte := pick ps p.1 p.2
          let j := { j with todo := bySectors (updateRow d r (of (a, pkRowBytes d)) (of (mRow d r)) (of (vRow d r)) gs) }
          (s.putJob j).writeNext j

/-! #### A DENSE update (R345) -/

/-- The whole bales of the ranges of a DENSE update with the tag that each must hold (0 any). -/
def denseBales (d : List Byte) : List (Nat × Nat) :=
  (pkRanges d).flatMap fun x => (wholeBales x).map fun b => (b, if x.1 = 16 then pkTabTag d else 0)

/-- The parts of the rows of a DENSE update that lie in no whole bale, cut at the bales. -/
def State.denseParts (s : State) (j : PeatJob) : List (Nat × Nat) :=
  let whole := (denseBales j.raw).map (·.1)
  ((List.range (pkCount j.raw)).flatMap fun i => (s.rowRanges j.f j.raw i).flatMap fun x =>
    (cut4096 (x.2 / 4096 + 2) x.1 x.2)).filter fun p => !whole.contains (p.1 / 4096 * 4096)

/-- A bale that has been read: its bytes with its tag, or the status that it failed with. -/
structure DenseBale where
  addr   : Nat
  status : Nat
  data   : List Byte
  tag    : Nat
deriving DecidableEq, Repr

/-- A whole bale is read and checked, and read once more when the check fails. -/
def State.denseRead (s : State) (j : PeatJob) (b tag : Nat) : State × DenseBale :=
  let bad (st : Nat) : DenseBale := { addr := b, status := st, data := [], tag := 0 }
  let good (x : List Byte × Nat × Nat) : Bool :=
    baleCrc x.1 x.2.1 (baleOf (s.phys b)) == x.2.2 && (tag == 0 || tag == x.2.1)
  let first := s.tryReadBale (j.reqAt b) []
  match first.2 with
  | some (0, x) =>
    if good x then (first.1, { addr := b, status := stOk, data := x.1, tag := x.2.1 })
    else
      let again := first.1.tryReadBale (j.reqAt b) []
      match again.2 with
      | some (0, y) => (again.1, if good y then { addr := b, status := stOk, data := y.1, tag := y.2.1 } else bad stChecksumFault)
      | some (st, _) => (again.1, bad st)
      | none => (again.1, bad stChecksumFault)
  | some (st, _) => (first.1, bad st)
  | none => (first.1, bad stChecksumFault)

def State.denseReads (s : State) (j : PeatJob) : List (Nat × Nat) → State × List DenseBale
  | [] => (s, [])
  | (b, tag) :: rest =>
    let (s, x) := s.denseRead j b tag
    let (s, xs) := s.denseReads j rest
    (s, x :: xs)

/-- Parts of rows are read by sectors: each with its status. -/
def State.partReads (s : State) (j : PeatJob) : List (Nat × Nat) → State × List (Nat × Nat × List Byte)
  | [] => (s, [])
  | (a, n) :: rest =>
    let (s, x) := s.tryRead (j.reqAt a) n
    let (s, xs) := s.partReads j rest
    (s, (a, match x with
      | some (st, bs) => (st, bs)
      | none => (stChecksumFault, [])) :: xs)

/-- What ends a DENSE update early: position, status and address; the lowest position counts. -/
def firstStop (xs : List (Nat × Nat × Nat)) : Option (Nat × Nat × Nat) :=
  xs.foldl (fun m x => match m with
    | some y => if x.1 < y.1 then some x else some y
    | none => some x) none

/-- The first position whose row lies in `n` bytes at `a`; after the last position when none does. -/
def State.firstIn (s : State) (j : PeatJob) (a n : Nat) : Nat :=
  (lowest (pkCount j.raw) fun i => (s.rowRanges j.f j.raw i).any fun x =>
    decide (x.1 < a + n) && decide (a < x.1 + x.2)).getD (pkCount j.raw)

/-- The update of a whole DENSE descriptor, from what has been read: the positions before the first that fails are computed, the
whole bales are written back with their tags and the other parts by sectors. -/
def State.denseForm (s : State) (j : PeatJob) (bales : List DenseBale) (parts : List (Nat × Nat × List Byte)) : State :=
  let d := j.raw
  let stops := (bales.filter fun b => b.status != stOk).map (fun b => (s.firstIn j b.addr 4096, b.status, b.addr)) ++
    (parts.filter fun p => p.2.1 != stOk).map (fun p => (s.firstIn j p.1 1, p.2.1, p.1)) ++
    (j.got.filter fun x => x.2.1 != stOk).map (fun x => (x.1, x.2.1, s.pkAddr j.f d x.1))
  let stop := firstStop stops
  let limit := (stop.map (·.1)).getD (pkCount d)
  let img := bales.map (fun b => (b.addr, b.data)) ++ parts.map fun p => (p.1, p.2.2)
  let ok := (List.range limit).filter fun i => (s.gradients j i).all f32Finite
  let s := ((List.range limit).filter fun i => !ok.contains i).foldl (fun s i => s.skipRow (s.pkAddr j.f d i)) s
  let of (p : Nat × Nat) : List Byte := pick img p.1 p.2
  let ws := ok.flatMap fun i => updateRow d i (of (s.pkAddr j.f d i, pkRowBytes d)) (of (mRow d i)) (of (vRow d i)) (s.gradients j i)
  let good := bales.filter fun b => b.status == stOk
  let whole := good.map fun b => ({ addr := b.addr, data := overlay b.addr b.data ws, whole := some (some b.tag) } : UnitWrite)
  let rest := (bySectors ws).filter fun w => !bales.any fun b => b.addr == w.addr / 4096 * 4096
  let st := (stop.map (·.2.1)).getD stOk
  let j := { j with done := limit, low := st, addr := (stop.map (·.2.2)).getD j.addr, todo := whole ++ rest,
                    status := if whole ++ rest = [] then st else stOk }
  (s.putJob j).writeNext j

/-- A DENSE update reads everything that it needs once every row can be reached. -/
def State.denseStart (s : State) (j : PeatJob) : State :=
  let bs := denseBales j.raw
  let ps := s.denseParts j
  if j.got.length < pkCount j.raw then s
  else if s.rowLocked j ((bs.map fun b => (b.1, 4096)) ++ ps) then s
  else match s.readsReady j false (bs.map fun b => (b.1, 4096)) with
    | (s, .go) => match s.readsReady j true ps with
      | (s, .wait) => s
      | (s, _) =>
        let (s, bales) := s.denseReads j bs
        let (s, parts) := s.partReads j ps
        s.denseForm j bales parts
    | (s, .wait) => s
    | (s, .fail st) => s.putJob { j with status := st }

/-- OPTUPD (R340 to R345): the update makes its next write, or reads its next row and forms the writes of it. -/
def execOptupd (f c n : Nat) (s : State) : Out :=
  onPeatOp 0x08 f c n s fun j s =>
    if j.todo ≠ [] then s.writeNext j
    else if pkCount j.raw ≤ j.done then s
    else if pkDense j.raw then s.denseStart j
    else s.updateNext j

/-! ### The kindling path (R346 to R350) -/

/-- An access has ended: its status byte and result slot are written, a failure is logged, and the descriptor keeps the
failing access lowest in the list (R347, R348, R350, R363). TARGET_RESET from a serving unit stops the descriptor (R358, R361). -/
def State.kindled (s : State) (j : PeatJob) (i st : Nat) (res : List Byte) : State :=
  let d := j.raw
  let a := s.pkAddr j.f d i
  let s := if st = stOk then s else s.peatLog j.f j.c (pkOp d) st 0 a
  let s := s.wrStore j.f (pkSegOff d + i) (leBytes 1 st)
  let s := if pkOp d = 0x11 then s
    else s.wrStore j.f (pkDestOff d + i * pkStride d) (if st = stOk then res else List.replicate (pkStride d) 0)
  let first := st ≠ stOk ∧ (j.formed = false ∨ i < j.low)
  s.putJob { j with
    done := j.done + 1, got := j.got.filter fun x => x.1 != i,
    formed := j.formed || st != stOk, low := if first then i else j.low,
    sent := if first then st else j.sent, addr := if first then a else j.addr,
    status := if st = stTargetReset then stTargetReset else j.status }

/-- One access: its status and, for KREAD and KADD, the bytes of its result slot; none while it must wait. -/
def State.kindle (s : State) (j : PeatJob) (i : Nat) : State × Option (Nat × List Byte) :=
  let d := j.raw
  let a := s.pkAddr j.f d i
  let n := pkStride d
  let data := s.rdStore j.f (pkWgtOff d + i * n) n
  if s.rowLocked j [(a, n)] then (s, none)
  else match pkOp d with
    | 0x10 => s.tryRead (j.reqAt a) n
    | 0x11 => match s.tryWrite (j.reqAt a) data with
      | (s, some st) => (s, some (st, []))
      | (s, none) => (s, none)
    | _ => s.tryRmw (j.reqAt a) 0 (ofLE data) 0

/-- The accesses that can be made now are made; accesses that no serving unit takes end at once. `n` bounds them. -/
def State.kindleAll (s : State) (f c seq : Nat) : Nat → State
  | 0 => s
  | n + 1 =>
    match s.job f c seq with
    | none => s
    | some j =>
      if j.status ≠ stOk then s
      else match lowest (pkCount j.raw) fun i => !bit j.asked i && s.kindleBad j i != stOk with
      | some i =>
        (s.kindled { j with asked := setBit j.asked i true } i (s.kindleBad j i) []).kindleAll f c seq n
      | none =>
        match j.got with
        | [] => s
        | (i, st, _) :: _ =>
          if st ≠ stOk then (s.kindled j i st []).kindleAll f c seq n
          else match s.kindle j i with
            | (s, none) => s
            | (s, some (st, res)) => (s.kindled j i st res).kindleAll f c seq n

/-- KREAD (R346 to R349). -/
def execKread (f c n : Nat) (s : State) : Out :=
  onPeatOp 0x10 f c n s fun j s => s.kindleAll f c j.seq (pkCount j.raw + 1)

/-- KWRITE (R346 to R349). -/
def execKwrite (f c n : Nat) (s : State) : Out :=
  onPeatOp 0x11 f c n s fun j s => s.kindleAll f c j.seq (pkCount j.raw + 1)

/-- KADD (R346 to R349). -/
def execKadd (f c n : Nat) (s : State) : Out :=
  onPeatOp 0x12 f c n s fun j s => s.kindleAll f c j.seq (pkCount j.raw + 1)

/-! ### Delivery and completion (R339, R350, R354, R356) -/

/-- The CRC of a delivery block: its data followed by OUT_TAG (R339). -/
def blockCrc (data : List Byte) (tag : Nat) : Nat := crc32c (data ++ leBytes 4 tag)

/-- What arrives of a block and its CRC when transfer changes some of the bytes: the position of a byte and the bits that flip. -/
def damaged (bs : List Byte) (xs : List (Nat × Byte)) : List Byte :=
  xs.foldl (fun bs x => match bs[x.1]? with
    | some b => bs.set x.1 (b ^^^ x.2)
    | none => bs) bs

/-- DELIVERY_BLOCK (R339): the next block of 4 KiB reaches the bale engine with its CRC, as far as transfer left them whole. The
bale engine writes the block when the CRC is right, asks for it once more when not, and ends the delivery at the second failure. -/
def execDeliveryBlock (f c n : Nat) (damage : List (Nat × Byte)) (s : State) : Out :=
  onJob f c n s fun j s =>
    if !pkLookup j.raw || !j.formed || decide (j.out.length ≤ j.sent) then s
    else
      let block := (j.out.drop j.sent).take 4096
      let got := damaged (block ++ leBytes 4 (blockCrc block (pkOutTag j.raw))) damage
      let data := got.take block.length
      let a := pkDestOff j.raw + j.sent
      if blockCrc data (pkOutTag j.raw) = ofLE (got.drop block.length) then
        (s.wrStore f a data).putJob { j with sent := j.sent + block.length, again := false }
      else if j.again then
        s.putJob { j with out := j.out.take j.sent, again := false, status := stChecksumFault, addr := storeAddr f a }
      else s.putJob { j with again := true }

/-- A descriptor has no more to do. -/
def PeatJob.over (j : PeatJob) : Bool :=
  if pkLookup j.raw then j.formed && j.sent == j.out.length
  else if pkOptupd j.raw then j.status != stOk || (j.todo.isEmpty && j.done == pkCount j.raw)
  else j.status != stOk || j.done == pkCount j.raw

/-- The final status: for a kindling descriptor that of the failing access lowest in the list (R350). -/
def PeatJob.final (j : PeatJob) : Nat :=
  if pkKindling j.raw ∧ j.status = stOk then (if j.formed then j.sent else stOk) else j.status

/-- ROWS_DONE of Table 8.12. -/
def PeatJob.rowsDone (j : PeatJob) : Nat :=
  if pkLookup j.raw then j.sent / outRowBytes j.raw else if pkOptupd j.raw then j.done else 0

/-- The status that a descriptor completes with: REFUSED where its completion word cannot count (R162). -/
def State.peatStatus (s : State) (f c : Nat) (d : Dma) (st : Nat) : Nat :=
  match d.word f c with
  | some p => if st = stOk then (s.addSignal p 1 0x4 (some (coreId f c))).2 else st
  | none => st

/-- PEAT_COMPLETE (R162, R350, R354, R356, R363): a descriptor whose writes and deliveries are all performed leaves its peat
unit and completes. -/
def execPeatComplete (f c n : Nat) (s : State) : Out :=
  onJob f c n s fun j s =>
    match s.peatDma f c n with
    | none => s
    | some d =>
      if !j.over then s
      else
        let s := s.dropJob j
        let st := s.peatStatus f c d j.final
        let s := if st = stOk then s else s.peatLog f c (pkOp j.raw) st j.rowsDone (if j.final = stOk then d.src else j.addr)
        s.dmaEnd f c d j.final

/-- A write of the row in progress has reached its stack interface. -/
def State.rowReached (s : State) (j : PeatJob) : Bool :=
  j.formed || (j.todo.flatMap (s.parts 1)).any fun p =>
    (s.unitEnt (s.stackOf p.1) (j.reqAt p.1)).any (fun e => e.acc != .ticket) || (s.unitResult (s.stackOf p.1) (j.reqAt p.1)).isSome

/-- A descriptor stops at the row boundary (R356, R358, R359): the writes of a row that has begun are all issued, and go on without
it. -/
def State.flushRow (s : State) (j : PeatJob) : State × PeatJob :=
  if !s.rowReached j then (s, { j with todo := [] })
  else
    let ps := (j.todo.flatMap (s.parts 1)).filter fun p =>
      !((s.unitEnt (s.stackOf p.1) (j.reqAt p.1)).any (fun e => e.acc != .ticket) ||
        (s.unitResult (s.stackOf p.1) (j.reqAt p.1)).isSome)
    (ps.foldl (fun s p => s.arrive (s.stackOf p.1) (j.reqAt p.1) p.2 .none) s,
      { j with todo := [], formed := false, done := if pkDense j.raw then j.done else j.done + 1 })

/-- A started peat descriptor stops with a status, admitted or not; its entry returns (R356, R359, R363). -/
def State.stopPeat (s : State) (f c : Nat) (d : Dma) (st : Nat) : State :=
  match s.job f c d.seq with
  | none => if d.op = 0x04 then s.peatLog f c (s.rdStore f (d.src - storeAddr f 0) 1 |> ofLE) st 0 d.src else s
  | some j =>
    let (s, j) := if pkOptupd j.raw then s.flushRow j else (s, j)
    (s.dropJob j).peatLog f c (pkOp j.raw) st j.rowsDone j.addr

/-- Before stack `i` closes, every row update that has begun there is completed (R358). -/
def State.finishRows (s : State) (i : Nat) : State :=
  s.peat.foldl (fun s j =>
    if j.formed && pkOptupd j.raw && j.todo.any fun w => s.stackOf w.addr == i then
      j.todo.foldl (fun s _ => match s.job j.f j.c j.seq with
        | some x => s.writeNext x
        | none => s) s
    else s) s

/-- DMA_TIMEOUT (R160, R161): a started descriptor passes FLK_TIMEOUTS.DMA and completes with TIMEOUT; a peat descriptor leaves
its peat unit. -/
def execDmaTimeout (f c n : Nat) (s : State) : Out :=
  onCore f c s fun s =>
    match (s.core f c).dma[n]? with
    | none => s
    | some d =>
      if d.started && s.fld .flkTimeouts f 0 31 16 != 0 then (s.stopPeat f c d stTimeout).dmaFail f c d stTimeout else s

end Sys2Proof.Machine
end

