-- ==== Sys2Proof/Machine/RegRead.lean ====
section
/-! DEFINITION. Reading registers (R2 to R6, R774): fields that follow other state are computed when they are read, and the
logs of an access that fails (R778). -/

namespace Sys2Proof.Machine

/-- A number made of bits `p 0`, `p 1`, ... -/
def mask (n : Nat) (p : Nat → Bool) : Nat := (List.range n).foldl (fun v i => v + (p i).toNat * 2 ^ i) 0

/-- Router slice and kiln slice `i` are ready (Table 16.4). -/
def State.sliceReady (s : State) (i : Nat) : Bool := s.rbit .rtrStatus i 0 63 && s.rbit .klnStatus 0 0 (48 + i)

/-- DRV_READY (Table 16.7, R654). -/
def State.readyVal (s : State) : Nat :=
  let old := s.reg .drvReady 0 0
  let stks := mask 12 s.stkReady
  let slices := mask 12 s.sliceReady
  let hearths := mask 16 fun h => s.rbit .hthStatus h 0 63
  let ni := s.rbit .niStatus 0 0 63
  let all := bit old 62 && bit old 60 && ni && bits old 55 44 == 0xFFF && stks == 0xFFF && slices == 0xFFF && hearths == 0xFFFF
  all.toNat * 2 ^ 63 + (bit old 62).toNat * 2 ^ 62 + (s.rbit .cxlStatus 0 0 63).toNat * 2 ^ 61 +
    (bit old 60).toNat * 2 ^ 60 + ni.toNat * 2 ^ 59 + (bit old 58).toNat * 2 ^ 58 + bits old 55 44 * 2 ^ 44 +
    stks * 2 ^ 32 + slices * 2 ^ 16 + hearths

/-- DRV_READY.ALL. -/
def State.allReady (s : State) : Bool := bit s.readyVal 63

/-- The STATE that this device's muster frames carry (Table 18.2). -/
def State.musterState (s : State) : Nat :=
  if s.fenced then 3 else if s.fold.isNone then 0 else if s.isShadow then 2 else 1

/-- KLN_STATUS (Table 13.11). -/
def State.klnStatusVal (s : State) : Nat :=
  let old := s.reg .klnStatus 0 0
  let slices := match s.fold with
    | some x => if x.resvs.isEmpty then List.range 12 else x.resvs.map fun (r : KilnRes) => r.slice
    | none => List.range 12
  let active := ((List.range 64).filter fun g => (s.kgroup g).running.isSome).length
  (slices.all fun i => bit old (48 + i)).toNat * 2 ^ 63 + bits old 59 48 * 2 ^ 48 + active

/-- KLN_GROUP g (Table 13.18). -/
def State.klnGroupVal (s : State) (g : Nat) : Nat :=
  let k := s.kgroup g
  let early := k.pend.any fun p => !k.jobs.any fun j => j.seq == p.seq
  (s.groupConf g).isSome.toNat * 2 ^ 63 + k.running.isSome.toNat * 2 ^ 62 + k.queued * 2 ^ 57 + early.toNat * 2 ^ 56 +
    k.next * 2 ^ 32 + (match k.running with | some j => j.ended | none => 0) % 2 ^ 32

/-- KLN_CHAN c (Table 14.13). -/
def State.klnChanVal (s : State) (ch : Nat) : Nat :=
  let conf := s.chanConf ch
  let run := (s.chanJobs ch).find? fun j => j.run
  let b := run.bind fun j => j.bucket
  let waiting := match b with
    | some b => decide (b.entry < b.feed.length) && (s.offered b).isNone
    | none => false
  conf.isSome.toNat * 2 ^ 63 + waiting.toNat * 2 ^ 62 + (s.chanJobs ch).length * 2 ^ 59 +
    (match conf with | some c => c.group | none => 0) * 2 ^ 52 + (match b with | some b => b.entry | none => 0) * 2 ^ 32 +
    (match b with | some b => b.fed.length / 16 | none => 0)

/-- The image in a firmware bank; the factory leaves one in bank A and none in bank B (log entry 3). -/
def State.bankImage (s : State) (b : Nat) : List Byte :=
  match Sparse.get [] s.fw.image b with
  | [] => if b = 0 then Config.factoryImage else []
  | x => x

/-- KIND, INSTANCE and LAYER of an identity record (Table 19.1). -/
def idKind (i : Nat) : Nat × Nat × Nat :=
  if i < 12 then (1, i, 0)
  else if i < 24 then (2, i - 12, 0)
  else if i < 216 then (3, (i - 24) / 16, (i - 24) % 16)
  else if i < 232 then (4, i - 216, 0)
  else if i = 232 then (5, 0, 0)
  else (6, 0, 0)

/-- SEC_ID_LO i and SEC_ID_HI i (Tables 19.21 and 19.22); the lot's first character lies in its lowest byte. -/
def idLo (i : Nat) : Nat :=
  let (k, n, l) := idKind i
  (Config.dieLot i).toNat % 2 ^ 32 * 2 ^ 32 + l * 2 ^ 16 + n * 2 ^ 8 + k
def idHi (i : Nat) : Nat :=
  (Config.diePlace i).toNat * 2 ^ 32 + (Config.dieWafer i).toNat * 2 ^ 16 + (Config.dieLot i).toNat / 2 ^ 32

/-- The current bits of a register. -/
def State.live (s : State) (r : Reg) (i j : Nat) : Nat :=
  let old := s.reg r i j
  match r with
  | .drvReady => s.readyVal
  | .drvEvtHead => match s.evt with
    | e :: _ => 2 ^ 63 + e.eseq * 2 ^ 40 + e.source * 2 ^ 32 + e.kind * 2 ^ 24 + e.loc % 2 ^ 24
    | [] => 0
  | .drvEvtDetail => match s.evt with
    | e :: _ => e.detail
    | [] => 0
  | .drvEvtAddr => match s.evt with
    | e :: _ => e.addr
    | [] => 0
  | .drvEvtStatus => setBits old 24 16 s.evt.length
  | .drvMusterStatus => setBits old 63 62 s.musterState
  | .niStatus =>
    setBits (setBits (setBits old 58 48 s.ni.held.length) 47 32 s.ni.replay.length) 16 0 s.ni.tags.length
  | .niCoh => setBits old 20 0 (s.ni.lines.filter fun e => e.2 == .valid).length
  | .klnStatus => s.klnStatusVal
  | .klnGroup => s.klnGroupVal j
  | .klnChan => s.klnChanVal j
  | .cxlTracker => setBits old 19 0 s.trk.length
  | .rtrStatus => setBit old 62 s.fold.isSome
  | .stkStatus =>
    setBit (setBits (setBits old 44 32 (Sys2Proof.Machine.weight (s.heldWrites i))) 12 0 (Sys2Proof.Machine.weight (s.stk i).ents)) 60 s.inter
  | .peatStatus =>
    (s.stkReady i).toNat * 2 ^ 63 + ((s.heldWrites i).any fun e => e.req.source == 1).toNat * 2 ^ 62 +
      (s.peat.filter fun x => x.f / 56 == i).length
  | .flkCoreMap => (List.range 8).foldl (fun v k => v + (s.flock i).phys (8 * j + k) * 2 ^ (8 * k)) 0
  | .secBank =>
    let img := s.bankImage j
    setBits (setBits (setBits old 61 56 (leAt img 20 1)) 55 48 (leAt img 21 1)) 31 0 (leAt img 12 4)
  | .secIdLo => idLo j
  | .secIdHi => idHi j
  | .pasArithSummary => mask 56 fun f =>
      s.reg .flkArithInexactLo (i * 56 + f) 0 != 0 || s.reg .flkArithInexactHi (i * 56 + f) 0 != 0
  | _ => old

/-- A register is read: RC fields clear, WO and reserved bits read zero (R4). -/
def State.readReg (s : State) (r : Reg) (i j : Nat) : State × Nat :=
  (s.setReg r i j (r.afterRead (s.reg r i j)), r.readVal (s.live r i j))

/-- The register that an access of `width` bytes at `a` reaches, or none where it breaks R2 or R3. -/
def regTarget (a width : Nat) : Option (Reg × Nat × Nat) :=
  match regAt a with
  | .reg r i j => if r.row.width = 8 * width ∧ a % width = 0 then some (r, i, j) else none
  | _ => none

/-- The code of an origin in the stack fault log (Table 7.10). -/
def originSource (o : Origin) : Nat :=
  match o with
  | .fabric => 3
  | .host => 4
  | .drover => 5

/-- The owning block's log of a failed register access (R778). -/
def State.ownerLog (s : State) (o : Origin) (a st : Nat) : State :=
  match windowOf a with
  | some (.flk, i, _) => if o = .fabric then s.flkLog i a st 0x4 0 else s
  | some (.stk, i, _) => s.stkLog i a st (originSource o) 0x7 0
  | _ => s

end Sys2Proof.Machine
end

