-- ==== Sys2Proof/Machine/Shadow.lean ====
section
/-! DEFINITION. Shadow mode (R705 to R711): enabling and disabling, step marks and digests, and the outcome records that a
shadow's remote operations complete with. -/

namespace Sys2Proof.Machine

def State.setShadow (s : State) (x : Shadow) : State := { s with shadow := x }

/-- STATE of DRV_SHADOW_STATUS. -/
def State.setShadowState (s : State) (v : Nat) : State := s.setFld .drvShadowStatus 0 0 63 61 v

/-- The other device of the pair. -/
def State.shadowPeer (s : State) : Nat := s.fld .drvShadowCtrl 0 0 13 0

/-! ### Step marks (R709, R710) -/

/-- A step mark is taken: its digest is computed next. -/
def State.stepMark (s : State) : State :=
  (s.setShadow { s.shadow with due := s.shadow.due + 1 }).setRbit .drvShadowStatus 0 0 60 true

/-- STEP_MARK (R709). -/
def execStepMark (s : State) : Out := .next s.stepMark

/-- The digest of the window: CRC-32C over the CRC fields of its bales' metadata (R709). -/
def State.windowDigest (s : State) : Nat :=
  let first := s.fld .drvShadowWin 0 0 57 29
  crc32c ((List.range (s.fld .drvShadowWin 0 0 28 0)).flatMap fun i =>
    leBytes 4 (s.storedCrc (baleOf (s.phys ((first + i) * 4096)))))

/-- The digests of the shadow are compared with those of the primary for the same STEP (R710). -/
def State.compareDigests (s : State) : State :=
  s.shadow.own.foldl (fun s x => match s.shadow.prim.find? fun y => y.1 == x.1 with
    | none => s
    | some y =>
      let s := s.setShadow { s.shadow with own := s.shadow.own.erase x, prim := s.shadow.prim.erase y }
      if x.2 = y.2 then s.incFld .drvShadowStatus 0 0 59 48
      else (s.setShadowState 4).event 0x0F 0x2 s.shadowPeer (y.2 * 2 ^ 32 + x.2) x.1) s

/-- DIGEST_COMPLETE (R706, R709, R710): STEP and DIGEST of the next mark are published together. -/
def execDigestComplete (s : State) : Out :=
  .next (if s.shadow.due = 0 then s
    else
      let d := s.windowDigest
      let step := (s.fld .drvShadowStatus 0 0 47 32 + 1) % 2 ^ 16
      let s := s.setShadow { s.shadow with due := s.shadow.due - 1 }
      let s := ((s.setFld .drvShadowStatus 0 0 47 32 step).setFld .drvShadowStatus 0 0 31 0 d).setRbit .drvShadowStatus 0 0 60
        (decide (0 < s.shadow.due))
      let s := s.outcome 0 3 step 0 d
      if s.isShadow then (s.setShadow { s.shadow with own := s.shadow.own ++ [(step, d)] }).compareDigests else s)

/-! ### Enabling and disabling (R705, R711) -/

/-- A write of DRV_SHADOW_CTRL: MARK takes a step mark. On a primary the stream starts or ends. On a shadow a write of ENABLE 0 has
no other effect, and one of ENABLE 1 sets PEER; the ENABLE and ROLE by which the device is a shadow stay (R711, log entry 64). -/
def State.shadowWrite (s : State) (v : Nat) : State :=
  let s := if bit v 61 then s.stepMark else s
  if s.isShadow then (if bit v 63 then s.setFld .drvShadowCtrl 0 0 13 0 (bits v 13 0) else s)
  else
    let was := s.rbit .drvShadowCtrl 0 0 63
    let s := s.setReg .drvShadowCtrl 0 0 (Reg.written .drvShadowCtrl (s.reg .drvShadowCtrl 0 0) v)
    if bit v 63 then
      if bit v 62 then (s.setShadow { s.shadow with full := [], own := [], prim := [] }).setShadowState 2
      else if was then s
      else (s.setShadow { s.shadow with ring := 0 }).setShadowState 1
    else s.setShadowState 0

/-- SHADOW_ENABLE: a write of DRV_SHADOW_CTRL with ENABLE 1. -/
def execShadowEnable (v : Word64) (s : State) : Out := .next (s.shadowWrite (setBit v.toNat 63 true))

/-- SHADOW_DISABLE: a write of DRV_SHADOW_CTRL with ENABLE 0. -/
def execShadowDisable (v : Word64) (s : State) : Out := .next (s.shadowWrite (setBit v.toNat 63 false))

/-! ### Outcome records at the shadow (R707, Table 18.6) -/

/-- The address of a slot of the outcome ring. -/
def State.slotAddr (s : State) (i : Nat) : Nat := s.fld .drvShadowRing 0 0 47 0 + 16 * i

/-- The slot that a mirror write of 16 bytes names. -/
def State.slotOf (s : State) (a n : Nat) : Option Nat :=
  let base := s.fld .drvShadowRing 0 0 47 0
  if base ≤ a ∧ a < base + 65536 ∧ (a - base) % 16 = 0 ∧ n = 16 then some ((a - base) / 16) else none

/-- The bytes of a slot. -/
def State.slotBytes (s : State) (i : Nat) : List Byte :=
  (List.range 16).map fun k => Sparse.get 0 s.dram (s.phys (s.slotAddr i + k))

/-- A number of 16 bits has been passed by a counter that stands at `next`. -/
def passed (next n : Nat) : Bool := decide ((next + 2 ^ 32 - 1 - n) % 2 ^ 16 < 2 ^ 15) && decide (0 < next)

/-- A slot is free again. -/
def State.freeSlot (s : State) (i : Nat) : State := s.setShadow { s.shadow with full := s.shadow.full.erase i }

/-- The requests of a core's operation that wait at the shadow. -/
def TagOwner.isOp (o : TagOwner) (f c kind ordinal : Nat) : Bool :=
  match o with
  | .remote f' c' id => kind == 1 && f' == f && c' == c && id % 2 ^ 16 == ordinal
  | .put f' c' seq _ => kind == 2 && f' == f && c' == c && seq % 2 ^ 16 == ordinal
  | .get f' c' seq _ _ => kind == 2 && f' == f && c' == c && seq % 2 ^ 16 == ordinal
  | _ => false

/-- A waiting remote operation ends with the status and result of its outcome record. -/
def State.endShadowed (s : State) (r : NiReq) (st v : Nat) : State :=
  match r.owner with
  | .remote f c id => s.remoteDone f c id st v
  | .put f c seq off => s.modDma f c seq fun d => { (d.piece off st) with left := 0 }
  | .get f c seq off _ => s.modDma f c seq fun d => { (d.piece off st) with left := 0 }
  | _ => s

/-- An outcome record meets the operation that it names: the operation's requests leave and it ends; a record whose
operation has ended on the shadow itself is only freed (log entry 10). -/
def State.matchSlot (s : State) (i : Nat) : State :=
  let bs := s.slotBytes i
  let kind := bits (leAt bs 0 4) 31 28
  let ordinal := leAt bs 4 2
  let st := bits (leAt bs 6 1) 3 0
  match coreOfId (bits (leAt bs 0 4) 16 0) with
  | none => s.freeSlot i
  | some (f, c) =>
    let mine := s.ni.waiting.filter fun r => r.owner.isOp f c kind ordinal
    match mine with
    | r :: _ =>
      let s := s.setNi { s.ni with waiting := s.ni.waiting.filter fun r => !r.owner.isOp f c kind ordinal }
      -- a reserved code ends the operation with REFUSED and is logged as received (R10)
      let s := if 0xA < st then s.niLog st true r.space (opClass r.op) r.op s.shadowPeer r.share r.offset else s
      (s.endShadowed r (if 0xA < st then stRefused else st) (leAt bs 8 8)).freeSlot i
    | [] =>
      let k := s.core f c
      let over' := if kind = 1 then passed k.nextId ordinal && !k.remotes.any fun m => m.id % 2 ^ 16 == ordinal
        else passed k.pushes ordinal && !k.dma.any fun d => d.seq % 2 ^ 16 == ordinal
      if over' then s.freeSlot i else s

/-- Every outcome record that meets a waiting operation ends it. -/
def State.matchSlots (s : State) : State := if s.isShadow then s.shadow.full.foldl State.matchSlot s else s

/-- An outcome record has been written into slot `i`. -/
def State.takeOutcome (s : State) (i : Nat) : State :=
  let bs := s.slotBytes i
  if bits (leAt bs 0 4) 31 28 = 3 then
    (s.setShadow { s.shadow with prim := s.shadow.prim ++ [(leAt bs 4 2, leAt bs 8 4)] }).compareDigests
  else (s.setShadow { s.shadow with full := s.shadow.full ++ [i] }).matchSlot i

end Sys2Proof.Machine
end

