-- ==== Sys2Proof/Machine/StackCmd.lean ====
section
/-! DEFINITION. The commands of the stack interfaces (07_stacked_memory.md) and of the host's CXL.mem path (R371 to R380). -/

namespace Sys2Proof.Machine

/-! ### Requests -/

/-- The effect of a STACK_ command: a request of a listed SOURCE to an aligned stacked-memory address. -/
def stackReq (r : StackReq) (align : Nat) (bytesOk : Bool) (s : State) (acc : StkAcc) : Out :=
  if r.source < 8 ∧ r.source ≠ 6 ∧ r.addr % align = 0 ∧ r.addr < 0x018000000000 ∧ bytesOk then
    .next (s.arrive (s.stackOf r.addr) r acc .port)
  else .next s

/-- STACK_WHOLE_BALE_READ (R294, R297, R298). -/
def execStackWholeBaleRead (r : StackReq) (errs : Errs) (s : State) : Out := stackReq r 4096 true s (.baleRead errs)

/-- STACK_TAGGED_WRITE (R291). -/
def execStackTaggedWrite (r : StackReq) (data : List Byte) (tag crc : Word32) (s : State) : Out :=
  stackReq r 4096 (data.length == 4096) s (.tagged data tag crc)

/-- STACK_UNTAGGED_WRITE (R292). -/
def execStackUntaggedWrite (r : StackReq) (data : List Byte) (s : State) : Out :=
  stackReq r 4096 (data.length == 4096) s (.untagged data)

/-- STACK_SECTOR_READ (R296 to R298). -/
def execStackSectorRead (r : StackReq) (ecc : Ecc) (s : State) : Out := stackReq r 32 true s (.sectorRead ecc)

/-- STACK_SECTOR_WRITE (R293, R299). -/
def execStackSectorWrite (r : StackReq) (mask : BitVec 32) (data : List Byte) (ecc : Ecc) (s : State) : Out :=
  stackReq r 32 (data.length == 32) s (.sectorWrite mask data ecc)

/-! ### Refresh, scrub, zero-fill and wipe -/

/-- REFRESH (R286, R307, R308): a sub-bank of the stack is refreshed, ahead of the requests to the bales in it; no content changes.
`subBank` is the place of the sub-bank in a bale index: its channel in bits 5:0, its number in that channel in bits 13:6. -/
def execRefresh (stack subBank : Nat) (s : State) : Out :=
  inRange stack 12 s fun s =>
    if subBank < 2 ^ 14 then s.modStk stack fun k => { k with lastRef := (channelOf subBank, subBankOf subBank) } else s

/-- Whether bale index `q` lies in the sub-bank that was refreshed last: its request waited for the refresh (R286, R308). -/
def Stk.refreshedLast (k : Stk) (q : Nat) : Bool := k.lastRef == (channelOf q, subBankOf q)

/-- The local address of byte `off` of bale `q` of a stack: the inverse of R284 and R285. -/
def State.localOf (s : State) (i q off : Nat) : Nat :=
  if s.inter then (q * 12 + (i + 12 - nibbleSum q % 12) % 12) * 4096 + off else i * 2 ^ 37 + q * 4096 + off

/-- A scrubbed sector with a single-bit error is counted and written back, a write under the write gate that takes a shared entry. -/
def State.scrubBack (s : State) (i q k : Nat) : State :=
  (s.corrected i 1).arrive i { source := 6, core := 0, addr := s.localOf i q (k % 128 * 32) } .scrub .none

/-- A scrubbed sector that holds an uncorrectable error is counted and logged with TYPE 0x6. -/
def State.scrubBad (s : State) (i q k : Nat) : State := s.uncorrected i (s.localOf i q (k % 128 * 32)) 1 6 0x6 0

/-- SCRUB (R309): the interface reads a bale with what the ECC finds in it now; a correctable sector is written back, an
uncorrectable one is left. A bale with an earlier write that waits is read behind it (R315), by a later scrub. -/
def execScrub (stack q : Nat) (errs : Errs) (s : State) : Out :=
  inRange stack 12 s fun s =>
    let a := s.localOf stack q 0
    if s.stkOpen stack && decide (q < 2 ^ 25) && !s.behind a then
      let s := s.eccs a 128 errs
      let s := (sectorsIn s.bad (baleOf (s.phys a))).foldl (fun s k => s.scrubBad stack q k) s
      (sectorsIn s.weak (baleOf (s.phys a))).foldl (fun s k => s.scrubBack stack q k) s
    else s

/-- A stack becomes ready; when all twelve are, CXL.mem becomes active (R310, R320, R373). A wipe that was asked for goes on. -/
def State.stackUp (s : State) (i : Nat) : State :=
  let s := (s.setRbit .stkStatus i 0 63 true).setRbit .stkStatus i 0 62 (s.stk i).wiping
  if (List.range 12).all s.stkReady then s.setRbit .cxlStatus 0 0 57 true else s

/-- ZERO_FILL (R310, R314): a trained stack that owes it is filled once its gate is open, and becomes ready. -/
def execZeroFill (stack : Nat) (s : State) : Out :=
  inRange stack 12 s fun s =>
    if (s.stk stack).trained && (s.stk stack).owed && !s.gateClosed stack then
      ((s.clearStack stack).modStk stack fun k => { k with owed := false }).stackUp stack
    else s

/-- WIPE (R312): a write of STK_CTRL.WIPE. -/
def execWipe (stack : Nat) (s : State) : Out :=
  inRange stack 12 s fun s =>
    if s.rbit .drvSelf 0 0 30 then s.setRbit .stkStatus stack 0 58 true
    else if s.initBusy stack then s
    else ((s.setRbit .stkStatus stack 0 62 true).modStk stack fun k => { k with wiping := true }).refuseAll stack

/-- WIPE_COMPLETE (R310, R312, R314): a stack that is trained has been rewritten once its gate is open. -/
def execWipeComplete (stack : Nat) (s : State) : Out :=
  inRange stack 12 s fun s =>
    if (s.stk stack).wiping && (s.stk stack).trained && !s.gateClosed stack then
      ((s.clearStack stack).modStk stack fun k => { k with wiping := false }).setRbit .stkStatus stack 0 62 false
    else s

/-! ### The write gate -/

/-- HELD_WRITE_EXPIRY (R317, R357, R375): held write `n` completes with DEFERRED and is logged. A host write is issued again, as
are the write of a fill and a scrub write; a unit issues its own write again. -/
def execHeldWriteExpiry (stack n : Nat) (s : State) : Out :=
  inRange stack 12 s fun s =>
    match (s.heldWrites stack)[n]? with
    | none => s
    | some e =>
      if s.fld .stkGate stack 0 15 0 = 0 then s
      else
        let s := s.stkLog stack e.req.addr stDeferred e.req.source 0x4 e.req.core
        let s := s.modStk stack fun k => { k with ents := k.ents.erase e }
        if e.owner = .host ∨ e.owner = .fill ∨ e.owner = .none then s.modStk stack fun k => k.enter e
        else s.answer stack e (Served.of stDeferred)

/-! ### CXL.mem -/

/-- A CXL.mem request that ends without a stack access (Table 9.4). -/
def State.hostFail (s : State) (x st : Nat) (write : Bool) : State :=
  let s := (s.cxlLog (x % 2 ^ 48) st 0x1 0 0).emit .aer
  if write then s.emit (.hostDone x) else s.emit (.hostData x (List.replicate 64 0) true)

/-- A CXL.mem request for the line at HDM offset `x` (R371, R374). -/
def State.hostReq (s : State) (x : Nat) (acc : StkAcc) : State :=
  if !s.inHdm x ∨ 0x018000000000 ≤ x then s.hostFail x stAddressFault acc.isWrite
  else if !s.rbit .cxlStatus 0 0 57 then s.hostFail x stTargetReset acc.isWrite
  else s.arrive (s.stackOf x) { source := 4, core := 0, addr := x } acc .host

/-- CXL_MEM_READ (R371, R374, R376, R377): a host read of a line, granted to the host's cache or not. -/
def execCxlMemRead (x : Nat) (grant : Bool) (errs : Errs) (s : State) : Out :=
  if x % 64 ≠ 0 then .next s
  else .next (if s.hostTraffic then s.hostReq x (.lineRead grant errs) else s)

/-- CXL_MEM_WRITE (R371, R372, R374): a host write of the bytes that the mask selects; a poisoned write is not performed. -/
def execCxlMemWrite (x : Nat) (mask : Word64) (data : List Byte) (poison : Bool) (errs : Errs) (s : State) : Out :=
  if x % 64 ≠ 0 ∨ data.length ≠ 64 then .next s
  else .next (if !s.hostTraffic then s
    else if poison then s.hostFail x stChecksumFault true
    else s.hostReq x (.lineWrite mask data errs))

/-- The tracker forgets a line (R376). -/
def State.untrack (s : State) (line : Nat) : State := { s with trk := s.trk.filter (· != line) }

end Sys2Proof.Machine
end

