-- ==== Sys2Proof/Machine/NiRecv.lean ====
section
/-! DEFINITION. The destination side of the network interface: receive records (R433 to R436), the replay table (R471 to R473),
the flag hold (R448 to R450), what each sequenced packet does (R464 to R467, R485 to R487, R499 to R503), and its answer. -/

namespace Sys2Proof.Machine

/-! ### Receive records -/

def State.rx (s : State) (src : Nat) : RxRec := Sparse.get RxRec.fresh s.ni.rx src
def State.setRx (s : State) (src : Nat) (r : RxRec) : State :=
  s.setNi { s.ni with rx := Sparse.set RxRec.fresh s.ni.rx src r }

/-- The classes of Table 10.5. -/
inductive Arrival where
  | new
  | inProgress
  | answered
  | acknowledged
  | stale
deriving DecidableEq, Repr

/-- `x - y` modulo 2^32. -/
def seqDiff (x y : Nat) : Nat := (x + 2 ^ 32 - y % 2 ^ 32) % 2 ^ 32

/-- R433, R434. -/
def RxRec.classify (r : RxRec) (epoch seq : Nat) : Arrival :=
  let d := seqDiff seq r.exp
  if r.inUse && r.epoch != epoch then .stale
  else if d < 256 ∧ !bit r.rcv d then .new
  else if d < 256 ∧ !bit r.ret d then .inProgress
  else if d < 256 ∨ 2 ^ 31 ≤ d then (if seqDiff seq r.rack < 2 ^ 31 then .answered else .acknowledged)
  else .stale

/-- EXP moves past every leading position that is retired (R436); `n` bounds the positions. -/
def RxRec.advance (r : RxRec) : Nat → RxRec
  | 0 => r
  | n + 1 =>
    if bit r.ret 0 then
      RxRec.advance { r with exp := (r.exp + 1) % 2 ^ 32, rcv := r.rcv / 2, ret := r.ret / 2 } n
    else r

/-- RECEIVED is set for a SEQ, and the record is in use with the packet's EPOCH (R434). -/
def RxRec.receive (r : RxRec) (epoch seq : Nat) : RxRec :=
  { r with inUse := true, epoch := if r.inUse then r.epoch else epoch, rcv := setBit r.rcv (seqDiff seq r.exp) true }

/-- A packet retires (R436). -/
def RxRec.retire (r : RxRec) (seq : Nat) : RxRec :=
  let d := seqDiff seq r.exp
  if d < 256 then RxRec.advance { r with rcv := setBit r.rcv d true, ret := setBit r.ret d true } 256 else r

/-- A packet is answered with DEFERRED after all: its SEQ stays open. -/
def RxRec.reopen (r : RxRec) (seq : Nat) : RxRec :=
  let d := seqDiff seq r.exp
  if d < 256 then { r with rcv := setBit r.rcv d false } else r

/-- RACK rises to the packet's ACK_SEQ (R438), and the answered replay entries that it passes free (Table 11.3). -/
def State.takeAck (s : State) (p : Packet) : State :=
  let r := s.rx p.src
  if p.ackV && r.inUse && decide (seqDiff p.ackSeq.toNat r.rack < 2 ^ 31) then
    let s := s.setRx p.src { r with rack := p.ackSeq.toNat }
    s.setNi { s.ni with replay := s.ni.replay.filter fun x =>
      x.pending || x.src != p.src || decide (seqDiff x.seq p.ackSeq.toNat < 2 ^ 31) }
  else s

/-! ### The replay table -/

/-- A replay entry of a share, or of the pool (R471): whether it comes from the pool. -/
def Ni.replayRoom (n : Ni) (share : Nat) : Option Bool :=
  if (n.replay.filter fun x => x.share == share && !x.pool).length < 2560 then some false
  else if (n.replay.filter fun x => x.pool).length < 2048 then some true
  else none

/-- A replay entry is taken; NI_REPLAY.PEAK follows. -/
def State.takeReplay (s : State) (src seq share : Nat) (pool : Bool) : State :=
  let s := s.setNi { s.ni with replay := s.ni.replay ++
    [{ src := src, seq := seq, status := 0, result := 0, pending := true, share := share, pool := pool }] }
  s.setFld .niReplay 0 0 47 32 (max (s.fld .niReplay 0 0 47 32) s.ni.replay.length)

/-- The entry of a packet frees. -/
def State.freeReplay (s : State) (src seq : Nat) : State :=
  s.setNi { s.ni with replay := s.ni.replay.filter fun x => !(x.src == src && x.seq == seq) }

/-- The entry of a packet holds its answer. -/
def State.storeReplay (s : State) (src seq st v : Nat) : State :=
  s.setNi { s.ni with replay := s.ni.replay.map fun x =>
    if x.src = src ∧ x.seq = seq then { x with status := st, result := v, pending := false } else x }

/-! ### Shares and forms -/

/-- The ejection share of a packet (R414, Table 10.3). -/
def State.ejectShare (s : State) (p : Packet) : Nat :=
  if p.cls = 2 then min p.share 11
  else if p.cls = 3 then min (kpSlice p) 11
  else if 2 ≤ p.space then 8
  else match locOf p.offset with
    | .stacked a => s.stackOf a
    | .store f _ => f / 56
    | .scratch f _ _ => f / 56
    | _ => 8

/-- The byte count of a READ. -/
def readCount (p : Packet) : Nat := bits p.w4.toNat 9 0

/-- AOP of an ATOMIC (Table 11.2). -/
def atomicOp (p : Packet) : Nat := bits p.w6.toNat 3 0

/-- A sequenced packet as R408, R466 and R503 want it, and, for a COH_FWD, without payload (R487). -/
def pktWellFormed (p : Packet) : Bool :=
  let n := p.len
  !pktReserved p && p.cls == opClass p.op && n == p.payload.length &&
  match p.op with
  | 0x01 => decide (4 ≤ n) && decide (n ≤ 512) && n % 4 == 0
  | 0x02 => n == 0 && decide (0 < readCount p) && decide (readCount p ≤ 512) && readCount p % 4 == 0 &&
      p.w4.toNat < 1024 && p.w5 == 0 && p.w6 == 0
  | 0x03 => n == 0 && decide (p.w6.toNat < 16) && decide (atomicOp p ≤ 5)
  | 0x04 => n == 8 && leAt p.payload 6 2 == 0 && decide ((sext 48 (leAt p.payload 0 6)) < 2 ^ 31) &&
      decide (-(2 ^ 31) ≤ sext 48 (leAt p.payload 0 6))
  | 0x10 => n == 0
  | 0x30 => decide (64 ≤ n) && decide (n ≤ 512) && n % 64 == 0 && p.w5.toNat / 2 ^ 48 % 2 ^ 8 == 0 &&
      p.w6.toNat / 2 ^ 20 % 2 ^ 30 == 0 && (kpPhase p ≤ 1 || kpPhase p == 15)
  | _ => false

/-! ### Performing a packet -/

/-- What performing a packet gives: an answer with a payload value or bytes, a wait in a processing entry for a target (a
stack, 12 + a pasture's flock stores and core scratch, or 24 for registers), or DEFERRED. -/
inductive Perf where
  | done (status : Nat) (data : List Byte)
  | wait (target : Nat)
  | defer
deriving DecidableEq, Repr

/-- The processing-entry target of a local address. -/
def State.procTarget (s : State) (a : Nat) : Nat :=
  match locOf a with
  | .stacked a => s.stackOf a
  | .store f _ => 12 + f / 56
  | .scratch f _ _ => 12 + f / 56
  | _ => 24

/-- The status of an access in space 0b00 that reaches no local memory (R29, R33). -/
def spaceFault (a : Nat) : Nat :=
  match locOf a with
  | .far _ => stRefused
  | _ => stAddressFault

/-- A line of the range is homed by another member (R486). -/
def State.foreignLine (s : State) (a n : Nat) : Bool := (linesOf a n).any fun l => (s.homedElsewhere l).isSome

/-- A line of the range is BUSY at this home. -/
def State.busyLine (s : State) (a n : Nat) : Bool := (linesOf a n).any fun l => match s.lineSt l with
  | .busy _ => true
  | _ => false

/-- A request of the NI at a stack that answers requests finds no entry, or, for a write, a closed gate (R282, R427). -/
def State.stackShort (s : State) (a : Nat) (write : Bool) : Bool :=
  let i := s.stackOf a
  s.stkOpen i && ((write && s.gateClosed i) || (s.arrivalRoom i { source := 3, core := 0, addr := a } .ticket).isNone)

/-- The request of a packet's operation to local memory. -/
def pktReq (p : Packet) : StackReq :=
  { source := 3, core := 0, addr := p.offset, job := p.src * 2 ^ 32 + p.seq.toNat + 1 }

/-- The status of an access as a packet carries it: TIMEOUT, which no packet carries (R453), becomes DEFERRED, so that the source
asks again (DESIGN CHOICE, log entry 70). -/
def Perf.of (st : Nat) (data : List Byte) : Perf := if st = stDeferred ∨ st = stTimeout then .defer else .done st data

/-- A request is answered with a failure; the flock whose memory holds the address logs it as well (R11, R172, R458). -/
def State.pktFail (s : State) (a st : Nat) (data : List Byte) : State × Perf :=
  (match locOf a with
    | .store f _ => s.flkLog f a st 0x4 0
    | .scratch f _ _ => s.flkLog f a st 0x4 0
    | _ => s, .done st data)

/-- The first sector of a range of stacked memory that refuses a write, in a range that two bales hold: the WRITE changes nothing
(R474). -/
def State.splitBad (s : State) (a n : Nat) : Option Nat :=
  if a / 4096 = (a + n - 1) / 4096 then none
  else (sectorsOf a n).find? fun x => !s.stkOpen (s.stackOf x) || s.badSector (s.phys x / 32)

/-- A write of a packet's payload into local memory; `again` says that the packet already waits. -/
def State.pktWrite (s : State) (again : Bool) (p : Packet) : State × Perf :=
  let a := p.offset
  let bs := p.payload
  match memOf a bs.length with
  | none => s.pktFail a (spaceFault a) []
  | some m =>
    if m = .stacked ∧ s.foreignLine a bs.length then (s, .done stRefused [])
    else if m = .stacked ∧ !again ∧ (s.busyLine a bs.length || s.stackShort a true) then (s, .defer)
    else match if m = .stacked then s.splitBad a bs.length else none with
      | some x =>
        let (s, st) := s.writeSector 0x3 0 x []
        (s, .of st [])
      | none => match s.tryWriteMem (pktReq p) 0x3 bs with
        | (s, none) => (s, .wait (s.procTarget a))
        | (s, some st) => (if st = stOk then s.mirrored a bs else s, .of st [])

/-- A READ of 64 aligned bytes of a window line by a member is a fill: the member joins the sharers (Table 11.6). -/
def State.addSharer (s : State) (a src : Nat) : State :=
  match s.windowAt a with
  | none => s
  | some w => match lowest w.members.length fun i => ((w.members[i]?).bind s.deviceOf) == some src with
    | none => s
    | some i => if (w.members[i]?).getD 0 = s.rank then s else match s.lineSt a with
      | .inv => s.setLine a (.shared (2 ^ i))
      | .shared m => s.setLine a (.shared (setBit m i true))
      | _ => s

/-- A packet's source is a member of the window of a line, other than this device. -/
def State.isMember (s : State) (a src : Nat) : Bool :=
  match s.windowAt a with
  | none => false
  | some w => src != s.device && w.members.any fun r => s.deviceOf r == some src

/-- A read of local memory for a packet. -/
def State.pktRead (s : State) (again : Bool) (p : Packet) : State × Perf :=
  let a := p.offset
  let n := readCount p
  match memOf a n with
  | none => s.pktFail a (spaceFault a) []
  | some m =>
    let fill := m = .stacked ∧ n = 64 ∧ a % 64 = 0 ∧ s.isMember a p.src
    if m = .stacked ∧ s.foreignLine a n then (s, .done stRefused [])
    else if m = .stacked ∧ ((fill ∧ s.busyLine a n) ∨ (!again ∧ s.stackShort a false)) then
      (s.dropUnits (· == pktReq p) .none, .defer)
    else match s.tryReadMem (pktReq p) 0x3 n with
      | (s, none) => (s, .wait (s.procTarget a))
      | (s, some (st, bs)) =>
        if st ≠ stOk then (s, .of st []) else (if fill then s.addSharer a p.src else s, .done stOk bs)

/-- An ATOMIC (R466, R467). -/
def State.pktAtomic (s : State) (again : Bool) (p : Packet) : State × Perf :=
  let a := p.offset
  let zero := List.replicate 8 (0 : Byte)
  let new (old : List Byte) : List Byte := leBytes 8 (atomicNew (atomicOp p) (ofLE old) p.w4.toNat p.w5.toNat)
  if p.space ≠ 0 then s.pktFail a stAddressFault zero
  else match memOf a 8 with
  | none => s.pktFail a (spaceFault a) zero
  | some m =>
    if a % 8 ≠ 0 then s.pktFail a stAddressFault zero
    else if m = .stacked then
      if s.foreignLine a 8 then (s, .done stRefused zero)
      else if !again ∧ (s.busyLine a 8 || s.stackShort a true) then (s, .defer)
      else match s.tryRmw (pktReq p) (atomicOp p) p.w4.toNat p.w5.toNat with
        | (s, none) => (s, .wait (s.procTarget a))
        | (s, some (st, old)) => if st = stOk then (s.mirrored a (new old), .done stOk old) else (s, .of st zero)
    else
      let (s, r) := s.tryReadMem (pktReq p) 0x3 8
      match r with
      | some (0, old) => (((s.tryWriteMem (pktReq p) 0x3 (new old)).1).mirrored a (new old), .done stOk old)
      | some (st, _) => (s, .done st zero)
      | none => (s, .wait (s.procTarget a))

/-- The signal word at a local address. -/
def sigPlace (a : Nat) : Option SigPlace :=
  if a % 8 ≠ 0 then none
  else match locOf a with
    | .store f off => some (.store f off)
    | .scratch f c off => some (.scratch f c off)
    | _ => none

/-- The flock that holds a signal word. -/
def SigPlace.flock (p : SigPlace) : Nat := p.parts.1

/-- A SIGNAL (R499 to R503). -/
def State.pktSignal (s : State) (p : Packet) : State × Perf :=
  let a := p.offset
  if p.space ≠ 1 then s.pktFail a stAddressFault []
  else match sigPlace a with
    | none => s.pktFail a (spaceFault a) []
    | some w =>
      let f := w.flock
      if s.flockQuiet f then
        (s.resetLog a (s.flockScope f).1 (s.flockScope f).2 3 0, .done stTargetReset [])
      else
        let (s, st) := s.addSignal w (sext 48 (leAt p.payload 0 6)) 0x2 none
        if st = stOk then (s.mirrored a (leBytes 8 (s.sigWord w)), .done stOk [])
        else (s.flkLog f a st 0x4 0, .done st [])

/-- A register access from the fabric fails (R778). -/
def State.pktRegFail (s : State) (a st : Nat) : State × Perf := (s.ownerLog .fabric a st, .done st [])

/-- A submission of a core of this device is answered in its packet; a shadow's starts nothing (R525, R707). -/
def State.pktSubmit (s : State) (x : KSub) : State × Perf :=
  if s.isShadow then (s, .done stOk [])
  else match s.submit x with
    | (s, none) => (s, .wait 24)
    | (s, some (st, _)) => (s, .of st [])

/-- A write of a register by a packet (R33, R464, R525, R709): only submissions and step marks, and only from this device. -/
def State.pktRegWrite (s : State) (p : Packet) : State × Perf :=
  match regTarget p.offset p.len with
  | none => s.pktRegFail p.offset (spaceFault p.offset)
  | some (r, _, _) =>
    let v := ofLE p.payload
    if p.src ≠ s.device then s.pktRegFail p.offset stRefused
    else match r with
      | .klnSubmit => s.pktSubmit { addr := bits v 47 0, grad := false }
      | .klnGradSubmit => s.pktSubmit { addr := bits v 47 0, grad := true }
      | .drvShadowCtrl => (if bit v 61 then s.stepMark else s, .done stOk [])
      | _ => s.pktRegFail p.offset stRefused

/-- A read of a register by a packet. -/
def State.pktRegRead (s : State) (p : Packet) : State × Perf :=
  match regTarget p.offset (readCount p) with
  | none => s.pktRegFail p.offset (spaceFault p.offset)
  | some (r, i, j) =>
    let (s, v) := s.readReg r i j
    (s, .done stOk (leBytes (readCount p) v))

/-- A WRITE (R464, R465); at a shadow a write to a slot of the outcome ring waits for the slot and ends an operation. -/
def State.pktWriteOp (s : State) (again : Bool) (p : Packet) : State × Perf :=
  match p.space with
  | 0 =>
    match if s.isShadow && p.src == s.shadowPeer then s.slotOf p.offset p.len else none with
    | some i =>
      if s.shadow.full.contains i then (s, .defer)
      else match s.pktWrite again p with
        | (s, .done 0 bs) => (s.takeOutcome i, .done 0 bs)
        | r => r
    | none => s.pktWrite again p
  | 2 => s.pktRegWrite p
  | _ => s.pktFail p.offset stAddressFault []

/-- A READ (R464, R465). -/
def State.pktReadOp (s : State) (again : Bool) (p : Packet) : State × Perf :=
  match p.space with
  | 0 => s.pktRead again p
  | 1 => if (sigPlace p.offset).isSome ∧ readCount p = 8 then s.pktRead again p else s.pktFail p.offset (spaceFault p.offset) []
  | 2 => s.pktRegRead p
  | _ => s.pktFail p.offset stAddressFault []

/-- An invalidation (Table 11.5, R487). -/
def State.pktInvalidate (s : State) (line : Nat) : State :=
  match s.lineSt line with
  | .valid => s.setLine line .inv
  | .fill ws => s.setLine line (.fillInv ws)
  | _ => s

/-- A sequenced packet is performed, or turned away as malformed (R408) or by a shadow (R707). -/
def State.perform (s : State) (again : Bool) (p : Packet) : State × Perf :=
  let atom := if p.op = 0x03 then List.replicate 8 (0 : Byte) else []
  if !pktWellFormed p then (s, .done stRefused atom)
  else if s.isShadow ∧ p.src ≠ s.device ∧ !(p.src == s.shadowPeer && p.op == 0x01 && p.flag) then (s, .done stRefused atom)
  else match p.op with
    | 0x01 => s.pktWriteOp again p
    | 0x02 => s.pktReadOp again p
    | 0x03 => s.pktAtomic again p
    | 0x04 => s.pktSignal p
    | 0x10 => (s.pktInvalidate p.offset, .done stOk [])
    | _ => match s.kilnAnswer p with
      | (s, st, v) => if st = stDeferred then (s, .defer)
        else (s, .done st (if st = stMismatch then leBytes 8 v else []))

/-! ### Answers -/

/-- A RESPONSE goes to a packet's source (Table 10.1); a fenced device answers nothing (R700). -/
def State.respond (s : State) (p : Packet) (st : Nat) (data : List Byte) : State :=
  if s.fenced then s
  else
    let q := s.packet p.src 0x20 false st p.share p.seq.toNat 0 0 p.tag 0 0 0 data
    s.inject (s.ejectShare p) q

/-- A status that the NI sends is logged (R458). -/
def State.logSent (s : State) (p : Packet) (st : Nat) : State :=
  if st = stOk ∨ st = stDeferred then s else s.niLog st false p.space p.cls p.op p.src (s.ejectShare p) p.offset

/-- A packet has been performed, or answered with a final status: it retires (R436) and the answer is stored and sent. -/
def State.finishPkt (s : State) (p : Packet) (st : Nat) (data : List Byte) : State :=
  let s := s.setRx p.src ((s.rx p.src).retire p.seq.toNat)
  let s := s.storeReplay p.src p.seq.toNat st (ofLE (data.take 8))
  (s.logSent p st).respond p st data

/-- A packet is answered with DEFERRED: its SEQ stays open and its replay entry frees. -/
def State.deferPkt (s : State) (p : Packet) : State :=
  let s := s.setRx p.src ((s.rx p.src).reopen p.seq.toNat)
  (s.freeReplay p.src p.seq.toNat).respond p stDeferred (if p.op = 0x03 then List.replicate 8 0 else [])

/-- The processing entries of a target (R426). -/
def procLimit (target : Nat) : Nat := if target = 24 then 16 else 64

/-- A packet that was performed again for a duplicate of a READ is answered (R435). -/
def State.answerDup (s : State) (p : Packet) (st : Nat) (data : List Byte) : State := (s.logSent p st).respond p st data

/-- A packet is performed now: one whose RECEIVED bit is set, or a duplicate of a READ. -/
def State.runPkt (s : State) (share : Nat) (dup : Bool) (p : Packet) : State :=
  let defer (s : State) : State := if dup then s.answerDup p stDeferred [] else s.deferPkt p
  match s.perform false p with
  | (s, .done st data) => if dup then s.answerDup p st data else s.finishPkt p st data
  | (s, .defer) => defer s
  | (s, .wait t) =>
    if procLimit t ≤ (s.ni.proc.filter fun x => x.target == t).length then defer (s.dropUnits (· == pktReq p) .none)
    else s.setNi { s.ni with proc := s.ni.proc ++ [{ p := p, share := share, target := t, dup := dup, orphan := false }] }

/-- The packets that wait in processing entries are tried again, in order. -/
def State.retryProc (s : State) : State :=
  s.ni.proc.foldl (fun s x =>
    let leave (s : State) : State := s.setNi { s.ni with proc := s.ni.proc.erase x }
    match s.perform true x.p with
    | (s, .wait _) => s
    | (s, .defer) => if x.orphan then leave s else if x.dup then (leave s).answerDup x.p stDeferred [] else (leave s).deferPkt x.p
    | (s, .done st data) =>
      if x.orphan then leave s else if x.dup then (leave s).answerDup x.p st data else (leave s).finishPkt x.p st data) s

/-- What waited for an entry, a fill, an invalidation or the tracker goes on: requests in the stacks, packets and submissions. -/
def State.serveWaiting (s : State) : State := s.serveAll.retryProc.answerSubs s.kiln.subs.length

/-- An entry of the flag hold: the share's own (false), one of the pool (true), or none (R449). -/
def Ni.holdRoom (n : Ni) (share : Nat) : Option Bool :=
  if (n.held.filter fun x => x.share == share && !x.pool).length < 64 then some false
  else if (n.held.filter fun x => x.pool).length < 256 then some true
  else none

/-- A New packet: replay entry, flag rules, effect (R448, R449, R471). One that finds no entry is turned away with DEFERRED;
the record is in use with its EPOCH all the same (R434), and its SEQ stays open (R436). -/
def State.takeNew (s : State) (p : Packet) : State :=
  let share := s.ejectShare p
  let seq := p.seq.toNat
  let early := p.flag && (s.rx p.src).exp != seq
  let begin' (s : State) : State := s.setRx p.src ((s.rx p.src).receive p.epoch.toNat seq)
  let turnAway (s : State) : State := (s.setRx p.src (((s.rx p.src).receive p.epoch.toNat seq).reopen seq)).respond p stDeferred
    (if p.op = 0x03 then List.replicate 8 0 else [])
  match if p.op = 0x02 then some false else s.ni.replayRoom share with
  | none => turnAway (s.incFld .niReplay 0 0 31 0)
  | some pool =>
    let take (s : State) : State := if p.op = 0x02 then s else s.takeReplay p.src seq share pool
    if early then
      match s.ni.holdRoom share with
      | none => turnAway s
      | some hp =>
        let s := take (begin' s)
        s.setNi { s.ni with held := s.ni.held ++ [{ p := p, share := share, pool := hp }] }
    else (take (begin' s)).takeAck p |>.runPkt share false p

/-- A duplicate that was answered is answered again (R435): a READ by performing it again, any other from its entry. -/
def State.answerAgain (s : State) (p : Packet) : State :=
  if p.op = 0x02 then s.runPkt (s.ejectShare p) true p
  else match s.ni.replay.find? fun x => x.src == p.src && x.seq == p.seq.toNat && !x.pending with
    | some x => (s.logSent p x.status).respond p x.status (if p.op = 0x03 ∨ x.status = stMismatch then leBytes 8 x.result else [])
    | none => s.incFld .niCntB 0 0 63 32

/-- A sequenced packet whose CRC and job tag pass (Table 10.5). -/
def State.classifyPkt (s : State) (p : Packet) : State :=
  match (s.rx p.src).classify p.epoch.toNat p.seq.toNat with
  | .new => s.takeNew p |>.takeAck p
  | .inProgress => (s.incFld .niCntB 0 0 63 32).takeAck p
  | .answered => (s.answerAgain p).takeAck p
  | .acknowledged => (s.incFld .niCntB 0 0 63 32).takeAck p
  | .stale => (s.logSent p stSeqStale).respond p stSeqStale (if p.op = 0x03 then List.replicate 8 0 else [])

/-- The NI is in service and a full fold is loaded. -/
def State.niUp (s : State) : Bool := s.rbit .niStatus 0 0 63 && s.fold.isSome

/-- A packet leaves its ejection queue. -/
def State.takeEject (s : State) (p : Packet) : State :=
  let q := qEject p.cls
  let i := s.ejectShare p
  s.setQueue i q ((s.queue i q).erase p)

/-- The operation of a packet must forward: it writes a line of which other members hold copies (Table 11.6). -/
def State.mustForward (s : State) (p : Packet) : Bool :=
  (p.op == 0x01 || p.op == 0x03) && p.space == 0 && (linesOf p.offset (if p.op = 0x01 then p.payload.length else 8)).any fun l =>
    match s.lineSt l with
    | .shared _ => true
    | _ => false

/-- A sequenced packet arrives at its ejection share; it is taken only with an RSP slot for its answer, and with a FWD slot where
it must forward (R410, R426, R439, R700). -/
def State.arrivePkt (s : State) (p : Packet) : State :=
  if !s.rbit .niStatus 0 0 63 then s
  else if s.fold.isNone then s.takeEject p
  else if !s.injectRoom (s.ejectShare p) 2 || (s.mustForward p && !s.injectRoom (s.ejectShare p) 1) then s
  else
    let s := s.takeEject p
    if !pktOk p then s.incFld .niCntA 0 0 63 32
    else if p.jobTag.toNat ≠ s.jobTag then
      let s := s.logSent p stJobMismatch
      if s.fenced then s
      else
        let q := s.packet p.src 0x20 false stJobMismatch p.share p.seq.toNat 0 0 p.tag 0 0 0
          (if p.op = 0x03 then List.replicate 8 0 else [])
        s.inject (s.ejectShare p) { q with jobTag := p.jobTag }
    else if s.fenced then s
    else (s.classifyPkt p).retryProc

/-- The operations of Table 10.2 that an NI takes. -/
def niOps : List Nat := [0x01, 0x02, 0x03, 0x04, 0x10, 0x20, 0x21, 0x30]

/-- A packet of no such operation carries no sequence number: it is discarded and logged (R408, R410, R439). -/
def State.arriveOdd (s : State) (p : Packet) : State :=
  if !s.rbit .niStatus 0 0 63 then s
  else
    let s := s.takeEject p
    if s.fold.isNone then s
    else if !pktOk p then s.incFld .niCntA 0 0 63 32
    else s.niLog (if p.jobTag.toNat ≠ s.jobTag then stJobMismatch else stRefused) false p.space p.cls p.op p.src (s.ejectShare p) p.offset

/-- A packet of a row's operation, or of no listed one, arrives. -/
def onPacket (op : Nat) (p : Packet) (s : State) (k : State → State) : Out :=
  .next (if p.payload.length ≠ p.len then s
    else if p.op = op then k s
    else if niOps.contains p.op then s
    else s.arriveOdd p)

/-- WRITE. -/
def execWrite (p : Packet) (s : State) : Out := onPacket 0x01 p s fun s => s.arrivePkt p
/-- READ. -/
def execRead (p : Packet) (s : State) : Out := onPacket 0x02 p s fun s => s.arrivePkt p
/-- ATOMIC. -/
def execAtomic (p : Packet) (s : State) : Out := onPacket 0x03 p s fun s => s.arrivePkt p
/-- SIGNAL. -/
def execSignal (p : Packet) (s : State) : Out := onPacket 0x04 p s fun s => s.arrivePkt p
/-- COH_FWD. -/
def execCohFwd (p : Packet) (s : State) : Out := onPacket 0x10 p s fun s => s.arrivePkt p
/-- CONTRIB. -/
def execContrib (p : Packet) (s : State) : Out := onPacket 0x30 p s fun s => s.arrivePkt p

/-- The held packet of a source whose turn has come (R450). -/
def State.dueFlag (s : State) (src : Nat) : Option Held :=
  s.ni.held.find? fun x => x.p.src == src && x.p.seq.toNat == (s.rx src).exp

/-- The held packets of a source that are due are performed in ascending order of SEQ; `n` bounds them. -/
def State.releaseFlags (s : State) (src : Nat) : Nat → State
  | 0 => s
  | n + 1 => match s.dueFlag src with
    | none => s
    | some x =>
      if !s.injectRoom x.share 2 then s
      else State.releaseFlags ((s.setNi { s.ni with held := s.ni.held.erase x }).runPkt x.share false x.p) src n

/-- FLAG_HOLD_RELEASE (R448, R450). -/
def execFlagHoldRelease (src : Nat) (s : State) : Out := .next (s.releaseFlags src 1024)

end Sys2Proof.Machine
end

