-- ==== Sys2Proof/Machine/NiSend.lean ====
section
/-! DEFINITION. The source side of the network interface at work: sending, responses (R443, R452, R453), re-sends and deadlines
(R440, R442), acknowledgements (R438), pair resets (R446) and dead devices (R493). -/

namespace Sys2Proof.Machine

/-! ### The issuer learns the final status -/

/-- The tags and waiting requests of the invalidations of a line. -/
def State.invalsOut (s : State) (line : Nat) : Bool :=
  let mine (o : TagOwner) : Bool := match o with
    | .inval l _ => l == line
    | _ => false
  (s.ni.tags.any fun t => mine t.req.owner) || s.ni.waiting.any fun r => mine r.owner

/-- A fill ends (Table 11.5): its bytes serve the reads that wait for it, and in F they are written into this member's copy. A
failed fill ends every access that waits for it. -/
def State.fillDone (s : State) (line st : Nat) (bs : List Byte) : State :=
  let reads (ws : List FillWait) (b : Bool) : List FillWait := ws.filter fun w => w.reads == b
  match s.lineSt line with
  | .fill ws =>
    if st = stOk then
      ((s.bring line st bs (reads ws true)).setLine line (.fill (reads ws false))).arrive (s.stackOf line)
        { source := 3, core := 0, addr := line, job := 2 ^ 62 } (.put bs) .fill
    else (s.bring line st [] ws).setLine line .inv
  | .fillInv ws => (s.bring line st bs (if st = stOk then reads ws true else ws)).setLine line .inv
  | _ => s

/-- A member leaves the mask of a BUSY line (R492). -/
def State.unshare (s : State) (line member : Nat) : State :=
  match s.windowAt line, s.lineSt line with
  | some w, .busy m => s.setLine line (.busy (mask w.members.length fun i => bit m i && w.members[i]? != some member))
  | _, _ => s

/-- The operation behind a request ends with a status (R222, R452, R468, R475, R486, R492, R544, R585). -/
def State.completeOwner (s : State) (o : TagOwner) (dest st : Nat) (bs : List Byte) : State :=
  match o with
  | .remote f c id => s.remoteDone f c id st (ofLE (bs.take 8))
  | .put f c seq off => s.modDma f c seq fun d => d.piece off st
  | .get f c seq off dst =>
    s.modDma f c seq fun d =>
      let d := d.piece off st
      if st = stOk then { d with land := d.land ++ [(off, dst, bs)] } else d
  | .fill line => (s.fillDone line st bs).serveAll
  | .cohWrite r a =>
    (s.setCohw (s.ni.cohw.map fun x =>
      if x.req = r ∧ x.addr = a then { x with st := some st, old := ofLE (bs.take 8) } else x)).serveAll
  | .inval line m =>
    let s := if st = stTimeout then (s.unshare line m).niFatalEvent 3 dest else s
    if s.invalsOut line then s
    else match s.lineSt line with
      | .busy _ => (s.setLine line .inv).serveAll
      | _ => s
  | .kiln g seq rcv notice => s.contribFinal g seq rcv st (ofLE (bs.take 8)) notice
  | .redeliver n off => s.redelPiece n off st bs
  | .mirror => s
  | .gone => s
  | .late => s.incFld .drvResetStatus 0 0 31 0

/-- A tag retires with a status, and `logged` is what the log records of it (R453, R458). -/
def State.retireAs (s : State) (t : Tag) (logged st : Nat) (bs : List Byte) : State :=
  let s := s.dropTag t.num
  let s := if st = stOk then s
    else s.niLog logged true t.req.space (opClass t.req.op) t.req.op t.dest t.req.share t.req.offset
  s.completeOwner t.req.owner t.dest st bs

/-- A tag retires with a status, which is logged when it is not OK (R458). -/
def State.retireTag (s : State) (t : Tag) (st : Nat) (bs : List Byte) : State := s.retireAs t st st bs

/-! ### Sending -/

/-- The device that a request goes to. -/
def State.destOf (s : State) (r : NiReq) : Nat := if r.byRank then (s.deviceOf r.dest).getD 0 else r.dest

/-- The first waiting request of a share that can be sent, in its issuers' turns, is sent. -/
def State.sendNext (s : State) (share : Nat) : State :=
  let s := s.matchSlots
  match s.sendFirst [] (s.inTurn share) with
  | (s, none) => s
  | (s, some (r, st)) => s.completeOwner r.owner (s.destOf r) st []

/-- A live tag's packet is sent again with the same SEQ and TAG (R440); its payload is read again. `t` is the tag as the
sending leaves it; where the packet cannot go yet, the tag stays as it was and the expiry can come again. A payload that cannot be
read any more gives no copy, but the re-send counts: only a response, a dead device or the count ends the tag (R474, R475; DESIGN
CHOICE, log entry 69). -/
def State.resend (s : State) (t : Tag) : State :=
  if s.fenced || !s.injectRoom t.req.share (opClass t.req.op) then s
  else match s.payload t.req with
    | (s, none) => s
    | (s, some (st, bs)) =>
      if st ≠ stOk then s.setTag t
      else ((s.setTag t).incFld .niCntA 0 0 31 0).inject t.req.share (s.tagPacket t bs)

/-- A tag has had no response for an interval (R440, R494). -/
def State.resendExpiry (s : State) (tag : Nat) : State :=
  match s.ni.tag tag with
  | none => s
  | some t =>
    if t.backoff then s
    else if s.fld .niResend 0 0 35 32 ≤ t.resends then (s.niFatalEvent 2 t.dest).retireTag t stTimeout []
    else s.resend { t with resends := t.resends + 1 }

/-- The back-off of a tag that was answered with DEFERRED has run out (R442). -/
def State.backoffExpiry (s : State) (tag : Nat) : State :=
  match s.ni.tag tag with
  | none => s
  | some t => if t.backoff then s.resend { t with backoff := false } else s

/-- A tag passes its deadline (R442). -/
def State.tagDeadline (s : State) (tag : Nat) : State :=
  match s.ni.tag tag with
  | none => s
  | some t => s.retireTag t stTimeout []

/-! ### Responses -/

/-- The share of a RSP packet. -/
def rspShare (p : Packet) : Nat := min p.share 11

/-- A RESPONSE or ACK whose form breaks R408. -/
def rspWellFormed (p : Packet) : Bool :=
  !pktReserved p && p.cls == 2 && p.len == p.payload.length && (p.op != 0x21 || (p.len == 0 && p.status == 0))

/-- The LEN that a RESPONSE to a request has (Table 10.2, R466, R542). -/
def rspLen (r : NiReq) (st : Nat) : Nat :=
  if r.op = 0x03 then 8
  else if r.op = 0x02 ∧ st = stOk then bits r.w4.toNat 9 0
  else if r.op = 0x30 ∧ st = stMismatch then 8
  else 0

/-- A RESPONSE reaches its tag (R443, R452, R453). -/
def State.takeResponse (s : State) (p : Packet) : State :=
  match s.ni.tag p.tag with
  | none => s.incFld .niCntB 0 0 31 0
  | some t =>
    if t.dest ≠ p.src ∨ t.seq ≠ p.seq.toNat then s.incFld .niCntB 0 0 31 0
    else if p.status = stTimeout ∨ 0xA < p.status then
      s.retireAs t p.status stRefused []
    else if p.len ≠ rspLen t.req p.status then
      s.niLog stRefused false p.space p.cls p.op p.src (rspShare p) p.offset
    else if p.status = stDeferred then s.setTag { t with resends := 0, backoff := true }
    else s.retireTag t p.status p.payload

/-- An RSP packet arrives (R408, R410, R438, R439). -/
def State.arriveRsp (s : State) (p : Packet) (take : State → State) : State :=
  if !s.rbit .niStatus 0 0 63 then s
  else
    let s := s.takeEject p
    if s.fold.isNone then s
    else if !pktOk p then s.incFld .niCntA 0 0 63 32
    else if p.jobTag.toNat ≠ s.jobTag then s.niLog stJobMismatch false p.space p.cls p.op p.src (rspShare p) p.offset
    else if !rspWellFormed p then s.niLog stRefused false p.space p.cls p.op p.src (rspShare p) p.offset
    else take (s.takeAck p)

/-- ACK (R438). -/
def execAck (p : Packet) (s : State) : Out := onPacket 0x21 p s fun s => s.arriveRsp p fun s => s

/-- ACK_TIMER_EXPIRY (R438): ACK_SEQ to a device has advanced and no packet has carried it. -/
def execAckTimerExpiry (dst : Nat) (s : State) : Out :=
  .next (if !s.niUp || s.fenced || s.ni.ackSeq dst == Sparse.get 0 s.ni.acked dst || !s.injectRoom 8 2 then s
    else s.inject 8 (s.packet dst 0x21 false 0 8 0 0 0 0 0 0 0 []))

/-! ### Pair resets and dead devices -/

/-- Every tag outstanding to a device retires with TIMEOUT, in ascending SHARE (R458). -/
def State.retireAllTo (s : State) (device : Nat) : State :=
  let ts := s.ni.tags.filter fun t => t.dest == device
  ((List.range 12).flatMap fun i => ts.filter fun t => t.req.share == i).foldl (fun s t => s.retireTag t stTimeout []) s

/-- The flag-hold entries and replay entries of a device's held packets free without effect (R446, R698). -/
def State.dropHeldFrom (s : State) (device : Nat) : State :=
  let mine := s.ni.held.filter fun x => x.p.src == device
  s.setNi { s.ni with
    held := s.ni.held.filter fun x => x.p.src != device
    replay := s.ni.replay.filter fun x => !(mine.any fun h => h.p.src == x.src && h.p.seq.toNat == x.seq) }

/-- Operations of a device that are being performed complete, and their answers are discarded (R446, R698). -/
def State.orphan (s : State) (device : Nat) : State :=
  s.setNi { s.ni with proc := s.ni.proc.map fun x => if x.p.src = device then { x with orphan := true } else x }

/-- A write of NI_PAIR_RESET (R446, R493). -/
def State.pairReset (s : State) (v : Nat) : State :=
  let d := bits v 13 0
  let s := ((s.retireAllTo d).dropHeldFrom d).orphan d
  s.setNi { s.ni with
    next := Sparse.set 0 s.ni.next d 0
    acked := Sparse.set 0 s.ni.acked d 0
    rx := Sparse.set RxRec.fresh s.ni.rx d RxRec.fresh
    replay := s.ni.replay.filter fun x => x.src != d
    dead := s.ni.dead.filter (· != d) }

/-- A device leaves every sharer mask. -/
def State.dropSharer (s : State) (device : Nat) : State :=
  s.setNi { s.ni with lines := s.ni.lines.filterMap fun e =>
    match e.2, s.windowAt e.1 with
    | .shared m, some w =>
      let m' := mask w.members.length fun i => bit m i && ((w.members[i]?).bind s.deviceOf) != some device
      if m' = 0 then none else some (e.1, .shared m')
    | .busy m, some w =>
      some (e.1, .busy (mask w.members.length fun i => bit m i && ((w.members[i]?).bind s.deviceOf) != some device))
    | _, _ => some e }

/-- A device is declared dead to the NI (R493, R698); its event goes before those of the invalidations that end with it
(R497). -/
def State.niDead (s : State) (device : Nat) : State :=
  let s := (s.setNi { s.ni with dead := device :: s.ni.dead.filter (· != device) }).niFatalEvent 1 device
  let s := ((s.retireAllTo device).dropHeldFrom device).orphan device
  (s.setNi { s.ni with replay := s.ni.replay.filter fun x => x.src != device }).dropSharer device

end Sys2Proof.Machine
end

