-- ==== Sys2Proof/Machine/Kryrum.lean ====
section
/-! DEFINITION. Kryrum FEC and the codeword sequence of a transmit direction (R597 to R599, R603): the code, the lane slots, and the
packets and control codewords that a port sends. -/

namespace Sys2Proof.Machine

/-! ### GF(2^10) (R597) -/

/-- x · a; the field is generated by x^10 + x^3 + 1, and x is α. -/
def gfDouble (a : Nat) : Nat := if 512 ≤ a then (2 * a) ^^^ 1033 else 2 * a

/-- a · b over the low `n` bits of b. -/
def gfMulN : Nat → Nat → Nat → Nat
  | 0, _, _ => 0
  | n + 1, a, b => gfDouble (gfMulN n a (b / 2)) ^^^ (if b % 2 = 1 then a else 0)

def gfMul (a b : Nat) : Nat := gfMulN 10 a b

/-- α^n · a. -/
def gfShift : Nat → Nat → Nat
  | 0, a => a
  | n + 1, a => gfShift n (gfDouble a)

/-- a^2 · a^4 · … of `n` factors. -/
def gfSquares : Nat → Nat → Nat
  | 0, _ => 1
  | n + 1, a => let q := gfMul a a; gfMul q (gfSquares n q)

/-- 1 / a, which is a^1022. -/
def gfInv (a : Nat) : Nat := gfSquares 9 a

/-! ### Polynomials, the lowest coefficient first -/

def polyAdd : List Nat → List Nat → List Nat
  | [], q => q
  | p, [] => p
  | a :: p, b :: q => (a ^^^ b) :: polyAdd p q

def polyScale (k : Nat) (p : List Nat) : List Nat := p.map (gfMul k)

def polyMul : List Nat → List Nat → List Nat
  | [], _ => []
  | a :: p, q => polyAdd (polyScale a q) (0 :: polyMul p q)

def polyEval (p : List Nat) (x : Nat) : Nat := p.foldr (fun a r => a ^^^ gfMul x r) 0

/-- The formal derivative; in characteristic 2 the odd powers alone count. -/
def polyDeriv : List Nat → List Nat
  | [] => []
  | _ :: p => p.zipIdx.map fun x => if x.2 % 2 = 0 then x.1 else 0

/-! ### RS(136,128) (R597) -/

/-- The generator polynomial, whose roots are α^0 to α^7. -/
def rsGen : List Nat := (List.range 8).foldl (fun g i => polyMul g [gfShift i 1, 1]) [1]

/-- The 128 data symbols of 160 bytes, and the bytes of data symbols: little-endian, ten bits at a time. -/
def rsSymbols (bs : List Byte) : List Nat := (List.range 128).map fun i => leAt bs 0 160 / 2 ^ (10 * i) % 2 ^ 10
def rsBytes (c : List Nat) : List Byte := leBytes 160 ((c.take 128).zipIdx.foldl (fun v x => v + x.1 % 2 ^ 10 * 2 ^ (10 * x.2)) 0)

/-- The eight parity symbols, the highest power first. Symbol 0 is the coefficient of the highest power, x^135 (DESIGN CHOICE, log
entry 71). -/
def rsParity (g : List Nat) (data : List Nat) : List Nat :=
  data.foldl (fun r d =>
    let f := d ^^^ (r.headD 0)
    List.zipWith (fun a b => a ^^^ gfMul f b) (r.drop 1 ++ [0]) ((g.take 8).reverse)) (List.replicate 8 0)

/-- The codeword of 160 data bytes. -/
def rsEncode (bs : List Byte) : List Nat := let d := rsSymbols bs; d ++ rsParity rsGen d

/-- The eight syndromes of a received word, its values at α^0 to α^7. -/
def rsSyndromes (c : List Nat) : List Nat := (List.range 8).map fun i => c.foldl (fun v x => gfMul v (gfShift i 1) ^^^ x) 0

/-- The search for the shortest error locator: the locator and its length, those before its last change of length with the discrepancy
there, and the steps since. -/
structure RsSearch where
  loc  : List Nat
  len  : Nat
  prev : List Nat
  disc : Nat
  gap  : Nat

/-- One syndrome more. -/
def RsSearch.more (x : RsSearch) (syn : List Nat) (n : Nat) : RsSearch :=
  let d := (List.range (x.len + 1)).foldl (fun v i => v ^^^ gfMul (x.loc.getD i 0) (syn.getD (n - i) 0)) 0
  if d = 0 then { x with gap := x.gap + 1 }
  else
    let loc := polyAdd x.loc (polyScale (gfMul d (gfInv x.disc)) (List.replicate x.gap 0 ++ x.prev))
    if 2 * x.len ≤ n then { loc := loc, len := n + 1 - x.len, prev := x.loc, disc := d, gap := 1 }
    else { x with loc := loc, gap := x.gap + 1 }

/-- The error locator of eight syndromes, and how many errors it stands for. -/
def rsLocator (syn : List Nat) : RsSearch :=
  (List.range 8).foldl (fun x n => x.more syn n) { loc := [1], len := 0, prev := [1], disc := 1, gap := 1 }

/-- The inverse locators of the symbols from one on, in order. -/
def rsPlaces : Nat → Nat → List Nat
  | 0, _ => []
  | n + 1, w => w :: rsPlaces n (gfDouble w)

/-- The symbols in error, each with its error value, as a locator and the syndromes give them. -/
def rsErrors (syn loc : List Nat) : List (Nat × Nat) :=
  let om := (polyMul syn loc).take 8
  let dv := polyDeriv loc
  (rsPlaces 136 (gfShift 888 1)).zipIdx.filterMap fun x =>
    if polyEval loc x.1 = 0 then some (x.2, gfMul (gfMul (gfInv x.1) (polyEval om x.1)) (gfInv (polyEval dv x.1))) else none

/-- The codeword within 4 symbols of a received word, with the symbols that were in error; none where there is no such codeword
(R597, R600). -/
def rsDecode (c : List Nat) : Option (List Nat × List Nat) :=
  let syn := rsSyndromes c
  if syn.all (· == 0) then some (c, [])
  else
    let x := rsLocator syn
    let es := rsErrors syn x.loc
    let d := es.foldl (fun (c : List Nat) e => c.set e.1 (c.getD e.1 0 ^^^ e.2)) c
    if x.len ≤ 4 ∧ es.length = x.len ∧ (rsSyndromes d).all (· == 0) then some (d, es.map (·.1)) else none

/-! ### Lane slots (R598) -/

/-- Symbol times of a codeword on each of `n` slots. -/
def slotTimes (n : Nat) : Nat := (136 + n - 1) / n

/-- The symbols of a codeword on each of `n` active slots; symbol times that are left carry zero bits. -/
def onSlots (n : Nat) (c : List Nat) : List (List Nat) :=
  (List.range n).map fun i => (List.range (slotTimes n)).map fun t => c.getD (t * n + i) 0

/-- The codeword that arrived on some slots. -/
def offSlots (lanes : List (List Nat)) : List Nat :=
  (List.range 136).map fun j => (lanes.getD (j % lanes.length) []).getD (j / lanes.length) 0

/-! ### Ports -/

def State.port (s : State) (q : Nat) : Port := Sparse.get Port.fresh s.ports q
def State.setPort (s : State) (q : Nat) (p : Port) : State := { s with ports := Sparse.set Port.fresh s.ports q p }
def State.modPort (s : State) (q : Nat) (f : Port → Port) : State := s.setPort q (f (s.port q))

/-- Lane maps (Table 15.13). -/
def laneReg (rx : Bool) : Reg := if rx then .hthLaneRx else .hthLaneTx
def State.lane (s : State) (q : Nat) (rx : Bool) (hi lo : Nat) : Nat := s.fld (laneReg rx) (q / 4) (q % 4) hi lo
def State.slotWl (s : State) (q : Nat) (rx : Bool) (j : Nat) : Nat := s.lane q rx (4 * j + 3) (4 * j)

/-- The active slots of a direction, in ascending order. -/
def State.slots (s : State) (q : Nat) (rx : Bool) : List Nat := (List.range 8).filter fun j => s.slotWl q rx j != 0xF

/-! ### Control codewords (Table 15.3) -/

/-- A lane-management message. The places of its fields within bytes 11 to 25 are the model's (DESIGN CHOICE, log entry 71). -/
def laneBytes (m : LaneMsg) : List Byte :=
  let bs := match m with
    | .none => []
    | .swapReq rx slot wl b => [1, BitVec.ofNat 8 rx.toNat, BitVec.ofNat 8 slot, BitVec.ofNat 8 wl] ++ leBytes 2 b
    | .swapAck rx slot wl b => [2, BitVec.ofNat 8 rx.toNat, BitVec.ofNat 8 slot, BitVec.ofNat 8 wl] ++ leBytes 2 b
    | .laserOut wl => [3, BitVec.ofNat 8 wl]
    | .retrain => [4]
  slice bs 0 16

/-- The message in bytes 10 to 25. -/
def laneOf (bs : List Byte) : LaneMsg :=
  let rx := leAt bs 1 1 == 1
  match leAt bs 0 1 with
  | 1 => .swapReq rx (leAt bs 2 1) (leAt bs 3 1) (leAt bs 4 2)
  | 2 => .swapAck rx (leAt bs 2 1) (leAt bs 3 1) (leAt bs 4 2)
  | 3 => .laserOut (leAt bs 1 1)
  | 4 => .retrain
  | _ => .none

/-- A muster entry (Table 18.3) and a muster frame (Table 18.2). -/
def entryBytes (e : MusterEntry) : List Byte :=
  leBytes 2 (e.subject % 2 ^ 14) ++ leBytes 1 e.kind ++ leBytes 1 e.ttl ++ leBytes 2 e.reporter ++ leBytes 2 0
def frameBytes (f : MusterFrame) : List Byte :=
  slice (leBytes 4 f.jobTag.toNat ++ leBytes 2 f.fseq.toNat ++ leBytes 1 f.state ++ leBytes 1 f.resv.toNat
    ++ (f.entries.map entryBytes).flatten) 0 64

/-- The muster frame in bytes 28 to 91; none when they are zero. -/
def frameOf (bs : List Byte) : Option MusterFrame :=
  if bs.all (· == 0) then none
  else
    let entry (e : Nat) : MusterEntry :=
      { subject := leAt bs (8 + 8 * e) 2, kind := leAt bs (10 + 8 * e) 1, ttl := leAt bs (11 + 8 * e) 1,
        reporter := leAt bs (12 + 8 * e) 2 }
    some { jobTag := BitVec.ofNat 32 (leAt bs 0 4), fseq := BitVec.ofNat 16 (leAt bs 4 2), state := leAt bs 6 1,
           resv := leAt bs 7 1 != 0 || (List.range 7).any fun e => leAt bs (14 + 8 * e) 2 != 0,
           entries := (List.range 7).map entry }

/-- Bytes 0 to 155 of a control codeword. -/
def controlBody (w : ControlWord) : List Byte :=
  (w.credits.map fun n => BitVec.ofNat 8 (n % 16)) ++ leBytes 2 w.cseq ++ laneBytes w.lane ++ leBytes 2 0
    ++ (match w.muster with | some f => frameBytes f | none => List.replicate 64 0)
    ++ leBytes 2 (w.selfDevice % 2 ^ 14) ++ leBytes 1 (w.selfPort % 64) ++ List.replicate 61 0

/-- A control codeword's data, with its CRC. -/
def controlBytes (w : ControlWord) : List Byte := controlBody w ++ leBytes 4 w.crc.toNat

/-- A control codeword whose CRC holds. -/
def ctlSigned (w : ControlWord) : ControlWord := { w with crc := BitVec.ofNat 32 (crc32c (controlBody w)) }

/-- The control codeword in 160 data bytes. -/
def controlOf (bs : List Byte) : ControlWord :=
  { credits := (List.range 8).map fun i => leAt bs i 1 % 16
    cseq := leAt bs 8 2
    lane := laneOf (slice bs 10 16)
    muster := frameOf (slice bs 28 64)
    selfDevice := leAt bs 92 2 % 2 ^ 14
    selfPort := leAt bs 94 1 % 64
    crc := BitVec.ofNat 32 (leAt bs 156 4) }

/-- The CRC of 160 data bytes matches (Table 15.3). -/
def controlOk (bs : List Byte) : Bool := leAt bs 156 4 == crc32c (slice bs 0 156)

/-! ### The codeword sequence (R599) -/

/-- The credit totals that a control codeword carries (R604). -/
def State.creditTotals (s : State) (q : Nat) : List Nat :=
  (List.range 8).map fun i => Sparse.get 0 s.rtr.freed (q * 8 + i) % 16

/-- The next codeword of a port leaves on its active slots. -/
def State.sendCodeword (s : State) (q : Nat) (data : List Byte) : State :=
  let js := s.slots q false
  let lanes := (onSlots js.length (rsEncode data)).map fun l => l.map fun x => BitVec.ofNat 10 x
  (s.modPort q fun p => { p with txPos := (p.txPos + 1) % 20 }).emit (.codeword q (js.zip lanes))

/-- The control codeword that is due (R603). -/
def State.sendDue (s : State) (q : Nat) (lane : LaneMsg) (muster : Option MusterFrame) : State :=
  let w : ControlWord := { credits := s.creditTotals q, cseq := (s.port q).next, lane := lane, muster := muster,
                           selfDevice := s.device, selfPort := q, crc := 0 }
  (s.modPort q fun p => { p with next := (p.next + 1) % 2 ^ 16 }).sendCodeword q (controlBytes (ctlSigned w))

/-- A codeword of flits leaves: bytes that wait, and zero flits where they are too few (log entry 71). -/
def State.sendFlitWord (s : State) (q : Nat) : State :=
  let bs := (s.port q).txBytes
  let bs := bs ++ List.replicate ((160 - bs.length + 63) / 64 * 64) 0
  (s.modPort q fun p => { p with txBytes := bs.drop 160 }).sendCodeword q (bs.take 160)

/-- Flits leave by a port, each codeword in its turn: the first of every 20 is a control codeword (R599). -/
def State.sendFlits (s : State) (q : Nat) (bs : List Byte) : State :=
  let s := s.modPort q fun p => { p with txBytes := p.txBytes ++ bs }
  (List.range (((s.port q).txBytes.length + 159) / 160)).foldl (fun s _ =>
    (if (s.port q).txPos = 0 then s.sendDue q .none none else s).sendFlitWord q) s

/-- A packet leaves by a port. -/
def State.sendPacket (s : State) (q : Nat) (p : Packet) : State := s.sendFlits q (pktFlits p).flatten

/-- A control codeword leaves a port, at its place in the sequence: the flit codewords before it go first (R599, R603). -/
def State.sendControl (s : State) (q : Nat) (lane : LaneMsg) (muster : Option MusterFrame) : State :=
  ((List.range ((20 - (s.port q).txPos) % 20)).foldl (fun s _ => s.sendFlitWord q) s).sendDue q lane muster

/-! ### Reception -/

/-- The packet in some flits: the header, and LEN bytes of payload. -/
def packetOf (bs : List Byte) : Packet :=
  let w (i : Nat) : Nat := leAt bs (8 * i) 8
  let len := bits (w 0) 21 12
  { dest := bits (w 0) 63 50, src := bits (w 0) 49 36, cls := bits (w 0) 35 34, flag := bit (w 0) 33, ll := bit (w 0) 32,
    op := bits (w 0) 31 26, status := bits (w 0) 25 22, len := len, share := bits (w 0) 11 8, hops := bits (w 0) 7 0,
    jobTag := BitVec.ofNat 32 (bits (w 1) 63 32), seq := BitVec.ofNat 32 (w 1), rsv2 := bits (w 2) 63 50,
    space := bits (w 2) 49 48, offset := bits (w 2) 47 0, ackSeq := BitVec.ofNat 32 (bits (w 3) 63 32),
    epoch := BitVec.ofNat 16 (bits (w 3) 31 16), tag := bits (w 3) 15 0, w4 := BitVec.ofNat 64 (w 4),
    w5 := BitVec.ofNat 64 (w 5), w6 := BitVec.ofNat 64 (w 6), ackV := bit (w 7) 63, esc := bit (w 7) 62,
    rsv7 := bits (w 7) 61 32, crc := BitVec.ofNat 32 (w 7), payload := slice bs 64 len }

/-- What stands first in received flits, each byte with its mark: nothing whole yet, an idle flit, or the bytes of a packet and whether
one of its flits is uncorrectable (R420, R600). The length of a packet whose header is uncorrectable is read as it was received
(log entry 71). -/
inductive FlitsHead where
  | more
  | idle
  | packet (bytes : List Byte) (poisoned : Bool)
deriving DecidableEq, Repr

def flitsHead (bs : List (Byte × Bool)) : FlitsHead :=
  if bs.length < 64 then .more
  else
    let head := (bs.take 64).map (·.1)
    if head.all (· == 0) then .idle
    else
      let n := 64 + (bits (leAt head 0 8) 21 12 + 63) / 64 * 64
      if bs.length < n then .more else .packet ((bs.take n).map (·.1)) ((bs.take n).any (·.2))

/-- The packets in received flits, and the bytes that are left of the one that has come in part. -/
def takeFlits : Nat → List (Byte × Bool) → List (Packet × Bool) × List (Byte × Bool)
  | 0, bs => ([], bs)
  | n + 1, bs =>
    match flitsHead bs with
    | .more => ([], bs)
    | .idle => takeFlits n (bs.drop 64)
    | .packet p bad =>
      let r := takeFlits n (bs.drop p.length)
      ((packetOf p, bad) :: r.1, r.2)

end Sys2Proof.Machine
end

