-- ==== Sys2Proof/Machine/Router.lean ====
section
/-! DEFINITION. The router slices (R413 to R424): arrival, ejection, adaptive and escape forwarding, credits and discards. -/

namespace Sys2Proof.Machine

/-! ### Places -/

/-- The home slice of a hearth (Table 1.3). -/
def hearthSlice (h : Nat) : Nat := ([0, 1, 2, 3, 3, 7, 7, 11, 11, 10, 9, 8, 8, 4, 4, 0][h]?).getD 0

/-- The home slice of a device port (R15). -/
def portSlice (q : Nat) : Nat := hearthSlice (q / 4)

/-- The slice-mesh hops between two slices of the grid of 3 rows of 4. -/
def meshHops (a b : Nat) : Nat :=
  (a % 4 - b % 4) + (b % 4 - a % 4) + (a / 4 - b / 4) + (b / 4 - a / 4)

/-- The next slice from `a` towards `b` in X-then-Y order, with the direction taken: 0 and 1 along a row, 2 and 3 along a
column. -/
def meshNext (a b : Nat) : Nat × Nat :=
  if a % 4 < b % 4 then (a + 1, 0)
  else if b % 4 < a % 4 then (a - 1, 1)
  else if a / 4 < b / 4 then (a + 4, 2)
  else (a - 4, 3)

/-- A device port is UP. -/
def State.portUp (s : State) (q : Nat) : Bool := s.fld .hthPortStatus (q / 4) (q % 4) 62 60 == 2

/-- The register bits of a slice: it forwards traffic. -/
def State.sliceUp (s : State) (i : Nat) : Bool :=
  s.rbit .rtrStatus i 0 63 && !s.rst.any fun r => r.scope == 3 && r.target == i

/-! ### Credits (R424, R604) -/

/-- The number of a port's credit count. -/
def creditKey (q : Nat) (esc : Bool) (cls : Nat) : Nat := q * 8 + esc.toNat * 4 + cls

/-- The credits that this device holds for a queue at the far end of a port; none unless the port is UP (R619). -/
def State.credits (s : State) (q : Nat) (esc : Bool) (cls : Nat) : Nat :=
  if s.portUp q then
    Sparse.get 0 s.rtr.seen (creditKey q esc cls) - Sparse.get 0 s.rtr.spent (creditKey q esc cls)
  else 0

def State.setRtr (s : State) (r : Rtr) : State := { s with rtr := r }

/-- A credit is spent. -/
def State.spend (s : State) (q : Nat) (esc : Bool) (cls : Nat) : State :=
  s.setRtr { s.rtr with spent := Sparse.upd 0 s.rtr.spent (creditKey q esc cls) (· + 1) }

/-- A port input buffer frees. -/
def State.freed (s : State) (q : Nat) (esc : Bool) (cls : Nat) : State :=
  s.setRtr { s.rtr with freed := Sparse.upd 0 s.rtr.freed (creditKey q esc cls) (· + 1) }

/-! ### Queues -/

/-- A queue of a slice: NI injection, a slice-mesh input, or a device port's input. -/
inductive QKind where
  | inject (cls : Nat)
  | mesh (dir cls : Nat) (ring : Option Nat)
  | port (q cls : Nat) (esc : Bool)
deriving DecidableEq, Repr

/-- The queue that a number of a slice names (see `qInject`, `qMesh`, `qMeshEsc`, `qPort`, `qPortEsc`). -/
def queueKind (n : Nat) : Option QKind :=
  if n < 4 then some (.inject n)
  else if 16 ≤ n ∧ n < 32 then some (.mesh ((n - 16) / 4) (n % 4) none)
  else if 64 ≤ n ∧ n < 192 then some (.mesh ((n - 64) / 32) (n % 4) (some ((n - 64) / 4 % 8)))
  else if 512 ≤ n ∧ n < 1024 then some (.port ((n - 512) / 8) (n % 4) (bit n 2))
  else none

/-- The ring of travel through a port (R417): dimension and direction that a packet leaving by it travels in; ring 0 under
TOPOLOGY 0x01. -/
def State.ringOut (s : State) (q : Nat) : Nat := match s.fold with
  | none => 0
  | some x =>
    match lowest x.dims.length fun d => match x.dims[d]? with
      | some t => bit t.plus q || bit t.minus q
      | none => false with
    | none => 0
    | some d => 2 * d + (match x.dims[d]? with | some t => !bit t.plus q | none => false).toNat

/-- The ring of a packet that arrived by a port: it travels away from it. -/
def State.ringIn (s : State) (q : Nat) : Nat := match s.fold with
  | some x => if x.dims.isEmpty then 0 else s.ringOut q / 2 * 2 + (1 - s.ringOut q % 2)
  | none => 0

/-- The ring that a queue is an escape queue of. -/
def State.ringOf (s : State) (k : QKind) : Option Nat :=
  match k with
  | .inject _ => none
  | .mesh _ _ r => r
  | .port q _ esc => if esc then some (s.ringIn q) else none

/-- The route of a destination (R243, R413). -/
def State.route (s : State) (dest : Nat) : Option Route := match s.fold with
  | none => none
  | some x => x.routes.find? fun r => decide (r.first ≤ dest) && decide (dest ≤ r.last)

/-! ### Discards (R411, R413, R419, R420, R459) -/

/-- A discard is counted and logged: CAUSE, the port or mesh input of arrival, and whether it came from NI injection. -/
def State.discard (s : State) (slice cause port : Nat) (mesh inject : Bool) (p : Packet) : State :=
  let s := match cause with
    | 1 => s.incFld .rtrDrop slice 0 63 48
    | 2 => s.incFld .rtrDrop slice 0 47 32
    | _ => s.incFld .rtrDrop slice 0 31 16
  s.log .rtrFaultInfo slice 0
    (cause * 2 ^ 44 + (if inject then 0 else port) * 2 ^ 38 + (mesh && !inject).toNat * 2 ^ 37 + p.cls * 2 ^ 35 + p.src * 2 ^ 21
      + p.dest * 2 ^ 7 + inject.toNat * 2 ^ 6) (some (61, 46)) (some (.rtrFaultAddr, p.offset)) 0x06 slice

/-- RTR_ADAPT.HOP_LIMIT of a slice; 0 acts as 1. -/
def State.hopLimit (s : State) (slice : Nat) : Nat := max 1 (s.fld .rtrAdapt slice 0 15 8)

/-- A packet enters a slice by a device port or a slice-mesh input: it is discarded, or takes a buffer of the input queue
`q`, which holds `cap` packets. The second component says whether it was taken or discarded. -/
def State.enterSlice (s : State) (slice port : Nat) (mesh : Bool) (q cap : Nat) (p : Packet) (poisoned : Bool) :
    State × Bool :=
  let hops := p.hops + 1
  if poisoned then (s.discard slice 1 port mesh false p, true)
  else if s.fold.isNone ∨ (p.dest ≠ s.device ∧ (s.route p.dest).isNone) then (s.discard slice 2 port mesh false p, true)
  else if p.dest ≠ s.device ∧ s.hopLimit slice ≤ hops then (s.discard slice 3 port mesh false p, true)
  else if (s.queue slice q).length < cap then (s.pushQueue slice q { p with hops := hops % 256 }, true)
  else (s, false)

/-- The escape ring of a packet between slices: that of the port that it leaves by (R417). -/
def State.ringTo (s : State) (dest : Nat) : Nat := match s.route dest with
  | some r => s.ringOut r.esc
  | none => 0

/-- A packet arrives by a device port (R411 to R413, R419, R420); a poisoned one is discarded, link-local or not. A link-local packet
that is sound is the drover's. -/
def State.portArrival (s : State) (q : Nat) (p : Packet) (poisoned : Bool) : State :=
  let slice := portSlice q
  if !s.sliceUp slice || !s.portUp q || (p.ll && !poisoned) then s
  else if p.ll then s.discard slice 1 q false false p
  else
    let n := if p.esc then qPortEsc q p.cls else qPort q p.cls
    let (s', taken) := s.enterSlice slice q false n (if p.esc then 4 else 6) p poisoned
    -- the buffer of a discarded packet frees at once
    if taken && (s'.queue slice n).length == (s.queue slice n).length then s'.freed q p.esc p.cls else s'

/-- A packet arrives over the slice mesh from a neighbour in direction `dir` (R411 to R413, R417, R419, R420). -/
def State.meshArrival (s : State) (slice dir : Nat) (p : Packet) (poisoned : Bool) : State :=
  if s.sliceUp slice && !p.ll then
    (s.enterSlice slice dir true (if p.esc then qMeshEsc dir (s.ringTo p.dest) p.cls else qMesh dir p.cls)
      (if p.esc then 3 else 4) p poisoned).1
  else s

/-- ROUTER_PACKET_ARRIVAL (R413, R420): a packet enters a slice by one of its device ports or, over the slice mesh, from a neighbour in
direction `port`. A sound link-local packet arrives by the RELAY commands. -/
def execRouterPacketArrival (slice port : Nat) (mesh : Bool) (p : Packet) (poisoned : Bool) (s : State) : Out :=
  .next (
    if 12 ≤ slice ∨ 4 ≤ p.cls ∨ p.len ≠ p.payload.length then s
    else if mesh then (if 4 ≤ port then s else s.meshArrival slice port p poisoned)
    else if 64 ≤ port ∨ portSlice port ≠ slice then s
    else s.portArrival port p poisoned)

/-! ### Forwarding -/

/-- The head of a queue has left. -/
def State.popQueue (s : State) (slice n : Nat) (k : QKind) : State :=
  let s := s.setQueue slice n ((s.queue slice n).drop 1)
  match k with
  | .port q cls esc => s.freed q esc cls
  | _ => s

/-- The port of R415: the highest score, credits minus PENALTY for each slice-mesh hop; the lowest number on a tie. -/
def State.adaptivePort (s : State) (slice cls : Nat) (r : Route) : Option Nat :=
  let score (q : Nat) : Int :=
    (s.credits q false cls : Int) - s.fld .rtrAdapt slice 0 3 0 * meshHops slice (portSlice q)
  ((List.range 64).filter fun q => bit r.minPorts q && decide (0 < s.credits q false cls)).foldl
    (fun best q => match best with
      | none => some q
      | some b => if score b < score q then some q else some b) none

/-- A packet leaves by a device port. -/
def State.sendPort (s : State) (q : Nat) (p : Packet) : State := (s.spend q p.esc p.cls).sendPacket q p

/-- A packet moves towards a port: out by it, or into the next slice's mesh input; none when there is no room. `ring` is the
escape ring of a packet on the escape channel; it needs two free buffers to enter a ring and one to go on within it. -/
def State.moveTo (s : State) (slice q : Nat) (p : Packet) (ring : Option Nat) (entering : Bool) : Option State :=
  let need := if ring.isSome && entering then 2 else 1
  if portSlice q = slice then
    if need ≤ s.credits q ring.isSome p.cls then some (s.sendPort q { p with esc := ring.isSome }) else none
  else
    let (next, dir) := meshNext slice (portSlice q)
    let n := match ring with
      | some r => qMeshEsc dir r p.cls
      | none => qMesh dir p.cls
    let cap := if ring.isSome then 3 else 4
    if s.sliceUp next ∧ (s.queue next n).length + need ≤ cap then
      some (s.enterSlice next dir true n cap { p with esc := ring.isSome } false).1
    else none

/-- A packet takes, or goes on along, the escape channel through ESCAPE_PORT (R416 to R418). -/
def State.escape (s : State) (slice : Nat) (p : Packet) (r : Route) (came : Option Nat) : Option State :=
  let ring := s.ringOut r.esc
  let entering := came != some ring
  (s.moveTo slice r.esc p (some ring) entering).map fun s =>
    if entering then s.incFld .rtrStatus slice 0 31 0 else s

/-- What the head of a queue can do now: it stays, it is discarded, or it leaves by an output of the slice (R421). -/
inductive Onward where
  | stays
  | drops (s : State)
  | leaves (output : Nat) (s : State)

/-- The outputs of a slice: its device ports, the slice mesh by direction, and ejection to a share. -/
def outLink (slice q : Nat) : Nat := if portSlice q = slice then q else 64 + (meshNext slice (portSlice q)).2
def outEject (share : Nat) : Nat := 68 + share

/-- What the head of a queue can do: ejection (R413, R414), the adaptive or the escape way (R415 to R418), discard (R419). -/
def State.onward (s : State) (slice n : Nat) (k : QKind) (p : Packet) : Onward :=
  let pop (s : State) : State := s.popQueue slice n k
  let by' (q : Nat) : Option State → Onward
    | some s => .leaves (outLink slice q) s
    | none => .stays
  if s.fold.isNone then .drops ((pop s).discard slice 2 0 false true p)
  else if p.dest = s.device then
    let share := s.ejectShare p
    if (s.queue share (qEject p.cls)).length < 8 then .leaves (outEject share) ((pop s).pushQueue share (qEject p.cls) p)
    else .stays
  else match s.route p.dest with
    | none => .drops ((pop s).discard slice 2 0 false true p)
    | some r =>
      let came := s.ringOf k
      let injected := match k with
        | .inject _ => true
        | _ => false
      let p := if injected then { p with hops := (p.hops + 1) % 256 } else p
      if injected && decide (s.hopLimit slice ≤ p.hops) then .drops ((pop s).discard slice 3 0 false true p)
      else if p.esc then by' r.esc ((pop s).escape slice p r came)
      else match s.adaptivePort slice p.cls r with
        | some q => by' q ((pop s).moveTo slice q p none false)
        | none => by' r.esc ((pop s).escape slice p r none)

/-! ### Arbitration (R421) -/

/-- A queue of a slice whose head can leave by an output: its number, its class, and whether it is an escape queue. -/
structure Rival where
  queue : Nat
  cls   : Nat
  esc   : Bool
deriving DecidableEq, Repr

def QKind.rival (n : Nat) : QKind → Rival
  | .inject cls => { queue := n, cls := cls, esc := false }
  | .mesh _ cls ring => { queue := n, cls := cls, esc := ring.isSome }
  | .port _ cls esc => { queue := n, cls := cls, esc := esc }

/-- The queues of a slice whose head can leave by an output now. -/
def State.rivals (s : State) (slice output : Nat) : List Rival :=
  s.rtr.queues.filterMap fun e =>
    if e.1 / 4096 ≠ slice then none
    else match queueKind (e.1 % 4096), e.2 with
      | some k, p :: _ => match s.onward slice (e.1 % 4096) k p with
        | .leaves o _ => if o = output then some (k.rival (e.1 % 4096)) else none
        | _ => none
      | _, _ => none

/-- The weight of a class; 0 acts as 1 (Table 10.13). -/
def State.clsWeight (s : State) (slice cls : Nat) : Nat := max 1 (s.fld .rtrClassWeight slice 0 (8 * cls + 7) (8 * cls))

/-- Of some numbers, the first that comes in cyclic order from `start`. -/
def firstFrom (start size : Nat) (xs : List Nat) : Option Nat :=
  xs.foldl (fun b x => match b with
    | none => some x
    | some y => if (x + size - start) % size < (y + size - start) % size then some x else some y) none

/-- The rival whose turn it is at an output: the class goes on until it has sent packets as many as its weight, then the next
class that can send; escape queues go before adaptive ones, and within these the input after the one that went last (R421). The
order of the classes and of the inputs is the model's (DESIGN CHOICE, log entry 13). -/
def State.winner (s : State) (slice output : Nat) : Option Rival :=
  let rs := s.rivals slice output
  let (c, n) := Sparse.get (0, 0) s.rtr.turn (slice * 128 + output)
  let start := if n < s.clsWeight slice c then c else (c + 1) % 4
  match firstFrom start 4 (rs.map fun r => r.cls) with
  | none => none
  | some cls =>
    let mine := rs.filter fun r => r.cls == cls
    let esc := mine.any fun r => r.esc
    let ins := mine.filter fun r => r.esc == esc
    match firstFrom (Sparse.get 0 s.rtr.input ((slice * 128 + output) * 8 + cls * 2 + esc.toNat)) 4096
        (ins.map fun r => r.queue) with
    | none => none
    | some q => ins.find? fun r => r.queue == q

/-- A rival has gone by an output: the turns move on. -/
def State.turned (s : State) (slice output : Nat) (r : Rival) : State :=
  let key := slice * 128 + output
  let (c, n) := Sparse.get (0, 0) s.rtr.turn key
  s.setRtr { s.rtr with
    turn := Sparse.set (0, 0) s.rtr.turn key (r.cls, if r.cls = c ∧ n < s.clsWeight slice c then n + 1 else 1)
    input := Sparse.set 0 s.rtr.input (key * 8 + r.cls * 2 + r.esc.toNat) (r.queue + 1) }

/-- PACKET_FORWARD (R415 to R418, R421, R424): the packet at the head of a queue of a slice moves on if it can and its turn at its
output has come. -/
def execPacketForward (slice queue : Nat) (s : State) : Out :=
  match queueKind queue with
  | none => .next s
  | some k =>
    inRange slice 12 s fun s =>
      if !s.sliceUp slice then s
      else match s.queue slice queue with
        | [] => s
        | p :: _ => match s.onward slice queue k p with
          | .stays => s
          | .drops t => t
          | .leaves o t => if s.winner slice o = some (k.rival queue) then t.turned slice o (k.rival queue) else s

end Sys2Proof.Machine
end

