-- ==== Sys2Proof/Machine/Muster.lean ====
section
/-! DEFINITION. The muster protocol (R690 to R701): frames, suspicion, votes, quorum, declared deaths and fencing; the event
ring (R683); and the retirement of cores by a write or a failed self-test (R686, R687). -/

namespace Sys2Proof.Machine

/-! ### Entries and frames -/

def State.setMuster (s : State) (m : Muster) : State := { s with muster := m }

/-- An entry as the 64-bit DETAIL of its event record (Table 18.3). -/
def entryWord (e : MusterEntry) : Nat := e.subject + e.kind * 2 ^ 16 + e.ttl * 2 ^ 24 + e.reporter * 2 ^ 32

/-- A muster event (Table 18.4). -/
def State.musterEvent (s : State) (kind subject detail : Nat) : State := s.event 0x0D kind subject detail 0

/-- The SUSPECT entry of this device for a device. -/
def State.suspectEntry (s : State) (x : Nat) : MusterEntry := { subject := x, kind := 1, ttl := 2, reporter := s.device }

/-- A muster frame with at most seven entries leaves a port (R690, R691). -/
def State.sendFrame (s : State) (q : Nat) (es : List MusterEntry) : State :=
  let n := Sparse.get 0 s.muster.fseq q
  let f : MusterFrame := { jobTag := BitVec.ofNat 32 s.jobTag, fseq := BitVec.ofNat 16 n, state := s.musterState, resv := false,
                           entries := es }
  (s.setMuster { s.muster with fseq := Sparse.set 0 s.muster.fseq q ((n + 1) % 2 ^ 16) }).sendControl q .none (some f)

/-- Entries leave a port, those beyond seven in the following frames; one frame leaves where there is no entry (R691). -/
def State.sendFrames (s : State) (q : Nat) (es : List MusterEntry) : State :=
  (List.range (max 1 ((es.length + 6) / 7))).foldl (fun s i => s.sendFrame q ((es.drop (7 * i)).take 7)) s

/-- An entry leaves every UP port but one, in the next control codeword (R691, R694, R695, R697). -/
def State.spread (s : State) (e : MusterEntry) (but : Option Nat) : State :=
  (List.range 64).foldl (fun s q => if s.portUp q && but != some q then s.sendFrames q [e] else s) s

/-- MUSTER_PERIODIC_FRAME (R691, R694): the periodic frame of an UP port, with every suspicion of this device. -/
def execMusterPeriodicFrame (port : Nat) (s : State) : Out :=
  inRange port 64 s fun s => if s.portUp port then s.sendFrames port (s.muster.suspect.map s.suspectEntry) else s

/-! ### Death and fencing -/

/-- The device learns of a death for the first time (R493, R549, R697, R698): the event kind and the port of arrival. -/
def State.learnDead (s : State) (x kind : Nat) (e : MusterEntry) (but : Option Nat) : State :=
  if s.muster.dead.contains x then s
  else
    let s := s.setMuster { s.muster with dead := x :: s.muster.dead }
    let s := ((s.niDead x).kilnDead x).serveWaiting
    let s := (s.incFld .drvMusterStatus 0 0 59 46).setFld .drvMusterStatus 0 0 45 32 x
    (s.musterEvent kind x (entryWord e)).spread e but

/-- This device declares a death (R696). TTL of a DEAD entry is a free value (log entry 1). -/
def State.declareDead (s : State) (x : Nat) : State :=
  let e : MusterEntry := { subject := x, kind := 2, ttl := s.freeVal.toNat % 256, reporter := s.device }
  s.bump.learnDead x 3 e none

/-- The device is fenced (R700): FENCE and the event kind. A fenced device stays as it is. -/
def State.fence (s : State) (cause kind : Nat) (detail : Nat) : State :=
  if s.fenced then s else (s.setFld .drvMusterStatus 0 0 61 60 cause).musterEvent kind s.device detail

/-! ### Votes (R694 to R696) -/

/-- The distinct reporters that vote against a device; its own suspicion is this device's vote (R695). -/
def State.votesFor (s : State) (x : Nat) : Nat :=
  (((s.muster.votes.filter fun v => v.1 == x).map fun v => v.2)
    ++ (if s.muster.suspect.contains x then [s.device] else [])).dedup.length

/-- QUORUM of DRV_MUSTER_CFG as R696 takes it. -/
def State.quorum (s : State) : Nat := min 8 (max 1 (s.fld .drvMusterCfg 0 0 27 24))

/-- What the votes for a device bring about (R696). -/
def State.weigh (s : State) (x : Nat) : State :=
  if x = s.device ∨ s.votesFor x < s.quorum then
    s.setMuster { s.muster with quorate := s.muster.quorate.filter (· != x) }
  else if s.rbit .drvMusterCfg 0 0 31 then (if s.muster.dead.contains x then s else s.declareDead x)
  else if s.muster.quorate.contains x then s
  else (s.setMuster { s.muster with quorate := x :: s.muster.quorate }).musterEvent 2 x 0

/-- A device is silent on every port that learned it. -/
def Muster.silent (m : Muster) (x : Nat) : Bool :=
  (m.learned.any fun l => l.2.1 == x) && m.learned.all fun l => l.2.1 != x || l.2.2

/-- Suspicions begin and end as devices fall silent or are heard (R694). -/
def State.review (s : State) : State :=
  let now := ((s.muster.learned.map fun l => l.2.1).dedup).filter fun x => s.muster.silent x && x != s.device
  let gone := s.muster.suspect.filter fun x => !now.contains x
  let s := gone.foldl State.weigh (s.setMuster { s.muster with suspect := s.muster.suspect.filter fun x => now.contains x })
  now.foldl (fun s x =>
    if s.muster.suspect.contains x then s
    else
      let s := s.setMuster { s.muster with suspect := s.muster.suspect ++ [x] }
      let s := (s.incFld .drvMusterStatus 0 0 31 0).musterEvent 1 x (entryWord (s.suspectEntry x))
      (s.spread (s.suspectEntry x) none).weigh x) s

/-- MUSTER_SILENCE_EXPIRY (R693, R694): a port has carried no frame of its peer for the limit. -/
def execMusterSilenceExpiry (port : Nat) (s : State) : Out :=
  inRange port 64 s fun s =>
    if s.fold.isNone then s
    else State.review (s.setMuster { s.muster with
      learned := s.muster.learned.map fun l => if l.1 = port then (l.1, l.2.1, true) else l })

/-- VOTE_EXPIRY (R695): a vote is 1 ms old. -/
def execVoteExpiry (subject reporter : Nat) (s : State) : Out :=
  .next (State.weigh (s.setMuster { s.muster with votes := s.muster.votes.filter (· != (subject, reporter)) }) subject)

/-- A port learns the sender of a frame as its peer (R692, R693). -/
def State.learn (s : State) (q sender : Nat) : State :=
  let others := s.muster.learned.filter fun l => !(l.1 == q && l.2.1 == sender)
  State.review (s.setMuster { s.muster with
    learned := (others.map fun l => if l.1 = q then (l.1, l.2.1, true) else l) ++ [(q, sender, false)] })

/-- One entry of a valid frame (R695, R697, R700); `own` says that the frame carries this device's job tag, which R697 asks of
a DEAD entry and R695 does not ask of a SUSPECT entry. -/
def State.takeEntry (s : State) (q : Nat) (own : Bool) (e : MusterEntry) : State :=
  match e.kind with
  | 1 =>
    let s := if s.muster.votes.contains (e.subject, e.reporter) then s
      else s.setMuster { s.muster with votes := s.muster.votes ++ [(e.subject, e.reporter)] }
    let s := if 1 < e.ttl then s.spread { e with ttl := e.ttl - 1 } (some q) else s
    s.weigh e.subject
  | 2 =>
    if !own then s
    else if e.subject = s.device then s.fence 1 5 (entryWord e) else s.learnDead e.subject 4 e (some q)
  | _ => s

/-- A valid muster frame from the device `sender` arrives on a port (R690, R692). -/
def State.takeFrame (s : State) (q sender : Nat) (f : MusterFrame) : State :=
  if f.resv ∨ 7 < f.entries.length then s
  else
    let own := s.fold.isSome && f.jobTag.toNat == s.jobTag
    let s := if own && f.state == 1 then s.learn q sender else s
    f.entries.foldl (fun s e => s.takeEntry q own e) s

/-- DRV_DECLARE (R699). -/
def execDrvDeclare (v : Word32) (s : State) : Out :=
  let x := bits v.toNat 13 0
  .next (if x = s.device then s.fence 3 7 0 else s.declareDead x)

/-- STATE_ARRAY_ERROR (R700): an uncorrectable error in a state array of the router, NI or kiln. -/
def execStateArrayError (s : State) : Out := .next ((s.fence 2 6 0).declareDead s.device)

/-! ### Event ring and retirement -/

/-- EVENT_POP (R683): the oldest record leaves the ring. -/
def execEventPop (s : State) : Out := .next { s with evt := s.evt.drop 1 }

/-- DRV_RETIRE (R686, KIND 0x3). -/
def execDrvRetire (v : Word32) (s : State) : Out :=
  let f := bits v.toNat 25 16
  let n := bits v.toNat 6 0
  .next (if f < 672 ∧ n < 128 then s.retire f n 3 else s)

/-- SPARE_SELF_TEST (R687): the daily test of an unmapped physical core; a failure retires it (KIND 0x2). -/
def execSpareSelfTest (f phys : Nat) (passed : Bool) (s : State) : Out :=
  inRange f 672 s fun s =>
    if passed || ((s.flock f).logicalOf phys).isSome || 128 ≤ phys then s else s.retire f phys 2

end Sys2Proof.Machine
end

