-- ==== Sys2Proof/Machine/Optical.lean ====
section
/-! DEFINITION. Hearths and optical links (15_optical_edge.md): training, lane maps and swaps, calibration, pilot tones,
failures, control codewords and stiles. -/

namespace Sys2Proof.Machine

/-! ### Device reset and pads (R640, R757, R758) -/

/-- PWR_GOOD is high. -/
def State.powerGood (s : State) : Bool := s.pads.vin && s.pads.rails

/-- The level of the PWR_GOOD pad: the integrator's pull-up makes it read high without supply (R757, R768). -/
def State.pwrGoodPad (s : State) : Bool := !s.pads.vin || s.powerGood

/-- The device is in device reset. -/
def State.inReset (s : State) : Bool := !s.powerGood || !s.pads.resetN || s.rst.any fun r => r.scope == 7

/-! ### Port state -/

def State.portState (s : State) (q : Nat) : Nat := s.fld .hthPortStatus (q / 4) (q % 4) 62 60

/-- STATE, and READY with it (Table 15.11). -/
def State.setPortState (s : State) (q v : Nat) : State :=
  (s.setFld .hthPortStatus (q / 4) (q % 4) 62 60 v).setRbit .hthPortStatus (q / 4) (q % 4) 63 (v == 2)

/-- An event of a hearth (R631, Table 15.10). -/
def State.hthLog (s : State) (q : Nat) (rx : Bool) (wl kind : Nat) : State :=
  s.log .hthEvent (q / 4) 0 (q % 4 * 2 ^ 44 + rx.toNat * 2 ^ 43 + wl * 2 ^ 39 + kind * 2 ^ 35) (some (61, 46)) none 0x0A (q / 4)

def State.setLane (s : State) (q : Nat) (rx : Bool) (hi lo v : Nat) : State :=
  s.setFld (laneReg rx) (q / 4) (q % 4) hi lo v
def State.health (s : State) (q : Nat) (rx : Bool) (k : Nat) : Nat := s.lane q rx (40 + 2 * k + 1) (40 + 2 * k)
def State.setHealth (s : State) (q : Nat) (rx : Bool) (k v : Nat) : State := s.setLane q rx (40 + 2 * k + 1) (40 + 2 * k) v
def State.setSlot (s : State) (q : Nat) (rx : Bool) (j k : Nat) : State := s.setLane q rx (4 * j + 3) (4 * j) k
def State.spare (s : State) (q : Nat) (rx : Bool) : Nat := s.lane q rx 35 32
def State.setSpare (s : State) (q : Nat) (rx : Bool) (k : Nat) : State := s.setLane q rx 35 32 k
def State.setSpareFor (s : State) (q : Nat) (rx : Bool) (j : Nat) : State := s.setLane q rx 39 36 j

/-- The slot that a wavelength serves. -/
def State.slotOn (s : State) (q : Nat) (rx : Bool) (k : Nat) : Option Nat := lowest 8 fun j => s.slotWl q rx j == k

/-- The credit counts of a port go (R619). -/
def State.dropCredits (s : State) (q : Nat) : State :=
  s.setRtr { s.rtr with spent := Sparse.drop (fun k => k / 8 == q) s.rtr.spent, seen := Sparse.drop (fun k => k / 8 == q) s.rtr.seen }

/-- The credits that each end sends first: one for every free buffer of each input queue (R605). -/
def State.offerCredits (s : State) (q : Nat) : State :=
  let slice := portSlice q
  s.setRtr { s.rtr with freed := (List.range 4).foldl (fun m c =>
    Sparse.set 0 (Sparse.set 0 m (creditKey q false c) (6 - (s.queue slice (qPort q c)).length))
      (creditKey q true c) (4 - (s.queue slice (qPortEsc q c)).length)) s.rtr.freed }

/-- The packet that a port has received in part is discarded and counted (R619). -/
def State.dropPart (s : State) (q : Nat) : State :=
  if ((s.port q).rxBytes.take 64).all (·.1 == 0) then s else s.incFld .rtrDrop (portSlice q) 0 63 48

/-- A port leaves UP: its swaps and claims end and it has no credits (R619). Flits that have not left are lost with it, as packets
lost on the link are (log entry 71). -/
def State.portOff (s : State) (q v : Nat) : State :=
  (((s.dropPart q).setPortState q v).dropCredits q).modPort q fun p =>
    { Port.fresh with next := p.next, got := p.got, calTx := p.calTx, calRx := p.calRx }

/-- A retrain starts (R617, R619); RETRAINS counts it. -/
def State.startRetrain (s : State) (q : Nat) : State :=
  (s.portOff q 3).incFld .hthPortStatus (q / 4) (q % 4) 15 0

/-! ### Swaps (R611, R615, R616) -/

/-- This end asks for a swap in its receive direction: SWAP_REQ with a boundary at least 8 control codewords ahead, whose
distance is a free value (log entry 1). -/
def State.askSwap (s : State) (q slot wl : Nat) (urgent : Bool) : State :=
  let bound := ((s.port q).got + 8 + s.freeVal.toNat % 32760) % 2 ^ 16
  let s := s.bump.modPort q fun p =>
    { p with asked := p.asked ++ [{ slot := slot, wl := wl, bound := bound, acked := false, urgent := urgent }] }
  s.sendControl q (.swapReq true slot wl bound) none

/-- A direction has neither a good wavelength nor a free spare for a slot: KIND 0x3, and the port retrains (R617). -/
def State.dropLane (s : State) (q wl : Nat) : State :=
  ((s.hthLog q true wl 3).sendControl q .retrain none).startRetrain q

/-- A slot claims the spare of the receive direction (R615): level 3 for a failed wavelength, 2 for one in RETUNE. A lower
claim gives way; without a free spare the port loses the slot. -/
def State.claimSpare (s : State) (q slot level : Nat) : State :=
  let sp := s.spare q true
  if sp = 0xF then s.dropLane q (s.slotWl q true slot)
  else match (s.port q).away with
    | none =>
      if s.lane q true 39 36 = 0xF then (s.setSpareFor q true slot).askSwap q slot sp (level == 3)
      else
        -- the swap of a lower claim to the spare has not happened yet: it is abandoned
        let old := s.lane q true 39 36
        let own := s.slotWl q true old
        if s.health q true own < level then
          let s := if s.health q true own = 1 then (s.setHealth q true own 0).hthLog q true own 7 else s
          let s := s.modPort q fun p => { p with asked := p.asked.filter fun x => x.slot != old }
          (s.setSpareFor q true slot).askSwap q slot sp (level == 3)
        else s.dropLane q (s.slotWl q true slot)
    | some (i, own) =>
      let h := s.health q true own
      if level ≤ h then s.dropLane q (s.slotWl q true slot)
      else
        let s := s.modPort q fun p => { p with claims := p.claims ++ [slot] }
        if h = 1 then s.hthLog q true own 7 else s.askSwap q i own true

/-- The controller of hearth `h` is restarting (Table 19.12a). -/
def State.hearthBusy (s : State) (h : Nat) : Bool := s.fwStep == 3 && s.fwUnit == h

/-- A failure waits for the end of its hearth controller's restart. -/
def State.laterFail (s : State) (q k kind : Nat) : State :=
  { s with fw := { s.fw with fails := s.fw.fails ++ [{ port := q, wl := k, kind := kind }] } }

/-- A wavelength of the receive direction becomes FAILED (R614): logged with `kind`; its slot takes the spare. -/
def State.failWl (s : State) (q k kind : Nat) : State :=
  if s.portState q ≠ 2 ∨ s.health q true k = 3 then s
  else if s.hearthBusy (q / 4) then s.laterFail q k kind
  else
    let s := (s.setHealth q true k 3).hthLog q true k kind
    let wasSpare := s.spare q true == k
    let s := if wasSpare then (s.setSpare q true 0xF).setSpareFor q true 0xF else s
    let s := if wasSpare then s.modPort q fun p => { p with asked := p.asked.filter fun x => x.wl != k } else s
    match s.slotOn q true k, (s.port q).away with
    | none, _ => s
    | some j, some (i, own) => if i = j ∧ s.health q true own < 3 then s.askSwap q j own true else s.claimSpare q j 3
    | some j, none => s.claimSpare q j 3

/-- A wavelength that becomes GOOD: its slot returns to it, or it becomes the spare (R609, R612, R618). -/
def State.goodWl (s : State) (q : Nat) (rx : Bool) (k : Nat) : State :=
  let s := s.setHealth q rx k 0
  if !rx then s
  else match (s.port q).away with
    | some (j, own) => if own = k then s.askSwap q j k false else s
    | none => if s.spare q true = 0xF ∧ s.slotOn q true k = none then s.setSpare q true k else s

/-- A slot of the receive direction switches. -/
def State.switchRx (s : State) (q : Nat) (x : Swap) : State :=
  let old := s.slotWl q true x.slot
  let s := (s.modPort q fun p => { p with asked := p.asked.erase x }).setSlot q true x.slot x.wl
  if x.wl = s.spare q true then
    if s.health q true old = 3 then (s.setSpare q true 0xF).setSpareFor q true 0xF
    else s.modPort q fun p => { p with away := some (x.slot, old) }
  else
    let s := (s.setSpareFor q true 0xF).modPort q fun p => { p with away := none }
    if 2 ≤ s.health q true x.wl then s.dropLane q x.wl
    else match (s.port q).claims with
    | [] => s
    | j :: rest => (s.modPort q fun p => { p with claims := rest }).claimSpare q j (s.health q true (s.slotWl q true j))

/-- SWAP_SWITCH (R611, R616): the first codeword after the boundary. Without its SWAP_ACK a handshaken swap is asked for again;
in the transmit direction the granted swap takes place. -/
def execSwapSwitch (port : Nat) (rx : Bool) (s : State) : Out :=
  inRange port 64 s fun s =>
    if s.portState port ≠ 2 then s
    else if rx then
      match (s.port port).asked with
      | [] => s
      | x :: _ =>
        if x.acked || x.urgent then s.switchRx port x
        else (s.modPort port fun p => { p with asked := p.asked.erase x }).askSwap port x.slot x.wl false
    else match (s.port port).granted with
      | [] => s
      | x :: rest =>
        let old := s.slotWl port false x.slot
        let s := (s.modPort port fun p => { p with granted := rest }).setSlot port false x.slot x.wl
        if x.wl = s.spare port false ∧ s.health port false old = 3 then (s.setSpare port false 0xF).setSpareFor port false 0xF
        else s.setSpareFor port false (if x.wl = s.spare port false then x.slot else 0xF)

/-! ### Lane-management messages (Table 15.4) -/

/-- SWAP_REQ from the far end; Direction is the sender's, so a receive swap there is one of the transmit direction here
(log entry 11). -/
def State.takeSwapReq (s : State) (q : Nat) (rx : Bool) (slot wl bound : Nat) : State :=
  if s.portState q ≠ 2 ∨ !rx ∨ 8 ≤ slot ∨ 9 ≤ wl then s
  else
    let x : Swap := { slot := slot, wl := wl, bound := bound, acked := true, urgent := false }
    (s.modPort q fun p => { p with granted := p.granted.filter (fun y => y.slot != slot) ++ [x] }).sendControl q
      (.swapAck true slot wl bound) none

/-- SWAP_ACK from the far end. -/
def State.takeSwapAck (s : State) (q : Nat) (rx : Bool) (slot wl bound : Nat) : State :=
  if s.portState q ≠ 2 ∨ !rx then s
  else s.modPort q fun p => { p with asked := p.asked.map fun x =>
    if x.slot = slot ∧ x.wl = wl ∧ x.bound = bound then { x with acked := true } else x }

/-- LASER_OUT from the far end: the wavelength fails in the receive direction (R595, R614). -/
def State.takeLaserOut (s : State) (q wl : Nat) : State := if wl < 9 then s.failWl q wl 1 else s

/-- RETRAIN from the far end. -/
def State.takeRetrain (s : State) (q : Nat) : State := if s.portState q = 2 then s.startRetrain q else s

def State.takeLane (s : State) (q : Nat) (m : LaneMsg) : State :=
  match m with
  | .none => s
  | .swapReq rx slot wl b => s.takeSwapReq q rx slot wl b
  | .swapAck rx slot wl b => s.takeSwapAck q rx slot wl b
  | .laserOut wl => s.takeLaserOut q wl
  | .retrain => s.takeRetrain q

/-- SWAP_REQ. -/
def execSwapReq (port : Nat) (rx : Bool) (slot wavelength boundary : Nat) (s : State) : Out :=
  inRange port 64 s fun s => s.takeSwapReq port rx slot wavelength boundary

/-- SWAP_ACK. -/
def execSwapAck (port : Nat) (rx : Bool) (slot wavelength boundary : Nat) (s : State) : Out :=
  inRange port 64 s fun s => s.takeSwapAck port rx slot wavelength boundary

/-- LASER_OUT. -/
def execLaserOut (port wavelength : Nat) (s : State) : Out := inRange port 64 s fun s => s.takeLaserOut port wavelength

/-- RETRAIN. -/
def execRetrain (port : Nat) (s : State) : Out := inRange port 64 s fun s => s.takeRetrain port

/-! ### Control codewords received (R600, R603, R604, R608, R690) -/

/-- The far end's identity is compared with the recorded one (R608). -/
def State.comparePeer (s : State) (q device farPort : Nat) : State :=
  if s.fld .hthPortStatus (q / 4) (q % 4) 43 30 = device % 2 ^ 14 ∧ s.fld .hthPortStatus (q / 4) (q % 4) 51 46 = farPort % 64 then s
  else ((s.setFld .hthPortStatus (q / 4) (q % 4) 43 30 device).setFld .hthPortStatus (q / 4) (q % 4) 51 46 farPort).hthLog q true
    0xF 6

/-- The credits of a control codeword (R604): each running total is known modulo 16. -/
def State.takeCredits (s : State) (q : Nat) (cs : List Nat) : State :=
  s.setRtr { s.rtr with seen := (cs.zipIdx).foldl (fun m x =>
    Sparse.upd 0 m (q * 8 + x.2) fun old => old + (x.1 % 16 + 16 - old % 16) % 16) s.rtr.seen }

/-- A control codeword whose CRC holds arrives on an UP port (R600, R604, R608, R690). -/
def State.takeControl (s : State) (q : Nat) (w : ControlWord) : State :=
  let s := s.modPort q fun p => { p with got := w.cseq % 2 ^ 16 }
  let s := ((s.takeCredits q w.credits).comparePeer q w.selfDevice w.selfPort).takeLane q w.lane
  match w.muster with
  | some f => s.takeFrame q w.selfDevice f
  | none => s

/-- The place of the codeword that a port has received, and the next one's. -/
def State.rxStep (s : State) (q pos : Nat) : State := s.modPort q fun p => { p with rxPos := (pos + 1) % 20 }

/-- CONTROL_CODEWORD (R600, R603): the control codeword of the receive direction, as it is once decoded. -/
def execControlCodeword (port : Nat) (w : ControlWord) (s : State) : Out :=
  if w.credits.length ≠ 8 then .next s
  else inRange port 64 s fun s =>
    if s.portState port ≠ 2 then s
    else if w.crc.toNat ≠ crc32c (controlBody w) then s.rxStep port 0
    else (s.rxStep port 0).takeControl port w

/-! ### Training (R605 to R608) -/

/-- A port may train: its hearth is ready, its stile open, and it is not disabled. -/
def State.mayTrain (s : State) (q : Nat) : Bool :=
  s.rbit .hthStatus (q / 4) 0 63 && s.rbit .hthStatus (q / 4) 0 (52 + q % 4 / 2) && !s.rbit .hthPortCtrl (q / 4) (q % 4) 1

/-- A port begins training. -/
def State.beginTraining (s : State) (q : Nat) : State := if s.mayTrain q then s.setPortState q 1 else s

/-- The lane map of a direction after training (R605 step 2): slots take the good wavelengths in ascending order; of nine the
highest is the spare. -/
def State.mapLanes (s : State) (q : Nat) (rx : Bool) (good : Nat) : State :=
  let ks := (List.range 9).filter (bit good)
  let spare := if ks.length = 9 then 8 else 0xF
  let s := (s.setSpare q rx spare).setSpareFor q rx 0xF
  let s := (List.range 9).foldl (fun s k => s.setHealth q rx k (if bit good k then 0 else 3)) s
  (List.range 8).foldl (fun s j => s.setSlot q rx j ((ks[j]?).getD 0xF)) s

/-- MIN_LANES as R607 takes it. -/
def State.minLanes (s : State) (q : Nat) : Nat := min 8 (max 1 (s.fld .hthCfg (q / 4) 0 23 20))

/-- PORT_TRAIN (R605 to R607): a training run ends with the wavelengths that locked in each direction and whether the far end
completed the exchange. -/
def execPortTrain (port : Nat) (goodTx goodRx : BitVec 9) (answered : Bool) (s : State) : Out :=
  inRange port 64 s fun s =>
    let h := port / 4
    if (s.portState port ≠ 1 ∧ s.portState port ≠ 3) ∨ !s.mayTrain port then s
    else if !answered then s.setPortState port 1
    else
      let tx := goodTx.toNat &&& s.fld .hthStatus h 0 62 54
      let rx := goodRx.toNat
      let n (m : Nat) : Nat := ((List.range 9).filter (bit m)).length
      let few := s.minLanes port
      if n tx < few ∨ n rx < few then
        let s := if n tx < few then s.hthLog port false 0xF 4 else s
        let s := if n rx < few then s.hthLog port true 0xF 4 else s
        s.portOff port 0
      else
        let s := ((s.portOff port 2).mapLanes port false tx).mapLanes port true rx
        let s := (s.setFld .hthPortStatus h (port % 4) 59 56 (min 8 (n tx))).setFld .hthPortStatus h (port % 4) 55 52
          (min 8 (n rx))
        (s.offerCredits port).sendControl port .none none

/-- TRAINING_FRAME (R605 step 3, R608). -/
def execTrainingFrame (port device farPort : Nat) (s : State) : Out :=
  inRange port 64 s fun s =>
    if s.portState port = 1 ∨ s.portState port = 3 then s.comparePeer port device farPort else s

/-- TRAINING_RETRY_EXPIRY (R606, R607). -/
def execTrainingRetryExpiry (port : Nat) (s : State) : Out :=
  inRange port 64 s fun s => if s.portState port ≤ 1 then s.beginTraining port else s

/-- PORT_RETRAIN_WRITE (R632). -/
def execPortRetrainWrite (port : Nat) (s : State) : Out :=
  inRange port 64 s fun s =>
    if s.portState port = 2 then (s.sendControl port .retrain none).startRetrain port
    else if s.portState port = 0 ∧ s.mayTrain port then s.startRetrain port
    else s

/-- PORT_DISABLE (Table 15.12, R619). -/
def execPortDisable (port : Nat) (s : State) : Out :=
  inRange port 64 s fun s => (s.setRbit .hthPortCtrl (port / 4) (port % 4) 1 true).portOff port 4

/-- PORT_ENABLE: DISABLE written to 0. -/
def execPortEnable (port : Nat) (s : State) : Out :=
  inRange port 64 s fun s =>
    let s := s.setRbit .hthPortCtrl (port / 4) (port % 4) 1 false
    if s.portState port = 4 then (s.setPortState port 0).beginTraining port else s

/-! ### Calibration, tones and failures (R609 to R618) -/

/-- LEVEL1_CALIBRATION (R609): the next wavelength in rotation is taken out of service. -/
def execLevel1Calibration (port : Nat) (rx : Bool) (s : State) : Out :=
  inRange port 64 s fun s =>
    if s.portState port ≠ 2 ∨ s.fld .hthCfg (port / 4) 0 31 24 = 0 ∨ s.hearthBusy (port / 4) then s
    else
      let k := if rx then (s.port port).calRx else (s.port port).calTx
      let step (s : State) : State := s.modPort port fun p =>
        if rx then { p with calRx := (k + 1) % 9 } else { p with calTx := (k + 1) % 9 }
      if s.health port rx k ≠ 0 then step s
      else match s.slotOn port rx k with
        | none => step (s.setHealth port rx k 1)
        | some j =>
          if !rx then step s
          else if s.spare port true = 0xF ∨ s.lane port true 39 36 ≠ 0xF ∨ s.health port true (s.spare port true) ≠ 0 ∨
              (s.port port).asked ≠ [] then s
          else step (((s.setHealth port true k 1).setSpareFor port true j).askSwap port j (s.spare port true) false)

/-- RING_SWEEP_COMPLETE (R609, R612, R613, R618): a re-swept ring was confirmed by its tone, or not. -/
def execRingSweepComplete (port : Nat) (rx : Bool) (k : Nat) (confirmed : Bool) (s : State) : Out :=
  if 9 ≤ k then .next s
  else inRange port 64 s fun s =>
    let h := s.health port rx k
    if (h ≠ 1 ∧ h ≠ 2) ∨ s.hearthBusy (port / 4) then s
    else if confirmed then
      (s.modPort port fun p => { p with sweeps := Sparse.set 0 p.sweeps k 0, wrong := Sparse.set 0 p.wrong k 0 }).goodWl port rx k
    else
      let n := Sparse.get 0 (s.port port).sweeps k + 1
      let s := s.modPort port fun p => { p with sweeps := Sparse.set 0 p.sweeps k n }
      if 3 ≤ n then (if rx then s.failWl port k 8 else (s.setHealth port false k 3).hthLog port false k 8)
      else if h = 1 then (s.setHealth port rx k 2).hthLog port rx k 2
      else s

/-- PILOT_TONE_CHECK (R610, R612, R614): the tone found on a drop ring, if any. -/
def execPilotToneCheck (port k : Nat) (tone : Option Nat) (s : State) : Out :=
  if 9 ≤ k then .next s
  else inRange port 64 s fun s =>
    if s.portState port ≠ 2 ∨ s.health port true k = 3 ∨ s.health port true k = 1 then s
    else match tone with
      | none => s.failWl port k 1
      | some t =>
        if t = k then s.modPort port fun p => { p with wrong := Sparse.set 0 p.wrong k 0 }
        else if s.hearthBusy (port / 4) then s
        else
          let n := Sparse.get 0 (s.port port).wrong k + 1
          let s := s.modPort port fun p => { p with wrong := Sparse.set 0 p.wrong k n }
          if n < 2 ∨ s.health port true k = 2 then s
          else
            let s := (s.setHealth port true k 2).hthLog port true k 2
            match s.slotOn port true k with
            | some j => s.claimSpare port j 2
            | none => s

/-- SER_WINDOW_EXPIRY (R614): 1 ms of corrected symbols. -/
def execSerWindowExpiry (port : Nat) (s : State) : Out :=
  inRange port 64 s fun s =>
    let limit := max 1 (s.fld .hthCfg (port / 4) 0 15 0)
    let bad := (List.range 9).filter fun k => decide (limit < Sparse.get 0 (s.port port).corr k)
    let s := s.modPort port fun p => { p with corr := [] }
    bad.foldl (fun s k => s.failWl port k 1) s

/-- A laser of a hearth fails (R595, R631): its wavelength is out in the transmit direction of the four ports. -/
def State.laserFail (s : State) (hearth k : Nat) : State :=
  if !s.rbit .hthStatus hearth 0 (54 + k) then s
  else if s.hearthBusy hearth then s.laterFail (4 * hearth) k 5
  else
    let s := (s.setRbit .hthStatus hearth 0 (54 + k) false).hthLog (4 * hearth) false k 5
    (List.range 4).foldl (fun s j =>
      let q := 4 * hearth + j
      let s := s.setHealth q false k 3
      let s := if s.spare q false = k then (s.setSpare q false 0xF).setSpareFor q false 0xF else s
      if s.portState q = 2 then s.sendControl q (.laserOut k) none else s) s

/-- LASER_FAILURE (R595, R631). -/
def execLaserFailure (hearth k : Nat) (s : State) : Out :=
  if 9 ≤ k then .next s
  else inRange hearth 16 s fun s => s.laserFail hearth k

/-- The failures that waited for a hearth controller are acted on (Table 19.12a). -/
def State.runFails (s : State) : State :=
  s.fw.fails.foldl (fun s x => if x.kind = 5 then s.laserFail (x.port / 4) x.wl else s.failWl x.port x.wl x.kind)
    { s with fw := { s.fw with fails := [] } }

/-- RING_SETPOINT_RETURN (R615): the ring of an abandoned calibration is back at its setpoint, and its slot moves back. -/
def execRingSetpointReturn (port : Nat) (rx : Bool) (s : State) : Out :=
  inRange port 64 s fun s =>
    if !rx ∨ s.portState port ≠ 2 then s
    else match (s.port port).away with
      | some (j, own) =>
        if s.health port true own = 1 ∧ (s.port port).claims ≠ [] then (s.setHealth port true own 0).askSwap port j own false
        else s
      | none => s

/-! ### Lasers and stiles (R595, R624, R625) -/

/-- HEARTH_LASERS_STABLE (Table 15.8): every laser has stabilised or is marked out; the hearth's ports train. -/
def execHearthLasersStable (h : Nat) (ok : BitVec 9) (s : State) : Out :=
  inRange h 16 s fun s =>
    if s.inReset || s.rbit .hthStatus h 0 63 then s
    else
      let s := (s.setFld .hthStatus h 0 62 54 ok.toNat).setRbit .hthStatus h 0 63 true
      (List.range 4).foldl (fun s j => if s.portState (4 * h + j) = 0 then s.beginTraining (4 * h + j) else s) s

/-- STILE_CHANGE_COMPLETE (R624, R625): a stile is fully open once the device is out of reset, else closed. -/
def execStileChangeComplete (hearth pair : Nat) (s : State) : Out :=
  if 2 ≤ pair then .next s
  else inRange hearth 16 s fun s =>
    let s := s.setRbit .hthStatus hearth 0 (52 + pair) (!s.inReset)
    (List.range 2).foldl (fun s j =>
      let q := 4 * hearth + 2 * pair + j
      if s.portState q = 0 then s.beginTraining q else s) s

end Sys2Proof.Machine
end

