-- ==== Sys2Proof/Machine/Thermal.lean ====
section
/-! DEFINITION. The thermal model and the slew governor (R620 to R623, R662 to R680): measurements, sensors, the model update,
throttle fractions, decisions for the stacks, power states and the trip. Temperatures are in 1/16 °C. -/

namespace Sys2Proof.Machine

def State.setTherm (s : State) (t : Therm) : State := { s with therm := t }

/-- A signed 16-bit field (R679). -/
def field16 (x : Int) : Nat := (BitVec.ofInt 16 x).toNat

/-- The 16-bit value of a field of that kind. -/
def signed16 (x : Nat) : Int := (BitVec.ofNat 16 x).toInt

/-! ### THM_EVENT (R680) -/

/-- An event of the thermal model: KIND, SITE, and the acting temperature and rate of the site. -/
def State.thmLog (s : State) (kind site temp rate : Nat) : State :=
  s.log .thmEvent 0 0 (kind * 2 ^ 42 + site * 2 ^ 38 + temp * 2 ^ 16 + rate) (some (61, 46)) none 0x0B 0

/-- An event of site `i`, pastures 0 to 11 and stacks 12 to 23, with the temperature and rate of its register. -/
def State.siteLog (s : State) (kind i : Nat) : State :=
  if i < 12 then s.thmLog kind i (s.fld .thmPas 0 i 63 48) (s.fld .thmPas 0 i 47 32)
  else s.thmLog kind (i - 12) (s.fld .thmStk 0 (i - 12) 63 48) (s.fld .thmStk 0 (i - 12) 47 32)

/-- An event of the package, which has no temperature of its own: TEMP and RATE are free values (log entry 1). -/
def State.packageLog (s : State) (kind : Nat) : State :=
  s.bump.thmLog kind 0xF (bits s.freeVal.toNat 31 16) (bits s.freeVal.toNat 15 0)

/-! ### The throttle law (R670) -/

/-- The excess `e` over a span `d` in steps of 1/256, rounded up, from 0 to 256. -/
def ramp (e d : Int) : Nat :=
  if e ≤ 0 then 0 else if d ≤ e then 256 else ((e * 256 + d - 1) / d).toNat

/-- RATE as Table 17.7 takes it, in °C per ms. -/
def rateLimit (v : Nat) : Nat := min 16 (max 2 v)

/-- CAP as Table 17.7 takes it, in W. -/
def capLimit (v : Nat) : Nat := min 1400 (max 400 v)

/-- The five terms of R670 in its order: pasture level, pasture rate, stack level, stack rate, cap. -/
def throttleTerms (tp rp ts rs : Int) (rate fcap : Nat) : List Nat :=
  let rl : Int := rate * 16
  [ramp (tp - 1600) 160, ramp (rp - rl) rl, ramp (ts - 1440) 80, ramp (rs - rl) rl, fcap]

/-- The fraction of R670 and CAUSE of Table 17.11: the largest term with the first of its causes; HOLD and a trip force the
whole fraction. -/
def throttle (terms : List Nat) (forced : Bool) : Nat × Nat :=
  if forced then (256, 6)
  else (terms.zipIdx).foldl (fun best x => if best.1 < x.1 then (x.1, x.2 + 1) else best) (0, 0)

/-! ### The trip (R676, R677) -/

/-- The bits of the stacks' decisions that a trip sets. -/
def State.tripStack (s : State) (i : Nat) : State :=
  ((s.setRbit .thmStk 0 i 15 true).setRbit .thmStk 0 i 13 true).setRbit .stkStatus i 0 61 true

/-- The device trips at site `i` (24 for a place that is no pasture or stack). -/
def State.trip (s : State) (i : Nat) : State :=
  if s.tripped then s
  else
    let s := if i < 24 then s.siteLog 9 i else s.packageLog 9
    let s := (s.setFld .thmStatus 0 0 63 61 0b110).setFld .thmStatus 0 0 59 48 0xFFF
    (List.range 12).foldl State.tripStack s

/-- SENSOR_TRIP (R676): the comparator of a sensor acts. -/
def execSensorTrip (site : Nat) (s : State) : Out :=
  inRange site 24 s fun s =>
    (s.setTherm { s.therm with hot := s.therm.hot ||| 2 ^ site }).trip site

/-- THERMTRIP_N (R766): low while tripped. -/
def State.thermtripN (s : State) : Bool := !s.tripped

/-- The first site whose sensor finds 125 °C or more (R766). -/
def State.hotSite (s : State) : Option Nat :=
  lowest 24 fun i => bit s.therm.hot i || decide (2000 ≤ (s.therm.sensors[i]?).getD 0)

/-! ### Measurements (R662, R663, R666) -/

/-- Compute power of the pastures: 56 flock rails and the shared rail of each. -/
def computePower (rails : List Nat) : List Nat :=
  (List.range 12).map fun p => ((rails.drop (56 * p)).take 56).sum + (rails[672 + p]?).getD 0

/-- The compute power of pasture `p` over the last 1 ms in units of 0.1 W. -/
def Therm.meanPower (t : Therm) (p : Nat) : Nat :=
  (t.power.map fun v => (v[p]?).getD 0).sum / max 1 t.power.length / 100

/-- POWER_MEASUREMENT (R662): 672 flock rails, 12 shared rails, 12 stack rails and 16 hearth rails, in mW. -/
def execPowerMeasurement (rails : List Nat) (s : State) : Out :=
  if rails.length ≠ 712 then .next s
  else .next (s.setTherm { s.therm with
    power := (computePower rails :: s.therm.power).take 1000, newPower := min 1000 (s.therm.newPower + 1) })

/-- PACKAGE_POWER_MEASUREMENT (R663, Table 17.9), in 0.1 W. -/
def execPackagePowerMeasurement (watts10 : Nat) (s : State) : Out :=
  let w := min watts10 0xFFFF
  let s := s.setTherm { s.therm with pkg := (w :: s.therm.pkg).take 100, newPkg := min 100 (s.therm.newPkg + 1) }
  let s := (s.setFld .thmPower 0 0 15 0 w).setFld .thmPower 0 0 31 16 (s.therm.pkg.sum / s.therm.pkg.length)
  .next (s.setFld .thmPower 0 0 63 48 (max w (s.fld .thmPower 0 0 63 48)))

/-- SENSOR_READING (R666): the model reads every sensor, for its next update. -/
def execSensorReading (readings : List Int) (s : State) : Out :=
  if readings.length ≠ 24 then .next s
  else .next (s.setTherm { s.therm with sensors := readings, unread := true,
                                        hot := mask 24 fun i => decide (2000 ≤ (readings[i]?).getD 0) })

/-! ### One update (R664 to R672) -/

/-- The node of sensor `i`: each pasture with its stack is 18 nodes, the pasture die first, then the base die and the 16 DRAM
dies, the top one last. -/
def sensorNode (i : Nat) : Nat := if i < 12 then 18 * i else 18 * (i - 12) + 17

/-- Calibration (R666): how far the offset of a layer moves towards the difference between sensor and model. -/
def newOffset (off diff : Int) : Int := off + max (-4) (min 4 (diff - off))

/-- The layers that readings taken since the last update put more than 5 °C from the model. -/
def Therm.drifts (t : Therm) (nodes : List Int) : List Nat :=
  if t.unread then (List.range 24).filter fun i =>
    decide (80 < ((t.sensors[i]?).getD 0 - (nodes[sensorNode i]?).getD 0).natAbs)
  else []

/-- The offsets after the readings taken since the last update. -/
def Therm.calibrate (t : Therm) (nodes : List Int) : Therm :=
  if t.unread then
    { t with unread := false, offs := (List.range 24).foldl (fun m i =>
        Sparse.upd 0 m i fun o => newOffset o ((t.sensors[i]?).getD 0 - (nodes[sensorNode i]?).getD 0)) t.offs }
  else t

/-- The acting temperature of a layer with a sensor (R665). -/
def Therm.layer (t : Therm) (nodes : List Int) (i : Nat) : Int :=
  let m := (nodes[sensorNode i]?).getD 0 + Sparse.get 0 t.offs i
  match t.sensors[i]? with
  | some x => max m x
  | none => m

/-- Tp of a pasture, or Ts of a stack (R665). -/
def Therm.acting (t : Therm) (nodes : List Int) (i : Nat) : Int :=
  if i < 12 then t.layer nodes i
  else (((nodes.drop (18 * (i - 12) + 2)).take 15).foldl max (t.layer nodes i))

/-- The rate of site `i` (R668). -/
def Therm.rate (t : Therm) (now : List Int) (i : Nat) : Int :=
  let old := ((t.hist[9]?).or t.hist.getLast?).getD now
  10 * ((now[i]?).getD 0 - (old[i]?).getD 0)

/-- The cap term (R672). Powers over the last 1 ms, or since THERMAL became 1. -/
def Therm.capTerm (t : Therm) (cap : Nat) : Nat :=
  let pkg := t.pkg.take t.newPkg
  let pow := t.power.take t.newPower
  let above : Int := pkg.sum - 10 * cap * pkg.length               -- 0.1 W times the measurements
  let pc : Int := (pow.map List.sum).sum                            -- mW times the measurements
  let d : Int :=
    if pc = 0 then (if 0 < above then 256 else -256)
    else -((-(1600 * above * pow.length)) / (pc * max 1 pkg.length))
  (max 0 (min 256 ((t.fcap : Int) + d))).toNat

/-- The write gate decision of Table 17.2 for a stack at `ts`. -/
def gateDecision (closed : Bool) (ts : Int) : Bool :=
  if 1520 < ts ∨ ts < 64 then true else if 96 ≤ ts ∧ ts ≤ 1488 then false else closed

/-- The refresh decision of Table 17.2. -/
def refreshDecision (twice : Bool) (ts : Int) : Bool := if 1360 < ts then true else if ts ≤ 1328 then false else twice

/-- The place where an update trips the device, if any: a pasture or stack, or 24 for another node. -/
def tripSite (now nodes : List Int) : Option Nat :=
  match lowest 24 fun i => decide (2000 ≤ (now[i]?).getD 0) with
  | some i => some i
  | none => if nodes.any fun (x : Int) => decide (2000 ≤ x) then some 24 else none

/-- THM_STK of a stack is published (step 7). -/
def State.publishStack (s : State) (nodes now : List Int) (t : Therm) (i : Nat) : State :=
  let ts := (now[12 + i]?).getD 0
  let gate := s.tripped || gateDecision (s.rbit .thmStk 0 i 15) ts
  let ref := refreshDecision (s.rbit .thmStk 0 i 14) ts
  let held := s.tripped || decide (1520 ≤ ts)
  let s := s.setRbit .thmStatus 0 0 (48 + i) gate
  s.setReg .thmStk 0 i (field16 ts * 2 ^ 48 + field16 (t.rate now (12 + i)) * 2 ^ 32 +
    field16 ((nodes[18 * i + 1]?).getD 0) * 2 ^ 16 + gate.toNat * 2 ^ 15 + ref.toNat * 2 ^ 14 + held.toNat * 2 ^ 13)

/-- THM_PAS of a pasture is published (step 7). -/
def State.publishPasture (s : State) (now : List Int) (t : Therm) (p : Nat) : State :=
  let tp := (now[p]?).getD 0
  let ts := (now[12 + p]?).getD 0
  let forced := s.tripped || s.fld .thmStatus 0 0 62 61 == 1
  let (f, cause) := throttle (throttleTerms tp (t.rate now p) ts (t.rate now (12 + p)) (rateLimit (s.fld .thmCfg 0 0 28 24)) t.fcap)
    forced
  let s := s.setRbit .thmStatus 0 0 (36 + p) (f != 0)
  s.setReg .thmPas 0 p (field16 tp * 2 ^ 48 + field16 (t.rate now p) * 2 ^ 32 + f * 2 ^ 23 + cause * 2 ^ 20 +
    min 0xFFFF (t.meanPower p))

/-- The sites (24 of them) whose level or rate term is not zero. -/
def activeTerms (now : List Int) (t : Therm) (rate : Nat) : Nat :=
  mask 24 fun i =>
    let rl : Int := rate * 16
    let x := (now[i]?).getD 0
    let level := if i < 12 then ramp (x - 1600) 160 else ramp (x - 1440) 80
    level != 0 || ramp (t.rate now i - rl) rl != 0

/-- Events of one update in ascending KIND, then SITE (R680): the sites for each KIND. -/
def State.siteEvents (s : State) (kind : Nat) (sites : List Nat) : State := sites.foldl (fun s i => s.siteLog kind i) s

/-- The power state that an update enters (Table 17.4). -/
def State.powerState (s : State) : State :=
  if s.tripped then s else s.setFld .thmStatus 0 0 62 61 (s.fld .thmCfg 0 0 31 31)

/-- One update of the model. -/
def State.modelUpdate (s : State) (nodes : List Int) : State :=
  let first := !s.rbit .drvReady 0 0 60
  let t0 := s.therm
  let drift := t0.drifts nodes
  let t1 := t0.calibrate nodes
  let t1 := if first then { t1 with newPower := 0, newPkg := 0 } else t1
  let now := (List.range 24).map (t1.acting nodes)
  let rate := rateLimit (s.fld .thmCfg 0 0 28 24)
  let t2 := { t1 with fcap := t1.capTerm (capLimit (s.fld .thmCfg 0 0 10 0)), terms := activeTerms now t1 rate, dogs := [] }
  -- the trip and the power state
  let trips := tripSite now nodes
  let wasTripped := s.tripped
  let s1 := match trips with
    | some _ => if wasTripped then s else (s.setFld .thmStatus 0 0 63 61 0b110)
    | none => s.powerState
  -- publication
  let s2 := (List.range 12).foldl (fun s i => s.publishStack nodes now t2 i) s1
  let s3 := (List.range 12).foldl (fun s p => s.publishPasture now t2 p) s2
  let s4 := (s3.setRbit .thmStatus 0 0 60 (t2.fcap != 0)).setFld .thmStatus 0 0 35 24
    (s.fld .thmStatus 0 0 35 24 ||| mask 12 fun p => drift.contains p)
  let s5 := s4.setFld .thmStatus 0 0 23 12 (s.fld .thmStatus 0 0 23 12 ||| mask 12 fun i => drift.contains (12 + i))
  let s6 := (s5.setTherm { t2 with hist := (now :: t2.hist).take 10 }).setRbit .drvReady 0 0 60 true
  let s7 := if s6.tripped then (List.range 12).foldl State.tripStack s6 else s6
  -- events
  let sites := List.range 24
  let fresh := sites.filter fun i => bit t2.terms i && !bit t0.terms i
  let hard := (List.range 12).filter fun p => decide (1760 ≤ (now[p]?).getD 0) && decide (signed16 (s.fld .thmPas 0 p 63 48) < 1760)
  let gate (c : Bool) := (List.range 12).filter fun i => s7.rbit .thmStk 0 i 15 == c && s.rbit .thmStk 0 i 15 == !c
  let e := s7.siteEvents 1 (fresh.filter (· < 12))
  let e := e.siteEvents 2 (fresh.filter (12 ≤ ·))
  let e := e.siteEvents 3 hard
  let e := e.siteEvents 4 ((gate true).map (12 + ·))
  let e := e.siteEvents 5 ((gate false).map (12 + ·))
  let e := if t0.fcap = 0 ∧ t2.fcap ≠ 0 then e.packageLog 6 else e
  let e := e.siteEvents 7 drift
  let e := e.siteEvents 8 t0.dogs
  if wasTripped then e
  else match trips with
    | some i => if i < 24 then e.siteLog 9 i else e.packageLog 9
    | none => e

/-- THERMAL_MODEL_UPDATE (R664): `nodes` are the modelled temperatures of the 216 dies of the pastures and stacks, the 16 hearths
and the drover after step 2. The model runs once the drover runs. -/
def execThermalModelUpdate (nodes : List Int) (s : State) : Out :=
  if nodes.length ≠ 233 then .next s
  else if !s.rbit .drvReady 0 0 62 || s.fwStep = 1 || s.inReset then .next s
  else .next (s.modelUpdate nodes)

/-! ### What the pastures and stacks do with it (R620 to R623, R671, R674, R675) -/

/-- FRACTION_APPLY (R671): a pasture applies the fraction that the model sent last. -/
def execFractionApply (p : Nat) (s : State) : Out :=
  inRange p 12 s fun s =>
    if !s.rbit .drvReady 0 0 60 then s
    else s.setTherm { s.therm with frac := Sparse.set 0 s.therm.frac p (s.fld .thmPas 0 p 31 23) }

/-- FRACTION_WATCHDOG (R674): a pasture that receives no fraction withholds all issue. -/
def execFractionWatchdog (p : Nat) (s : State) : Out :=
  inRange p 12 s fun s =>
    s.setTherm { s.therm with frac := Sparse.set 0 s.therm.frac p 256,
                              dogs := (List.range 24).filter fun i => i = p ∨ i ∈ s.therm.dogs }

/-- GATE_DECISION_WATCHDOG (R674): a stack interface that receives no decision closes its write gate. -/
def execGateDecisionWatchdog (i : Nat) (s : State) : Out :=
  inRange i 12 s fun s =>
    let s := s.setTherm { s.therm with dogs := (List.range 24).filter fun j => j = 12 + i ∨ j ∈ s.therm.dogs }
    ((s.setRbit .stkStatus i 0 61 true).setRbit .thmStk 0 i 15 true).setRbit .thmStatus 0 0 (48 + i) true

/-- A write of THM_CFG (Table 17.7); HOLD keeps its value while the device is tripped (R677). -/
def State.writeThmCfg (s : State) (v : Nat) : State :=
  let hold := s.fld .thmCfg 0 0 31 31
  let s1 := s.setReg .thmCfg 0 0 (Reg.thmCfg.written (s.reg .thmCfg 0 0) v)
  if s.tripped then s1.setFld .thmCfg 0 0 31 31 hold else s1

/-- HOLD_WRITE (R675, R677): a write of THM_CFG. -/
def execHoldWrite (v : Word32) (s : State) : Out := .next (s.writeThmCfg v.toNat)

/-- LIMIT of THM_SLEW in mW (Table 17.8). -/
def State.slewLimit (s : State) : Nat := max 1 (s.fld .thmSlew 0 0 7 0) * 1000

/-- SLEW_GOVERNOR_TICK (R620, R623): the fraction that the governor of a hearth-adjacent pasture withholds. -/
def execSlewGovernorTick (p : Nat) (s : State) : Out :=
  inRange p 12 s fun s =>
    if p = 5 ∨ p = 6 then s
    else
      let ps := (s.therm.power.take 101).map fun v => (v[p]?).getD 0
      match ps with
      | [] => s
      | x :: rest =>
        let bound := rest.foldl min x + s.slewLimit
        let f : Nat × Nat := if bound < x then (x - bound, x) else (0, 1)
        s.setTherm { s.therm with slew := Sparse.set (0, 1) s.therm.slew p f }

/-- The fraction of its cycles that a pasture withholds, as numerator and denominator: the larger of the throttle's and the
governor's (R622). -/
def State.withheldFraction (s : State) (p : Nat) : Nat × Nat :=
  let f := if s.tripped then 256 else Sparse.get 0 s.therm.frac p
  let g := Sparse.get (0, 1) s.therm.slew p
  if g.1 * 256 ≤ f * g.2 then (f, 256) else g

end Sys2Proof.Machine
end

