-- ==== Sys2Proof/Machine/FlockCfg.lean ====
section
/-! DEFINITION. What resets and folds do to one flock (R124, R125, R149 to R151, R251, R270, R271, R359, R643 to R648, R651,
R780): quiesce, clearing, the spare map, configuration and the start of its pipelines. -/

namespace Sys2Proof.Machine

/-! ### Quiesce (R359, R644, R645) -/

/-- Flock `f` enters quiesce: its peat descriptors stop with TARGET_RESET, in ascending core (R363), it feeds no bucket any more,
and the operations at its memories that have performed no write end with TARGET_RESET. -/
def State.quiesceFlock (s : State) (f : Nat) : State :=
  let s := (s.cores.filterMap fun e => if e.1 / 120 = f then some (e.1 % 120) else none).foldl (fun s c =>
    ((s.core f c).dma.filter fun d => d.started && d.op == 0x04).foldl (fun s d =>
      (s.stopPeat f c d stTargetReset).dmaFail f c d stTargetReset) s) s
  (s.feedLost fun f' _ => f' == f).retryProc

/-- A request of one of the cores of flock `f` in a stack interface: of a bale port, a peat unit or a DMA engine. -/
def reqOfFlock (f : Nat) (r : StackReq) : Bool :=
  decide (r.source < 3) && match coreOfId r.core with
    | some (f', _) => f' == f
    | none => false

def StkEnt.ofFlock (e : StkEnt) (f : Nat) : Bool := reqOfFlock f e.req

/-- Whether an owner is a core of flock `f`. -/
def TagOwner.ofFlock (o : TagOwner) (f : Nat) : Bool := match o.core with
  | some (f', _) => f' == f
  | none => false

/-- Something that flock `f` asked of another part is still unanswered, or something asked of it unfinished (R643, R646). -/
def State.flockBusy (s : State) (f : Nat) : Bool :=
  (s.ni.tags.any fun t => t.req.owner.ofFlock f) || (s.ni.waiting.any fun r => r.owner.ofFlock f) ||
    (s.far.any fun r => r.f == f) ||
    (List.range 12).any fun i => ((s.stk i).ents ++ (s.stk i).waiting).any fun e =>
      (e.owner == .port || e.owner == .unit) && e.ofFlock f

/-! ### Clearing (Table 16.2, R646, R647) -/

/-- Replies that flock `f` still awaits will be late: their entries, tags and requests stay at the peer until the operation ends
there. Requests that the NI has not sent go. -/
def State.lateFlock (s : State) (f : Nat) : State :=
  let s := s.setNi { s.ni with
    waiting := s.ni.waiting.filter fun r => !r.owner.ofFlock f
    tags := s.ni.tags.map fun t => if t.req.owner.ofFlock f then { t with req := { t.req with owner := .late } } else t }
  let s := (s.setFar (s.far.map fun r => if r.f = f then { r with f := 0xFFFF } else r)).dropUnits (reqOfFlock f) .late
  (List.range 12).foldl (fun s i => s.modStk i fun k => { k with
    ents := k.ents.map fun e => if e.owner = .port ∧ e.ofFlock f then { e with owner := .late } else e
    waiting := k.waiting.filter fun e => !e.ofFlock f }) s

/-- The registers of member 0 to `n - 1` of a family return to their reset values. -/
def State.dropFamily (s : State) (r : Reg) (i n : Nat) : State :=
  { s with regs := Sparse.drop (fun a => decide (r.addr i 0 ≤ a) && decide (a ≤ r.addr i (n - 1))) s.regs }

/-- The FLK_ registers that a flock reset clears (R75, R123, R166, R168, R171, R233, R515, R591). -/
def State.clearFlkRegs (s : State) (f : Nat) : State :=
  let rs : List Reg := [.flkArithInexactLo, .flkArithInexactHi, .flkArithOverflowLo, .flkArithOverflowHi, .flkCoreHaltLo,
    .flkCoreHaltHi, .flkFaultAddr, .flkFaultInfo, .flkCoreDoneLo, .flkCoreDoneHi, .flkSigFault]
  rs.foldl (fun s r => s.resetReg r f 0) ((s.dropFamily .flkArrayFault f 120).dropFamily .flkCoreFault f 120)

/-- Flock `f` in its RESET phase: cores, tallies, tiles, views, DMA and bale engines and road ports (R124). Its descriptor slots
go back by a credit-return message. An outbound road to a flock that is not reset keeps its credit count. -/
def State.clearFlock (s : State) (f : Nat) : State :=
  let held := s.flockDmas f - s.slotsOwed f
  let s := s.lateFlock f
  let s := s.setPeat (s.peat.filter fun j => j.f != f)
  let s := { s with
    pserve := s.pserve.map fun (e : Nat × PeatServe) => (e.1, { e.2 with asks := e.2.asks.filter fun a => a.f != f })
    returns := if held = 0 then s.returns else s.returns ++ [(f, 1, held)]
    cores := Sparse.drop (fun k => k / 120 == f) s.cores }
  let s := s.modFlock f fun k => { k with
    starting := [], stalled := [], inp := []
    outp := Sparse.drop (fun p => s.flockQuiet (s.roadDest f p).1) k.outp }
  (s.reviveRoads f).clearFlkRegs f

/-- The flocks that send on a road to flock `f` and hold credits for its buffers, itself left out (R648). -/
def State.roadPeers (s : State) (f : Nat) : List Nat :=
  ((List.range 8).filterMap fun q => (s.roadSource f q).map (·.1)).filter fun g => g != f && g / 56 == f / 56

/-- A sender takes the announced number of free rows of flock `f`: all of them (R648). -/
def State.roadAck (s : State) (g f : Nat) : State :=
  s.modFlock g fun k => { k with outp := Sparse.drop (fun p => k.outEn p && k.destFlock p == f % 56) k.outp }

/-! ### Configuration (R251, R270, R271, R273, R651) -/

/-- Explicit spare map (Table 6.8). -/
def confMap (conf : List Byte) (c : Nat) : Option Nat := if leAt conf 2 1 % 2 = 1 then some (leAt conf (16 + c) 1) else none

/-- The map of R251 for a FLOCK section. -/
def State.mapFor (s : State) (f : Nat) (conf : List Byte) (c : Nat) : Nat :=
  (confMap conf c).getD (((s.usable f)[c]?).getD c)

/-- Core scratch `c` of flock `f` reads zero (R271). -/
def State.zeroScratch (s : State) (f c : Nat) : State :=
  { s with scratch := Sparse.drop (fun a => a / scratchSize == coreIdx f c) s.scratch }

/-- A spare map is applied; the core scratch of a logical core that moves reads zero. -/
def State.applyMap (s : State) (f : Nat) (m : Nat → Nat) : State :=
  let moved := (List.range 120).filter fun c => (s.flock f).phys c != m c
  let s := moved.foldl (fun s c => s.zeroScratch f c) s
  s.modFlock f fun k => { k with map := moved.foldl (fun x c => if m c = c then Sparse.erase x c else Sparse.insert x c (m c)) k.map }

/-- A register preset (R253): whether the write completes with OK. -/
def State.preset (s : State) (a v : Nat) : State × Bool :=
  match regAt a with
  | .reg r i j =>
    if !r.row.fold then (s, false)
    else if r = .thmCfg then (s.writeThmCfg v, true)
    else (s.setReg r i j (r.written (s.reg r i j) v), true)
  | _ => (s, false)

/-- The pipeline numbers in use, in ascending order (R780). -/
def Flock.pipelines (k : Flock) : List Nat := (List.range 255).filter fun n => (List.range 120).any fun c => k.pipeline c == n

/-- Regions, entry points and road ports are bound, and the shepherd begins to start the pipelines; idle cores stay halted with
their done bits set (R249, R270). -/
def State.bindFlock (s : State) (f : Nat) (conf : List Byte) : State :=
  let s := s.modFlock f fun k => { k with conf := conf }
  let s := ((List.range 120).filter fun c => (s.flock f).pipeline c == 255).foldl (fun s c =>
    s.setCbit .flkCoreDoneLo .flkCoreDoneHi f c true) s
  s.modFlock f fun k => { k with starting := k.pipelines }

/-- FLK_FOLD_STATE.STATE. -/
def State.foldState (s : State) (f : Nat) : Nat := s.fld .flkFoldState f 0 33 32
def State.setFoldState (s : State) (f v : Nat) : State := s.setFld .flkFoldState f 0 33 32 v

/-- A flock that was RUNNING is configured again from its copies (R651: steps 4, 5 and 7 of R270). -/
def State.reconfigure (s : State) (f : Nat) : State :=
  if s.fold.isSome ∧ s.foldState f = 2 then
    let k := s.flock f
    let s := s.applyMap f k.phys
    let s := k.presets.foldl (fun s x => (s.preset x.1 x.2).1) s
    s.bindFlock f k.conf
  else s

/-- All cores of the lowest pipeline of a flock that has not started start in the same cycle, with the registers of Table 4.1 (R249,
R780). -/
def State.startPipeline (s : State) (f : Nat) : State :=
  if s.flockQuiet f then s
  else match (s.flock f).starting with
    | [] => s
    | n :: rest =>
      let s := s.modFlock f fun k => { k with starting := rest }
      ((List.range 120).filter fun c => (s.flock f).pipeline c == n).foldl (fun s c =>
        s.modCore f c fun k => k.started ((s.flock f).entry c)) s

end Sys2Proof.Machine
end

