-- ==== Sys2Proof/Machine/Reset.lean ====
section
/-! DEFINITION. Clocks, resets and pins (16_clocks_reset_bringup.md, chapter 20): the reset scopes, the drain protocol, device
reset, PLLs, power and the reset pin, and the release of the pastures. -/

namespace Sys2Proof.Machine

/-! ### Reset operations -/

def State.setRst (s : State) (rs : List ResetOp) : State := { s with rst := rs }

/-- PHASE, SCOPE and TARGET of DRV_RESET_STATUS for a requested reset. -/
def State.showReset (s : State) (r : ResetOp) : State :=
  if r.requested then
    ((s.setFld .drvResetStatus 0 0 58 56 r.phase).setFld .drvResetStatus 0 0 52 50 r.scope).setFld .drvResetStatus 0 0 49 40 r.target
  else s

/-- A reset operation replaced by its next phase. -/
def State.putReset (s : State) (old new : ResetOp) : State :=
  (s.setRst (s.rst.map fun x => if x = old then new else x)).showReset new

/-- The flocks that a reset takes in. -/
def ResetOp.flocks (r : ResetOp) : List Nat :=
  if r.scope = 1 then [r.target] else if r.scope = 2 then (List.range 56).map (r.target * 56 + ·) else []

/-- The ports whose home slice is slice `i` (R619). -/
def slicePorts (i : Nat) : List Nat := (List.range 64).filter fun q => portSlice q == i

/-- A retrain of a port that a reset causes: only a port that is UP or DOWN retrains (R617, R632). -/
def State.resetPort (s : State) (q : Nat) : State :=
  if s.portState q = 2 then (s.sendControl q .retrain none).startRetrain q
  else if s.portState q = 0 ∧ s.mayTrain q then s.startRetrain q
  else s

/-- Peers of a reset part that must acknowledge (R648): flocks by F, router slice `j` as 700 + j, the NI share of slice `j` as
800 + j, and port `q` as 900 + q. -/
def State.peersOf (s : State) (r : ResetOp) : List Nat :=
  match r.scope with
  | 1 => (s.roadPeers r.target).eraseDups
  | 3 => ((List.range 12).filter fun j => meshHops r.target j == 1).map (700 + ·) ++ [800 + r.target]
  | 4 => [900 + r.target]
  | 5 => (List.range 4).map fun j => 900 + 4 * r.target + j
  | _ => []

/-! ### The phases (R643 to R649) -/

/-- The ready bits of a part go to 0 or back to 1. -/
def State.scopeReady (s : State) (r : ResetOp) (b : Bool) : State :=
  match r.scope with
  | 2 =>
    let s := s.setRbit .drvReady 0 0 (44 + r.target) (b && s.rbit .drvClkStatus 0 0 (24 + r.target))
    if b then
      if (s.stk r.target).trained && !(s.stk r.target).owed && s.rbit .drvClkStatus 0 0 (36 + r.target) then s.stackUp r.target
      else s
    else s.setRbit .stkStatus r.target 0 63 false
  | 3 => (s.setRbit .rtrStatus r.target 0 63 b).setRbit .klnStatus 0 0 (48 + r.target) b
  | _ => s

/-- A refused access of a descriptor: a kindling descriptor learns of it right after the access that it is making, and stops. -/
def PeatJob.refused (j : PeatJob) (pos : Nat) : PeatJob :=
  let x : Nat × Nat × List Byte := (pos, stTargetReset, [])
  { j with got := if pkKindling j.raw then j.got.take 1 ++ x :: j.got.drop 1 else j.got ++ [x] }

/-- The rows and accesses that peat unit `i` would serve for other units end with TARGET_RESET (R358). -/
def State.refuseAsks (s : State) (i : Nat) : State :=
  let asks := (s.serveUnit i).asks
  let s := s.setServe i { s.serveUnit i with asks := [] }
  asks.foldl (fun s a => match s.job a.f a.c a.seq with
    | some j => if a.f / 56 = i then s else s.putJob (j.refused a.pos)
    | none => s) s

/-- QUIESCE takes effect (R644, R645), and the part is in DRAIN in the next cycle. -/
def State.quiesce (s : State) (r : ResetOp) : State :=
  let s := if r.scope = 2 then s.finishRows r.target else s
  let s := (s.setRst (s.rst ++ [r])).showReset r
  let s := r.flocks.foldl State.quiesceFlock s
  match r.scope with
  | 2 => ((s.refuseAsks r.target).refuseAll r.target).scopeReady r false
  | 3 => (s.quiesceKiln r.target).scopeReady r false
  | _ => s

/-- RESET (R643, R647): the generation rises, and the state that Table 16.2 names is cleared. -/
def State.clearScope (s : State) (r : ResetOp) : State :=
  let key := r.scope * 1024 + r.target
  let s := { s with gen := Sparse.upd 0 s.gen key (· + 1) }
  let s := r.flocks.foldl State.clearFlock s
  match r.scope with
  | 2 => ([.peatStatus, .peatSkipped, .peatFaultAddr, .peatFaultInfo].foldl (fun (s : State) (x : Reg) => s.resetReg x r.target 0)
      s).setServe r.target PeatServe.fresh
  | 3 =>
    let s := s.setRtr { s.rtr with queues := Sparse.drop (fun k => k / 4096 == r.target) s.rtr.queues }
    (slicePorts r.target).foldl State.resetPort s
  | 4 => s.resetPort r.target
  | 5 => (List.range 4).foldl (fun s j => s.resetPort (4 * r.target + j)) s
  | _ => s

/-- After a requested reset every flock that was RUNNING is configured again (R651). A fold operation that waited for the drain
of its flock goes on (R270, R273): `resume` gives the flock its configuration. -/
def State.afterReset (resume : State → State) (s : State) (r : ResetOp) : State :=
  let s := if r.requested then r.flocks.foldl State.reconfigure s else s
  if s.folding.isSome then resume s else s

/-- A reset ends once every peer has acknowledged and its PLL is locked (R643, R648, R660). -/
def State.tryFinish (resume : State → State) (s : State) (r : ResetOp) : State :=
  if r.peers = [] ∧ !r.lockWait then
    let done : ResetOp := { r with phase := 0 }
    let s := (s.putReset r done).setRst (s.rst.filter fun x => x != r)
    let s := s.scopeReady r true
    let s := s.afterReset resume r
    if r.requested then (s.setRbit .drvResetStatus 0 0 63 false).setRbit .drvResetStatus 0 0 62 true else s
  else s

/-- From DRAIN through RESET into REINIT. -/
def State.enterReinit (resume : State → State) (s : State) (r : ResetOp) (forced : Bool) : State :=
  let s := (s.setRbit .drvResetStatus 0 0 60 forced).clearScope r
  let new : ResetOp := { r with phase := 4, peers := s.peersOf r }
  (s.putReset r new).tryFinish resume new

/-- Nothing is left to finish and no reply is awaited (R643). -/
def State.drained (s : State) (r : ResetOp) : Bool := !(r.flocks.any s.flockBusy)

/-- The drain that ends next: the first reset in DRAIN. A restarting router management processor makes the drain of a requested
reset wait (Table 19.12a). -/
def State.draining (s : State) : Option ResetOp :=
  s.rst.find? fun r => r.phase == 2 && !(r.requested && s.fwStep == 2)

/-! ### Starting a reset (R641, R642, R660) -/

/-- A larger scope takes in a smaller one over the same parts (R642). -/
def ResetOp.absorbs (big small : ResetOp) : Bool :=
  (big.scope == 2 && small.scope == 1 && small.target / 56 == big.target) ||
    (big.scope == 5 && small.scope == 4 && small.target / 4 == big.target) ||
    (big.scope == 3 && small.scope == 4 && portSlice small.target == big.target) ||
    (big.scope == small.scope && big.target == small.target)

/-- A reset of scope 0b001 to 0b101 starts. A smaller one over the same parts becomes part of it; if that one was requested, the
larger one is reported. -/
def State.startReset (s : State) (scope target : Nat) (requested lockWait : Bool) : State :=
  let r : ResetOp := { scope := scope, target := target, phase := 2, requested := requested, lockWait := lockWait, peers := [] }
  let small := s.rst.filter r.absorbs
  let r := { r with requested := requested || small.any (·.requested), lockWait := lockWait || small.any (·.lockWait) }
  let s := s.setRst (s.rst.filter fun x => !r.absorbs x)
  if scope = 4 ∨ scope = 5 then
    let new : ResetOp := { r with phase := 4, peers := s.peersOf r }
    ((s.setRst (s.rst ++ [new])).showReset new).clearScope new
  else s.quiesce r

/-- TARGET lies in Table 16.2. -/
def targetOk (scope target : Nat) : Bool :=
  match scope with
  | 1 => decide (target < 672)
  | 2 => decide (target < 12)
  | 3 => decide (target < 12)
  | 4 => decide (target < 64)
  | 5 => decide (target < 16)
  | _ => false

/-- A write of GO for a scope below device (R641). -/
def State.requestReset (s : State) (scope target : Nat) : State :=
  if s.rbit .drvResetStatus 0 0 63 || s.rbit .drvFoldStatus 0 0 63 || !targetOk scope target then
    s.setRbit .drvResetStatus 0 0 61 true
  else (s.setRbit .drvResetStatus 0 0 63 true).startReset scope target true false

/-! ### Device reset (R267, R640, R642, R682, R740) -/

/-- The SEC_ registers whose values the NOR die or the fuses keep (Tables 19.13 to 19.18, R743). -/
def State.keptRegs (s : State) : SMap Word64 :=
  let base := Block.sec.base 0
  s.regs.filter fun e => e.1 == base + 0x10 || e.1 == base + 0x18 || e.1 == base + 0x20 || e.1 == base + 0x30

/-- The firmware after a device reset: the banks, the boot record, the enrolled key and the reserved LMS indices stay. -/
def Firmware.afterReset (w : Firmware) : Firmware :=
  { Firmware.fresh with image := w.image, boot := w.boot, prev := w.prev, foldKey := w.foldKey, lmsEnd := w.lmsEnd }

/-- A stack interface after a device reset: its content stays, it trains again, and it owes a zero-fill only if it did before
(R311, R640). -/
def Stk.afterReset (k : Stk) : Stk := { Stk.fresh with owed := k.owed, lastRef := k.lastRef }

/-- Every part is reset. Stacked memory, the NOR die, the pads, a trip (Table 17.4) and the PLLs that the device waits for stay. -/
def State.deviceReset (s : State) : State :=
  let new : State := { State.reset with
    regs := s.keptRegs
    dram := s.dram
    bales := s.bales
    bad := s.bad
    weak := s.weak
    stks := (List.range 12).foldl (fun m i => Sparse.set Stk.fresh m i (s.stk i).afterReset) []
    therm := { Therm.fresh with hot := s.therm.hot }
    pads := { s.pads with released := 0 }
    fw := s.fw.afterReset
    nor := s.nor
    gen := s.gen
    fresh := s.fresh
    out := s.out
    rst := s.rst.filter fun r => r.scope == 7
    pending := s.pending }
  let trial := s.rbit .secFwStatus 0 0 59
  let new := new.setRbit .secFwStatus 0 0 59 trial
  if s.tripped then (List.range 12).foldl State.tripStack (new.setFld .thmStatus 0 0 63 61 0b110) else new

/-- The device waits in reset for the PLL of a bit of DRV_CLK_STATUS (R660, R762). -/
def State.awaitPll (s : State) (b : Nat) : State :=
  s.setRst (s.rst ++ [{ scope := 7, target := b, phase := 3, requested := false, lockWait := true, peers := [] }])

/-! ### Requested resets -/

/-- The written value keeps SCOPE and TARGET in DRV_RESET_CTRL (Table 16.8). -/
def State.resetCtrl (s : State) (v : Nat) : State := s.setReg .drvResetCtrl 0 0 (Reg.drvResetCtrl.written (s.reg .drvResetCtrl 0 0) v)

/-- A write of DRV_RESET_CTRL (R639 to R641). -/
def State.writeResetCtrl (s : State) (v : Nat) : State :=
  if !bit v 31 then s.resetCtrl v
  else if bits v 26 24 = 7 then s.deviceReset
  else (s.resetCtrl v).requestReset (bits v 26 24) (bits v 9 0)

/-- RESET_FLOCK (R638, R641). -/
def execResetFlock (v : Word32) (s : State) : Out := .next (s.writeResetCtrl v.toNat)
/-- RESET_PASTURE (R319, R320, R358, R638). -/
def execResetPasture (v : Word32) (s : State) : Out := .next (s.writeResetCtrl v.toNat)
/-- RESET_ROUTER_SLICE (R555, R638). -/
def execResetRouterSlice (v : Word32) (s : State) : Out := .next (s.writeResetCtrl v.toNat)
/-- RESET_PORT (R619, R638). -/
def execResetPort (v : Word32) (s : State) : Out := .next (s.writeResetCtrl v.toNat)
/-- RESET_HEARTH (R638). -/
def execResetHearth (v : Word32) (s : State) : Out := .next (s.writeResetCtrl v.toNat)
/-- RESET_DEVICE (R640, R641). -/
def execResetDevice (v : Word32) (s : State) : Out := .next (s.writeResetCtrl v.toNat)

/-- CREDIT_RETURN_MESSAGE (R647): the peer adds the count to its free pool. -/
def execCreditReturnMessage (peer resource count : Nat) (s : State) : Out :=
  .next { s with returns := s.returns.erase (peer, resource, count) }

/-! ### Leaving reset (Tables 16.4 and 16.5) -/

/-- Pasture `p` and its router and kiln slice leave reset once their PLLs are locked (Table 16.4, Table 16.5 step 5). -/
def State.leaveReset (s : State) (p : Nat) : State :=
  if bit s.pads.released p && s.rbit .drvClkStatus 0 0 (24 + p) && !s.rst.any (fun r => r.scope == 2 && r.target == p) then
    let s := s.setRbit .drvReady 0 0 (44 + p) true
    if s.rbit .drvClkStatus 0 0 1 && !s.rst.any (fun r => r.scope == 3 && r.target == p) then
      (s.setRbit .rtrStatus p 0 63 true).setRbit .klnStatus 0 0 (48 + p) true
    else s
  else s

/-- CXL_STATUS.READY (Table 16.4): the controller has left reset, and the drover is ready or in recovery. -/
def State.cxlUp (s : State) : State :=
  if s.rbit .drvClkStatus 0 0 2 && (s.rbit .drvReady 0 0 62 || s.fw.recovery) then s.setRbit .cxlStatus 0 0 63 true else s

/-- What a PLL that locks lets the parts of its domain do. -/
def State.pllUp (s : State) (b : Nat) : State :=
  if s.inReset then s
  else if b = 1 then
    if s.rbit .drvClkStatus 0 0 1 then ((List.range 12).foldl State.leaveReset s).setRbit .niStatus 0 0 63 true else s
  else if b = 2 then s.cxlUp
  else if 24 ≤ b ∧ b < 36 then s.leaveReset (b - 24)
  else s

/-- What held the device in reset is gone: the parts whose PLL is locked leave reset. -/
def State.wake (s : State) : State := (s.pllUp 1).pllUp 2

/-! ### Power, pins and PLLs (R660, R757 to R766) -/

/-- POWER_ON (R757): the supply and the rails are in range, and PWR_GOOD rises. -/
def execPowerOn (s : State) : Out := .next (State.wake { s with pads := { s.pads with vin := true, rails := true } })

/-- What power loss takes from the stacks (R758): their content; a zero-fill is owed (R310). -/
def State.loseStacks (s : State) : State :=
  { s with dram := [], bales := [], bad := [], weak := [], stks := [] }

/-- POWER_LOSS (R758, R759): PWR_GOOD falls and stacked memory is lost; a trip ends. -/
def execPowerLoss (s : State) : Out :=
  let s := (s.setFld .thmStatus 0 0 63 61 0).setTherm { s.therm with hot := 0 }
  let s := s.deviceReset.loseStacks
  .next { s with pads := { s.pads with vin := false } }

/-- RAIL_OUT_OF_RANGE (R757, R758). -/
def execRailOutOfRange (s : State) : Out :=
  let s := s.deviceReset
  .next { s with pads := { s.pads with rails := false } }

/-- RESET_PIN (R640, R765, R766): a low level of RESET_N. The device leaves TRIPPED; where a sensor finds 125 °C it trips again in the
same cycle. -/
def execResetPin (s : State) : Out :=
  let again := if s.tripped then s.hotSite else none
  let s := (s.setFld .thmStatus 0 0 63 61 0).deviceReset
  let s := match again with
    | some i => s.trip i
    | none => s
  .next { s with pads := { s.pads with resetN := false } }

/-- RESET_PIN_RELEASE (R763). -/
def execResetPinRelease (s : State) : Out := .next (State.wake { s with pads := { s.pads with resetN := true } })

/-- PASTURE_RELEASE (R657): the drover releases the next pasture with its router slice. -/
def execPastureRelease (p : Nat) (s : State) : Out :=
  inRange p 12 s fun s =>
    if s.inReset || !s.rbit .drvReady 0 0 60 || s.pads.released != 2 ^ p - 1 then s
    else State.leaveReset { s with pads := { s.pads with released := 2 ^ (p + 1) - 1 } } p

/-- STACK_TRAINING_COMPLETE (R310, R320, R640, R657): a trained stack that owes no zero-fill is ready. -/
def execStackTrainingComplete (i : Nat) (s : State) : Out :=
  inRange i 12 s fun s =>
    if s.inReset || !s.pastureReady i then s
    else
      let s := (s.modStk i fun k => { k with trained := true }).setRbit .drvClkStatus 0 0 (36 + i) true
      if (s.stk i).owed then s.setRbit .stkStatus i 0 62 true else s.stackUp i

/-- The reset that a PLL's domain starts with its loss of lock: scope and target. -/
def pllScope (b : Nat) : Option (Nat × Nat) :=
  if b < 3 then some (7, b)
  else if 24 ≤ b ∧ b < 36 then some (2, b - 24)
  else if 36 ≤ b ∧ b < 48 then some (2, b - 36)
  else if 48 ≤ b ∧ b < 64 then some (5, b - 48)
  else none

/-- PLL_LOCK_LOSS (R660, R762): the bit of DRV_CLK_STATUS clears, and a reset of the domain's scope starts and lasts until the
PLL locks again. A further one of the device's PLLs that is lost meanwhile is waited for too. -/
def execPllLockLoss (b : Nat) (s : State) : Out :=
  match pllScope b with
  | none => .next s
  | some (scope, target) =>
    if scope = 7 ∧ s.rst.any (fun r => r.scope == 7 && r.target == b) then .next s
    else if !s.rbit .drvClkStatus 0 0 b then
      .next (if scope = 7 ∧ s.rst.any fun r => r.scope == 7 then s.awaitPll b else s)
    else if scope = 7 then .next (s.deviceReset.awaitPll b)
    else .next ((s.setRbit .drvClkStatus 0 0 b false).startReset scope target false true)

/-! ### Start-up and the resets that wait for a fold -/

/-- DRAIN_END (R643). -/
def State.drainEnd (resume : State → State) (s : State) : State :=
  match s.draining with
  | some r => if s.drained r then s.enterReinit resume r false else s
  | none => s

/-- DRAIN_LIMIT_EXPIRY (R646). -/
def State.drainLimit (resume : State → State) (s : State) : State :=
  match s.draining with
  | some r => s.enterReinit resume r true
  | none => s

/-- A peer may acknowledge: it is not itself on its way to RESET, and a port has ended its retrain (R648, R649). -/
def State.mayAck (s : State) (peer : Nat) : Bool :=
  if peer < 672 then !s.rst.any fun r => decide (r.phase < 4) && r.hasFlock peer
  else if 700 ≤ peer ∧ peer < 712 then !s.rst.any fun r => decide (r.phase < 4) && r.scope == 3 && r.target == peer - 700
  else if 900 ≤ peer then s.portState (peer - 900) != 1 && s.portState (peer - 900) != 3
  else true

/-- REINIT_ACK (R648): the peer takes the announced count. -/
def State.reinitAck (resume : State → State) (peer : Nat) (s : State) : State :=
  match s.rst.find? fun r => r.phase == 4 && r.peers.contains peer with
  | none => s
  | some r =>
    if !s.mayAck peer then s
    else
      let s := if r.scope = 1 ∧ peer < 672 then s.roadAck peer r.target else s
      let new : ResetOp := { r with peers := r.peers.filter (· != peer) }
      (s.putReset r new).tryFinish resume new

/-- PLL_LOCK (R660, Tables 16.4 and 16.5): the bit is set; a reset that waited for the lock goes on. -/
def State.pllLock (resume : State → State) (b : Nat) (s : State) : State :=
  let s := s.setRbit .drvClkStatus 0 0 b true
  match s.rst.find? fun r => r.lockWait && some (r.scope, r.target) == pllScope b with
  | none => s.pllUp b
  | some r =>
    if r.scope = 7 then (s.setRst (s.rst.filter fun x => x != r)).wake
    else
      let both := r.scope != 2 || (s.rbit .drvClkStatus 0 0 (24 + r.target) && s.rbit .drvClkStatus 0 0 (36 + r.target))
      let new : ResetOp := { r with lockWait := !both }
      let s := s.putReset r new
      if new.phase = 4 then (s.tryFinish resume new) else s

end Sys2Proof.Machine
end

