-- ==== Sys2Proof/Machine/Fold.lean ====
section
/-! DEFINITION. Fold operations (06_fold_images.md): loading a full or a partial fold, REMAP, UNLOAD, rank-table writes, and the
commands that let a waiting fold operation go on. -/

namespace Sys2Proof.Machine

/-! ### Status (Table 6.12) -/

/-- An operation ends: BUSY 0, DONE 1, PHASE 0, with ERROR, SECTION and OFFSET. -/
def State.foldEnd (s : State) (code sec off : Nat) : State :=
  let old := s.reg .drvFoldStatus 0 0
  State.setReg { s with folding := none } .drvFoldStatus 0 0
    (2 ^ 62 + bits old 61 60 * 2 ^ 60 + code * 2 ^ 48 + sec % 2 ^ 16 * 2 ^ 32 + off % 2 ^ 28)

/-- An operation is under way, in a phase of Table 6.12. -/
def State.foldBusy (s : State) (phase : Nat) : State := (s.setRbit .drvFoldStatus 0 0 63 true).setFld .drvFoldStatus 0 0 59 56 phase

/-- The operation ends with the error that comes first. -/
def State.foldErr (s : State) (e : FErr) : State := s.foldEnd e.code e.sec e.off

/-- The operation waits. -/
def State.foldWait (s : State) (op : FoldOp) (phase : Nat) : State := ({ s with folding := some op } : State).foldBusy phase

/-! ### Reading the image (R258, R264, R378) -/

/-- What a read of the staged image gives: a failure comes with the bytes before it. -/
inductive ImgRead where
  | wait
  | bad (bs : List Byte)
  | ok (bs : List Byte)

/-- The request of the drover for a stretch of a fold image. -/
def foldReq (a : Nat) : StackReq := { source := 5, core := 0, addr := a, job := 1 }

/-- The bytes before the first line whose snoop or fill failed. -/
def State.lateLine (s : State) (a n : Nat) : Nat :=
  ((linesOf a n).find? fun l => (s.snoops.any fun x => x.line == l && x.st == .late && x.reqs.contains (foldReq a)) ||
    (match s.broughtTo (foldReq a) l with
      | some b => b.status != stOk
      | none => false)).elim 0 fun l => l - a

/-- `n` bytes at `a` of the staged image are read by the drover through memory mode `mode`. -/
def State.readImage (s : State) (mode : Bool) (a n : Nat) : State × ImgRead :=
  let m := min n (0x018000000000 - a)
  let late := s.lateLine a m
  let (t, r) := State.tryRead { s with inter := mode } (foldReq a) m
  ({ t with inter := s.inter }, match r with
    | none => .wait
    | some (st, bs) =>
      if st = stOk then (if m = n then .ok bs else .bad bs)
      else .bad (if bs = [] then List.replicate late 0 else bs))

/-- SECTION for an image offset: the section that holds it, or 0xFFFF. -/
def sectionAt (img : List Byte) (off : Nat) : Nat :=
  if img.length < (parseHeader img).dirEnd then noSec
  else match (foldSecs img).find? fun x => decide (x.off ≤ off) && decide (off < x.off + x.len) with
    | some x => x.idx
    | none => noSec

/-- The error of a read of the image that fails after the bytes that have been read (ERROR 0x10). -/
def sourceErr (img : List Byte) : FErr := { off := img.length, sec := sectionAt img img.length, code := 0x10 }

/-! ### The end of a job (R259 step 1, R265, R266, R556, R652) -/

/-- Every flock is reset and unconfigured. -/
def State.resetFlocks (s : State) : State :=
  (List.range 672).foldl (fun s f =>
    let s := (s.quiesceFlock f).clearFlock f
    let s := s.modFlock f fun k => { k with conf := [], presets := [], outp := [] }
    (s.resetReg .flkFoldState f 0)) s

/-- Every router slice is reset: buffers empty, and every UP port retrains. -/
def State.resetSlices (s : State) : State :=
  let s := s.setRtr { s.rtr with queues := [] }
  let s := (List.range 12).foldl (fun (s : State) i => { s with gen := Sparse.upd 0 s.gen (3 * 1024 + i) (· + 1) }) s
  (List.range 64).foldl (fun s q => if s.portState q = 2 then s.resetPort q else s) s

/-- The NI retires every tag and frees every replay, flag-hold and processing entry; its window directory is empty (R491, R652). -/
def State.endNi (s : State) : State :=
  (s.dropUnits (fun r => r.source == 3) .none).setNi { Ni.fresh with next := s.ni.next, acked := s.ni.acked, rx := s.ni.rx, dead := s.ni.dead }

/-- Shadow mode ends (R711, R713). -/
def State.endShadow (s : State) : State :=
  ((s.resetReg .drvShadowCtrl 0 0).resetReg .drvShadowStatus 0 0).setShadow Shadow.fresh

/-- The previous job ends; no fold is loaded. -/
def State.endJob (s : State) : State :=
  let s := (s.resetReg .drvSelf 0 0).clearKiln.endNi
  let s := { s.resetFlocks with returns := [] }
  let s := s.resetSlices.endShadow
  State.resetReg { s with fold := none } .drvFoldId 0 0

/-! ### Applying (R259, R260, R270, R271) -/

/-- The payload of a DATA section, its DEST and its TAG. -/
def FoldSec.data (x : FoldSec) : List Byte := slice x.body 16 (leAt x.body 8 4)
def FoldSec.dest (x : FoldSec) : Nat := leAt x.body 0 8
def FoldSec.tag (x : FoldSec) : Nat := leAt x.body 12 4

/-- The payload of a DATA section is written from byte `off` on by the drover (R254): how far it came, and the status that ended it;
none while the next write has to wait. `fuel` bounds the bales. -/
def State.dataWrite (s : State) (x : FoldSec) : Nat → Nat → State × Nat × Option Nat
  | 0, off => (s, off, some stOk)
  | fuel + 1, off =>
    let bs := x.data
    if bs.length ≤ off then (s, off, some stOk)
    else match locOf x.dest with
      | .stacked a =>
        match s.tryWriteBale (foldReq (a + off)) (some x.tag) (slice bs off 4096) with
        | (s, none) => (s, off, none)
        | (s, some st) => if st = stOk then s.dataWrite x fuel (off + 4096) else (s, off, some st)
      | _ =>
        let (s, st) := s.tryWriteMem (foldReq x.dest) 0x5 bs
        (s, off, st)

/-- The register presets in entry order (R253); the payload of an entry is its value. -/
def State.writePresets (s : State) (x : FoldSec) : Nat → List (Nat × Nat) → State × Option FErr
  | _, [] => (s, none)
  | k, e :: es =>
    match s.preset e.1 e.2 with
    | (s, true) => s.writePresets x (k + 1) es
    | (s, false) => (s, some { off := x.off + 16 + 16 * k, sec := x.idx, code := 0x12 })

/-- The preset entries of a flock (R273). -/
def presetsOf (es : List (Nat × Nat)) (f : Nat) : List (Nat × Nat) := es.filter fun e => match regAt e.1 with
  | .reg r i _ => r.row.block == .flk && i == f
  | _ => false

/-- A new epoch (R445): a free value that is neither zero nor the old one. -/
def newEpoch (old free : Nat) : Nat :=
  if old = 0 then 1 + free % 65535 else if 1 + free % 65534 < old then 1 + free % 65534 else 2 + free % 65534

/-- Step 3 of R259 with what a full fold clears in the NI, the muster engine and its registers (R445, R491, R493, R692, R700). -/
def State.takeFold (s : State) (x : Fold) : State :=
  let s := ({ s with fold := some x } : State).setNi Ni.fresh
  let s := s.bump.setFld .niEpoch 0 0 15 0 (newEpoch (s.fld .niEpoch 0 0 15 0) s.freeVal.toNat)
  let s := s.setMuster { Muster.fresh with fseq := s.muster.fseq }
  s.setFld .drvMusterStatus 0 0 61 46 0

/-- DRV_FOLD_ID and DRV_SELF (R259 step 8). -/
def State.setIdentity (s : State) (x : Fold) (serial : Nat) : State :=
  (s.setReg .drvFoldId 0 0 (x.jobTag * 2 ^ 32 + serial)).setReg .drvSelf 0 0
    (x.ranks.length * 2 ^ 32 + 2 ^ 30 + x.rank * 2 ^ 16 + x.device)

/-- A flock runs the fold with a serial. -/
def State.flockRuns (s : State) (f serial : Nat) : State := s.setReg .flkFoldState f 0 (2 * 2 ^ 32 + serial)

/-- The operation is in its start phase (R258 step 4): it ends once the shepherds have started the pipelines of one flock, or of all. -/
def State.foldStart (s : State) (f : Option Nat) : State :=
  let ready := match f with
    | some f => (s.flock f).starting.isEmpty
    | none => s.flocks.all fun e => e.2.starting.isEmpty
  if ready then s.foldEnd 0 0 0 else s.foldWait (.start f) 4

/-- The apply phase fails: a full fold leaves no fold loaded and every flock unconfigured, a partial one its flock FAILED (R265). -/
def State.applyFail (s : State) (j : FoldJob) (e : FErr) : State := match j.flock with
  | some f => (s.setFoldState f 3).foldErr e
  | none => s.endJob.foldErr e

/-- A section is read again in the apply phase, and its CRC checked (R263). -/
def State.readSection (s : State) (j : FoldJob) (x : FoldSec) : State × Except (Option FErr) FoldSec :=
  match s.readImage j.mode (j.src + x.off) x.len with
  | (s, .wait) => (s, .error none)
  | (s, .bad bs) => (s, .error (some { off := x.off + bs.length, sec := x.idx, code := 0x10 }))
  | (s, .ok bs) =>
    if crc32c bs = x.crc then (s, .ok { x with body := bs })
    else (s, .error (some { off := x.off, sec := x.idx, code := 0x11 }))

/-- Sections are read again in order, up to the first that cannot be used. -/
def State.readSections (s : State) (j : FoldJob) : List FoldSec → State × Except (Option FErr) (List FoldSec)
  | [] => (s, .ok [])
  | x :: xs => match s.readSection j x with
    | (s, .error e) => (s, .error e)
    | (s, .ok y) => match s.readSections j xs with
      | (s, .error e) => (s, .error e)
      | (s, .ok ys) => (s, .ok (y :: ys))

/-- What a step of the apply phase gives: the operation waits, fails, goes on with its next step, or has bound everything. -/
inductive Applied where
  | waits (job : FoldJob)
  | fails (e : FErr)
  | goes (job : FoldJob)
  | bound

/-- A step goes on with what its sections hold. -/
def Applied.of {α : Type} (j : FoldJob) (x : State × Except (Option FErr) α) (k : State → α → State × Applied) : State × Applied :=
  match x with
  | (s, .error none) => (s, .waits j)
  | (s, .error (some e)) => (s, .fails e)
  | (s, .ok y) => k s y

/-- Steps 1 and 2 of R259: the previous job ends, and the memory mode is set. -/
def State.applyBegin (s : State) (mode : Bool) : State := { s.endJob with inter := mode }

/-- The register presets are written, and each configured flock keeps its copies (R273). -/
def State.applyPresets (s : State) (x : FoldSec) : State × Option FErr :=
  let es := presetEntries x.body
  match s.writePresets x 0 es with
  | (s, some e) => (s, some e)
  | (s, none) => ((List.range 672).foldl (fun s f => match presetsOf es f with
      | [] => s
      | es => s.modFlock f fun k => { k with presets := es }) s, none)

/-- The next of the steps 3 to 7 of R259, or 4 to 7 of R270; both number them alike. -/
def State.applyStep (s : State) (j : FoldJob) : State × Applied :=
  let dir := foldSecs j.top
  let next : FoldJob := { j with step := j.step + 1 }
  match j.step with
  | 3 => Applied.of j (s.readSections j (dir.filter fun x => x.type < 0x10)) fun s ss =>
      (s, .goes { next with fold := some (foldOf j.top ss) })
  | 4 => Applied.of j (s.readSections j (dir.filter fun x => x.type == 0x10)) fun s ss =>
      ((flockSecs ss).foldl (fun s e => s.applyMap e.1 (s.mapFor e.1 e.2.body)) s, .goes next)
  | 5 =>
    -- a partial fold replaces its flock's copies, with or without presets
    let s := match j.flock with
      | some f => s.modFlock f fun k => { k with presets := [] }
      | none => s
    match secOf dir 0x20 with
    | none => (s, .goes next)
    | some x => Applied.of j (s.readSection j x) fun s x => match s.applyPresets x with
      | (s, some e) => (s, .fails e)
      | (s, none) => (s, .goes next)
  | 6 => match (dir.filter fun x => x.type == 0x30)[j.sec]? with
    | none => (s, .goes next)
    | some x => Applied.of j (s.readSection j x) fun s x => match s.dataWrite x (x.len / 4096 + 1) j.off with
      | (s, off, none) => (s, .waits { j with off := off })
      | (s, off, some st) =>
        if st = stOk then (s, .goes { j with sec := j.sec + 1, off := 0 })
        else (s, .fails { off := x.off + 16 + off, sec := x.idx, code := 0x12 })
  | _ => Applied.of j (s.readSections j (dir.filter fun x => x.type == 0x10)) fun s ss =>
      ((flockSecs ss).foldl (fun s e => (s.bindFlock e.1 e.2.body).flockRuns e.1 (parseHeader j.top).serial) s, .bound)

/-- The apply phase goes on as far as it can, and the start phase follows (R258); `n` bounds the steps. -/
def State.runApply (s : State) (j : FoldJob) : Nat → State
  | 0 => s.foldWait (.apply j) 3
  | n + 1 => match s.applyStep j with
    | (s, .waits j) => s.foldWait (.apply j) 3
    | (s, .fails e) => s.applyFail j e
    | (s, .goes j) => s.runApply j n
    | (s, .bound) => match j.fold with
      | some x => ((s.takeFold x).setIdentity x (parseHeader j.top).serial).foldStart none
      | none => s.foldStart j.flock

/-- The steps that an image may take. -/
def FoldJob.steps (j : FoldJob) : Nat := (parseHeader j.top).count + 8

/-- A fold operation that waited for the drain of its flock, or for its pipelines, goes on. -/
def State.resumeFold (s : State) : State :=
  match s.folding with
  | some (.remap f l p) =>
    if s.flockQuiet f then s
    else
      let k := s.flock f
      let s := s.applyMap f fun c => if c = l then p else k.phys c
      let s := k.presets.foldl (fun s x => (s.preset x.1 x.2).1) s
      ((s.bindFlock f k.conf).setFoldState f 2).foldStart (some f)
  | some (.apply j) => match j.flock with
    | some f => if s.flockQuiet f then s else s.runApply j j.steps
    | none => s.runApply j j.steps
  | some (.start f) => s.foldStart f
  | _ => s

/-! ### LOAD (R256, R258, R656) -/

/-- The identity of the loaded full fold that a partial fold must repeat (R268). -/
def State.loadedDevice (s : State) : Option (Nat × Nat × Nat × Nat) :=
  s.fold.map fun x => (x.device, x.rank, s.inter.toNat, x.threshold)

/-- The enrolled operator fold key package. -/
def State.foldKeyPackage (s : State) : Option (List Byte) := if s.fw.foldKey = [] then none else some s.fw.foldKey

/-- The check phase has passed: the image is applied. A partial fold first drains its flock (R270 steps 1 to 3). -/
def State.startApply (s : State) (img : List Byte) (src : Nat) : State :=
  let h := parseHeader img
  let top := slice img 0 h.dirEnd
  if h.full then
    let mode := match secOf (foldSecs img) 0x01 with
      | some d => leAt d.body 4 1 == 1
      | none => false
    let job : FoldJob := { src := src, mode := s.inter, top := top, flock := none, fold := none, step := 3, sec := 0, off := 0 }
    (s.applyBegin mode).runApply job job.steps
  else
    let job : FoldJob :=
      { src := src, mode := s.inter, top := top, flock := some h.target, fold := none, step := 4, sec := 0, off := 0 }
    ((s.setFoldState h.target 1).foldWait (.apply job) 3).startReset 1 h.target false false

/-- Header and check phases (R258): `got` are the bytes of the image that earlier reads of this operation brought. `n` bounds the reads. -/
def State.runLoad (s : State) (src : Nat) (got : List Byte) : Nat → State
  | 0 => s
  | n + 1 =>
    let h := parseHeader got
    let header (hdr : List Byte) : List FErr :=
      headerErrs hdr (s.fld .secFwStatus 0 0 31 0) ++ (if bit (leAt hdr 7 1) 0 then [] else signatureErrs hdr [] (s.rbit .secPolicy 0 0 30) none)
    if got = [] then
      match s.readImage s.inter src 128 with
      | (s, .wait) => s.foldWait (.load src []) 1
      | (s, .bad bs) => s.foldErr ((firstErr ((header bs).filter fun e => decide (e.off < bs.length))).getD (sourceErr bs))
      | (s, .ok hdr) => match firstErr (header hdr) with
        | some e => s.foldErr e
        | none => s.runLoad src hdr n
    else if got.length < 128 + h.sigLen then
      match s.readImage s.inter (src + 128) h.sigLen with
      | (s, .wait) => s.foldWait (.load src got) 1
      | (s, .bad bs) => s.foldErr { off := 128 + bs.length, sec := noSec, code := 0x10 }
      | (s, .ok bs) => match firstErr (signatureErrs got bs (s.rbit .secPolicy 0 0 30) s.foldKeyPackage) with
        | some e => s.foldErr e
        | none => s.runLoad src (got ++ bs) n
    else
      match s.readImage s.inter (src + got.length) (h.total - got.length) with
      | (s, .wait) => s.foldWait (.load src got) 2
      | (s, .bad bs) =>
        let img := got ++ bs
        s.foldErr ((firstErr (checkErrs s img src s.loadedDevice ++ [sourceErr img])).getD (sourceErr img))
      | (s, .ok bs) =>
        let img := got ++ bs
        match firstErr (checkErrs s img src s.loadedDevice) with
        | some e => s.foldErr e
        | none => s.startApply img src

/-- The read of a key package (R742): it is stored on the NOR die, or waits. A package that cannot be read, or whose bytes 97
to 99 are not zero, is refused. -/
def State.runEnrol (s : State) (a : Nat) : State :=
  let put (s : State) (w : Firmware) : State := { s with fw := w }
  match s.tryReadMem { foldReq a with job := 2 } 0x5 160 with
  | (s, none) => put s { s.fw with enrol := some a }
  | (s, some (st, bs)) =>
    let s := put s { s.fw with enrol := none }
    if st = stOk ∧ leAt bs 97 3 = 0 then (put s { s.fw with foldKey := bs }).setRbit .secPolicy 0 0 29 true
    else s.setRbit .secFwStatus 0 0 61 true

/-- A LOAD or a key enrolment that waits goes on once what it waits for is there. -/
def State.kickFold (s : State) : State :=
  let s := match s.fw.enrol with
    | some a => s.runEnrol a
    | none => s
  match s.folding with
  | some (.load src got) => s.runLoad src got 3
  | some _ => s.resumeFold
  | none => s

/-! ### The control registers (R255 to R257, R273 to R275) -/

/-- REMAP (R273 to R275). -/
def State.runRemap (s : State) (f l p : Nat) : State :=
  if 672 ≤ f ∨ 120 ≤ l then s.foldEnd 0x0A noSec 0
  else if s.foldState f ≠ 2 then s.foldEnd 0x09 noSec 0
  else if (s.flock f).logicalOf p |>.isSome then s.foldEnd 0x0C noSec 0
  else if !s.physGood f p then s.foldEnd 0x0C noSec 0
  else ((s.setFoldState f 1).foldWait (.remap f l p) 3).startReset 1 f false false

/-- UNLOAD (R266). -/
def State.runUnload (s : State) : State := s.endJob.foldEnd 0 0 0

/-- A write of DRV_FOLD_CTRL (R256, R656, Table 6.11). -/
def State.writeFoldCtrl (s : State) (v : Nat) : State :=
  let op := bits v 1 0
  if op ≠ 0 ∧ s.rbit .drvFoldStatus 0 0 63 then s.setRbit .drvFoldStatus 0 0 61 true
  else if op = 1 ∧ !s.allReady then s.setRbit .drvReady 0 0 58 true
  else
    let s := s.setReg .drvFoldCtrl 0 0 (Reg.drvFoldCtrl.written (s.reg .drvFoldCtrl 0 0) v)
    match op with
    | 1 => s.runLoad (s.fld .drvFoldSrc 0 0 47 12 * 4096) [] 3
    | 2 => s.runRemap (bits v 41 32) (bits v 22 16) (bits v 30 24)
    | 3 => s.runUnload
    | _ => s

/-- FOLD_LOAD (R258): a write of DRV_FOLD_CTRL, whose OP says what it does. -/
def execFoldLoad (v : Word64) (s : State) : Out := .next (s.writeFoldCtrl v.toNat)
/-- REMAP (R273): a write of DRV_FOLD_CTRL. -/
def execRemap (v : Word64) (s : State) : Out := .next (s.writeFoldCtrl v.toNat)
/-- UNLOAD (R266): a write of DRV_FOLD_CTRL. -/
def execUnload (v : Word64) (s : State) : Out := .next (s.writeFoldCtrl v.toNat)

/-- A write of DRV_RANK_WRITE (R256, R257). -/
def State.writeRank (s : State) (v : Nat) : State :=
  let device := bits v 45 32
  let rank := bits v 13 0
  if s.rbit .drvFoldStatus 0 0 63 then s.setRbit .drvFoldStatus 0 0 61 true
  else match s.fold with
    | none => s.setRbit .drvFoldStatus 0 0 60 true
    | some x =>
      let elsewhere := (List.range x.ranks.length).any fun r => r != rank && x.ranks[r]? == some device
      if rank < x.ranks.length ∧ rank ≠ x.rank ∧ !elsewhere ∧ x.routes.any (fun r => r.covers device) then
        { s with fold := some { x with ranks := x.ranks.set rank device } }
      else s.setRbit .drvFoldStatus 0 0 60 true

/-- DRV_RANK_WRITE (R257). -/
def execDrvRankWrite (v : Word64) (s : State) : Out := .next (s.writeRank v.toNat)

/-! ### Commands that let a waiting operation go on -/

/-- PIPELINE_START (R249, R258, R780): the next pipeline of a flock starts; with the last one a fold operation in its start phase ends. -/
def execPipelineStart (f : Nat) (s : State) : Out :=
  inRange f 672 s fun s =>
    let s := s.startPipeline f
    match s.folding with
    | some (.start g) => s.foldStart g
    | _ => s

/-- DRAIN_END (R643): nothing is left to finish, and the part enters RESET. -/
def execDrainEnd (s : State) : Out := .next (s.drainEnd State.resumeFold)

/-- DRAIN_LIMIT_EXPIRY (R646). -/
def execDrainLimitExpiry (s : State) : Out := .next (s.drainLimit State.resumeFold)

/-- REINIT_ACK (R648, R649, R651). -/
def execReinitAck (peer : Nat) (s : State) : Out := .next (s.reinitAck State.resumeFold peer)

/-- PLL_LOCK (R660). -/
def execPllLock (b : Nat) (s : State) : Out :=
  if (pllScope b).isSome then .next (s.pllLock State.resumeFold b) else .next s

/-- What waited for an entry, the tracker, a window line or a write gate goes on: requests in the stacks, packets, submissions and fold
operations. -/
def State.goOn (s : State) : State := s.serveWaiting.kickFold

/-- CXL_HOST_EVICT (R376): the host evicts a line. -/
def execCxlHostEvict (line : Nat) (s : State) : Out := .next (s.untrack line).goOn

/-- The answer of the host reaches the earliest snoop of a line that still wants one; a late one has no other effect (R513). -/
def State.snoopAnswered (s : State) (line : Nat) : State :=
  match s.snoops.find? fun x => x.line == line && (x.st == .sent || (x.st == .late && x.reqs == [])) with
  | none => s
  | some x =>
    if x.st = .sent ∧ x.reqs ≠ [] then s.setSnoops (s.snoops.map fun y => if y = x then { y with st := .answered } else y)
    else s.setSnoops (s.snoops.erase x)

/-- BIRSP (R376 to R378, R513): the host answers a snoop; a line left invalid leaves the tracker, and what waited proceeds. -/
def execBirsp (line : Nat) (stillValid : Bool) (s : State) : Out :=
  .next ((if stillValid then s else s.untrack line).snoopAnswered line).goOn

/-- BI_TIMEOUT (R380): snoop `n` passes CXL_TIMEOUTS.BI; the accesses that wait for it end with TIMEOUT. -/
def execBiTimeout (n : Nat) (s : State) : Out :=
  .next (match s.snoops[n]? with
    | some x =>
      if x.st = .sent ∧ x.reqs ≠ [] ∧ s.fld .cxlTimeouts 0 0 31 16 ≠ 0 then
        (s.setSnoops (s.snoops.set n { x with st := .late })).goOn
      else s
    | none => s)

/-- WRITE_GATE_CHANGE (R307, R313, R318): the model's decision reaches the interface; when the gate opens, held writes start in
arrival order. Only the decision that the model published last can arrive. -/
def execWriteGateChange (stack : Nat) (closed : Bool) (s : State) : Out :=
  inRange stack 12 s fun s =>
    if s.rbit .thmStk 0 stack 15 ≠ closed then s
    else
      let s := (s.setRbit .stkStatus stack 0 61 closed).setRbit .stkStatus stack 0 59 (s.rbit .thmStk 0 stack 14)
      if closed then s else s.goOn

/-- STACK_ENTRY_GRANT (R283): the next waiting request of a stack takes entries that are free, and what waited goes on. -/
def execStackEntryGrant (stack : Nat) (s : State) : Out :=
  inRange stack 12 s fun s => match s.grantOne stack with
    | some t => t.goOn
    | none => s

end Sys2Proof.Machine
end

