-- ==== Sys2Proof/Machine/Host.lean ====
section
/-! DEFINITION. The host link: command queues (R381 to R390), the answers of the far tier (R391 to R396), link up, link down,
CXL Reset and IDE failures (R366, R397 to R399). -/

namespace Sys2Proof.Machine

/-! ### Queues -/

def State.que (s : State) (q : Nat) : CmdQueue := Sparse.get CmdQueue.fresh s.queues q

def State.setQue (s : State) (q : Nat) (k : CmdQueue) : State :=
  { s with queues := Sparse.set CmdQueue.fresh s.queues q k }

/-- STATE of CXL_QCTRL q. -/
def State.queState (s : State) (q : Nat) : Nat := s.fld .cxlQctrl 0 q 61 60

/-- 2^SIZE, the entries of each queue of pair q. -/
def State.queSize (s : State) (q : Nat) : Nat := 2 ^ s.fld .cxlQctrl 0 q 59 56

/-- The fields of a submission entry (Table 9.5). -/
def QCmd.op (k : QCmd) : Nat := leAt k.raw 0 1
def QCmd.srcHost (k : QCmd) : Bool := bit (leAt k.raw 1 1) 0
def QCmd.dstHost (k : QCmd) : Bool := bit (leAt k.raw 1 1) 1
def QCmd.ordered (k : QCmd) : Bool := bit (leAt k.raw 1 1) 2
def QCmd.cid (k : QCmd) : Nat := leAt k.raw 2 2
def QCmd.src (k : QCmd) : Nat := leAt k.raw 8 8
def QCmd.dst (k : QCmd) : Nat := leAt k.raw 16 8
def QCmd.len (k : QCmd) : Nat := leAt k.raw 24 4
def QCmd.increment (k : QCmd) : Int := sext 32 (leAt k.raw 28 4)

/-- R387. -/
def QCmd.malformed (k : QCmd) : Bool :=
  decide (3 < k.op) || leAt k.raw 4 4 != 0 || leAt k.raw 32 32 != 0 || (k.srcHost && k.dstHost) ||
    (k.op == 1 && (decide (k.len < 64) || decide (2 ^ 30 < k.len)))

/-- It starts only after every earlier command of its queue has completed (R385). -/
def QCmd.waits (k : QCmd) : Bool := k.op == 2 || k.op == 3 || (k.op == 1 && k.ordered)

/-- The local side of a command, for the fault log. -/
def QCmd.localSide (k : QCmd) : Nat := (if k.dstHost then k.src else k.dst) % 2 ^ 48

/-- A failed command is logged with PATH 0x2 (R404, Table 9.15). -/
def State.queLog (s : State) (q st addr : Nat) : State := s.cxlLog addr st 0x2 q 0

/-- No CXL.cache traffic after an IDE failure (R399). -/
def State.cacheStopped (s : State) : Bool := s.ideStop && s.fld .cxlStatus 0 0 61 60 == 2

/-- A STOPPING queue with no command in progress is DISABLED (Table 9.7). -/
def State.queStopped (s : State) (q : Nat) : State :=
  if s.queState q = 3 ∧ (s.que q).cmds = [] then s.setFld .cxlQctrl 0 q 61 60 0 else s

/-- A queue goes to ERROR with a cause (Table 9.7). -/
def State.queError (s : State) (q cause : Nat) : State :=
  (s.setFld .cxlQctrl 0 q 61 60 2).setFld .cxlQctrl 0 q 55 52 cause

/-- The effect of a command that names a queue pair. -/
def onQueue (q : Nat) (s : State) (k : State → State) : Out := inRange q 16 s k

/-- A write of CXL_QCTRL q: ENABLE and IRQ take the value, SIZE only while the queue is DISABLED (R390). -/
def State.writeQctrl (s : State) (q v : Nat) : State :=
  let s := (s.setRbit .cxlQctrl 0 q 63 (bit v 63)).setRbit .cxlQctrl 0 q 62 (bit v 62)
  if s.queState q = 0 then s.setFld .cxlQctrl 0 q 59 56 (bits v 59 56) else s

/-- ENABLE written 1 (Table 9.7). -/
def State.enableQue (s : State) (q v : Nat) : State :=
  let was := s.queState q
  let s := s.writeQctrl q v
  if was ≠ 0 then s
  else if 4 ≤ s.fld .cxlQctrl 0 q 59 56 ∧ s.reg .cxlQsqBase 0 q ≠ 0 ∧ s.reg .cxlQcqBase 0 q ≠ 0 then
    let s := ((s.setFld .cxlQctrl 0 q 61 60 1).setFld .cxlQctrl 0 q 31 16 0).setFld .cxlQctrl 0 q 15 0 0
    s.setQue q { s.que q with passes := 0 }
  else s.queError q 0x4

/-- ENABLE written 0 (Table 9.7). -/
def State.disableQue (s : State) (q v : Nat) : State :=
  let was := s.queState q
  let s := s.writeQctrl q v
  if was = 1 then (s.setFld .cxlQctrl 0 q 61 60 3).queStopped q
  else if was = 2 then (s.setFld .cxlQctrl 0 q 61 60 0).setFld .cxlQctrl 0 q 55 52 0
  else s

/-- A write of CXL_QCTRL q, by its ENABLE. -/
def State.writeQueue (s : State) (q v : Nat) : State := if bit v 63 then s.enableQue q v else s.disableQue q v

/-- QUEUE_ENABLE (R390): a write of CXL_QCTRL q. -/
def execQueueEnable (q : Nat) (v : Word64) (s : State) : Out := onQueue q s fun s => s.writeQueue q v.toNat

/-- QUEUE_DISABLE (R390): a write of CXL_QCTRL q. -/
def execQueueDisable (q : Nat) (v : Word64) (s : State) : Out := onQueue q s fun s => s.writeQueue q v.toNat

/-- A doorbell write (Tables 9.7 and 9.20). -/
def State.doorbell (s : State) (q v : Nat) (set : CmdQueue → Nat → CmdQueue) : State :=
  let i := v % 2 ^ 16
  if s.queState q = 1 ∧ s.queSize q ≤ i then s.queError q 0x1 else s.setQue q (set (s.que q) i)

def State.ringSq (s : State) (q v : Nat) : State := s.doorbell q v fun k i => { k with tail := i }
def State.ringCq (s : State) (q v : Nat) : State := s.doorbell q v fun k i => { k with head := i }

/-- CXL_QSQ_DB (R389, R390). -/
def execCxlQsqDb (q : Nat) (v : Word32) (s : State) : Out := onQueue q s fun s => s.ringSq q v.toNat

/-- CXL_QCQ_DB (R388, R390). -/
def execCxlQcqDb (q : Nat) (v : Word32) (s : State) : Out := onQueue q s fun s => s.ringCq q v.toNat

/-- The commands in progress of all queues. -/
def State.quesBusy (s : State) : Nat := s.queues.foldl (fun n e => n + e.2.cmds.length) 0

/-- The queue engine may fetch (R386, R389, R390, R399). -/
def State.mayFetch (s : State) (q : Nat) : Bool :=
  s.queState q == 1 && s.fld .cxlStatus 0 0 61 60 != 0 && !s.cacheStopped &&
    s.fld .cxlQctrl 0 q 31 16 != (s.que q).tail && decide ((s.que q).cmds.length < 8) && decide (s.quesBusy < 64)

/-- A completed command goes behind the completed commands and before the others, which keep their SQ order; one that a
link-down has muted is gone (R397). -/
def State.queDone (s : State) (q : Nat) (k : QCmd) (st n : Nat) : State :=
  let x := s.que q
  let rest := x.cmds.erase k
  let done := rest.filter (·.res.isSome)
  let own := if k.mute then [] else [{ k with res := some (st, n) }]
  (s.setQue q { x with cmds := done ++ own ++ rest.filter (·.res.isNone) }).queStopped q

/-- SQ_FETCH (R381, R385 to R387, R389): the entry at SQ_HEAD; a malformed one completes with REFUSED. -/
def execSqFetch (q : Nat) (entry : List Byte) (s : State) : Out :=
  if entry.length ≠ 64 then .next s
  else onQueue q s fun s =>
    if !s.mayFetch q then s
    else
      let k : QCmd := { raw := entry, num := s.fld .cxlQctrl 0 q 31 16, data := [], res := none, mute := false }
      let s := s.setFld .cxlQctrl 0 q 31 16 ((s.fld .cxlQctrl 0 q 31 16 + 1) % s.queSize q)
      let s := s.setQue q { s.que q with cmds := (s.que q).cmds ++ [k] }
      if k.malformed then (s.queLog q stRefused k.localSide).queDone q k stRefused 0 else s

/-- SQ_READ_ERROR (R390): the read of the entry at SQ_HEAD ends with an error or with poison. -/
def execSqReadError (q : Nat) (s : State) : Out :=
  onQueue q s fun s => if s.mayFetch q then s.queError q 0x2 else s

/-- The command in place `n` of a queue, if it has the operation and can start (R385): every earlier command that has not
completed has started, and none is left before one that waits. -/
def State.runnable (s : State) (q n op : Nat) : Option QCmd :=
  match (s.que q).cmds[n]? with
  | none => none
  | some k =>
    let open' := ((s.que q).cmds.take n).filter (·.res.isNone)
    if k.op = op ∧ k.res.isNone ∧ !(if k.waits then !open'.isEmpty else open'.any QCmd.waits) then some k else none

/-- QUEUE_NOP (R381). -/
def execQueueNop (q n : Nat) (s : State) : Out :=
  onQueue q s fun s => match s.runnable q n 0 with
    | some k => s.queDone q k stOk 0
    | none => s

/-- QUEUE_FENCE (R385). -/
def execQueueFence (q n : Nat) (s : State) : Out :=
  onQueue q s fun s => match s.runnable q n 3 with
    | some k => s.queDone q k stOk 0
    | none => s

/-- A command that fails is logged and completed. -/
def State.queFail (s : State) (q : Nat) (k : QCmd) (st addr n : Nat) : State := (s.queLog q st addr).queDone q k st n

/-- A SIGNAL is performed (R384, R502). -/
def State.queSignal (s : State) (q : Nat) (k : QCmd) : State :=
  let go (f : Nat) (p : SigPlace) : State :=
    if s.flockQuiet f then
      (s.resetLog k.dst (s.flockScope f).1 (s.flockScope f).2 0x4 0).queFail q k stTargetReset (k.dst % 2 ^ 48) 0
    else
      let (s, st) := s.addSignal p k.increment 0x3 none
      if st = stOk then s.queDone q k stOk 0 else s.queFail q k st (k.dst % 2 ^ 48) 0
  if k.dst % 8 ≠ 0 then s.queFail q k stAddressFault (k.dst % 2 ^ 48) 0
  else match locOf k.dst with
    | .store f off => go f (.store f off)
    | .scratch f c off => go f (.scratch f c off)
    | _ => s.queFail q k stAddressFault (k.dst % 2 ^ 48) 0

/-- QUEUE_SIGNAL (R384, R385). -/
def execQueueSignal (q n : Nat) (s : State) : Out :=
  onQueue q s fun s => match s.runnable q n 2 with
    | some k => s.queSignal q k
    | none => s

/-! ### COPY (R382, R383) -/

/-- An address of the register range or of the far-tier window. -/
def noQueueAddr (a : Nat) : Bool := decide (0x030000000000 ≤ a) && decide (a < 0x080000000000)

/-- A local range of R382. -/
def queRange (a n : Nat) : Bool :=
  a % 4 == 0 && n % 4 == 0 && (match memOf a n with
    | some .stacked => true
    | some .store => (a - storeBase) / storeSize == (a + n - 1 - storeBase) / storeSize
    | some .scratch => (a - scratchBase) / scratchSize == (a + n - 1 - scratchBase) / scratchSize
    | none => false)

/-- The status and the logged address of a COPY that breaks R382, if it does. -/
def QCmd.copyBad (k : QCmd) : Option (Nat × Nat) :=
  if !k.srcHost && noQueueAddr k.src then some (stRefused, k.src % 2 ^ 48)
  else if !k.dstHost && noQueueAddr k.dst then some (stRefused, k.dst % 2 ^ 48)
  else if (k.srcHost && k.src % 64 != 0) || (k.dstHost && k.dst % 64 != 0) || ((k.srcHost || k.dstHost) && k.len % 64 != 0) then
    some (stAddressFault, 0)
  else if !k.srcHost && !queRange k.src k.len then some (stAddressFault, k.src % 2 ^ 48)
  else if !k.dstHost && !queRange k.dst k.len then some (stAddressFault, k.dst % 2 ^ 48)
  else none

/-- The request of a command to local memory. -/
def QCmd.reqAt (q : Nat) (k : QCmd) (a : Nat) : StackReq := { source := 4, core := 0, addr := a, job := q * 2 ^ 16 + k.num + 1 }

/-- The writes of a COPY into stacked memory: whole bales untagged, parts of bales by sectors (R383). -/
def queWrites (a : Nat) (bs : List Byte) : List UnitWrite :=
  (balePieces (bs.length / 4096 + 2) a bs).map fun p => { addr := p.1, data := p.2, whole := if p.2.length = 4096 then some none else none }

/-- Writes that can all be made now are made in ascending order: the bytes written and the first status other than OK. -/
def State.queCommit (s : State) (u : StackReq) (n : Nat) : List UnitWrite → State × Nat × Nat
  | [] => (s, n, stOk)
  | w :: ws =>
    let (s, st, m) := s.commitUnit u w
    let s := s.mirrored w.addr (w.data.take m)
    if st = stOk then s.queCommit u (n + m) ws
    else (s.dropUnits (fun r => r.source == 4 && r.job == u.job) .none, n + m, st)

/-- A COPY writes its bytes at DST: the bytes written and the status, or none while it has to wait. -/
def State.queWrite (s : State) (u : StackReq) (bs : List Byte) : State × Option (Nat × Nat) :=
  if memOf u.addr bs.length = some .stacked then
    match s.prepWrites u (queWrites u.addr bs) with
    | (s, .wait) => (s, none)
    | (s, .fail st) => (s, some (0, st))
    | (s, .go) =>
      let (s, n, st) := s.queCommit u 0 (queWrites u.addr bs)
      (s, some (n, st))
  else match s.tryWriteMem u 0x4 bs with
    | (s, none) => (s, none)
    | (s, some st) => if st = stOk then (s.mirrored u.addr bs, some (bs.length, st)) else (s, some (0, st))

/-- A COPY with its source bytes at hand is finished at DST. -/
def State.queCopyTo (s : State) (q : Nat) (k : QCmd) : State :=
  if k.dstHost then (s.emit (.hostWrite k.dst k.data)).queDone q k stOk k.len
  else match s.queWrite (k.reqAt q k.dst) k.data with
    | (s, none) => s
    | (s, some (n, st)) => if st = stOk then s.queDone q k stOk n else s.queFail q k st (k.dst % 2 ^ 48) n

/-- A COPY has read its source, which it keeps until it has written it. -/
def State.queCopyFrom (s : State) (q : Nat) (k : QCmd) (bs : List Byte) : State :=
  let k' : QCmd := { k with data := bs }
  (s.setQue q { s.que q with cmds := (s.que q).cmds.map fun x => if x = k then k' else x }).queCopyTo q k'

/-- A COPY between local memories has read its source: with overlapping ranges the bytes are free among those that R155 allows. -/
def State.queCopyLocal (s : State) (q : Nat) (k : QCmd) (bs : List Byte) : State :=
  let data := s.copied k.src k.dst k.len bs
  State.queCopyFrom (if overlaps k.src k.dst k.len then { s with fresh := s.fresh + k.len } else s) q k data

/-- QUEUE_COPY (R382, R383): `host` holds the bytes that the host's memory returns where SRC_HOST is 1. -/
def execQueueCopy (q n : Nat) (host : List Byte) (s : State) : Out :=
  onQueue q s fun s => match s.runnable q n 1 with
    | none => s
    | some k => match k.copyBad with
      | some (st, a) => s.queFail q k st a 0
      | none =>
        if ((k.srcHost && k.data == []) || k.dstHost) && s.cacheStopped then s
        else if k.data ≠ [] then s.queCopyTo q k
        else if k.srcHost then (if host.length = k.len then s.queCopyFrom q k host else s)
        else match s.tryReadMem (k.reqAt q k.src) 0x4 k.len with
          | (s, none) => s
          | (s, some (st, bs)) =>
            if st ≠ stOk then s.queFail q k st (k.src % 2 ^ 48) 0
            else if k.dstHost then s.queCopyFrom q k bs
            else s.queCopyLocal q k bs

/-! ### Completions (R388) -/

/-- The completion that posts next: the first command that has completed. -/
def State.nextPost (s : State) (q : Nat) : Option (QCmd × Nat × Nat) :=
  match (s.que q).cmds with
  | k :: _ => k.res.map fun r => (k, r.1, r.2)
  | [] => none

/-- The queue engine may write a completion: the posting does not reach the head (R388). -/
def State.mayPost (s : State) (q : Nat) : Bool :=
  s.fld .cxlStatus 0 0 61 60 != 0 && !s.cacheStopped &&
    (s.fld .cxlQctrl 0 q 15 0 + 1) % s.queSize q != (s.que q).head

/-- The 16 bytes of a completion entry (Table 9.6). -/
def cqEntry (cid st phase sqHead n : Nat) : List Byte :=
  leBytes 2 cid ++ leBytes 1 st ++ leBytes 1 phase ++ leBytes 2 sqHead ++ leBytes 2 0 ++ leBytes 4 n ++ leBytes 4 0

/-- CQ_POST (R388, Table 9.7). -/
def execCqPost (q : Nat) (s : State) : Out :=
  onQueue q s fun s => match s.nextPost q with
    | none => s
    | some (k, st, n) =>
      if !s.mayPost q then s
      else
        let x := s.que q
        let t := s.fld .cxlQctrl 0 q 15 0
        let wraps := decide (t + 1 = s.queSize q)
        let at' := s.fld .cxlQcqBase 0 q 51 12 * 4096 + 16 * t
        let e := cqEntry k.cid st ((x.passes + 1) % 2) (s.fld .cxlQctrl 0 q 31 16) n
        let s := s.emit (.hostWrite at' e)
        let s := if s.rbit .cxlQctrl 0 q 62 then s.emit (.msix q) else s
        let s := s.setFld .cxlQctrl 0 q 15 0 (if wraps then 0 else t + 1)
        (s.setQue q { x with cmds := x.cmds.erase k, passes := x.passes + wraps.toNat }).queStopped q

/-- CQ_WRITE_ERROR (R390): the write of the next completion ends with an error; that completion is lost. -/
def execCqWriteError (q : Nat) (s : State) : Out :=
  onQueue q s fun s => match s.nextPost q with
    | none => s
    | some (k, _, _) =>
      if !s.mayPost q then s
      else
        let x := s.que q
        let s := s.setQue q { x with cmds := x.cmds.erase k }
        (if s.queState q = 1 then s.queError q 0x3 else s).queStopped q

/-! ### The far tier (R393 to R396) -/

/-- A far-tier request leaves with a failing status, which is logged with PATH 0x3 (R396). -/
def State.farFail (s : State) (r : FarReq) (st : Nat) : State :=
  (s.cxlLog r.addr st 0x3 0 (coreId r.f r.c)).modDma r.f r.c r.seq fun d => d.piece r.off st

/-- The data of a far-tier read: it is to be written locally, or goes on to a far destination. -/
def State.farData (s : State) (r : FarReq) (bs : List Byte) : State :=
  match (s.core r.f r.c).dma.find? fun d => d.seq == r.seq with
  | none => s
  | some d =>
    if inFar d.dst d.len then
      let x := d.dst + r.off
      if s.farStatus x = stOk then s.farSend r.f r.c r.seq true x r.off bs else s.farFail { r with addr := x } (s.farStatus x)
    else s.modDma r.f r.c r.seq fun d => { (d.piece r.off stOk) with land := d.land ++ [(r.off, d.dst + r.off, bs)] }

/-- A far-tier request has its answer: the issuer of one that a reset has cleared is gone (R646), and so is the descriptor of a core that
has started again (R513). -/
def State.farAnswer (s : State) (n : Nat) (k : FarReq → State → State) : State :=
  match s.far[n]? with
  | none => s
  | some r =>
    let s := s.setFar (s.far.erase r)
    if r.f = 0xFFFF then s.incFld .drvResetStatus 0 0 31 0 else if r.f = 0xFFFE then s else k r s

/-- FAR_TIER_RESPONSE (R395, R396). -/
def execFarTierResponse (n : Nat) (r : FarEnd) (s : State) : Out :=
  .next (match s.far[n]?, r with
    | some x, .data bs =>
      if x.write then s.farAnswer n fun x s => s.modDma x.f x.c x.seq fun d => d.piece x.off stOk
      else if bs.length = 64 then s.farAnswer n fun x s => s.farData x bs
      else s
    | _, .unsupported => s.farAnswer n fun x s => s.farFail x stRefused
    | _, .poisoned => s.farAnswer n fun x s => s.farFail x stChecksumFault
    | none, _ => s)

/-- FAR_TIER_TIMEOUT (R396). -/
def execFarTierTimeout (n : Nat) (s : State) : Out :=
  .next (if s.fld .cxlTimeouts 0 0 15 0 = 0 then s else s.farAnswer n fun x s => s.farFail x stTimeout)

/-! ### The link -/

/-- LINK_UP (R366, Table 9.11): the link trains in full CXL mode or with CXL.io alone. -/
def execLinkUp (full : Bool) (width rate : Nat) (s : State) : Out :=
  if [1, 2, 4, 8].contains width ∧ 1 ≤ rate ∧ rate ≤ 4 then
    .next (if !s.rbit .cxlStatus 0 0 63 || s.rbit .cxlStatus 0 0 62 then s
      else (((s.setRbit .cxlStatus 0 0 62 true).setFld .cxlStatus 0 0 61 60 (if full then 2 else 1)).setFld .cxlStatus 0 0 51 48
        width).setFld .cxlStatus 0 0 47 44 rate)
  else .next s

/-- A queue is disabled by a link-down: a command in progress goes on without posting; one that writes the host's memory, or has not
read it yet, has no effect left on the device's side (R397). -/
def State.cutQueue (s : State) (q : Nat) : State :=
  let keep := (s.que q).cmds.filter fun k => k.res.isNone && !k.dstHost && (!k.srcHost || k.data != [])
  let s := s.setQue q { s.que q with cmds := keep.map fun k => { k with mute := true } }
  ((s.setRbit .cxlQctrl 0 q 63 false).setFld .cxlQctrl 0 q 61 60 0).setFld .cxlQctrl 0 q 55 52 0

/-- The answers of the host's own requests are due no more; a write of the host is performed all the same. -/
def State.cutHost (s : State) : State :=
  (List.range 12).foldl (fun s i => s.modStk i fun k =>
    let keep (es : List StkEnt) : List StkEnt := (es.filter fun e => e.owner != .host || e.acc.isWrite).map fun e =>
      if e.owner = .host then { e with owner := .none } else e
    { k with ents := keep k.ents, waiting := keep k.waiting }) s

/-- What R397 does when the link goes down or is reset. An Activate FW command gets no answer any more. -/
def State.cutLink (s : State) : State :=
  let s := ((List.range 16).foldl State.cutQueue s).cutHost
  let far := s.far
  let s := far.foldl (fun s r =>
    if r.f = 0xFFFF then s.incFld .drvResetStatus 0 0 31 0 else s.farFail r stTargetReset) (s.setFar [])
  let s := s.setRbit .cxlStatus 0 0 59 false
  let mv := s.fw.moving.map fun m => if m.asker = 1 then { m with asker := 0 } else m
  { s with trk := [], snoops := [], ideKeys := [], fw := { s.fw with moving := mv } }

/-- LINK_DOWN (R397 to R399): the range of the DVSEC takes CXL_HDM.SIZE, and an IDE failure stops nothing any more. -/
def execLinkDown (s : State) : Out :=
  .next (if s.rbit .cxlStatus 0 0 62 then
      let t : State := { s.cutLink with ideStop := false, range := s.fld .cxlHdm 0 0 10 0 }
      ((((t.setRbit .cxlStatus 0 0 62 false).setFld .cxlStatus 0 0 61 60 0).setFld .cxlStatus 0 0 51 48 0).setFld .cxlStatus 0 0 47 44
        0).goOn
    else s)

/-- CXL_RESET (R397): a hot reset or a CXL Reset; what an IDE failure stopped stays stopped (R399). -/
def execCxlReset (s : State) : Out := .next (if s.rbit .cxlStatus 0 0 62 then s.cutLink.goOn else s)

/-- IDE_FAIL (R399): an integrity failure, which only an IDE that protects the link detects. The spec gives neither STATUS nor address of
the logged event. -/
def execIdeFail (s : State) : Out :=
  .next (if s.rbit .cxlStatus 0 0 59 then
      let v := s.freeVal.toNat
      State.cxlLog { s.bump.setRbit .cxlStatus 0 0 58 true with ideStop := true } (v % 2 ^ 48) (bits v 51 48) 0x5 0 0
    else s)

/-- HOST_SNOOP (R393): the device holds no host line. -/
def execHostSnoop (line : Nat) (s : State) : Out := .next (if s.hostTraffic then s.emit (.rspIHitI line) else s)

end Sys2Proof.Machine
end

