-- ==== Sys2Proof/Machine/Firmware.lean ====
section
/-! DEFINITION. Firmware images, staging by the mailbox and by relay, activation, trial and boot, and the fold image policy
(19_security_firmware.md, R725 to R742). -/

namespace Sys2Proof.Machine

/-! ### Registers and banks -/

/-- ACTIVE_BANK and TRIAL of SEC_FW_STATUS. -/
def State.activeBank (s : State) : Nat := s.fld .secFwStatus 0 0 60 60
def State.trial (s : State) : Bool := s.rbit .secFwStatus 0 0 59

/-- STATE of SEC_BANK b (Table 19.15). -/
def State.bankState (s : State) (b : Nat) : Nat := s.fld .secBank 0 b 63 62
def State.setBankState (s : State) (b v : Nat) : State := s.setFld .secBank 0 b 63 62 v

def State.setFw (s : State) (w : Firmware) : State := { s with fw := w }

/-- The image of a bank replaced. -/
def State.setImage (s : State) (b : Nat) (img : List Byte) : State :=
  s.setFw { s.fw with image := Sparse.set [] s.fw.image b img }

/-- A bank that is not running and is not the roll-back bank of a set in trial. In recovery no bank runs. -/
def State.inactive (s : State) (b : Nat) : Bool :=
  decide (b < 2) && (s.fw.recovery || b != s.activeBank) && !(s.trial && b == s.fw.prev)

/-- The running set version. -/
def State.fwVersion (s : State) : Nat := s.fld .secFwStatus 0 0 31 0

/-- SVN_FLOOR. -/
def State.svnFloor (s : State) : Nat := s.fld .secPolicy 0 0 5 0

/-- The end of a firmware operation: BUSY clears, DONE is set and ERROR takes the code. -/
def State.fwEnd (s : State) (err : Nat) : State :=
  (((s.setRbit .secFwStatus 0 0 63 false).setRbit .secFwStatus 0 0 62 true).setFld .secFwStatus 0 0 57 56 0).setFld
    .secFwStatus 0 0 47 40 err

/-! ### Images (R725 to R727) -/

/-- A component entry of the image header (Table 19.8); `k` from 0 to 3. -/
structure FwComp where
  id     : Nat
  iface  : Nat
  minIf  : Nat
  offset : Nat
  length : Nat
  crc    : Nat
  zero   : Bool
deriving DecidableEq, Repr

def fwComp (img : List Byte) (k : Nat) : FwComp :=
  let o := 128 + 32 * k
  { id := leAt img o 1, iface := leAt img (o + 1) 1, minIf := leAt img (o + 2) 1, offset := leAt img (o + 4) 4,
    length := leAt img (o + 8) 4, crc := leAt img (o + 16) 4, zero := leAt img (o + 3) 1 == 0 && leAt img (o + 20) 12 == 0 }

def fwTotal (img : List Byte) : Nat := leAt img 8 4
def fwSetVersion (img : List Byte) : Nat := leAt img 12 4
def fwSvn (img : List Byte) : Nat := leAt img 20 1

/-- Two stretches of an image do not overlap. -/
def FwComp.apart (x y : FwComp) : Bool := decide (x.offset + x.length ≤ y.offset) || decide (y.offset + y.length ≤ x.offset)

/-- Item 1 of R730. -/
def fwHeaderOk (img : List Byte) : Bool :=
  leAt img 0 4 == 0x57465A49 && leAt img 6 1 == 0x10 && fwTotal img % 4096 == 0 && decide (8192 ≤ fwTotal img) &&
    decide (fwTotal img ≤ 112 * 2 ^ 20) && leAt img 24 4 == 4 && leAt img 28 4 == 3224 && decide (leAt img 7 1 < 2) &&
    leAt img 22 2 == 0 && leAt img 80 48 == 0 && leAt img 257 3 == 0 && leAt img 3480 616 == 0

/-- Item 3 of R730. -/
def fwTableOk (img : List Byte) : Bool :=
  let cs := (List.range 4).map (fwComp img)
  ((List.range 4).all fun k =>
    let c := fwComp img k
    c.id == k + 1 && c.zero && c.offset % 4096 == 0 && decide (4096 ≤ c.offset) && decide (1 ≤ c.length) &&
      decide (c.offset + c.length ≤ fwTotal img)) &&
    ((List.range 4).all fun i => (List.range i).all fun j =>
      ((cs[i]?).bind fun x => (cs[j]?).map x.apart).getD true)

/-- Item 6 of R730: the key pair of slot KEY_SLOT, whose revocation fuse is intact (R726). -/
def fwAuthentic (img : List Byte) : Bool :=
  let slot := leAt img 256 1
  let keys := Config.firmwareKey slot
  decide (slot < 4) && !Config.keyRevoked slot && authentic (slice img 256 3224) (slice img 0 256) keys.1 keys.2

/-- The checks of R730 in their order, over the first 4,096 bytes: the ERROR code of the first that fails, or 0. `running` is
the running set version, none where no set runs. -/
def fwCheck (svnFloor : Nat) (running : Option Nat) (img : List Byte) : Nat :=
  if !fwHeaderOk img then 0x01
  else if leAt img 4 2 ≠ 0x0100 then 0x02
  else if !fwTableOk img then 0x03
  else if 63 < fwSvn img ∨ fwSvn img < svnFloor then 0x04
  else if (match running with | some v => decide (v < leAt img 16 4) | none => false) then 0x05
  else if !fwAuthentic img then 0x06
  else 0

/-- R731: DIGEST and every component CRC of a whole image. -/
def fwBodyOk (img : List Byte) : Bool :=
  (Config.sha384 (slice img 4096 (fwTotal img - 4096))).toNat == (slice img 32 48).foldl (fun n b => n * 256 + b.toNat) 0 &&
    (List.range 4).all fun k =>
      let c := fwComp img k
      crc32c (slice img c.offset c.length) == c.crc

/-- The version that FLOOR is held against while this device stages an image. -/
def State.runningSet (s : State) : Option Nat := if s.fw.recovery then none else some s.fwVersion

/-! ### Staging (R730 to R732) -/

/-- A staging starts in bank `b`; STAGE is 1 for the mailbox and 2 for a relay. -/
def State.stageStart (s : State) (b : Nat) (relay : Option (Nat × Nat)) : State :=
  let s := s.setFw { s.fw with staging := some { bank := b, relay := relay, total := 0, got := [] } }
  let s := (s.setImage b [0]).setBankState b 2
  (s.setRbit .secFwStatus 0 0 63 true).setFld .secFwStatus 0 0 57 56 (if relay.isSome then 2 else 1)

/-- A staging ends with an ERROR code: the bank becomes VALID or INVALID (R731). -/
def State.stageEnd (s : State) (b err : Nat) : State :=
  ((s.setFw { s.fw with staging := none }).setBankState b (if err = 0 then 1 else 3)).fwEnd err

/-- Bytes of a staging that continues at offset `off`: they have to follow without a gap, and the header is checked once 4,096
bytes are there. It gives the ERROR code, or none while nothing is wrong. -/
def State.stageBytes (s : State) (g : Staging) (off : Nat) (bs : List Byte) : State × Option Nat :=
  if off ≠ g.got.length then (s, some 0x09)
  else
    let got := g.got ++ bs
    let crossing := decide (g.got.length < 4096) && decide (4096 ≤ got.length)
    let err := if crossing then fwCheck s.svnFloor s.runningSet got else 0
    if err ≠ 0 then (s, some err)
    else
      let total := if 4096 ≤ got.length then fwTotal got else g.total
      if 4096 ≤ got.length ∧ total < got.length then (s, some 0x09)
      else (s.setFw { s.fw with staging := some { g with got := got, total := total } }, none)

/-- All bytes are there: DIGEST and the CRCs decide (R731). -/
def State.stageFinish (s : State) (g : Staging) : State × Nat :=
  let err := if g.got.length = fwTotal g.got ∧ 4096 ≤ g.got.length ∧ fwBodyOk g.got then 0 else 0x07
  let s := if err = 0 then s.setImage g.bank g.got else s
  (s.stageEnd g.bank err, err)

/-! ### The mailbox (R400, R401, R733) -/

/-- The mailbox return code of an ERROR code (Table 19.9). -/
def mbRet (err : Nat) : MbRet :=
  match err with
  | 0x00 => .success
  | 0x07 => .verificationFailed
  | 0x08 => .busy
  | 0x09 => .outOfOrder
  | 0x0B => .rolledBack
  | 0x0C => .internalError
  | _ => .invalidInput

/-- A mailbox command completes (R400, Table 9.2). -/
def State.mbDone (s : State) (opcode : Nat) (r : MbRet) (data : List Byte) : State :=
  (s.emit (.mailbox opcode r data)).emit (.msix 16)

/-- The mailbox takes a command while the link is up and the drover or its recovery answers; it answers Busy while the drover
restarts or an Activate FW runs, and in recovery it serves only the firmware commands (R366, R397, R729, Table 19.12a). -/
def State.mailbox (s : State) (opcode : Nat) (firmware : Bool) (k : State → State) : Out :=
  .next (
    if !s.rbit .cxlStatus 0 0 62 || !s.rbit .cxlStatus 0 0 63 then s
    else if s.fwStep = 1 ∨ s.fw.moving.any (fun m => m.asker == 1) then s.mbDone opcode .busy []
    else if s.fw.recovery && !firmware then s.mbDone opcode .unsupported []
    else k s)

/-- The first block of a transfer (R401, R733). -/
def State.transferStart (s : State) (b : Nat) (full : Bool) (bs : List Byte) : State :=
  let s := s.stageStart b none
  let g : Staging := { bank := b, relay := none, total := 0, got := [] }
  if bs.length < 4096 then (s.stageEnd b 0x01).mbDone 0x0201 .invalidInput []
  else match s.stageBytes g 0 bs with
    | (s, some e) => (s.stageEnd b e).mbDone 0x0201 (mbRet e) []
    | (s, none) =>
      if full then
        let (s, e) := s.stageFinish { g with got := bs, total := fwTotal bs }
        s.mbDone 0x0201 (mbRet e) []
      else s.mbDone 0x0201 .success []

/-- A further block of a transfer; the last one completes it. -/
def State.transferMore (s : State) (b : Nat) (last : Bool) (off : Nat) (bs : List Byte) : State :=
  match s.fw.staging with
  | none => s.mbDone 0x0201 .outOfOrder []
  | some g =>
    if g.relay.isSome ∨ g.bank ≠ b then s.mbDone 0x0201 (if s.inactive b then .busy else .invalidSlot) []
    else match s.stageBytes g off bs with
      | (s, some e) => (s.stageEnd b e).mbDone 0x0201 (mbRet e) []
      | (s, none) =>
        if last then
          let (s, e) := s.stageFinish { g with got := g.got ++ bs, total := fwTotal (g.got ++ bs) }
          s.mbDone 0x0201 (mbRet e) []
        else s.mbDone 0x0201 .success []

/-- Transfer FW in an accepting mailbox. Actions: 0 Full, 1 Initiate, 2 Continue, 3 End, 4 Abort; `off` counts units of 128
bytes. -/
def State.transfer (s : State) (slot action off : Nat) (bs : List Byte) : State :=
  let b := slot - 1
  if slot = 0 ∨ 2 < slot then s.mbDone 0x0201 .invalidSlot []
  else match action with
    | 2 => s.transferMore b false (128 * off) bs
    | 3 => s.transferMore b true (128 * off) bs
    | 4 => match s.fw.staging with
      | some g => if g.relay.isNone then (s.stageEnd g.bank 0x09).mbDone 0x0201 .success [] else s.mbDone 0x0201 .busy []
      | none => s.mbDone 0x0201 .outOfOrder []
    | a =>
      if 1 < a then s.mbDone 0x0201 .invalidInput []
      else if !s.inactive b then s.mbDone 0x0201 .invalidSlot []
      else if s.fw.staging.isSome ∨ s.fw.moving.isSome then s.mbDone 0x0201 .busy []
      else if off ≠ 0 then s.mbDone 0x0201 .outOfOrder []
      else s.transferStart b (a == 0) bs

/-- TRANSFER_FW (R401, R733). -/
def execTransferFw (slot action off : Nat) (data : List Byte) (s : State) : Out :=
  if 2 ^ 20 < data.length then .next s
  else s.mailbox 0x0201 true fun s => s.transfer slot action off data

/-! ### Relay (R734) -/

/-- A RELAY packet on a port: LL is 1, and no device, job or sequence is named (R412). -/
def relayPacket (w4 w5 w6 : Nat) (pay : List Byte) : Packet :=
  pktSigned
    { dest := 0, src := 0, cls := 1, flag := false, ll := true, op := 0x11, status := 0, len := pay.length, share := 0, hops := 0,
      jobTag := 0, seq := 0, space := 0, offset := 0, ackSeq := 0, ackV := false, epoch := 0, tag := 0, w4 := BitVec.ofNat 64 w4,
      w5 := BitVec.ofNat 64 w5, w6 := BitVec.ofNat 64 w6, rsv2 := 0, rsv7 := 0, esc := false, crc := 0, payload := pay }

/-- The words of Table 19.10. -/
def relayW4 (msg session total : Nat) : Nat := total * 2 ^ 32 + session * 2 ^ 16 + msg
def relayMsg (p : Packet) : Nat := bits p.w4.toNat 7 0
def relaySession (p : Packet) : Nat := bits p.w4.toNat 31 16
def relayTotal (p : Packet) : Nat := bits p.w4.toNat 63 32

/-- An ACK with NEXT and FREED. -/
def State.relayAck (s : State) (q session next : Nat) : State :=
  s.sendPacket q (relayPacket (relayW4 2 session 0) next ((s.port q).relFreed * 2 ^ 8) [])

/-- A RESULT. -/
def State.relayResult (s : State) (q session err : Nat) : State :=
  s.sendPacket q (relayPacket (relayW4 3 session 0) 0 err [])

/-- A DATA that no reception takes: it is acknowledged, and RESULT is BUSY (R732). -/
def State.relayNo (s : State) (q : Nat) (p : Packet) : State :=
  (s.relayAck q (relaySession p) 0).relayResult q (relaySession p) 0x08

/-- A relay buffer of a port is freed. -/
def State.relayFree (s : State) (q : Nat) : State :=
  s.modPort q fun p => { p with relFreed := (p.relFreed + 1) % 256 }

/-- The relayed image is sent as far as credits last: 512 bytes in each DATA. -/
def State.relayPump (s : State) : Nat → State
  | 0 => s
  | n + 1 =>
    match s.fw.tx with
    | none => s
    | some t =>
      let img := s.bankImage (1 - s.activeBank)
      let p := s.port t.port
      if fwTotal img ≤ t.sent ∨ 8 ≤ (p.relSent + 256 - p.relSeen) % 256 ∨ s.portState t.port ≠ 2 then s
      else
        let s := s.sendPacket t.port (relayPacket (relayW4 1 t.session (fwTotal img)) t.sent 0 (slice img t.sent 512))
        let s := s.modPort t.port fun p => { p with relSent := (p.relSent + 1) % 256 }
        (s.setFw { s.fw with tx := some { t with sent := t.sent + 512 } }).relayPump n

/-- The VALID inactive bank is relayed on OUT_PORT, unless an image is being sent. -/
def State.relayStart (s : State) : State :=
  let b := 1 - s.activeBank
  if !s.inactive b ∨ s.bankState b ≠ 1 ∨ s.fw.tx.isSome then s
  else
    let n := (s.fw.sessions + 1) % 2 ^ 16
    let s := s.setFw { s.fw with
      sessions := n, tx := some { port := s.fld .secRelayCfg 0 0 13 8, session := n, next := 0, sent := 0 } }
    (s.setRbit .secRelayStatus 0 0 62 true).relayPump 8

/-- A write of SEC_RELAY_CFG (Table 19.19). -/
def State.writeRelayCfg (s : State) (v : Nat) : State :=
  let s := s.setReg .secRelayCfg 0 0 (Reg.secRelayCfg.written (s.reg .secRelayCfg 0 0) v)
  if bit v 28 then s.relayStart else s

/-- RELAY_SEND (R734): a write of SEC_RELAY_CFG with SEND 1. -/
def execRelaySend (v : Word32) (s : State) : Out :=
  .next (s.writeRelayCfg v.toNat)

/-- A reception ends with a result. -/
def State.relayDone (s : State) (q session err : Nat) : State :=
  let s := (s.setFw { s.fw with rxLast := some (q, session) }).setRbit .secRelayStatus 0 0 63 false
  (((s.setRbit .secRelayStatus 0 0 61 true).setFld .secRelayStatus 0 0 55 48 err).relayResult q session err)

/-- NEXT of SEC_RELAY_STATUS. -/
def State.setNext (s : State) (n : Nat) : State := s.setFld .secRelayStatus 0 0 31 0 n

/-- A DATA of the running reception `g` (R730, R731, R734). -/
def State.relayTake (s : State) (q : Nat) (p : Packet) (g : Staging) : State :=
  let ss := relaySession p
  let off := p.w5.toNat
  if off ≠ g.got.length then s.relayAck q ss g.got.length
  else
    let bs := p.payload
    let fail (s : State) (e : Nat) : State := (((s.stageEnd g.bank e).relayAck q ss off).relayDone q ss e)
    match s.stageBytes g off bs with
    | (s, some e) => fail s e
    | (s, none) =>
      let got := g.got ++ bs
      let s := s.setNext got.length
      if 4096 ≤ got.length ∧ fwTotal got ≠ relayTotal p then fail s 0x01
      else if 4096 ≤ got.length ∧ got.length = fwTotal got then
        let (s, e) := s.stageFinish { g with got := got, total := fwTotal got }
        let s := (s.relayAck q ss got.length).relayDone q ss e
        if e = 0 ∧ s.rbit .secRelayCfg 0 0 30 then s.relayStart else s
      else s.relayAck q ss got.length

/-- A DATA arrives at a device that accepts relayed images. -/
def State.relayData (s : State) (q : Nat) (p : Packet) : State :=
  let key := (q, (relaySession p))
  let b := 1 - s.activeBank
  let start (s : State) : State :=
    if !s.inactive b ∨ s.fw.moving.isSome then s.relayNo q p
    else
      let s := (s.stageStart b (some key)).setNext 0
      let s := (s.setRbit .secRelayStatus 0 0 63 true).setFld .secRelayStatus 0 0 37 32 q
      s.relayTake q p { bank := b, relay := some key, total := 0, got := [] }
  match s.fw.staging with
  | some g =>
    if g.relay = some key then s.relayTake q p g
    else if p.w5.toNat ≠ 0 then s.relayAck q (relaySession p) 0
    else if g.relay.map (·.1) = some q then start (s.stageEnd g.bank 0x09)
    else s.relayNo q p
  | none =>
    if s.fw.rxLast = some key then s.relayAck q (relaySession p) (s.fld .secRelayStatus 0 0 31 0)
    else if p.w5.toNat = 0 then start s
    else s.relayAck q (relaySession p) 0

/-- A RELAY keeps the forms of R408, R412 and Table 19.10. -/
def relayWellFormed (p : Packet) : Bool :=
  !pktReserved p && p.cls == 1 && decide (p.len ≤ 512) && p.dest == 0 && p.src == 0 && p.jobTag == 0 && p.seq == 0 &&
    bits p.w4.toNat 15 8 == 0 && p.w6.toNat < 2 ^ 16

/-- A DATA arrives (R734). -/
def State.relayDataIn (s : State) (port : Nat) (p : Packet) : State :=
  let s := s.relayFree port
  if s.rbit .secRelayCfg 0 0 31 || s.fw.recovery then s.relayData port p
  else s.relayNo port p

/-- An ACK arrives (R734): FREED returns credits, and NEXT moves the sender on. -/
def State.relayAckIn (s : State) (port : Nat) (p : Packet) : State :=
  let s := s.modPort port fun x => { x with relSeen := bits p.w6.toNat 15 8 }
  match s.fw.tx with
  | some t =>
    if t.port = port ∧ t.session = relaySession p then
      (s.setFw { s.fw with tx := some { t with next := p.w5.toNat, sent := max t.sent p.w5.toNat } }).relayPump 8
    else s.relayPump 8
  | none => s

/-- A RESULT arrives (R734): the far end's result ends the sending. -/
def State.relayResultIn (s : State) (port : Nat) (p : Packet) : State :=
  match s.fw.tx with
  | some t =>
    if t.port = port ∧ t.session = relaySession p then
      let s := (s.setFw { s.fw with tx := none }).setRbit .secRelayStatus 0 0 62 false
      (s.setRbit .secRelayStatus 0 0 60 true).setFld .secRelayStatus 0 0 55 48 (bits p.w6.toNat 7 0)
    else s
  | none => s

/-- An ABORT arrives (R734): the reception of that session ends, and its bank is INVALID. -/
def State.relayAbortIn (s : State) (port : Nat) (p : Packet) : State :=
  let s := s.relayFree port
  match s.fw.staging with
  | some g =>
    if g.relay = some (port, (relaySession p)) then
      let s := (s.stageEnd g.bank 0x09).setRbit .secRelayStatus 0 0 63 false
      ((s.setFw { s.fw with rxLast := some (port, (relaySession p)) }).setRbit .secRelayStatus 0 0 61 true).setFld .secRelayStatus 0 0 55 48
        0x09
    else s
  | none => s

/-- RELAY_ACK_TIMEOUT (R734): no ACK for 1 ms; the sender sends again from NEXT. -/
def execRelayAckTimeout (s : State) : Out :=
  .next (match s.fw.tx with
    | some t =>
      let s := s.modPort t.port fun p => { p with relSent := p.relSeen }
      (s.setFw { s.fw with tx := some { t with sent := t.next } }).relayPump 8
    | none => s)

/-! ### Activation (R735 to R740) -/

/-- Two components work together (Table 19.11). -/
def FwComp.meets (x y : FwComp) : Bool := decide (y.minIf ≤ x.iface) && decide (x.minIf ≤ y.iface)

/-- The components that run together at step `k` of Table 19.12a: the new ones up to `k`, the old ones after it, and, where
the step has several units, the old one of `k` too. -/
def stepComps (old new : List Byte) (k : Nat) : List FwComp :=
  (List.range k).map (fwComp new) ++ ((List.range 4).filter fun i => decide (k ≤ i) || (decide (3 ≤ k) && i + 1 == k)).map (fwComp old)

/-- The matrix holds at every step (R737). -/
def matrixOk (old new : List Byte) : Bool :=
  (List.range 5).all fun k =>
    let cs := stepComps old new k
    cs.all fun x => cs.all fun y => x == y || x.meets y

/-- The result of an activation goes to whoever asked for it: nobody but the registers (0), the mailbox (1), or the relay of
port `q` (2 + q). -/
def State.actResult (s : State) (asker session err : Nat) : State :=
  if asker = 1 then s.mbDone 0x0202 (mbRet err) []
  else if 2 ≤ asker then s.relayResult (asker - 2) session err
  else s

/-- An activation runs from here: STEP 1, unit 0. -/
def State.actStart (s : State) (b asker session : Nat) : State :=
  let s := s.setFw { s.fw with moving := some { bank := b, back := false, asker := asker, session := session } }
  ((s.setRbit .secFwStatus 0 0 63 true).setFld .secFwStatus 0 0 55 52 1).setFld .secFwStatus 0 0 51 48 0

/-- A request is refused: the code goes to the asker and, for a register write, to SEC_FW_STATUS. -/
def State.actRefuse (s : State) (asker session err : Nat) : State :=
  let s := if asker = 0 then (s.setRbit .secFwStatus 0 0 62 true).setFld .secFwStatus 0 0 47 40 err else s
  s.actResult asker session err

/-- R736: an activation cannot be requested now. -/
def State.actBusy (s : State) : Bool :=
  s.rbit .drvFoldStatus 0 0 63 || s.rbit .drvResetStatus 0 0 63 || s.fw.moving.isSome

/-- An activation of a VALID bank is requested (R736, R737). -/
def State.activate (s : State) (b : Nat) (atReset : Bool) (asker session : Nat) : State :=
  let img := s.bankImage b
  if s.actBusy then s.actRefuse asker session 0x08
  else if atReset then (s.setFw { s.fw with boot := b }).actResult asker session 0
  else if s.fw.recovery ∨ b = s.activeBank then s.actRefuse asker session 0x08
  else if fwSvn img < s.svnFloor then s.actRefuse asker session 0x04
  else if s.fwVersion < leAt img 16 4 then s.actRefuse asker session 0x05
  else if !matrixOk (s.bankImage s.activeBank) img then s.actRefuse asker session 0x0A
  else s.actStart b asker session

/-- ACTIVATE_FW (R736). -/
def execActivateFw (slot : Nat) (atReset : Bool) (s : State) : Out :=
  s.mailbox 0x0202 true fun s =>
    if slot = 0 ∨ 2 < slot ∨ s.bankState (slot - 1) ≠ 1 then s.mbDone 0x0202 .invalidSlot []
    else s.activate (slot - 1) atReset 1 0

/-- An ACTIVATE arrives (R734, R736): the VALID inactive bank; in recovery at the next reset. -/
def State.relayActivateIn (s : State) (port : Nat) (p : Packet) : State :=
  let s := s.relayFree port
  let b := 1 - s.activeBank
  if !s.rbit .secRelayCfg 0 0 29 ∨ !s.inactive b ∨ s.bankState b ≠ 1 then s.relayResult port (relaySession p) 0x08
  else s.activate b s.fw.recovery (2 + port) (relaySession p)

/-- A link-local packet arrives on a port that is UP: one whose CRC fails is counted, a malformed one is discarded and logged (R408,
R412, R439), and every other is a RELAY message of Table 19.10. -/
def State.linkLocal (s : State) (port : Nat) (p : Packet) : State :=
  if s.portState port ≠ 2 ∨ s.inReset ∨ !(s.rbit .drvReady 0 0 62 || s.fw.recovery) ∨ s.fwStep = 1 then s
  else if !pktOk p then s.incFld .niCntA 0 0 63 32
  else
    let refused := s.niLog stRefused false p.space p.cls p.op p.src 8 p.offset
    if p.op ≠ 0x11 ∨ !relayWellFormed p then refused
    else match relayMsg p with
      | 1 => s.relayDataIn port p
      | 2 => s.relayAckIn port p
      | 3 => s.relayResultIn port p
      | 4 => s.relayActivateIn port p
      | 5 => s.relayAbortIn port p
      | _ => refused

/-- A RELAY command names a link-local RELAY packet with the message of its row. -/
def relayIn (port msg : Nat) (p : Packet) (s : State) : Out :=
  if p.op = 0x11 ∧ p.ll ∧ relayMsg p = msg ∧ p.payload.length = p.len then inRange port 64 s fun s => s.linkLocal port p
  else .next s

/-- RELAY_DATA (R734). -/
def execRelayData (port : Nat) (p : Packet) (s : State) : Out := relayIn port 1 p s

/-- RELAY_ACK (R734). -/
def execRelayAck (port : Nat) (p : Packet) (s : State) : Out := relayIn port 2 p s

/-- RELAY_RESULT (R734). -/
def execRelayResult (port : Nat) (p : Packet) (s : State) : Out := relayIn port 3 p s

/-- RELAY_ABORT (R734). -/
def execRelayAbort (port : Nat) (p : Packet) (s : State) : Out := relayIn port 5 p s

/-- RELAY_ACTIVATE (R734, R736). -/
def execRelayActivate (port : Nat) (p : Packet) (s : State) : Out := relayIn port 4 p s

/-- COMMIT (R739). -/
def State.commitFw (s : State) : State :=
  if !s.trial then s
  else
    let img := s.bankImage s.activeBank
    let s := s.setRbit .secFwStatus 0 0 59 false
    if bit (leAt img 7 1) 0 then s.setFld .secPolicy 0 0 5 0 (max s.svnFloor (fwSvn img)) else s

/-- A write of SEC_FW_CTRL (Table 19.14). -/
def State.writeFwCtrl (s : State) (v : Nat) : State :=
  let s := s.setReg .secFwCtrl 0 0 (Reg.secFwCtrl.written (s.reg .secFwCtrl 0 0) v)
  let s := if bit v 31 then s.commitFw else s
  let b := bits v 29 29
  if bit v 30 && s.bankState b == 1 then s.activate b (bit v 28) 0 0 else s

/-- FW_COMMIT (R739): a write of SEC_FW_CTRL with COMMIT alone. -/
def execFwCommit (s : State) : Out := .next (s.writeFwCtrl (2 ^ 31 + s.reg .secFwCtrl 0 0 % 2 ^ 30))

/-- FW_ACTIVATE_ONLINE (R736, R737): a write of SEC_FW_CTRL with ACTIVATE 1 and AT_RESET 0. -/
def execFwActivateOnline (v : Word32) (s : State) : Out :=
  .next (s.writeFwCtrl v.toNat)

/-- FW_ACTIVATE_AT_RESET (R736): a write of SEC_FW_CTRL with ACTIVATE 1 and AT_RESET 1. -/
def execFwActivateAtReset (v : Word32) (s : State) : Out :=
  .next (s.writeFwCtrl v.toNat)

/-- The unit after a step and unit in the order of Table 19.12a; none after the last. -/
def nextUnit (step unit : Nat) : Option (Nat × Nat) :=
  match step with
  | 1 => some (2, 0)
  | 2 => some (3, 0)
  | 3 => if unit < 15 then some (3, unit + 1) else some (4, 0)
  | _ => if unit < 11 then some (4, unit + 1) else none

/-- The unit before one; none before the first. -/
def prevUnit (step unit : Nat) : Option (Nat × Nat) :=
  match step with
  | 1 => none
  | 2 => some (1, 0)
  | 3 => if 0 < unit then some (3, unit - 1) else some (2, 0)
  | _ => if 0 < unit then some (4, unit - 1) else some (3, 15)

/-- What waited for the unit that has restarted is done (Table 19.12a). -/
def State.leaveUnit (s : State) (step : Nat) : State :=
  if step = 1 then
    let es := s.fw.events
    es.foldl State.record (s.setFw { s.fw with events := [] })
  else if step = 3 then s.runFails
  else s

/-- STEP and UNIT move on. -/
def State.toUnit (s : State) (old : Nat) (x : Nat × Nat) : State :=
  ((s.setFld .secFwStatus 0 0 55 52 x.1).setFld .secFwStatus 0 0 51 48 x.2).leaveUnit old

/-- An activation ends. -/
def State.actEnd (s : State) (m : Moving) (old err : Nat) : State :=
  let s := s.setFw { s.fw with moving := none }
  let s := ((s.toUnit old (0, 0)).fwEnd err)
  let s := if err = 0 then
      let was := s.activeBank
      let s := s.setFw { s.fw with boot := m.bank, prev := was }
      ((s.setRbit .secFwStatus 0 0 59 true).setFld .secFwStatus 0 0 60 60 m.bank).setFld .secFwStatus 0 0 31 0
        (fwSetVersion (s.bankImage m.bank))
    else s.setRbit .secFwStatus 0 0 58 true
  s.actResult m.asker m.session err

/-- UNIT_RESTART_COMPLETE (R737, R738): the unit that restarts has passed or failed its self-test. A peat unit first finishes the
descriptors that it had admitted. After a failure that unit and every unit already moved restart from the bank that they left. -/
def execUnitRestartComplete (passed : Bool) (s : State) : Out :=
  .next (match s.fw.moving with
    | none => s
    | some m =>
      let step := s.fwStep
      let unit := s.fwUnit
      if step = 4 ∧ s.peat.any fun j => j.f / 56 == unit then s
      else if m.back then
        match prevUnit step unit with
        | some x => s.toUnit step x
        | none => s.actEnd m step 0x0B
      else if passed then
        match nextUnit step unit with
        | some x => s.toUnit step x
        | none => s.actEnd m step 0
      else s.setFw { s.fw with moving := some { m with back := true } })

/-! ### Boot (R688, R723, R729, R739) -/

/-- A bank that the boot ROM accepts: the checks of R730 with the set's own version as the running one, DIGEST and CRCs. -/
def State.bootOk (s : State) (b : Nat) : Bool :=
  let img := s.bankImage b
  s.bankState b == 1 && fwCheck s.svnFloor (some (fwSetVersion img)) img == 0 && fwBodyOk img

/-- A staging that a device reset ended leaves its bank INVALID. -/
def State.dropStaged (s : State) : State :=
  [0, 1].foldl (fun s b => if s.bankState b = 2 then s.setBankState b 3 else s) s

/-- NEXT of SEC_LMS moves to `n`, with LOW and EXHAUSTED (Table 19.18). -/
def State.setLms (s : State) (n : Nat) : State :=
  ((s.setFld .secLms 0 0 25 0 n).setRbit .secLms 0 0 62 (decide (2 ^ 25 - n < 2 ^ 20))).setRbit .secLms 0 0 63 (decide (2 ^ 25 ≤ n))

/-- The drover is ready with the set of bank `b`: it applies the retirement record, after which the spare maps are those of R251
with MAP 0 (Table 6.17), and continues at the next block of indices. -/
def State.bootFrom (s : State) (b : Nat) : State :=
  let s := (s.setFld .secFwStatus 0 0 60 60 b).setFld .secFwStatus 0 0 31 0 (fwSetVersion (s.bankImage b))
  let s := s.nor.foldl (fun s x => s.setCbit .flkPhysGoodLo .flkPhysGoodHi x.1 x.2 false) s
  let s := (s.nor.map (·.1)).dedup.foldl (fun s f => s.applyMap f (s.mapFor f [])) s
  let s := s.setLms s.fw.lmsEnd
  (s.setRbit .drvReady 0 0 62 true).cxlUp

/-- DROVER_BOOT (R729): the boot ROM verifies the bank that the boot record names, then the other, or enters recovery. -/
def execDroverBoot (s : State) : Out :=
  .next (
    if s.inReset || s.rbit .drvReady 0 0 62 || s.fw.recovery then s
    else
      let s := s.dropStaged
      let s := if s.trial then (s.setFw { s.fw with boot := s.fw.prev }).setRbit .secFwStatus 0 0 59 false else s
      let b := s.fw.boot
      if s.bootOk b then s.bootFrom b
      else if s.bootOk (1 - b) then s.bootFrom (1 - b)
      else (s.setFw { s.fw with recovery := true }).cxlUp)

/-! ### Fold image policy (R741, R742) -/

/-- A change of the key or of FOLD_SIGNED is allowed. -/
def State.policyOpen (s : State) : Bool := !s.rbit .drvSelf 0 0 30 && !s.rbit .secPolicy 0 0 31

/-- REFUSED of SEC_FW_STATUS is set. -/
def State.fwRefuse (s : State) : State := s.setRbit .secFwStatus 0 0 61 true

/-- A write of SEC_FOLD_KEY (R742). -/
def State.writeFoldKey (s : State) (v : Nat) : State :=
  let s := s.setFld .secFoldKey 0 0 47 0 (bits v 47 0)
  if !bit v 63 && !bit v 62 then s
  else if !s.policyOpen then s.fwRefuse
  else
    let s := if bit v 62 then (s.setFw { s.fw with foldKey := [], enrol := none }).setRbit .secPolicy 0 0 29 false else s
    if bit v 63 then
      (if bits v 5 0 = 0 ∧ memOf (bits v 47 0) 160 = some .stacked then s.runEnrol (bits v 47 0) else s.fwRefuse)
    else s

/-- FOLD_KEY_ENROL (R742): a write of SEC_FOLD_KEY with ENROL 1. -/
def execFoldKeyEnrol (v : Word64) (s : State) : Out :=
  .next (s.writeFoldKey v.toNat)

/-- FOLD_KEY_CLEAR (R742): a write of SEC_FOLD_KEY with CLEAR 1. -/
def execFoldKeyClear (v : Word64) (s : State) : Out :=
  .next (s.writeFoldKey v.toNat)

/-- A write of SEC_POLICY (R742): FOLD_SIGNED changes under the conditions of R742, and LOCK is set by a 1. -/
def State.writePolicy (s : State) (v : Nat) : State :=
  let s' := if bit v 30 = s.rbit .secPolicy 0 0 30 then s
    else if s.policyOpen then s.setRbit .secPolicy 0 0 30 (bit v 30)
    else s.fwRefuse
  if bit v 31 then s'.setRbit .secPolicy 0 0 31 true else s'

/-- POLICY_WRITE (R742). -/
def execPolicyWrite (v : Word32) (s : State) : Out := .next (s.writePolicy v.toNat)

end Sys2Proof.Machine
end

