-- ==== Sys2Proof/Machine/Codeword.lean ====
section
/-! DEFINITION. Received codewords (R597 to R600, R420): correction, the flits and packets in them, and control codewords. -/

namespace Sys2Proof.Machine

/-- Packets whose last flit has come reach their slice, or the drover (R412, R420). -/
def State.takePackets (s : State) (q : Nat) (ps : List (Packet × Bool)) : State :=
  ps.foldl (fun s x => if x.1.ll && !x.2 then s.linkLocal q x.1 else s.portArrival q x.1 x.2) s

/-- The data of a flit codeword, whose bytes the decoder could correct or not (R599, R600). -/
def State.takeFlitWord (s : State) (q : Nat) (bs : List Byte) (bad : Bool) : State :=
  let all := (s.port q).rxBytes ++ bs.map fun b => (b, bad)
  let r := takeFlits (all.length / 64 + 1) all
  (s.modPort q fun p => { p with rxBytes := r.2 }).takePackets q r.1

/-- The symbols that were corrected count on their port and on their wavelengths (R614, Table 15.14). -/
def State.countCorrected (s : State) (q : Nat) (js : List Nat) (errs : List Nat) : State :=
  let s := s.addFld .hthPortCnt (q / 4) (q % 4) 63 32 errs.length
  s.modPort q fun p => { p with
    corr := errs.foldl (fun m j => Sparse.upd 0 m (s.slotWl q true (js.getD (j % js.length) 0)) (· + 1)) p.corr }

/-- CODEWORD_DECODE (R597 to R600): the symbols of a codeword arrive on the active receive slots, which `slots` lists in ascending
order. The first codeword of every 20 is the control codeword. -/
def execCodewordDecode (port : Nat) (slots : List Nat) (lanes : List (List (BitVec 10))) (s : State) : Out :=
  inRange port 64 s fun s =>
    let js := s.slots port true
    if s.portState port ≠ 2 ∨ slots ≠ js ∨ lanes.length ≠ js.length ∨ js = [] then s
    else
      let word := offSlots (lanes.map fun l => l.map BitVec.toNat)
      let pos := (s.port port).rxPos
      let s := s.rxStep port pos
      match rsDecode word with
      | none =>
        let s := s.incFld .hthPortCnt (port / 4) (port % 4) 31 0
        if pos = 0 then s else s.takeFlitWord port (rsBytes word) true
      | some (c, errs) =>
        let s := s.countCorrected port js errs
        let bs := rsBytes c
        if pos ≠ 0 then s.takeFlitWord port bs false
        else if controlOk bs then s.takeControl port (controlOf bs)
        else s

end Sys2Proof.Machine
end

