-- ==== Sys2Proof/Machine/Manage.lean ====
section
/-! DEFINITION. The rest of the mailbox (R400), MCTP and PLDM (R402, R683). Bodies whose layout a published standard gives come
from `Config.standardReply` (log entry 1). -/

namespace Sys2Proof.Machine

/-! ### Mailbox commands (Table 9.9) -/

/-- GET_EVENT_RECORDS: the CXL fault log while it holds an event; a record holds a zero timestamp, CXL_FAULT_INFO and
CXL_FAULT_ADDR. -/
def execGetEventRecords (s : State) : Out :=
  s.mailbox 0x0100 false fun s =>
    let body := if s.rbit .cxlFaultInfo 0 0 63 then leBytes 8 0 ++ leBytes 8 (s.reg .cxlFaultInfo 0 0) ++ leBytes 8 (s.reg .cxlFaultAddr 0 0) else []
    s.mbDone 0x0100 .success (Config.standardReply "Get Event Records" body)

/-- CLEAR_EVENT_RECORDS: the log may take another event. -/
def execClearEventRecords (s : State) : Out :=
  s.mailbox 0x0101 false fun s => ((s.setRbit .cxlFaultInfo 0 0 63 false).setRbit .cxlFaultInfo 0 0 62 false).mbDone 0x0101 .success []

/-- GET_EVENT_INTERRUPT_POLICY. -/
def execGetEventInterruptPolicy (s : State) : Out := s.mailbox 0x0102 false fun s => s.mbDone 0x0102 .success [s.policy]

/-- SET_EVENT_INTERRUPT_POLICY. -/
def execSetEventInterruptPolicy (v : Byte) (s : State) : Out :=
  s.mailbox 0x0103 false fun s => State.mbDone { s with policy := v } 0x0103 .success []

/-- GET_FW_INFO: the banks and the running set. -/
def execGetFwInfo (s : State) : Out :=
  s.mailbox 0x0200 true fun s =>
    let body := leBytes 8 (s.live .secBank 0 0) ++ leBytes 8 (s.live .secBank 0 1) ++ leBytes 8 (s.reg .secFwStatus 0 0)
    s.mbDone 0x0200 .success (Config.standardReply "Get FW Info" body)

/-- GET_SUPPORTED_LOGS. -/
def execGetSupportedLogs (s : State) : Out :=
  s.mailbox 0x0400 false fun s => s.mbDone 0x0400 .success (Config.standardReply "Get Supported Logs" [])

/-- GET_LOG: the Command Effects Log is the only log (Table 9.9). The return code for another identifier is CXL 3.1's (PRESUMED, log
entry 12). -/
def execGetLog (req : List Byte) (s : State) : Out :=
  s.mailbox 0x0401 false fun s =>
    if req.take 16 = Config.effectsLogId then s.mbDone 0x0401 .success (Config.standardReply "Get Log" req)
    else s.mbDone 0x0401 .invalidInput []

/-- The opcodes of Table 9.9 that the mailbox implements; the timestamp commands are Unsupported. -/
def mailboxOpcodes : List Nat := [0x0100, 0x0101, 0x0102, 0x0103, 0x0200, 0x0201, 0x0202, 0x0400, 0x0401]

/-- MAILBOX_UNSUPPORTED: every other opcode. -/
def execMailboxUnsupported (opcode : Nat) (s : State) : Out :=
  if mailboxOpcodes.contains opcode then .next s
  else s.mailbox opcode false fun s => s.mbDone opcode .unsupported []

/-! ### MCTP and PLDM (R402) -/

/-- The drover's management firmware answers: the link is up, and the drover is ready and not restarting. -/
def State.managed (s : State) : Bool := s.rbit .cxlStatus 0 0 62 && s.rbit .drvReady 0 0 62 && s.fwStep != 1

/-- MCTP_SET_ENDPOINT_ID (R402). -/
def execMctpSetEndpointId (eid : Byte) (s : State) : Out :=
  .next (if s.managed then State.emit { s with eid := eid } (.mctp (Config.standardReply "Set Endpoint ID" [eid])) else s)

/-- What the Type 2 sensors show (R402): package power, the modelled temperatures of the stacks and pastures, the hearths. -/
def State.sensorBytes (s : State) : List Byte :=
  leBytes 8 (s.reg .thmPower 0 0) ++ (List.range 12).flatMap (fun i => leBytes 8 (s.reg .thmStk 0 i) ++ leBytes 8 (s.reg .thmPas 0 i)) ++
    (List.range 16).flatMap fun h => leBytes 8 (s.reg .hthStatus h 0)

/-- PLDM_REQUEST (R402, R683): Types 0 and 2 are answered. SetEventReceiver, Type 2 command 0x04, sets or clears the event receiver
(PRESUMED, log entry 12). -/
def execPldmRequest (req : List Byte) (s : State) : Out :=
  .next (
    let type := bits (leAt req 1 1) 5 0
    if !s.managed || decide (req.length < 3) || !(type == 0 || type == 2) then s
    else
      let s := if type = 2 ∧ leAt req 2 1 = 4 then { s with evtRecv := leAt req 3 1 != 0 } else s
      s.emit (.mctp (Config.standardReply "PLDM" (req ++ s.sensorBytes))))

end Sys2Proof.Machine
end

