-- ==== Sys2Proof/Machine/NiCmd.lean ====
section
/-! DEFINITION. The NI's commands that end an operation at its issuer (R440 to R446, R453): what waited for that operation goes
on in the same step. -/

namespace Sys2Proof.Machine

/-- NI_PACKET_SEND (R421, R431 to R440): the first request of a share that can be sent, in its issuers' turns. -/
def execNiPacketSend (share : Nat) (s : State) : Out :=
  inRange share 12 s fun s => if s.niUp then (s.sendNext share).goOn else s

/-- RESPONSE (R443, R452, R453). -/
def execResponse (p : Packet) (s : State) : Out :=
  onPacket 0x20 p s fun s => (s.arriveRsp p fun s => s.takeResponse p).goOn

/-- RESEND_INTERVAL_EXPIRY (R440, R494). -/
def execResendIntervalExpiry (tag : Nat) (s : State) : Out := .next (s.resendExpiry tag).goOn

/-- DEFERRED_BACKOFF_EXPIRY (R442). -/
def execDeferredBackoffExpiry (tag : Nat) (s : State) : Out := .next (s.backoffExpiry tag).goOn

/-- TAG_DEADLINE_EXPIRY (R442). -/
def execTagDeadlineExpiry (tag : Nat) (s : State) : Out := .next (s.tagDeadline tag).goOn

/-- NI_PAIR_RESET (R446, R493). -/
def execNiPairReset (v : Word64) (s : State) : Out := .next (s.pairReset v.toNat).goOn

end Sys2Proof.Machine
end

