-- ==== Sys2Proof/Machine/CxlConfig.lean ====
section
/-! DEFINITION. The configuration space of the device as the host reads it (R365, R369, R398): the header, the BARs, the capabilities
and the DVSECs. No command of the table reads it; every part follows the state or is fixed. -/

namespace Sys2Proof.Machine

/-- Vendor ID, Device ID, class code, functions, and the number of MSI-X vectors (Tables 9.1 and 9.2). -/
structure ConfigHeader where
  vendor    : Nat
  device    : Nat
  classCode : Nat
  functions : Nat
  vectors   : Nat
deriving DecidableEq, Repr

def configHeader : ConfigHeader := { vendor := 0x1A70, device := 0x0C12, classCode := 0x120000, functions := 1, vectors := 17 }

/-- A base address register: its number, the bytes of its window, and whether it is prefetchable; all are 64 bits wide. -/
structure Bar where
  number       : Nat
  bytes        : Nat
  prefetchable : Bool
deriving DecidableEq, Repr

def bars : List Bar := [{ number := 0, bytes := 2 ^ 30, prefetchable := false }, { number := 2, bytes := 2 ^ 17, prefetchable := false }]

/-- The local address that an offset of BAR0 reaches (Table 9.2). -/
def bar0Address (x : Nat) : Nat := 0x030000000000 + x

/-- The capabilities of Table 9.2; a DVSEC by its vendor (none for CXL's) and ID. -/
inductive Capability where
  | pciExpress
  | msix
  | aer
  | doe
  | dvsec (vendor : Option Nat) (id : Nat)
deriving DecidableEq, Repr

def capabilities : List Capability :=
  [.pciExpress, .msix, .aer, .doe, .dvsec none 0x0000, .dvsec none 0x0007, .dvsec none 0x0008, .dvsec (some 0x1A70) 0x0001]

/-- The CXL Devices DVSEC (Table 9.3). -/
structure CxlDvsec where
  cacheCapable  : Bool
  ioCapable     : Bool
  memCapable    : Bool
  hdmCount      : Nat
  multiLogical  : Bool
  viralCapable  : Bool
  memHwInit     : Bool
  range1Size    : Nat
  memInfoValid  : Bool
  memActive     : Bool
deriving DecidableEq, Repr

/-- Range 1 Size, in GiB, takes a change of CXL_HDM.SIZE at the next link-down (R398). -/
def State.cxlDvsec (s : State) : CxlDvsec :=
  { cacheCapable := true, ioCapable := true, memCapable := true, hdmCount := 1, multiLogical := false, viralCapable := false,
    memHwInit := false, range1Size := s.range, memInfoValid := s.rbit .cxlStatus 0 0 63, memActive := s.rbit .cxlStatus 0 0 57 }

/-- The Flex Bus Port DVSEC: Cache, IO, Mem, 256-byte flit and latency-optimised flit capable (Table 9.3). -/
def flexBusCapable : List Bool := [true, true, true, true, false]

/-- The Register Locator: the BAR2 offsets of the component and of the device registers (Table 9.3). -/
def registerLocator : Nat × Nat := (0x00000, 0x10000)

/-- The bytes of the Izlogus DVSEC from offset 0x0C on: DRV_PART_ID, DRV_SELF and the size of the register window in MiB. -/
def State.izlogusDvsec (s : State) : List Byte :=
  leBytes 8 (s.live .drvPartId 0 0) ++ leBytes 8 (s.live .drvSelf 0 0) ++ leBytes 4 1024

end Sys2Proof.Machine
end

