-- ==== Sys2Proof/Machine/Spdm.lean ====
section
/-! DEFINITION. SPDM attestation (R717 to R724). The drover answers over DOE and over MCTP; each transport is one connection.
Response layouts are those of SPDM (`Config.standardReply`); the values that the spec gives are among the bytes they are made
from. -/

namespace Sys2Proof.Machine

/-- The key of a connection. -/
def transportKey (t : Transport) : Nat := match t with
  | .doe => 0
  | .mctp => 1

def State.conn (s : State) (t : Transport) : Conn := Sparse.get Conn.fresh s.conns (transportKey t)
def State.setConn (s : State) (t : Transport) (k : Conn) : State :=
  { s with conns := Sparse.set Conn.fresh s.conns (transportKey t) k }

/-- A request that the responder takes; it answers nothing while the drover is not ready (R729, Table 19.12a). -/
def State.spdm (s : State) (k : State → State) : Out := .next (if s.managed then k s else s)

/-- A response made from the request and the device's values. -/
def State.reply (s : State) (t : Transport) (name : String) (bs : List Byte) : State :=
  s.emit (.spdm t (Config.standardReply name bs))

/-! ### What is measured (Tables 19.3 and 19.5) -/

/-- The bytes of a digest, most significant first (R715). -/
def digestBytes (bs : List Byte) : List Byte := (leBytes 48 (Config.sha384 bs).toNat).reverse

/-- The identity table (R714). -/
def identityTable : List Byte := (List.range 234).flatMap fun i => leBytes 8 (idLo i) ++ leBytes 8 (idHi i)

/-- Four uppercase hexadecimal digits of two bytes. -/
def hexGroup (bs : List Byte) : List Byte :=
  bs.flatMap fun b => [b.toNat / 16, b.toNat % 16].map fun d => BitVec.ofNat 8 (if d < 10 then 48 + d else 55 + d)

/-- The subject serialNumber of the device certificate (R717): "GQ12", then the first 16 bytes of the identity table's digest in eight
groups, a hyphen before each. -/
def deviceSerial : List Byte :=
  [0x47, 0x51, 0x31, 0x32] ++ (List.range 8).flatMap fun i => 0x2D :: hexGroup (slice (digestBytes identityTable) (2 * i) 2)

/-- The certificate chain (R717). -/
def certificateChain : List Byte := Config.certificateChain deviceSerial

/-- Bytes 0 to 111 of the LMS key certificate, and the whole of it (Table 19.3). -/
def lmsCertBody : List Byte := digestBytes identityTable ++ slice Config.lmsPublic 0 60 ++ leBytes 4 0
def lmsCertificate : List Byte := lmsCertBody ++ slice (Config.izlogusSign lmsCertBody) 0 3124

/-- The bank whose component `k` (0 to 3) runs: the new one once an activation has passed its step. -/
def State.runBank (s : State) (k : Nat) : Nat :=
  match s.fw.moving with
  | some m => if k + 1 < s.fwStep then m.bank else s.activeBank
  | none => s.activeBank

/-- The bytes of running component `k`. -/
def State.runComponent (s : State) (k : Nat) : List Byte :=
  let img := s.bankImage (s.runBank k)
  slice img (fwComp img k).offset (fwComp img k).length

/-- The eight measurements of Table 19.5. -/
def State.measurements (s : State) : List Byte :=
  digestBytes Config.bootRom ++ (List.range 4).flatMap (fun k => digestBytes (s.runComponent k)) ++
    (match s.fold with
      | some x => digestBytes x.header
      | none => List.replicate 48 0) ++
    digestBytes identityTable ++ digestBytes lmsCertificate

/-! ### Requests (Table 19.4) -/

/-- GET_VERSION. -/
def execGetVersion (t : Transport) (req : List Byte) (s : State) : Out := s.spdm fun s => s.reply t "VERSION" req

/-- GET_CAPABILITIES. -/
def execGetCapabilities (t : Transport) (req : List Byte) (s : State) : Out := s.spdm fun s => s.reply t "CAPABILITIES" req

/-- NEGOTIATE_ALGORITHMS. -/
def execNegotiateAlgorithms (t : Transport) (req : List Byte) (s : State) : Out := s.spdm fun s => s.reply t "ALGORITHMS" req

/-- GET_DIGESTS: the digest of the chain in slot 0. -/
def execGetDigests (t : Transport) (req : List Byte) (s : State) : Out :=
  s.spdm fun s => s.reply t "DIGESTS" (req ++ digestBytes certificateChain)

/-- GET_CERTIFICATE (R717). -/
def execGetCertificate (t : Transport) (req : List Byte) (s : State) : Out :=
  s.spdm fun s => s.reply t "CERTIFICATE" (req ++ certificateChain)

/-- A signed response: a new transcript with a nonce replaces the stored one (R721, R722), and the device identity key signs it. -/
def State.signed (s : State) (t : Transport) (name : String) (bs : List Byte) : State :=
  let nonce := leBytes 8 s.freeVal.toNat
  let script := Config.standardReply (name ++ " transcript") (bs ++ nonce)
  let s := s.bump.setConn t { s.conn t with transcript := some script, sig := none }
  s.reply t name (bs ++ nonce ++ Config.deviceSign script)

/-- CHALLENGE (R719, R721). -/
def execChallenge (t : Transport) (req : List Byte) (s : State) : Out := s.spdm fun s => s.signed t "CHALLENGE_AUTH" req

/-- GET_MEASUREMENTS (R720, R721). -/
def execGetMeasurements (t : Transport) (signed : Bool) (req : List Byte) (s : State) : Out :=
  s.spdm fun s =>
    if signed then s.signed t "MEASUREMENTS" (req ++ s.measurements) else s.reply t "MEASUREMENTS" (req ++ s.measurements)

/-- KEY_EXCHANGE: a session opens. -/
def execKeyExchange (t : Transport) (req : List Byte) (s : State) : Out :=
  s.spdm fun s => (s.setConn t { s.conn t with session := 1 }).reply t "KEY_EXCHANGE_RSP" req

/-- The IDE keys that the host programs in a secured session, if any, start IDE (R399, Table 19.4). No row of the table is an IDE_KM
message, so the FINISH that completes the session carries the keys (DESIGN CHOICE, log entry 44). -/
def State.programIde (s : State) (keys : List Byte) : State :=
  if keys = [] then s else ({ s with ideKeys := keys } : State).setRbit .cxlStatus 0 0 59 true

/-- FINISH: an opened session is complete. -/
def execFinish (t : Transport) (req : FinishReq) (s : State) : Out :=
  s.spdm fun s =>
    if (s.conn t).session = 1 then ((s.setConn t { s.conn t with session := 2 }).programIde req.keys).reply t "FINISH_RSP" req.bytes
    else s.reply t "ERROR" req.bytes

/-- END_SESSION. -/
def execEndSession (t : Transport) (req : List Byte) (s : State) : Out :=
  s.spdm fun s =>
    if (s.conn t).session = 0 then s.reply t "ERROR" req
    else (s.setConn t { s.conn t with session := 0 }).reply t "END_SESSION_ACK" req

/-! ### The LMS extension (R721 to R724) -/

/-- GET_LMS_CERT: up to 1,024 bytes from an offset. -/
def execGetLmsCert (t : Transport) (off : Nat) (s : State) : Out :=
  s.spdm fun s => s.reply t "VENDOR_DEFINED_RESPONSE" (0 :: (lmsCertificate.drop off).take 1024)

/-- A transcript is signed with the next index; the index lies in a block that has been reserved (R723). -/
def State.lmsSign (s : State) (t : Transport) (script : List Byte) : State :=
  let n := s.fld .secLms 0 0 25 0
  let s := if s.fw.lmsEnd ≤ n then s.setFw { s.fw with lmsEnd := n + 1024 } else s
  (s.setConn t { s.conn t with sig := some (n, Config.lmsSign n script) }).setLms (n + 1)

/-- The status byte, the leaf index and the signature that are stored. -/
def State.lmsAnswer (s : State) (t : Transport) : State :=
  match (s.conn t).sig with
  | some (n, sig) => s.reply t "VENDOR_DEFINED_RESPONSE" (0 :: leBytes 4 n ++ sig)
  | none => s

/-- GET_LMS_SIG: NO_TRANSCRIPT, the stored signature, EXHAUSTED, or a new signature. -/
def execGetLmsSig (t : Transport) (s : State) : Out :=
  s.spdm fun s =>
    match (s.conn t).transcript with
    | none => s.reply t "VENDOR_DEFINED_RESPONSE" [1]
    | some script =>
      if (s.conn t).sig.isSome then s.lmsAnswer t
      else if 2 ^ 25 ≤ s.fld .secLms 0 0 25 0 then s.reply t "VENDOR_DEFINED_RESPONSE" [2]
      else (s.lmsSign t script).lmsAnswer t

end Sys2Proof.Machine
end

