-- ==== Sys2Proof/Machine/RegWrite.lean ====
section
/-! DEFINITION. Register accesses by the host and the drover (R2 to R7, R28, R370, R774, R778): the action of every register
that has one, and the access codes of every field. -/

namespace Sys2Proof.Machine

/-- The state that a command leaves; one that is refused leaves it as it was. -/
def State.after (s : State) (o : Out) : State := match o with
  | .next t => t
  | _ => s

/-- A plain write (R4). -/
def State.plainWrite (s : State) (r : Reg) (i j v : Nat) : State := s.setReg r i j (r.written (s.reg r i j) v)

/-- Bits written 1 in FLK_CORE_HALT or FLK_CORE_DONE (R169, R234); `base` is the core of bit 0. -/
def State.coreBits (s : State) (lo hi : Reg) (f base n v : Nat) : State :=
  ((List.range n).filter (bit v)).foldl (fun s b => s.restartBit lo hi f (base + b)) s

/-- A write of KLN_CTRL (Table 13.13). -/
def State.writeKlnCtrl (s : State) (v : Nat) : State :=
  let w := BitVec.ofNat 64 v
  match bits v 9 8 with
  | 1 => s.after (execKlnCtrlAbort w s)
  | 2 => s.after (execKlnCtrlReset w s)
  | _ => s

/-- A write of HTH_PORT_CTRL of port `q` (Table 15.12). -/
def State.writePortCtrl (s : State) (q v : Nat) : State :=
  let was := s.rbit .hthPortCtrl (q / 4) (q % 4) 1
  if bit v 1 then (if was then s else s.after (execPortDisable q s))
  else
    let s := if was then s.after (execPortEnable q s) else s
    if bit v 0 then s.after (execPortRetrainWrite q s) else s

/-- A write of a base register of queue pair `q` (R390). -/
def State.writeBase (s : State) (r : Reg) (q v : Nat) : State := if s.queState q = 0 then s.plainWrite r 0 q v else s

/-- A write of a register by the host or the drover: the action that its chapter gives it, or its fields' access codes. -/
def State.writeReg (s : State) (o : Origin) (r : Reg) (i j v : Nat) : State :=
  match r with
  | .drvFoldCtrl => s.writeFoldCtrl v
  | .drvRankWrite => s.writeRank v
  | .drvResetCtrl => s.writeResetCtrl v
  | .drvEvtStatus => if bit v 0 then s.after (execEventPop s) else s
  | .drvRetire => s.after (execDrvRetire (BitVec.ofNat 32 v) s)
  | .drvDeclare => s.after (execDrvDeclare (BitVec.ofNat 32 v) s)
  | .drvShadowCtrl => s.shadowWrite v
  | .thmCfg => s.writeThmCfg v
  | .secFwCtrl => s.writeFwCtrl v
  | .secPolicy => s.writePolicy v
  | .secFoldKey => s.writeFoldKey v
  | .secRelayCfg => s.writeRelayCfg v
  | .cxlHdm => if 1536 < bits v 10 0 then s else s.plainWrite r i j v
  | .cxlQsqBase => s.writeBase r j v
  | .cxlQcqBase => s.writeBase r j v
  | .cxlQctrl => s.writeQueue j v
  | .cxlQsqDb => s.ringSq j v
  | .cxlQcqDb => s.ringCq j v
  | .niPairReset => s.after (execNiPairReset (BitVec.ofNat 64 v) s)
  | .klnSubmit => s.after (execKlnSubmit o (BitVec.ofNat 64 v) s)
  | .klnGradSubmit => s.submitBy o { addr := bits v 47 0, grad := true }
  | .klnCtrl => s.writeKlnCtrl v
  | .hthPortCtrl => s.writePortCtrl (4 * i + j) v
  | .flkCoreHaltLo => s.coreBits .flkCoreHaltLo .flkCoreHaltHi i 0 64 v
  | .flkCoreHaltHi => s.coreBits .flkCoreHaltLo .flkCoreHaltHi i 64 56 v
  | .flkCoreDoneLo => s.coreBits .flkCoreDoneLo .flkCoreDoneHi i 0 64 v
  | .flkCoreDoneHi => s.coreBits .flkCoreDoneLo .flkCoreDoneHi i 64 56 v
  | .stkCtrl => if bit v 0 then s.after (execWipe i s) else s
  | _ => s.plainWrite r i j v

/-- The log of the path of a failed access: the host's is the CXL fault log with PATH 0x0; the drover and the fabric have none (R778). -/
def State.pathLog (s : State) (o : Origin) (a st : Nat) : State :=
  if o = .host then s.cxlLog a st 0x0 0 0 else s

/-- A failed access is logged by its path and by the owning block (R3, R778). -/
def State.regFault (s : State) (o : Origin) (a : Nat) : State := (s.pathLog o a stAddressFault).ownerLog o a stAddressFault

/-- What the writer hears of a failed write: the drover's firmware receives the status; a write of the host is posted (R3, R778). -/
def State.writeFailed (s : State) (o : Origin) (a st : Nat) : State :=
  if o = .drover then s.emit (.regDone o a st 0) else s

/-- A register access (R2, R3, R370): a write when `wr` holds the value, else a read, whose value or failure goes back. The fabric
stands for another device here, none of whose writes a register takes (R33); what this device's own packets may write they write
by WRITE. -/
def State.access (s : State) (o : Origin) (a width : Nat) (wr : Option Nat) : State :=
  match regTarget a width, wr with
  | some (r, i, j), some v => if o = .fabric then s.ownerLog o a stRefused else s.writeReg o r i j v
  | none, some _ => (s.regFault o a).writeFailed o a stAddressFault
  | some (r, i, j), none =>
    let (s, v) := s.readReg r i j
    s.emit (.regDone o a stOk v)
  | none, none => (s.regFault o a).emit (.regDone o a stAddressFault 0)

/-- The origin can reach the registers now: the host through an open link, the drover and the fabric while the part is out of
reset. -/
def State.reaches (s : State) (o : Origin) : Bool :=
  match o with
  | .host => s.rbit .cxlStatus 0 0 62
  | _ => !s.inReset

/-- REGISTER_WRITE (R2 to R5, R7). -/
def execRegisterWrite (o : Origin) (addr width : Nat) (v : Word64) (s : State) : Out :=
  .next (if s.reaches o then s.access o addr width (some (v.toNat % 2 ^ (8 * width))) else s)

/-- RC_READ (R2 to R4, R6). -/
def execRcRead (o : Origin) (addr width : Nat) (s : State) : Out :=
  .next (if s.reaches o then s.access o addr width none else s)

/-- BAR0_ACCESS (R370): an access at an offset of the 1 GiB window. -/
def execBar0Access (off width : Nat) (wr : Option Word64) (s : State) : Out :=
  .next (if off < 2 ^ 30 ∧ s.reaches .host then
      s.access .host (bar0Address off) width (wr.map fun v => v.toNat % 2 ^ (8 * width))
    else s)

end Sys2Proof.Machine
end

