-- ==== Sys2Proof/Machine/Sync.lean ====
section
/-! DEFINITION. Signal words and waits (R228 to R232, R498 to R516). -/

namespace Sys2Proof.Machine

/-- SIGADD (R229): one atomic addition; the old count goes to sd. A counter fault is a precise SIGNAL fault, the word is
unchanged and sd is not written (R502). -/
def execSigadd (f c : Nat) (w : Word64) (s : State) : Out :=
  issue 0x68 f c w s fun s =>
    let k := s.core f c
    match effAddr f c k (iSpace w) (iB w) (iImm w) 8 8 true with
    | .bad st a => s.memFault f c 0x68 st a
    | .ok p =>
      let old := sigCount (s.sigWord (p.sig f c))
      let (s, st) := s.addSignal (p.sig f c) (sext 32 (k.s (iC w))) 0x0 (some (coreId f c))
      if st = stOk then s.retS f c (iA w) (bits old 31 0) else s.precise f c 0x6 0 0x68

/-- SIGRD (R230): the whole word goes to the sd pair. -/
def execSigrd (f c : Nat) (w : Word64) (s : State) : Out :=
  issue 0x69 f c w s fun s =>
    match effAddr f c (s.core f c) (iSpace w) (iB w) (iImm w) 8 8 true with
    | .bad st a => s.memFault f c 0x69 st a
    | .ok p =>
      let v := s.sigWord (p.sig f c)
      (s.modCore f c fun k => k.setPair (iA w) v).advance f c

/-- SIGINIT (R230): the ss pair is written as the whole word. -/
def execSiginit (f c : Nat) (w : Word64) (s : State) : Out :=
  issue 0x6A f c w s fun s =>
    let k := s.core f c
    match effAddr f c k (iSpace w) (iB w) (iImm w) 8 8 true with
    | .bad st a => s.memFault f c 0x6A st a
    | .ok p => (s.setSigWord (p.sig f c) (k.pair (iA w))).advance f c

/-- WAIT (R232, R506, R507): the word is read once at issue. A bounded counter with a target count of 2^47 or more raises
SIGNAL with cause WAIT_RANGE; otherwise the WAIT holds issue until it ends. -/
def execWait (f c : Nat) (w : Word64) (s : State) : Out :=
  issue 0x6B f c w s fun s =>
    let k := s.core f c
    match effAddr f c k (iSpace w) (iA w) 0 8 8 true with
    | .bad st a => s.memFault f c 0x6B st a
    | .ok p =>
      let target := k.pair (iB w)
      let v := s.sigWord (p.sig f c)
      if bit v 63 ∧ 2 ^ 47 ≤ sigCount target then
        (s.sigLog f 0x3 0x1 (!p.inStore) (coreId f c) p.off).precise f c 0x6 0 0x6B
      else
        let wt : Wait :=
          { inStore := p.inStore, off := p.off, te := sigEpoch target, tc := sigCount target, sreg := bits (iFn w) 8 4,
            imm := iImm w, monitor := bit (iFn w) 1, sat := sigSatisfied v (sigEpoch target) (sigCount target) }
        (s.advance f c).modCore f c fun k => { k with hold := .wait wt }

/-- The word that a WAIT waits on. -/
def State.waitWord (s : State) (f c : Nat) (w : Wait) : Nat :=
  s.sigWord (if w.inStore then .store f w.off else .scratch f c w.off)

/-- WAIT_POLL (R507): a polling WAIT reads its word; a satisfied read travels to the retire point. -/
def execWaitPoll (f c : Nat) (s : State) : Out :=
  onCore f c s fun s =>
    match (s.core f c).hold with
    | .wait w =>
      if !w.monitor && sigSatisfied (s.waitWord f c w) w.te w.tc then
        s.modCore f c fun k => { k with hold := .wait ({ w with sat := true }) }
      else s
    | _ => s

/-- A WAIT ends with a status in its status register, and issue resumes. -/
def State.endWait (s : State) (f c : Nat) (w : Wait) (status : Nat) : State :=
  s.modCore f c fun k => { (k.setS w.sreg status) with hold := .free }

/-- WAIT_SATISFIED (R509): a satisfied evaluation reaches the retire point and the WAIT ends with OK. -/
def execWaitSatisfied (f c : Nat) (s : State) : Out :=
  onCore f c s fun s =>
    match (s.core f c).hold with
    | .wait w => if w.sat then s.endWait f c w stOk else s
    | _ => s

/-- WAIT_EXPIRY (R510): a WAIT with a limit reaches it and writes TIMEOUT. -/
def execWaitExpiry (f c : Nat) (s : State) : Out :=
  onCore f c s fun s =>
    match (s.core f c).hold with
    | .wait w => if w.imm = 0 then s else s.endWait f c w stTimeout
    | _ => s

end Sys2Proof.Machine
end

