-- ==== Sys2Proof/Machine/Vector.lean ====
section
/-! DEFINITION. Vector instructions (R204 to R210). -/

namespace Sys2Proof.Machine

/-- A vector result: vd takes the lanes and the program counter moves on. -/
def State.retV (s : State) (f c v : Nat) (ls : List Nat) : State :=
  (s.modCore f c fun k => k.setLanes v ls).advance f c

/-- VOP (R204, Table 5.8). -/
def execVop (f c : Nat) (w : Word64) (s : State) : Out :=
  issue 0x20 f c w s fun s =>
    let k := s.core f c
    let a := k.lanes (iB w)
    s.retV f c (iA w)
      (if iFn w < 0x10 then List.zipWith (vBinary (iFn w)) a (k.lanes (iC w)) else a.map (vUnary (iFn w)))

/-- VOPS (R204): the scalar is applied to every lane. -/
def execVops (f c : Nat) (w : Word64) (s : State) : Out :=
  issue 0x21 f c w s fun s =>
    let k := s.core f c
    s.retV f c (iA w) ((k.lanes (iB w)).map fun x => vBinary (iFn w) x (k.s (iC w)))

/-- VFMA (R204): va · vb + vd with one rounding. -/
def execVfma (f c : Nat) (w : Word64) (s : State) : Out :=
  issue 0x22 f c w s fun s =>
    let k := s.core f c
    s.retV f c (iA w)
      (List.zipWith (fun (p : Nat × Nat) z => fFma p.1 p.2 z) ((k.lanes (iB w)).zip (k.lanes (iC w))) (k.lanes (iA w)))

/-- The bytes of a vector in memory for the formats that VLD and VST accept (Table 5.9). -/
def vecBytes (code : Nat) : Option Nat :=
  match code with
  | 0x00 => some 64 | 0x01 => some 32 | 0x02 => some 32 | 0x03 => some 16 | 0x04 => some 16 | 0x05 => some 16
  | 0x10 => some 64 | _ => none

/-- An element widened to FP32 (Table 5.9). -/
def widen (code x : Nat) : Nat := if code = 0x00 then x else toF32 (elemVal code x)

/-- An FP32 lane narrowed to a format by R64 and Table 2.5; a NaN becomes the canonical one in every format (R47). -/
def narrow (code x : Nat) : Nat := elemOf code (f32 x)

/-- VLD (R207). -/
def execVld (f c : Nat) (w : Word64) (s : State) : Out :=
  issue 0x23 f c w s fun s =>
    let code := bits (iFn w) 4 0
    match vecBytes code with
    | none => s.fmtFault f c 0x23 code
    | some n =>
      match effAddr f c (s.core f c) (iSpace w) (iB w) (iImm w) n n false with
      | .bad st a => s.memFault f c 0x23 st a
      | .ok p =>
        let bs := s.rdPlace f c p n
        s.retV f c (iA w) ((List.range 16).map fun i => widen code (packedElem code bs i))

/-- VST (R207). -/
def execVst (f c : Nat) (w : Word64) (s : State) : Out :=
  issue 0x24 f c w s fun s =>
    let code := bits (iFn w) 4 0
    match vecBytes code with
    | none => s.fmtFault f c 0x24 code
    | some n =>
      match effAddr f c (s.core f c) (iSpace w) (iB w) (iImm w) n n false with
      | .bad st a => s.memFault f c 0x24 st a
      | .ok p => (s.wrPlace f c p (packElems code (((s.core f c).lanes (iA w)).map (narrow code)))).advance f c

/-- VRED (R208). -/
def execVred (f c : Nat) (w : Word64) (s : State) : Out :=
  issue 0x25 f c w s fun s => s.retS f c (iA w) (vReduce (iFn w) ((s.core f c).lanes (iB w)))

/-- VLANE (R209): INSERT, EXTRACT or BCAST. -/
def execVlane (f c : Nat) (w : Word64) (s : State) : Out :=
  issue 0x26 f c w s fun s =>
    let k := s.core f c
    let lane := bits (iFn w) 3 0
    match bits (iFn w) 8 7 with
    | 0 => (s.modCore f c fun k' => k'.setLane (iA w) lane (k.s (iC w))).advance f c
    | 1 => s.retS f c (iA w) (k.lane (iB w) lane)
    | _ => s.retV f c (iA w) (List.replicate 16 (k.s (iC w)))

/-- VMXQ (R210): the 32 values of va and va + 1 are quantised by R66; the packed elements and the scale byte are
written at the two offsets. -/
def execVmxq (f c : Nat) (w : Word64) (s : State) : Out :=
  issue 0x27 f c w s fun s =>
    let code := bits (iFn w) 4 0
    if !fmtMx code then s.fmtFault f c 0x27 code
    else
      let k := s.core f c
      match effAddr f c k (iSpace w) (iA w) 0 8 (packedLen code 32) false with
      | .bad st a => s.memFault f c 0x27 st a
      | .ok pe =>
        match effAddr f c k (iSpace w) (iC w) 0 1 1 false with
        | .bad st a => s.memFault f c 0x27 st a
        | .ok ps =>
          let (scale, es) := mxQuantise code (k.lanes (iB w) ++ k.lanes (iB w + 1))
          ((s.wrPlace f c pe (packElems code es)).wrPlace f c ps (leBytes 1 scale)).advance f c

end Sys2Proof.Machine
end

