-- ==== Sys2Proof/Machine/Dispatch.lean ====
section
/-! DEFINITION. The effect of each command, one direct call of its meaning. -/

namespace Sys2Proof.Machine

def exec (i : Instr) (s : State) : Host.Outcome State Fault Refusal :=
  match i with
  | .alu f c w => Sys2Proof.Machine.execAlu f c w s
  | .alui f c w => Sys2Proof.Machine.execAlui f c w s
  | .li f c w => Sys2Proof.Machine.execLi f c w s
  | .ld f c w => Sys2Proof.Machine.execLd f c w s
  | .st f c w => Sys2Proof.Machine.execSt f c w s
  | .br f c w => Sys2Proof.Machine.execBr f c w s
  | .jal f c w => Sys2Proof.Machine.execJal f c w s
  | .jr f c w => Sys2Proof.Machine.execJr f c w s
  | .tixr f c w => Sys2Proof.Machine.execTixr f c w s
  | .qwait f c w => Sys2Proof.Machine.execQwait f c w s
  | .qwaitRelease f c => Sys2Proof.Machine.execQwaitRelease f c s
  | .stop f c w => Sys2Proof.Machine.execStop f c w s
  | .nop f c w => Sys2Proof.Machine.execNop f c w s
  | .sread f c w => Sys2Proof.Machine.execSread f c w s
  | .movt f c w => Sys2Proof.Machine.execMovt f c w s
  | .mft f c w => Sys2Proof.Machine.execMft f c w s
  | .taddi f c w => Sys2Proof.Machine.execTaddi f c w s
  | .vop f c w => Sys2Proof.Machine.execVop f c w s
  | .vops f c w => Sys2Proof.Machine.execVops f c w s
  | .vfma f c w => Sys2Proof.Machine.execVfma f c w s
  | .vld f c w => Sys2Proof.Machine.execVld f c w s
  | .vst f c w => Sys2Proof.Machine.execVst f c w s
  | .vred f c w => Sys2Proof.Machine.execVred f c w s
  | .vlane f c w => Sys2Proof.Machine.execVlane f c w s
  | .vmxq f c w => Sys2Proof.Machine.execVmxq f c w s
  | .wload f c w => Sys2Proof.Machine.execWload f c w s
  | .wswap f c w => Sys2Proof.Machine.execWswap f c w s
  | .stream f c w => Sys2Proof.Machine.execStream f c w s
  | .drain f c w => Sys2Proof.Machine.execDrain f c w s
  | .tclr f c w => Sys2Proof.Machine.execTclr f c w s
  | .accview f c w => Sys2Proof.Machine.execAccview f c w s
  | .gdrain f c w => Sys2Proof.Machine.execGdrain f c w s
  | .dma f c w => Sys2Proof.Machine.execDma f c w s
  | .ratom f c w => Sys2Proof.Machine.execRatom f c w s
  | .rsig f c w => Sys2Proof.Machine.execRsig f c w s
  | .rfence f c w => Sys2Proof.Machine.execRfence f c w s
  | .sigadd f c w => Sys2Proof.Machine.execSigadd f c w s
  | .sigrd f c w => Sys2Proof.Machine.execSigrd f c w s
  | .siginit f c w => Sys2Proof.Machine.execSiginit f c w s
  | .wait f c w => Sys2Proof.Machine.execWait f c w s
  | .arrayStart f c => Sys2Proof.Machine.execArrayStart f c s
  | .arrayRowFetch f c k residueFails => Sys2Proof.Machine.execArrayRowFetch f c k residueFails s
  | .roadRowArrival f q parityOk => Sys2Proof.Machine.execRoadRowArrival f q parityOk s
  | .roadCreditReturn f p => Sys2Proof.Machine.execRoadCreditReturn f p s
  | .roadTimeout f c => Sys2Proof.Machine.execRoadTimeout f c s
  | .waitPoll f c => Sys2Proof.Machine.execWaitPoll f c s
  | .waitSatisfied f c => Sys2Proof.Machine.execWaitSatisfied f c s
  | .waitExpiry f c => Sys2Proof.Machine.execWaitExpiry f c s
  | .flkCoreHaltWrite f c => Sys2Proof.Machine.execFlkCoreHaltWrite f c s
  | .flkCoreDoneWrite f c => Sys2Proof.Machine.execFlkCoreDoneWrite f c s
  | .coreRestart f c => Sys2Proof.Machine.execCoreRestart f c s
  | .dmaDescriptorStart f c => Sys2Proof.Machine.execDmaDescriptorStart f c s
  | .dmaComplete f c n => Sys2Proof.Machine.execDmaComplete f c n s
  | .dmaTimeout f c n => Sys2Proof.Machine.execDmaTimeout f c n s
  | .dmaPushAdmit f => Sys2Proof.Machine.execDmaPushAdmit f s
  | .baleReadComplete f c n errs => Sys2Proof.Machine.execBaleReadComplete f c n errs s
  | .foldLoad v => Sys2Proof.Machine.execFoldLoad v s
  | .remap v => Sys2Proof.Machine.execRemap v s
  | .unload v => Sys2Proof.Machine.execUnload v s
  | .pipelineStart f => Sys2Proof.Machine.execPipelineStart f s
  | .drvRankWrite v => Sys2Proof.Machine.execDrvRankWrite v s
  | .stackWholeBaleRead r errs => Sys2Proof.Machine.execStackWholeBaleRead r errs s
  | .stackTaggedWrite r data tag crc => Sys2Proof.Machine.execStackTaggedWrite r data tag crc s
  | .stackUntaggedWrite r data => Sys2Proof.Machine.execStackUntaggedWrite r data s
  | .stackSectorRead r ecc => Sys2Proof.Machine.execStackSectorRead r ecc s
  | .stackSectorWrite r mask data ecc => Sys2Proof.Machine.execStackSectorWrite r mask data ecc s
  | .stackEntryGrant stack => Sys2Proof.Machine.execStackEntryGrant stack s
  | .refresh stack subBank => Sys2Proof.Machine.execRefresh stack subBank s
  | .scrub stack q errs => Sys2Proof.Machine.execScrub stack q errs s
  | .zeroFill stack => Sys2Proof.Machine.execZeroFill stack s
  | .wipe stack => Sys2Proof.Machine.execWipe stack s
  | .wipeComplete stack => Sys2Proof.Machine.execWipeComplete stack s
  | .writeGateChange stack closed => Sys2Proof.Machine.execWriteGateChange stack closed s
  | .heldWriteExpiry stack n => Sys2Proof.Machine.execHeldWriteExpiry stack n s
  | .peatDescriptorAdmit f c n => Sys2Proof.Machine.execPeatDescriptorAdmit f c n s
  | .gather f c n => Sys2Proof.Machine.execGather f c n s
  | .segsum f c n => Sys2Proof.Machine.execSegsum f c n s
  | .wpool f c n => Sys2Proof.Machine.execWpool f c n s
  | .optupd f c n => Sys2Proof.Machine.execOptupd f c n s
  | .kread f c n => Sys2Proof.Machine.execKread f c n s
  | .kwrite f c n => Sys2Proof.Machine.execKwrite f c n s
  | .kadd f c n => Sys2Proof.Machine.execKadd f c n s
  | .peatRowRequest stack => Sys2Proof.Machine.execPeatRowRequest stack s
  | .peatRowData stack errs => Sys2Proof.Machine.execPeatRowData stack errs s
  | .deliveryBlock f c n damage => Sys2Proof.Machine.execDeliveryBlock f c n damage s
  | .peatComplete f c n => Sys2Proof.Machine.execPeatComplete f c n s
  | .cxlMemRead x grant errs => Sys2Proof.Machine.execCxlMemRead x grant errs s
  | .cxlMemWrite x mask data poison errs => Sys2Proof.Machine.execCxlMemWrite x mask data poison errs s
  | .cxlHostEvict line => Sys2Proof.Machine.execCxlHostEvict line s
  | .birsp line stillValid => Sys2Proof.Machine.execBirsp line stillValid s
  | .biTimeout n => Sys2Proof.Machine.execBiTimeout n s
  | .bar0Access off width wr => Sys2Proof.Machine.execBar0Access off width wr s
  | .cxlQsqDb q v => Sys2Proof.Machine.execCxlQsqDb q v s
  | .cxlQcqDb q v => Sys2Proof.Machine.execCxlQcqDb q v s
  | .queueEnable q v => Sys2Proof.Machine.execQueueEnable q v s
  | .queueDisable q v => Sys2Proof.Machine.execQueueDisable q v s
  | .sqFetch q entry => Sys2Proof.Machine.execSqFetch q entry s
  | .queueNop q n => Sys2Proof.Machine.execQueueNop q n s
  | .queueCopy q n host => Sys2Proof.Machine.execQueueCopy q n host s
  | .queueSignal q n => Sys2Proof.Machine.execQueueSignal q n s
  | .queueFence q n => Sys2Proof.Machine.execQueueFence q n s
  | .cqPost q => Sys2Proof.Machine.execCqPost q s
  | .farTierResponse n r => Sys2Proof.Machine.execFarTierResponse n r s
  | .farTierTimeout n => Sys2Proof.Machine.execFarTierTimeout n s
  | .linkUp full width rate => Sys2Proof.Machine.execLinkUp full width rate s
  | .linkDown => Sys2Proof.Machine.execLinkDown s
  | .cxlReset => Sys2Proof.Machine.execCxlReset s
  | .ideFail => Sys2Proof.Machine.execIdeFail s
  | .getEventRecords => Sys2Proof.Machine.execGetEventRecords s
  | .clearEventRecords => Sys2Proof.Machine.execClearEventRecords s
  | .getEventInterruptPolicy => Sys2Proof.Machine.execGetEventInterruptPolicy s
  | .setEventInterruptPolicy v => Sys2Proof.Machine.execSetEventInterruptPolicy v s
  | .getFwInfo => Sys2Proof.Machine.execGetFwInfo s
  | .transferFw slot action off data => Sys2Proof.Machine.execTransferFw slot action off data s
  | .activateFw slot atReset => Sys2Proof.Machine.execActivateFw slot atReset s
  | .getSupportedLogs => Sys2Proof.Machine.execGetSupportedLogs s
  | .getLog req => Sys2Proof.Machine.execGetLog req s
  | .mailboxUnsupported opcode => Sys2Proof.Machine.execMailboxUnsupported opcode s
  | .mctpSetEndpointId eid => Sys2Proof.Machine.execMctpSetEndpointId eid s
  | .pldmRequest req => Sys2Proof.Machine.execPldmRequest req s
  | .getVersion t req => Sys2Proof.Machine.execGetVersion t req s
  | .getCapabilities t req => Sys2Proof.Machine.execGetCapabilities t req s
  | .negotiateAlgorithms t req => Sys2Proof.Machine.execNegotiateAlgorithms t req s
  | .getDigests t req => Sys2Proof.Machine.execGetDigests t req s
  | .getCertificate t req => Sys2Proof.Machine.execGetCertificate t req s
  | .challenge t req => Sys2Proof.Machine.execChallenge t req s
  | .getMeasurements t signed req => Sys2Proof.Machine.execGetMeasurements t signed req s
  | .keyExchange t req => Sys2Proof.Machine.execKeyExchange t req s
  | .finish t req => Sys2Proof.Machine.execFinish t req s
  | .endSession t req => Sys2Proof.Machine.execEndSession t req s
  | .getLmsCert t off => Sys2Proof.Machine.execGetLmsCert t off s
  | .getLmsSig t => Sys2Proof.Machine.execGetLmsSig t s
  | .routerPacketArrival slice port mesh p poisoned => Sys2Proof.Machine.execRouterPacketArrival slice port mesh p poisoned s
  | .packetForward slice queue => Sys2Proof.Machine.execPacketForward slice queue s
  | .niPacketSend share => Sys2Proof.Machine.execNiPacketSend share s
  | .write p => Sys2Proof.Machine.execWrite p s
  | .read p => Sys2Proof.Machine.execRead p s
  | .atomic p => Sys2Proof.Machine.execAtomic p s
  | .signal p => Sys2Proof.Machine.execSignal p s
  | .cohFwd p => Sys2Proof.Machine.execCohFwd p s
  | .response p => Sys2Proof.Machine.execResponse p s
  | .ack p => Sys2Proof.Machine.execAck p s
  | .contrib p => Sys2Proof.Machine.execContrib p s
  | .relayData port p => Sys2Proof.Machine.execRelayData port p s
  | .relayAck port p => Sys2Proof.Machine.execRelayAck port p s
  | .relayResult port p => Sys2Proof.Machine.execRelayResult port p s
  | .relayActivate port p => Sys2Proof.Machine.execRelayActivate port p s
  | .relayAbort port p => Sys2Proof.Machine.execRelayAbort port p s
  | .relayAckTimeout => Sys2Proof.Machine.execRelayAckTimeout s
  | .flagHoldRelease src => Sys2Proof.Machine.execFlagHoldRelease src s
  | .resendIntervalExpiry tag => Sys2Proof.Machine.execResendIntervalExpiry tag s
  | .deferredBackoffExpiry tag => Sys2Proof.Machine.execDeferredBackoffExpiry tag s
  | .tagDeadlineExpiry tag => Sys2Proof.Machine.execTagDeadlineExpiry tag s
  | .ackTimerExpiry dst => Sys2Proof.Machine.execAckTimerExpiry dst s
  | .niPairReset v => Sys2Proof.Machine.execNiPairReset v s
  | .klnSubmit o v => Sys2Proof.Machine.execKlnSubmit o v s
  | .bucketSubmit o v => Sys2Proof.Machine.execBucketSubmit o v s
  | .redeliverSubmit o v => Sys2Proof.Machine.execRedeliverSubmit o v s
  | .klnCtrlAbort v => Sys2Proof.Machine.execKlnCtrlAbort v s
  | .klnCtrlReset v => Sys2Proof.Machine.execKlnCtrlReset v s
  | .collectiveStart g => Sys2Proof.Machine.execCollectiveStart g s
  | .chunkStart g => Sys2Proof.Machine.execChunkStart g s
  | .kilnPacketInject slice => Sys2Proof.Machine.execKilnPacketInject slice s
  | .kilnStallExpiry g => Sys2Proof.Machine.execKilnStallExpiry g s
  | .kilnMemoryComplete g chunk errs => Sys2Proof.Machine.execKilnMemoryComplete g chunk errs s
  | .collectiveEnd g => Sys2Proof.Machine.execCollectiveEnd g s
  | .channelRowAccept ch => Sys2Proof.Machine.execChannelRowAccept ch s
  | .chunkComplete g chunk => Sys2Proof.Machine.execChunkComplete g chunk s
  | .verifyCompare g chunk => Sys2Proof.Machine.execVerifyCompare g chunk s
  | .sealExchangeStart g => Sys2Proof.Machine.execSealExchangeStart g s
  | .bucketSeal g => Sys2Proof.Machine.execBucketSeal g s
  | .redeliveryEnd n => Sys2Proof.Machine.execRedeliveryEnd n s
  | .codewordDecode port slots lanes => Sys2Proof.Machine.execCodewordDecode port slots lanes s
  | .controlCodeword port w => Sys2Proof.Machine.execControlCodeword port w s
  | .swapReq port rx slot wavelength boundary => Sys2Proof.Machine.execSwapReq port rx slot wavelength boundary s
  | .swapAck port rx slot wavelength boundary => Sys2Proof.Machine.execSwapAck port rx slot wavelength boundary s
  | .laserOut port wavelength => Sys2Proof.Machine.execLaserOut port wavelength s
  | .retrain port => Sys2Proof.Machine.execRetrain port s
  | .swapSwitch port rx => Sys2Proof.Machine.execSwapSwitch port rx s
  | .portTrain port goodTx goodRx answered => Sys2Proof.Machine.execPortTrain port goodTx goodRx answered s
  | .trainingFrame port device farPort => Sys2Proof.Machine.execTrainingFrame port device farPort s
  | .trainingRetryExpiry port => Sys2Proof.Machine.execTrainingRetryExpiry port s
  | .level1Calibration port rx => Sys2Proof.Machine.execLevel1Calibration port rx s
  | .ringSweepComplete port rx k confirmed => Sys2Proof.Machine.execRingSweepComplete port rx k confirmed s
  | .pilotToneCheck port k tone => Sys2Proof.Machine.execPilotToneCheck port k tone s
  | .serWindowExpiry port => Sys2Proof.Machine.execSerWindowExpiry port s
  | .laserFailure hearth k => Sys2Proof.Machine.execLaserFailure hearth k s
  | .portRetrainWrite port => Sys2Proof.Machine.execPortRetrainWrite port s
  | .portDisable port => Sys2Proof.Machine.execPortDisable port s
  | .portEnable port => Sys2Proof.Machine.execPortEnable port s
  | .stileChangeComplete hearth pair => Sys2Proof.Machine.execStileChangeComplete hearth pair s
  | .slewGovernorTick p => Sys2Proof.Machine.execSlewGovernorTick p s
  | .resetFlock v => Sys2Proof.Machine.execResetFlock v s
  | .resetPasture v => Sys2Proof.Machine.execResetPasture v s
  | .resetRouterSlice v => Sys2Proof.Machine.execResetRouterSlice v s
  | .resetPort v => Sys2Proof.Machine.execResetPort v s
  | .resetHearth v => Sys2Proof.Machine.execResetHearth v s
  | .resetDevice v => Sys2Proof.Machine.execResetDevice v s
  | .drainEnd => Sys2Proof.Machine.execDrainEnd s
  | .drainLimitExpiry => Sys2Proof.Machine.execDrainLimitExpiry s
  | .creditReturnMessage peer resource count => Sys2Proof.Machine.execCreditReturnMessage peer resource count s
  | .reinitAck peer => Sys2Proof.Machine.execReinitAck peer s
  | .resetPin => Sys2Proof.Machine.execResetPin s
  | .powerOn => Sys2Proof.Machine.execPowerOn s
  | .powerLoss => Sys2Proof.Machine.execPowerLoss s
  | .pllLockLoss bit => Sys2Proof.Machine.execPllLockLoss bit s
  | .pllLock bit => Sys2Proof.Machine.execPllLock bit s
  | .droverBoot => Sys2Proof.Machine.execDroverBoot s
  | .pastureRelease p => Sys2Proof.Machine.execPastureRelease p s
  | .stackTrainingComplete j => Sys2Proof.Machine.execStackTrainingComplete j s
  | .thermalModelUpdate nodes => Sys2Proof.Machine.execThermalModelUpdate nodes s
  | .sensorReading readings => Sys2Proof.Machine.execSensorReading readings s
  | .powerMeasurement rails => Sys2Proof.Machine.execPowerMeasurement rails s
  | .packagePowerMeasurement watts10 => Sys2Proof.Machine.execPackagePowerMeasurement watts10 s
  | .fractionApply p => Sys2Proof.Machine.execFractionApply p s
  | .fractionWatchdog p => Sys2Proof.Machine.execFractionWatchdog p s
  | .gateDecisionWatchdog j => Sys2Proof.Machine.execGateDecisionWatchdog j s
  | .holdWrite v => Sys2Proof.Machine.execHoldWrite v s
  | .sensorTrip site => Sys2Proof.Machine.execSensorTrip site s
  | .eventPop => Sys2Proof.Machine.execEventPop s
  | .drvRetire v => Sys2Proof.Machine.execDrvRetire v s
  | .spareSelfTest f phys passed => Sys2Proof.Machine.execSpareSelfTest f phys passed s
  | .musterPeriodicFrame port => Sys2Proof.Machine.execMusterPeriodicFrame port s
  | .musterSilenceExpiry port => Sys2Proof.Machine.execMusterSilenceExpiry port s
  | .voteExpiry subject reporter => Sys2Proof.Machine.execVoteExpiry subject reporter s
  | .drvDeclare v => Sys2Proof.Machine.execDrvDeclare v s
  | .stateArrayError => Sys2Proof.Machine.execStateArrayError s
  | .shadowEnable v => Sys2Proof.Machine.execShadowEnable v s
  | .shadowDisable v => Sys2Proof.Machine.execShadowDisable v s
  | .stepMark => Sys2Proof.Machine.execStepMark s
  | .digestComplete => Sys2Proof.Machine.execDigestComplete s
  | .fwCommit => Sys2Proof.Machine.execFwCommit s
  | .fwActivateOnline v => Sys2Proof.Machine.execFwActivateOnline v s
  | .fwActivateAtReset v => Sys2Proof.Machine.execFwActivateAtReset v s
  | .unitRestartComplete passed => Sys2Proof.Machine.execUnitRestartComplete passed s
  | .foldKeyEnrol v => Sys2Proof.Machine.execFoldKeyEnrol v s
  | .foldKeyClear v => Sys2Proof.Machine.execFoldKeyClear v s
  | .policyWrite v => Sys2Proof.Machine.execPolicyWrite v s
  | .relaySend v => Sys2Proof.Machine.execRelaySend v s
  | .rcRead o addr width => Sys2Proof.Machine.execRcRead o addr width s
  | .registerWrite o addr width v => Sys2Proof.Machine.execRegisterWrite o addr width v s
  | .resetPinRelease => Sys2Proof.Machine.execResetPinRelease s
  | .railOutOfRange => Sys2Proof.Machine.execRailOutOfRange s
  | .hearthLasersStable h ok => Sys2Proof.Machine.execHearthLasersStable h ok s
  | .ringSetpointReturn port rx => Sys2Proof.Machine.execRingSetpointReturn port rx s
  | .sqReadError q => Sys2Proof.Machine.execSqReadError q s
  | .cqWriteError q => Sys2Proof.Machine.execCqWriteError q s
  | .hostSnoop line => Sys2Proof.Machine.execHostSnoop line s

end Sys2Proof.Machine
end

