-- ==== Sys2Proof/WellFormed.lean ====
section
/-! DEFINITION. Which commands are well formed. `Instr.known` says which commands name an event of the part at all: the units
that they name exist, an instruction word carries the opcode of its row, and data have the lengths that their operations move;
the others change nothing (log entry 14). `Instr.wf` asks besides that the header of a packet fits the fields of Table 10.1, and
that a register value is one of its row. -/

namespace Sys2Proof

open Machine

/-- A core of the part. -/
def wfCore (f c : Nat) : Bool := decide (f < 672) && decide (c < 120)

/-- An instruction word of the row with opcode `op`, at a core of the part. -/
def wfInstr (op f c : Nat) (w : Word64) : Bool := iOp w == op && wfCore f c

/-- A request of Table 7.10 to an aligned address of stacked memory. -/
def wfStack (r : StackReq) (align : Nat) : Bool :=
  decide (r.source < 8) && r.source != 6 && r.addr % align == 0 && decide (r.addr < 0x018000000000)

/-- A packet that the NI takes for a row: of the row's operation, or of one that Table 10.2 does not list (R408), with the payload
that its LEN states. -/
def wfArrives (op : Nat) (p : Packet) : Bool := p.payload.length == p.len && (p.op == op || !niOps.contains p.op)

/-- A RELAY message on a port. -/
def wfRelay (msg port : Nat) (p : Packet) : Bool :=
  p.op == 0x11 && p.ll && relayMsg p == msg && p.payload.length == p.len && decide (port < 64)

/-- A packet at an input of a router slice. -/
def wfArrival (slice port : Nat) (mesh : Bool) (p : Packet) : Bool :=
  decide (slice < 12) && decide (p.cls < 4) && p.len == p.payload.length &&
    (if mesh then decide (port < 4) else decide (port < 64) && portSlice port == slice)

/-- A packet whose values fit the header fields of Table 10.1. -/
def Packet.fits (p : Packet) : Bool :=
  decide (p.dest < 2 ^ 14) && decide (p.src < 2 ^ 14) && decide (p.cls < 4) && decide (p.op < 64) && decide (p.status < 16) &&
    decide (p.len < 1024) && decide (p.share < 16) && decide (p.hops < 256) && decide (p.space < 4) &&
    decide (p.offset < 2 ^ 48) && decide (p.tag < 2 ^ 16) && decide (p.rsv2 < 2 ^ 14) && decide (p.rsv7 < 2 ^ 30) &&
    p.payload.length == p.len

/-- A write of DRV_RESET_CTRL with GO and a scope. -/
def wfReset (scope : Nat) (v : Word32) : Bool := bit v.toNat 31 && bits v.toNat 26 24 == scope

/-- Whether a command names an event of the part. -/
def Instr.known : Instr → Bool
  | .alu f c w => ((opRow (iOp w)).isNone || iOp w == 0x01) && wfCore f c
  | .alui f c w => wfInstr 0x02 f c w
  | .li f c w => wfInstr 0x03 f c w
  | .ld f c w => wfInstr 0x04 f c w
  | .st f c w => wfInstr 0x05 f c w
  | .br f c w => wfInstr 0x08 f c w
  | .jal f c w => wfInstr 0x09 f c w
  | .jr f c w => wfInstr 0x0A f c w
  | .tixr f c w => wfInstr 0x0B f c w
  | .qwait f c w => wfInstr 0x0C f c w
  | .qwaitRelease f c => wfCore f c
  | .stop f c w => wfInstr 0x0D f c w
  | .nop f c w => wfInstr 0x0E f c w
  | .sread f c w => wfInstr 0x0F f c w
  | .movt f c w => wfInstr 0x10 f c w
  | .mft f c w => wfInstr 0x11 f c w
  | .taddi f c w => wfInstr 0x12 f c w
  | .vop f c w => wfInstr 0x20 f c w
  | .vops f c w => wfInstr 0x21 f c w
  | .vfma f c w => wfInstr 0x22 f c w
  | .vld f c w => wfInstr 0x23 f c w
  | .vst f c w => wfInstr 0x24 f c w
  | .vred f c w => wfInstr 0x25 f c w
  | .vlane f c w => wfInstr 0x26 f c w
  | .vmxq f c w => wfInstr 0x27 f c w
  | .wload f c w => wfInstr 0x40 f c w
  | .wswap f c w => wfInstr 0x41 f c w
  | .stream f c w => wfInstr 0x42 f c w
  | .drain f c w => wfInstr 0x43 f c w
  | .tclr f c w => wfInstr 0x44 f c w
  | .accview f c w => wfInstr 0x45 f c w
  | .gdrain f c w => wfInstr 0x46 f c w
  | .dma f c w => wfInstr 0x60 f c w
  | .ratom f c w => wfInstr 0x61 f c w
  | .rsig f c w => wfInstr 0x62 f c w
  | .rfence f c w => wfInstr 0x63 f c w
  | .sigadd f c w => wfInstr 0x68 f c w
  | .sigrd f c w => wfInstr 0x69 f c w
  | .siginit f c w => wfInstr 0x6A f c w
  | .wait f c w => wfInstr 0x6B f c w
  | .arrayStart f c => wfCore f c
  | .arrayRowFetch f c _ _ => wfCore f c
  | .roadRowArrival f q _ => decide (f < 672) && decide (q < 8)
  | .roadCreditReturn f p => decide (f < 672) && decide (p < 8)
  | .roadTimeout f c => wfCore f c
  | .waitPoll f c => wfCore f c
  | .waitSatisfied f c => wfCore f c
  | .waitExpiry f c => wfCore f c
  | .flkCoreHaltWrite f c => wfCore f c
  | .flkCoreDoneWrite f c => wfCore f c
  | .coreRestart f c => wfCore f c
  | .dmaDescriptorStart f c => wfCore f c
  | .dmaComplete f c _ => wfCore f c
  | .dmaTimeout f c _ => wfCore f c
  | .dmaPushAdmit f => decide (f < 672)
  | .baleReadComplete f c _ _ => wfCore f c
  | .foldLoad _ => true
  | .remap _ => true
  | .unload _ => true
  | .pipelineStart f => decide (f < 672)
  | .drvRankWrite _ => true
  | .stackWholeBaleRead r _ => wfStack r 4096
  | .stackTaggedWrite r data _ _ => wfStack r 4096 && data.length == 4096
  | .stackUntaggedWrite r data => wfStack r 4096 && data.length == 4096
  | .stackSectorRead r _ => wfStack r 32
  | .stackSectorWrite r _ data _ => wfStack r 32 && data.length == 32
  | .stackEntryGrant stack => decide (stack < 12)
  | .refresh stack subBank => decide (stack < 12) && decide (subBank < 2 ^ 14)
  | .scrub stack q _ => decide (stack < 12) && decide (q < 2 ^ 25)
  | .zeroFill stack => decide (stack < 12)
  | .wipe stack => decide (stack < 12)
  | .wipeComplete stack => decide (stack < 12)
  | .writeGateChange stack _ => decide (stack < 12)
  | .heldWriteExpiry stack _ => decide (stack < 12)
  | .peatDescriptorAdmit f c _ => wfCore f c
  | .gather f c _ => wfCore f c
  | .segsum f c _ => wfCore f c
  | .wpool f c _ => wfCore f c
  | .optupd f c _ => wfCore f c
  | .kread f c _ => wfCore f c
  | .kwrite f c _ => wfCore f c
  | .kadd f c _ => wfCore f c
  | .peatRowRequest stack => decide (stack < 12)
  | .peatRowData stack _ => decide (stack < 12)
  | .deliveryBlock f c _ _ => wfCore f c
  | .peatComplete f c _ => wfCore f c
  | .cxlMemRead x _ _ => x % 64 == 0
  | .cxlMemWrite x _ data _ _ => x % 64 == 0 && data.length == 64
  | .cxlHostEvict _ => true
  | .birsp _ _ => true
  | .biTimeout _ => true
  | .bar0Access off _ _ => decide (off < 2 ^ 30)
  | .cxlQsqDb q _ => decide (q < 16)
  | .cxlQcqDb q _ => decide (q < 16)
  | .queueEnable q _ => decide (q < 16)
  | .queueDisable q _ => decide (q < 16)
  | .sqFetch q entry => entry.length == 64 && decide (q < 16)
  | .queueNop q _ => decide (q < 16)
  | .queueCopy q _ _ => decide (q < 16)
  | .queueSignal q _ => decide (q < 16)
  | .queueFence q _ => decide (q < 16)
  | .cqPost q => decide (q < 16)
  | .farTierResponse _ _ => true
  | .farTierTimeout _ => true
  | .linkUp _ width rate => [1, 2, 4, 8].contains width && decide (1 ≤ rate) && decide (rate ≤ 4)
  | .linkDown => true
  | .cxlReset => true
  | .ideFail => true
  | .getEventRecords => true
  | .clearEventRecords => true
  | .getEventInterruptPolicy => true
  | .setEventInterruptPolicy _ => true
  | .getFwInfo => true
  | .transferFw _ _ _ data => decide (data.length ≤ 2 ^ 20)
  | .activateFw _ _ => true
  | .getSupportedLogs => true
  | .getLog _ => true
  | .mailboxUnsupported opcode => !mailboxOpcodes.contains opcode
  | .mctpSetEndpointId _ => true
  | .pldmRequest _ => true
  | .getVersion _ _ => true
  | .getCapabilities _ _ => true
  | .negotiateAlgorithms _ _ => true
  | .getDigests _ _ => true
  | .getCertificate _ _ => true
  | .challenge _ _ => true
  | .getMeasurements _ _ _ => true
  | .keyExchange _ _ => true
  | .finish _ _ => true
  | .endSession _ _ => true
  | .getLmsCert _ _ => true
  | .getLmsSig _ => true
  | .routerPacketArrival slice port mesh p _ => wfArrival slice port mesh p
  | .packetForward slice queue => (queueKind queue).isSome && decide (slice < 12)
  | .niPacketSend share => decide (share < 12)
  | .write p => wfArrives 0x01 p
  | .read p => wfArrives 0x02 p
  | .atomic p => wfArrives 0x03 p
  | .signal p => wfArrives 0x04 p
  | .cohFwd p => wfArrives 0x10 p
  | .response p => wfArrives 0x20 p
  | .ack p => wfArrives 0x21 p
  | .contrib p => wfArrives 0x30 p
  | .relayData port p => wfRelay 1 port p
  | .relayAck port p => wfRelay 2 port p
  | .relayResult port p => wfRelay 3 port p
  | .relayActivate port p => wfRelay 4 port p
  | .relayAbort port p => wfRelay 5 port p
  | .relayAckTimeout => true
  | .flagHoldRelease _ => true
  | .resendIntervalExpiry _ => true
  | .deferredBackoffExpiry _ => true
  | .tagDeadlineExpiry _ => true
  | .ackTimerExpiry _ => true
  | .niPairReset _ => true
  | .klnSubmit _ _ => true
  | .bucketSubmit _ _ => true
  | .redeliverSubmit _ _ => true
  | .klnCtrlAbort _ => true
  | .klnCtrlReset _ => true
  | .collectiveStart g => decide (g < 64)
  | .chunkStart g => decide (g < 64)
  | .kilnPacketInject slice => decide (slice < 12)
  | .kilnStallExpiry g => decide (g < 64)
  | .kilnMemoryComplete g _ _ => decide (g < 64)
  | .collectiveEnd g => decide (g < 64)
  | .channelRowAccept ch => decide (ch < 16)
  | .chunkComplete g _ => decide (g < 64)
  | .verifyCompare g _ => decide (g < 64)
  | .sealExchangeStart g => decide (g < 64)
  | .bucketSeal g => decide (g < 64)
  | .redeliveryEnd _ => true
  | .codewordDecode port _ _ => decide (port < 64)
  | .controlCodeword port w => w.credits.length == 8 && decide (port < 64)
  | .swapReq port _ _ _ _ => decide (port < 64)
  | .swapAck port _ _ _ _ => decide (port < 64)
  | .laserOut port _ => decide (port < 64)
  | .retrain port => decide (port < 64)
  | .swapSwitch port _ => decide (port < 64)
  | .portTrain port _ _ _ => decide (port < 64)
  | .trainingFrame port _ _ => decide (port < 64)
  | .trainingRetryExpiry port => decide (port < 64)
  | .level1Calibration port _ => decide (port < 64)
  | .ringSweepComplete port _ k _ => decide (k < 9) && decide (port < 64)
  | .pilotToneCheck port k _ => decide (k < 9) && decide (port < 64)
  | .serWindowExpiry port => decide (port < 64)
  | .laserFailure hearth k => decide (k < 9) && decide (hearth < 16)
  | .portRetrainWrite port => decide (port < 64)
  | .portDisable port => decide (port < 64)
  | .portEnable port => decide (port < 64)
  | .stileChangeComplete hearth pair => decide (pair < 2) && decide (hearth < 16)
  | .slewGovernorTick p => decide (p < 12)
  | .resetFlock _ => true
  | .resetPasture _ => true
  | .resetRouterSlice _ => true
  | .resetPort _ => true
  | .resetHearth _ => true
  | .resetDevice _ => true
  | .drainEnd => true
  | .drainLimitExpiry => true
  | .creditReturnMessage _ _ _ => true
  | .reinitAck _ => true
  | .resetPin => true
  | .powerOn => true
  | .powerLoss => true
  | .pllLockLoss bit => (pllScope bit).isSome
  | .pllLock bit => (pllScope bit).isSome
  | .droverBoot => true
  | .pastureRelease p => decide (p < 12)
  | .stackTrainingComplete s => decide (s < 12)
  | .thermalModelUpdate nodes => nodes.length == 233
  | .sensorReading readings => readings.length == 24
  | .powerMeasurement rails => rails.length == 712
  | .packagePowerMeasurement _ => true
  | .fractionApply p => decide (p < 12)
  | .fractionWatchdog p => decide (p < 12)
  | .gateDecisionWatchdog s => decide (s < 12)
  | .holdWrite _ => true
  | .sensorTrip site => decide (site < 24)
  | .eventPop => true
  | .drvRetire _ => true
  | .spareSelfTest f phys _ => decide (f < 672) && decide (phys < 128)
  | .musterPeriodicFrame port => decide (port < 64)
  | .musterSilenceExpiry port => decide (port < 64)
  | .voteExpiry _ _ => true
  | .drvDeclare _ => true
  | .stateArrayError => true
  | .shadowEnable _ => true
  | .shadowDisable _ => true
  | .stepMark => true
  | .digestComplete => true
  | .fwCommit => true
  | .fwActivateOnline _ => true
  | .fwActivateAtReset _ => true
  | .unitRestartComplete _ => true
  | .foldKeyEnrol _ => true
  | .foldKeyClear _ => true
  | .policyWrite _ => true
  | .relaySend _ => true
  | .rcRead _ _ _ => true
  | .registerWrite _ _ _ _ => true
  | .resetPinRelease => true
  | .railOutOfRange => true
  | .hearthLasersStable h _ => decide (h < 16)
  | .ringSetpointReturn port _ => decide (port < 64)
  | .sqReadError q => decide (q < 16)
  | .cqWriteError q => decide (q < 16)
  | .hostSnoop _ => true

/-- Whether the operands of a command that names an event fit their fields, and its register value is one of its row. -/
def Instr.fits : Instr → Bool
  | .alu _ _ _ => true
  | .alui _ _ _ => true
  | .li _ _ _ => true
  | .ld _ _ _ => true
  | .st _ _ _ => true
  | .br _ _ _ => true
  | .jal _ _ _ => true
  | .jr _ _ _ => true
  | .tixr _ _ _ => true
  | .qwait _ _ _ => true
  | .qwaitRelease _ _ => true
  | .stop _ _ _ => true
  | .nop _ _ _ => true
  | .sread _ _ _ => true
  | .movt _ _ _ => true
  | .mft _ _ _ => true
  | .taddi _ _ _ => true
  | .vop _ _ _ => true
  | .vops _ _ _ => true
  | .vfma _ _ _ => true
  | .vld _ _ _ => true
  | .vst _ _ _ => true
  | .vred _ _ _ => true
  | .vlane _ _ _ => true
  | .vmxq _ _ _ => true
  | .wload _ _ _ => true
  | .wswap _ _ _ => true
  | .stream _ _ _ => true
  | .drain _ _ _ => true
  | .tclr _ _ _ => true
  | .accview _ _ _ => true
  | .gdrain _ _ _ => true
  | .dma _ _ _ => true
  | .ratom _ _ _ => true
  | .rsig _ _ _ => true
  | .rfence _ _ _ => true
  | .sigadd _ _ _ => true
  | .sigrd _ _ _ => true
  | .siginit _ _ _ => true
  | .wait _ _ _ => true
  | .arrayStart _ _ => true
  | .arrayRowFetch _ _ _ _ => true
  | .roadRowArrival _ _ _ => true
  | .roadCreditReturn _ _ => true
  | .roadTimeout _ _ => true
  | .waitPoll _ _ => true
  | .waitSatisfied _ _ => true
  | .waitExpiry _ _ => true
  | .flkCoreHaltWrite _ _ => true
  | .flkCoreDoneWrite _ _ => true
  | .coreRestart _ _ => true
  | .dmaDescriptorStart _ _ => true
  | .dmaComplete _ _ _ => true
  | .dmaTimeout _ _ _ => true
  | .dmaPushAdmit _ => true
  | .baleReadComplete _ _ _ _ => true
  | .foldLoad v => bits v.toNat 1 0 == 1
  | .remap v => bits v.toNat 1 0 == 2
  | .unload v => bits v.toNat 1 0 == 3
  | .pipelineStart _ => true
  | .drvRankWrite _ => true
  | .stackWholeBaleRead _ _ => true
  | .stackTaggedWrite _ _ _ _ => true
  | .stackUntaggedWrite _ _ => true
  | .stackSectorRead _ _ => true
  | .stackSectorWrite _ _ _ _ => true
  | .stackEntryGrant _ => true
  | .refresh _ _ => true
  | .scrub _ _ _ => true
  | .zeroFill _ => true
  | .wipe _ => true
  | .wipeComplete _ => true
  | .writeGateChange _ _ => true
  | .heldWriteExpiry _ _ => true
  | .peatDescriptorAdmit _ _ _ => true
  | .gather _ _ _ => true
  | .segsum _ _ _ => true
  | .wpool _ _ _ => true
  | .optupd _ _ _ => true
  | .kread _ _ _ => true
  | .kwrite _ _ _ => true
  | .kadd _ _ _ => true
  | .peatRowRequest _ => true
  | .peatRowData _ _ => true
  | .deliveryBlock _ _ _ _ => true
  | .peatComplete _ _ _ => true
  | .cxlMemRead _ _ _ => true
  | .cxlMemWrite _ _ _ _ _ => true
  | .cxlHostEvict _ => true
  | .birsp _ _ => true
  | .biTimeout _ => true
  | .bar0Access _ _ _ => true
  | .cxlQsqDb _ _ => true
  | .cxlQcqDb _ _ => true
  | .queueEnable _ v => bit v.toNat 63
  | .queueDisable _ v => !bit v.toNat 63
  | .sqFetch _ _ => true
  | .queueNop _ _ => true
  | .queueCopy _ _ _ => true
  | .queueSignal _ _ => true
  | .queueFence _ _ => true
  | .cqPost _ => true
  | .farTierResponse _ _ => true
  | .farTierTimeout _ => true
  | .linkUp _ _ _ => true
  | .linkDown => true
  | .cxlReset => true
  | .ideFail => true
  | .getEventRecords => true
  | .clearEventRecords => true
  | .getEventInterruptPolicy => true
  | .setEventInterruptPolicy _ => true
  | .getFwInfo => true
  | .transferFw _ _ _ _ => true
  | .activateFw _ _ => true
  | .getSupportedLogs => true
  | .getLog _ => true
  | .mailboxUnsupported _ => true
  | .mctpSetEndpointId _ => true
  | .pldmRequest _ => true
  | .getVersion _ _ => true
  | .getCapabilities _ _ => true
  | .negotiateAlgorithms _ _ => true
  | .getDigests _ _ => true
  | .getCertificate _ _ => true
  | .challenge _ _ => true
  | .getMeasurements _ _ _ => true
  | .keyExchange _ _ => true
  | .finish _ _ => true
  | .endSession _ _ => true
  | .getLmsCert _ _ => true
  | .getLmsSig _ => true
  | .routerPacketArrival _ _ _ p _ => p.fits
  | .packetForward _ _ => true
  | .niPacketSend _ => true
  | .write p => p.fits
  | .read p => p.fits
  | .atomic p => p.fits
  | .signal p => p.fits
  | .cohFwd p => p.fits
  | .response p => p.fits
  | .ack p => p.fits
  | .contrib p => p.fits
  | .relayData _ p => p.fits
  | .relayAck _ p => p.fits
  | .relayResult _ p => p.fits
  | .relayActivate _ p => p.fits
  | .relayAbort _ p => p.fits
  | .relayAckTimeout => true
  | .flagHoldRelease _ => true
  | .resendIntervalExpiry _ => true
  | .deferredBackoffExpiry _ => true
  | .tagDeadlineExpiry _ => true
  | .ackTimerExpiry _ => true
  | .niPairReset _ => true
  | .klnSubmit _ _ => true
  | .bucketSubmit _ _ => true
  | .redeliverSubmit _ _ => true
  | .klnCtrlAbort _ => true
  | .klnCtrlReset _ => true
  | .collectiveStart _ => true
  | .chunkStart _ => true
  | .kilnPacketInject _ => true
  | .kilnStallExpiry _ => true
  | .kilnMemoryComplete _ _ _ => true
  | .collectiveEnd _ => true
  | .channelRowAccept _ => true
  | .chunkComplete _ _ => true
  | .verifyCompare _ _ => true
  | .sealExchangeStart _ => true
  | .bucketSeal _ => true
  | .redeliveryEnd _ => true
  | .codewordDecode _ _ _ => true
  | .controlCodeword _ _ => true
  | .swapReq _ _ _ _ _ => true
  | .swapAck _ _ _ _ _ => true
  | .laserOut _ _ => true
  | .retrain _ => true
  | .swapSwitch _ _ => true
  | .portTrain _ _ _ _ => true
  | .trainingFrame _ _ _ => true
  | .trainingRetryExpiry _ => true
  | .level1Calibration _ _ => true
  | .ringSweepComplete _ _ _ _ => true
  | .pilotToneCheck _ _ _ => true
  | .serWindowExpiry _ => true
  | .laserFailure _ _ => true
  | .portRetrainWrite _ => true
  | .portDisable _ => true
  | .portEnable _ => true
  | .stileChangeComplete _ _ => true
  | .slewGovernorTick _ => true
  | .resetFlock v => wfReset 1 v
  | .resetPasture v => wfReset 2 v
  | .resetRouterSlice v => wfReset 3 v
  | .resetPort v => wfReset 4 v
  | .resetHearth v => wfReset 5 v
  | .resetDevice v => wfReset 7 v
  | .drainEnd => true
  | .drainLimitExpiry => true
  | .creditReturnMessage _ _ _ => true
  | .reinitAck _ => true
  | .resetPin => true
  | .powerOn => true
  | .powerLoss => true
  | .pllLockLoss _ => true
  | .pllLock _ => true
  | .droverBoot => true
  | .pastureRelease _ => true
  | .stackTrainingComplete _ => true
  | .thermalModelUpdate _ => true
  | .sensorReading _ => true
  | .powerMeasurement _ => true
  | .packagePowerMeasurement _ => true
  | .fractionApply _ => true
  | .fractionWatchdog _ => true
  | .gateDecisionWatchdog _ => true
  | .holdWrite _ => true
  | .sensorTrip _ => true
  | .eventPop => true
  | .drvRetire _ => true
  | .spareSelfTest _ _ _ => true
  | .musterPeriodicFrame _ => true
  | .musterSilenceExpiry _ => true
  | .voteExpiry _ _ => true
  | .drvDeclare _ => true
  | .stateArrayError => true
  | .shadowEnable _ => true
  | .shadowDisable _ => true
  | .stepMark => true
  | .digestComplete => true
  | .fwCommit => true
  | .fwActivateOnline v => bit v.toNat 30 && !bit v.toNat 28
  | .fwActivateAtReset v => bit v.toNat 30 && bit v.toNat 28
  | .unitRestartComplete _ => true
  | .foldKeyEnrol v => bit v.toNat 63
  | .foldKeyClear v => bit v.toNat 62
  | .policyWrite _ => true
  | .relaySend v => bit v.toNat 28
  | .rcRead o _ _ => o != .fabric
  | .registerWrite o _ _ _ => o != .fabric
  | .resetPinRelease => true
  | .railOutOfRange => true
  | .hearthLasersStable _ _ => true
  | .ringSetpointReturn _ _ => true
  | .sqReadError _ => true
  | .cqWriteError _ => true
  | .hostSnoop _ => true

/-- Whether a command is well formed. -/
def Instr.wf (i : Instr) : Bool := i.known && i.fits

end Sys2Proof
end

