-- ==== Sys2Proof/Safety.lean ====
section
/-! DEFINITION. What claims call a safe run: memories in canonical form, a queue of well-formed commands, and records within the
bounds that the spec gives them. -/

namespace Sys2Proof

/-- A byte memory is in canonical form: addresses rise strictly, and no entry holds the value that an unlisted address reads
as, which is zero (log entry 5). -/
def Memory.wf (m : SMap Byte) : Bool := Machine.Sparse.wf 0 m

namespace Machine

/-- Stacked memory, the flock stores and the core scratches are in canonical form. -/
def State.memOk (s : State) : Prop := Memory.wf s.dram = true ∧ Memory.wf s.store = true ∧ Memory.wf s.scratch = true

/-- Every waiting command is well formed. -/
def State.queueOk (s : State) : Prop := ∀ c ∈ s.pending, c.wf = true

/-- The event ring holds at most 256 records (R682) and the retirement record at most 4,096 entries (R688). -/
def State.recordsOk (s : State) : Prop := s.evt.length ≤ 256 ∧ s.nor.length ≤ 4096

/-- The bounds of a core: four waiting array instructions (R112), 16 descriptors (R157), eight remote operations (R225). -/
def State.coresOk (s : State) : Prop :=
  ∀ f c, (s.core f c).queue.length ≤ 4 ∧ (s.core f c).dma.length ≤ 16 ∧ (s.core f c).remotes.length ≤ 8

/-- A step is safe: it goes on. -/
def Safe (o : Out) : Prop := ∃ t, o = .next t

/-! ### The terms in which claims about core instructions are stated -/

/-- Core `c` of flock `f` issues the word `w` of major opcode `op` now: it runs, nothing holds or withholds its issue, its
program counter lies in its program region (R128), no register of the word is awaited (R129), and the word is not ILLEGAL
(R176). -/
def State.Issues (s : State) (f c op : Nat) (w : Word64) : Prop :=
  f < 672 ∧ c < 120 ∧ iOp w = op ∧ s.canIssue f c = true ∧ (s.core f c).pc < (s.flock f).regionLen c ∧
    (scalarsUsed w).any (s.core f c).awaits = false ∧ illegal w = false

/-- Nothing but core `c` of flock `f` differs. -/
def OnlyCore (f c : Nat) (s t : State) : Prop :=
  t = { s with cores := t.cores } ∧ ∀ f' c', coreIdx f' c' ≠ coreIdx f c → t.core f' c' = s.core f' c'

/-- Nothing differs but that core `c` of flock `f` is now `k`. -/
def CoreBecomes (f c : Nat) (s : State) (k : Core) (t : State) : Prop := OnlyCore f c s t ∧ t.core f c = k

/-- The results of Table 5.5. -/
def aluTable (fn : Nat) (a b : Word32) : Word32 :=
  match fn with
  | 0x00 => a + b
  | 0x01 => a - b
  | 0x02 => a &&& b
  | 0x03 => a ||| b
  | 0x04 => a ^^^ b
  | 0x05 => a <<< (b.toNat % 32)
  | 0x06 => a >>> (b.toNat % 32)
  | 0x07 => a.sshiftRight (b.toNat % 32)
  | 0x08 => a * b
  | 0x09 => ((a.setWidth 64 * b.setWidth 64) >>> 32).setWidth 32
  | 0x0A => ((a.signExtend 64 * b.signExtend 64) >>> 32).setWidth 32
  | 0x0B => if a.slt b then 1 else 0
  | 0x0C => if a.ult b then 1 else 0
  | 0x0D => if a.slt b then a else b
  | _ => if a.slt b then b else a

/-- The branch conditions of R191. -/
def condTable (cond : Nat) (a b : Word32) : Bool :=
  match cond with
  | 0 => a == b
  | 1 => a != b
  | 2 => a.slt b
  | 3 => !a.slt b
  | 4 => a.ult b
  | _ => !a.ult b

/-! ### The terms in which claims about stacked memory are stated -/

/-- Nothing stands between stack `i` and its requesters: the stack answers requests (R312, R319), its write gate is open, no
request is at it or waits for it, no host holds or is asked for a line (R376), and the fold has no coherent window (R247). -/
def State.Plain (s : State) (i : Nat) : Prop :=
  i < 12 ∧ s.stkOpen i = true ∧ s.gateClosed i = false ∧ (s.stk i).ents = [] ∧ (s.stk i).waiting = [] ∧ (s.stk i).results = [] ∧
    s.trk = [] ∧ s.snoops = [] ∧ s.ni.lines = [] ∧ s.ni.brought = [] ∧ ∀ x, s.fold = some x → x.windows = []

/-! ### The terms in which claims about packets are stated -/

/-- A sequenced packet reaches the effect of its operation at once: the NI is in service with a fold loaded, an answer can be
queued (R426), it has no line to invalidate first (R487), CRC, job tag and form are right, the device is neither fenced nor a shadow, the SEQ is new (R433, R434), the packet does
not wait for its turn (R448), a replay entry is free where it takes one (R471), and no packet waits in a processing entry. -/
def State.Admits (s : State) (p : Packet) : Prop :=
  s.niUp = true ∧ s.injectRoom (s.ejectShare p) 2 = true ∧ s.mustForward p = false ∧ pktOk p = true ∧ p.jobTag.toNat = s.jobTag ∧ pktWellFormed p = true ∧
    p.len ≤ 512 ∧ s.fenced = false ∧ s.isShadow = false ∧ (s.rx p.src).classify p.epoch.toNat p.seq.toNat = .new ∧ p.flag = false ∧
    (p.op = 0x02 ∨ (s.ni.replayRoom (s.ejectShare p)).isSome = true) ∧ s.ni.proc = []

/-- A RESPONSE with a status and a payload waits for injection to the source of a packet, carrying its SEQ and TAG. -/
def State.Answered (s t : State) (p : Packet) (st : Nat) (bs : List Byte) : Prop :=
  ∃ q, t.queue (s.ejectShare p) (qInject 2) = s.queue (s.ejectShare p) (qInject 2) ++ [q] ∧ q.op = 0x20 ∧ q.status = st ∧
    q.dest = p.src ∧ q.seq = p.seq ∧ q.tag = p.tag ∧ q.payload = bs

/-! ### The terms in which claims about codewords are stated -/

/-- The codeword of 160 data bytes on the active slots `js` of port `q` (R597, R598). -/
def codewordOut (q : Nat) (js : List Nat) (data : List Byte) : Output :=
  .codeword q (js.zip ((onSlots js.length (rsEncode data)).map fun l => l.map fun x => BitVec.ofNat 10 x))

/-- Port `q` sends `n` codewords of flits and then a control codeword with a lane message and a muster frame, and nothing else; the
control codewords are numbered on (R599, R603). -/
def State.SendsControl (s t : State) (q n : Nat) (lane : LaneMsg) (muster : Option MusterFrame) : Prop :=
  ∃ (w : ControlWord) (flits : List Output), flits.length = n ∧ w.lane = lane ∧ w.muster = muster ∧ w.cseq = (s.port q).next ∧
    w.selfDevice = s.device ∧ w.selfPort = q ∧ w.credits.length = 8 ∧ (t.port q).next = ((s.port q).next + 1) % 2 ^ 16 ∧
    t.out = s.out ++ flits ++ [codewordOut q (t.slots q false) (controlBytes (ctlSigned w))]

/-- The codewords of flits that port `q` sends before its next control codeword. -/
def State.flitsDue (s : State) (q : Nat) : Nat := (20 - (s.port q).txPos) % 20

end Machine

end Sys2Proof
end

