-- ==== Sys2Proof/Certificates/Slice0/Obligations.lean ====
section
/-! DEFINITION. The statements for the provers. -/

section

open Sys2Proof Sys2Proof.Machine

/-- A step runs the command at the front of the queue: it is that command's effect on the state with the rest of the queue.
On an empty queue the block idles (log entry 9, the model's choice). No word of the table spells a command. -/
def Obligations.StepTakesFrontCommand : Prop :=
  ∀ (s : State) (c : Instr) (rest : List Instr) (nbits w : Nat),
    (s.pending = c :: rest → step s = exec c { s with pending := rest }) ∧ (s.pending = [] → step s = .next s) ∧
    decodeTableWord nbits w = none ∧ s.withFetchWord nbits w = s

/-- Every command ends in a next state and leaves the commands that wait as they are; none ends in a fault or a refusal. A
command that names no event of the part (`Instr.known`: a unit that the part does not have, an instruction word of another row,
data of the wrong length) changes nothing (log entry 14, the model's choice). -/
def Obligations.EveryWellFormedCommandCompletes : Prop :=
  ∀ (i : Instr) (s : State),
    (∃ t, exec i s = .next t ∧ t.pending = s.pending) ∧ (i.known = false → exec i s = .next s)

/-- The state after reset (R640, Tables 21.1 to 21.12): every register but SEC_BANK 0 holds its reset value, nothing is in
any memory, no core runs, no fold is loaded and no command waits. That unlisted bytes of memory read zero and that bank A is
VALID are the model's choices (log entries 3 and 5). -/
def Obligations.ResetStateHoldsResetValues : Prop :=
  (∀ (r : Reg) (i j : Nat), r.addr i j ≠ Reg.secBank.addr 0 0 → State.reset.reg r i j = r.resetVal % 2 ^ 64) ∧
  (∀ a, Sparse.get 0 State.reset.dram a = 0 ∧ Sparse.get 0 State.reset.store a = 0 ∧ Sparse.get 0 State.reset.scratch a = 0) ∧
  (∀ f c, State.reset.core f c = Core.fresh ∧ State.reset.canIssue f c = false) ∧ State.reset.fold = none ∧ State.reset.ni = Ni.fresh ∧
  State.reset.inReset = true ∧ State.reset.pending = [] ∧ State.reset.queueOk ∧ State.reset.memOk ∧ State.reset.recordsOk ∧
  State.reset.coresOk

/-- Every step goes on and takes exactly the front command from the queue; a queue of well-formed commands stays one. -/
def Obligations.StepKeepsTheQueue : Prop :=
  ∀ s : State, ∃ t, step s = .next t ∧ t.pending = s.pending.drop 1 ∧ (s.queueOk → t.queueOk)

/-- Every step keeps stacked memory, the flock stores and the core scratches in canonical form. -/
def Obligations.StepKeepsMemoryCanonical : Prop :=
  ∀ s t : State, s.memOk → step s = .next t → t.memOk

/-- Every step keeps the bounds that the spec gives: at most 256 event records (R682), 4,096 entries of the retirement record
(R688), and for each core four waiting array instructions (R112), 16 descriptors (R157) and eight remote operations (R225). -/
def Obligations.StepKeepsTheBounds : Prop :=
  ∀ s t : State, s.recordsOk → s.coresOk → step s = .next t → t.recordsOk ∧ t.coresOk

/-- Every field of every register behaves as its access code says (R4, Table 0.3): what a read gives and leaves, and what a
write leaves; a bit that no field covers reads zero and keeps its stored value. -/
def Obligations.RegisterFieldsFollowTheirCodes : Prop :=
  ∀ (r : Reg) (old v : Nat),
    (∀ f ∈ r.row.fields,
      bits (r.written old v) f.hi f.lo = (match f.acc with | .rw => bits v f.hi f.lo | .w1c => bits old f.hi f.lo &&& (2 ^ 64 - 1 - bits v f.hi f.lo) | .w1s => bits old f.hi f.lo ||| bits v f.hi f.lo | _ => bits old f.hi f.lo) ∧
      bits (r.afterRead old) f.hi f.lo = (if f.acc = .rc then 0 else bits old f.hi f.lo) ∧
      bits (r.readVal old) f.hi f.lo = (if f.acc = .wo then 0 else bits old f.hi f.lo)) ∧
    ∀ b, (∀ f ∈ r.row.fields, b < f.lo ∨ f.hi < b) →
      bit (r.readVal old) b = false ∧ bit (r.written old v) b = bit old b ∧ bit (r.afterRead old) b = bit old b

/-- Register accesses (R2, R3, R370) while the origin reaches the registers: a read of a register answers with its readable fields
and clears those of code RC; a write by the host or the drover of a register without an action of its own changes its fields by
their codes and answers nothing; an access that breaks R2 or R3 changes neither cores nor memory, and a read, or a write of the
drover, is answered with ADDRESS_FAULT; another device writes no register (R33); BAR0 is the window of the host. -/
def Obligations.RegisterAccesses : Prop :=
  ∀ (s : State) (o : Origin) (a width : Nat), s.reaches o = true →
    (∀ r i j, regTarget a width = some (r, i, j) →
      exec (.rcRead o a width) s = .next ((s.setReg r i j (r.afterRead (s.reg r i j))).emit (.regDone o a stOk (r.readVal (s.live r i j)))) ∧
      (∀ v : Word64, o ≠ .fabric → r ∈ [.flkTimeouts, .rtrAdapt, .hthCfg, .niResend, .klnStall, .thmSlew, .drvMusterCfg, .drvShadowRing, .drvShadowWin, .niFaultInfo, .flkFaultInfo] →
        exec (.registerWrite o a width v) s = .next (s.setReg r i j (r.written (s.reg r i j) (v.toNat % 2 ^ (8 * width))))) ∧
      ∀ v, o = .fabric → ∃ t, exec (.registerWrite o a width v) s = .next t ∧ t.cores = s.cores ∧ t.store = s.store ∧ t.dram = s.dram) ∧
    (regTarget a width = none →
      (∃ t u : State, exec (.rcRead o a width) s = .next (t.emit (.regDone o a stAddressFault 0)) ∧ t.cores = s.cores ∧
        t.store = s.store ∧ t.scratch = s.scratch ∧ t.dram = s.dram ∧
        ∀ v, exec (.registerWrite o a width v) s = .next u ∧ u = if o = .drover then t.emit (.regDone o a stAddressFault 0) else t)) ∧
    (∀ off, off < 2 ^ 30 → a = 0x030000000000 + off → o = .host →
      exec (.bar0Access off width none) s = exec (.rcRead .host a width) s ∧
      ∀ v, exec (.bar0Access off width (some v)) s = exec (.registerWrite .host a width v) s ∧
        ∃ t u, exec (.bar0Access off width none) s = .next t ∧ exec (.bar0Access off width (some v)) s = .next u)

/-- Registers of a core (Table 4.1, R178). s0 reads as zero and discards a write; a write to another scalar register, a lane
of a vector register or a tile-address register is read back, cut to the register's width (a tile-address register keeps its
reserved bits zero, R201), and every other register of that kind reads as before. -/
def Obligations.CoreRegistersReadBack : Prop :=
  ∀ (k : Core) (r r' v l l' x : Nat),
    k.s 0 = 0 ∧ k.setS 0 x = k ∧
    (r ≠ 0 → (k.setS r x).s r = x % 2 ^ 32) ∧ (r' ≠ r → (k.setS r x).s r' = k.s r') ∧
    (k.setS r x).vreg = k.vreg ∧ (k.setS r x).treg = k.treg ∧
    k.pair 0 = k.s 1 * 2 ^ 32 ∧ (k.setPair (2 * r) x).s (2 * r + 1) = x / 2 ^ 32 % 2 ^ 32 ∧
    (r ≠ 0 → (k.setPair (2 * r) x).pair (2 * r) = x % 2 ^ 64) ∧
    (k.setT r x).t r = bits x 63 48 * 2 ^ 48 + bits x 42 40 * 2 ^ 40 + bits x 21 0 ∧
    (r' ≠ r → (k.setT r x).t r' = k.t r') ∧
    (k.setLane v l x).lane v l = x % 2 ^ 32 ∧
    (l < 16 → l' < 16 → (r' ≠ v ∨ l' ≠ l) → (k.setLane v l x).lane r' l' = k.lane r' l') ∧
    ∀ xs : List Nat, xs.length = 16 → l < 16 →
      (k.setLanes v xs).lane v l = xs.getD l 0 % 2 ^ 32 ∧ (r' ≠ v → (k.setLanes v xs).lane r' l = k.lane r' l) ∧
      (k.setLanes v xs).sreg = k.sreg

/-- ALU and ALUI (R188, Table 5.5): sd takes `sa op sb`, or `sa op IMM`, of 32-bit values; PC moves on, and nothing else in
the part changes. -/
def Obligations.AluAndAluiWriteTable55 : Prop :=
  ∀ (s : State) (f c : Nat) (w : Word64),
    (s.Issues f c 0x01 w → ∃ t, exec (.alu f c w) s = .next t ∧
      CoreBecomes f c s { (s.core f c).setS (iA w) (aluTable (iFn w) (BitVec.ofNat 32 ((s.core f c).s (iB w))) (BitVec.ofNat 32 ((s.core f c).s (iC w)))).toNat with pc := (s.core f c).pc + 1 } t) ∧
    (s.Issues f c 0x02 w → ∃ t, exec (.alui f c w) s = .next t ∧
      CoreBecomes f c s { (s.core f c).setS (iA w) (aluTable (iFn w) (BitVec.ofNat 32 ((s.core f c).s (iB w))) (BitVec.ofNat 32 (iImm w))).toNat with pc := (s.core f c).pc + 1 } t)

/-- LI, TIXR, MFT and NOP (R189, R194, R198, R202), MOVT and TADDI (R201, R203): the destination takes the value, PC moves on
and nothing else in the core or the part changes; TIXR with CLEAR also clears the core's TALLY_INEXACT flag, and only that
bit of the register that holds it. -/
def Obligations.MovesWriteTheirDestination : Prop :=
  ∀ (s : State) (f c : Nat) (w : Word64),
    let k := s.core f c
    let bi := coreBit .flkArithInexactLo .flkArithInexactHi c
    (s.Issues f c 0x03 w → ∃ t, exec (.li f c w) s = .next t ∧
      CoreBecomes f c s { k.setS (iA w) (iImm w) with pc := k.pc + 1 } t) ∧
    (s.Issues f c 0x0B w → bit (iFn w) 0 = false → ∃ t, exec (.tixr f c w) s = .next t ∧
      CoreBecomes f c s { k.setS (iA w) (if s.inexactFlag f c then 1 else 0) with pc := k.pc + 1 } t) ∧
    (s.Issues f c 0x0B w → bit (iFn w) 0 = true → ∃ t, exec (.tixr f c w) s = .next t ∧
      t.core f c = { k.setS (iA w) (if s.inexactFlag f c then 1 else 0) with pc := k.pc + 1 } ∧
      t.inexactFlag f c = false ∧ t = { s with cores := t.cores, regs := t.regs } ∧
      (∀ (r : Reg) (i j : Nat), r.addr i j ≠ bi.1.addr f 0 → t.reg r i j = s.reg r i j) ∧
      (∀ b, b ≠ bi.2 → t.rbit bi.1 f 0 b = s.rbit bi.1 f 0 b) ∧
      ∀ f' c', coreIdx f' c' ≠ coreIdx f c → t.core f' c' = s.core f' c') ∧
    (s.Issues f c 0x11 w → ∃ t, exec (.mft f c w) s = .next t ∧
      CoreBecomes f c s { k.setS (iA w) (if bit (iFn w) 0 then k.t (iB w) / 2 ^ 32 else k.t (iB w) % 2 ^ 32) with pc := k.pc + 1 } t) ∧
    (s.Issues f c 0x0E w → ∃ t, exec (.nop f c w) s = .next t ∧ CoreBecomes f c s { k with pc := k.pc + 1 } t) ∧
    (s.Issues f c 0x10 w → ∃ t, exec (.movt f c w) s = .next t ∧
      CoreBecomes f c s { k.setT (iA w) (k.s (iB w) + k.s (iC w) * 2 ^ 32) with pc := k.pc + 1 } t) ∧
    (s.Issues f c 0x12 w → ∃ t, exec (.taddi f c w) s = .next t ∧
      CoreBecomes f c s { k.setT (iA w) (setBits (k.t (iB w)) 21 0 (((k.t (iB w) % 2 ^ 22 : Nat) + (BitVec.ofNat 32 (iImm w)).toInt) % 2 ^ 22).toNat) with pc := k.pc + 1 } t)

/-- LD (R190): 1, 2 or 4 bytes from the address of R179 go to sd, zero- or sign-extended; nothing else changes. ST, VST and
SIGINIT (R190, R207, R230): the bytes are written at the address, which lies in the core's own memories, and PC moves on; no
other byte of memory changes, no register, and no other core, but that a monitored WAIT may be satisfied (R507). SREAD (R199,
R200, Table 5.7): sd takes what the selector names. CYCLE_LO gives the low half of a cycle count that has risen since the last
reading by a free number of cycles (log entry 1) and captures its high half, which CYCLE_HI gives. -/
def Obligations.LoadsStoresAndSread : Prop :=
  (∀ (s : State) (f c : Nat) (w : Word64) (p : Place), s.Issues f c 0x04 w →
     effAddr f c (s.core f c) (iSpace w) (iB w) (iImm w) (2 ^ bits (iFn w) 1 0) (2 ^ bits (iFn w) 1 0) false = .ok p →
     ∃ t, exec (.ld f c w) s = .next t ∧
       CoreBecomes f c s { (s.core f c).setS (iA w) (let v := ofLE (s.rdPlace f c p (2 ^ bits (iFn w) 1 0)); if bit (iFn w) 2 then ((BitVec.ofNat (8 * 2 ^ bits (iFn w) 1 0) v).signExtend 32).toNat else v) with pc := (s.core f c).pc + 1 } t) ∧
  (∀ (s : State) (f c : Nat) (w : Word64),
     let k := s.core f c
     let st (op : Nat) (i : Instr) (base imm align n : Nat) (strict : Bool) (bs : List Byte) : Prop :=
       ∀ p, s.Issues f c op w → effAddr f c k (iSpace w) base imm align n strict = .ok p → ∃ t, exec i s = .next t ∧
         t = { s with cores := t.cores, store := t.store, scratch := t.scratch } ∧
         (if p.inStore then t.scratch = s.scratch else t.store = s.store) ∧ t.rdPlace f c p n = bs ∧
         (∀ a, ¬(p.inStore = true ∧ f * storeSize + p.off ≤ a ∧ a < f * storeSize + p.off + n) →
           Sparse.get 0 t.store a = Sparse.get 0 s.store a) ∧
         (∀ a, ¬(p.inStore = false ∧ coreIdx f c * scratchSize + p.off ≤ a ∧ a < coreIdx f c * scratchSize + p.off + n) →
           Sparse.get 0 t.scratch a = Sparse.get 0 s.scratch a) ∧
         t.core f c = { k with pc := k.pc + 1 } ∧
         ∀ f' c', coreIdx f' c' ≠ coreIdx f c → ∃ h, t.core f' c' = { s.core f' c' with hold := h }
     let n := 2 ^ bits (iFn w) 1 0
     st 0x05 (.st f c w) (iB w) (iImm w) n n false (leBytes n (k.s (iA w))) ∧
     (∀ m, vecBytes (bits (iFn w) 4 0) = some m →
       st 0x24 (.vst f c w) (iB w) (iImm w) m m false
         (packElems (bits (iFn w) 4 0) ((k.lanes (iA w)).map (narrow (bits (iFn w) 4 0))))) ∧
     st 0x6A (.siginit f c w) (iB w) (iImm w) 8 8 true (leBytes 8 (k.pair (iA w)))) ∧
  (∀ (s : State) (f c : Nat) (w : Word64), s.Issues f c 0x0F w →
     let k := s.core f c
     let n := k.cycles + 1 + s.freeVal.toNat
     (iFn w ≠ 4 → ∃ t, exec (.sread f c w) s = .next t ∧
       CoreBecomes f c s { k.setS (iA w) (match iFn w with | 0 => f / 56 * 2 ^ 13 + f % 56 * 2 ^ 7 + c | 1 => s.fld .drvSelf 0 0 29 16 | 2 => s.fld .drvSelf 0 0 46 32 | 3 => s.fld .drvSelf 0 0 13 0 | 5 => k.cycleHi.toNat | _ => (s.flock f).regionLen c) with pc := k.pc + 1 } t) ∧
     (iFn w = 4 → ∃ t, exec (.sread f c w) s = .next t ∧ t = { s with cores := t.cores, fresh := s.fresh + 1 } ∧
       t.core f c = { k.setS (iA w) (n % 2 ^ 32) with cycles := n, cycleHi := BitVec.ofNat 32 (n / 2 ^ 32), pc := k.pc + 1 } ∧
       ∀ f' c', coreIdx f' c' ≠ coreIdx f c → t.core f' c' = s.core f' c'))

/-- BR, JAL and JR (R191, R192, R193): the next PC and the link register; a target outside the program region raises FETCH of
the branch itself, with no link. -/
def Obligations.BranchesSetThePc : Prop :=
  ∀ (s : State) (f c : Nat) (w : Word64),
    let k := s.core f c
    let len := (s.flock f).regionLen c
    let rel := (k.pc : Int) + (BitVec.ofNat 32 (iImm w)).toInt
    let cond := condTable (iFn w) (BitVec.ofNat 32 (k.s (iA w))) (BitVec.ofNat 32 (k.s (iB w)))
    let idx := (BitVec.ofNat 32 (k.s (iB w)) + BitVec.ofNat 32 (iImm w)).toNat
    (s.Issues f c 0x08 w → cond = false → ∃ t, exec (.br f c w) s = .next t ∧
      CoreBecomes f c s { k with pc := k.pc + 1 } t) ∧
    (s.Issues f c 0x08 w → cond = true → 0 ≤ rel → rel < len → ∃ t, exec (.br f c w) s = .next t ∧
      CoreBecomes f c s { k with pc := rel.toNat } t) ∧
    (s.Issues f c 0x08 w → cond = true → ¬(0 ≤ rel ∧ rel < len) →
      exec (.br f c w) s = .next (s.precise f c 0x4 0 0x08)) ∧
    (s.Issues f c 0x09 w → 0 ≤ rel → rel < len → ∃ t, exec (.jal f c w) s = .next t ∧
      CoreBecomes f c s { k.setS (iA w) (k.pc + 1) with pc := rel.toNat } t) ∧
    (s.Issues f c 0x09 w → ¬(0 ≤ rel ∧ rel < len) →
      exec (.jal f c w) s = .next (s.precise f c 0x4 0 0x09)) ∧
    (s.Issues f c 0x0A w → idx < len → ∃ t, exec (.jr f c w) s = .next t ∧
      CoreBecomes f c s { k.setS (iA w) (k.pc + 1) with pc := idx } t) ∧
    (s.Issues f c 0x0A w → ¬idx < len →
      exec (.jr f c w) s = .next (s.precise f c 0x4 0 0x0A))

/-- QWAIT, RFENCE, STOP and the release of one that holds issue (R183, R195, R197, R226): where the condition holds issue
goes on (STOP: the core stops with its done bit set), and otherwise issue is held until QWAIT_RELEASE finds that it holds. -/
def Obligations.WaitsHoldIssueUntilDone : Prop :=
  ∀ (s : State) (f c : Nat) (w : Word64),
    let k := s.core f c
    let arr := k.queue = [] ∧ k.runs = []
    let qw (m : Nat) : Prop := (bit m 0 = true → arr) ∧ (bit m 1 = true → k.dma = [])
    let fence := k.remotes = [] ∧ ∀ d ∈ k.dma, d.op = 0x08 ∨ d.op = 0x09 → d.started = true ∧ d.left = 0 ∧ d.land = []
    let go (i : Instr) (h : Hold) (n : Nat) : Prop := ∃ t, exec i s = .next t ∧ CoreBecomes f c s { k with hold := h, pc := n } t
    let stops (i : Instr) (n : Nat) : Prop := ∃ t, exec i s = .next t ∧ t.doneBit f c = true ∧
      t.core f c = { k with hold := .free, pc := n } ∧ t = { s with cores := t.cores, regs := t.regs }
    (s.Issues f c 0x0C w → qw (iFn w) → go (.qwait f c w) .free (k.pc + 1)) ∧
    (s.Issues f c 0x0C w → ¬qw (iFn w) → go (.qwait f c w) (.qwait (iFn w)) (k.pc + 1)) ∧
    (s.Issues f c 0x63 w → fence → go (.rfence f c w) .free (k.pc + 1)) ∧
    (s.Issues f c 0x63 w → ¬fence → go (.rfence f c w) .rfence (k.pc + 1)) ∧
    (s.Issues f c 0x0D w → arr ∧ k.dma = [] ∧ k.remotes = [] → stops (.stop f c w) (k.pc + 1)) ∧
    (s.Issues f c 0x0D w → ¬(arr ∧ k.dma = [] ∧ k.remotes = []) → go (.stop f c w) .stop (k.pc + 1)) ∧
    (f < 672 → c < 120 → ∀ m, k.hold = .qwait m → qw m → go (.qwaitRelease f c) .free k.pc) ∧
    (f < 672 → c < 120 → k.hold = .rfence → fence → go (.qwaitRelease f c) .free k.pc) ∧
    (f < 672 → c < 120 → k.hold = .stop → arr ∧ k.dma = [] ∧ k.remotes = [] → stops (.qwaitRelease f c) k.pc)

/-- VOP, VOPS, VFMA, VRED, VLANE and VLD (R204, R207, R208, R209): the destination register takes the lanes or the value, PC
moves on, and nothing else changes. The vector functions on single lanes (Table 5.8, R205, R206): ABS and NEG act on the sign
bit alone, MIN and MAX order −0 below +0, a NaN operand gives the canonical NaN (MIN, MAX) or +0 (CMPGT), and the special
cases of LOG2 and RCP. VMXQ (R210): the 32 values of va and va + 1 are quantised, the packed elements are written at the
address in the A register and then the scale byte at that in the C register, no other byte of memory changes, and PC moves
on. -/
def Obligations.VectorInstructions : Prop :=
  (∀ (s : State) (f c : Nat) (w : Word64),
     let k := s.core f c
     let vec (i : Instr) (ls : List Nat) : Prop :=
       ∃ t, exec i s = .next t ∧ CoreBecomes f c s { k.setLanes (iA w) ls with pc := k.pc + 1 } t
     let sca (i : Instr) (v : Nat) : Prop :=
       ∃ t, exec i s = .next t ∧ CoreBecomes f c s { k.setS (iA w) v with pc := k.pc + 1 } t
     let lane := bits (iFn w) 3 0
     let code := bits (iFn w) 4 0
     (s.Issues f c 0x20 w → iFn w < 0x10 → vec (.vop f c w)
       ((List.range 16).map fun l => vBinary (iFn w) (k.lane (iB w) l) (k.lane (iC w) l))) ∧
     (s.Issues f c 0x20 w → 0x10 ≤ iFn w → vec (.vop f c w)
       ((List.range 16).map fun l => vUnary (iFn w) (k.lane (iB w) l))) ∧
     (s.Issues f c 0x21 w → vec (.vops f c w)
       ((List.range 16).map fun l => vBinary (iFn w) (k.lane (iB w) l) (k.s (iC w)))) ∧
     (s.Issues f c 0x22 w → vec (.vfma f c w)
       ((List.range 16).map fun l => fFma (k.lane (iB w) l) (k.lane (iC w) l) (k.lane (iA w) l))) ∧
     (s.Issues f c 0x25 w → sca (.vred f c w) (vReduce (iFn w) ((List.range 16).map (k.lane (iB w))))) ∧
     (s.Issues f c 0x26 w → bits (iFn w) 8 7 = 0 → ∃ t, exec (.vlane f c w) s = .next t ∧
       CoreBecomes f c s { k.setLane (iA w) lane (k.s (iC w)) with pc := k.pc + 1 } t) ∧
     (s.Issues f c 0x26 w → bits (iFn w) 8 7 = 1 → sca (.vlane f c w) (k.lane (iB w) lane)) ∧
     (s.Issues f c 0x26 w → bits (iFn w) 8 7 = 2 → vec (.vlane f c w) (List.replicate 16 (k.s (iC w)))) ∧
     ∀ n p, s.Issues f c 0x23 w → vecBytes code = some n →
       effAddr f c k (iSpace w) (iB w) (iImm w) n n false = .ok p →
       vec (.vld f c w) ((List.range 16).map fun l => widen code (packedElem code (s.rdPlace f c p n) l))) ∧
  (∀ a b : Nat, a < 2 ^ 32 → b < 2 ^ 32 →
     vUnary 0x10 a = a % 2 ^ 31 ∧ (vUnary 0x11 a = if a < 2 ^ 31 then a + 2 ^ 31 else a - 2 ^ 31) ∧
     vBinary 0x03 0x80000000 0 = 0x80000000 ∧ vBinary 0x03 0 0x80000000 = 0x80000000 ∧
     vBinary 0x04 0x80000000 0 = 0 ∧ vBinary 0x04 0 0x80000000 = 0 ∧
     ((f32 a).isNan = true ∨ (f32 b).isNan = true →
       (f32 (vBinary 0x03 a b)).isNan = true ∧ (f32 (vBinary 0x04 a b)).isNan = true ∧ vBinary 0x05 a b = 0) ∧
     vBinary 0x05 0x3F800000 0 = 0x3F800000 ∧ vBinary 0x05 0 0x3F800000 = 0 ∧
     vUnary 0x13 0 = 0xFF800000 ∧ vUnary 0x13 0x80000000 = 0xFF800000 ∧ (f32 (vUnary 0x13 0xBF800000)).isNan = true ∧
     vUnary 0x14 0 = 0x7F800000 ∧ vUnary 0x14 0x80000000 = 0xFF800000) ∧
  (∀ (s : State) (f c : Nat) (w : Word64) (pe ps : Place),
     let k := s.core f c
     let code := bits (iFn w) 4 0
     let q := mxQuantise code (k.lanes (iB w) ++ k.lanes (iB w + 1))
     s.Issues f c 0x27 w → fmtMx code = true →
     effAddr f c k (iSpace w) (iA w) 0 8 (packedLen code 32) false = .ok pe →
     effAddr f c k (iSpace w) (iC w) 0 1 1 false = .ok ps →
     ∃ t, exec (.vmxq f c w) s = .next t ∧ t.core f c = { k with pc := k.pc + 1 } ∧
       t.rdPlace f c ps 1 = [BitVec.ofNat 8 q.1] ∧
       t = { s with cores := t.cores, store := t.store, scratch := t.scratch } ∧
       (∀ f' c', coreIdx f' c' ≠ coreIdx f c → ∃ h, t.core f' c' = { s.core f' c' with hold := h }) ∧
       (∀ a, ¬(pe.inStore = true ∧ f * storeSize + pe.off ≤ a ∧ a < f * storeSize + pe.off + packedLen code 32) →
         ¬(ps.inStore = true ∧ a = f * storeSize + ps.off) → Sparse.get 0 t.store a = Sparse.get 0 s.store a) ∧
       (∀ a, ¬(pe.inStore = false ∧ coreIdx f c * scratchSize + pe.off ≤ a ∧ a < coreIdx f c * scratchSize + pe.off + packedLen code 32) →
         ¬(ps.inStore = false ∧ a = coreIdx f c * scratchSize + ps.off) → Sparse.get 0 t.scratch a = Sparse.get 0 s.scratch a) ∧
       ((pe.inStore ≠ ps.inStore ∨ ps.off < pe.off ∨ pe.off + packedLen code 32 ≤ ps.off) →
         t.rdPlace f c pe (packedLen code 32) = packElems code q.2))

/-- What ends an instruction at issue instead of its effect (R128, R176, R193, R180, R129): a PC past the region raises
FETCH, a word of R176 raises ILLEGAL, a MEM address raises MEM; each halts the core before the instruction takes effect. A
core that cannot issue, or whose word reads a register that is awaited, does nothing. Stated of ALU, LD and the shared issue
of every row. Taking a core fault (R164 to R168): the register keeps the first fault while VALID is 1 and takes OVERRUN
alone, otherwise it takes VALID, CLASS, STATUS, DROPPED, PC and the other fields of Table 4.5; the core halts, its waiting
array instructions are discarded, and no other core changes. -/
def Obligations.FaultsAtIssueHaltTheCore : Prop :=
  (∀ (s : State) (f c op : Nat) (w : Word64) (k : State → State), f < 672 → c < 120 → iOp w = op →
     let pc := (s.core f c).pc
     let len := (s.flock f).regionLen c
     (s.canIssue f c = false → issue op f c w s k = .next s) ∧
     (s.canIssue f c = true → len ≤ pc → issue op f c w s k = .next (s.fetchFault f c)) ∧
     (s.canIssue f c = true → pc < len → (scalarsUsed w).any (s.core f c).awaits = true → issue op f c w s k = .next s) ∧
     (s.canIssue f c = true → pc < len → (scalarsUsed w).any (s.core f c).awaits = false → illegal w = true →
       issue op f c w s k = .next (s.precise f c 0x2 0 op)) ∧
     (opRow op = none → illegal w = true ∧ ∃ t, exec (.alu f c w) s = .next t) ∧
     (∀ st a, s.Issues f c 0x04 w →
       effAddr f c (s.core f c) (iSpace w) (iB w) (iImm w) (2 ^ bits (iFn w) 1 0) (2 ^ bits (iFn w) 1 0) false = .bad st a →
       exec (.ld f c w) s = .next ((s.flkLog f a st 0 (coreId f c)).precise f c 0x3 st 0x04))) ∧
  (∀ (s : State) (f c cls st dropped pc op seq : Nat) (im : Bool), f < 672 → c < 120 → cls < 16 → st < 16 → dropped < 32 →
     pc < 2 ^ 20 → op < 256 → seq < 2 ^ 16 →
     let t := s.coreFault f c cls st dropped pc op seq im
     let old := s.reg .flkCoreFault f c
     let v := t.reg .flkCoreFault f c
     t.halted f c = true ∧ t.doneBit f c = s.doneBit f c ∧
     t.core f c = { s.core f c with queue := [], hold := .free } ∧
     (∀ f' c', coreIdx f' c' ≠ coreIdx f c → t.core f' c' = s.core f' c') ∧
     t.store = s.store ∧ t.scratch = s.scratch ∧ t.dram = s.dram ∧
     (bit old 63 = true → v = setBit old 62 true) ∧
     (bit old 63 = false → bit v 63 = true ∧ bit v 62 = bit old 62 ∧ bit v 61 = im ∧ bits v 59 56 = cls ∧ bits v 55 52 = st ∧
       bits v 51 47 = dropped ∧ bits v 43 24 = pc ∧ bits v 23 16 = op ∧ bits v 15 0 = seq))

/-- The array instructions WLOAD, WSWAP, STREAM, DRAIN, TCLR, ACCVIEW and GDRAIN issue into the array queue with the operands
that they read at issue (R112, R130, R182, R213, R214); with four entries waiting none issues, and a format code that WLOAD,
STREAM or DRAIN does not accept raises FORMAT_FAULT (R177). ARRAY_START (R113, R89, R90, R217, R218): the head of the queue
starts. WSWAP exchanges the tiles, TCLR empties its rows, ACCVIEW sets its view; WLOAD, STREAM, DRAIN and GDRAIN run from then
on. An entry that meets a cause of Table 3.8 halts the core instead (R119 to R122): the rest of its queue is discarded, its
running instructions and its tallies stay, and the two fault registers, where they hold no fault yet, take the cause and the
entry's own index. -/
def Obligations.ArrayQueueTakesAndStarts : Prop :=
  (∀ (s : State) (f c : Nat) (w : Word64),
     let k := s.core f c
     let e : ArrayEntry := { w := w, pc := k.pc, ta := BitVec.ofNat 64 (k.t (iA w % 8)), ta1 := BitVec.ofNat 64 (k.t ((iA w + 1) % 8)), tb := BitVec.ofNat 64 (k.t (iB w % 8)), sb := BitVec.ofNat 32 (k.s (iB w)), sc := BitVec.ofNat 32 (k.s (iC w)) }
     let fmt := bits (iFn w) 4 0
     let n := if iNreg w then k.s (iC w) else bits (iImm w) 20 0
     let array := [1, 2, 3, 4, 5, 6, 8, 10, 11, 12, 13]
     let enters (op : Nat) (i : Instr) (ok : Prop) : Prop :=
       (s.Issues f c op w → k.queue.length < 4 → ok → ∃ t, exec i s = .next t ∧
         CoreBecomes f c s { k with queue := k.queue ++ [e], pc := k.pc + 1 } t) ∧
       (s.Issues f c op w → k.queue.length < 4 → ¬ok →
         exec i s = .next ((s.arrayLog f c 0x1 0 fmt 0 0 0).precise f c 0x1 0 op)) ∧
       (s.Issues f c op w → 4 ≤ k.queue.length → exec i s = .next s)
     enters 0x40 (.wload f c w) (fmt ∈ array) ∧ enters 0x41 (.wswap f c w) True ∧
     enters 0x42 (.stream f c w) (fmt ∈ array ∧ (128 < n ∨ bit (iFn w) 7 = true → bits (iImm w) 31 27 ∈ [0, 1, 2, 3, 4, 5, 16])) ∧
     enters 0x43 (.drain f c w) (fmt ∈ [0, 1, 2, 3, 4, 5, 16, 17, 18]) ∧
     enters 0x44 (.tclr f c w) True ∧ enters 0x45 (.accview f c w) True ∧ enters 0x46 (.gdrain f c w) True) ∧
  (∀ (s : State) (f c : Nat) (e : ArrayEntry) (rest : List ArrayEntry), f < 672 → c < 120 →
     let k := s.core f c
     let s' := s.setCore f c { k with queue := rest }
     let v := bits (iFn e.w) 6 5
     k.queue = e :: rest → k.canStart e = true → s.withheld f = false → s.flockQuiet f = false →
     let becomes (k' : Core) : Prop := ∃ t, exec (.arrayStart f c) s = .next t ∧ CoreBecomes f c s k' t
     (startCause s' f c e = none →
       (iOp e.w = 0x41 → becomes { k with queue := rest, active := k.standby, standby := k.active, loaded := false }) ∧
       (iOp e.w = 0x45 → becomes { k with queue := rest, view := Sparse.set (viewReset v) k.view v (BitVec.ofNat 32 (iImm e.w)) }) ∧
       (iOp e.w = 0x44 → ∃ t, exec (.arrayStart f c) s = .next t ∧ OnlyCore f c s t ∧
         t.core f c = { k with queue := rest, tally := (t.core f c).tally } ∧
         (∀ r i, i < 16 → k.viewBase v ≤ r → r < k.viewBase v + e.count → (t.core f c).tly r i = Tally.empty) ∧
         ∀ r i, i < 16 → (r < k.viewBase v ∨ k.viewBase v + e.count ≤ r) → (t.core f c).tly r i = k.tly r i) ∧
       (iOp e.w = 0x40 → becomes { k with queue := rest, standby := none, loaded := false, runs := k.runs ++ [{ e := e, done := 0, total := 16, segs := [], scales := [] }] }) ∧
       (iOp e.w = 0x42 ∨ iOp e.w = 0x43 ∨ iOp e.w = 0x46 → becomes { k with queue := rest, runs := k.runs ++ [{ e := e, done := 0, total := e.count, segs := [], scales := [] }] })) ∧
     ∀ cause, startCause s' f c e = some cause → e.pc < 2 ^ 20 → ∃ t, exec (.arrayStart f c) s = .next t ∧ t.halted f c = true ∧
       t.core f c = { k with queue := [], hold := .free } ∧
       (bit (s.reg .flkArrayFault f c) 63 = false → bits (t.reg .flkArrayFault f c) 59 56 = cause) ∧
       (bit (s.reg .flkCoreFault f c) 63 = false → bits (t.reg .flkCoreFault f c) 59 56 = 1 ∧
         bits (t.reg .flkCoreFault f c) 43 24 = e.pc ∧ bit (t.reg .flkCoreFault f c) 61 = false))

/-- ARRAY_ROW_FETCH (R85, R93, R100, R102, R105, R108, R111, R120, R216, R562, R685): the running instruction at place `n` takes
one more row. A WLOAD keeps its segment and scale byte, the last one making the standby tile, or faults outside its memory. A
STREAM row, from memory or from a road, is accumulated into the view's rows, or in pass mode goes to the sink; a failed residue
check halts the core. A DRAIN row goes to its destination, and CLEAR empties the tally row; a GDRAIN row waits at the core for
its channel. -/
def Obligations.ArrayRowAdvancesTheRun : Prop :=
  ∀ (s : State) (f c n : Nat) (r : ArrayRun) (rf : Bool), f < 672 → c < 120 → s.withheld f = false → s.flockQuiet f = false →
    let k := s.core f c
    let w := r.e.w
    let code := bits (iFn w) 4 0
    let row := k.viewBase (bits (iFn w) 6 5) + r.done
    let kind := tKind r.e.ta
    let a := tOff r.e.ta + r.done * tStride r.e.ta
    let len := packedLen code (tileK code)
    let sa := r.e.sb.toNat + r.done * r.e.sc.toNat
    let segs := r.segs ++ [s.rdKind f c kind a len]
    let scales := r.scales ++ [if fmtMx code then ofLE (s.rdKind f c kind sa 1) else 0x7F]
    let inside := a + len ≤ kindSize kind ∧ (fmtMx code = true → sa < kindSize kind)
    let taken := if kind = 2 then s.roadTake f (tRoad r.e.ta) else s
    k.runs[n]? = some r →
    (iOp w = 0x40 → inside → r.done + 1 ≠ r.total → ∃ t, exec (.arrayRowFetch f c n rf) s = .next t ∧
      CoreBecomes f c s { k with runs := k.runs.set n { r with done := r.done + 1, segs := segs, scales := scales } } t) ∧
    (iOp w = 0x40 → inside → r.done + 1 = r.total → ∃ t, exec (.arrayRowFetch f c n rf) s = .next t ∧
      CoreBecomes f c s { k with runs := k.runs.eraseIdx n, loaded := true, standby := some { fmt := code, segs := segs, scales := scales } } t) ∧
    (iOp w = 0x40 → ¬inside → ∃ t, exec (.arrayRowFetch f c n rf) s = .next t ∧ t.halted f c = true ∧
      t.core f c = { k with runs := k.runs.eraseIdx n, loaded := false, standby := none, queue := [], hold := .free }) ∧
    (∀ tile x xs pair, iOp w = 0x42 → k.active = some tile → pairCode tile.fmt code = some pair → (rf = false ∨ pair = 0xC) →
      s.fetchRow f c r.e r.done (inRowBytes tile code (bit (iFn w) 8)) (fmtMx code) = .row x xs →
      let res := rowProducts tile code (bit (iFn w) 8) x xs
      let out := bits (iImm w) 31 27
      let outN := (if bit (iFn w) 8 then tileK tile.fmt else 16) * (fmtBits out / 8)
      let acc := k.accumulate pair (k.viewBase (bits (iFn w) 6 5) + (if wideRows w tile then 2 * r.done else r.done)) 0 res
      (passMode w r.e.count = false → ∃ t, exec (.arrayRowFetch f c n rf) s = .next t ∧ t.core f c = acc.1.rowDone n ∧
        t = { taken with cores := t.cores, regs := t.regs } ∧ t.inexactFlag f c = (s.inexactFlag f c || acc.2) ∧
        ∀ f' c', coreIdx f' c' ≠ coreIdx f c → t.core f' c' = s.core f' c') ∧
      (passMode w r.e.count = true → s.sinkFor f r.e.tb r.done outN = .ready →
        let u := (taken.writeSink f c r.e.tb r.done (passRow pair out res).1).core f c
        ∃ t, exec (.arrayRowFetch f c n rf) s = .next t ∧ t.core f c = u.rowDone n ∧ u.tally = k.tally ∧
          t.inexactFlag f c = (s.inexactFlag f c || (passRow pair out res).2) ∧
          (tKind r.e.tb = 2 → t = { taken.roadSendAll f (tRoad r.e.tb) 4 (passRow pair out res).1 with cores := t.cores, regs := t.regs }))) ∧
    (∀ tile x xs pair, iOp w = 0x42 → k.active = some tile → pairCode tile.fmt code = some pair → rf = true → pair ≠ 0xC →
      passMode w r.e.count = false →
      s.fetchRow f c r.e r.done (inRowBytes tile code (bit (iFn w) 8)) (fmtMx code) = .row x xs →
      ∃ t, exec (.arrayRowFetch f c n rf) s = .next t ∧ t.halted f c = true ∧
        t.core f c = { k with runs := k.runs.eraseIdx n, queue := [], hold := .free } ∧ t.reg .flkCoreFault f c = s.reg .flkCoreFault f c) ∧
    (iOp w = 0x43 →
      let bs := ((k.tallyRow row).map fun y => if code = 0x12 then y.raw else if code = 0x11 then leBytes 8 (y.fabric r.e.scale).1 else outElem code y.value).flatten
      s.sinkFor f r.e.ta r.done bs.length = .ready →
      ∃ t, exec (.arrayRowFetch f c n rf) s = .next t ∧ (t.core f c).runs = (k.rowDone n).runs ∧
        (bit (iFn w) 8 = true → ∀ i, i < 16 → (t.core f c).tly row i = Tally.empty) ∧
        (∀ r' i, i < 16 → r' ≠ row → (t.core f c).tly r' i = k.tly r' i) ∧
        (bit (iFn w) 8 = false → code ≠ 0x11 → (t.core f c).tally = k.tally) ∧
        (kind = 1 → t.rdStore f a bs.length = bs ∧ t.scratch = s.scratch) ∧
        (kind = 0 → t.rdScratch f c a bs.length = bs ∧ t.store = s.store) ∧
        (kind = 2 → t.flocks = (s.roadSendAll f (tRoad r.e.ta) 4 bs).flocks)) ∧
    (iOp w = 0x46 → k.grad = none → r.done ≠ r.total →
      ∃ t g, exec (.arrayRowFetch f c n rf) s = .next t ∧ (t.core f c).grad = some g ∧ g.ch = bits (iFn w) 3 0 ∧
        g.vals = (k.tallyRow row).map (fun y => (y.fabric r.e.scale).1) ∧ g.g = r.e.scale ∧
        (t.core f c).runs = k.runs.set n { r with done := r.done + 1 } ∧
        (bit (iFn w) 8 = true → ∀ i, i < 16 → (t.core f c).tly row i = Tally.empty) ∧
        ∀ r' i, i < 16 → r' ≠ row → (t.core f c).tly r' i = k.tly r' i)

/-- The roads (R147, R148, R150): a row arrives in the buffer of its inbound port, a failed parity check ending the road; a
credit comes back; and a STREAM that waits too long for a row ends with SOURCE_FAULT and TIMEOUT, its core halted. -/
def Obligations.RoadsDeliverRowsAndCredits : Prop :=
  ∀ (s : State) (f q : Nat), f < 672 →
    (∀ r rest ok, q < 8 → (s.inPort f q).transit = r :: rest → (s.inPort f q).dead = false →
      ∃ t, exec (.roadRowArrival f q ok) s = .next t ∧ t = { s with flocks := t.flocks } ∧
        t.inPort f q = { transit := rest, buf := (s.inPort f q).buf ++ [{ r with ok := ok }], dead := !ok } ∧
        (∀ q', q' ≠ q → t.inPort f q' = s.inPort f q') ∧ ∀ f', f' ≠ f → t.flock f' = s.flock f') ∧
    (q < 8 → (s.outPort f q).returning ≠ 0 →
      ∃ t, exec (.roadCreditReturn f q) s = .next t ∧ t = { s with flocks := t.flocks } ∧
        t.outPort f q = { used := (s.outPort f q).used - 1, returning := (s.outPort f q).returning - 1 } ∧
        (∀ q', q' ≠ q → t.outPort f q' = s.outPort f q') ∧ ∀ f', f' ≠ f → t.flock f' = s.flock f') ∧
    (∀ c r, c < 120 → s.fld .flkTimeouts f 0 15 0 ≠ 0 → (s.core f c).runs = [r] → iOp r.e.w = 0x42 → tKind r.e.ta = 2 →
      (s.inPort f (tRoad r.e.ta)).buf = [] →
      ∃ t, exec (.roadTimeout f c) s = .next t ∧ t.halted f c = true ∧ (t.core f c).runs = [] ∧
        (bit (s.reg .flkArrayFault f c) 63 = false →
          bits (t.reg .flkArrayFault f c) 59 56 = 4 ∧ bits (t.reg .flkArrayFault f c) 55 52 = stTimeout))

/-- Additions to a signal word by SIGADD (R228, R229, R499, R502): the word changes as one step, the old count goes to sd;
where the sum leaves the range of R499 the word stays, the fault is logged and the core takes a SIGNAL fault. SIGRD and
SIGINIT move the whole word (R230). -/
def Obligations.SignalWordInstructions : Prop :=
  ∀ (s : State) (f c : Nat) (w : Word64) (p : Place),
    let k := s.core f c
    let v := ofLE (s.rdPlace f c p 8)
    let i := (BitVec.ofNat 32 (k.s (iC w))).toInt
    let cnt : Int := v % 2 ^ 48
    effAddr f c k (iSpace w) (iB w) (iImm w) 8 8 true = .ok p →
    let writes (op : Instr) (new : Nat) (k' : Core) : Prop := ∃ t, exec op s = .next t ∧ t.rdPlace f c p 8 = leBytes 8 new ∧
      t.core f c = k' ∧ t = { s with cores := t.cores, store := t.store, scratch := t.scratch } ∧
      (∀ f' c', coreIdx f' c' ≠ coreIdx f c → ∃ h, t.core f' c' = { s.core f' c' with hold := h }) ∧
      (∀ a, ¬(p.inStore = true ∧ f * storeSize + p.off ≤ a ∧ a < f * storeSize + p.off + 8) →
        Sparse.get 0 t.store a = Sparse.get 0 s.store a) ∧
      (∀ a, ¬(p.inStore = false ∧ coreIdx f c * scratchSize + p.off ≤ a ∧ a < coreIdx f c * scratchSize + p.off + 8) →
        Sparse.get 0 t.scratch a = Sparse.get 0 s.scratch a)
    (s.Issues f c 0x68 w → bit v 63 = false → 0 ≤ i → writes (.sigadd f c w)
      (v / 2 ^ 48 * 2 ^ 48 + ((cnt + i) % 2 ^ 48).toNat) { k.setS (iA w) (v % 2 ^ 32) with pc := k.pc + 1 }) ∧
    (s.Issues f c 0x68 w → bit v 63 = true → 0 ≤ cnt + i → cnt + i ≤ 2 ^ 47 - 1 → writes (.sigadd f c w)
      (v / 2 ^ 48 * 2 ^ 48 + (cnt + i).toNat) { k.setS (iA w) (v % 2 ^ 32) with pc := k.pc + 1 }) ∧
    (s.Issues f c 0x68 w → (i < 0 ∧ (bit v 63 = false ∨ cnt + i < 0)) → exec (.sigadd f c w) s =
      .next ((s.sigLog f 1 0 (!p.inStore) (coreId f c) p.off).precise f c 0x6 0 0x68)) ∧
    (s.Issues f c 0x68 w → bit v 63 = true → 2 ^ 47 - 1 < cnt + i → exec (.sigadd f c w) s =
      .next ((s.sigLog f 2 0 (!p.inStore) (coreId f c) p.off).precise f c 0x6 0 0x68)) ∧
    (s.Issues f c 0x69 w → ∃ t, exec (.sigrd f c w) s = .next t ∧
      CoreBecomes f c s { k.setPair (iA w) v with pc := k.pc + 1 } t) ∧
    (s.Issues f c 0x6A w → writes (.siginit f c w) (k.pair (iA w)) { k with pc := k.pc + 1 })

/-- When a word satisfies a target (R504): the epoch tags are equal or the target's is 0, and the count less the target
count, modulo 2^48, is below 2^47. -/
def Obligations.SatisfactionOfATarget : Prop :=
  ∀ w te tc : Nat, w < 2 ^ 64 → te < 2 ^ 16 → tc < 2 ^ 48 →
    (sigSatisfied w te tc = true ↔
      (te = 0 ∨ te = w / 2 ^ 48) ∧ ∃ d, d < 2 ^ 47 ∧ (tc + d) % 2 ^ 48 = w % 2 ^ 48)

/-- WAIT and how it ends (R232, R506 to R510): the core's issue is held with the target of its register pair; a poll of a
satisfied word, and then the retire point, end it with OK in the status register, and the limit ends it with TIMEOUT. A
bounded word with a target count of 2^47 or more is a SIGNAL fault of cause WAIT_RANGE. -/
def Obligations.WaitHoldsUntilSatisfiedOrExpired : Prop :=
  ∀ (s : State) (f c : Nat) (w : Word64) (p : Place),
    let k := s.core f c
    let v := ofLE (s.rdPlace f c p 8)
    let target := k.pair (iB w)
    (s.Issues f c 0x6B w → effAddr f c k (iSpace w) (iA w) 0 8 8 true = .ok p →
      (¬(bit v 63 = true ∧ 2 ^ 47 ≤ target % 2 ^ 48) → ∃ t, exec (.wait f c w) s = .next t ∧ CoreBecomes f c s { k with pc := k.pc + 1, hold := .wait { inStore := p.inStore, off := p.off, te := bits target 63 48, tc := target % 2 ^ 48, sreg := bits (iFn w) 8 4, imm := iImm w, monitor := bit (iFn w) 1, sat := sigSatisfied v (bits target 63 48) (target % 2 ^ 48) } } t) ∧
      (bit v 63 = true ∧ 2 ^ 47 ≤ target % 2 ^ 48 → exec (.wait f c w) s =
        .next ((s.sigLog f 3 1 (!p.inStore) (coreId f c) p.off).precise f c 0x6 0 0x6B))) ∧
    ∀ x : Wait, f < 672 → c < 120 → k.hold = .wait x →
      (x.monitor = false →
        sigSatisfied (ofLE (if x.inStore then s.rdStore f x.off 8 else s.rdScratch f c x.off 8)) x.te x.tc = true →
        ∃ t, exec (.waitPoll f c) s = .next t ∧ CoreBecomes f c s { k with hold := .wait { x with sat := true } } t) ∧
      (x.sat = true → ∃ t, exec (.waitSatisfied f c) s = .next t ∧
        CoreBecomes f c s { k.setS x.sreg stOk with hold := .free } t) ∧
      (x.imm ≠ 0 → ∃ t, exec (.waitExpiry f c) s = .next t ∧
        CoreBecomes f c s { k.setS x.sreg stTimeout with hold := .free } t)

/-- RATOM, RSIG and DMA issue (R157, R219 to R225): the request waits at the NI share of the core's pasture and the operation
is outstanding until its status is written; with eight outstanding none issues. DMA pushes its 32 bytes, or stalls the core
while a limit of R157 is reached, until DMA_PUSH_ADMIT pushes them. -/
def Obligations.RemoteOperationsAndPushes : Prop :=
  ∀ (s : State) (f c : Nat) (w : Word64),
    let k := s.core f c
    let a := k.pair (iB w)
    let d (p : Place) : Dma := { seq := k.pushes, raw := s.rdPlace f c p 32, started := false, left := 0, status := stOk, failOff := 0, land := [], done := 0, again := false }
    (s.Issues f c 0x61 w → k.remotes.length < 8 → a % 8 = 0 → (s.deviceOf (a / 2 ^ 50)).isSome = true →
      ∃ t r, exec (.ratom f c w) s = .next t ∧ t.ni = { s.ni with waiting := s.ni.waiting ++ [r] } ∧
        t.core f c = { k with pc := k.pc + 1, nextId := k.nextId + 1, remotes := k.remotes ++ [{ id := k.nextId, atom := true, res := iA w, sreg := bits (iFn w) 8 4 }] } ∧
        t = { s with cores := t.cores, ni := t.ni } ∧ r.op = 0x03 ∧ r.flag = false ∧ r.dest = a / 2 ^ 50 ∧ r.byRank = true ∧
        r.space = bits a 49 48 ∧ r.offset = a % 2 ^ 48 ∧ r.w4 = BitVec.ofNat 64 (k.pair (iC w)) ∧
        r.w6 = BitVec.ofNat 64 (bits (iFn w) 3 0) ∧ r.owner = .remote f c k.nextId ∧ r.share = f / 56) ∧
    (s.Issues f c 0x62 w → k.remotes.length < 8 → a % 8 = 0 → (s.deviceOf (a / 2 ^ 50)).isSome = true →
      ∃ t r, exec (.rsig f c w) s = .next t ∧ t.ni = { s.ni with waiting := s.ni.waiting ++ [r] } ∧
        t.core f c = { k with pc := k.pc + 1, nextId := k.nextId + 1, remotes := k.remotes ++ [{ id := k.nextId, atom := false, res := 0, sreg := bits (iFn w) 8 4 }] } ∧
        t = { s with cores := t.cores, ni := t.ni } ∧ r.op = 0x04 ∧ r.flag = bit (iFn w) 0 ∧ r.dest = a / 2 ^ 50 ∧
        r.byRank = true ∧ r.space = bits a 49 48 ∧ r.offset = a % 2 ^ 48 ∧ r.owner = .remote f c k.nextId ∧
        r.pay = .bytes (leBytes 8 (((BitVec.ofNat 32 (k.s (iC w))).signExtend 48).toNat))) ∧
    (s.Issues f c 0x61 w → 8 ≤ k.remotes.length → exec (.ratom f c w) s = .next s) ∧
    (s.Issues f c 0x62 w → 8 ≤ k.remotes.length → exec (.rsig f c w) s = .next s) ∧
    (∀ p, s.Issues f c 0x60 w → effAddr f c k (iSpace w) (iB w) (iImm w) 32 32 true = .ok p →
      (s.dmaRoom f c = true → ∃ t, exec (.dma f c w) s = .next t ∧
        CoreBecomes f c s { k with dma := k.dma ++ [d p], pushes := k.pushes + 1, pc := k.pc + 1 } t) ∧
      (s.dmaRoom f c = false → ∃ t, exec (.dma f c w) s = .next t ∧ t = { s with cores := t.cores, flocks := t.flocks } ∧
        t.core f c = { k with hold := .push p.inStore p.off } ∧
        t.flock f = { s.flock f with stalled := (s.flock f).stalled ++ [c] })) ∧
    (∀ p rest, f < 672 → (s.flock f).stalled = c :: rest → k.hold = .push p.inStore p.off → s.dmaRoom f c = true →
      s.flockQuiet f = false → s.withheld f = false →
      ∃ t, exec (.dmaPushAdmit f) s = .next t ∧ t = { s with cores := t.cores, flocks := t.flocks } ∧
        t.core f c = { k with hold := .free, dma := k.dma ++ [d p], pushes := k.pushes + 1, pc := k.pc + 1 } ∧
        t.flock f = { s.flock f with stalled := rest })

/-- Restarts (R169, R227, R233, R234, R689): a write of 1 to a set halt or done bit clears it and the core waits to restart,
a retired core's write or a write to a clear bit doing nothing; the core then starts at its entry point with the registers of
Table 4.1, its tallies and tiles kept. Requests of other cores stay; what is still on its way for the core's earlier operations is
no longer its (R513). -/
def Obligations.HaltedCoresRestart : Prop :=
  ∀ (s : State) (f c : Nat), f < 672 → c < 120 →
    let k := s.core f c
    (s.halted f c = true → s.coreRetired f c = false →
      ∃ t, exec (.flkCoreHaltWrite f c) s = .next t ∧ t = { s with regs := t.regs, cores := t.cores } ∧
        t.halted f c = false ∧ t.doneBit f c = s.doneBit f c ∧ t.core f c = { k with run := .restarting } ∧
        ∀ c', c' ≠ c → c' < 120 → t.halted f c' = s.halted f c' ∧ t.core f c' = s.core f c') ∧
    ((s.halted f c = false ∨ s.coreRetired f c = true) → exec (.flkCoreHaltWrite f c) s = .next s) ∧
    (s.doneBit f c = true → s.coreRetired f c = false →
      ∃ t, exec (.flkCoreDoneWrite f c) s = .next t ∧ t = { s with regs := t.regs, cores := t.cores } ∧
        t.doneBit f c = false ∧ t.halted f c = s.halted f c ∧ t.core f c = { k with run := .restarting } ∧
        ∀ c', c' ≠ c → c' < 120 → t.doneBit f c' = s.doneBit f c' ∧ t.core f c' = s.core f c') ∧
    ((s.doneBit f c = false ∨ s.coreRetired f c = true) → exec (.flkCoreDoneWrite f c) s = .next s) ∧
    (k.run = .restarting → k.dma = [] → k.runs = [] → k.remotes = [] → s.halted f c = false → s.doneBit f c = false →
      ∃ t, exec (.coreRestart f c) s = .next t ∧ t = { s.forgetCore f c with cores := t.cores } ∧
        (∀ f' c', coreIdx f' c' ≠ coreIdx f c → t.core f' c' = s.core f' c') ∧
        (∀ r ∈ s.ni.waiting, r.owner.core ≠ some (f, c) → r ∈ t.ni.waiting) ∧ (∀ r ∈ s.far, r.f ≠ f ∨ r.c ≠ c → r ∈ t.far) ∧
        (let k' := t.core f c
         (∀ r, k'.s r = 0) ∧ (∀ v l, k'.lane v l = 0) ∧ (∀ r, k'.t r = 0) ∧ (∀ n, k'.accView n = (viewReset n).toNat) ∧
         k'.pc = (s.flock f).entry c ∧ k'.run = .running ∧ k'.hold = .free ∧ k'.queue = [] ∧ k'.tally = k.tally ∧
         k'.active = k.active ∧ k'.standby = k.standby)) ∧
    ((k.dma ≠ [] ∨ k.runs ≠ [] ∨ k.remotes ≠ [] ∨ k.run ≠ .restarting) → exec (.coreRestart f c) s = .next s)

/-- DMA_DESCRIPTOR_START (R154, R157, R158, R391, R392, R396, R460, R461): the oldest descriptor that has not started starts, an
ORDERED one once it is the oldest of all; one that breaks R154, R155, R391 or R463 ends with the violation instead and moves no
byte. The pieces of a PUT or GET wait at the NI in order; a COPY with a far side ends at once where the link or the map gives it a
status. The pieces of a PUT or GET (R461): they cover the descriptor's bytes in order, each at most 512 bytes and inside one
512-byte block of OFFSET. -/
def Obligations.DmaDescriptorsStart : Prop :=
  (∀ (s : State) (f c : Nat) (d : Dma), f < 672 → c < 120 →
     let k := s.core f c
     let start := exec (.dmaDescriptorStart f c) s
     let lost (a : Nat) : Option Nat := if inFar a d.len then s.farUnmapped a d.len else none
     k.dma.find? (fun x => !x.started) = some d → s.flockQuiet f = false →
     (d.ordered = true → k.dma.head? ≠ some d → start = .next s) ∧
     ((d.ordered = true → k.dma.head? = some d) →
       (d.refused = true → start = .next (s.dmaViolation f c d stRefused d.src)) ∧
       (∀ a, d.refused = false → s.dmaBad f d = some a → start = .next
         ((if d.op = 0x01 ∧ inFar a d.len = true then s.cxlLog a stAddressFault 0x3 0 (coreId f c) else s).dmaViolation f c d stAddressFault a)) ∧
       (d.refused = false → s.dmaBad f d = none →
         (d.op = 0x02 ∨ d.op = 0x03 ∨ d.op = 0x04 ∨ (d.op = 0x01 ∧ d.farSide = none) → ∃ t, start = .next t ∧
           CoreBecomes f c s { k with dma := k.dma.map fun x => if x.seq = d.seq then { x with started := true } else x } t) ∧
         (d.op = 0x08 ∨ d.op = 0x09 →
           let ps := cut512 (d.len / 512 + 2) 0 ((if d.op = 0x08 then d.dst else d.src) % 2 ^ 48) d.len
           ∃ t, start = .next t ∧ t = { s with cores := t.cores, ni := t.ni } ∧
             t.ni = { s.ni with waiting := s.ni.waiting ++ ps.map (d.pieceReq f c) } ∧
             t.core f c = { k with dma := k.dma.map fun x => if x.seq = d.seq then { x with started := true, left := ps.length } else x } ∧
             ∀ f' c', coreIdx f' c' ≠ coreIdx f c → t.core f' c' = s.core f' c') ∧
         (∀ w a, d.op = 0x01 → d.farSide = some w → (lost d.src).orElse (fun _ => lost d.dst) = some a →
           start = .next ((s.cxlLog a stAddressFault 0x3 0 (coreId f c)).dmaFail f c d stAddressFault)) ∧
         (∀ w, d.op = 0x01 → d.farSide = some w → lost d.src = none → lost d.dst = none → s.farMode ≠ stOk →
           start = .next ((s.cxlLog w s.farMode 0x3 0 (coreId f c)).dmaFail f c d s.farMode)) ∧
         (∀ w, d.op = 0x01 → d.farSide = some w → lost d.src = none → lost d.dst = none → s.farMode = stOk →
           start = .next ((s.modDma f c d.seq fun x => { x with started := true, left := d.len / 64 }).farIssue f c d.seq 896))))) ∧
  (∀ o n : Nat,
     let ps := cut512 (n / 512 + 2) 0 o n
     (ps.map Prod.snd).sum = n ∧ (∀ p ∈ ps, 0 < p.2 ∧ p.2 ≤ 512 ∧ (o + p.1) / 512 = (o + p.1 + p.2 - 1) / 512) ∧
       ∀ i p q, ps[i]? = some p → ps[i + 1]? = some q → q.1 = p.1 + p.2)

/-- DMA_COMPLETE (R152, R155, R159, R395, R475): a COPY moves its bytes, exactly 1 is added to the completion word that the
descriptor names, and the descriptor is gone; a BALE_IN or BALE_OUT whose bales are all moved, and a PUT, GET or far-tier COPY whose
answers have all come and been written, complete. A DMA descriptor that ends with a status other than OK (R160, R161, R164): the
core halts with an imprecise DMA fault that records the status and the number of descriptors discarded before they started; started
ones stay. DMA_TIMEOUT ends a started descriptor so with TIMEOUT while FLK_TIMEOUTS.DMA is not zero. -/
def Obligations.DmaDescriptorsEnd : Prop :=
  (∀ (s : State) (f c n : Nat) (d : Dma), f < 672 → c < 120 →
     let k := s.core f c
     let complete := exec (.dmaComplete f c n) s
     k.dma[n]? = some d → d.started = true →
     (∀ s1 s2 bs, d.op = 0x01 → d.farSide = none → d.land = [] → overlaps d.src d.dst d.len = false →
       s.tryReadMem (s.dmaReq f c d.seq d.src) 0x1 d.len = (s1, some (stOk, bs)) →
       let u := s1.modDma f c d.seq fun _ => { d with land := [(0, d.dst, bs)] }
       u.tryWriteMem (u.dmaReq f c d.seq d.dst) 0x1 bs = (s2, some stOk) → d.word f c = none →
       complete = .next (s2.dropDma f c d.seq)) ∧
     (d.op = 0x01 → d.farSide = none → d.land = [] → overlaps d.src d.dst d.len = false → d.word f c = none →
       memOf d.src d.len = some .store → memOf d.dst d.len = some .store →
       (flocksOf .store d.src d.len).find? s.flockQuiet = none → (flocksOf .store d.dst d.len).find? s.flockQuiet = none →
       ∃ t, complete = .next t ∧ (∀ x ∈ (t.core f c).dma, x.seq ≠ d.seq) ∧
         Sparse.readBytes t.store (d.dst - storeBase) d.len = Sparse.readBytes s.store (d.src - storeBase) d.len ∧
         t.scratch = s.scratch ∧ t.dram = s.dram ∧
         ∀ a, (a < d.dst - storeBase ∨ d.dst - storeBase + d.len ≤ a) → Sparse.get 0 t.store a = Sparse.get 0 s.store a) ∧
     (∀ p s1, d.op = 0x02 → d.len ≤ d.done → d.word f c = some p → s.addSignal p 1 0x4 (some (coreId f c)) = (s1, stOk) →
       complete = .next (s1.dropDma f c d.seq)) ∧
     (d.op = 0x02 ∨ d.op = 0x03 → d.len ≤ d.done → d.word f c = none → complete = .next (s.dropDma f c d.seq)) ∧
     (d.op = 0x02 → d.done < d.len → complete = .next s) ∧
     (d.op = 0x08 ∨ d.op = 0x09 ∨ (d.op = 0x01 ∧ d.farSide.isSome = true ∧ d.len ≤ d.done) → d.land = [] → d.left = 0 →
       k.dma.find? (fun x => x.seq == d.seq) = some d → complete = .next (s.dmaEnd f c d d.status)) ∧
     (s.dropDma f c d.seq).core f c = { k with dma := k.dma.filter fun x => x.seq != d.seq }) ∧
  (∀ (s : State) (f c n st : Nat) (d : Dma), f < 672 → c < 120 → st < 16 → st ≠ 0 →
     let k := s.core f c
     let fails (t : State) (st : Nat) : Prop := t.halted f c = true ∧
       (t.core f c).dma = (k.dma.filter fun x => x.seq != d.seq).filter (fun x => x.started) ∧
       (bit (s.reg .flkCoreFault f c) 63 = false →
         let v := t.reg .flkCoreFault f c
         bits v 59 56 = 5 ∧ bits v 55 52 = st ∧ bit v 61 = true ∧ bits v 15 0 = d.seq % 2 ^ 16 ∧
         bits v 51 47 = ((k.dma.filter fun x => x.seq != d.seq).filter fun x => !x.started).length)
     k.dma.length ≤ 16 → k.pc < 2 ^ 20 →
     fails (s.dmaFail f c d st) st ∧
     (k.dma[n]? = some d → d.started = true → s.fld .flkTimeouts f 0 31 16 ≠ 0 → s.job f c d.seq = none →
       ∃ t, exec (.dmaTimeout f c n) s = .next t ∧ fails t stTimeout))

/-- BALE_READ_COMPLETE (R152, R153, R290, R294, R295, R298) where nothing stands before the stack: a bale whose CRC and tag are
right enters the flock store, and no content of stacked memory changes; one that fails the check is read once more, and when it
fails again the descriptor ends with CHECKSUM_FAULT. A bale with an uncorrectable sector ends it at once (log entry 62). -/
def Obligations.BaleReadChecksCrcAndTag : Prop :=
  ∀ (s : State) (f c n : Nat) (d : Dma) (errs : Errs), f < 672 → c < 120 →
    let a := d.src + d.done
    let u := s.eccs a 128 errs
    let b := baleOf (s.phys a)
    let good := (s.bale b).crcErr = 0 ∧ (d.tag = 0 ∨ d.tag = (s.bale b).tag.toNat)
    let same (t : State) : Prop := t.dram = s.dram ∧ t.bales = s.bales ∧ t.scratch = s.scratch
    let marks (g : Dma → Dma) (t : State) : Prop :=
      (t.core f c).dma = (s.core f c).dma.map fun x => if x.seq = d.seq then g x else x
    let off := d.dst + d.done - storeAddr f 0
    (s.core f c).dma[n]? = some d → d.started = true → d.op = 0x02 → d.done < d.len → a % 4096 = 0 → a < 0x018000000000 →
    s.Plain (s.stackOf a) →
    (sectorsIn u.bad b = [] → good → ∃ t, exec (.baleReadComplete f c n errs) s = .next t ∧ same t ∧
      marks (fun x => { x with done := x.done + 4096, again := false }) t ∧ t.rdStore f off 4096 = s.baleData b ∧
      ∀ x, (x < f * storeSize + off ∨ f * storeSize + off + 4096 ≤ x) → Sparse.get 0 t.store x = Sparse.get 0 s.store x) ∧
    (sectorsIn u.bad b = [] → ¬good → d.again = false → ∃ t, exec (.baleReadComplete f c n errs) s = .next t ∧ same t ∧
      marks (fun x => { x with again := true }) t ∧ t.store = s.store) ∧
    ((sectorsIn u.bad b ≠ [] ∨ (¬good ∧ d.again = true)) → ∃ t, exec (.baleReadComplete f c n errs) s = .next t ∧ same t ∧
      t.halted f c = true ∧ (∀ x ∈ (t.core f c).dma, x.seq ≠ d.seq) ∧ t.store = s.store ∧
      (bit (s.reg .flkCoreFault f c) 63 = false → (s.core f c).dma.length ≤ 16 → (s.core f c).pc < 2 ^ 20 →
        bits (t.reg .flkCoreFault f c) 59 56 = 5 ∧ bits (t.reg .flkCoreFault f c) 55 52 = stChecksumFault))

/-- PEAT_DESCRIPTOR_ADMIT, PEAT_ROW_REQUEST and PEAT_ROW_DATA (R327 to R332, R361, R326): a checked descriptor takes an entry
of its peat unit, one that fails a check completes with the status, its address logged; a serving unit takes one request at a
time, and each row that a lookup reads comes back to the descriptor with its status, once no other descriptor is in the middle of
updating it; the executing unit of another descriptor learns that the row can be reached. DELIVERY_BLOCK and PEAT_COMPLETE (R162,
R339, R350, R354, R356): a block is written to the flock store at its place when the CRC over what arrived and OUT_TAG is the one
that came with it; the first wrong one is sent once more and the second ends the delivery with CHECKSUM_FAULT. A descriptor with
nothing left leaves its peat unit and ends with its status. -/
def Obligations.PeatDescriptorsAreServedAndDelivered : Prop :=
  (∀ (s : State) (f c n : Nat) (d : Dma), f < 672 → c < 120 →
     (let raw := s.rdStore f (d.src - storeAddr f 0) d.len
      s.peatDma f c n = some d → s.job f c d.seq = none → s.flockQuiet f = false → s.stkReady (f / 56) = true →
       s.peatHeld (f / 56) = false →
       (∀ pool, s.peatEntry f = some pool → s.peatCheck f (d.src - storeAddr f 0) d.len raw = none → exec (.peatDescriptorAdmit f c n) s = .next { s with peat := s.peat ++ [{ f := f, c := c, seq := d.seq, raw := raw, pool := pool, asked := 0, got := [], done := 0, todo := [], formed := false, out := [], sent := 0, again := false, status := stOk, addr := d.src, low := 0 }] }) ∧
       (s.peatEntry f = none → exec (.peatDescriptorAdmit f c n) s = .next s) ∧
       ∀ pool st a, s.peatEntry f = some pool → s.peatCheck f (d.src - storeAddr f 0) d.len raw = some (st, a) →
         exec (.peatDescriptorAdmit f c n) s = .next ((s.peatLog f c (leAt raw 0 1) st 0 a).dmaFail f c d st)) ∧
     ∀ stack e pos j, stack < 12 → e < 12 →
       (((s.serveUnit stack).last + 1) % 12 = e → s.firstAsk e stack = some (j, pos) → s.stkReady stack = true →
         ∃ t, exec (.peatRowRequest stack) s = .next t ∧ t = { s with peat := t.peat, pserve := t.pserve } ∧
           t.serveUnit stack = { last := e, asks := (s.serveUnit stack).asks ++ [{ f := j.f, c := j.c, seq := j.seq, pos := pos }] } ∧
           t.peat = s.peat.map fun x => if x.is j.f j.c j.seq then { j with asked := setBit j.asked pos true } else x) ∧
       ∀ q rest errs, (s.serveUnit stack).asks = q :: rest → s.job q.f q.c q.seq = some j →
         let a := s.pkAddr j.f j.raw q.pos
         let size := if pkKindling j.raw then pkStride j.raw else pkRowBytes j.raw
         let u := s.eccs a ((a % 32 + size + 31) / 32) errs
         let back (v : State) (st : Nat) (bs : List Byte) : Prop := ∃ t, exec (.peatRowData stack errs) s = .next t ∧
           (t.serveUnit stack).asks = rest ∧
           t.peat = v.peat.map fun x => if x.is j.f j.c j.seq then { j with got := j.got ++ [(q.pos, st, bs)] } else x
         (∀ v st bs, pkLookup j.raw = true → u.rowLocked j [(a, size)] = false → u.tryRead (j.reqAt a) size = (v, some (st, bs)) →
           back v st bs) ∧
         (pkLookup j.raw = false → s.stkOpen stack = true → back u stOk [])) ∧
  (∀ (s : State) (f c n : Nat) (d : Dma) (j : PeatJob) (damage : List (Nat × Byte)), f < 672 → c < 120 →
     s.peatDma f c n = some d → s.job f c d.seq = some j → j.f = f → j.c = c → j.seq = d.seq →
     let block := (j.out.drop j.sent).take 4096
     let got := damaged (block ++ leBytes 4 (blockCrc block (pkOutTag j.raw))) damage
     let right := blockCrc (got.take block.length) (pkOutTag j.raw) = ofLE (got.drop block.length)
     let a := pkDestOff j.raw + j.sent
     (pkLookup j.raw = true → j.formed = true → j.sent < j.out.length →
       (right → ∃ t, exec (.deliveryBlock f c n damage) s = .next t ∧ t.rdStore f a block.length = got.take block.length ∧
         t.job f c d.seq = some { j with sent := j.sent + block.length, again := false } ∧
         t = { s with cores := t.cores, store := t.store, peat := t.peat } ∧
         ∀ b, (b < f * storeSize + a ∨ f * storeSize + a + block.length ≤ b) → Sparse.get 0 t.store b = Sparse.get 0 s.store b) ∧
       (damage = [] → right ∧ got.take block.length = block) ∧
       (¬right → j.again = false → ∃ t, exec (.deliveryBlock f c n damage) s = .next t ∧
         t.job f c d.seq = some { j with again := true } ∧ t = { s with peat := t.peat }) ∧
       (¬right → j.again = true → ∃ t, exec (.deliveryBlock f c n damage) s = .next t ∧ t = { s with peat := t.peat } ∧
         t.job f c d.seq = some { j with out := j.out.take j.sent, again := false, status := stChecksumFault, addr := storeAddr f a })) ∧
     (let u := { s with peat := s.peat.filter fun x => !x.is f c d.seq }
      (j.over = true → j.final = stOk → u.peatStatus f c d stOk = stOk → exec (.peatComplete f c n) s = .next (u.dmaOk f c d)) ∧
      (j.over = true → j.final ≠ stOk → ∃ t, exec (.peatComplete f c n) s = .next t ∧ t.job f c d.seq = none ∧ t.halted f c = true) ∧
      (j.over = false → exec (.peatComplete f c n) s = .next s)))

/-- GATHER, SEGSUM and WPOOL (R335 to R338): once every row has come back with OK the output is formed: the rows in list
order for a GATHER, and for SEGSUM and WPOOL one row for each segment, each element the sum of its positions' elements, by
the tally of the pair with EXACT, otherwise by FP32 additions or fused multiply-adds in list order. -/
def Obligations.PeatLookupsFormTheirOutput : Prop :=
  ∀ (s : State) (f c n : Nat) (d : Dma) (j : PeatJob), f < 672 → c < 120 → s.peatDma f c n = some d →
    s.job f c d.seq = some j → j.f = f → j.c = c → j.seq = d.seq → j.status = stOk → j.formed = false →
    pkCount j.raw ≤ j.got.length → (∀ x ∈ j.got, x.2.1 = stOk) →
    let forms (i : Instr) (rows : Nat) (el : Nat → Nat → FVal) : Prop := ∃ t, exec i s = .next t ∧
      t.job f c d.seq = some { j with formed := true, out := ((List.range rows).map fun r => ((List.range (pkElems j.raw)).map fun e => outElem (pkOutFmt j.raw) (el r e)).flatten).flatten } ∧
      t = { s with peat := t.peat }
    let seg (r : Nat) : List Nat :=
      (List.range ((s.segment j r).2 - (s.segment j r).1)).map fun i => (s.segment j r).1 + i
    let exact (r e : Nat) : FVal :=
      ((seg r).foldl (fun y i => (y.contribute (exactPair j.raw) (s.weight j i) (j.elem i e) 0 false).1) Tally.empty).value
    (pkOp j.raw = 0x01 → forms (.gather f c n) (pkCount j.raw) j.elem) ∧
    (pkOp j.raw = 0x02 → pkExact j.raw = true → forms (.segsum f c n) (pkSegs j.raw) exact) ∧
    (pkOp j.raw = 0x02 → pkExact j.raw = false → forms (.segsum f c n) (pkSegs j.raw) fun r e =>
      f32 ((seg r).foldl (fun a i => fAdd a (toF32 (j.elem i e))) 0)) ∧
    (pkOp j.raw = 0x03 → pkExact j.raw = true → forms (.wpool f c n) (pkSegs j.raw) exact) ∧
    (pkOp j.raw = 0x03 → pkExact j.raw = false → forms (.wpool f c n) (pkSegs j.raw) fun r e =>
      f32 ((seg r).foldl (fun a i => fFma (toF32 (s.weight j i)) (toF32 (j.elem i e)) a) 0))

/-- OPTUPD of a sparse list (R340 to R344): the next position of the list is updated once its row can be reached. A gradient that
is not finite skips the position and counts it; otherwise its rows are read, and the new P, M and V of Table 8.6 are formed from the
old rows and the gradients and written one after the other, the last write ending the position. A DENSE update (R345) starts once
every row can be reached. One element of Table 8.6 for each ALG: SGD, SGD with momentum, Adam and row-wise AdaGrad, every operation
rounded by itself. -/
def Obligations.OptupdUpdatesRows : Prop :=
  (∀ (s : State) (f c n : Nat) (d : Dma) (j : PeatJob), f < 672 → c < 120 → s.peatDma f c n = some d →
     s.job f c d.seq = some j → j.f = f → j.c = c → j.seq = d.seq → j.status = stOk → pkOp j.raw = 0x08 →
     let r := s.pkRow f j.raw j.done
     let a := pkTable j.raw + r * pkStride j.raw
     let gs := (List.range (pkElems j.raw)).map (s.gradient j j.done)
     let rs := s.rowRanges f j.raw j.done
     (j.todo = [] → pkCount j.raw ≤ j.done → exec (.optupd f c n) s = .next s) ∧
     (j.todo = [] → j.done < pkCount j.raw → pkDense j.raw = false →
       (j.got.find? fun x => x.1 == j.done) = some (j.done, stOk, []) →
       (gs.all f32Finite = false → ∃ t, exec (.optupd f c n) s = .next t ∧
         t.job f c d.seq = some { j with done := j.done + 1 } ∧ t = { s with peat := t.peat, regs := t.regs } ∧
         t.fld .peatSkipped (s.stackOf a) 0 31 0 = min (s.fld .peatSkipped (s.stackOf a) 0 31 0 + 1) (2 ^ 32 - 1)) ∧
       (∀ s1 s2 bss, gs.all f32Finite = true → s.rowLocked j rs = false → s.readsReady j true rs = (s1, .go) →
         s1.readMany j rs = (s2, stOk, 0, bss) →
         let ps := (rs.map (·.1)).zip bss
         let of (p : Nat × Nat) : List Byte := pick ps p.1 p.2
         let j' := { j with todo := bySectors (updateRow j.raw r (of (a, pkRowBytes j.raw)) (of (mRow j.raw r)) (of (vRow j.raw r)) gs) }
         exec (.optupd f c n) s = .next ((s2.putJob j').writeNext j'))) ∧
     (j.todo = [] → j.done < pkCount j.raw → pkDense j.raw = true → j.got.length < pkCount j.raw → exec (.optupd f c n) s = .next s) ∧
     ∀ w rest s1 s2 m, j.todo = w :: rest → s.prepWrites (j.reqAt 0) (if j.formed then [w] else w :: rest) = (s1, .go) →
       s1.commitUnit (j.reqAt 0) w = (s2, stOk, m) →
       (rest ≠ [] → exec (.optupd f c n) s = .next (s2.putJob { j with todo := rest, formed := true })) ∧
       (rest = [] → exec (.optupd f c n) s = .next (s2.putJob (if pkDense j.raw then { j with todo := [], formed := false, status := j.low }
         else { j with todo := [], formed := false, done := j.done + 1 })))) ∧
  (∀ (d : List Byte) (p m v g : Nat),
     let decay := fMul (pkWd d) p
     (pkAlg d = 1 → updateElem d p m v g = (fSub p (fMul (pkLr d) (fAdd g decay)), m, v)) ∧
     (pkAlg d = 2 → ∃ m', m' = fAdd (fMul (pkBeta1 d) m) g ∧
       updateElem d p m v g = (fSub p (fMul (pkLr d) (fAdd m' decay)), m', v)) ∧
     (pkAlg d = 3 → ∃ m' v', m' = fAdd (fMul (pkBeta1 d) m) (fMul (fSub 0x3F800000 (pkBeta1 d)) g) ∧
       v' = fAdd (fMul (pkBeta2 d) v) (fMul (fSub 0x3F800000 (pkBeta2 d)) (fMul g g)) ∧
       updateElem d p m v g = (fSub p (fMul (pkLr d)
         (fAdd (fDiv (fMul m' (pkC1 d)) (fAdd (fSqrt (fMul v' (pkC2 d))) (pkEps d))) decay)), m', v')) ∧
     (pkAlg d = 4 → updateElem d p m v g = (fSub p (fMul (pkLr d) (fDiv g (fAdd (fSqrt v) (pkEps d)))), m, v)))

/-- KREAD, KWRITE and KADD (R346 to R350): an access that can be made is made, its status byte is written and, for KREAD and
KADD, the bytes read go to its result slot. Stated of a descriptor of one access, whose row no other descriptor is updating. -/
def Obligations.KindlingAccessesMemory : Prop :=
  ∀ (s : State) (f c n st : Nat) (d : Dma) (j : PeatJob) (res : List Byte), f < 672 → c < 120 → s.peatDma f c n = some d →
    s.job f c d.seq = some j → j.f = f → j.c = c → j.seq = d.seq → j.status = stOk → pkCount j.raw = 1 → j.asked = 1 →
    j.got = [(0, stOk, [])] → j.done = 0 →
    let a := s.pkAddr f j.raw 0
    let k := s.kindle j 0
    let done (i : Instr) : Prop := k.2 = some (st, res) →
      ∃ t, exec i s = .next t ∧ t = k.1.kindled j 0 st res ∧
        (st = stOk → k.1.job f c d.seq = some j → t.job f c d.seq = some { j with done := 1, got := [] })
    s.rowLocked j [(a, pkStride j.raw)] = false →
    (pkOp j.raw = 0x10 → k = s.tryRead (j.reqAt a) (pkStride j.raw) ∧ done (.kread f c n)) ∧
    (pkOp j.raw = 0x11 → (k.1, k.2.map Prod.fst) = s.tryWrite (j.reqAt a) (s.rdStore f (pkWgtOff j.raw) (pkStride j.raw)) ∧
      done (.kwrite f c n)) ∧
    (pkOp j.raw = 0x12 → k = s.tryRmw (j.reqAt a) 0 (ofLE (s.rdStore f (pkWgtOff j.raw) (pkStride j.raw))) 0 ∧ done (.kadd f c n)) ∧
    (st = stOk → pkOp j.raw ≠ 0x11 → res.length = pkStride j.raw →
      (pkSegOff j.raw + 1 ≤ pkDestOff j.raw ∨ pkDestOff j.raw + res.length ≤ pkSegOff j.raw) →
      (s.kindled j 0 st res).rdStore f (pkSegOff j.raw) 1 = [0] ∧ (s.kindled j 0 st res).rdStore f (pkDestOff j.raw) res.length = res)

/-- The placing of addresses (R284, R285): each local address of stacked memory lies in one stack at one internal address,
and no two share a place, in both modes; a bale stays together. -/
def Obligations.AddressesPlaceOnStacksOnce : Prop :=
  ∀ (inter : Bool) (a b : Nat), a < 0x018000000000 → b < 0x018000000000 →
    (stackPlace inter a).1 < 12 ∧ (stackPlace inter a).2 < 2 ^ 37 ∧
    (stackPlace inter a = stackPlace inter b → a = b) ∧
    (a / 4096 = b / 4096 → (stackPlace inter a).1 = (stackPlace inter b).1 ∧
      (stackPlace inter a).2 / 4096 = (stackPlace inter b).2 / 4096) ∧
    (stackPlace inter a).2 % 4096 = a % 4096

/-- The requests of a stack interface when nothing stands before them (R280, R289 to R299). A read returns the stored bytes
(a bale with its tag and CRC) and counts the sectors that the ECC corrects; a tagged write stores the bale, its tag and CRC when
the CRC it brings matches; an untagged one keeps the tag; a sector write changes the bytes its mask selects. Every other byte of
stacked memory stays, and the answer goes to the requester. The stack requests that fail (R291, R298, R299, R319): a tagged write
whose CRC differs stores nothing and is answered with CHECKSUM_FAULT, so are a read and a write of a bad sector and a read of a bale
that holds one, and a request to a stack that is not open ends with TARGET_RESET. -/
def Obligations.StackRequestsAnswer : Prop :=
  (∀ (s : State) (r : StackReq), s.Plain (s.stackOf r.addr) → r.source < 8 → r.source ≠ 6 → r.addr < 0x018000000000 →
     let i := s.stackOf r.addr
     let key := s.phys r.addr
     let b := key / 4096
     let counted (t : State) (n : Nat) : Prop := t.fld .stkEcc i 0 63 32 = min (s.fld .stkEcc i 0 63 32 + n) (2 ^ 32 - 1) ∧
       ∀ r' i' j', Reg.addr r' i' j' ≠ Reg.stkEcc.addr i 0 → t.reg r' i' j' = s.reg r' i' j'
     let ans (c : Instr) (data : List Byte) (tag crc : Nat) (q : State → Prop) : Prop :=
       ∃ t, exec c s = .next t ∧ t.out = s.out ++ [.stack r stOk data (BitVec.ofNat 32 tag) (BitVec.ofNat 32 crc)] ∧
         (t.stk i).ents = [] ∧ q t
     (∀ x, r.addr % 32 = 0 → (s.ecc key x).badSector (key / 32) = false →
       ans (.stackSectorRead r x) (Sparse.readBytes s.dram key 32) 0 0 fun t =>
         t = { s with out := t.out, stks := t.stks, regs := t.regs, weak := t.weak, bad := t.bad } ∧
         counted t ((s.ecc key x).weakSector (key / 32)).toNat) ∧
     (∀ errs, r.addr % 4096 = 0 → sectorsIn (s.eccs r.addr 128 errs).bad b = [] →
       ans (.stackWholeBaleRead r errs) (Sparse.readBytes s.dram (b * 4096) 4096) (s.bale b).tag.toNat (s.storedCrc b) fun t =>
         t = { s with out := t.out, stks := t.stks, regs := t.regs, weak := t.weak, bad := t.bad } ∧
         counted t (sectorsIn (s.eccs r.addr 128 errs).weak b).length) ∧
     (∀ data tag crc, r.addr % 4096 = 0 → data.length = 4096 → baleCrc data tag.toNat b = crc.toNat →
       ans (.stackTaggedWrite r data tag crc) [] 0 0 fun t =>
         t.baleData b = data ∧ t.bale b = { tag := tag, crcErr := 0 } ∧ sectorsIn t.bad b = [] ∧ t.regs = s.regs ∧
         (∀ x, x / 4096 ≠ b → Sparse.get 0 t.dram x = Sparse.get 0 s.dram x) ∧ ∀ b', b' ≠ b → t.bale b' = s.bale b') ∧
     (∀ data, r.addr % 4096 = 0 → data.length = 4096 →
       ans (.stackUntaggedWrite r data) [] 0 0 fun t =>
         t.baleData b = data ∧ t.bale b = { tag := (s.bale b).tag, crcErr := 0 } ∧ sectorsIn t.bad b = [] ∧ t.regs = s.regs ∧
         (∀ x, x / 4096 ≠ b → Sparse.get 0 t.dram x = Sparse.get 0 s.dram x) ∧ ∀ b', b' ≠ b → t.bale b' = s.bale b') ∧
     ∀ mask data x, r.addr % 32 = 0 → data.length = 32 → (s.ecc key x).badSector (key / 32) = false →
       ans (.stackSectorWrite r mask data x) [] 0 0 fun t =>
         (∀ j, j < 32 → Sparse.get 0 t.dram (key + j) = if mask.toNat.testBit j then data.getD j 0 else Sparse.get 0 s.dram (key + j)) ∧
         (∀ y, (y < key ∨ key + 32 ≤ y) → Sparse.get 0 t.dram y = Sparse.get 0 s.dram y) ∧ t.bales = s.bales ∧
         counted t ((s.ecc key x).weakSector (key / 32)).toNat) ∧
  (∀ (s : State) (r : StackReq), r.source < 8 → r.source ≠ 6 → r.addr < 0x018000000000 →
     let i := s.stackOf r.addr
     let key := s.phys r.addr
     let ans (c : Instr) (st : Nat) : Prop := ∃ t, exec c s = .next t ∧ t.dram = s.dram ∧ t.bales = s.bales ∧
       Output.stack r st [] 0 0 ∈ t.out
     (s.Plain i → r.addr % 4096 = 0 → ∀ data tag crc, data.length = 4096 → baleCrc data tag.toNat (key / 4096) ≠ crc.toNat →
       ans (.stackTaggedWrite r data tag crc) stChecksumFault) ∧
     (∀ x, s.Plain i → r.addr % 32 = 0 → (s.ecc key x).badSector (key / 32) = true → ans (.stackSectorRead r x) stChecksumFault ∧
       ∀ mask data, data.length = 32 → ans (.stackSectorWrite r mask data x) stChecksumFault) ∧
     (∀ errs, s.Plain i → r.addr % 4096 = 0 → sectorsIn (s.eccs r.addr 128 errs).bad (key / 4096) ≠ [] →
       ans (.stackWholeBaleRead r errs) stChecksumFault) ∧
     (s.stkOpen i = false → r.addr % 32 = 0 → ∀ x, ans (.stackSectorRead r x) stTargetReset ∧
       ∀ mask data, data.length = 32 → ans (.stackSectorWrite r mask data x) stTargetReset) ∧
     (s.stkOpen i = false → r.addr % 4096 = 0 → (∀ errs, ans (.stackWholeBaleRead r errs) stTargetReset) ∧
       ∀ data tag crc, data.length = 4096 → ans (.stackTaggedWrite r data tag crc) stTargetReset ∧
         ans (.stackUntaggedWrite r data) stTargetReset))

/-- Refresh, scrub, zero-fill, wipe and the grant of an entry (R283, R286, R307 to R312): a refresh of a sub-bank of a channel
changes no content; a scrub counts a corrected sector and writes it back, and counts an uncorrectable one and logs it with TYPE 0x6;
a zero-fill and a wipe leave the stack zero and every other stack as it was; a wipe of a loaded device is ignored; the waiting
request that is next takes a freed entry, and what waited goes on. The write gate (R313 to R318): the model's decision reaches the
interface; closing it serves nothing, and opening it lets what waited go on. A write held past STK_GATE.LIMIT ends with DEFERRED,
which is logged, and leaves its entry. -/
def Obligations.StackMaintenanceAndWriteGate : Prop :=
  (∀ (s : State) (i : Nat), i < 12 →
     let zero (t : State) : Prop := ∀ a, Sparse.get 0 t.dram a = if a / 2 ^ 37 = i then 0 else Sparse.get 0 s.dram a
     (∀ n, n < 2 ^ 14 → ∃ t, exec (.refresh i n) s = .next t ∧ t = { s with stks := t.stks } ∧
       t.stk i = { s.stk i with lastRef := (n % 64, n / 64) } ∧ ∀ j, j ≠ i → t.stk j = s.stk j) ∧
     (∀ q k, s.Plain i → q < 2 ^ 25 → k < 128 → sectorsIn s.bad (i * 2 ^ 25 + q) = [] → sectorsIn s.weak (i * 2 ^ 25 + q) = [] →
       let key := (i * 2 ^ 25 + q) * 128 + k
       exec (.scrub i q []) s = .next s ∧
       (∃ t, exec (.scrub i q [(k, .corrected)]) s = .next t ∧ t.dram = s.dram ∧ t.bad = s.bad ∧ t.weakSector key = false ∧
         t.fld .stkEcc i 0 63 32 = min (s.fld .stkEcc i 0 63 32 + 1) (2 ^ 32 - 1)) ∧
       ∃ t, exec (.scrub i q [(k, .uncorrectable)]) s = .next t ∧ t.dram = s.dram ∧ t.badSector key = true ∧
         t.fld .stkEcc i 0 31 0 = min (s.fld .stkEcc i 0 31 0 + 1) (2 ^ 32 - 1) ∧
         (bit (s.reg .stkFaultInfo i 0) 63 = false → bits (t.reg .stkFaultInfo i 0) 23 20 = 6)) ∧
     ((s.stk i).trained = true → (s.stk i).owed = true → s.gateClosed i = false →
       ∃ t, exec (.zeroFill i) s = .next t ∧ zero t ∧ t.stkReady i = true ∧ t.initBusy i = (s.stk i).wiping ∧ (t.stk i).owed = false ∧
         (∀ b, b / 2 ^ 25 = i → t.bale b = Meta.fresh) ∧ t.store = s.store ∧ t.scratch = s.scratch) ∧
     (s.rbit .drvSelf 0 0 30 = true → exec (.wipe i) s = .next (s.setRbit .stkStatus i 0 58 true)) ∧
     (s.rbit .drvSelf 0 0 30 = false → s.initBusy i = false →
       ∃ t, exec (.wipe i) s = .next t ∧ t.initBusy i = true ∧ (t.stk i).wiping = true ∧ (t.stk i).ents = [] ∧ (t.stk i).waiting = [] ∧
         t.dram = s.dram) ∧
     ((s.stk i).wiping = true → (s.stk i).trained = true → s.gateClosed i = false →
       ∃ t, exec (.wipeComplete i) s = .next t ∧ zero t ∧ t.initBusy i = false ∧ (t.stk i).wiping = false) ∧
     (∀ e pool, s.nextWaiting i = some e → s.roomFor i e.req e.acc = some pool →
       let k := s.stk i
       exec (.stackEntryGrant i) s = .next (s.setStk i { k with
         ents := k.ents ++ [{ e with pool := pool }], waiting := k.waiting.erase e, rrClass := if 0 < pool then e.cls else k.rrClass,
         rrFlock := if e.cls = 0 then e.flock else k.rrFlock }).goOn) ∧
     ((s.stk i).waiting = [] → exec (.stackEntryGrant i) s = .next s)) ∧
  (∀ (s : State) (i : Nat), i < 12 →
     (s.rbit .thmStk 0 i 15 = true → ∃ t, exec (.writeGateChange i true) s = .next t ∧ t.gateClosed i = true ∧
       t.rbit .stkStatus i 0 59 = s.rbit .thmStk 0 i 14 ∧ t = { s with regs := t.regs }) ∧
     (s.rbit .thmStk 0 i 15 = false → exec (.writeGateChange i false) s =
       .next ((s.setRbit .stkStatus i 0 61 false).setRbit .stkStatus i 0 59 (s.rbit .thmStk 0 i 14)).goOn) ∧
     ∀ n e, (s.heldWrites i)[n]? = some e → s.fld .stkGate i 0 15 0 ≠ 0 →
       (e.owner = .port ∨ e.owner = .unit → ∃ t, exec (.heldWriteExpiry i n) s = .next t ∧ (t.stk i).ents = (s.stk i).ents.erase e ∧
         t.dram = s.dram ∧ bit (t.reg .stkFaultInfo i 0) 63 = true ∧
         (e.owner = .port → Output.stack e.req stDeferred [] 0 0 ∈ t.out) ∧
         (e.owner = .unit → (t.stk i).results = (s.stk i).results ++ [{ req := e.req, status := stDeferred, data := [] }])))

/-- A fault log (R172, and R322, R363, R404, R458, R661, which share its form), here the flock's: with VALID 0 it takes the
violation and its address; with VALID 1 it increments COUNT, sets OVERRUN and leaves the other fields. -/
def Obligations.FaultLogKeepsTheFirstViolation : Prop :=
  ∀ (s : State) (f a st src core : Nat), f < 672 → st < 16 → src < 16 → core < 2 ^ 17 →
    let t := s.flkLog f a st src core
    let old := s.reg .flkFaultInfo f 0
    let v := t.reg .flkFaultInfo f 0
    bits v 47 32 = min (bits old 47 32 + 1) 0xFFFF ∧ bit v 63 = true ∧
    (bit old 63 = false → bit v 62 = bit old 62 ∧ bits v 31 28 = st ∧ bits v 27 24 = src ∧ bits v 16 0 = core ∧
      t.reg .flkFaultAddr f 0 = a % 2 ^ 48) ∧
    (bit old 63 = true → bit v 62 = true ∧ bits v 31 0 = bits old 31 0 ∧ t.reg .flkFaultAddr f 0 = s.reg .flkFaultAddr f 0)

/-- CXL.mem (R371 to R377) where nothing stands before the stack: a host read returns the line's bytes and counts the sectors that the
ECC corrects, and when granted the line is tracked; a host write changes the bytes its mask selects; a poisoned write is not
performed. The back-invalidate tracker (R376 to R380) and host snoops (R393): an evicted line, and one that BIRSP leaves invalid, is
forgotten; BIRSP answers the snoop that accesses wait for, and one that none waits for is over; a snoop past its limit is late; what
waited then goes on. A host snoop is answered RspIHitI. -/
def Obligations.HostMemoryAndTracker : Prop :=
  (∀ (s : State) (x : Nat) (errs : Errs), x % 64 = 0 → s.inHdm x = true → x < 0x018000000000 → s.Plain (s.stackOf x) →
     s.hostTraffic = true → s.rbit .cxlStatus 0 0 57 = true → s.fld .drvShadowStatus 0 0 63 61 ≠ 1 →
     let key := s.phys x
     let i := s.stackOf x
     let u := s.eccs x 2 errs
     let counted (t : State) : Prop := t.fld .stkEcc i 0 63 32 =
         min (s.fld .stkEcc i 0 63 32 + ((u.weakSector (key / 32)).toNat + (u.weakSector (key / 32 + 1)).toNat)) (2 ^ 32 - 1) ∧
       ∀ r' i' j', Reg.addr r' i' j' ≠ Reg.stkEcc.addr i 0 → t.reg r' i' j' = s.reg r' i' j'
     u.badSector (key / 32) = false → u.badSector (key / 32 + 1) = false →
     (∀ g, ∃ t, exec (.cxlMemRead x g errs) s = .next t ∧ t.out = s.out ++ [.hostData x (Sparse.readBytes s.dram key 64) false] ∧
       t.trk = (if g then [x] else []) ∧ (t.stk i).ents = [] ∧ counted t ∧
       t = { s with out := t.out, trk := t.trk, stks := t.stks, regs := t.regs, weak := t.weak, bad := t.bad }) ∧
     (∀ mask data, data.length = 64 → ∃ t, exec (.cxlMemWrite x mask data false errs) s = .next t ∧
       t.out = s.out ++ [.hostDone x] ∧ (t.stk i).ents = [] ∧ counted t ∧
       (∀ j, j < 64 → Sparse.get 0 t.dram (key + j) = if mask.toNat.testBit j then data.getD j 0 else Sparse.get 0 s.dram (key + j)) ∧
       (∀ a, (a < key ∨ key + 64 ≤ a) → Sparse.get 0 t.dram a = Sparse.get 0 s.dram a) ∧
       t = { s with out := t.out, dram := t.dram, stks := t.stks, regs := t.regs, weak := t.weak, bad := t.bad })) ∧
  (∀ (s : State) (x : Nat) (mask : Word64) (data : List Byte) (errs : Errs), x % 64 = 0 → data.length = 64 → s.hostTraffic = true →
     ∃ t, exec (.cxlMemWrite x mask data true errs) s = .next t ∧ t = { s with regs := t.regs, out := t.out } ∧
       Output.hostDone x ∈ t.out ∧ Output.aer ∈ t.out ∧ t.rbit .cxlFaultInfo 0 0 63 = true ∧
       (s.rbit .cxlFaultInfo 0 0 63 = false → t.fld .cxlFaultInfo 0 0 27 24 = 1 ∧ t.fld .cxlFaultInfo 0 0 31 28 = stChecksumFault)) ∧
  (∀ (s : State) (line n : Nat),
     let gone : State := { s with trk := s.trk.filter (· != line) }
     let wants (x : Snoop) : Bool := x.line == line && (x.st == .sent || (x.st == .late && x.reqs == []))
     exec (.cxlHostEvict line) s = .next gone.goOn ∧ line ∉ gone.trk ∧
     (∀ x, s.snoops.find? wants = some x → x.st = .sent → x.reqs ≠ [] →
       let xs := s.snoops.map fun y => if y = x then { y with st := .answered } else y
       exec (.birsp line false) s = .next (State.goOn { gone with snoops := xs }) ∧
       exec (.birsp line true) s = .next (State.goOn { s with snoops := xs })) ∧
     (∀ x, s.snoops.find? wants = some x → (x.st = .late ∨ x.reqs = []) →
       exec (.birsp line false) s = .next (State.goOn { gone with snoops := s.snoops.erase x }) ∧
       exec (.birsp line true) s = .next (State.goOn { s with snoops := s.snoops.erase x })) ∧
     (s.snoops.find? wants = none → exec (.birsp line false) s = .next gone.goOn ∧ exec (.birsp line true) s = .next s.goOn) ∧
     (∀ x, s.snoops[n]? = some x → x.st = .sent → x.reqs ≠ [] → s.fld .cxlTimeouts 0 0 31 16 ≠ 0 →
       exec (.biTimeout n) s = .next (State.goOn { s with snoops := s.snoops.set n { x with st := .late } })) ∧
     (s.hostTraffic = true → exec (.hostSnoop line) s = .next { s with out := s.out ++ [.rspIHitI line] }))

/-- Enabling, disabling and the doorbells of a command queue (R389, R390, Table 9.7): ENABLE takes a DISABLED queue with a
SIZE of 4 or more and both bases set to RUNNING with its indices 0, and any other to ERROR with cause 0x4; disabling a
RUNNING queue stops it, at once when no command is in progress, and clears an ERROR; a doorbell sets the tail or head, or
stops a RUNNING queue with cause 0x1 when the index is outside the queue. SQ_FETCH, CQ_POST and the errors of both (R385 to
R390, Table 9.6): a fetched command is in progress and SQ_HEAD moves on, modulo the queue's size, a malformed one being done
with REFUSED at once; the oldest completion is written to the host with its phase, and the interrupt of the queue is sent
when it asks for one; a failed read or write stops the queue with cause 0x2 or 0x3. -/
def Obligations.QueuesFetchAndPost : Prop :=
  (∀ (s : State) (q : Nat) (v : Word64) (d : Word32), q < 16 →
     (bit v.toNat 63 = true → s.queState q = 0 → 4 ≤ bits v.toNat 59 56 → s.reg .cxlQsqBase 0 q ≠ 0 → s.reg .cxlQcqBase 0 q ≠ 0 →
       ∃ t, exec (.queueEnable q v) s = .next t ∧ t.queState q = 1 ∧ t.queSize q = 2 ^ bits v.toNat 59 56 ∧
         t.fld .cxlQctrl 0 q 31 16 = 0 ∧ t.fld .cxlQctrl 0 q 15 0 = 0 ∧ t.rbit .cxlQctrl 0 q 62 = bit v.toNat 62 ∧
         t.que q = { s.que q with passes := 0 } ∧ t = { s with regs := t.regs, queues := t.queues }) ∧
     (bit v.toNat 63 = true → s.queState q = 0 →
       (bits v.toNat 59 56 < 4 ∨ s.reg .cxlQsqBase 0 q = 0 ∨ s.reg .cxlQcqBase 0 q = 0) →
       ∃ t, exec (.queueEnable q v) s = .next t ∧ t.queState q = 2 ∧ t.fld .cxlQctrl 0 q 55 52 = 4 ∧ t = { s with regs := t.regs }) ∧
     (bit v.toNat 63 = false → s.queState q = 1 →
       ∃ t, exec (.queueDisable q v) s = .next t ∧ t.queState q = (if (s.que q).cmds = [] then 0 else 3) ∧
         t.rbit .cxlQctrl 0 q 63 = false ∧ t = { s with regs := t.regs }) ∧
     (bit v.toNat 63 = false → s.queState q = 2 →
       ∃ t, exec (.queueDisable q v) s = .next t ∧ t.queState q = 0 ∧ t.fld .cxlQctrl 0 q 55 52 = 0 ∧ t = { s with regs := t.regs }) ∧
     ((s.queState q ≠ 1 ∨ d.toNat % 2 ^ 16 < s.queSize q) →
       (∃ t, exec (.cxlQsqDb q d) s = .next t ∧ t.que q = { s.que q with tail := d.toNat % 2 ^ 16 } ∧ t = { s with queues := t.queues }) ∧
       ∃ t, exec (.cxlQcqDb q d) s = .next t ∧ t.que q = { s.que q with head := d.toNat % 2 ^ 16 } ∧ t = { s with queues := t.queues }) ∧
     (s.queState q = 1 → s.queSize q ≤ d.toNat % 2 ^ 16 →
       (∃ t, exec (.cxlQsqDb q d) s = .next t ∧ t.queState q = 2 ∧ t.fld .cxlQctrl 0 q 55 52 = 1 ∧ t = { s with regs := t.regs }) ∧
       ∃ t, exec (.cxlQcqDb q d) s = .next t ∧ t.queState q = 2 ∧ t.fld .cxlQctrl 0 q 55 52 = 1 ∧ t = { s with regs := t.regs })) ∧
  (∀ (s : State) (q : Nat), q < 16 →
     let head := s.fld .cxlQctrl 0 q 31 16
     let tail := s.fld .cxlQctrl 0 q 15 0
     let x := s.que q
     (∀ e, e.length = 64 → s.mayFetch q = true →
       let k : QCmd := { raw := e, num := head, data := [], res := none, mute := false }
       (k.malformed = false → ∃ t, exec (.sqFetch q e) s = .next t ∧ t.que q = { x with cmds := x.cmds ++ [k] } ∧
         t.fld .cxlQctrl 0 q 31 16 = (head + 1) % s.queSize q % 2 ^ 16 ∧ t = { s with regs := t.regs, queues := t.queues }) ∧
       (k.malformed = true → x.cmds = [] → ∃ t, exec (.sqFetch q e) s = .next t ∧
         t.que q = { x with cmds := [{ k with res := some (stRefused, 0) }] } ∧
         t.fld .cxlQctrl 0 q 31 16 = (head + 1) % s.queSize q % 2 ^ 16 ∧
         t = { s with regs := t.regs, queues := t.queues, out := t.out })) ∧
     (∀ e, e.length = 64 → s.mayFetch q = false → exec (.sqFetch q e) s = .next s) ∧
     (s.mayFetch q = true → ∃ t, exec (.sqReadError q) s = .next t ∧ t.queState q = 2 ∧ t.fld .cxlQctrl 0 q 55 52 = 2 ∧
       t = { s with regs := t.regs }) ∧
     (∀ (k : QCmd) rest st n, x.cmds = { k with res := some (st, n) } :: rest → s.mayPost q = true → s.queState q = 1 →
       let e := leBytes 2 k.cid ++ leBytes 1 st ++ leBytes 1 ((x.passes + 1) % 2) ++ leBytes 2 head ++ leBytes 2 0 ++ leBytes 4 n ++ leBytes 4 0
       ∃ t, exec (.cqPost q) s = .next t ∧ (t.que q).cmds = rest ∧
         (t.que q).passes = x.passes + (if tail + 1 = s.queSize q then 1 else 0) ∧
         t.fld .cxlQctrl 0 q 15 0 = (if tail + 1 = s.queSize q then 0 else (tail + 1) % 2 ^ 16) ∧
         t.out = s.out ++ [.hostWrite (s.fld .cxlQcqBase 0 q 51 12 * 4096 + 16 * tail) e] ++
           (if s.rbit .cxlQctrl 0 q 62 then [.msix q] else [])) ∧
     (∀ (k : QCmd) rest st n, x.cmds = { k with res := some (st, n) } :: rest → s.mayPost q = true → s.queState q = 1 →
       ∃ t, exec (.cqWriteError q) s = .next t ∧ (t.que q).cmds = rest ∧ t.queState q = 2 ∧ t.fld .cxlQctrl 0 q 55 52 = 3 ∧ t.out = s.out))

/-- The queue commands NOP, FENCE, SIGNAL and COPY (R381 to R385, R502): the command in place `n` that can start is done with
OK and its bytes; SIGNAL adds to its word, a counter fault ending it with REFUSED; a COPY from or to the host, and one between flock
stores, moves the bytes, and one whose addresses break R382 ends with its status. Stated of a queue with one command. -/
def Obligations.QueueCommandsComplete : Prop :=
  ∀ (s : State) (q n : Nat) (k : QCmd), q < 16 → k.mute = false → k.data = [] → (s.que q).cmds = [k] → n = 0 → k.res = none →
    s.queState q = 1 →
    let ends (i : Instr) (st m : Nat) (data : List Byte) (more : State → Prop) : Prop :=
      ∃ t, exec i s = .next t ∧ (t.que q).cmds = [{ k with data := data, res := some (st, m) }] ∧ more t
    let inStore (a : Nat) : Prop := memOf a k.len = some .store ∧ (flocksOf .store a k.len).find? s.flockQuiet = none
    (k.op = 0 → ends (.queueNop q n) stOk 0 [] fun t => t = { s with queues := t.queues }) ∧
    (k.op = 3 → ends (.queueFence q n) stOk 0 [] fun t => t = { s with queues := t.queues }) ∧
    (∀ f off w, k.op = 2 → k.dst % 8 = 0 → locOf k.dst = .store f off → s.flockQuiet f = false →
      sigAdd (ofLE (s.rdStore f off 8)) k.increment = .ok w →
      ends (.queueSignal q n) stOk 0 [] fun t => t.rdStore f off 8 = leBytes 8 w) ∧
    (∀ f off c, k.op = 2 → k.dst % 8 = 0 → locOf k.dst = .store f off → s.flockQuiet f = false →
      sigAdd (ofLE (s.rdStore f off 8)) k.increment = .error c →
      ends (.queueSignal q n) stRefused 0 [] fun t => t.store = s.store) ∧
    (∀ host, k.op = 1 → k.srcHost = true → k.dstHost = false → k.copyBad = none → s.cacheStopped = false → host.length = k.len →
      k.len ≠ 0 → s.fld .drvShadowStatus 0 0 63 61 ≠ 1 → inStore k.dst →
      ends (.queueCopy q n host) stOk k.len host fun t => Sparse.readBytes t.store (k.dst - storeBase) k.len = host ∧ t.out = s.out ∧
        ∀ a, (a < k.dst - storeBase ∨ k.dst - storeBase + k.len ≤ a) → Sparse.get 0 t.store a = Sparse.get 0 s.store a) ∧
    (k.op = 1 → k.srcHost = false → k.dstHost = true → k.copyBad = none → s.cacheStopped = false → inStore k.src →
      let bs := Sparse.readBytes s.store (k.src - storeBase) k.len
      ends (.queueCopy q n []) stOk k.len bs fun t => t.out = s.out ++ [.hostWrite k.dst bs] ∧ t.store = s.store) ∧
    (k.op = 1 → k.srcHost = false → k.dstHost = false → k.copyBad = none → overlaps k.src k.dst k.len = false →
      s.fld .drvShadowStatus 0 0 63 61 ≠ 1 → inStore k.src → inStore k.dst →
      let bs := Sparse.readBytes s.store (k.src - storeBase) k.len
      ends (.queueCopy q n []) stOk k.len bs fun t => Sparse.readBytes t.store (k.dst - storeBase) k.len = bs ∧
        ∀ a, (a < k.dst - storeBase ∨ k.dst - storeBase + k.len ≤ a) → Sparse.get 0 t.store a = Sparse.get 0 s.store a) ∧
    (∀ st a host, k.op = 1 → k.copyBad = some (st, a) → ends (.queueCopy q n host) st 0 [] fun t => t.store = s.store ∧ t.dram = s.dram)

/-- The far tier (R394 to R396): the data of a read waits to be written at its place, the observation of a write counts as
done, an unsupported or poisoned answer or the time limit fails the piece with REFUSED, CHECKSUM_FAULT or TIMEOUT, which is
logged. The host link (R366, R397 to R399): LINK_UP sets LINK_UP, MODE, WIDTH and RATE of a link that is powered and down;
LINK_DOWN clears them, CXL_RESET leaves them; both forget the tracker and stop the queues. An IDE failure sets its bit and
stops CXL.cache and CXL.mem; its log entry's STATUS and address are free values (log entry 1). Where IDE does not protect the link
there is no such failure. -/
def Obligations.FarTierAndHostLink : Prop :=
  (∀ (s : State) (n : Nat) (r : FarReq), s.far[n]? = some r → r.f < 672 →
     let rest := s.far.erase r
     let part (t : State) (st : Nat) (land : List (Nat × Nat × List Byte) → List (Nat × Nat × List Byte)) : Prop :=
       t.far = rest ∧ (t.core r.f r.c).dma = (s.core r.f r.c).dma.map fun d =>
         if d.seq = r.seq then { d.piece r.off st with land := land d.land } else d
     (∀ bs, r.write = true → ∃ t, exec (.farTierResponse n (.data bs)) s = .next t ∧ part t stOk id) ∧
     (∀ bs d, r.write = false → bs.length = 64 → (s.core r.f r.c).dma = [d] → d.seq = r.seq → inFar d.dst d.len = false →
       ∃ t, exec (.farTierResponse n (.data bs)) s = .next t ∧ part t stOk (· ++ [(r.off, d.dst + r.off, bs)])) ∧
     (∃ t, exec (.farTierResponse n .unsupported) s = .next t ∧ part t stRefused id ∧ bit (t.reg .cxlFaultInfo 0 0) 63 = true) ∧
     (∃ t, exec (.farTierResponse n .poisoned) s = .next t ∧ part t stChecksumFault id) ∧
     (s.fld .cxlTimeouts 0 0 15 0 ≠ 0 → ∃ t, exec (.farTierTimeout n) s = .next t ∧ part t stTimeout id) ∧
     (s.fld .cxlTimeouts 0 0 15 0 = 0 → exec (.farTierTimeout n) s = .next s)) ∧
  (∀ s : State,
     (∀ full width rate, width ∈ [1, 2, 4, 8] → 1 ≤ rate → rate ≤ 4 → s.rbit .cxlStatus 0 0 63 = true → s.rbit .cxlStatus 0 0 62 = false →
       ∃ t, exec (.linkUp full width rate) s = .next t ∧ t = { s with regs := t.regs } ∧ t.rbit .cxlStatus 0 0 62 = true ∧
         t.fld .cxlStatus 0 0 61 60 = (if full then 2 else 1) ∧ t.fld .cxlStatus 0 0 51 48 = width ∧ t.fld .cxlStatus 0 0 47 44 = rate) ∧
     (s.rbit .cxlStatus 0 0 62 = true →
       let u : State := { s.cutLink with ideStop := false, range := s.fld .cxlHdm 0 0 10 0 }
       exec .linkDown s = .next ((((u.setRbit .cxlStatus 0 0 62 false).setFld .cxlStatus 0 0 61 60 0).setFld .cxlStatus 0 0 51 48
         0).setFld .cxlStatus 0 0 47 44 0).goOn ∧
       exec .cxlReset s = .next s.cutLink.goOn) ∧
     (s.cutLink.trk = [] ∧ s.cutLink.snoops = [] ∧ s.cutLink.far = [] ∧ s.cutLink.ideKeys = [] ∧ s.cutLink.ideStop = s.ideStop ∧
       s.cutLink.rbit .cxlStatus 0 0 59 = false ∧ s.cutLink.dram = s.dram ∧
       ∀ q, q < 16 → s.cutLink.queState q = 0 ∧ s.cutLink.rbit .cxlQctrl 0 q 63 = false ∧
         ∀ k ∈ (s.cutLink.que q).cmds, k.mute = true ∧ k.res = none ∧ k.dstHost = false ∧ (k.srcHost = true → k.data ≠ [])) ∧
     (s.rbit .cxlStatus 0 0 59 = true →
       ∃ t, exec .ideFail s = .next t ∧ t.rbit .cxlStatus 0 0 58 = true ∧ t.ideStop = true ∧ t.fresh = s.fresh + 1 ∧
         t = { s with regs := t.regs, ideStop := t.ideStop, fresh := t.fresh, out := t.out } ∧
         (s.rbit .cxlFaultInfo 0 0 63 = false → t.fld .cxlFaultInfo 0 0 27 24 = 5)) ∧
     (s.rbit .cxlStatus 0 0 62 = false → exec .linkDown s = .next s ∧ exec .cxlReset s = .next s) ∧
     (s.rbit .cxlStatus 0 0 59 = false → exec .ideFail s = .next s))

/-- FOLD_LOAD (R256, R258, R263 to R265, R741): the header phase reads the first 128 bytes and the signature block of the staged image,
the check phase the rest; the first failing check of each ends the LOAD with its ERROR, SECTION and OFFSET in DRV_FOLD_STATUS, and an
image that passes them all is applied; a read that has to wait leaves the LOAD BUSY in its phase. The apply phase (R259, R445): the
previous job ends and the memory mode is set; once every flock is bound, a full fold is loaded with its identity in DRV_FOLD_ID and
DRV_SELF, and the NI starts afresh with a new EPOCH that is neither zero nor the old one; a failure leaves no fold loaded. The
operation is DONE once no pipeline is left to start, and in the start phase until then. -/
def Obligations.FoldLoadChecksThenApplies : Prop :=
  (∀ (s : State) (v : Word64), bits v.toNat 1 0 = 1 → s.rbit .drvFoldStatus 0 0 63 = false → s.allReady = true →
     let s0 := s.setReg .drvFoldCtrl 0 0 (Reg.drvFoldCtrl.written (s.reg .drvFoldCtrl 0 0) v.toNat)
     let src := s.fld .drvFoldSrc 0 0 47 12 * 4096
     let errs (hdr : List Byte) : List FErr := headerErrs hdr (s.fld .secFwStatus 0 0 31 0) ++
       if bit (leAt hdr 7 1) 0 then [] else signatureErrs hdr [] (s.rbit .secPolicy 0 0 30) none
     (∀ s1, s0.readImage s0.inter src 128 = (s1, .wait) → exec (.foldLoad v) s = .next (s1.foldWait (.load src []) 1)) ∧
     ∀ s1 hdr, s0.readImage s0.inter src 128 = (s1, .ok hdr) → hdr.length = 128 → s1.fld .secFwStatus 0 0 31 0 = s.fld .secFwStatus 0 0 31 0 →
       s1.rbit .secPolicy 0 0 30 = s.rbit .secPolicy 0 0 30 →
       let n := (parseHeader hdr).sigLen
       (∀ e, firstErr (errs hdr) = some e → exec (.foldLoad v) s = .next (s1.foldErr e)) ∧
       ∀ s2 sig, firstErr (errs hdr) = none → sig.length = n →
         (n = 0 ∧ s2 = s1 ∨ n ≠ 0 ∧ s1.readImage s1.inter (src + 128) n = (s2, .ok sig)) →
         let sigErr := if n = 0 then none else firstErr (signatureErrs hdr sig (s2.rbit .secPolicy 0 0 30) s2.foldKeyPackage)
         (∀ e, sigErr = some e → exec (.foldLoad v) s = .next (s2.foldErr e)) ∧
         ∀ s3 body, sigErr = none → s2.readImage s2.inter (src + (128 + n)) ((parseHeader hdr).total - (128 + n)) = (s3, .ok body) →
           let img := hdr ++ sig ++ body
           (∀ e, firstErr (checkErrs s3 img src s3.loadedDevice) = some e → exec (.foldLoad v) s = .next (s3.foldErr e)) ∧
           (firstErr (checkErrs s3 img src s3.loadedDevice) = none → exec (.foldLoad v) s = .next (s3.startApply img src))) ∧
  (∀ (s : State) (e : FErr), e.code < 256 →
     let t := s.foldErr e
     t = { s with regs := t.regs, folding := none } ∧ t.rbit .drvFoldStatus 0 0 63 = false ∧ t.rbit .drvFoldStatus 0 0 62 = true ∧
       t.fld .drvFoldStatus 0 0 59 56 = 0 ∧ t.fld .drvFoldStatus 0 0 55 48 = e.code ∧ t.fld .drvFoldStatus 0 0 47 32 = e.sec % 2 ^ 16 ∧
       t.fld .drvFoldStatus 0 0 27 0 = e.off % 2 ^ 28) ∧
  (∀ (s : State) (mode : Bool), (s.applyBegin mode).fold = none ∧ (s.applyBegin mode).inter = mode ∧
     (s.applyBegin mode).rbit .drvSelf 0 0 30 = false ∧ (s.applyBegin mode).reg .drvFoldId 0 0 = 0) ∧
  (∀ (s s1 : State) (j : FoldJob) (n : Nat) (x : Fold), j.flock = none → j.fold = some x →
     let serial := (parseHeader j.top).serial
     (∀ e, s.applyStep j = (s1, .fails e) → s.runApply j (n + 1) = s1.endJob.foldErr e ∧ (s.runApply j (n + 1)).fold = none) ∧
     (s.applyStep j = (s1, .bound) →
       let t := (s1.takeFold x).setIdentity x serial
       s.runApply j (n + 1) = t.foldStart none ∧ t.fold = some x ∧ t.ni = Ni.fresh ∧ t.fld .niEpoch 0 0 15 0 ≠ 0 ∧
       t.fld .niEpoch 0 0 15 0 ≠ s1.fld .niEpoch 0 0 15 0 ∧ t.dram = s1.dram ∧ t.cores = s1.cores ∧ t.rbit .drvSelf 0 0 30 = true ∧
       (x.device < 2 ^ 14 → x.rank < 2 ^ 14 → x.ranks.length < 2 ^ 15 → x.jobTag < 2 ^ 32 → serial < 2 ^ 32 →
         t.fld .drvSelf 0 0 13 0 = x.device ∧ t.fld .drvSelf 0 0 29 16 = x.rank ∧ t.fld .drvSelf 0 0 46 32 = x.ranks.length ∧
         t.fld .drvFoldId 0 0 63 32 = x.jobTag ∧ t.fld .drvFoldId 0 0 31 0 = serial))) ∧
  ∀ s : State,
    ((∀ e ∈ s.flocks, e.2.starting = []) → s.foldStart none = s.foldEnd 0 0 0) ∧
    ((∃ e ∈ s.flocks, e.2.starting ≠ []) → (s.foldStart none).folding = some (.start none) ∧
      (s.foldStart none).rbit .drvFoldStatus 0 0 63 = true ∧ (s.foldStart none).fld .drvFoldStatus 0 0 59 56 = 4)

/-- REMAP, UNLOAD, DRV_RANK_WRITE and the start of a pipeline (R249, R257, R258, R266, R273): a REMAP of a running flock to a free
usable physical core drains the flock, one that may not be done ends with its ERROR; UNLOAD ends the job; a rank write that
R257 allows changes one entry of the rank table and any other sets RANK_IGNORED; the cores of the next pipeline start at
their entry points, and a fold operation in its start phase looks whether it was the last. -/
def Obligations.FoldOperationsAndRankWrites : Prop :=
  ∀ (s : State) (v : Word64),
    let busy := s.rbit .drvFoldStatus 0 0 63
    let s0 := s.setReg .drvFoldCtrl 0 0 (Reg.drvFoldCtrl.written (s.reg .drvFoldCtrl 0 0) v.toNat)
    let f := bits v.toNat 41 32
    let l := bits v.toNat 22 16
    let p := bits v.toNat 30 24
    (bits v.toNat 1 0 = 2 → busy = false →
      (f < 672 → l < 120 → s.foldState f = 2 → (s.flock f).logicalOf p = none → s.physGood f p = true →
        exec (.remap v) s = .next (((s0.setFoldState f 1).foldWait (.remap f l p) 3).startReset 1 f false false)) ∧
      ((672 ≤ f ∨ 120 ≤ l) → exec (.remap v) s = .next (s0.foldEnd 0x0A 0xFFFF 0)) ∧
      (f < 672 → l < 120 → s.foldState f ≠ 2 → exec (.remap v) s = .next (s0.foldEnd 0x09 0xFFFF 0)) ∧
      (f < 672 → l < 120 → s.foldState f = 2 → ((s.flock f).logicalOf p ≠ none ∨ s.physGood f p = false) →
        exec (.remap v) s = .next (s0.foldEnd 0x0C 0xFFFF 0))) ∧
    (bits v.toNat 1 0 = 3 → busy = false → ∃ t, exec (.unload v) s = .next t ∧ t = s0.endJob.foldEnd 0 0 0 ∧
      t.rbit .drvSelf 0 0 30 = false ∧ t.fold = none ∧ t.folding = none ∧ t.rbit .drvFoldStatus 0 0 63 = false ∧
      t.rbit .drvFoldStatus 0 0 62 = true ∧ t.fld .drvFoldStatus 0 0 55 48 = 0) ∧
    (busy = true → let rejected := Host.Outcome.next (s.setRbit .drvFoldStatus 0 0 61 true)
      (bits v.toNat 1 0 = 1 → exec (.foldLoad v) s = rejected) ∧ (bits v.toNat 1 0 = 2 → exec (.remap v) s = rejected) ∧
      (bits v.toNat 1 0 = 3 → exec (.unload v) s = rejected) ∧ exec (.drvRankWrite v) s = rejected) ∧
    (let rank := bits v.toNat 13 0
     let device := bits v.toNat 45 32
     let may (x : Fold) : Prop := rank < x.ranks.length ∧ rank ≠ x.rank ∧ (∀ r, r ≠ rank → x.ranks[r]? ≠ some device) ∧
       (x.routes.any fun r => r.covers device) = true
     busy = false →
      (∀ x, s.fold = some x → may x →
        exec (.drvRankWrite v) s = .next { s with fold := some { x with ranks := x.ranks.set rank device } }) ∧
      ((s.fold = none ∨ ∃ x, s.fold = some x ∧ ¬may x) → exec (.drvRankWrite v) s = .next (s.setRbit .drvFoldStatus 0 0 60 true))) ∧
    ∀ f n rest, f < 672 → s.flockQuiet f = false → (s.flock f).starting = n :: rest → ∃ t, s.startPipeline f = t ∧
      (∀ g, s.folding = some (.start g) → exec (.pipelineStart f) s = .next (t.foldStart g)) ∧
      ((∀ g, s.folding ≠ some (.start g)) → exec (.pipelineStart f) s = .next t) ∧ t.flock f = { s.flock f with starting := rest } ∧ t = { s with cores := t.cores, flocks := t.flocks } ∧
      ∀ c, c < 120 → t.core f c = if (s.flock f).pipeline c = n then (s.core f c).started ((s.flock f).entry c) else s.core f c

/-- The requested resets (R638, R641 to R644): a GO write of a scope below device, while no reset or fold operation runs and the NI performs no packet,
sets BUSY and starts the reset of its TARGET: scopes flock, pasture and router slice begin with the drain, scopes port and
hearth are in REINIT at once with their generation raised. A write that finds BUSY, or a TARGET outside Table 16.2, only sets
REJECTED. The end of a reset (R643, R646 to R649): the drain ends when nothing is left to finish, or at its limit, and the
part is cleared with its generation raised; each peer's acknowledgement is taken once, and with the last one the reset is
over: DONE, not BUSY. A credit-return message returns its credits. -/
def Obligations.RequestedResetsRun : Prop :=
  (∀ (s : State) (v : Word32),
     let n := v.toNat
     let tgt := bits n 9 0
     let idle := s.rst = [] ∧ s.rbit .drvResetStatus 0 0 63 = false ∧ s.rbit .drvFoldStatus 0 0 63 = false ∧ s.ni.proc = []
     let go (scope : Nat) : Prop := bit n 31 = true ∧ bits n 26 24 = scope
     let drains (i : Instr) (scope : Nat) : Prop := ∃ t, exec i s = .next t ∧ t.rbit .drvResetStatus 0 0 63 = true ∧
       t.rst = [{ scope := scope, target := tgt, phase := 2, requested := true, lockWait := false, peers := [] }] ∧ t.gen = s.gen ∧
       t.fld .drvResetStatus 0 0 58 56 = 2 ∧ t.fld .drvResetStatus 0 0 52 50 = scope ∧ t.fld .drvResetStatus 0 0 49 40 = tgt
     let reinit (i : Instr) (scope : Nat) (peers : List Nat) : Prop := ∃ t, exec i s = .next t ∧ t.rbit .drvResetStatus 0 0 63 = true ∧
       t.rst = [{ scope := scope, target := tgt, phase := 4, requested := true, lockWait := false, peers := peers }] ∧
       Sparse.get 0 t.gen (scope * 1024 + tgt) = Sparse.get 0 s.gen (scope * 1024 + tgt) + 1
     (go 1 → idle → tgt < 672 → drains (.resetFlock v) 1 ∧ ∃ t, exec (.resetFlock v) s = .next t ∧ t.flockQuiet tgt = true) ∧
     (go 2 → idle → tgt < 12 → drains (.resetPasture v) 2 ∧ ∃ t, exec (.resetPasture v) s = .next t ∧ t.pastureReady tgt = false ∧
       t.stkReady tgt = false) ∧
     (go 3 → idle → tgt < 12 → drains (.resetRouterSlice v) 3) ∧
     (go 4 → idle → tgt < 64 → reinit (.resetPort v) 4 [900 + tgt]) ∧
     (go 5 → idle → tgt < 16 → reinit (.resetHearth v) 5 [900 + 4 * tgt, 901 + 4 * tgt, 902 + 4 * tgt, 903 + 4 * tgt]) ∧
     (go 1 → (s.rbit .drvResetStatus 0 0 63 = true ∨ s.rbit .drvFoldStatus 0 0 63 = true ∨ 672 ≤ tgt) →
       ∃ t, exec (.resetFlock v) s = .next t ∧ t = { s with regs := t.regs } ∧ t.rbit .drvResetStatus 0 0 61 = true)) ∧
  (∀ (s : State) (r : ResetOp),
     (s.draining = some r →
       (s.drained r = true → exec .drainEnd s = .next (s.enterReinit State.resumeFold r false)) ∧
       (s.drained r = false → exec .drainEnd s = .next s) ∧
       exec .drainLimitExpiry s = .next (s.enterReinit State.resumeFold r true)) ∧
     (r.scope = 4 → r.target < 64 → r.requested = true → r.lockWait = false → r.phase = 4 → r.peers = [900 + r.target] → s.rst = [r] →
       s.folding = none → s.portState r.target ≠ 1 → s.portState r.target ≠ 3 →
       ∃ t, exec (.reinitAck (900 + r.target)) s = .next t ∧ t.rst = [] ∧ t.rbit .drvResetStatus 0 0 63 = false ∧
         t.rbit .drvResetStatus 0 0 62 = true ∧ t = { s with rst := [], regs := t.regs }) ∧
     (∀ peer, (∀ x ∈ s.rst, peer ∉ x.peers) → exec (.reinitAck peer) s = .next s) ∧
     ∀ peer res n, exec (.creditReturnMessage peer res n) s = .next { s with returns := s.returns.erase (peer, res, n) })

/-- A device reset (R267, R311, R640, R642) by a GO write: every register but those that the NOR die and the fuses keep is at
its reset value, no fold is loaded and no core runs; the content of stacked memory, the retirement record, the firmware banks
and the commands that wait stay. Pins, power and PLLs (R640, R657, R660, R757 to R766): power and the reset pin set their
pads, losing power or a rail or pulling the pin resets the device, and a loss of VIN also loses stacked memory; the pin ends a trip
unless a sensor still finds 125 °C; a PLL that
loses its lock clears its bit and starts the reset of its domain, which lasts until it locks again. Bring-up (R310, R320,
R657, Table 16.5): the drover releases the pastures in order once the thermal model is ready, a released pasture whose PLL is
locked becomes ready; a trained stack is ready unless it owes a zero-fill. -/
def Obligations.DeviceResetPinsAndBringUp : Prop :=
  (∀ (s : State) (v : Word32), bit v.toNat 31 = true → bits v.toNat 26 24 = 7 →
     ∃ t, exec (.resetDevice v) s = .next t ∧ t.fold = none ∧ t.cores = [] ∧ t.flocks = [] ∧ t.rst = s.rst.filter (fun r => r.scope == 7) ∧ t.ni = Ni.fresh ∧ t.dram = s.dram ∧
       t.bales = s.bales ∧ t.nor = s.nor ∧ t.fw.image = s.fw.image ∧ t.pending = s.pending ∧ t.evt = [] ∧
       (∀ f i, f < 672 → i < 120 → (t.reg .flkCoreFault f i = 0 ∧ t.reg .flkTimeouts f 0 = 0x40004000)) ∧
       t.reg .drvResetStatus 0 0 = 0 ∧ t.reg .secLms 0 0 = s.reg .secLms 0 0) ∧
  (∀ s : State,
     let sets (i : Instr) (p : Pads) : Prop := ∃ t, exec i s = .next t ∧ t.pads = p ∧ t.rst = s.rst ∧ t.dram = s.dram ∧
       (s.rbit .drvClkStatus 0 0 1 = false → s.rbit .drvClkStatus 0 0 2 = false → t = { s with pads := p })
     sets .powerOn { s.pads with vin := true, rails := true } ∧
     sets .resetPinRelease { s.pads with resetN := true } ∧
     (∃ t, exec .powerLoss s = .next t ∧ t.pads.vin = false ∧ t.dram = [] ∧ t.bales = [] ∧ t.fold = none ∧ t.cores = [] ∧
       t.nor = s.nor ∧ ∀ i, (t.stk i).owed = true) ∧
     (∃ t, exec .railOutOfRange s = .next t ∧ t.pads.rails = false ∧ t.dram = s.dram ∧ t.fold = none ∧ t.cores = []) ∧
     (∃ t, exec .resetPin s = .next t ∧ t.pads.resetN = false ∧ t.dram = s.dram ∧ t.fold = none ∧ t.cores = [] ∧
       (t.tripped = true ↔ s.tripped = true ∧ s.hotSite.isSome = true)) ∧
     (∀ b, 24 ≤ b → b < 36 → s.rbit .drvClkStatus 0 0 b = true → s.rst = [] → s.ni.proc = [] → ∃ t, exec (.pllLockLoss b) s = .next t ∧
       t.rbit .drvClkStatus 0 0 b = false ∧
       t.rst = [{ scope := 2, target := b - 24, phase := 2, requested := false, lockWait := true, peers := [] }]) ∧
     (∀ b, b < 3 → s.rbit .drvClkStatus 0 0 b = true → s.rst = [] → ∃ t, exec (.pllLockLoss b) s = .next t ∧ t.fold = none ∧
       t.rst = [{ scope := 7, target := b, phase := 3, requested := false, lockWait := true, peers := [] }]) ∧
     (∀ b, (b < 3 ∨ (24 ≤ b ∧ b < 64)) → s.rst = [] → ∃ t, exec (.pllLock b) s = .next t ∧ t.rbit .drvClkStatus 0 0 b = true) ∧
     (∀ b, b < 3 → s.rst = [{ scope := 7, target := b, phase := 3, requested := false, lockWait := true, peers := [] }] →
       ∃ t, exec (.pllLock b) s = .next t ∧ t.rst = [])) ∧
  (∀ (s : State) (p : Nat), p < 12 → s.inReset = false →
     (s.rbit .drvReady 0 0 60 = true → s.pads.released = 2 ^ p - 1 → s.rst = [] →
       ∃ t, exec (.pastureRelease p) s = .next t ∧ t.pads.released = 2 ^ (p + 1) - 1 ∧
         (s.rbit .drvClkStatus 0 0 (24 + p) = true → t.pastureReady p = true) ∧
         (s.rbit .drvClkStatus 0 0 (24 + p) = true → s.rbit .drvClkStatus 0 0 1 = true → t.rbit .rtrStatus p 0 63 = true)) ∧
     (s.pads.released ≠ 2 ^ p - 1 → exec (.pastureRelease p) s = .next s) ∧
     (s.pastureReady p = true → ∃ t, exec (.stackTrainingComplete p) s = .next t ∧ (t.stk p).trained = true ∧
       t.rbit .drvClkStatus 0 0 (36 + p) = true ∧ t.dram = s.dram ∧
       (if (s.stk p).owed then t.initBusy p = true else t.stkReady p = true)))

/-- The router slices (R405, R406, R411, R413 to R415, R419 to R421, R424): a packet that arrives by a port of an UP link enters that
port's input queue with HOPS one higher; a poisoned one is discarded, counted and logged. At an output the class goes on until its
weight is used up while another class can send, and an escape queue goes before an adaptive one. The head of a queue of an UP slice
whose turn it is is ejected at its destination, or leaves by the adaptive port with the best score, spending a credit there; HOPS rises
as the NI's own packet leaves its slice. The flits of a packet carry the whole of it. -/
def Obligations.RouterMovesPackets : Prop :=
  (∀ (s : State) (i : Nat) (p : Packet), i < 12 → s.sliceUp i = true → p.cls < 4 →
    (∀ q, portSlice q = i → q < 64 → s.portUp q = true → p.ll = false → p.len = p.payload.length →
      let n := if p.esc then qPortEsc q p.cls else qPort q p.cls
      (s.fold.isSome = true → (p.dest = s.device ∨ ((s.route p.dest).isSome = true ∧ p.hops + 1 < s.hopLimit i)) →
        (s.queue i n).length < (if p.esc then 4 else 6) →
        ∃ t, exec (.routerPacketArrival i q false p false) s = .next t ∧ t = { s with rtr := t.rtr } ∧
          t.queue i n = s.queue i n ++ [{ p with hops := (p.hops + 1) % 256 }] ∧
          ∀ i' n', i' * 4096 + n' ≠ i * 4096 + n → t.queue i' n' = s.queue i' n') ∧
      exec (.routerPacketArrival i q false p true) s = .next ((s.discard i 1 q false false p).freed q p.esc p.cls)) ∧
    ∀ (n : Nat) (k : QKind) (rest : List Packet), queueKind n = some k → s.queue i n = p :: rest → s.fold.isSome = true →
      (p.dest = s.device → (s.queue (s.ejectShare p) (qEject p.cls)).length < 8 →
        let o := outEject (s.ejectShare p)
        (s.winner i o = some (k.rival n) → ∃ t, exec (.packetForward i n) s = .next t ∧ t = { s with rtr := t.rtr } ∧
          t.queue i n = rest ∧
          t.queue (s.ejectShare p) (qEject p.cls) = s.queue (s.ejectShare p) (qEject p.cls) ++ [p]) ∧
        (s.winner i o ≠ some (k.rival n) → exec (.packetForward i n) s = .next s)) ∧
      (∀ r q, p.dest ≠ s.device → s.route p.dest = some r → p.esc = false → s.adaptivePort i p.cls r = some q → portSlice q = i →
        let own := match k with | .inject _ => true | _ => false
        let p' := if own then { p with hops := (p.hops + 1) % 256 } else p
        (own = true → p'.hops < s.hopLimit i) → s.winner i q = some (k.rival n) →
        ∃ t, exec (.packetForward i n) s = .next t ∧
          t = (((s.popQueue i n k).spend q false p.cls).sendPacket q p').turned i q (k.rival n) ∧ t.queue i n = rest ∧
          t.credits q false p.cls + 1 = s.credits q false p.cls ∧ t = { s with rtr := t.rtr, ports := t.ports, out := t.out }) ∧
      (p.dest ≠ s.device → s.route p.dest = none →
        exec (.packetForward i n) s = .next ((s.popQueue i n k).discard i 2 0 false true p))) ∧
  (∀ (s : State) (i o : Nat), s.rivals i o ≠ [] →
    let turn := Sparse.get (0, 0) s.rtr.turn (i * 128 + o)
    ∃ x ∈ s.rivals i o, s.winner i o = some x ∧
      (turn.2 < s.clsWeight i turn.1 → (∃ y ∈ s.rivals i o, y.cls = turn.1) → x.cls = turn.1) ∧
      (s.clsWeight i turn.1 ≤ turn.2 → turn.1 < 4 → (∃ y ∈ s.rivals i o, y.cls ≠ turn.1) → x.cls ≠ turn.1) ∧
      ((∃ y ∈ s.rivals i o, y.cls = x.cls ∧ y.esc = true) → x.esc = true)) ∧
  (∀ p : Packet, p.dest < 2 ^ 14 → p.src < 2 ^ 14 → p.cls < 4 → p.op < 64 → p.status < 16 → p.len = p.payload.length → p.len < 1024 →
    p.share < 16 → p.hops < 256 → p.rsv2 < 2 ^ 14 → p.space < 4 → p.offset < 2 ^ 48 → p.tag < 2 ^ 16 → p.rsv7 < 2 ^ 30 →
    (∀ f ∈ pktFlits p, f.length = 64) ∧ (pktFlits p).length = 1 + (p.len + 63) / 64 ∧ packetOf (pktFlits p).flatten = p)

/-- WRITE, READ, ATOMIC, SIGNAL and COH_FWD (R464 to R467, R487, R499 to R503) to a flock store: the operation of a newly
received packet is performed once and answered with OK to its source: the payload is stored, the bytes come back, the word
changes by the table and its old value comes back, the signal word is added to, or the member's copy of the line becomes
invalid. -/
def Obligations.PacketsArePerformedAndAnswered : Prop :=
  ∀ (s : State) (p : Packet), s.Admits p →
    let a := p.offset
    let at' (s : State) (n : Nat) : List Byte := Sparse.readBytes s.store (a - storeBase) n
    let calm (n : Nat) : Prop := memOf a n = some .store ∧ (flocksOf .store a n).find? s.flockQuiet = none
    (p.op = 0x01 → p.space = 0 → calm p.len →
      ∃ t, exec (.write p) s = .next t ∧ s.Answered t p stOk [] ∧ at' t p.len = p.payload ∧
        ∀ x, (x < a - storeBase ∨ a - storeBase + p.len ≤ x) → Sparse.get 0 t.store x = Sparse.get 0 s.store x) ∧
    (p.op = 0x02 → p.space = 0 → calm (readCount p) →
      ∃ t, exec (.read p) s = .next t ∧ s.Answered t p stOk (at' s (readCount p)) ∧ t.store = s.store) ∧
    (p.op = 0x03 → p.space = 0 → a % 8 = 0 → calm 8 →
      ∃ t, exec (.atomic p) s = .next t ∧ s.Answered t p stOk (at' s 8) ∧
        at' t 8 = leBytes 8 (atomicNew (atomicOp p) (ofLE (at' s 8)) p.w4.toNat p.w5.toNat) ∧
        ∀ x, (x < a - storeBase ∨ a - storeBase + 8 ≤ x) → Sparse.get 0 t.store x = Sparse.get 0 s.store x) ∧
    (∀ f off w, p.op = 0x04 → p.space = 1 → sigPlace a = some (.store f off) → s.flockQuiet f = false →
      sigAdd (s.sigWord (.store f off)) (sext 48 (leAt p.payload 0 6)) = .ok w →
      ∃ t, exec (.signal p) s = .next t ∧ s.Answered t p stOk [] ∧ t.sigWord (.store f off) = w % 2 ^ 64) ∧
    (p.op = 0x10 → s.lineSt a = .valid → ∃ t, exec (.cohFwd p) s = .next t ∧ s.Answered t p stOk [] ∧ t.lineSt a = .inv ∧
      ∀ l, l ≠ a → t.lineSt l = s.lineSt l)

/-- The SEQ of a packet that has been received and has retired is new no more, so that no packet of a source is performed
twice (R433 to R436). A packet that arrives again, or not as it should (R407, R410, R434, R435, R439, R448): one with a wrong
CRC is counted and dropped, one in progress is counted, one that was answered is answered again with the stored status, and a READ by
reading again, a stale one with SEQ_STALE; a flagged packet ahead of its turn is held, and its turn performs it. -/
def Obligations.RepeatedAndEarlyPackets : Prop :=
  (∀ (r : RxRec) (epoch seq : Nat), r.exp < 2 ^ 32 → seq < 2 ^ 32 → r.classify epoch seq = .new →
     ((r.receive epoch seq).retire seq).classify epoch seq ≠ .new ∧ (r.receive epoch seq).classify epoch seq ≠ .new) ∧
  (∀ (s : State), s.niUp = true → s.ni.proc = [] →
     (∀ p : Packet, p.op = 0x01 ∨ p.op = 0x02 → p.payload.length = p.len → s.injectRoom (s.ejectShare p) 2 = true →
       s.mustForward p = false →
       let run := if p.op = 0x01 then exec (.write p) s else exec (.read p) s
       let cls := (s.rx p.src).classify p.epoch.toNat p.seq.toNat
       let s0 := s.takeEject p
       let kept (t : State) : Prop := t.store = s.store ∧ t.dram = s.dram ∧ t.scratch = s.scratch
       (pktOk p = false → run = .next (s0.incFld .niCntA 0 0 63 32)) ∧
       (pktOk p = true → p.jobTag.toNat = s.jobTag → s.fenced = false →
         (cls = .inProgress ∨ cls = .acknowledged → run = .next ((s0.incFld .niCntB 0 0 63 32).takeAck p)) ∧
         (∀ x, cls = .answered → p.op = 0x01 → s.ni.replay.find? (fun x => x.src == p.src && x.seq == p.seq.toNat && !x.pending) = some x →
           x.status ≠ stMismatch → ∃ t, run = .next t ∧ s.Answered t p x.status [] ∧ kept t) ∧
         (cls = .answered → p.op = 0x02 → p.space = 0 → pktWellFormed p = true → s.isShadow = false →
           memOf p.offset (readCount p) = some .store → (flocksOf .store p.offset (readCount p)).find? s.flockQuiet = none →
           ∃ t, run = .next t ∧ s.Answered t p stOk (Sparse.readBytes s.store (p.offset - storeBase) (readCount p)) ∧ kept t) ∧
         (cls = .stale → ∃ t, run = .next t ∧ s.Answered t p stSeqStale [] ∧ kept t) ∧
         (∀ pool hold, cls = .new → p.op = 0x01 → p.flag = true → (s.rx p.src).exp ≠ p.seq.toNat →
           s.ni.replayRoom (s.ejectShare p) = some pool → s.ni.holdRoom (s.ejectShare p) = some hold → ∃ t, run = .next t ∧
             t.ni.held = s.ni.held ++ [{ p := p, share := s.ejectShare p, pool := hold }] ∧ kept t))) ∧
     ∀ (x : Held), s.ni.held = [x] → x.p.op = 0x10 → s.lineSt x.p.offset = .valid → s.isShadow = false → s.fenced = false →
       pktWellFormed x.p = true → (s.rx x.p.src).exp = x.p.seq.toNat → x.share = s.ejectShare x.p →
       s.injectRoom x.share 2 = true → ∃ t, exec (.flagHoldRelease x.p.src) s = .next t ∧ t.ni.held = [] ∧
         s.Answered t x.p stOk [] ∧ t.lineSt x.p.offset = .inv)

/-- The source side of the NI (R407, R425, R431, R438, R440 to R443, R446): a waiting request goes out with the lowest free tag of its
share, the next SEQ and its CRC; a RESPONSE to its tag ends it; without one it is sent again with the same SEQ and TAG until the
limit, and then ends with TIMEOUT; a DEFERRED back-off ends in another sending; an acknowledgement is taken and sent; a pair
reset forgets a device. What waited for any of these goes on in the same step. -/
def Obligations.SourceSendsAndResends : Prop :=
  ∀ (s : State), s.niUp = true → s.fenced = false → s.isShadow = false →
    (∀ (r : NiReq) (d num : Nat) (bs : List Byte), r.share < 12 → s.ni.waiting = [r] → r.byRank = true → s.deviceOf r.dest = some d →
      s.ni.dead = [] → s.ni.windowRoom d = true → s.injectRoom r.share (opClass r.op) = true → r.flag = false → r.pay = .bytes bs →
      s.forwardRoom r.op d = true → s.ni.freeTag r.share = some num →
      ∃ (t : State) (q : Packet), exec (.niPacketSend r.share) s = .next t.goOn ∧ t.ni.waiting = [] ∧ pktOk q = true ∧
        t.ni.tags = s.ni.tags ++ [{ num := num, req := r, dest := d, seq := s.ni.nextSeq d, resends := 0, backoff := false }] ∧
        t.ni.nextSeq d = (s.ni.nextSeq d + 1) % 2 ^ 32 ∧
        t.queue r.share (opClass r.op) = s.queue r.share (opClass r.op) ++ [q] ∧ q.dest = d ∧ q.op = r.op ∧ q.tag = num ∧
        q.seq = BitVec.ofNat 32 (s.ni.nextSeq d) ∧ q.offset = r.offset ∧ q.payload = bs ∧ q.src = s.device) ∧
    (∀ x f c seq off bs, s.ni.tags = [x] → x.req.owner = .put f c seq off → x.req.pay = .bytes bs →
      let mine (st : Nat) (t : State) : Prop := t.ni.tags = [] ∧
        t.core f c = { s.core f c with dma := (s.core f c).dma.map fun d => if d.seq = seq then d.piece off st else d }
      let again (i : Instr) (n : Nat) : Prop := s.injectRoom x.req.share (opClass x.req.op) = true → ∃ (t : State) (q : Packet), exec i s = .next t.goOn ∧
        t.ni.tags = [{ x with resends := n, backoff := false }] ∧ pktOk q = true ∧
        t.queue x.req.share (opClass x.req.op) = s.queue x.req.share (opClass x.req.op) ++ [q] ∧
        q.tag = x.num ∧ q.seq = BitVec.ofNat 32 x.seq ∧ q.dest = x.dest ∧ q.payload = bs
      (x.backoff = false → x.resends < s.fld .niResend 0 0 35 32 → again (.resendIntervalExpiry x.num) (x.resends + 1)) ∧
      (x.backoff = false → s.fld .niResend 0 0 35 32 ≤ x.resends →
        ∃ t : State, exec (.resendIntervalExpiry x.num) s = .next t.goOn ∧ mine stTimeout t) ∧
      (x.backoff = true → again (.deferredBackoffExpiry x.num) x.resends) ∧
      (∃ t : State, exec (.tagDeadlineExpiry x.num) s = .next t.goOn ∧ mine stTimeout t) ∧
      (∀ p : Packet, p.op = 0x20 → p.payload.length = p.len → p.len = rspLen x.req p.status → pktOk p = true →
        p.jobTag.toNat = s.jobTag → rspWellFormed p = true → p.ackV = false → p.tag = x.num → x.dest = p.src → x.seq = p.seq.toNat →
        p.status ≠ stTimeout → p.status ≤ 0xA →
        (p.status ≠ stDeferred → ∃ t : State, exec (.response p) s = .next t.goOn ∧ mine p.status t) ∧
        (p.status = stDeferred → ∃ t : State, exec (.response p) s = .next t.goOn ∧ t.ni.tags = [{ x with resends := 0, backoff := true }]))) ∧
    (∀ p : Packet, p.op = 0x20 → p.payload.length = p.len → pktOk p = true → p.jobTag.toNat = s.jobTag →
      rspWellFormed p = true → p.ackV = false →
      (∀ x, s.ni.tag p.tag = some x → x.dest ≠ p.src ∨ x.seq ≠ p.seq.toNat) →
      exec (.response p) s = .next ((s.takeEject p).incFld .niCntB 0 0 31 0).goOn) ∧
    (∀ p : Packet, p.op = 0x21 → p.payload.length = p.len → pktOk p = true → p.jobTag.toNat = s.jobTag → rspWellFormed p = true →
      p.ackV = true → (s.rx p.src).inUse = true →
      seqDiff p.ackSeq.toNat (s.rx p.src).rack < 2 ^ 31 → ∃ t : State, exec (.ack p) s = .next t ∧
        t.rx p.src = { s.rx p.src with rack := p.ackSeq.toNat }) ∧
    (∀ d, s.ni.ackSeq d ≠ Sparse.get 0 s.ni.acked d → s.injectRoom 8 2 = true → ∃ (t : State) (q : Packet), exec (.ackTimerExpiry d) s = .next t ∧
      t.queue 8 2 = s.queue 8 2 ++ [q] ∧ q.op = 0x21 ∧ q.dest = d ∧ q.ackSeq = BitVec.ofNat 32 (s.ni.ackSeq d) ∧ q.ackV = true) ∧
    ∀ v : Word64, let d := bits v.toNat 13 0
      ∃ t : State, exec (.niPairReset v) s = .next t.goOn ∧ t.ni.nextSeq d = 0 ∧ t.rx d = RxRec.fresh ∧ d ∉ t.ni.dead ∧
        (∀ x ∈ t.ni.replay, x.src ≠ d) ∧ ∀ d', d' ≠ d → (∀ x ∈ s.ni.tags, x.dest ≠ d) → t.rx d' = s.rx d' ∧ t.ni.nextSeq d' = s.ni.nextSeq d'

/-- Submissions (R523 to R527, R565, R566, R583, R584) read from a flock store: a well-formed descriptor joins the queue of
its group under the group's next SEQ, or a redelivery those under way, and the host or the drover reads OK from
KLN_SUBMIT_RESULT; one that is not well formed gets REFUSED, and with a full queue the answer is DEFERRED; nothing is queued then.
Stated where no earlier submission waits for its answer and no abort is recorded. -/
def Obligations.SubmissionsAreQueued : Prop :=
  ∀ (s : State) (o : Origin) (v : Word64),
    let a := bits v.toNat 47 0
    let calm (a n : Nat) : Prop := memOf a n = some .store ∧ (flocksOf .store a n).find? s.flockQuiet = none
    let src (a n : Nat) : List Byte := Sparse.readBytes s.store (a - storeBase) n
    let result (t : State) (st : Nat) : Prop := t.store = s.store ∧ (o ≠ .fabric →
      t.fld .klnSubmitResult 0 0 59 56 = st ∧ t.fld .klnSubmitResult 0 0 47 0 = a ∧ t.rbit .klnSubmitResult 0 0 63 = true)
    let d := src a 64
    let bd := src a 128
    let feed := feedEntries (bkFeedCount bd) (src (bkFeed bd) (4 * bkFeedCount bd))
    let buck := src (rdBucket d) 96
    s.kiln.subs = [] →
    (∀ c, calm a 64 → s.groupConf (leAt d 3 1) = some c → s.sliceQuiet (s.resvOf c).slice = false →
      let k := s.kgroup c.num
      (collWellFormed d c.members.length = false → ∃ t, exec (.klnSubmit o v) s = .next t ∧ result t stRefused ∧ t.kiln = s.kiln) ∧
      (collWellFormed d c.members.length = true → collAddresses a d c.members.length = true →
      (k.queued < 16 → k.pend = [] → ∃ t, exec (.klnSubmit o v) s = .next t ∧ result t stOk ∧
        t.kgroup c.num = { k with jobs := k.jobs ++ [collJob c a d k.next s.kiln.order], next := (k.next + 1) % 2 ^ 16 }) ∧
      (16 ≤ k.queued → ∃ t, exec (.klnSubmit o v) s = .next t ∧ result t stDeferred ∧ t.kiln = s.kiln))) ∧
    (∀ ch c, calm a 64 → calm a 128 → calm (bkFeed bd) (4 * bkFeedCount bd) → s.chanConf (bkChan bd) = some ch →
      s.groupConf ch.group = some c → s.sliceQuiet (s.resvOf c).slice = false → bucketWellFormed bd feed ch (s.resvOf c).bytes = true →
      bucketAddresses a bd = true → (∀ e ∈ feed, (coreOfId e.1).isSome = true) → (s.chanJobs (bkChan bd)).length < 4 →
      (s.kgroup c.num).queued < 16 → (s.kgroup c.num).pend = [] →
      let k := s.kgroup c.num
      ∃ t, exec (.bucketSubmit o v) s = .next t ∧ result t stOk ∧
        t.kgroup c.num = { k with jobs := k.jobs ++ [bucketJob c a bd feed k.next s.kiln.order], next := (k.next + 1) % 2 ^ 16 }) ∧
    ∀ ch c, calm a 64 → leAt d 0 1 = 7 → calm (rdBucket d) 96 → s.chanConf (bkChan buck) = some ch → s.groupConf ch.group = some c →
      s.sliceQuiet (s.resvOf c).slice = false → redelWellFormed a d buck = true → leAt buck 0 1 = 6 →
      s.runningBucket c.num (rdBucket d) = none → bit (leAt buck 72 1) 6 = true →
      ∃ t, exec (.redeliverSubmit o v) s = .next t ∧ result t stOk ∧
        t.kiln.redel = s.kiln.redel ++ [{ id := s.kiln.order, addr := a, raw := d, buck := buck, group := c.num, done := 0, peer := 1, got := [], asked := false, stat := stOk }]

/-- A collective (R520, R528, R530, R537): the oldest queued job of a group starts when nothing that shares its reservation
runs; its chunks go in flight; a chunk's source is read into it, its result written to DST; with every chunk done the
descriptor gets its status OK and the job is gone. Stated for data in flock stores. The ends before the end (R549 to R551,
R554): KLN_CTRL.ABORT and RESET and the stall limit end the running collective with ABORTED and their cause, this member as
culprit and detector, and notices are formed for its children in the tree; RESET also clears the group's SEQ state. Stated where no
DST write is held. -/
def Obligations.CollectivesRunAndAbort : Prop :=
  (∀ (s : State) (g : Nat) (c : Group), g < 64 → s.groupConf g = some c →
     let kg := s.kgroup g
     let m := c.members.length
     let bytes := (s.resvOf c).bytes
     let calm (a n : Nat) : Prop := memOf a n = some .store ∧ (flocksOf .store a n).find? s.flockQuiet = none
     (∀ j, kg.head = some j → (∀ d ∈ s.sharing c, ∀ x ∈ (s.kgroup d.num).jobs, x.run = false ∧ j.order ≤ x.order) →
       s.sliceQuiet (s.resvOf c).slice = false → s.contribsOut g kg.owed = false →
       (kg.pend = [] → ∃ t, exec (.collectiveStart g) s = .next t ∧ t = { s with kiln := t.kiln } ∧ t.kgroup g = { kg.put { j with run := true } with owed := none }) ∧
       (∀ p, kg.pend = [p] → p.seq = j.seq → exec (.collectiveStart g) s = .next (s.abortKJob c j p.ab j.addr))) ∧
     ∀ j, kg.running = some j → j.bucket = none →
       (j.mayStart m bytes = true → j.srcParts m c.my bytes j.next ≠ [] → ∃ t ch, exec (.chunkStart g) s = .next t ∧
         t = { s with kiln := t.kiln } ∧ t.kgroup g = kg.put { j with chunks := j.chunks ++ [ch], next := j.next + 1 } ∧
         ch.idx = j.next ∧ ch.stage = .loading ∧ ch.elems.length = j.chunkN m bytes j.next) ∧
       (j.mayStart m bytes = false → exec (.chunkStart g) s = .next s) ∧
       (∀ k a n lo errs, j.chunk k.idx false = some k → k.stage = .loading → j.srcParts m c.my bytes k.idx = [(a, n, lo)] → calm a n →
         ∃ t, exec (.kilnMemoryComplete g k.idx errs) s = .next t ∧ t = { s with kiln := t.kiln } ∧
           t.kgroup g = kg.put (j.putChunk (j.enter { k with elems := placeElems k.elems lo ((elemsOf (kElem j.ty) (Sparse.readBytes s.store (a - storeBase) n)).map fun x => if k.wide then toWide x else x) }))) ∧
       (∀ k a n lo errs, j.chunk k.idx false = some k → k.stage = .storing → j.dstParts m c.my bytes k.idx = [(a, lo, n)] →
         let bs := (((k.elems.drop lo).take n).map (leBytes (kElem j.ty))).flatten
         calm a bs.length → ∃ t, exec (.kilnMemoryComplete g k.idx errs) s = .next t ∧
           Sparse.readBytes t.store (a - storeBase) bs.length = bs ∧
           t.kgroup g = kg.put { j.dropChunk k with ended := j.ended + 1 }) ∧
       (j.ended = j.nchunks m bytes → j.comp = 0 → calm (j.addr + 40) 18 → s.kiln.ending = [] → s.kilnHolds g j.seq = false → ∃ t, exec (.collectiveEnd g) s = .next t ∧
         Sparse.readBytes t.store (j.addr + 40 - storeBase) 18 = j.tail stOk KAbort.none ∧
         (t.kgroup g).jobs = kg.jobs.filter fun x => x.seq != j.seq) ∧
       (j.ended ≠ j.nchunks m bytes → s.kiln.ending = [] → exec (.collectiveEnd g) s = .next s)) ∧
  (∀ (s : State) (v : Word64) (c : Group),
     let g := bits v.toNat 5 0
     let kg := s.kgroup g
     s.groupConf g = some c →
     let ab (cause : Nat) : KAbort := { cause := cause, culprit := c.my, detector := c.my, digest := 0 }
     (∀ j, kg.running = some j → j.bucket = none → j.comp = 0 → s.kilnHolds g j.seq = false → memOf (j.addr + 40) 18 = some .store →
       (flocksOf .store (j.addr + 40) 18).find? s.flockQuiet = none →
       let ends (i : Instr) (cause : Nat) : Prop := ∃ t, exec i s = .next t ∧
         Sparse.readBytes t.store (j.addr + 40 - storeBase) 18 = j.tail stAborted (ab cause) ∧
         (t.kgroup g).jobs = kg.jobs.filter (fun x => x.seq != j.seq) ∧ (t.kgroup g).aborted = j.seq ∧
         ((bits j.digest 63 48, c.my) ∉ kg.heard → t.kiln.notices = s.kiln.notices ++
           (treeChildren c.members.length c.my c.my).map fun d => { dest := d, digest := j.digest, ab := ab cause })
       ends (.klnCtrlAbort v) 6 ∧ (s.fld .klnStall 0 0 15 0 ≠ 0 → ends (.kilnStallExpiry g) 7) ∧
       (kg.jobs = [j] → ∃ t, exec (.klnCtrlReset v) s = .next t ∧ (t.kgroup g).jobs = [] ∧ (t.kgroup g).next = 0 ∧
         (t.kgroup g).aborted = 0 ∧ (t.kgroup g).pend = [])) ∧
     (kg.running = none → exec (.klnCtrlAbort v) s = .next s) ∧
     (s.fld .klnStall 0 0 15 0 = 0 → exec (.kilnStallExpiry g) s = .next s) ∧
     (kg.jobs = [] → ∃ t, exec (.klnCtrlReset v) s = .next t ∧ t = { s with kiln := t.kiln } ∧
       t.kgroup g = { kg with next := 0, aborted := 0, pend := [], heard := [] }))

/-- CONTRIB packets (R539 to R543, R548, R552): a slice offers the abort notice of its groups that was formed first, or the packet of
the group whose turn it is and which can pay for it; one that fits an open slot of the receiver is taken into it and answered with OK; one whose
digest differs aborts the collective and is answered with MISMATCH and the receiver's digest. -/
def Obligations.ContributionsTravel : Prop :=
  ∀ (s : State),
    (∀ i x c, i < 12 → s.sliceQuiet i = false → s.kiln.notices.find? (fun x => (s.sliceGroups i).contains x.group) = some x →
      s.groupConf x.group = some c →
      ∃ t, exec (.kilnPacketInject i) s = .next t ∧ t = { s with kiln := t.kiln, ni := t.ni } ∧
        t.ni = { s.ni with waiting := s.ni.waiting ++ [contribReq c i (bits x.digest 63 48) x.dest x.digest 15 0 0 0 (noticePayload x.ab)] } ∧
        t.kiln = { s.kiln with notices := s.kiln.notices.erase x }) ∧
    (∀ i g c j k d phase step off pay, i < 12 → s.sliceQuiet i = false →
      s.kiln.notices.find? (fun x => (s.sliceGroups i).contains x.group) = none →
      g ∈ s.sliceGroups i → Sparse.get 64 s.kiln.turn i = g → s.groupConf g = some c → (s.kgroup g).running = some j →
      s.pickPacket g c.members.length = some k → k.ready j.ty = some (d, phase, step, off, pay) →
      packetCost pay.length ≤ (s.kgroup g).deficit →
      ∃ t, exec (.kilnPacketInject i) s = .next t ∧ t = { s with kiln := t.kiln, ni := t.ni } ∧
        t.ni = { s.ni with waiting := s.ni.waiting ++ [contribReq c i j.seq d j.digest phase step (k.idx + k.ver.toNat * 2 ^ 31) off pay] } ∧
        t.kgroup g = { (s.kgroup g).put (j.putChunk (j.go { k with sent := k.sent + pay.length })) with last := d, deficit := (s.kgroup g).deficit - packetCost pay.length }) ∧
    ∀ (p : Packet) (c : Group) (j : KJob), s.Admits p → p.op = 0x30 → kpPhase p ≠ 15 → s.groupConf (kpGroup p) = some c →
      (s.resvOf c).slice = kpSlice p → s.sliceQuiet (kpSlice p) = false → (s.kgroup c.num).running = some j →
      seqPlace (s.kgroup c.num).current (kpSeq p) = 0 →
      (∀ ch, p.w4.toNat = j.digest → j.takeData c.members.length p = (stOk, some ch, false) →
        ∃ t, exec (.contrib p) s = .next t ∧ s.Answered t p stOk [] ∧ t.kgroup c.num = (s.kgroup c.num).put (j.putChunk ch)) ∧
      (p.w4.toNat ≠ j.digest → ∃ t, exec (.contrib p) s = .next t ∧ s.Answered t p stMismatch (leBytes 8 (s.kgroup c.num).ownDigest) ∧
        (t.kgroup c.num).aborted = j.seq)

/-- Gradient buckets (R560 to R563, R571 to R574, R579 to R582): the channel of the running bucket takes the row that its
feed list names next; a chunk is kept, sealed and written; both paths of a sampled chunk are compared; the seal exchange
carries the CRC of the seal table; and the bucket ends with OK and its seal bit, or with CHECKSUM_FAULT when the members'
seals differ. A row scaled by another G aborts the bucket. A redelivery (R583 to R587): a bale of the retained copy is
written over the damaged one and counted, and after the last bale bytes 32 to 39 of the descriptor tell status, source and
count, and the redelivery is over. -/
def Obligations.BucketsAndRedeliveries : Prop :=
  (∀ (s : State) (g : Nat) (c : Group) (j : KJob) (b : KBucket), g < 64 → s.groupConf g = some c → (s.kgroup g).running = some j →
     j.bucket = some b →
     let kg := s.kgroup g
     let m := c.members.length
     let bytes := (s.resvOf c).bytes
     let calm (a n : Nat) : Prop := memOf a n = some .store ∧ (flocksOf .store a n).find? s.flockQuiet = none
     (∀ x f k n r, b.chan < 16 → s.chanConf b.chan = some x → x.group = g → s.offered b = some (f, k, n, r) →
       b.fed.length / j.chunkE m bytes < b.lowOpen (j.nchunks m bytes) + 2 →
       (r.g = bkG j.raw → ∃ t, exec (.channelRowAccept b.chan) s = .next t ∧ t = { s with cores := t.cores, kiln := t.kiln } ∧
         t.core f k = (s.core f k).gradTaken ∧ t.kgroup g = kg.put { j with bucket := some (b.accept r n) }) ∧
       (r.g ≠ bkG j.raw → ∃ t, exec (.channelRowAccept b.chan) s = .next t ∧ (t.kgroup g).aborted = j.seq)) ∧
     (∀ k s1 a, j.chunk k.idx false = some k → k.stage = .storing → k.idx ≠ sealIdx →
       let result := k.elems.flatMap j.outBytes
       let other := bit s.freeVal.toNat 0
       let writes := (j.keep k other).sealEntries m bytes k.idx ++
         balePieces (result.length / 4096 + 2) (bkDst j.raw + k.idx * j.chunkE m bytes * bkElem j.raw) result
       s.bump.kilnStore (kReq g j.seq k.idx 0) writes = (s1, some (stOk, a)) →
       exec (.chunkComplete g k.idx) s = .next ((s1.countOverflow g j.seq k.ovf).putKJob g (j.keep k other))) ∧
     (∀ v xs, j.chunk v.idx true = some v → v.stage = .storing → b.kept.find? (fun x => x.1 == v.idx) = some (v.idx, xs) →
       ∃ t, exec (.verifyCompare g v.idx) s = .next t ∧ t = { s with kiln := t.kiln } ∧
         t.kgroup g = kg.put { j.dropChunk v with bucket := some { b with flags := b.flags ||| (if xs = v.elems then 4 else 8) } }) ∧
     (j.nchunks m bytes ≤ j.ended → j.chunks = [] → calm (bkSeal j.raw) (4 * bkBales j.raw) →
       ∃ t, exec (.sealExchangeStart g) s = .next t ∧ t = { s with kiln := t.kiln } ∧
         t.kgroup g = kg.put { j with chunks := [j.enter (j.mkChunk c sealIdx 8 false (b.block (crc32c (Sparse.readBytes s.store (bkSeal j.raw - storeBase) (4 * bkBales j.raw)))) .loading)] }) ∧
     ∀ k, j.chunk sealIdx false = some k → k.stage = .storing → s.keptInUse j.addr = false → j.comp = 0 → s.kilnHolds g j.seq = false →
       calm (j.addr + 64) 32 →
       let el (i : Nat) : Nat := (k.elems[i]?).getD 0
       let ok := el 1 == 0 && (el 2 + el 3) % 2 ^ 64 == 0
       ∃ t, exec (.bucketSeal g) s = .next t ∧ (t.kgroup g).jobs = kg.jobs.filter (fun x => x.seq != j.seq) ∧
         Sparse.readBytes t.store (j.addr + 64 - storeBase) 32 =
           j.bucketTail b m (if ok then stOk else stChecksumFault) KAbort.none ok (sext 64 (el 0))) ∧
  (∀ (s : State) (r : Redel) (c : Group), s.kiln.redel = [r] → s.groupConf r.group = some c → r.stat = stOk → rdComp r.raw = 0 →
     memOf (r.addr + 32) 8 = some .store → (flocksOf .store (r.addr + 32) 8).find? s.flockQuiet = none →
     (rdBales r.raw ≤ r.done → r.peer = 0 → ∃ t, exec (.redeliveryEnd 0) s = .next t ∧ t.kiln.redel = [] ∧
       Sparse.readBytes t.store (r.addr + 32 - storeBase) 8 = leBytes 1 0x80 ++ leBytes 3 0 ++ leBytes 4 r.done) ∧
     ∀ j s1, r.done + 1 = rdBales r.raw → r.peer = 0 → s.runningBucket r.group (rdBucket r.raw) = some j → r.len = 4096 →
       s.tryWriteBale (r.req r.addrOf) none (j.resultBytes c.members.length (s.resvOf c).bytes (r.bale * 4096) 4096) = (s1, some stOk) →
       ∃ t, exec (.redeliveryEnd 0) s = .next t ∧ t.kiln.redel = [] ∧ t.dram = s1.dram ∧
         t.fld .klnRedelivery 0 0 63 32 = min (s1.fld .klnRedelivery 0 0 63 32 + 1) (2 ^ 32 - 1))

/-- Training and the states of a port (R603, R605 to R608, R617, R619, R624, R625, R632, Table 15.11): an answered training run
with enough wavelengths in both directions brings the port UP with its lanes on the good wavelengths in ascending order and sends its
first control codeword, one
without an answer trains on, one with too few leaves it DOWN; retrains, DISABLE, stable lasers and an open stile move it as
the table says. -/
def Obligations.PortsTrainRetrainAndClose : Prop :=
  ∀ (s : State) (q : Nat), q < 64 →
    let h := q / 4
    let j := q % 4
    let goesTo (i : Instr) (v : Nat) : Prop := ∃ t, exec i s = .next t ∧ t.portState q = v
    (∀ (gt gr : BitVec 9), (s.portState q = 1 ∨ s.portState q = 3) → s.mayTrain q = true →
      let good (m : Nat) : List Nat := (List.range 9).filter (bit m)
      let tx := gt.toNat &&& s.fld .hthStatus h 0 62 54
      goesTo (.portTrain q gt gr false) 1 ∧
      ((good tx).length < s.minLanes q ∨ (good gr.toNat).length < s.minLanes q → goesTo (.portTrain q gt gr true) 0) ∧
      (s.minLanes q ≤ (good tx).length → s.minLanes q ≤ (good gr.toNat).length → ∃ t, exec (.portTrain q gt gr true) s = .next t ∧
        t.portUp q = true ∧ s.SendsControl t q 0 .none none ∧ t.fld .hthPortStatus h j 59 56 = min 8 (good tx).length ∧
        t.fld .hthPortStatus h j 55 52 = min 8 (good gr.toNat).length ∧
        (∀ i, i < 8 → t.slotWl q true i = (good gr.toNat).getD i 0xF ∧ t.slotWl q false i = (good tx).getD i 0xF) ∧
        ∀ esc cls, cls < 4 → t.credits q esc cls = 0)) ∧
    (∀ gt gr a, s.portState q ≠ 1 → s.portState q ≠ 3 → exec (.portTrain q gt gr a) s = .next s) ∧
    (∀ d p, (s.portState q = 1 ∨ s.portState q = 3) → ∃ t, exec (.trainingFrame q d p) s = .next t ∧
      t.fld .hthPortStatus h j 43 30 = d % 2 ^ 14 ∧ t.fld .hthPortStatus h j 51 46 = p % 2 ^ 6) ∧
    (s.portState q = 0 → s.mayTrain q = true → goesTo (.trainingRetryExpiry q) 1) ∧
    (s.portState q = 2 → goesTo (.retrain q) 3 ∧ ∃ t, exec (.portRetrainWrite q) s = .next t ∧ t.portState q = 3 ∧
      s.SendsControl t q (s.flitsDue q) .retrain none) ∧
    (s.portState q ≠ 2 → exec (.retrain q) s = .next s) ∧
    (s.portState q = 0 → s.mayTrain q = true → goesTo (.portRetrainWrite q) 3) ∧
    (∃ t, exec (.portDisable q) s = .next t ∧ t.portState q = 4 ∧ t.rbit .hthPortCtrl h j 1 = true ∧
      ∀ esc cls, cls < 4 → t.credits q esc cls = 0) ∧
    (s.portState q = 4 → ∃ t, exec (.portEnable q) s = .next t ∧ t.rbit .hthPortCtrl h j 1 = false ∧
      t.portState q = if s.rbit .hthStatus h 0 63 && s.rbit .hthStatus h 0 (52 + j / 2) then 1 else 0) ∧
    (∀ ok : BitVec 9, s.inReset = false → s.rbit .hthStatus h 0 63 = false → s.portState q = 0 → ∃ t, exec (.hearthLasersStable h ok) s = .next t ∧
      t.rbit .hthStatus h 0 63 = true ∧ t.fld .hthStatus h 0 62 54 = ok.toNat ∧
      t.portState q = if s.rbit .hthStatus h 0 (52 + j / 2) && !s.rbit .hthPortCtrl h j 1 then 1 else 0) ∧
    ∃ t, exec (.stileChangeComplete h (j / 2)) s = .next t ∧ t.rbit .hthStatus h 0 (52 + j / 2) = !s.inReset ∧
      (s.portState q = 0 → t.portState q = if s.rbit .hthStatus h 0 63 && !s.inReset && !s.rbit .hthPortCtrl h j 1 then 1 else 0)

/-- Codewords and swaps on an UP link (R597 to R600, R604, R608, R611): 160 bytes keep what a control codeword says, and the code and the
slots keep the bytes; an uncorrectable codeword is counted, corrected symbols are counted, and what a codeword holds acts as the
control codeword or as flits; a control codeword brings its credits, one with a bad CRC nothing; a SWAP_REQ is granted and
acknowledged; at the boundary the slot moves to its new wavelength. Failing and retuned wavelengths (R595, R609 to R615,
R618): a wavelength that is lost, or whose laser the far end reports out, is FAILED and its slot asks to move to the free
spare, with a boundary at least 8 control codewords ahead (the distance is a free value, log entry 1); calibration takes the
next wavelength in turn; sweeps and tones change its health; a failed laser is out in the four ports of its hearth. -/
def Obligations.LanesSwapFailAndRetune : Prop :=
  ((∀ bs : List Byte, bs.length = 160 → rsBytes (rsEncode bs) = bs) ∧
   (∀ (n : Nat) (c : List Nat), 0 < n → n ≤ 8 → c.length = 136 → offSlots (onSlots n c) = c ∧
     (onSlots n c).length = n ∧ ∀ l ∈ onSlots n c, l.length = (136 + n - 1) / n) ∧
   ∀ w : ControlWord, w.credits.length = 8 → (∀ x ∈ w.credits, x < 16) → w.cseq < 2 ^ 16 → w.selfDevice < 2 ^ 14 → w.selfPort < 64 →
     w.muster = none → (w.lane = .none ∨ w.lane = .retrain ∨ (∃ wl, wl < 256 ∧ w.lane = .laserOut wl) ∨
       ∃ rx slot wl b, slot < 256 ∧ wl < 256 ∧ b < 2 ^ 16 ∧ (w.lane = .swapReq rx slot wl b ∨ w.lane = .swapAck rx slot wl b)) →
     (controlBytes w).length = 160 ∧ controlOf (controlBytes w) = w ∧ controlOk (controlBytes (ctlSigned w)) = true) ∧
  (∀ (s : State) (q : Nat), q < 64 → s.portState q = 2 →
     let h := q / 4
     let j := q % 4
     let p := s.port q
     let js := s.slots q true
     let u := s.setPort q { p with rxPos := (p.rxPos + 1) % 20 }
     (∀ lanes, js ≠ [] → lanes.length = js.length →
       let word := offSlots (lanes.map fun l => l.map BitVec.toNat)
       (rsDecode word = none → p.rxPos = 0 → exec (.codewordDecode q js lanes) s = .next (u.incFld .hthPortCnt h j 31 0)) ∧
       (rsDecode word = none → p.rxPos ≠ 0 →
         exec (.codewordDecode q js lanes) s = .next ((u.incFld .hthPortCnt h j 31 0).takeFlitWord q (rsBytes word) true)) ∧
       ∀ c errs, rsDecode word = some (c, errs) →
         let v := u.countCorrected q js errs
         v.fld .hthPortCnt h j 63 32 = min (s.fld .hthPortCnt h j 63 32 + errs.length) (2 ^ 32 - 1) ∧
         (p.rxPos ≠ 0 → exec (.codewordDecode q js lanes) s = .next (v.takeFlitWord q (rsBytes c) false)) ∧
         (p.rxPos = 0 → controlOk (rsBytes c) = true →
           exec (.codewordDecode q js lanes) s = .next (v.takeControl q (controlOf (rsBytes c)))) ∧
         (p.rxPos = 0 → controlOk (rsBytes c) = false → exec (.codewordDecode q js lanes) s = .next v)) ∧
     (∀ w : ControlWord, w.credits.length = 8 → w.crc.toNat = crc32c (controlBody w) → w.lane = .none → w.muster = none →
       s.fld .hthPortStatus h j 43 30 = w.selfDevice % 2 ^ 14 → s.fld .hthPortStatus h j 51 46 = w.selfPort % 2 ^ 6 →
       ∃ t, exec (.controlCodeword q w) s = .next t ∧ t = { s with ports := t.ports, rtr := t.rtr } ∧
         t.port q = { p with got := w.cseq % 2 ^ 16, rxPos := 1 } ∧
         ∀ i, i < 8 → let old := Sparse.get 0 s.rtr.seen (q * 8 + i)
           let new := Sparse.get 0 t.rtr.seen (q * 8 + i)
           old ≤ new ∧ new < old + 16 ∧ new % 16 = w.credits.getD i 0 % 16) ∧
     (∀ w : ControlWord, w.credits.length = 8 → w.crc.toNat ≠ crc32c (controlBody w) →
       exec (.controlCodeword q w) s = .next (s.setPort q { p with rxPos := 1 })) ∧
     (∀ slot wl b, slot < 8 → wl < 9 → ∃ t, exec (.swapReq q true slot wl b) s = .next t ∧
       s.SendsControl t q (s.flitsDue q) (.swapAck true slot wl b) none ∧
       (t.port q).granted = p.granted.filter (fun y => y.slot != slot) ++ [{ slot := slot, wl := wl, bound := b, acked := true, urgent := false }]) ∧
     (∀ x, p.asked = [x] → ∃ t, exec (.swapAck q true x.slot x.wl x.bound) s = .next t ∧ t = { s with ports := t.ports } ∧
       (t.port q).asked = [{ x with acked := true }]) ∧
     (∀ x rest, p.granted = x :: rest → x.slot < 8 → x.wl < 9 → ∃ t, exec (.swapSwitch q false) s = .next t ∧
       t.slotWl q false x.slot = x.wl ∧ (t.port q).granted = rest ∧
       ∀ i, i < 8 → i ≠ x.slot → t.slotWl q false i = s.slotWl q false i) ∧
     ∀ x, p.asked = [x] → (x.acked = true ∨ x.urgent = true) → p.claims = [] → x.slot < 8 → x.wl < 9 →
       ∃ t, exec (.swapSwitch q true) s = .next t ∧ t.slotWl q true x.slot = x.wl ∧ (t.port q).asked = [] ∧
         ∀ i, i < 8 → i ≠ x.slot → t.slotWl q true i = s.slotWl q true i) ∧
  (∀ (s : State) (q k : Nat), q < 64 → k < 9 → s.portState q = 2 → s.hearthBusy (q / 4) = false →
     let p := s.port q
     let asks (t : State) (slot wl : Nat) (urgent : Bool) : Prop := ∃ d, 8 ≤ d ∧ d < 2 ^ 15 ∧
       (t.port q).asked = p.asked ++ [{ slot := slot, wl := wl, bound := (p.got + d) % 2 ^ 16, acked := false, urgent := urgent }]
     let lost (i : Instr) : Prop := s.health q true k ≠ 3 → s.slotWl q true 0 = k → s.spare q true < 9 → s.spare q true ≠ k →
       s.lane q true 39 36 = 0xF → p.away = none → ∃ t, exec i s = .next t ∧ t.health q true k = 3 ∧ t.lane q true 39 36 = 0 ∧
         asks t 0 (s.spare q true) true
     lost (.laserOut q k) ∧ (s.health q true k ≠ 1 → lost (.pilotToneCheck q k none)) ∧
     (p.corr = [(k, max 1 (s.fld .hthCfg (q / 4) 0 15 0) + 1)] → lost (.serWindowExpiry q)) ∧
     (p.corr = [] → ∃ t, exec (.serWindowExpiry q) s = .next t ∧ t = { s with ports := t.ports } ∧ t.port q = p) ∧
     (s.fld .hthCfg (q / 4) 0 31 24 ≠ 0 → p.calRx = k →
       (s.health q true k ≠ 0 → ∃ t, exec (.level1Calibration q true) s = .next t ∧ t = { s with ports := t.ports } ∧
         t.port q = { p with calRx := (k + 1) % 9 }) ∧
       (s.health q true k = 0 → s.slotWl q true 0 = k → s.spare q true < 9 → s.spare q true ≠ k → s.lane q true 39 36 = 0xF →
         s.health q true (s.spare q true) = 0 → p.asked = [] → ∃ t, exec (.level1Calibration q true) s = .next t ∧
           t.health q true k = 1 ∧ t.lane q true 39 36 = 0 ∧ (t.port q).calRx = (k + 1) % 9 ∧ asks t 0 (s.spare q true) false)) ∧
     (s.health q true k = 2 →
       (p.away = none → ∃ t, exec (.ringSweepComplete q true k true) s = .next t ∧ t.health q true k = 0 ∧
         Sparse.get 0 (t.port q).sweeps k = 0 ∧ Sparse.get 0 (t.port q).wrong k = 0) ∧
       (Sparse.get 0 p.sweeps k + 1 < 3 → ∃ t, exec (.ringSweepComplete q true k false) s = .next t ∧ t = { s with ports := t.ports } ∧
         Sparse.get 0 (t.port q).sweeps k = Sparse.get 0 p.sweeps k + 1)) ∧
     (s.health q true k = 0 →
       (∃ t, exec (.pilotToneCheck q k (some k)) s = .next t ∧ t = { s with ports := t.ports } ∧ Sparse.get 0 (t.port q).wrong k = 0) ∧
       ∀ x, x ≠ k → Sparse.get 0 p.wrong k = 1 → (∀ i, i < 8 → s.slotWl q true i ≠ k) →
         ∃ t, exec (.pilotToneCheck q k (some x)) s = .next t ∧ t.health q true k = 2) ∧
     (s.rbit .hthStatus (q / 4) 0 (54 + k) = true → ∃ t, exec (.laserFailure (q / 4) k) s = .next t ∧
       t.rbit .hthStatus (q / 4) 0 (54 + k) = false ∧ ∀ i, i < 4 → t.health (4 * (q / 4) + i) false k = 3) ∧
     ∀ i, p.away = some (i, k) → s.health q true k = 1 → p.claims ≠ [] → ∃ t, exec (.ringSetpointReturn q true) s = .next t ∧
       t.health q true k = 0 ∧ asks t i k false)

/-- One update of the thermal model (R664 to R672, R674 to R677): every pasture publishes its acting temperature, the
fraction of the throttle law and its cause; the model is ready; where a temperature reaches 125 °C the device is tripped, and
every write gate closed. A fraction is the largest of the five terms. What feeds the model and what follows from it (R620 to
R623, R662, R663, R666, R671, R674 to R677): measurements and readings are taken in; a pasture applies the fraction that was
published, or withholds all issue when none comes; a stack that hears no decision closes its gate; a sensor at 125 °C trips
the device; the slew governor withholds what lies above its bound. -/
def Obligations.ThermalModelAndItsActions : Prop :=
  (∀ (s : State) (nodes : List Int), nodes.length = 233 → s.inReset = false → s.rbit .drvReady 0 0 62 = true → s.fwStep ≠ 1 →
     let t1 := s.therm.calibrate nodes
     let now := (List.range 24).map (t1.acting nodes)
     let rate := rateLimit (s.fld .thmCfg 0 0 28 24)
     let fcap := t1.capTerm (capLimit (s.fld .thmCfg 0 0 10 0))
     let site (i : Nat) : Int := now.getD i 0
     (s.rbit .drvReady 0 0 60 = true → s.tripped = false → tripSite now nodes = none → s.fld .thmCfg 0 0 31 31 = 0 →
       ∃ t, exec (.thermalModelUpdate nodes) s = .next t ∧ t.tripped = false ∧ t.therm.fcap = fcap ∧
         t.therm.hist = (now :: s.therm.hist).take 10 ∧ t.rbit .drvReady 0 0 60 = true ∧ ∀ p, p < 12 →
           let terms := throttleTerms (site p) (t1.rate now p) (site (12 + p)) (t1.rate now (12 + p)) rate fcap
           t.fld .thmPas 0 p 63 48 = field16 (site p) ∧ t.fld .thmPas 0 p 31 23 = terms.foldl max 0 ∧
           t.rbit .thmStk 0 p 15 = gateDecision (s.rbit .thmStk 0 p 15) (site (12 + p)) ∧
           t.rbit .thmStk 0 p 14 = refreshDecision (s.rbit .thmStk 0 p 14) (site (12 + p))) ∧
     (s.tripped = false → ((∃ i, i < 24 ∧ 2000 ≤ site i) ∨ ∃ x ∈ nodes, 2000 ≤ x) → ∃ t, exec (.thermalModelUpdate nodes) s = .next t ∧ t.tripped = true ∧
       ∀ i, i < 12 → t.gateClosed i = true ∧ t.fld .thmPas 0 i 31 23 = 256)) ∧
  (∀ (s : State) (p : Nat), p < 12 →
     (∀ xs : List Int, xs.length = 24 → ∃ t, exec (.sensorReading xs) s = .next t ∧ t = { s with therm := t.therm } ∧
       t.therm.sensors = xs ∧ t.therm.unread = true ∧ ∀ i, i < 24 → bit t.therm.hot i = decide (2000 ≤ xs.getD i 0)) ∧
     (∀ xs : List Nat, xs.length = 712 → ∃ t, exec (.powerMeasurement xs) s = .next t ∧ t = { s with therm := t.therm } ∧
       t.therm.power = (computePower xs :: s.therm.power).take 1000 ∧ t.therm.newPower = min 1000 (s.therm.newPower + 1)) ∧
     (∀ w, ∃ t, exec (.packagePowerMeasurement w) s = .next t ∧ t = { s with therm := t.therm, regs := t.regs } ∧
       t.fld .thmPower 0 0 15 0 = min w 0xFFFF ∧ t.fld .thmPower 0 0 63 48 = max (min w 0xFFFF) (s.fld .thmPower 0 0 63 48)) ∧
     (s.rbit .drvReady 0 0 60 = true → ∃ t, exec (.fractionApply p) s = .next t ∧ t = { s with therm := t.therm } ∧
       Sparse.get 0 t.therm.frac p = s.fld .thmPas 0 p 31 23) ∧
     (∃ t, exec (.fractionWatchdog p) s = .next t ∧ t = { s with therm := t.therm } ∧ ∀ f, f / 56 = p → t.withheld f = true) ∧
     (∃ t, exec (.gateDecisionWatchdog p) s = .next t ∧ t.gateClosed p = true ∧ t.dram = s.dram ∧
       ∀ i, i ≠ p → i < 12 → t.gateClosed i = s.gateClosed i) ∧
     (∀ v : Word32, (s.tripped = false → exec (.holdWrite v) s = .next (s.setReg .thmCfg 0 0 (Reg.thmCfg.written (s.reg .thmCfg 0 0) v.toNat))) ∧
       (s.tripped = true → ∃ t, exec (.holdWrite v) s = .next t ∧ t.fld .thmCfg 0 0 31 31 = s.fld .thmCfg 0 0 31 31)) ∧
     (∀ i, i < 24 → s.tripped = false → ∃ t, exec (.sensorTrip i) s = .next t ∧ t.tripped = true ∧
       bit t.therm.hot i = true ∧ ∀ k, k < 12 → t.gateClosed k = true) ∧
     (p ≠ 5 → p ≠ 6 → ∀ x rest, ((s.therm.power.take 101).map fun v => v.getD p 0) = x :: rest →
       ∃ t, exec (.slewGovernorTick p) s = .next t ∧ t = { s with therm := t.therm } ∧
         Sparse.get (0, 1) t.therm.slew p = if rest.foldl min x + s.slewLimit < x then (x - (rest.foldl min x + s.slewLimit), x) else (0, 1)) ∧
     ((p = 5 ∨ p = 6) → exec (.slewGovernorTick p) s = .next s))

/-- Muster and retirement (R683, R686, R687, R691 to R700): the suspicions leave an UP port in frames of at most seven entries, each
with its number, in control codewords; a device silent on its
only port is suspected, a vote expires; a declared device is dead to the NI and the muster, and a device that is declared or
finds a state array corrupt is fenced; the oldest event record is popped; a retired core is recorded and no longer good. -/
def Obligations.MusterAndRetirement : Prop :=
  ∀ s : State,
    (∀ q, q < 64 → s.portUp q = true →
      let n := s.muster.suspect.length
      ∃ t, exec (.musterPeriodicFrame q) s = .next t ∧ t.muster.suspect = s.muster.suspect ∧
        Sparse.get 0 t.muster.fseq q = (Sparse.get 0 s.muster.fseq q + max 1 ((n + 6) / 7)) % 2 ^ 16 ∧
        (n ≤ 7 → s.SendsControl t q (s.flitsDue q) .none (some {
          jobTag := BitVec.ofNat 32 s.jobTag, fseq := BitVec.ofNat 16 (Sparse.get 0 s.muster.fseq q), state := s.musterState, resv := false,
          entries := s.muster.suspect.map fun x => { subject := x, kind := 1, ttl := 2, reporter := s.device } }))) ∧
    (∀ q, q < 64 → s.portUp q = false → exec (.musterPeriodicFrame q) s = .next s) ∧
    (∀ q d b, q < 64 → s.fold.isSome = true → s.muster.learned = [(q, d, b)] → d ≠ s.device → s.muster.suspect = [] →
      s.muster.votes = [] → 2 ≤ s.quorum → ∃ t, exec (.musterSilenceExpiry q) s = .next t ∧ t.muster.suspect = [d] ∧
        t.muster.learned = [(q, d, true)]) ∧
    (∀ x r, x ≠ s.device → s.muster.suspect = [] → s.muster.votes = [(x, r)] → ∃ t, exec (.voteExpiry x r) s = .next t ∧
      t.muster.votes = [] ∧ t.muster.dead = s.muster.dead) ∧
    (∀ v : Word32, let x := bits v.toNat 13 0
      (x = s.device → s.fenced = false → ∃ t, exec (.drvDeclare v) s = .next t ∧ t.fenced = true ∧ t.fld .drvMusterStatus 0 0 61 60 = 3) ∧
      (x ≠ s.device → x ∉ s.muster.dead → s.kiln.groups = [] → s.kiln.subs = [] → s.ni.tags = [] → s.ni.proc = [] → ∃ t,
        exec (.drvDeclare v) s = .next t ∧
        t.muster.dead = x :: s.muster.dead ∧ x ∈ t.ni.dead ∧ t.fld .drvMusterStatus 0 0 45 32 = x)) ∧
    (s.fenced = false → s.kiln.groups = [] → s.kiln.subs = [] → s.ni.tags = [] → s.ni.proc = [] → ∃ t, exec .stateArrayError s = .next t ∧
      t.fenced = true ∧ t.fld .drvMusterStatus 0 0 61 60 = 2) ∧
    exec .eventPop s = .next { s with evt := s.evt.drop 1 } ∧
    (∀ v : Word32, let f := bits v.toNat 25 16
      let n := bits v.toNat 6 0
      f < 672 → s.physGood f n = true → ∃ t, exec (.drvRetire v) s = .next t ∧ t.physGood f n = false ∧
        (s.nor.length < 4096 → t.nor = s.nor ++ [(f, n)]) ∧ ∀ m, m < 128 → m ≠ n → t.physGood f m = s.physGood f m) ∧
    ∀ f n, f < 672 → n < 128 → (s.flock f).logicalOf n = none →
      (s.physGood f n = true → s.nor.length < 4096 → ∃ t, exec (.spareSelfTest f n false) s = .next t ∧ t.physGood f n = false ∧
        t.nor = s.nor ++ [(f, n)]) ∧
      exec (.spareSelfTest f n true) s = .next s

/-- Shadow mode (R705, R706, R709 to R711): enabling makes the device a primary that mirrors, or a shadow; disabling ends it;
on a shadow a write with ENABLE 0 only takes its mark, and one with ENABLE 1 sets PEER too (log entry 64, the model's choice). A step
mark is due until its digest is complete, which publishes STEP and DIGEST; a shadow compares equal steps. -/
def Obligations.ShadowModeAndDigests : Prop :=
  ∀ s : State,
    (∀ v : Word64, s.isShadow = false →
      (bit v.toNat 62 = false → s.rbit .drvShadowCtrl 0 0 63 = false → ∃ t, exec (.shadowEnable v) s = .next t ∧
        t.fld .drvShadowStatus 0 0 63 61 = 1 ∧ t.shadow.ring = 0 ∧ t.rbit .drvShadowCtrl 0 0 63 = true) ∧
      (bit v.toNat 62 = true → ∃ t, exec (.shadowEnable v) s = .next t ∧ t.fld .drvShadowStatus 0 0 63 61 = 2 ∧ t.isShadow = true ∧
        t.shadow.full = []) ∧
      ∃ t, exec (.shadowDisable v) s = .next t ∧ t.fld .drvShadowStatus 0 0 63 61 = 0 ∧ t.rbit .drvShadowCtrl 0 0 63 = false) ∧
    (∀ v : Word64, s.isShadow = true →
      let u := if bit v.toNat 61 then s.stepMark else s
      exec (.shadowEnable v) s = .next (u.setFld .drvShadowCtrl 0 0 13 0 (bits v.toNat 13 0)) ∧ exec (.shadowDisable v) s = .next u) ∧
    (∃ t, exec .stepMark s = .next t ∧ t.shadow.due = s.shadow.due + 1 ∧ t.rbit .drvShadowStatus 0 0 60 = true ∧
      t = { s with shadow := t.shadow, regs := t.regs }) ∧
    (s.shadow.due = 0 → exec .digestComplete s = .next s) ∧
    (s.shadow.due ≠ 0 →
      let step := (s.fld .drvShadowStatus 0 0 47 32 + 1) % 2 ^ 16
      ∃ t, exec .digestComplete s = .next t ∧ t.shadow.due = s.shadow.due - 1 ∧ t.fld .drvShadowStatus 0 0 47 32 = step ∧
        t.fld .drvShadowStatus 0 0 31 0 = s.windowDigest % 2 ^ 32 ∧
        (s.fld .drvShadowStatus 0 0 63 61 = 2 → s.shadow.own = [] → ∀ d, s.shadow.prim = [(step, d)] →
          (d = s.windowDigest → t.fld .drvShadowStatus 0 0 63 61 = 2 ∧
            t.fld .drvShadowStatus 0 0 59 48 = min (s.fld .drvShadowStatus 0 0 59 48 + 1) (2 ^ 12 - 1)) ∧
          (d ≠ s.windowDigest → t.fld .drvShadowStatus 0 0 63 61 = 4)))

/-- The mailbox (R366, R397, R400, R733, R736, Table 19.9): an open mailbox answers every command once, with an interrupt on
vector 16: the fault log, the interrupt policy, firmware information and logs, Unsupported for other opcodes, Busy while the
drover restarts. A whole image that passes the checks makes the inactive bank VALID, one that fails them INVALID; Activate FW
of a VALID bank starts the activation or names the bank for the next boot. Response bodies of published standards are free
values (log entry 1). -/
def Obligations.MailboxCommandsAnswer : Prop :=
  ∀ (s : State),
    let accepts := s.rbit .cxlStatus 0 0 62 = true ∧ s.rbit .cxlStatus 0 0 63 = true ∧ s.fwStep ≠ 1 ∧ s.fw.moving = none ∧ s.fw.recovery = false
    let tells (i : Instr) (op : Nat) (r : MbRet) (data : List Byte) : Prop := exec i s = .next (s.mbDone op r data)
    (accepts →
      (∃ d, tells .getEventRecords 0x0100 .success d) ∧
      (∃ t, exec .clearEventRecords s = .next t ∧ t.rbit .cxlFaultInfo 0 0 63 = false ∧ t.rbit .cxlFaultInfo 0 0 62 = false ∧
        t.out = s.out ++ [.mailbox 0x0101 .success [], .msix 16]) ∧
      tells .getEventInterruptPolicy 0x0102 .success [s.policy] ∧
      (∀ v, ∃ t, exec (.setEventInterruptPolicy v) s = .next t ∧ t.policy = v ∧ t.out = s.out ++ [.mailbox 0x0103 .success [], .msix 16]) ∧
      (∃ d, tells .getFwInfo 0x0200 .success d) ∧ (∃ d, tells .getSupportedLogs 0x0400 .success d) ∧ 
      (∀ q, (q.take 16 = Config.effectsLogId → ∃ d, tells (.getLog q) 0x0401 .success d) ∧
        (q.take 16 ≠ Config.effectsLogId → tells (.getLog q) 0x0401 .invalidInput [])) ∧
      (∀ op, op ∉ mailboxOpcodes → tells (.mailboxUnsupported op) op .unsupported []) ∧
      (∀ slot img, (slot = 1 ∨ slot = 2) → s.inactive (slot - 1) = true → s.fw.staging = none → 4096 ≤ img.length → img.length ≤ 2 ^ 20 →
        (fwCheck s.svnFloor (some s.fwVersion) img = 0 → img.length = fwTotal img → fwBodyOk img = true →
          ∃ t, exec (.transferFw slot 0 0 img) s = .next t ∧ t.bankState (slot - 1) = 1 ∧ t.bankImage (slot - 1) = img ∧
            t.fw.staging = none ∧ t.rbit .secFwStatus 0 0 63 = false ∧ t.fld .secFwStatus 0 0 47 40 = 0 ∧
            t.out = s.out ++ [.mailbox 0x0201 .success [], .msix 16]) ∧
        (fwCheck s.svnFloor (some s.fwVersion) img ≠ 0 → ∃ t, exec (.transferFw slot 0 0 img) s = .next t ∧ t.bankState (slot - 1) = 3 ∧
          t.fw.staging = none ∧ t.fld .secFwStatus 0 0 47 40 = fwCheck s.svnFloor (some s.fwVersion) img)) ∧
      (∀ slot a off d, d.length ≤ 2 ^ 20 → (slot = 0 ∨ 2 < slot) → tells (.transferFw slot a off d) 0x0201 .invalidSlot []) ∧
      ∀ slot, (slot = 1 ∨ slot = 2) →
        (s.bankState (slot - 1) = 1 → s.actBusy = false → ∃ t, exec (.activateFw slot true) s = .next t ∧ t.fw.boot = slot - 1 ∧
          t.out = s.out ++ [.mailbox 0x0202 .success [], .msix 16]) ∧
        (s.bankState (slot - 1) = 1 → s.actBusy = false → slot - 1 ≠ s.activeBank → s.svnFloor ≤ fwSvn (s.bankImage (slot - 1)) →
          leAt (s.bankImage (slot - 1)) 16 4 ≤ s.fwVersion → matrixOk (s.bankImage s.activeBank) (s.bankImage (slot - 1)) = true →
          ∃ t, exec (.activateFw slot false) s = .next t ∧ t.fwStep = 1 ∧ t.fwUnit = 0 ∧ t.out = s.out ∧
            t.fw.moving = some { bank := slot - 1, back := false, asker := 1, session := 0 }) ∧
        (s.bankState (slot - 1) ≠ 1 → tells (.activateFw slot false) 0x0202 .invalidSlot [])) ∧
    (s.rbit .cxlStatus 0 0 62 = true → s.rbit .cxlStatus 0 0 63 = true → s.fwStep = 1 →
      tells .getFwInfo 0x0200 .busy [] ∧ tells .getEventRecords 0x0100 .busy []) ∧
    (s.rbit .cxlStatus 0 0 62 = false → exec .getFwInfo s = .next s)

/-- MCTP and attestation (R402, R717 to R724): while the management firmware answers, an endpoint ID is taken and every
request is answered once on its transport; a signed response replaces the transcript; an LMS signature takes the next index,
once for each transcript. The FINISH of a session carries the IDE keys of the host (log entry 44, the model's choice). Response layouts
are free values (log entry 1); that PLDM command 0x04 sets the event receiver is presumed (log entry 12). -/
def Obligations.ManagementAndAttestation : Prop :=
  ∀ (s : State) (tr : Transport) (req : List Byte),
    let k := s.conn tr
    let answers (i : Instr) : Prop := ∃ d, exec i s = .next (s.emit (.spdm tr d))
    let with' (i : Instr) (k' : Conn) : Prop := ∃ t d, exec i s = .next t ∧ t = { s with conns := t.conns, out := s.out ++ [.spdm tr d] } ∧
      t.conn tr = k'
    let signs (i : Instr) : Prop := ∃ t d script, exec i s = .next t ∧
      t = { s with conns := t.conns, fresh := s.fresh + 1, out := s.out ++ [.spdm tr d] } ∧
      t.conn tr = { k with transcript := some script, sig := none }
    let n := s.fld .secLms 0 0 25 0
    (s.managed = true →
      (∀ e, ∃ t d, exec (.mctpSetEndpointId e) s = .next t ∧ t = { s with eid := e, out := s.out ++ [.mctp d] }) ∧
      (bits (leAt req 1 1) 5 0 = 2 → leAt req 2 1 = 4 → 3 ≤ req.length → ∃ t d, exec (.pldmRequest req) s = .next t ∧
        t = { s with evtRecv := leAt req 3 1 != 0, out := s.out ++ [.mctp d] }) ∧
      answers (.getVersion tr req) ∧ answers (.getCapabilities tr req) ∧ answers (.negotiateAlgorithms tr req) ∧
      answers (.getDigests tr req) ∧ answers (.getCertificate tr req) ∧ answers (.getMeasurements tr false req) ∧
      signs (.challenge tr req) ∧ signs (.getMeasurements tr true req) ∧
      with' (.keyExchange tr req) { k with session := 1 } ∧
      (∀ keys, (k.session = 1 → ∃ t d, exec (.finish tr { bytes := req, keys := keys }) s = .next t ∧
        t = { s with conns := t.conns, ideKeys := t.ideKeys, regs := t.regs, out := s.out ++ [.spdm tr d] } ∧
        t.conn tr = { k with session := 2 } ∧ (keys = [] → t.ideKeys = s.ideKeys ∧ t.regs = s.regs) ∧
        (keys ≠ [] → t.ideKeys = keys ∧ t.rbit .cxlStatus 0 0 59 = true)) ∧ (k.session ≠ 1 → answers (.finish tr { bytes := req, keys := keys }))) ∧
      (k.session ≠ 0 → with' (.endSession tr req) { k with session := 0 }) ∧ (k.session = 0 → answers (.endSession tr req)) ∧
      (∀ off, answers (.getLmsCert tr off)) ∧
      (k.transcript = none → answers (.getLmsSig tr)) ∧
      (∀ script j sig, k.transcript = some script → k.sig = some (j, sig) →
        exec (.getLmsSig tr) s = .next (s.reply tr "VENDOR_DEFINED_RESPONSE" (0 :: leBytes 4 j ++ sig))) ∧
      (∀ script, k.transcript = some script → k.sig = none → 2 ^ 25 ≤ n → answers (.getLmsSig tr)) ∧
      ∀ script, k.transcript = some script → k.sig = none → n < 2 ^ 25 → ∃ t sig, exec (.getLmsSig tr) s = .next t ∧
        t.conn tr = { k with sig := some (n, sig) } ∧
        t.out = s.out ++ [.spdm tr (Config.standardReply "VENDOR_DEFINED_RESPONSE" (0 :: leBytes 4 n ++ sig))] ∧ t.fld .secLms 0 0 25 0 = n + 1 ∧ n < t.fw.lmsEnd ∧
        t.rbit .secLms 0 0 63 = decide (n + 1 = 2 ^ 25)) ∧
    (s.managed = false → exec (.challenge tr req) s = .next s ∧ exec (.pldmRequest req) s = .next s)

/-- Activation, commit and boot (R729, R736 to R739, Table 19.12a): a request for a VALID bank starts STEP 1 or names the
bank for the next boot, and a busy device answers with ERROR 0x08; each unit that passes gives way to the next in the table's
order; after the last the new set runs in trial; a failure turns the activation back, which ends ROLLED_BACK; COMMIT ends the
trial; the boot ROM starts the bank of the boot record when it is accepted, else the other, else recovery. The fold image
policy (R742): while no fold is loaded and LOCK is 0, a 64-byte aligned key package of stacked memory is enrolled, CLEAR
forgets it, and SEC_POLICY.FOLD_SIGNED follows the write; otherwise a change is refused and REFUSED set. LOCK is set by a 1
and stays. -/
def Obligations.ActivationAndFoldPolicy : Prop :=
  (∀ (s : State),
     (∀ v : Word32, let b := bits v.toNat 29 29
       bit v.toNat 30 = true → bit v.toNat 31 = false → s.bankState b = 1 →
       (bit v.toNat 28 = false → s.actBusy = false → s.fw.recovery = false → b ≠ s.activeBank → s.svnFloor ≤ fwSvn (s.bankImage b) →
         leAt (s.bankImage b) 16 4 ≤ s.fwVersion → matrixOk (s.bankImage s.activeBank) (s.bankImage b) = true →
         ∃ t, exec (.fwActivateOnline v) s = .next t ∧ t.fwStep = 1 ∧ t.fwUnit = 0 ∧ t.rbit .secFwStatus 0 0 63 = true ∧
           t.fw.moving = some { bank := b, back := false, asker := 0, session := 0 }) ∧
       (bit v.toNat 28 = true → s.actBusy = false → ∃ t, exec (.fwActivateAtReset v) s = .next t ∧ t.fw.boot = b ∧ t.fw.moving = none) ∧
       (bit v.toNat 28 = false → s.actBusy = true → ∃ t, exec (.fwActivateOnline v) s = .next t ∧ t.fw = s.fw ∧
         t.fld .secFwStatus 0 0 47 40 = 8)) ∧
     (∀ (m : Moving) (x : Nat × Nat), s.fw.moving = some m → m.back = false → s.fw.events = [] → s.fw.fails = [] → s.peat = [] →
       (nextUnit s.fwStep s.fwUnit = some x → ∃ t, exec (.unitRestartComplete true) s = .next t ∧ t.fwStep = x.1 ∧ t.fwUnit = x.2 ∧
         t.fw = s.fw) ∧
       (nextUnit s.fwStep s.fwUnit = none → m.bank < 2 → m.asker = 0 → ∃ t, exec (.unitRestartComplete true) s = .next t ∧
         t.activeBank = m.bank ∧ t.trial = true ∧ t.fwVersion = fwSetVersion (s.bankImage m.bank) ∧ t.fw.moving = none ∧ t.fw.boot = m.bank ∧
         t.fw.prev = s.activeBank ∧ t.fwStep = 0 ∧ t.rbit .secFwStatus 0 0 63 = false ∧ t.fld .secFwStatus 0 0 47 40 = 0) ∧
       exec (.unitRestartComplete false) s = .next (s.setFw { s.fw with moving := some { m with back := true } })) ∧
     (∀ m : Moving, s.fw.moving = some m → m.back = true → m.asker = 0 → s.fwStep = 1 → s.fw.events = [] → ∃ t,
       exec (.unitRestartComplete true) s = .next t ∧ t.fw.moving = none ∧ t.rbit .secFwStatus 0 0 58 = true ∧
         t.fld .secFwStatus 0 0 47 40 = 0x0B ∧ t.activeBank = s.activeBank) ∧
     (∀ (m : Moving) (x : Nat × Nat) (b : Bool), s.fw.moving = some m → m.back = true → s.fw.events = [] → s.fw.fails = [] → s.peat = [] →
       prevUnit s.fwStep s.fwUnit = some x → ∃ t, exec (.unitRestartComplete b) s = .next t ∧ t.fwStep = x.1 ∧ t.fwUnit = x.2 ∧ t.fw = s.fw) ∧
     (∃ t, exec .fwCommit s = .next t ∧ t.trial = false ∧ t.fw = s.fw ∧
       (s.trial = true → bit (leAt (s.bankImage s.activeBank) 7 1) 0 = true → fwSvn (s.bankImage s.activeBank) < 64 →
         t.svnFloor = max s.svnFloor (fwSvn (s.bankImage s.activeBank)))) ∧
     (s.inReset = false → s.rbit .drvReady 0 0 62 = false → s.fw.recovery = false → s.trial = false → s.fw.boot < 2 → (∀ x ∈ s.nor, x.1 < 672 ∧ x.2 < 128) →
       let b := if s.bootOk s.fw.boot then s.fw.boot else 1 - s.fw.boot
       (s.bootOk b = true → ∃ t, exec .droverBoot s = .next t ∧ t.rbit .drvReady 0 0 62 = true ∧ t.activeBank = b ∧
         t.fwVersion = fwSetVersion (s.bankImage b) ∧ t.fw.recovery = false) ∧
       (s.bootOk b = false → ∃ t, exec .droverBoot s = .next t ∧ t.fw.recovery = true ∧ t.rbit .drvReady 0 0 62 = false))) ∧
  (∀ (s : State) (v : Word64) (w : Word32),
     let a := bits v.toNat 47 0
     let u := s.setFld .secFoldKey 0 0 47 0 a
     let u := if bit v.toNat 62 then (u.setFw { u.fw with foldKey := [], enrol := none }).setRbit .secPolicy 0 0 29 false else u
     (bit v.toNat 63 = true → s.policyOpen = true → a % 64 = 0 → memOf a 160 = some .stacked → ∀ s1 r,
       u.tryReadMem { foldReq a with job := 2 } 0x5 160 = (s1, r) →
       (r = none → exec (.foldKeyEnrol v) s = .next (s1.setFw { s1.fw with enrol := some a })) ∧
       ∀ st bs, r = some (st, bs) →
         (st = stOk → leAt bs 97 3 = 0 → ∃ t, exec (.foldKeyEnrol v) s = .next t ∧ t.fw.foldKey = bs ∧ t.fw.enrol = none ∧
           t.rbit .secPolicy 0 0 29 = true) ∧
         (st ≠ stOk ∨ leAt bs 97 3 ≠ 0 → ∃ t, exec (.foldKeyEnrol v) s = .next t ∧ t.fw.foldKey = s1.fw.foldKey ∧ t.fw.enrol = none ∧
           t.rbit .secFwStatus 0 0 61 = true)) ∧
     (bit v.toNat 63 = true → s.policyOpen = true → a % 64 ≠ 0 ∨ memOf a 160 ≠ some .stacked → exec (.foldKeyEnrol v) s = .next u.fwRefuse) ∧
     (bit v.toNat 63 = true → s.policyOpen = false → ∃ t, exec (.foldKeyEnrol v) s = .next t ∧ t.fw = s.fw ∧
       t.rbit .secFwStatus 0 0 61 = true) ∧
     (bit v.toNat 62 = true → bit v.toNat 63 = false → s.policyOpen = true → ∃ t, exec (.foldKeyClear v) s = .next t ∧ t.fw.foldKey = [] ∧ t.fw.enrol = none ∧
       t.rbit .secPolicy 0 0 29 = false) ∧
     (bit v.toNat 62 = true → s.policyOpen = false → ∃ t, exec (.foldKeyClear v) s = .next t ∧ t.fw = s.fw ∧
       t.rbit .secFwStatus 0 0 61 = true) ∧
     (s.policyOpen = true → ∃ t, exec (.policyWrite w) s = .next t ∧ t.rbit .secPolicy 0 0 30 = bit w.toNat 30 ∧
       t.rbit .secPolicy 0 0 31 = bit w.toNat 31) ∧
     (s.policyOpen = false → ∃ t, exec (.policyWrite w) s = .next t ∧ t.rbit .secPolicy 0 0 30 = s.rbit .secPolicy 0 0 30 ∧
       t.rbit .secPolicy 0 0 31 = (s.rbit .secPolicy 0 0 31 || bit w.toNat 31) ∧
       (bit w.toNat 30 ≠ s.rbit .secPolicy 0 0 30 → t.rbit .secFwStatus 0 0 61 = true)))

/-- The relay of images (R734, Table 19.10): SEND sends the VALID inactive bank; DATA in order joins the image being received, and the
last DATA ends the reception with the result of the checks of R731; other DATA is only acknowledged with the NEXT that is wanted; ACK
moves the sender on, RESULT ends the sending, ABORT ends the reception
with its bank INVALID, ACTIVATE where it is not enabled is answered with 0x08, and without an ACK the sender starts again
from NEXT. Packets leave in the codewords of the port. -/
def Obligations.RelaysCarryImages : Prop :=
  ∀ (s : State) (q : Nat) (p : Packet), q < 64 → s.portState q = 2 → s.inReset = false → s.rbit .drvReady 0 0 62 = true → s.fwStep ≠ 1 →
    p.op = 0x11 → p.ll = true → p.payload.length = p.len → pktOk p = true → relayWellFormed p = true →
    let ss := relaySession p
    let off := p.w5.toNat
    let f := ((s.port q).relFreed + 1) % 256
    let ack (n : Nat) : Packet := relayPacket (relayW4 2 ss 0) n (f * 2 ^ 8) []
    let res (e : Nat) : Packet := relayPacket (relayW4 3 ss 0) 0 e []
    (∀ v : Word32, bit v.toNat 28 = true → s.inactive (1 - s.activeBank) = true → s.bankState (1 - s.activeBank) = 1 → s.fw.tx = none →
      ∃ t x, exec (.relaySend v) s = .next t ∧ t.fw.tx = some x ∧ x.session = (s.fw.sessions + 1) % 2 ^ 16 ∧ x.next = 0 ∧
        x.port = bits v.toNat 13 8 ∧ t.fw.sessions = x.session ∧ t.rbit .secRelayStatus 0 0 62 = true) ∧
    (∀ g, relayMsg p = 1 → s.rbit .secRelayCfg 0 0 31 = true → s.fw.staging = some g → g.relay = some (q, ss) →
      let got := g.got ++ p.payload
      (off = g.got.length → off + p.len < 4096 → ∃ u : State, exec (.relayData q p) s = .next (u.sendPacket q (ack (off + p.len))) ∧
        u = { s with fw := { s.fw with staging := some { g with got := got } }, regs := u.regs, ports := u.ports } ∧
        u.port q = { s.port q with relFreed := f } ∧ u.fld .secRelayStatus 0 0 31 0 = off + p.len) ∧
      (off = g.got.length → 4096 ≤ off → got.length = fwTotal got → fwTotal got = relayTotal p → g.bank < 2 →
        ∃ t, exec (.relayData q p) s = .next t ∧ t.fw.staging = none ∧ t.rbit .secRelayStatus 0 0 61 = true ∧
          (fwBodyOk got = true → t.bankState g.bank = 1 ∧ t.bankImage g.bank = got ∧ t.fld .secRelayStatus 0 0 55 48 = 0) ∧
          (fwBodyOk got = false → t.bankState g.bank = 3 ∧ t.fld .secRelayStatus 0 0 55 48 = 7)) ∧
      (off ≠ g.got.length → exec (.relayData q p) s = .next ((s.relayFree q).sendPacket q (ack g.got.length)))) ∧
    (relayMsg p = 1 → s.rbit .secRelayCfg 0 0 31 = false → s.fw.recovery = false →
      exec (.relayData q p) s = .next (((s.relayFree q).sendPacket q (ack 0)).sendPacket q (res 8))) ∧
    (∀ x, relayMsg p = 2 → s.fw.tx = some x → x.port = q → x.session = ss → ∃ t y, exec (.relayAck q p) s = .next t ∧ t.fw.tx = some y ∧
      y.next = off ∧ max x.sent off ≤ y.sent ∧ (t.port q).relSeen = bits p.w6.toNat 15 8) ∧
    (∀ x, relayMsg p = 3 → s.fw.tx = some x → x.port = q → x.session = ss → ∃ t, exec (.relayResult q p) s = .next t ∧ t.fw.tx = none ∧
      t.rbit .secRelayStatus 0 0 62 = false ∧ t.rbit .secRelayStatus 0 0 60 = true ∧
      t.fld .secRelayStatus 0 0 55 48 = bits p.w6.toNat 7 0) ∧
    (relayMsg p = 4 → s.rbit .secRelayCfg 0 0 29 = false → exec (.relayActivate q p) s = .next ((s.relayFree q).sendPacket q (res 8))) ∧
    (let b := 1 - s.activeBank
     relayMsg p = 4 → s.rbit .secRelayCfg 0 0 29 = true → s.fw.recovery = false → s.inactive b = true → s.bankState b = 1 → s.actBusy = false →
      s.svnFloor ≤ fwSvn (s.bankImage b) → leAt (s.bankImage b) 16 4 ≤ s.fwVersion →
      matrixOk (s.bankImage s.activeBank) (s.bankImage b) = true → ∃ t, exec (.relayActivate q p) s = .next t ∧ t.fwStep = 1 ∧
        t.fw.moving = some { bank := b, back := false, asker := 2 + q, session := ss }) ∧
    (∀ g, relayMsg p = 5 → g.bank < 2 → s.fw.staging = some g → g.relay = some (q, ss) → ∃ t, exec (.relayAbort q p) s = .next t ∧
      t.fw.staging = none ∧ t.bankState g.bank = 3 ∧ t.rbit .secRelayStatus 0 0 61 = true) ∧
    (∀ x, s.fw.tx = some x → x.port = q →
      let img := s.bankImage (1 - s.activeBank)
      let u := (s.modPort q fun p => { p with relSent := p.relSeen }).setFw { s.fw with tx := some { x with sent := x.next } }
      (x.next < fwTotal img → ∃ v, v = u.sendPacket q (relayPacket (relayW4 1 x.session (fwTotal img)) x.next 0 (slice img x.next 512)) ∧
        exec .relayAckTimeout s = .next (((v.modPort q fun p => { p with relSent := (p.relSent + 1) % 256 }).setFw
          { s.fw with tx := some { x with sent := x.next + 512 } }).relayPump 7)) ∧
      (fwTotal img ≤ x.next → exec .relayAckTimeout s = .next u)) ∧
    (s.fw.tx = none → exec .relayAckTimeout s = .next s)

end
end

