-- ==== Sys2Proof/Laws/Crc.lean ====
section
/-! SUPPORT. The CRC of a bale is a 32-bit number (R290). -/

namespace Sys2Proof.Machine

theorem crcBit_lt {c : Nat} (h : c < 2 ^ 32) : crcBit c < 2 ^ 32 := by
  unfold crcBit
  split
  · exact Nat.xor_lt_two_pow (by omega) (by decide)
  · omega

theorem crcByte_lt {c : Nat} (h : c < 2 ^ 32) (b : Byte) : crcByte c b < 2 ^ 32 := by
  unfold crcByte
  have hb : b.toNat < 2 ^ 32 := Nat.lt_trans b.isLt (by decide)
  have hx : c ^^^ b.toNat < 2 ^ 32 := Nat.xor_lt_two_pow h hb
  exact crcBit_lt (crcBit_lt (crcBit_lt (crcBit_lt (crcBit_lt (crcBit_lt (crcBit_lt (crcBit_lt hx)))))))

theorem crcFold_lt (bs : List Byte) : ∀ {c : Nat}, c < 2 ^ 32 → bs.foldl crcByte c < 2 ^ 32 := by
  induction bs with
  | nil => intro c h; exact h
  | cons b bs ih => intro c h; exact ih (crcByte_lt h b)

theorem crc32c_lt (bs : List Byte) : crc32c bs < 2 ^ 32 :=
  Nat.xor_lt_two_pow (crcFold_lt bs (by decide)) (by decide)

theorem baleCrc_lt (data : List Byte) (tag loc : Nat) : baleCrc data tag loc < 2 ^ 32 := crc32c_lt _

/-- Every bale has a stored CRC that fits it. -/
theorem baleCrc_exists (data : List Byte) (tag loc : Nat) : ∃ crc : Word32, baleCrc data tag loc = crc.toNat :=
  ⟨BitVec.ofNat 32 (baleCrc data tag loc), (Nat.mod_eq_of_lt (baleCrc_lt data tag loc)).symm⟩

end Sys2Proof.Machine
end

