-- ==== Sys2Proof/Laws/Sparse.lean ====
section
/-! SUPPORT. Finite maps: reading after writing, and the canonical form that every operation on a memory keeps. -/

namespace Sys2Proof.Machine

variable {α : Type} [DecidableEq α] {d : α} {m : SMap α} {k k' : Nat} {v : α} {lo : Option Nat}

/-- Keys of a canonical map above a bound lie above every lower bound. -/
theorem Sparse.above_weaken {a b : Nat} (h : a ≤ b) (hm : Sparse.above d (some b) m = true) :
    Sparse.above d (some a) m = true := by
  cases m with
  | nil => rfl
  | cons e m =>
    simp only [Sparse.above, Bool.and_eq_true, decide_eq_true_eq] at hm ⊢
    exact ⟨⟨by omega, hm.1.2⟩, hm.2⟩

/-- A canonical map above a bound is canonical. -/
theorem Sparse.above_none (hm : Sparse.above d lo m = true) : Sparse.above d none m = true := by
  cases m with
  | nil => rfl
  | cons e m => simp only [Sparse.above, Bool.and_eq_true] at hm ⊢; exact ⟨⟨trivial, hm.1.2⟩, hm.2⟩

omit [DecidableEq α] in
theorem Sparse.get_insert_same : Sparse.get d (Sparse.insert m k v) k = v := by
  induction m with
  | nil => simp [Sparse.insert, Sparse.get]
  | cons e m ih =>
    simp only [Sparse.insert]
    split
    · simp [Sparse.get]
    · split
      · simp [Sparse.get]
      · rename_i h1 h2
        simp only [Sparse.get]
        rw [if_neg h1]
        exact ih

omit [DecidableEq α] in
theorem Sparse.get_insert_ne (h : k' ≠ k) : Sparse.get d (Sparse.insert m k v) k' = Sparse.get d m k' := by
  induction m with
  | nil => simp [Sparse.insert, Sparse.get, h]
  | cons e m ih =>
    simp only [Sparse.insert]
    split
    · rename_i h1; subst h1; simp only [Sparse.get, if_neg h]
    · split
      · simp only [Sparse.get, if_neg h]
      · simp only [Sparse.get, ih]

omit [DecidableEq α] in
/-- An erased key reads as the default. -/
theorem Sparse.get_erase_same : Sparse.get d (Sparse.erase m k) k = d := by
  induction m with
  | nil => rfl
  | cons e m ih =>
    simp only [Sparse.erase]
    split
    · exact ih
    · rename_i h; simp only [Sparse.get, if_neg h, ih]

omit [DecidableEq α] in
/-- Erasing a key leaves the others. -/
theorem Sparse.get_erase_ne (h : k' ≠ k) : Sparse.get d (Sparse.erase m k) k' = Sparse.get d m k' := by
  induction m with
  | nil => rfl
  | cons e m ih =>
    simp only [Sparse.erase]
    split
    · rename_i h1; subst h1; simp only [Sparse.get, if_neg h, ih]
    · simp only [Sparse.get, ih]

/-- What was written is read. -/
@[simp] theorem Sparse.get_set_same : Sparse.get d (Sparse.set d m k v) k = v := by
  simp only [Sparse.set]
  split
  · rename_i h; rw [h]; exact Sparse.get_erase_same
  · exact Sparse.get_insert_same

/-- A write leaves every other key, whatever default another key has. -/
theorem Sparse.get_set_ne {d' : α} (h : k' ≠ k) : Sparse.get d (Sparse.set d' m k v) k' = Sparse.get d m k' := by
  simp only [Sparse.set]
  split
  · exact Sparse.get_erase_ne h
  · exact Sparse.get_insert_ne h

/-- The first entry of a canonical map. -/
theorem Sparse.above_cons {e : Nat × α} : Sparse.above d lo (e :: m) = true ↔
    (∀ l, lo = some l → l < e.1) ∧ e.2 ≠ d ∧ Sparse.above d (some e.1) m = true := by
  cases lo <;> simp [Sparse.above, and_assoc]

/-- Inserting a value other than the default keeps the canonical form. -/
theorem Sparse.above_insert (hv : v ≠ d) (hk : ∀ l, lo = some l → l < k) (hm : Sparse.above d lo m = true) :
    Sparse.above d lo (Sparse.insert m k v) = true := by
  induction m generalizing lo with
  | nil => simp only [Sparse.insert]; exact Sparse.above_cons.2 ⟨hk, hv, rfl⟩
  | cons e m ih =>
    have h := Sparse.above_cons.1 hm
    simp only [Sparse.insert]
    split
    · rename_i h1; subst h1; exact Sparse.above_cons.2 ⟨hk, hv, h.2.2⟩
    · split
      · rename_i h1 h2
        exact Sparse.above_cons.2 ⟨hk, hv, Sparse.above_cons.2 ⟨fun l hl => by cases hl; exact h2, h.2.1, h.2.2⟩⟩
      · rename_i h1 h2
        exact Sparse.above_cons.2 ⟨h.1, h.2.1, ih (fun l hl => by cases hl; omega) h.2.2⟩

/-- A bound can be dropped to that of an earlier entry. -/
theorem Sparse.above_tail {e : Nat × α} (h : Sparse.above d lo (e :: m) = true) : Sparse.above d lo m = true := by
  have h' := Sparse.above_cons.1 h
  cases lo with
  | none => exact Sparse.above_none h'.2.2
  | some l => exact Sparse.above_weaken (Nat.le_of_lt (h'.1 l rfl)) h'.2.2

/-- Erasing keeps the canonical form. -/
theorem Sparse.above_erase (hm : Sparse.above d lo m = true) : Sparse.above d lo (Sparse.erase m k) = true := by
  induction m generalizing lo with
  | nil => rfl
  | cons e m ih =>
    simp only [Sparse.erase]
    split
    · exact ih (Sparse.above_tail hm)
    · have h := Sparse.above_cons.1 hm
      exact Sparse.above_cons.2 ⟨h.1, h.2.1, ih h.2.2⟩

/-- A write keeps the canonical form. -/
theorem Sparse.wf_set (hm : Sparse.wf d m = true) : Sparse.wf d (Sparse.set d m k v) = true := by
  simp only [Sparse.set]
  split
  · exact Sparse.above_erase hm
  · rename_i h; exact Sparse.above_insert h (by simp) hm

/-- Clearing a set of keys keeps the canonical form. -/
theorem Sparse.above_drop (p : Nat → Bool) (hm : Sparse.above d lo m = true) : Sparse.above d lo (Sparse.drop p m) = true := by
  induction m generalizing lo with
  | nil => rfl
  | cons e m ih =>
    have h := Sparse.above_cons.1 hm
    simp only [Sparse.drop, List.filter_cons]
    split
    · exact Sparse.above_cons.2 ⟨h.1, h.2.1, ih h.2.2⟩
    · exact ih (Sparse.above_tail hm)

theorem Sparse.wf_drop (p : Nat → Bool) (hm : Sparse.wf d m = true) : Sparse.wf d (Sparse.drop p m) = true :=
  Sparse.above_drop p hm

omit [DecidableEq α] in
/-- Cleared keys read as the default, and every other key reads as before. -/
theorem Sparse.get_drop (p : Nat → Bool) : Sparse.get d (Sparse.drop p m) k = if p k then d else Sparse.get d m k := by
  induction m with
  | nil => simp [Sparse.drop, Sparse.get]
  | cons e m ih =>
    simp only [Sparse.drop, List.filter_cons] at ih ⊢
    split
    · simp only [Sparse.get]
      split
      · rename_i h1 h2; subst h2; simp_all
      · exact ih
    · rename_i h1
      rw [ih]
      split
      · rfl
      · rename_i h2
        simp only [Sparse.get]
        split
        · rename_i h3; subst h3; simp_all
        · rfl

/-! ### Bytes -/

/-- Storing bytes keeps a memory in canonical form. -/
theorem Memory.wf_writeBytes {mem : SMap Byte} (a : Nat) (bs : List Byte) (h : Memory.wf mem = true) :
    Memory.wf (Sparse.writeBytes mem a bs) = true := by
  induction bs generalizing mem a with
  | nil => exact h
  | cons b bs ih => exact ih (a + 1) (Sparse.wf_set h)

/-- Clearing addresses keeps a memory in canonical form. -/
theorem Memory.wf_drop {mem : SMap Byte} (p : Nat → Bool) (h : Memory.wf mem = true) : Memory.wf (Sparse.drop p mem) = true :=
  Sparse.wf_drop p h

/-- A byte outside the stored range reads as before. -/
theorem Sparse.get_writeBytes_outside {mem : SMap Byte} {a : Nat} {bs : List Byte} {x : Nat}
    (hx : x < a ∨ a + bs.length ≤ x) : Sparse.get 0 (Sparse.writeBytes mem a bs) x = Sparse.get 0 mem x := by
  induction bs generalizing mem a with
  | nil => rfl
  | cons b bs ih =>
    simp only [List.length_cons] at hx
    simp only [Sparse.writeBytes]
    rw [ih (by omega), Sparse.get_set_ne (by omega)]

/-- A stored byte is read. -/
theorem Sparse.get_writeBytes_inside {mem : SMap Byte} {a : Nat} {bs : List Byte} {i : Nat}
    (hi : i < bs.length) : Sparse.get 0 (Sparse.writeBytes mem a bs) (a + i) = bs[i] := by
  induction bs generalizing mem a i with
  | nil => simp at hi
  | cons b bs ih =>
    simp only [Sparse.writeBytes]
    cases i with
    | zero =>
      rw [Sparse.get_writeBytes_outside (by omega)]
      exact Sparse.get_set_same
    | succ i =>
      have := ih (mem := Sparse.set 0 mem a b) (a := a + 1) (i := i) (by simpa using hi)
      rw [show a + (i + 1) = a + 1 + i by omega, this]
      rfl

theorem Sparse.readBytes_length (mem : SMap Byte) (a n : Nat) : (Sparse.readBytes mem a n).length = n := by
  induction n generalizing a with
  | zero => rfl
  | succ n ih => simp [Sparse.readBytes, ih]

/-- The memories of the state after reset are in canonical form. -/
theorem State.memOk_reset : State.reset.memOk := ⟨rfl, rfl, rfl⟩

end Sys2Proof.Machine
end

