-- ==== Sys2Proof/Laws/State.lean ====
section
/-! SUPPORT. The frame of every update of one field of the state: each other field stays. -/

namespace Sys2Proof.Machine

variable (s : State)

@[simp] theorem State.setReg_dram (r : Reg) (i j v : Nat) : (s.setReg r i j v).dram = s.dram := rfl
@[simp] theorem State.setReg_store (r : Reg) (i j v : Nat) : (s.setReg r i j v).store = s.store := rfl
@[simp] theorem State.setReg_scratch (r : Reg) (i j v : Nat) : (s.setReg r i j v).scratch = s.scratch := rfl
@[simp] theorem State.setReg_cores (r : Reg) (i j v : Nat) : (s.setReg r i j v).cores = s.cores := rfl
@[simp] theorem State.setReg_flocks (r : Reg) (i j v : Nat) : (s.setReg r i j v).flocks = s.flocks := rfl
@[simp] theorem State.setReg_bales (r : Reg) (i j v : Nat) : (s.setReg r i j v).bales = s.bales := rfl
@[simp] theorem State.setReg_bad (r : Reg) (i j v : Nat) : (s.setReg r i j v).bad = s.bad := rfl
@[simp] theorem State.setReg_weak (r : Reg) (i j v : Nat) : (s.setReg r i j v).weak = s.weak := rfl
@[simp] theorem State.setReg_inter (r : Reg) (i j v : Nat) : (s.setReg r i j v).inter = s.inter := rfl
@[simp] theorem State.setReg_stks (r : Reg) (i j v : Nat) : (s.setReg r i j v).stks = s.stks := rfl
@[simp] theorem State.setReg_fold (r : Reg) (i j v : Nat) : (s.setReg r i j v).fold = s.fold := rfl
@[simp] theorem State.setReg_trk (r : Reg) (i j v : Nat) : (s.setReg r i j v).trk = s.trk := rfl
@[simp] theorem State.setReg_ideStop (r : Reg) (i j v : Nat) : (s.setReg r i j v).ideStop = s.ideStop := rfl
@[simp] theorem State.setReg_ideKeys (r : Reg) (i j v : Nat) : (s.setReg r i j v).ideKeys = s.ideKeys := rfl
@[simp] theorem State.setReg_snoops (r : Reg) (i j v : Nat) : (s.setReg r i j v).snoops = s.snoops := rfl
@[simp] theorem State.setReg_ni (r : Reg) (i j v : Nat) : (s.setReg r i j v).ni = s.ni := rfl
@[simp] theorem State.setReg_rtr (r : Reg) (i j v : Nat) : (s.setReg r i j v).rtr = s.rtr := rfl
@[simp] theorem State.setReg_far (r : Reg) (i j v : Nat) : (s.setReg r i j v).far = s.far := rfl
@[simp] theorem State.setReg_peat (r : Reg) (i j v : Nat) : (s.setReg r i j v).peat = s.peat := rfl
@[simp] theorem State.setReg_pserve (r : Reg) (i j v : Nat) : (s.setReg r i j v).pserve = s.pserve := rfl
@[simp] theorem State.setReg_queues (r : Reg) (i j v : Nat) : (s.setReg r i j v).queues = s.queues := rfl
@[simp] theorem State.setReg_kiln (r : Reg) (i j v : Nat) : (s.setReg r i j v).kiln = s.kiln := rfl
@[simp] theorem State.setReg_policy (r : Reg) (i j v : Nat) : (s.setReg r i j v).policy = s.policy := rfl
@[simp] theorem State.setReg_eid (r : Reg) (i j v : Nat) : (s.setReg r i j v).eid = s.eid := rfl
@[simp] theorem State.setReg_muster (r : Reg) (i j v : Nat) : (s.setReg r i j v).muster = s.muster := rfl
@[simp] theorem State.setReg_shadow (r : Reg) (i j v : Nat) : (s.setReg r i j v).shadow = s.shadow := rfl
@[simp] theorem State.setReg_ports (r : Reg) (i j v : Nat) : (s.setReg r i j v).ports = s.ports := rfl
@[simp] theorem State.setReg_therm (r : Reg) (i j v : Nat) : (s.setReg r i j v).therm = s.therm := rfl
@[simp] theorem State.setReg_pads (r : Reg) (i j v : Nat) : (s.setReg r i j v).pads = s.pads := rfl
@[simp] theorem State.setReg_fw (r : Reg) (i j v : Nat) : (s.setReg r i j v).fw = s.fw := rfl
@[simp] theorem State.setReg_conns (r : Reg) (i j v : Nat) : (s.setReg r i j v).conns = s.conns := rfl
@[simp] theorem State.setReg_range (r : Reg) (i j v : Nat) : (s.setReg r i j v).range = s.range := rfl
@[simp] theorem State.setReg_rst (r : Reg) (i j v : Nat) : (s.setReg r i j v).rst = s.rst := rfl
@[simp] theorem State.setReg_gen (r : Reg) (i j v : Nat) : (s.setReg r i j v).gen = s.gen := rfl
@[simp] theorem State.setReg_returns (r : Reg) (i j v : Nat) : (s.setReg r i j v).returns = s.returns := rfl
@[simp] theorem State.setReg_folding (r : Reg) (i j v : Nat) : (s.setReg r i j v).folding = s.folding := rfl
@[simp] theorem State.setReg_nor (r : Reg) (i j v : Nat) : (s.setReg r i j v).nor = s.nor := rfl
@[simp] theorem State.setReg_evt (r : Reg) (i j v : Nat) : (s.setReg r i j v).evt = s.evt := rfl
@[simp] theorem State.setReg_eseq (r : Reg) (i j v : Nat) : (s.setReg r i j v).eseq = s.eseq := rfl
@[simp] theorem State.setReg_evtRecv (r : Reg) (i j v : Nat) : (s.setReg r i j v).evtRecv = s.evtRecv := rfl
@[simp] theorem State.setReg_fresh (r : Reg) (i j v : Nat) : (s.setReg r i j v).fresh = s.fresh := rfl
@[simp] theorem State.setReg_out (r : Reg) (i j v : Nat) : (s.setReg r i j v).out = s.out := rfl
@[simp] theorem State.setReg_pending (r : Reg) (i j v : Nat) : (s.setReg r i j v).pending = s.pending := rfl

@[simp] theorem State.setFld_dram (r : Reg) (i j hi lo v : Nat) : (s.setFld r i j hi lo v).dram = s.dram := rfl
@[simp] theorem State.setFld_store (r : Reg) (i j hi lo v : Nat) : (s.setFld r i j hi lo v).store = s.store := rfl
@[simp] theorem State.setFld_scratch (r : Reg) (i j hi lo v : Nat) : (s.setFld r i j hi lo v).scratch = s.scratch := rfl
@[simp] theorem State.setFld_cores (r : Reg) (i j hi lo v : Nat) : (s.setFld r i j hi lo v).cores = s.cores := rfl
@[simp] theorem State.setFld_flocks (r : Reg) (i j hi lo v : Nat) : (s.setFld r i j hi lo v).flocks = s.flocks := rfl
@[simp] theorem State.setFld_bales (r : Reg) (i j hi lo v : Nat) : (s.setFld r i j hi lo v).bales = s.bales := rfl
@[simp] theorem State.setFld_bad (r : Reg) (i j hi lo v : Nat) : (s.setFld r i j hi lo v).bad = s.bad := rfl
@[simp] theorem State.setFld_weak (r : Reg) (i j hi lo v : Nat) : (s.setFld r i j hi lo v).weak = s.weak := rfl
@[simp] theorem State.setFld_inter (r : Reg) (i j hi lo v : Nat) : (s.setFld r i j hi lo v).inter = s.inter := rfl
@[simp] theorem State.setFld_stks (r : Reg) (i j hi lo v : Nat) : (s.setFld r i j hi lo v).stks = s.stks := rfl
@[simp] theorem State.setFld_fold (r : Reg) (i j hi lo v : Nat) : (s.setFld r i j hi lo v).fold = s.fold := rfl
@[simp] theorem State.setFld_trk (r : Reg) (i j hi lo v : Nat) : (s.setFld r i j hi lo v).trk = s.trk := rfl
@[simp] theorem State.setFld_ideStop (r : Reg) (i j hi lo v : Nat) : (s.setFld r i j hi lo v).ideStop = s.ideStop := rfl
@[simp] theorem State.setFld_ideKeys (r : Reg) (i j hi lo v : Nat) : (s.setFld r i j hi lo v).ideKeys = s.ideKeys := rfl
@[simp] theorem State.setFld_snoops (r : Reg) (i j hi lo v : Nat) : (s.setFld r i j hi lo v).snoops = s.snoops := rfl
@[simp] theorem State.setFld_ni (r : Reg) (i j hi lo v : Nat) : (s.setFld r i j hi lo v).ni = s.ni := rfl
@[simp] theorem State.setFld_rtr (r : Reg) (i j hi lo v : Nat) : (s.setFld r i j hi lo v).rtr = s.rtr := rfl
@[simp] theorem State.setFld_far (r : Reg) (i j hi lo v : Nat) : (s.setFld r i j hi lo v).far = s.far := rfl
@[simp] theorem State.setFld_peat (r : Reg) (i j hi lo v : Nat) : (s.setFld r i j hi lo v).peat = s.peat := rfl
@[simp] theorem State.setFld_pserve (r : Reg) (i j hi lo v : Nat) : (s.setFld r i j hi lo v).pserve = s.pserve := rfl
@[simp] theorem State.setFld_queues (r : Reg) (i j hi lo v : Nat) : (s.setFld r i j hi lo v).queues = s.queues := rfl
@[simp] theorem State.setFld_kiln (r : Reg) (i j hi lo v : Nat) : (s.setFld r i j hi lo v).kiln = s.kiln := rfl
@[simp] theorem State.setFld_policy (r : Reg) (i j hi lo v : Nat) : (s.setFld r i j hi lo v).policy = s.policy := rfl
@[simp] theorem State.setFld_eid (r : Reg) (i j hi lo v : Nat) : (s.setFld r i j hi lo v).eid = s.eid := rfl
@[simp] theorem State.setFld_muster (r : Reg) (i j hi lo v : Nat) : (s.setFld r i j hi lo v).muster = s.muster := rfl
@[simp] theorem State.setFld_shadow (r : Reg) (i j hi lo v : Nat) : (s.setFld r i j hi lo v).shadow = s.shadow := rfl
@[simp] theorem State.setFld_ports (r : Reg) (i j hi lo v : Nat) : (s.setFld r i j hi lo v).ports = s.ports := rfl
@[simp] theorem State.setFld_therm (r : Reg) (i j hi lo v : Nat) : (s.setFld r i j hi lo v).therm = s.therm := rfl
@[simp] theorem State.setFld_pads (r : Reg) (i j hi lo v : Nat) : (s.setFld r i j hi lo v).pads = s.pads := rfl
@[simp] theorem State.setFld_fw (r : Reg) (i j hi lo v : Nat) : (s.setFld r i j hi lo v).fw = s.fw := rfl
@[simp] theorem State.setFld_conns (r : Reg) (i j hi lo v : Nat) : (s.setFld r i j hi lo v).conns = s.conns := rfl
@[simp] theorem State.setFld_range (r : Reg) (i j hi lo v : Nat) : (s.setFld r i j hi lo v).range = s.range := rfl
@[simp] theorem State.setFld_rst (r : Reg) (i j hi lo v : Nat) : (s.setFld r i j hi lo v).rst = s.rst := rfl
@[simp] theorem State.setFld_gen (r : Reg) (i j hi lo v : Nat) : (s.setFld r i j hi lo v).gen = s.gen := rfl
@[simp] theorem State.setFld_returns (r : Reg) (i j hi lo v : Nat) : (s.setFld r i j hi lo v).returns = s.returns := rfl
@[simp] theorem State.setFld_folding (r : Reg) (i j hi lo v : Nat) : (s.setFld r i j hi lo v).folding = s.folding := rfl
@[simp] theorem State.setFld_nor (r : Reg) (i j hi lo v : Nat) : (s.setFld r i j hi lo v).nor = s.nor := rfl
@[simp] theorem State.setFld_evt (r : Reg) (i j hi lo v : Nat) : (s.setFld r i j hi lo v).evt = s.evt := rfl
@[simp] theorem State.setFld_eseq (r : Reg) (i j hi lo v : Nat) : (s.setFld r i j hi lo v).eseq = s.eseq := rfl
@[simp] theorem State.setFld_evtRecv (r : Reg) (i j hi lo v : Nat) : (s.setFld r i j hi lo v).evtRecv = s.evtRecv := rfl
@[simp] theorem State.setFld_fresh (r : Reg) (i j hi lo v : Nat) : (s.setFld r i j hi lo v).fresh = s.fresh := rfl
@[simp] theorem State.setFld_out (r : Reg) (i j hi lo v : Nat) : (s.setFld r i j hi lo v).out = s.out := rfl
@[simp] theorem State.setFld_pending (r : Reg) (i j hi lo v : Nat) : (s.setFld r i j hi lo v).pending = s.pending := rfl

@[simp] theorem State.setRbit_dram (r : Reg) (i j b : Nat) (v : Bool) : (s.setRbit r i j b v).dram = s.dram := rfl
@[simp] theorem State.setRbit_store (r : Reg) (i j b : Nat) (v : Bool) : (s.setRbit r i j b v).store = s.store := rfl
@[simp] theorem State.setRbit_scratch (r : Reg) (i j b : Nat) (v : Bool) : (s.setRbit r i j b v).scratch = s.scratch := rfl
@[simp] theorem State.setRbit_cores (r : Reg) (i j b : Nat) (v : Bool) : (s.setRbit r i j b v).cores = s.cores := rfl
@[simp] theorem State.setRbit_flocks (r : Reg) (i j b : Nat) (v : Bool) : (s.setRbit r i j b v).flocks = s.flocks := rfl
@[simp] theorem State.setRbit_bales (r : Reg) (i j b : Nat) (v : Bool) : (s.setRbit r i j b v).bales = s.bales := rfl
@[simp] theorem State.setRbit_bad (r : Reg) (i j b : Nat) (v : Bool) : (s.setRbit r i j b v).bad = s.bad := rfl
@[simp] theorem State.setRbit_weak (r : Reg) (i j b : Nat) (v : Bool) : (s.setRbit r i j b v).weak = s.weak := rfl
@[simp] theorem State.setRbit_inter (r : Reg) (i j b : Nat) (v : Bool) : (s.setRbit r i j b v).inter = s.inter := rfl
@[simp] theorem State.setRbit_stks (r : Reg) (i j b : Nat) (v : Bool) : (s.setRbit r i j b v).stks = s.stks := rfl
@[simp] theorem State.setRbit_fold (r : Reg) (i j b : Nat) (v : Bool) : (s.setRbit r i j b v).fold = s.fold := rfl
@[simp] theorem State.setRbit_trk (r : Reg) (i j b : Nat) (v : Bool) : (s.setRbit r i j b v).trk = s.trk := rfl
@[simp] theorem State.setRbit_ideStop (r : Reg) (i j b : Nat) (v : Bool) : (s.setRbit r i j b v).ideStop = s.ideStop := rfl
@[simp] theorem State.setRbit_ideKeys (r : Reg) (i j b : Nat) (v : Bool) : (s.setRbit r i j b v).ideKeys = s.ideKeys := rfl
@[simp] theorem State.setRbit_snoops (r : Reg) (i j b : Nat) (v : Bool) : (s.setRbit r i j b v).snoops = s.snoops := rfl
@[simp] theorem State.setRbit_ni (r : Reg) (i j b : Nat) (v : Bool) : (s.setRbit r i j b v).ni = s.ni := rfl
@[simp] theorem State.setRbit_rtr (r : Reg) (i j b : Nat) (v : Bool) : (s.setRbit r i j b v).rtr = s.rtr := rfl
@[simp] theorem State.setRbit_far (r : Reg) (i j b : Nat) (v : Bool) : (s.setRbit r i j b v).far = s.far := rfl
@[simp] theorem State.setRbit_peat (r : Reg) (i j b : Nat) (v : Bool) : (s.setRbit r i j b v).peat = s.peat := rfl
@[simp] theorem State.setRbit_pserve (r : Reg) (i j b : Nat) (v : Bool) : (s.setRbit r i j b v).pserve = s.pserve := rfl
@[simp] theorem State.setRbit_queues (r : Reg) (i j b : Nat) (v : Bool) : (s.setRbit r i j b v).queues = s.queues := rfl
@[simp] theorem State.setRbit_kiln (r : Reg) (i j b : Nat) (v : Bool) : (s.setRbit r i j b v).kiln = s.kiln := rfl
@[simp] theorem State.setRbit_policy (r : Reg) (i j b : Nat) (v : Bool) : (s.setRbit r i j b v).policy = s.policy := rfl
@[simp] theorem State.setRbit_eid (r : Reg) (i j b : Nat) (v : Bool) : (s.setRbit r i j b v).eid = s.eid := rfl
@[simp] theorem State.setRbit_muster (r : Reg) (i j b : Nat) (v : Bool) : (s.setRbit r i j b v).muster = s.muster := rfl
@[simp] theorem State.setRbit_shadow (r : Reg) (i j b : Nat) (v : Bool) : (s.setRbit r i j b v).shadow = s.shadow := rfl
@[simp] theorem State.setRbit_ports (r : Reg) (i j b : Nat) (v : Bool) : (s.setRbit r i j b v).ports = s.ports := rfl
@[simp] theorem State.setRbit_therm (r : Reg) (i j b : Nat) (v : Bool) : (s.setRbit r i j b v).therm = s.therm := rfl
@[simp] theorem State.setRbit_pads (r : Reg) (i j b : Nat) (v : Bool) : (s.setRbit r i j b v).pads = s.pads := rfl
@[simp] theorem State.setRbit_fw (r : Reg) (i j b : Nat) (v : Bool) : (s.setRbit r i j b v).fw = s.fw := rfl
@[simp] theorem State.setRbit_conns (r : Reg) (i j b : Nat) (v : Bool) : (s.setRbit r i j b v).conns = s.conns := rfl
@[simp] theorem State.setRbit_range (r : Reg) (i j b : Nat) (v : Bool) : (s.setRbit r i j b v).range = s.range := rfl
@[simp] theorem State.setRbit_rst (r : Reg) (i j b : Nat) (v : Bool) : (s.setRbit r i j b v).rst = s.rst := rfl
@[simp] theorem State.setRbit_gen (r : Reg) (i j b : Nat) (v : Bool) : (s.setRbit r i j b v).gen = s.gen := rfl
@[simp] theorem State.setRbit_returns (r : Reg) (i j b : Nat) (v : Bool) : (s.setRbit r i j b v).returns = s.returns := rfl
@[simp] theorem State.setRbit_folding (r : Reg) (i j b : Nat) (v : Bool) : (s.setRbit r i j b v).folding = s.folding := rfl
@[simp] theorem State.setRbit_nor (r : Reg) (i j b : Nat) (v : Bool) : (s.setRbit r i j b v).nor = s.nor := rfl
@[simp] theorem State.setRbit_evt (r : Reg) (i j b : Nat) (v : Bool) : (s.setRbit r i j b v).evt = s.evt := rfl
@[simp] theorem State.setRbit_eseq (r : Reg) (i j b : Nat) (v : Bool) : (s.setRbit r i j b v).eseq = s.eseq := rfl
@[simp] theorem State.setRbit_evtRecv (r : Reg) (i j b : Nat) (v : Bool) : (s.setRbit r i j b v).evtRecv = s.evtRecv := rfl
@[simp] theorem State.setRbit_fresh (r : Reg) (i j b : Nat) (v : Bool) : (s.setRbit r i j b v).fresh = s.fresh := rfl
@[simp] theorem State.setRbit_out (r : Reg) (i j b : Nat) (v : Bool) : (s.setRbit r i j b v).out = s.out := rfl
@[simp] theorem State.setRbit_pending (r : Reg) (i j b : Nat) (v : Bool) : (s.setRbit r i j b v).pending = s.pending := rfl

@[simp] theorem State.incFld_dram (r : Reg) (i j hi lo : Nat) : (s.incFld r i j hi lo).dram = s.dram := rfl
@[simp] theorem State.incFld_store (r : Reg) (i j hi lo : Nat) : (s.incFld r i j hi lo).store = s.store := rfl
@[simp] theorem State.incFld_scratch (r : Reg) (i j hi lo : Nat) : (s.incFld r i j hi lo).scratch = s.scratch := rfl
@[simp] theorem State.incFld_cores (r : Reg) (i j hi lo : Nat) : (s.incFld r i j hi lo).cores = s.cores := rfl
@[simp] theorem State.incFld_flocks (r : Reg) (i j hi lo : Nat) : (s.incFld r i j hi lo).flocks = s.flocks := rfl
@[simp] theorem State.incFld_bales (r : Reg) (i j hi lo : Nat) : (s.incFld r i j hi lo).bales = s.bales := rfl
@[simp] theorem State.incFld_bad (r : Reg) (i j hi lo : Nat) : (s.incFld r i j hi lo).bad = s.bad := rfl
@[simp] theorem State.incFld_weak (r : Reg) (i j hi lo : Nat) : (s.incFld r i j hi lo).weak = s.weak := rfl
@[simp] theorem State.incFld_inter (r : Reg) (i j hi lo : Nat) : (s.incFld r i j hi lo).inter = s.inter := rfl
@[simp] theorem State.incFld_stks (r : Reg) (i j hi lo : Nat) : (s.incFld r i j hi lo).stks = s.stks := rfl
@[simp] theorem State.incFld_fold (r : Reg) (i j hi lo : Nat) : (s.incFld r i j hi lo).fold = s.fold := rfl
@[simp] theorem State.incFld_trk (r : Reg) (i j hi lo : Nat) : (s.incFld r i j hi lo).trk = s.trk := rfl
@[simp] theorem State.incFld_ideStop (r : Reg) (i j hi lo : Nat) : (s.incFld r i j hi lo).ideStop = s.ideStop := rfl
@[simp] theorem State.incFld_ideKeys (r : Reg) (i j hi lo : Nat) : (s.incFld r i j hi lo).ideKeys = s.ideKeys := rfl
@[simp] theorem State.incFld_snoops (r : Reg) (i j hi lo : Nat) : (s.incFld r i j hi lo).snoops = s.snoops := rfl
@[simp] theorem State.incFld_ni (r : Reg) (i j hi lo : Nat) : (s.incFld r i j hi lo).ni = s.ni := rfl
@[simp] theorem State.incFld_rtr (r : Reg) (i j hi lo : Nat) : (s.incFld r i j hi lo).rtr = s.rtr := rfl
@[simp] theorem State.incFld_far (r : Reg) (i j hi lo : Nat) : (s.incFld r i j hi lo).far = s.far := rfl
@[simp] theorem State.incFld_peat (r : Reg) (i j hi lo : Nat) : (s.incFld r i j hi lo).peat = s.peat := rfl
@[simp] theorem State.incFld_pserve (r : Reg) (i j hi lo : Nat) : (s.incFld r i j hi lo).pserve = s.pserve := rfl
@[simp] theorem State.incFld_queues (r : Reg) (i j hi lo : Nat) : (s.incFld r i j hi lo).queues = s.queues := rfl
@[simp] theorem State.incFld_kiln (r : Reg) (i j hi lo : Nat) : (s.incFld r i j hi lo).kiln = s.kiln := rfl
@[simp] theorem State.incFld_policy (r : Reg) (i j hi lo : Nat) : (s.incFld r i j hi lo).policy = s.policy := rfl
@[simp] theorem State.incFld_eid (r : Reg) (i j hi lo : Nat) : (s.incFld r i j hi lo).eid = s.eid := rfl
@[simp] theorem State.incFld_muster (r : Reg) (i j hi lo : Nat) : (s.incFld r i j hi lo).muster = s.muster := rfl
@[simp] theorem State.incFld_shadow (r : Reg) (i j hi lo : Nat) : (s.incFld r i j hi lo).shadow = s.shadow := rfl
@[simp] theorem State.incFld_ports (r : Reg) (i j hi lo : Nat) : (s.incFld r i j hi lo).ports = s.ports := rfl
@[simp] theorem State.incFld_therm (r : Reg) (i j hi lo : Nat) : (s.incFld r i j hi lo).therm = s.therm := rfl
@[simp] theorem State.incFld_pads (r : Reg) (i j hi lo : Nat) : (s.incFld r i j hi lo).pads = s.pads := rfl
@[simp] theorem State.incFld_fw (r : Reg) (i j hi lo : Nat) : (s.incFld r i j hi lo).fw = s.fw := rfl
@[simp] theorem State.incFld_conns (r : Reg) (i j hi lo : Nat) : (s.incFld r i j hi lo).conns = s.conns := rfl
@[simp] theorem State.incFld_range (r : Reg) (i j hi lo : Nat) : (s.incFld r i j hi lo).range = s.range := rfl
@[simp] theorem State.incFld_rst (r : Reg) (i j hi lo : Nat) : (s.incFld r i j hi lo).rst = s.rst := rfl
@[simp] theorem State.incFld_gen (r : Reg) (i j hi lo : Nat) : (s.incFld r i j hi lo).gen = s.gen := rfl
@[simp] theorem State.incFld_returns (r : Reg) (i j hi lo : Nat) : (s.incFld r i j hi lo).returns = s.returns := rfl
@[simp] theorem State.incFld_folding (r : Reg) (i j hi lo : Nat) : (s.incFld r i j hi lo).folding = s.folding := rfl
@[simp] theorem State.incFld_nor (r : Reg) (i j hi lo : Nat) : (s.incFld r i j hi lo).nor = s.nor := rfl
@[simp] theorem State.incFld_evt (r : Reg) (i j hi lo : Nat) : (s.incFld r i j hi lo).evt = s.evt := rfl
@[simp] theorem State.incFld_eseq (r : Reg) (i j hi lo : Nat) : (s.incFld r i j hi lo).eseq = s.eseq := rfl
@[simp] theorem State.incFld_evtRecv (r : Reg) (i j hi lo : Nat) : (s.incFld r i j hi lo).evtRecv = s.evtRecv := rfl
@[simp] theorem State.incFld_fresh (r : Reg) (i j hi lo : Nat) : (s.incFld r i j hi lo).fresh = s.fresh := rfl
@[simp] theorem State.incFld_out (r : Reg) (i j hi lo : Nat) : (s.incFld r i j hi lo).out = s.out := rfl
@[simp] theorem State.incFld_pending (r : Reg) (i j hi lo : Nat) : (s.incFld r i j hi lo).pending = s.pending := rfl

@[simp] theorem State.addFld_dram (r : Reg) (i j hi lo n : Nat) : (s.addFld r i j hi lo n).dram = s.dram := rfl
@[simp] theorem State.addFld_store (r : Reg) (i j hi lo n : Nat) : (s.addFld r i j hi lo n).store = s.store := rfl
@[simp] theorem State.addFld_scratch (r : Reg) (i j hi lo n : Nat) : (s.addFld r i j hi lo n).scratch = s.scratch := rfl
@[simp] theorem State.addFld_cores (r : Reg) (i j hi lo n : Nat) : (s.addFld r i j hi lo n).cores = s.cores := rfl
@[simp] theorem State.addFld_flocks (r : Reg) (i j hi lo n : Nat) : (s.addFld r i j hi lo n).flocks = s.flocks := rfl
@[simp] theorem State.addFld_bales (r : Reg) (i j hi lo n : Nat) : (s.addFld r i j hi lo n).bales = s.bales := rfl
@[simp] theorem State.addFld_bad (r : Reg) (i j hi lo n : Nat) : (s.addFld r i j hi lo n).bad = s.bad := rfl
@[simp] theorem State.addFld_weak (r : Reg) (i j hi lo n : Nat) : (s.addFld r i j hi lo n).weak = s.weak := rfl
@[simp] theorem State.addFld_inter (r : Reg) (i j hi lo n : Nat) : (s.addFld r i j hi lo n).inter = s.inter := rfl
@[simp] theorem State.addFld_stks (r : Reg) (i j hi lo n : Nat) : (s.addFld r i j hi lo n).stks = s.stks := rfl
@[simp] theorem State.addFld_fold (r : Reg) (i j hi lo n : Nat) : (s.addFld r i j hi lo n).fold = s.fold := rfl
@[simp] theorem State.addFld_trk (r : Reg) (i j hi lo n : Nat) : (s.addFld r i j hi lo n).trk = s.trk := rfl
@[simp] theorem State.addFld_ideStop (r : Reg) (i j hi lo n : Nat) : (s.addFld r i j hi lo n).ideStop = s.ideStop := rfl
@[simp] theorem State.addFld_ideKeys (r : Reg) (i j hi lo n : Nat) : (s.addFld r i j hi lo n).ideKeys = s.ideKeys := rfl
@[simp] theorem State.addFld_snoops (r : Reg) (i j hi lo n : Nat) : (s.addFld r i j hi lo n).snoops = s.snoops := rfl
@[simp] theorem State.addFld_ni (r : Reg) (i j hi lo n : Nat) : (s.addFld r i j hi lo n).ni = s.ni := rfl
@[simp] theorem State.addFld_rtr (r : Reg) (i j hi lo n : Nat) : (s.addFld r i j hi lo n).rtr = s.rtr := rfl
@[simp] theorem State.addFld_far (r : Reg) (i j hi lo n : Nat) : (s.addFld r i j hi lo n).far = s.far := rfl
@[simp] theorem State.addFld_peat (r : Reg) (i j hi lo n : Nat) : (s.addFld r i j hi lo n).peat = s.peat := rfl
@[simp] theorem State.addFld_pserve (r : Reg) (i j hi lo n : Nat) : (s.addFld r i j hi lo n).pserve = s.pserve := rfl
@[simp] theorem State.addFld_queues (r : Reg) (i j hi lo n : Nat) : (s.addFld r i j hi lo n).queues = s.queues := rfl
@[simp] theorem State.addFld_kiln (r : Reg) (i j hi lo n : Nat) : (s.addFld r i j hi lo n).kiln = s.kiln := rfl
@[simp] theorem State.addFld_policy (r : Reg) (i j hi lo n : Nat) : (s.addFld r i j hi lo n).policy = s.policy := rfl
@[simp] theorem State.addFld_eid (r : Reg) (i j hi lo n : Nat) : (s.addFld r i j hi lo n).eid = s.eid := rfl
@[simp] theorem State.addFld_muster (r : Reg) (i j hi lo n : Nat) : (s.addFld r i j hi lo n).muster = s.muster := rfl
@[simp] theorem State.addFld_shadow (r : Reg) (i j hi lo n : Nat) : (s.addFld r i j hi lo n).shadow = s.shadow := rfl
@[simp] theorem State.addFld_ports (r : Reg) (i j hi lo n : Nat) : (s.addFld r i j hi lo n).ports = s.ports := rfl
@[simp] theorem State.addFld_therm (r : Reg) (i j hi lo n : Nat) : (s.addFld r i j hi lo n).therm = s.therm := rfl
@[simp] theorem State.addFld_pads (r : Reg) (i j hi lo n : Nat) : (s.addFld r i j hi lo n).pads = s.pads := rfl
@[simp] theorem State.addFld_fw (r : Reg) (i j hi lo n : Nat) : (s.addFld r i j hi lo n).fw = s.fw := rfl
@[simp] theorem State.addFld_conns (r : Reg) (i j hi lo n : Nat) : (s.addFld r i j hi lo n).conns = s.conns := rfl
@[simp] theorem State.addFld_range (r : Reg) (i j hi lo n : Nat) : (s.addFld r i j hi lo n).range = s.range := rfl
@[simp] theorem State.addFld_rst (r : Reg) (i j hi lo n : Nat) : (s.addFld r i j hi lo n).rst = s.rst := rfl
@[simp] theorem State.addFld_gen (r : Reg) (i j hi lo n : Nat) : (s.addFld r i j hi lo n).gen = s.gen := rfl
@[simp] theorem State.addFld_returns (r : Reg) (i j hi lo n : Nat) : (s.addFld r i j hi lo n).returns = s.returns := rfl
@[simp] theorem State.addFld_folding (r : Reg) (i j hi lo n : Nat) : (s.addFld r i j hi lo n).folding = s.folding := rfl
@[simp] theorem State.addFld_nor (r : Reg) (i j hi lo n : Nat) : (s.addFld r i j hi lo n).nor = s.nor := rfl
@[simp] theorem State.addFld_evt (r : Reg) (i j hi lo n : Nat) : (s.addFld r i j hi lo n).evt = s.evt := rfl
@[simp] theorem State.addFld_eseq (r : Reg) (i j hi lo n : Nat) : (s.addFld r i j hi lo n).eseq = s.eseq := rfl
@[simp] theorem State.addFld_evtRecv (r : Reg) (i j hi lo n : Nat) : (s.addFld r i j hi lo n).evtRecv = s.evtRecv := rfl
@[simp] theorem State.addFld_fresh (r : Reg) (i j hi lo n : Nat) : (s.addFld r i j hi lo n).fresh = s.fresh := rfl
@[simp] theorem State.addFld_out (r : Reg) (i j hi lo n : Nat) : (s.addFld r i j hi lo n).out = s.out := rfl
@[simp] theorem State.addFld_pending (r : Reg) (i j hi lo n : Nat) : (s.addFld r i j hi lo n).pending = s.pending := rfl

@[simp] theorem State.resetReg_dram (r : Reg) (i j : Nat) : (s.resetReg r i j).dram = s.dram := rfl
@[simp] theorem State.resetReg_store (r : Reg) (i j : Nat) : (s.resetReg r i j).store = s.store := rfl
@[simp] theorem State.resetReg_scratch (r : Reg) (i j : Nat) : (s.resetReg r i j).scratch = s.scratch := rfl
@[simp] theorem State.resetReg_cores (r : Reg) (i j : Nat) : (s.resetReg r i j).cores = s.cores := rfl
@[simp] theorem State.resetReg_flocks (r : Reg) (i j : Nat) : (s.resetReg r i j).flocks = s.flocks := rfl
@[simp] theorem State.resetReg_bales (r : Reg) (i j : Nat) : (s.resetReg r i j).bales = s.bales := rfl
@[simp] theorem State.resetReg_bad (r : Reg) (i j : Nat) : (s.resetReg r i j).bad = s.bad := rfl
@[simp] theorem State.resetReg_weak (r : Reg) (i j : Nat) : (s.resetReg r i j).weak = s.weak := rfl
@[simp] theorem State.resetReg_inter (r : Reg) (i j : Nat) : (s.resetReg r i j).inter = s.inter := rfl
@[simp] theorem State.resetReg_stks (r : Reg) (i j : Nat) : (s.resetReg r i j).stks = s.stks := rfl
@[simp] theorem State.resetReg_fold (r : Reg) (i j : Nat) : (s.resetReg r i j).fold = s.fold := rfl
@[simp] theorem State.resetReg_trk (r : Reg) (i j : Nat) : (s.resetReg r i j).trk = s.trk := rfl
@[simp] theorem State.resetReg_ideStop (r : Reg) (i j : Nat) : (s.resetReg r i j).ideStop = s.ideStop := rfl
@[simp] theorem State.resetReg_ideKeys (r : Reg) (i j : Nat) : (s.resetReg r i j).ideKeys = s.ideKeys := rfl
@[simp] theorem State.resetReg_snoops (r : Reg) (i j : Nat) : (s.resetReg r i j).snoops = s.snoops := rfl
@[simp] theorem State.resetReg_ni (r : Reg) (i j : Nat) : (s.resetReg r i j).ni = s.ni := rfl
@[simp] theorem State.resetReg_rtr (r : Reg) (i j : Nat) : (s.resetReg r i j).rtr = s.rtr := rfl
@[simp] theorem State.resetReg_far (r : Reg) (i j : Nat) : (s.resetReg r i j).far = s.far := rfl
@[simp] theorem State.resetReg_peat (r : Reg) (i j : Nat) : (s.resetReg r i j).peat = s.peat := rfl
@[simp] theorem State.resetReg_pserve (r : Reg) (i j : Nat) : (s.resetReg r i j).pserve = s.pserve := rfl
@[simp] theorem State.resetReg_queues (r : Reg) (i j : Nat) : (s.resetReg r i j).queues = s.queues := rfl
@[simp] theorem State.resetReg_kiln (r : Reg) (i j : Nat) : (s.resetReg r i j).kiln = s.kiln := rfl
@[simp] theorem State.resetReg_policy (r : Reg) (i j : Nat) : (s.resetReg r i j).policy = s.policy := rfl
@[simp] theorem State.resetReg_eid (r : Reg) (i j : Nat) : (s.resetReg r i j).eid = s.eid := rfl
@[simp] theorem State.resetReg_muster (r : Reg) (i j : Nat) : (s.resetReg r i j).muster = s.muster := rfl
@[simp] theorem State.resetReg_shadow (r : Reg) (i j : Nat) : (s.resetReg r i j).shadow = s.shadow := rfl
@[simp] theorem State.resetReg_ports (r : Reg) (i j : Nat) : (s.resetReg r i j).ports = s.ports := rfl
@[simp] theorem State.resetReg_therm (r : Reg) (i j : Nat) : (s.resetReg r i j).therm = s.therm := rfl
@[simp] theorem State.resetReg_pads (r : Reg) (i j : Nat) : (s.resetReg r i j).pads = s.pads := rfl
@[simp] theorem State.resetReg_fw (r : Reg) (i j : Nat) : (s.resetReg r i j).fw = s.fw := rfl
@[simp] theorem State.resetReg_conns (r : Reg) (i j : Nat) : (s.resetReg r i j).conns = s.conns := rfl
@[simp] theorem State.resetReg_range (r : Reg) (i j : Nat) : (s.resetReg r i j).range = s.range := rfl
@[simp] theorem State.resetReg_rst (r : Reg) (i j : Nat) : (s.resetReg r i j).rst = s.rst := rfl
@[simp] theorem State.resetReg_gen (r : Reg) (i j : Nat) : (s.resetReg r i j).gen = s.gen := rfl
@[simp] theorem State.resetReg_returns (r : Reg) (i j : Nat) : (s.resetReg r i j).returns = s.returns := rfl
@[simp] theorem State.resetReg_folding (r : Reg) (i j : Nat) : (s.resetReg r i j).folding = s.folding := rfl
@[simp] theorem State.resetReg_nor (r : Reg) (i j : Nat) : (s.resetReg r i j).nor = s.nor := rfl
@[simp] theorem State.resetReg_evt (r : Reg) (i j : Nat) : (s.resetReg r i j).evt = s.evt := rfl
@[simp] theorem State.resetReg_eseq (r : Reg) (i j : Nat) : (s.resetReg r i j).eseq = s.eseq := rfl
@[simp] theorem State.resetReg_evtRecv (r : Reg) (i j : Nat) : (s.resetReg r i j).evtRecv = s.evtRecv := rfl
@[simp] theorem State.resetReg_fresh (r : Reg) (i j : Nat) : (s.resetReg r i j).fresh = s.fresh := rfl
@[simp] theorem State.resetReg_out (r : Reg) (i j : Nat) : (s.resetReg r i j).out = s.out := rfl
@[simp] theorem State.resetReg_pending (r : Reg) (i j : Nat) : (s.resetReg r i j).pending = s.pending := rfl

@[simp] theorem State.setCore_regs (f c : Nat) (k : Core) : (s.setCore f c k).regs = s.regs := rfl
@[simp] theorem State.setCore_dram (f c : Nat) (k : Core) : (s.setCore f c k).dram = s.dram := rfl
@[simp] theorem State.setCore_store (f c : Nat) (k : Core) : (s.setCore f c k).store = s.store := rfl
@[simp] theorem State.setCore_scratch (f c : Nat) (k : Core) : (s.setCore f c k).scratch = s.scratch := rfl
@[simp] theorem State.setCore_flocks (f c : Nat) (k : Core) : (s.setCore f c k).flocks = s.flocks := rfl
@[simp] theorem State.setCore_bales (f c : Nat) (k : Core) : (s.setCore f c k).bales = s.bales := rfl
@[simp] theorem State.setCore_bad (f c : Nat) (k : Core) : (s.setCore f c k).bad = s.bad := rfl
@[simp] theorem State.setCore_weak (f c : Nat) (k : Core) : (s.setCore f c k).weak = s.weak := rfl
@[simp] theorem State.setCore_inter (f c : Nat) (k : Core) : (s.setCore f c k).inter = s.inter := rfl
@[simp] theorem State.setCore_stks (f c : Nat) (k : Core) : (s.setCore f c k).stks = s.stks := rfl
@[simp] theorem State.setCore_fold (f c : Nat) (k : Core) : (s.setCore f c k).fold = s.fold := rfl
@[simp] theorem State.setCore_trk (f c : Nat) (k : Core) : (s.setCore f c k).trk = s.trk := rfl
@[simp] theorem State.setCore_ideStop (f c : Nat) (k : Core) : (s.setCore f c k).ideStop = s.ideStop := rfl
@[simp] theorem State.setCore_ideKeys (f c : Nat) (k : Core) : (s.setCore f c k).ideKeys = s.ideKeys := rfl
@[simp] theorem State.setCore_snoops (f c : Nat) (k : Core) : (s.setCore f c k).snoops = s.snoops := rfl
@[simp] theorem State.setCore_ni (f c : Nat) (k : Core) : (s.setCore f c k).ni = s.ni := rfl
@[simp] theorem State.setCore_rtr (f c : Nat) (k : Core) : (s.setCore f c k).rtr = s.rtr := rfl
@[simp] theorem State.setCore_far (f c : Nat) (k : Core) : (s.setCore f c k).far = s.far := rfl
@[simp] theorem State.setCore_peat (f c : Nat) (k : Core) : (s.setCore f c k).peat = s.peat := rfl
@[simp] theorem State.setCore_pserve (f c : Nat) (k : Core) : (s.setCore f c k).pserve = s.pserve := rfl
@[simp] theorem State.setCore_queues (f c : Nat) (k : Core) : (s.setCore f c k).queues = s.queues := rfl
@[simp] theorem State.setCore_kiln (f c : Nat) (k : Core) : (s.setCore f c k).kiln = s.kiln := rfl
@[simp] theorem State.setCore_policy (f c : Nat) (k : Core) : (s.setCore f c k).policy = s.policy := rfl
@[simp] theorem State.setCore_eid (f c : Nat) (k : Core) : (s.setCore f c k).eid = s.eid := rfl
@[simp] theorem State.setCore_muster (f c : Nat) (k : Core) : (s.setCore f c k).muster = s.muster := rfl
@[simp] theorem State.setCore_shadow (f c : Nat) (k : Core) : (s.setCore f c k).shadow = s.shadow := rfl
@[simp] theorem State.setCore_ports (f c : Nat) (k : Core) : (s.setCore f c k).ports = s.ports := rfl
@[simp] theorem State.setCore_therm (f c : Nat) (k : Core) : (s.setCore f c k).therm = s.therm := rfl
@[simp] theorem State.setCore_pads (f c : Nat) (k : Core) : (s.setCore f c k).pads = s.pads := rfl
@[simp] theorem State.setCore_fw (f c : Nat) (k : Core) : (s.setCore f c k).fw = s.fw := rfl
@[simp] theorem State.setCore_conns (f c : Nat) (k : Core) : (s.setCore f c k).conns = s.conns := rfl
@[simp] theorem State.setCore_range (f c : Nat) (k : Core) : (s.setCore f c k).range = s.range := rfl
@[simp] theorem State.setCore_rst (f c : Nat) (k : Core) : (s.setCore f c k).rst = s.rst := rfl
@[simp] theorem State.setCore_gen (f c : Nat) (k : Core) : (s.setCore f c k).gen = s.gen := rfl
@[simp] theorem State.setCore_returns (f c : Nat) (k : Core) : (s.setCore f c k).returns = s.returns := rfl
@[simp] theorem State.setCore_folding (f c : Nat) (k : Core) : (s.setCore f c k).folding = s.folding := rfl
@[simp] theorem State.setCore_nor (f c : Nat) (k : Core) : (s.setCore f c k).nor = s.nor := rfl
@[simp] theorem State.setCore_evt (f c : Nat) (k : Core) : (s.setCore f c k).evt = s.evt := rfl
@[simp] theorem State.setCore_eseq (f c : Nat) (k : Core) : (s.setCore f c k).eseq = s.eseq := rfl
@[simp] theorem State.setCore_evtRecv (f c : Nat) (k : Core) : (s.setCore f c k).evtRecv = s.evtRecv := rfl
@[simp] theorem State.setCore_fresh (f c : Nat) (k : Core) : (s.setCore f c k).fresh = s.fresh := rfl
@[simp] theorem State.setCore_out (f c : Nat) (k : Core) : (s.setCore f c k).out = s.out := rfl
@[simp] theorem State.setCore_pending (f c : Nat) (k : Core) : (s.setCore f c k).pending = s.pending := rfl

@[simp] theorem State.modCore_regs (f c : Nat) (g : Core → Core) : (s.modCore f c g).regs = s.regs := rfl
@[simp] theorem State.modCore_dram (f c : Nat) (g : Core → Core) : (s.modCore f c g).dram = s.dram := rfl
@[simp] theorem State.modCore_store (f c : Nat) (g : Core → Core) : (s.modCore f c g).store = s.store := rfl
@[simp] theorem State.modCore_scratch (f c : Nat) (g : Core → Core) : (s.modCore f c g).scratch = s.scratch := rfl
@[simp] theorem State.modCore_flocks (f c : Nat) (g : Core → Core) : (s.modCore f c g).flocks = s.flocks := rfl
@[simp] theorem State.modCore_bales (f c : Nat) (g : Core → Core) : (s.modCore f c g).bales = s.bales := rfl
@[simp] theorem State.modCore_bad (f c : Nat) (g : Core → Core) : (s.modCore f c g).bad = s.bad := rfl
@[simp] theorem State.modCore_weak (f c : Nat) (g : Core → Core) : (s.modCore f c g).weak = s.weak := rfl
@[simp] theorem State.modCore_inter (f c : Nat) (g : Core → Core) : (s.modCore f c g).inter = s.inter := rfl
@[simp] theorem State.modCore_stks (f c : Nat) (g : Core → Core) : (s.modCore f c g).stks = s.stks := rfl
@[simp] theorem State.modCore_fold (f c : Nat) (g : Core → Core) : (s.modCore f c g).fold = s.fold := rfl
@[simp] theorem State.modCore_trk (f c : Nat) (g : Core → Core) : (s.modCore f c g).trk = s.trk := rfl
@[simp] theorem State.modCore_ideStop (f c : Nat) (g : Core → Core) : (s.modCore f c g).ideStop = s.ideStop := rfl
@[simp] theorem State.modCore_ideKeys (f c : Nat) (g : Core → Core) : (s.modCore f c g).ideKeys = s.ideKeys := rfl
@[simp] theorem State.modCore_snoops (f c : Nat) (g : Core → Core) : (s.modCore f c g).snoops = s.snoops := rfl
@[simp] theorem State.modCore_ni (f c : Nat) (g : Core → Core) : (s.modCore f c g).ni = s.ni := rfl
@[simp] theorem State.modCore_rtr (f c : Nat) (g : Core → Core) : (s.modCore f c g).rtr = s.rtr := rfl
@[simp] theorem State.modCore_far (f c : Nat) (g : Core → Core) : (s.modCore f c g).far = s.far := rfl
@[simp] theorem State.modCore_peat (f c : Nat) (g : Core → Core) : (s.modCore f c g).peat = s.peat := rfl
@[simp] theorem State.modCore_pserve (f c : Nat) (g : Core → Core) : (s.modCore f c g).pserve = s.pserve := rfl
@[simp] theorem State.modCore_queues (f c : Nat) (g : Core → Core) : (s.modCore f c g).queues = s.queues := rfl
@[simp] theorem State.modCore_kiln (f c : Nat) (g : Core → Core) : (s.modCore f c g).kiln = s.kiln := rfl
@[simp] theorem State.modCore_policy (f c : Nat) (g : Core → Core) : (s.modCore f c g).policy = s.policy := rfl
@[simp] theorem State.modCore_eid (f c : Nat) (g : Core → Core) : (s.modCore f c g).eid = s.eid := rfl
@[simp] theorem State.modCore_muster (f c : Nat) (g : Core → Core) : (s.modCore f c g).muster = s.muster := rfl
@[simp] theorem State.modCore_shadow (f c : Nat) (g : Core → Core) : (s.modCore f c g).shadow = s.shadow := rfl
@[simp] theorem State.modCore_ports (f c : Nat) (g : Core → Core) : (s.modCore f c g).ports = s.ports := rfl
@[simp] theorem State.modCore_therm (f c : Nat) (g : Core → Core) : (s.modCore f c g).therm = s.therm := rfl
@[simp] theorem State.modCore_pads (f c : Nat) (g : Core → Core) : (s.modCore f c g).pads = s.pads := rfl
@[simp] theorem State.modCore_fw (f c : Nat) (g : Core → Core) : (s.modCore f c g).fw = s.fw := rfl
@[simp] theorem State.modCore_conns (f c : Nat) (g : Core → Core) : (s.modCore f c g).conns = s.conns := rfl
@[simp] theorem State.modCore_range (f c : Nat) (g : Core → Core) : (s.modCore f c g).range = s.range := rfl
@[simp] theorem State.modCore_rst (f c : Nat) (g : Core → Core) : (s.modCore f c g).rst = s.rst := rfl
@[simp] theorem State.modCore_gen (f c : Nat) (g : Core → Core) : (s.modCore f c g).gen = s.gen := rfl
@[simp] theorem State.modCore_returns (f c : Nat) (g : Core → Core) : (s.modCore f c g).returns = s.returns := rfl
@[simp] theorem State.modCore_folding (f c : Nat) (g : Core → Core) : (s.modCore f c g).folding = s.folding := rfl
@[simp] theorem State.modCore_nor (f c : Nat) (g : Core → Core) : (s.modCore f c g).nor = s.nor := rfl
@[simp] theorem State.modCore_evt (f c : Nat) (g : Core → Core) : (s.modCore f c g).evt = s.evt := rfl
@[simp] theorem State.modCore_eseq (f c : Nat) (g : Core → Core) : (s.modCore f c g).eseq = s.eseq := rfl
@[simp] theorem State.modCore_evtRecv (f c : Nat) (g : Core → Core) : (s.modCore f c g).evtRecv = s.evtRecv := rfl
@[simp] theorem State.modCore_fresh (f c : Nat) (g : Core → Core) : (s.modCore f c g).fresh = s.fresh := rfl
@[simp] theorem State.modCore_out (f c : Nat) (g : Core → Core) : (s.modCore f c g).out = s.out := rfl
@[simp] theorem State.modCore_pending (f c : Nat) (g : Core → Core) : (s.modCore f c g).pending = s.pending := rfl

@[simp] theorem State.setFlock_regs (f : Nat) (k : Flock) : (s.setFlock f k).regs = s.regs := rfl
@[simp] theorem State.setFlock_dram (f : Nat) (k : Flock) : (s.setFlock f k).dram = s.dram := rfl
@[simp] theorem State.setFlock_store (f : Nat) (k : Flock) : (s.setFlock f k).store = s.store := rfl
@[simp] theorem State.setFlock_scratch (f : Nat) (k : Flock) : (s.setFlock f k).scratch = s.scratch := rfl
@[simp] theorem State.setFlock_cores (f : Nat) (k : Flock) : (s.setFlock f k).cores = s.cores := rfl
@[simp] theorem State.setFlock_bales (f : Nat) (k : Flock) : (s.setFlock f k).bales = s.bales := rfl
@[simp] theorem State.setFlock_bad (f : Nat) (k : Flock) : (s.setFlock f k).bad = s.bad := rfl
@[simp] theorem State.setFlock_weak (f : Nat) (k : Flock) : (s.setFlock f k).weak = s.weak := rfl
@[simp] theorem State.setFlock_inter (f : Nat) (k : Flock) : (s.setFlock f k).inter = s.inter := rfl
@[simp] theorem State.setFlock_stks (f : Nat) (k : Flock) : (s.setFlock f k).stks = s.stks := rfl
@[simp] theorem State.setFlock_fold (f : Nat) (k : Flock) : (s.setFlock f k).fold = s.fold := rfl
@[simp] theorem State.setFlock_trk (f : Nat) (k : Flock) : (s.setFlock f k).trk = s.trk := rfl
@[simp] theorem State.setFlock_ideStop (f : Nat) (k : Flock) : (s.setFlock f k).ideStop = s.ideStop := rfl
@[simp] theorem State.setFlock_ideKeys (f : Nat) (k : Flock) : (s.setFlock f k).ideKeys = s.ideKeys := rfl
@[simp] theorem State.setFlock_snoops (f : Nat) (k : Flock) : (s.setFlock f k).snoops = s.snoops := rfl
@[simp] theorem State.setFlock_ni (f : Nat) (k : Flock) : (s.setFlock f k).ni = s.ni := rfl
@[simp] theorem State.setFlock_rtr (f : Nat) (k : Flock) : (s.setFlock f k).rtr = s.rtr := rfl
@[simp] theorem State.setFlock_far (f : Nat) (k : Flock) : (s.setFlock f k).far = s.far := rfl
@[simp] theorem State.setFlock_peat (f : Nat) (k : Flock) : (s.setFlock f k).peat = s.peat := rfl
@[simp] theorem State.setFlock_pserve (f : Nat) (k : Flock) : (s.setFlock f k).pserve = s.pserve := rfl
@[simp] theorem State.setFlock_queues (f : Nat) (k : Flock) : (s.setFlock f k).queues = s.queues := rfl
@[simp] theorem State.setFlock_kiln (f : Nat) (k : Flock) : (s.setFlock f k).kiln = s.kiln := rfl
@[simp] theorem State.setFlock_policy (f : Nat) (k : Flock) : (s.setFlock f k).policy = s.policy := rfl
@[simp] theorem State.setFlock_eid (f : Nat) (k : Flock) : (s.setFlock f k).eid = s.eid := rfl
@[simp] theorem State.setFlock_muster (f : Nat) (k : Flock) : (s.setFlock f k).muster = s.muster := rfl
@[simp] theorem State.setFlock_shadow (f : Nat) (k : Flock) : (s.setFlock f k).shadow = s.shadow := rfl
@[simp] theorem State.setFlock_ports (f : Nat) (k : Flock) : (s.setFlock f k).ports = s.ports := rfl
@[simp] theorem State.setFlock_therm (f : Nat) (k : Flock) : (s.setFlock f k).therm = s.therm := rfl
@[simp] theorem State.setFlock_pads (f : Nat) (k : Flock) : (s.setFlock f k).pads = s.pads := rfl
@[simp] theorem State.setFlock_fw (f : Nat) (k : Flock) : (s.setFlock f k).fw = s.fw := rfl
@[simp] theorem State.setFlock_conns (f : Nat) (k : Flock) : (s.setFlock f k).conns = s.conns := rfl
@[simp] theorem State.setFlock_range (f : Nat) (k : Flock) : (s.setFlock f k).range = s.range := rfl
@[simp] theorem State.setFlock_rst (f : Nat) (k : Flock) : (s.setFlock f k).rst = s.rst := rfl
@[simp] theorem State.setFlock_gen (f : Nat) (k : Flock) : (s.setFlock f k).gen = s.gen := rfl
@[simp] theorem State.setFlock_returns (f : Nat) (k : Flock) : (s.setFlock f k).returns = s.returns := rfl
@[simp] theorem State.setFlock_folding (f : Nat) (k : Flock) : (s.setFlock f k).folding = s.folding := rfl
@[simp] theorem State.setFlock_nor (f : Nat) (k : Flock) : (s.setFlock f k).nor = s.nor := rfl
@[simp] theorem State.setFlock_evt (f : Nat) (k : Flock) : (s.setFlock f k).evt = s.evt := rfl
@[simp] theorem State.setFlock_eseq (f : Nat) (k : Flock) : (s.setFlock f k).eseq = s.eseq := rfl
@[simp] theorem State.setFlock_evtRecv (f : Nat) (k : Flock) : (s.setFlock f k).evtRecv = s.evtRecv := rfl
@[simp] theorem State.setFlock_fresh (f : Nat) (k : Flock) : (s.setFlock f k).fresh = s.fresh := rfl
@[simp] theorem State.setFlock_out (f : Nat) (k : Flock) : (s.setFlock f k).out = s.out := rfl
@[simp] theorem State.setFlock_pending (f : Nat) (k : Flock) : (s.setFlock f k).pending = s.pending := rfl

@[simp] theorem State.modFlock_regs (f : Nat) (g : Flock → Flock) : (s.modFlock f g).regs = s.regs := rfl
@[simp] theorem State.modFlock_dram (f : Nat) (g : Flock → Flock) : (s.modFlock f g).dram = s.dram := rfl
@[simp] theorem State.modFlock_store (f : Nat) (g : Flock → Flock) : (s.modFlock f g).store = s.store := rfl
@[simp] theorem State.modFlock_scratch (f : Nat) (g : Flock → Flock) : (s.modFlock f g).scratch = s.scratch := rfl
@[simp] theorem State.modFlock_cores (f : Nat) (g : Flock → Flock) : (s.modFlock f g).cores = s.cores := rfl
@[simp] theorem State.modFlock_bales (f : Nat) (g : Flock → Flock) : (s.modFlock f g).bales = s.bales := rfl
@[simp] theorem State.modFlock_bad (f : Nat) (g : Flock → Flock) : (s.modFlock f g).bad = s.bad := rfl
@[simp] theorem State.modFlock_weak (f : Nat) (g : Flock → Flock) : (s.modFlock f g).weak = s.weak := rfl
@[simp] theorem State.modFlock_inter (f : Nat) (g : Flock → Flock) : (s.modFlock f g).inter = s.inter := rfl
@[simp] theorem State.modFlock_stks (f : Nat) (g : Flock → Flock) : (s.modFlock f g).stks = s.stks := rfl
@[simp] theorem State.modFlock_fold (f : Nat) (g : Flock → Flock) : (s.modFlock f g).fold = s.fold := rfl
@[simp] theorem State.modFlock_trk (f : Nat) (g : Flock → Flock) : (s.modFlock f g).trk = s.trk := rfl
@[simp] theorem State.modFlock_ideStop (f : Nat) (g : Flock → Flock) : (s.modFlock f g).ideStop = s.ideStop := rfl
@[simp] theorem State.modFlock_ideKeys (f : Nat) (g : Flock → Flock) : (s.modFlock f g).ideKeys = s.ideKeys := rfl
@[simp] theorem State.modFlock_snoops (f : Nat) (g : Flock → Flock) : (s.modFlock f g).snoops = s.snoops := rfl
@[simp] theorem State.modFlock_ni (f : Nat) (g : Flock → Flock) : (s.modFlock f g).ni = s.ni := rfl
@[simp] theorem State.modFlock_rtr (f : Nat) (g : Flock → Flock) : (s.modFlock f g).rtr = s.rtr := rfl
@[simp] theorem State.modFlock_far (f : Nat) (g : Flock → Flock) : (s.modFlock f g).far = s.far := rfl
@[simp] theorem State.modFlock_peat (f : Nat) (g : Flock → Flock) : (s.modFlock f g).peat = s.peat := rfl
@[simp] theorem State.modFlock_pserve (f : Nat) (g : Flock → Flock) : (s.modFlock f g).pserve = s.pserve := rfl
@[simp] theorem State.modFlock_queues (f : Nat) (g : Flock → Flock) : (s.modFlock f g).queues = s.queues := rfl
@[simp] theorem State.modFlock_kiln (f : Nat) (g : Flock → Flock) : (s.modFlock f g).kiln = s.kiln := rfl
@[simp] theorem State.modFlock_policy (f : Nat) (g : Flock → Flock) : (s.modFlock f g).policy = s.policy := rfl
@[simp] theorem State.modFlock_eid (f : Nat) (g : Flock → Flock) : (s.modFlock f g).eid = s.eid := rfl
@[simp] theorem State.modFlock_muster (f : Nat) (g : Flock → Flock) : (s.modFlock f g).muster = s.muster := rfl
@[simp] theorem State.modFlock_shadow (f : Nat) (g : Flock → Flock) : (s.modFlock f g).shadow = s.shadow := rfl
@[simp] theorem State.modFlock_ports (f : Nat) (g : Flock → Flock) : (s.modFlock f g).ports = s.ports := rfl
@[simp] theorem State.modFlock_therm (f : Nat) (g : Flock → Flock) : (s.modFlock f g).therm = s.therm := rfl
@[simp] theorem State.modFlock_pads (f : Nat) (g : Flock → Flock) : (s.modFlock f g).pads = s.pads := rfl
@[simp] theorem State.modFlock_fw (f : Nat) (g : Flock → Flock) : (s.modFlock f g).fw = s.fw := rfl
@[simp] theorem State.modFlock_conns (f : Nat) (g : Flock → Flock) : (s.modFlock f g).conns = s.conns := rfl
@[simp] theorem State.modFlock_range (f : Nat) (g : Flock → Flock) : (s.modFlock f g).range = s.range := rfl
@[simp] theorem State.modFlock_rst (f : Nat) (g : Flock → Flock) : (s.modFlock f g).rst = s.rst := rfl
@[simp] theorem State.modFlock_gen (f : Nat) (g : Flock → Flock) : (s.modFlock f g).gen = s.gen := rfl
@[simp] theorem State.modFlock_returns (f : Nat) (g : Flock → Flock) : (s.modFlock f g).returns = s.returns := rfl
@[simp] theorem State.modFlock_folding (f : Nat) (g : Flock → Flock) : (s.modFlock f g).folding = s.folding := rfl
@[simp] theorem State.modFlock_nor (f : Nat) (g : Flock → Flock) : (s.modFlock f g).nor = s.nor := rfl
@[simp] theorem State.modFlock_evt (f : Nat) (g : Flock → Flock) : (s.modFlock f g).evt = s.evt := rfl
@[simp] theorem State.modFlock_eseq (f : Nat) (g : Flock → Flock) : (s.modFlock f g).eseq = s.eseq := rfl
@[simp] theorem State.modFlock_evtRecv (f : Nat) (g : Flock → Flock) : (s.modFlock f g).evtRecv = s.evtRecv := rfl
@[simp] theorem State.modFlock_fresh (f : Nat) (g : Flock → Flock) : (s.modFlock f g).fresh = s.fresh := rfl
@[simp] theorem State.modFlock_out (f : Nat) (g : Flock → Flock) : (s.modFlock f g).out = s.out := rfl
@[simp] theorem State.modFlock_pending (f : Nat) (g : Flock → Flock) : (s.modFlock f g).pending = s.pending := rfl

@[simp] theorem State.advance_regs (f c : Nat) : (s.advance f c).regs = s.regs := rfl
@[simp] theorem State.advance_dram (f c : Nat) : (s.advance f c).dram = s.dram := rfl
@[simp] theorem State.advance_store (f c : Nat) : (s.advance f c).store = s.store := rfl
@[simp] theorem State.advance_scratch (f c : Nat) : (s.advance f c).scratch = s.scratch := rfl
@[simp] theorem State.advance_flocks (f c : Nat) : (s.advance f c).flocks = s.flocks := rfl
@[simp] theorem State.advance_bales (f c : Nat) : (s.advance f c).bales = s.bales := rfl
@[simp] theorem State.advance_bad (f c : Nat) : (s.advance f c).bad = s.bad := rfl
@[simp] theorem State.advance_weak (f c : Nat) : (s.advance f c).weak = s.weak := rfl
@[simp] theorem State.advance_inter (f c : Nat) : (s.advance f c).inter = s.inter := rfl
@[simp] theorem State.advance_stks (f c : Nat) : (s.advance f c).stks = s.stks := rfl
@[simp] theorem State.advance_fold (f c : Nat) : (s.advance f c).fold = s.fold := rfl
@[simp] theorem State.advance_trk (f c : Nat) : (s.advance f c).trk = s.trk := rfl
@[simp] theorem State.advance_ideStop (f c : Nat) : (s.advance f c).ideStop = s.ideStop := rfl
@[simp] theorem State.advance_ideKeys (f c : Nat) : (s.advance f c).ideKeys = s.ideKeys := rfl
@[simp] theorem State.advance_snoops (f c : Nat) : (s.advance f c).snoops = s.snoops := rfl
@[simp] theorem State.advance_ni (f c : Nat) : (s.advance f c).ni = s.ni := rfl
@[simp] theorem State.advance_rtr (f c : Nat) : (s.advance f c).rtr = s.rtr := rfl
@[simp] theorem State.advance_far (f c : Nat) : (s.advance f c).far = s.far := rfl
@[simp] theorem State.advance_peat (f c : Nat) : (s.advance f c).peat = s.peat := rfl
@[simp] theorem State.advance_pserve (f c : Nat) : (s.advance f c).pserve = s.pserve := rfl
@[simp] theorem State.advance_queues (f c : Nat) : (s.advance f c).queues = s.queues := rfl
@[simp] theorem State.advance_kiln (f c : Nat) : (s.advance f c).kiln = s.kiln := rfl
@[simp] theorem State.advance_policy (f c : Nat) : (s.advance f c).policy = s.policy := rfl
@[simp] theorem State.advance_eid (f c : Nat) : (s.advance f c).eid = s.eid := rfl
@[simp] theorem State.advance_muster (f c : Nat) : (s.advance f c).muster = s.muster := rfl
@[simp] theorem State.advance_shadow (f c : Nat) : (s.advance f c).shadow = s.shadow := rfl
@[simp] theorem State.advance_ports (f c : Nat) : (s.advance f c).ports = s.ports := rfl
@[simp] theorem State.advance_therm (f c : Nat) : (s.advance f c).therm = s.therm := rfl
@[simp] theorem State.advance_pads (f c : Nat) : (s.advance f c).pads = s.pads := rfl
@[simp] theorem State.advance_fw (f c : Nat) : (s.advance f c).fw = s.fw := rfl
@[simp] theorem State.advance_conns (f c : Nat) : (s.advance f c).conns = s.conns := rfl
@[simp] theorem State.advance_range (f c : Nat) : (s.advance f c).range = s.range := rfl
@[simp] theorem State.advance_rst (f c : Nat) : (s.advance f c).rst = s.rst := rfl
@[simp] theorem State.advance_gen (f c : Nat) : (s.advance f c).gen = s.gen := rfl
@[simp] theorem State.advance_returns (f c : Nat) : (s.advance f c).returns = s.returns := rfl
@[simp] theorem State.advance_folding (f c : Nat) : (s.advance f c).folding = s.folding := rfl
@[simp] theorem State.advance_nor (f c : Nat) : (s.advance f c).nor = s.nor := rfl
@[simp] theorem State.advance_evt (f c : Nat) : (s.advance f c).evt = s.evt := rfl
@[simp] theorem State.advance_eseq (f c : Nat) : (s.advance f c).eseq = s.eseq := rfl
@[simp] theorem State.advance_evtRecv (f c : Nat) : (s.advance f c).evtRecv = s.evtRecv := rfl
@[simp] theorem State.advance_fresh (f c : Nat) : (s.advance f c).fresh = s.fresh := rfl
@[simp] theorem State.advance_out (f c : Nat) : (s.advance f c).out = s.out := rfl
@[simp] theorem State.advance_pending (f c : Nat) : (s.advance f c).pending = s.pending := rfl

@[simp] theorem State.bump_regs : (s.bump).regs = s.regs := rfl
@[simp] theorem State.bump_dram : (s.bump).dram = s.dram := rfl
@[simp] theorem State.bump_store : (s.bump).store = s.store := rfl
@[simp] theorem State.bump_scratch : (s.bump).scratch = s.scratch := rfl
@[simp] theorem State.bump_cores : (s.bump).cores = s.cores := rfl
@[simp] theorem State.bump_flocks : (s.bump).flocks = s.flocks := rfl
@[simp] theorem State.bump_bales : (s.bump).bales = s.bales := rfl
@[simp] theorem State.bump_bad : (s.bump).bad = s.bad := rfl
@[simp] theorem State.bump_weak : (s.bump).weak = s.weak := rfl
@[simp] theorem State.bump_inter : (s.bump).inter = s.inter := rfl
@[simp] theorem State.bump_stks : (s.bump).stks = s.stks := rfl
@[simp] theorem State.bump_fold : (s.bump).fold = s.fold := rfl
@[simp] theorem State.bump_trk : (s.bump).trk = s.trk := rfl
@[simp] theorem State.bump_ideStop : (s.bump).ideStop = s.ideStop := rfl
@[simp] theorem State.bump_ideKeys : (s.bump).ideKeys = s.ideKeys := rfl
@[simp] theorem State.bump_snoops : (s.bump).snoops = s.snoops := rfl
@[simp] theorem State.bump_ni : (s.bump).ni = s.ni := rfl
@[simp] theorem State.bump_rtr : (s.bump).rtr = s.rtr := rfl
@[simp] theorem State.bump_far : (s.bump).far = s.far := rfl
@[simp] theorem State.bump_peat : (s.bump).peat = s.peat := rfl
@[simp] theorem State.bump_pserve : (s.bump).pserve = s.pserve := rfl
@[simp] theorem State.bump_queues : (s.bump).queues = s.queues := rfl
@[simp] theorem State.bump_kiln : (s.bump).kiln = s.kiln := rfl
@[simp] theorem State.bump_policy : (s.bump).policy = s.policy := rfl
@[simp] theorem State.bump_eid : (s.bump).eid = s.eid := rfl
@[simp] theorem State.bump_muster : (s.bump).muster = s.muster := rfl
@[simp] theorem State.bump_shadow : (s.bump).shadow = s.shadow := rfl
@[simp] theorem State.bump_ports : (s.bump).ports = s.ports := rfl
@[simp] theorem State.bump_therm : (s.bump).therm = s.therm := rfl
@[simp] theorem State.bump_pads : (s.bump).pads = s.pads := rfl
@[simp] theorem State.bump_fw : (s.bump).fw = s.fw := rfl
@[simp] theorem State.bump_conns : (s.bump).conns = s.conns := rfl
@[simp] theorem State.bump_range : (s.bump).range = s.range := rfl
@[simp] theorem State.bump_rst : (s.bump).rst = s.rst := rfl
@[simp] theorem State.bump_gen : (s.bump).gen = s.gen := rfl
@[simp] theorem State.bump_returns : (s.bump).returns = s.returns := rfl
@[simp] theorem State.bump_folding : (s.bump).folding = s.folding := rfl
@[simp] theorem State.bump_nor : (s.bump).nor = s.nor := rfl
@[simp] theorem State.bump_evt : (s.bump).evt = s.evt := rfl
@[simp] theorem State.bump_eseq : (s.bump).eseq = s.eseq := rfl
@[simp] theorem State.bump_evtRecv : (s.bump).evtRecv = s.evtRecv := rfl
@[simp] theorem State.bump_out : (s.bump).out = s.out := rfl
@[simp] theorem State.bump_pending : (s.bump).pending = s.pending := rfl

@[simp] theorem State.emit_regs (o : Output) : (s.emit o).regs = s.regs := rfl
@[simp] theorem State.emit_dram (o : Output) : (s.emit o).dram = s.dram := rfl
@[simp] theorem State.emit_store (o : Output) : (s.emit o).store = s.store := rfl
@[simp] theorem State.emit_scratch (o : Output) : (s.emit o).scratch = s.scratch := rfl
@[simp] theorem State.emit_cores (o : Output) : (s.emit o).cores = s.cores := rfl
@[simp] theorem State.emit_flocks (o : Output) : (s.emit o).flocks = s.flocks := rfl
@[simp] theorem State.emit_bales (o : Output) : (s.emit o).bales = s.bales := rfl
@[simp] theorem State.emit_bad (o : Output) : (s.emit o).bad = s.bad := rfl
@[simp] theorem State.emit_weak (o : Output) : (s.emit o).weak = s.weak := rfl
@[simp] theorem State.emit_inter (o : Output) : (s.emit o).inter = s.inter := rfl
@[simp] theorem State.emit_stks (o : Output) : (s.emit o).stks = s.stks := rfl
@[simp] theorem State.emit_fold (o : Output) : (s.emit o).fold = s.fold := rfl
@[simp] theorem State.emit_trk (o : Output) : (s.emit o).trk = s.trk := rfl
@[simp] theorem State.emit_ideStop (o : Output) : (s.emit o).ideStop = s.ideStop := rfl
@[simp] theorem State.emit_ideKeys (o : Output) : (s.emit o).ideKeys = s.ideKeys := rfl
@[simp] theorem State.emit_snoops (o : Output) : (s.emit o).snoops = s.snoops := rfl
@[simp] theorem State.emit_ni (o : Output) : (s.emit o).ni = s.ni := rfl
@[simp] theorem State.emit_rtr (o : Output) : (s.emit o).rtr = s.rtr := rfl
@[simp] theorem State.emit_far (o : Output) : (s.emit o).far = s.far := rfl
@[simp] theorem State.emit_peat (o : Output) : (s.emit o).peat = s.peat := rfl
@[simp] theorem State.emit_pserve (o : Output) : (s.emit o).pserve = s.pserve := rfl
@[simp] theorem State.emit_queues (o : Output) : (s.emit o).queues = s.queues := rfl
@[simp] theorem State.emit_kiln (o : Output) : (s.emit o).kiln = s.kiln := rfl
@[simp] theorem State.emit_policy (o : Output) : (s.emit o).policy = s.policy := rfl
@[simp] theorem State.emit_eid (o : Output) : (s.emit o).eid = s.eid := rfl
@[simp] theorem State.emit_muster (o : Output) : (s.emit o).muster = s.muster := rfl
@[simp] theorem State.emit_shadow (o : Output) : (s.emit o).shadow = s.shadow := rfl
@[simp] theorem State.emit_ports (o : Output) : (s.emit o).ports = s.ports := rfl
@[simp] theorem State.emit_therm (o : Output) : (s.emit o).therm = s.therm := rfl
@[simp] theorem State.emit_pads (o : Output) : (s.emit o).pads = s.pads := rfl
@[simp] theorem State.emit_fw (o : Output) : (s.emit o).fw = s.fw := rfl
@[simp] theorem State.emit_conns (o : Output) : (s.emit o).conns = s.conns := rfl
@[simp] theorem State.emit_range (o : Output) : (s.emit o).range = s.range := rfl
@[simp] theorem State.emit_rst (o : Output) : (s.emit o).rst = s.rst := rfl
@[simp] theorem State.emit_gen (o : Output) : (s.emit o).gen = s.gen := rfl
@[simp] theorem State.emit_returns (o : Output) : (s.emit o).returns = s.returns := rfl
@[simp] theorem State.emit_folding (o : Output) : (s.emit o).folding = s.folding := rfl
@[simp] theorem State.emit_nor (o : Output) : (s.emit o).nor = s.nor := rfl
@[simp] theorem State.emit_evt (o : Output) : (s.emit o).evt = s.evt := rfl
@[simp] theorem State.emit_eseq (o : Output) : (s.emit o).eseq = s.eseq := rfl
@[simp] theorem State.emit_evtRecv (o : Output) : (s.emit o).evtRecv = s.evtRecv := rfl
@[simp] theorem State.emit_fresh (o : Output) : (s.emit o).fresh = s.fresh := rfl
@[simp] theorem State.emit_pending (o : Output) : (s.emit o).pending = s.pending := rfl

@[simp] theorem State.setNi_regs (n : Ni) : (s.setNi n).regs = s.regs := rfl
@[simp] theorem State.setNi_dram (n : Ni) : (s.setNi n).dram = s.dram := rfl
@[simp] theorem State.setNi_store (n : Ni) : (s.setNi n).store = s.store := rfl
@[simp] theorem State.setNi_scratch (n : Ni) : (s.setNi n).scratch = s.scratch := rfl
@[simp] theorem State.setNi_cores (n : Ni) : (s.setNi n).cores = s.cores := rfl
@[simp] theorem State.setNi_flocks (n : Ni) : (s.setNi n).flocks = s.flocks := rfl
@[simp] theorem State.setNi_bales (n : Ni) : (s.setNi n).bales = s.bales := rfl
@[simp] theorem State.setNi_bad (n : Ni) : (s.setNi n).bad = s.bad := rfl
@[simp] theorem State.setNi_weak (n : Ni) : (s.setNi n).weak = s.weak := rfl
@[simp] theorem State.setNi_inter (n : Ni) : (s.setNi n).inter = s.inter := rfl
@[simp] theorem State.setNi_stks (n : Ni) : (s.setNi n).stks = s.stks := rfl
@[simp] theorem State.setNi_fold (n : Ni) : (s.setNi n).fold = s.fold := rfl
@[simp] theorem State.setNi_trk (n : Ni) : (s.setNi n).trk = s.trk := rfl
@[simp] theorem State.setNi_ideStop (n : Ni) : (s.setNi n).ideStop = s.ideStop := rfl
@[simp] theorem State.setNi_ideKeys (n : Ni) : (s.setNi n).ideKeys = s.ideKeys := rfl
@[simp] theorem State.setNi_snoops (n : Ni) : (s.setNi n).snoops = s.snoops := rfl
@[simp] theorem State.setNi_rtr (n : Ni) : (s.setNi n).rtr = s.rtr := rfl
@[simp] theorem State.setNi_far (n : Ni) : (s.setNi n).far = s.far := rfl
@[simp] theorem State.setNi_peat (n : Ni) : (s.setNi n).peat = s.peat := rfl
@[simp] theorem State.setNi_pserve (n : Ni) : (s.setNi n).pserve = s.pserve := rfl
@[simp] theorem State.setNi_queues (n : Ni) : (s.setNi n).queues = s.queues := rfl
@[simp] theorem State.setNi_kiln (n : Ni) : (s.setNi n).kiln = s.kiln := rfl
@[simp] theorem State.setNi_policy (n : Ni) : (s.setNi n).policy = s.policy := rfl
@[simp] theorem State.setNi_eid (n : Ni) : (s.setNi n).eid = s.eid := rfl
@[simp] theorem State.setNi_muster (n : Ni) : (s.setNi n).muster = s.muster := rfl
@[simp] theorem State.setNi_shadow (n : Ni) : (s.setNi n).shadow = s.shadow := rfl
@[simp] theorem State.setNi_ports (n : Ni) : (s.setNi n).ports = s.ports := rfl
@[simp] theorem State.setNi_therm (n : Ni) : (s.setNi n).therm = s.therm := rfl
@[simp] theorem State.setNi_pads (n : Ni) : (s.setNi n).pads = s.pads := rfl
@[simp] theorem State.setNi_fw (n : Ni) : (s.setNi n).fw = s.fw := rfl
@[simp] theorem State.setNi_conns (n : Ni) : (s.setNi n).conns = s.conns := rfl
@[simp] theorem State.setNi_range (n : Ni) : (s.setNi n).range = s.range := rfl
@[simp] theorem State.setNi_rst (n : Ni) : (s.setNi n).rst = s.rst := rfl
@[simp] theorem State.setNi_gen (n : Ni) : (s.setNi n).gen = s.gen := rfl
@[simp] theorem State.setNi_returns (n : Ni) : (s.setNi n).returns = s.returns := rfl
@[simp] theorem State.setNi_folding (n : Ni) : (s.setNi n).folding = s.folding := rfl
@[simp] theorem State.setNi_nor (n : Ni) : (s.setNi n).nor = s.nor := rfl
@[simp] theorem State.setNi_evt (n : Ni) : (s.setNi n).evt = s.evt := rfl
@[simp] theorem State.setNi_eseq (n : Ni) : (s.setNi n).eseq = s.eseq := rfl
@[simp] theorem State.setNi_evtRecv (n : Ni) : (s.setNi n).evtRecv = s.evtRecv := rfl
@[simp] theorem State.setNi_fresh (n : Ni) : (s.setNi n).fresh = s.fresh := rfl
@[simp] theorem State.setNi_out (n : Ni) : (s.setNi n).out = s.out := rfl
@[simp] theorem State.setNi_pending (n : Ni) : (s.setNi n).pending = s.pending := rfl

@[simp] theorem State.niAsk_regs (r : NiReq) : (s.niAsk r).regs = s.regs := rfl
@[simp] theorem State.niAsk_dram (r : NiReq) : (s.niAsk r).dram = s.dram := rfl
@[simp] theorem State.niAsk_store (r : NiReq) : (s.niAsk r).store = s.store := rfl
@[simp] theorem State.niAsk_scratch (r : NiReq) : (s.niAsk r).scratch = s.scratch := rfl
@[simp] theorem State.niAsk_cores (r : NiReq) : (s.niAsk r).cores = s.cores := rfl
@[simp] theorem State.niAsk_flocks (r : NiReq) : (s.niAsk r).flocks = s.flocks := rfl
@[simp] theorem State.niAsk_bales (r : NiReq) : (s.niAsk r).bales = s.bales := rfl
@[simp] theorem State.niAsk_bad (r : NiReq) : (s.niAsk r).bad = s.bad := rfl
@[simp] theorem State.niAsk_weak (r : NiReq) : (s.niAsk r).weak = s.weak := rfl
@[simp] theorem State.niAsk_inter (r : NiReq) : (s.niAsk r).inter = s.inter := rfl
@[simp] theorem State.niAsk_stks (r : NiReq) : (s.niAsk r).stks = s.stks := rfl
@[simp] theorem State.niAsk_fold (r : NiReq) : (s.niAsk r).fold = s.fold := rfl
@[simp] theorem State.niAsk_trk (r : NiReq) : (s.niAsk r).trk = s.trk := rfl
@[simp] theorem State.niAsk_ideStop (r : NiReq) : (s.niAsk r).ideStop = s.ideStop := rfl
@[simp] theorem State.niAsk_ideKeys (r : NiReq) : (s.niAsk r).ideKeys = s.ideKeys := rfl
@[simp] theorem State.niAsk_snoops (r : NiReq) : (s.niAsk r).snoops = s.snoops := rfl
@[simp] theorem State.niAsk_rtr (r : NiReq) : (s.niAsk r).rtr = s.rtr := rfl
@[simp] theorem State.niAsk_far (r : NiReq) : (s.niAsk r).far = s.far := rfl
@[simp] theorem State.niAsk_peat (r : NiReq) : (s.niAsk r).peat = s.peat := rfl
@[simp] theorem State.niAsk_pserve (r : NiReq) : (s.niAsk r).pserve = s.pserve := rfl
@[simp] theorem State.niAsk_queues (r : NiReq) : (s.niAsk r).queues = s.queues := rfl
@[simp] theorem State.niAsk_kiln (r : NiReq) : (s.niAsk r).kiln = s.kiln := rfl
@[simp] theorem State.niAsk_policy (r : NiReq) : (s.niAsk r).policy = s.policy := rfl
@[simp] theorem State.niAsk_eid (r : NiReq) : (s.niAsk r).eid = s.eid := rfl
@[simp] theorem State.niAsk_muster (r : NiReq) : (s.niAsk r).muster = s.muster := rfl
@[simp] theorem State.niAsk_shadow (r : NiReq) : (s.niAsk r).shadow = s.shadow := rfl
@[simp] theorem State.niAsk_ports (r : NiReq) : (s.niAsk r).ports = s.ports := rfl
@[simp] theorem State.niAsk_therm (r : NiReq) : (s.niAsk r).therm = s.therm := rfl
@[simp] theorem State.niAsk_pads (r : NiReq) : (s.niAsk r).pads = s.pads := rfl
@[simp] theorem State.niAsk_fw (r : NiReq) : (s.niAsk r).fw = s.fw := rfl
@[simp] theorem State.niAsk_conns (r : NiReq) : (s.niAsk r).conns = s.conns := rfl
@[simp] theorem State.niAsk_range (r : NiReq) : (s.niAsk r).range = s.range := rfl
@[simp] theorem State.niAsk_rst (r : NiReq) : (s.niAsk r).rst = s.rst := rfl
@[simp] theorem State.niAsk_gen (r : NiReq) : (s.niAsk r).gen = s.gen := rfl
@[simp] theorem State.niAsk_returns (r : NiReq) : (s.niAsk r).returns = s.returns := rfl
@[simp] theorem State.niAsk_folding (r : NiReq) : (s.niAsk r).folding = s.folding := rfl
@[simp] theorem State.niAsk_nor (r : NiReq) : (s.niAsk r).nor = s.nor := rfl
@[simp] theorem State.niAsk_evt (r : NiReq) : (s.niAsk r).evt = s.evt := rfl
@[simp] theorem State.niAsk_eseq (r : NiReq) : (s.niAsk r).eseq = s.eseq := rfl
@[simp] theorem State.niAsk_evtRecv (r : NiReq) : (s.niAsk r).evtRecv = s.evtRecv := rfl
@[simp] theorem State.niAsk_fresh (r : NiReq) : (s.niAsk r).fresh = s.fresh := rfl
@[simp] theorem State.niAsk_out (r : NiReq) : (s.niAsk r).out = s.out := rfl
@[simp] theorem State.niAsk_pending (r : NiReq) : (s.niAsk r).pending = s.pending := rfl

@[simp] theorem State.setLine_regs (line : Nat) (x : LineSt) : (s.setLine line x).regs = s.regs := rfl
@[simp] theorem State.setLine_dram (line : Nat) (x : LineSt) : (s.setLine line x).dram = s.dram := rfl
@[simp] theorem State.setLine_store (line : Nat) (x : LineSt) : (s.setLine line x).store = s.store := rfl
@[simp] theorem State.setLine_scratch (line : Nat) (x : LineSt) : (s.setLine line x).scratch = s.scratch := rfl
@[simp] theorem State.setLine_cores (line : Nat) (x : LineSt) : (s.setLine line x).cores = s.cores := rfl
@[simp] theorem State.setLine_flocks (line : Nat) (x : LineSt) : (s.setLine line x).flocks = s.flocks := rfl
@[simp] theorem State.setLine_bales (line : Nat) (x : LineSt) : (s.setLine line x).bales = s.bales := rfl
@[simp] theorem State.setLine_bad (line : Nat) (x : LineSt) : (s.setLine line x).bad = s.bad := rfl
@[simp] theorem State.setLine_weak (line : Nat) (x : LineSt) : (s.setLine line x).weak = s.weak := rfl
@[simp] theorem State.setLine_inter (line : Nat) (x : LineSt) : (s.setLine line x).inter = s.inter := rfl
@[simp] theorem State.setLine_stks (line : Nat) (x : LineSt) : (s.setLine line x).stks = s.stks := rfl
@[simp] theorem State.setLine_fold (line : Nat) (x : LineSt) : (s.setLine line x).fold = s.fold := rfl
@[simp] theorem State.setLine_trk (line : Nat) (x : LineSt) : (s.setLine line x).trk = s.trk := rfl
@[simp] theorem State.setLine_ideStop (line : Nat) (x : LineSt) : (s.setLine line x).ideStop = s.ideStop := rfl
@[simp] theorem State.setLine_ideKeys (line : Nat) (x : LineSt) : (s.setLine line x).ideKeys = s.ideKeys := rfl
@[simp] theorem State.setLine_snoops (line : Nat) (x : LineSt) : (s.setLine line x).snoops = s.snoops := rfl
@[simp] theorem State.setLine_rtr (line : Nat) (x : LineSt) : (s.setLine line x).rtr = s.rtr := rfl
@[simp] theorem State.setLine_far (line : Nat) (x : LineSt) : (s.setLine line x).far = s.far := rfl
@[simp] theorem State.setLine_peat (line : Nat) (x : LineSt) : (s.setLine line x).peat = s.peat := rfl
@[simp] theorem State.setLine_pserve (line : Nat) (x : LineSt) : (s.setLine line x).pserve = s.pserve := rfl
@[simp] theorem State.setLine_queues (line : Nat) (x : LineSt) : (s.setLine line x).queues = s.queues := rfl
@[simp] theorem State.setLine_kiln (line : Nat) (x : LineSt) : (s.setLine line x).kiln = s.kiln := rfl
@[simp] theorem State.setLine_policy (line : Nat) (x : LineSt) : (s.setLine line x).policy = s.policy := rfl
@[simp] theorem State.setLine_eid (line : Nat) (x : LineSt) : (s.setLine line x).eid = s.eid := rfl
@[simp] theorem State.setLine_muster (line : Nat) (x : LineSt) : (s.setLine line x).muster = s.muster := rfl
@[simp] theorem State.setLine_shadow (line : Nat) (x : LineSt) : (s.setLine line x).shadow = s.shadow := rfl
@[simp] theorem State.setLine_ports (line : Nat) (x : LineSt) : (s.setLine line x).ports = s.ports := rfl
@[simp] theorem State.setLine_therm (line : Nat) (x : LineSt) : (s.setLine line x).therm = s.therm := rfl
@[simp] theorem State.setLine_pads (line : Nat) (x : LineSt) : (s.setLine line x).pads = s.pads := rfl
@[simp] theorem State.setLine_fw (line : Nat) (x : LineSt) : (s.setLine line x).fw = s.fw := rfl
@[simp] theorem State.setLine_conns (line : Nat) (x : LineSt) : (s.setLine line x).conns = s.conns := rfl
@[simp] theorem State.setLine_range (line : Nat) (x : LineSt) : (s.setLine line x).range = s.range := rfl
@[simp] theorem State.setLine_rst (line : Nat) (x : LineSt) : (s.setLine line x).rst = s.rst := rfl
@[simp] theorem State.setLine_gen (line : Nat) (x : LineSt) : (s.setLine line x).gen = s.gen := rfl
@[simp] theorem State.setLine_returns (line : Nat) (x : LineSt) : (s.setLine line x).returns = s.returns := rfl
@[simp] theorem State.setLine_folding (line : Nat) (x : LineSt) : (s.setLine line x).folding = s.folding := rfl
@[simp] theorem State.setLine_nor (line : Nat) (x : LineSt) : (s.setLine line x).nor = s.nor := rfl
@[simp] theorem State.setLine_evt (line : Nat) (x : LineSt) : (s.setLine line x).evt = s.evt := rfl
@[simp] theorem State.setLine_eseq (line : Nat) (x : LineSt) : (s.setLine line x).eseq = s.eseq := rfl
@[simp] theorem State.setLine_evtRecv (line : Nat) (x : LineSt) : (s.setLine line x).evtRecv = s.evtRecv := rfl
@[simp] theorem State.setLine_fresh (line : Nat) (x : LineSt) : (s.setLine line x).fresh = s.fresh := rfl
@[simp] theorem State.setLine_out (line : Nat) (x : LineSt) : (s.setLine line x).out = s.out := rfl
@[simp] theorem State.setLine_pending (line : Nat) (x : LineSt) : (s.setLine line x).pending = s.pending := rfl

@[simp] theorem State.setRtr_regs (r : Rtr) : (s.setRtr r).regs = s.regs := rfl
@[simp] theorem State.setRtr_dram (r : Rtr) : (s.setRtr r).dram = s.dram := rfl
@[simp] theorem State.setRtr_store (r : Rtr) : (s.setRtr r).store = s.store := rfl
@[simp] theorem State.setRtr_scratch (r : Rtr) : (s.setRtr r).scratch = s.scratch := rfl
@[simp] theorem State.setRtr_cores (r : Rtr) : (s.setRtr r).cores = s.cores := rfl
@[simp] theorem State.setRtr_flocks (r : Rtr) : (s.setRtr r).flocks = s.flocks := rfl
@[simp] theorem State.setRtr_bales (r : Rtr) : (s.setRtr r).bales = s.bales := rfl
@[simp] theorem State.setRtr_bad (r : Rtr) : (s.setRtr r).bad = s.bad := rfl
@[simp] theorem State.setRtr_weak (r : Rtr) : (s.setRtr r).weak = s.weak := rfl
@[simp] theorem State.setRtr_inter (r : Rtr) : (s.setRtr r).inter = s.inter := rfl
@[simp] theorem State.setRtr_stks (r : Rtr) : (s.setRtr r).stks = s.stks := rfl
@[simp] theorem State.setRtr_fold (r : Rtr) : (s.setRtr r).fold = s.fold := rfl
@[simp] theorem State.setRtr_trk (r : Rtr) : (s.setRtr r).trk = s.trk := rfl
@[simp] theorem State.setRtr_ideStop (r : Rtr) : (s.setRtr r).ideStop = s.ideStop := rfl
@[simp] theorem State.setRtr_ideKeys (r : Rtr) : (s.setRtr r).ideKeys = s.ideKeys := rfl
@[simp] theorem State.setRtr_snoops (r : Rtr) : (s.setRtr r).snoops = s.snoops := rfl
@[simp] theorem State.setRtr_ni (r : Rtr) : (s.setRtr r).ni = s.ni := rfl
@[simp] theorem State.setRtr_far (r : Rtr) : (s.setRtr r).far = s.far := rfl
@[simp] theorem State.setRtr_peat (r : Rtr) : (s.setRtr r).peat = s.peat := rfl
@[simp] theorem State.setRtr_pserve (r : Rtr) : (s.setRtr r).pserve = s.pserve := rfl
@[simp] theorem State.setRtr_queues (r : Rtr) : (s.setRtr r).queues = s.queues := rfl
@[simp] theorem State.setRtr_kiln (r : Rtr) : (s.setRtr r).kiln = s.kiln := rfl
@[simp] theorem State.setRtr_policy (r : Rtr) : (s.setRtr r).policy = s.policy := rfl
@[simp] theorem State.setRtr_eid (r : Rtr) : (s.setRtr r).eid = s.eid := rfl
@[simp] theorem State.setRtr_muster (r : Rtr) : (s.setRtr r).muster = s.muster := rfl
@[simp] theorem State.setRtr_shadow (r : Rtr) : (s.setRtr r).shadow = s.shadow := rfl
@[simp] theorem State.setRtr_ports (r : Rtr) : (s.setRtr r).ports = s.ports := rfl
@[simp] theorem State.setRtr_therm (r : Rtr) : (s.setRtr r).therm = s.therm := rfl
@[simp] theorem State.setRtr_pads (r : Rtr) : (s.setRtr r).pads = s.pads := rfl
@[simp] theorem State.setRtr_fw (r : Rtr) : (s.setRtr r).fw = s.fw := rfl
@[simp] theorem State.setRtr_conns (r : Rtr) : (s.setRtr r).conns = s.conns := rfl
@[simp] theorem State.setRtr_range (r : Rtr) : (s.setRtr r).range = s.range := rfl
@[simp] theorem State.setRtr_rst (r : Rtr) : (s.setRtr r).rst = s.rst := rfl
@[simp] theorem State.setRtr_gen (r : Rtr) : (s.setRtr r).gen = s.gen := rfl
@[simp] theorem State.setRtr_returns (r : Rtr) : (s.setRtr r).returns = s.returns := rfl
@[simp] theorem State.setRtr_folding (r : Rtr) : (s.setRtr r).folding = s.folding := rfl
@[simp] theorem State.setRtr_nor (r : Rtr) : (s.setRtr r).nor = s.nor := rfl
@[simp] theorem State.setRtr_evt (r : Rtr) : (s.setRtr r).evt = s.evt := rfl
@[simp] theorem State.setRtr_eseq (r : Rtr) : (s.setRtr r).eseq = s.eseq := rfl
@[simp] theorem State.setRtr_evtRecv (r : Rtr) : (s.setRtr r).evtRecv = s.evtRecv := rfl
@[simp] theorem State.setRtr_fresh (r : Rtr) : (s.setRtr r).fresh = s.fresh := rfl
@[simp] theorem State.setRtr_out (r : Rtr) : (s.setRtr r).out = s.out := rfl
@[simp] theorem State.setRtr_pending (r : Rtr) : (s.setRtr r).pending = s.pending := rfl

@[simp] theorem State.setQueue_regs (slice q : Nat) (ps : List Packet) : (s.setQueue slice q ps).regs = s.regs := rfl
@[simp] theorem State.setQueue_dram (slice q : Nat) (ps : List Packet) : (s.setQueue slice q ps).dram = s.dram := rfl
@[simp] theorem State.setQueue_store (slice q : Nat) (ps : List Packet) : (s.setQueue slice q ps).store = s.store := rfl
@[simp] theorem State.setQueue_scratch (slice q : Nat) (ps : List Packet) : (s.setQueue slice q ps).scratch = s.scratch := rfl
@[simp] theorem State.setQueue_cores (slice q : Nat) (ps : List Packet) : (s.setQueue slice q ps).cores = s.cores := rfl
@[simp] theorem State.setQueue_flocks (slice q : Nat) (ps : List Packet) : (s.setQueue slice q ps).flocks = s.flocks := rfl
@[simp] theorem State.setQueue_bales (slice q : Nat) (ps : List Packet) : (s.setQueue slice q ps).bales = s.bales := rfl
@[simp] theorem State.setQueue_bad (slice q : Nat) (ps : List Packet) : (s.setQueue slice q ps).bad = s.bad := rfl
@[simp] theorem State.setQueue_weak (slice q : Nat) (ps : List Packet) : (s.setQueue slice q ps).weak = s.weak := rfl
@[simp] theorem State.setQueue_inter (slice q : Nat) (ps : List Packet) : (s.setQueue slice q ps).inter = s.inter := rfl
@[simp] theorem State.setQueue_stks (slice q : Nat) (ps : List Packet) : (s.setQueue slice q ps).stks = s.stks := rfl
@[simp] theorem State.setQueue_fold (slice q : Nat) (ps : List Packet) : (s.setQueue slice q ps).fold = s.fold := rfl
@[simp] theorem State.setQueue_trk (slice q : Nat) (ps : List Packet) : (s.setQueue slice q ps).trk = s.trk := rfl
@[simp] theorem State.setQueue_ideStop (slice q : Nat) (ps : List Packet) : (s.setQueue slice q ps).ideStop = s.ideStop := rfl
@[simp] theorem State.setQueue_ideKeys (slice q : Nat) (ps : List Packet) : (s.setQueue slice q ps).ideKeys = s.ideKeys := rfl
@[simp] theorem State.setQueue_snoops (slice q : Nat) (ps : List Packet) : (s.setQueue slice q ps).snoops = s.snoops := rfl
@[simp] theorem State.setQueue_ni (slice q : Nat) (ps : List Packet) : (s.setQueue slice q ps).ni = s.ni := rfl
@[simp] theorem State.setQueue_far (slice q : Nat) (ps : List Packet) : (s.setQueue slice q ps).far = s.far := rfl
@[simp] theorem State.setQueue_peat (slice q : Nat) (ps : List Packet) : (s.setQueue slice q ps).peat = s.peat := rfl
@[simp] theorem State.setQueue_pserve (slice q : Nat) (ps : List Packet) : (s.setQueue slice q ps).pserve = s.pserve := rfl
@[simp] theorem State.setQueue_queues (slice q : Nat) (ps : List Packet) : (s.setQueue slice q ps).queues = s.queues := rfl
@[simp] theorem State.setQueue_kiln (slice q : Nat) (ps : List Packet) : (s.setQueue slice q ps).kiln = s.kiln := rfl
@[simp] theorem State.setQueue_policy (slice q : Nat) (ps : List Packet) : (s.setQueue slice q ps).policy = s.policy := rfl
@[simp] theorem State.setQueue_eid (slice q : Nat) (ps : List Packet) : (s.setQueue slice q ps).eid = s.eid := rfl
@[simp] theorem State.setQueue_muster (slice q : Nat) (ps : List Packet) : (s.setQueue slice q ps).muster = s.muster := rfl
@[simp] theorem State.setQueue_shadow (slice q : Nat) (ps : List Packet) : (s.setQueue slice q ps).shadow = s.shadow := rfl
@[simp] theorem State.setQueue_ports (slice q : Nat) (ps : List Packet) : (s.setQueue slice q ps).ports = s.ports := rfl
@[simp] theorem State.setQueue_therm (slice q : Nat) (ps : List Packet) : (s.setQueue slice q ps).therm = s.therm := rfl
@[simp] theorem State.setQueue_pads (slice q : Nat) (ps : List Packet) : (s.setQueue slice q ps).pads = s.pads := rfl
@[simp] theorem State.setQueue_fw (slice q : Nat) (ps : List Packet) : (s.setQueue slice q ps).fw = s.fw := rfl
@[simp] theorem State.setQueue_conns (slice q : Nat) (ps : List Packet) : (s.setQueue slice q ps).conns = s.conns := rfl
@[simp] theorem State.setQueue_range (slice q : Nat) (ps : List Packet) : (s.setQueue slice q ps).range = s.range := rfl
@[simp] theorem State.setQueue_rst (slice q : Nat) (ps : List Packet) : (s.setQueue slice q ps).rst = s.rst := rfl
@[simp] theorem State.setQueue_gen (slice q : Nat) (ps : List Packet) : (s.setQueue slice q ps).gen = s.gen := rfl
@[simp] theorem State.setQueue_returns (slice q : Nat) (ps : List Packet) : (s.setQueue slice q ps).returns = s.returns := rfl
@[simp] theorem State.setQueue_folding (slice q : Nat) (ps : List Packet) : (s.setQueue slice q ps).folding = s.folding := rfl
@[simp] theorem State.setQueue_nor (slice q : Nat) (ps : List Packet) : (s.setQueue slice q ps).nor = s.nor := rfl
@[simp] theorem State.setQueue_evt (slice q : Nat) (ps : List Packet) : (s.setQueue slice q ps).evt = s.evt := rfl
@[simp] theorem State.setQueue_eseq (slice q : Nat) (ps : List Packet) : (s.setQueue slice q ps).eseq = s.eseq := rfl
@[simp] theorem State.setQueue_evtRecv (slice q : Nat) (ps : List Packet) : (s.setQueue slice q ps).evtRecv = s.evtRecv := rfl
@[simp] theorem State.setQueue_fresh (slice q : Nat) (ps : List Packet) : (s.setQueue slice q ps).fresh = s.fresh := rfl
@[simp] theorem State.setQueue_out (slice q : Nat) (ps : List Packet) : (s.setQueue slice q ps).out = s.out := rfl
@[simp] theorem State.setQueue_pending (slice q : Nat) (ps : List Packet) : (s.setQueue slice q ps).pending = s.pending := rfl

@[simp] theorem State.setFar_regs (xs : List FarReq) : (s.setFar xs).regs = s.regs := rfl
@[simp] theorem State.setFar_dram (xs : List FarReq) : (s.setFar xs).dram = s.dram := rfl
@[simp] theorem State.setFar_store (xs : List FarReq) : (s.setFar xs).store = s.store := rfl
@[simp] theorem State.setFar_scratch (xs : List FarReq) : (s.setFar xs).scratch = s.scratch := rfl
@[simp] theorem State.setFar_cores (xs : List FarReq) : (s.setFar xs).cores = s.cores := rfl
@[simp] theorem State.setFar_flocks (xs : List FarReq) : (s.setFar xs).flocks = s.flocks := rfl
@[simp] theorem State.setFar_bales (xs : List FarReq) : (s.setFar xs).bales = s.bales := rfl
@[simp] theorem State.setFar_bad (xs : List FarReq) : (s.setFar xs).bad = s.bad := rfl
@[simp] theorem State.setFar_weak (xs : List FarReq) : (s.setFar xs).weak = s.weak := rfl
@[simp] theorem State.setFar_inter (xs : List FarReq) : (s.setFar xs).inter = s.inter := rfl
@[simp] theorem State.setFar_stks (xs : List FarReq) : (s.setFar xs).stks = s.stks := rfl
@[simp] theorem State.setFar_fold (xs : List FarReq) : (s.setFar xs).fold = s.fold := rfl
@[simp] theorem State.setFar_trk (xs : List FarReq) : (s.setFar xs).trk = s.trk := rfl
@[simp] theorem State.setFar_ideStop (xs : List FarReq) : (s.setFar xs).ideStop = s.ideStop := rfl
@[simp] theorem State.setFar_ideKeys (xs : List FarReq) : (s.setFar xs).ideKeys = s.ideKeys := rfl
@[simp] theorem State.setFar_snoops (xs : List FarReq) : (s.setFar xs).snoops = s.snoops := rfl
@[simp] theorem State.setFar_ni (xs : List FarReq) : (s.setFar xs).ni = s.ni := rfl
@[simp] theorem State.setFar_rtr (xs : List FarReq) : (s.setFar xs).rtr = s.rtr := rfl
@[simp] theorem State.setFar_peat (xs : List FarReq) : (s.setFar xs).peat = s.peat := rfl
@[simp] theorem State.setFar_pserve (xs : List FarReq) : (s.setFar xs).pserve = s.pserve := rfl
@[simp] theorem State.setFar_queues (xs : List FarReq) : (s.setFar xs).queues = s.queues := rfl
@[simp] theorem State.setFar_kiln (xs : List FarReq) : (s.setFar xs).kiln = s.kiln := rfl
@[simp] theorem State.setFar_policy (xs : List FarReq) : (s.setFar xs).policy = s.policy := rfl
@[simp] theorem State.setFar_eid (xs : List FarReq) : (s.setFar xs).eid = s.eid := rfl
@[simp] theorem State.setFar_muster (xs : List FarReq) : (s.setFar xs).muster = s.muster := rfl
@[simp] theorem State.setFar_shadow (xs : List FarReq) : (s.setFar xs).shadow = s.shadow := rfl
@[simp] theorem State.setFar_ports (xs : List FarReq) : (s.setFar xs).ports = s.ports := rfl
@[simp] theorem State.setFar_therm (xs : List FarReq) : (s.setFar xs).therm = s.therm := rfl
@[simp] theorem State.setFar_pads (xs : List FarReq) : (s.setFar xs).pads = s.pads := rfl
@[simp] theorem State.setFar_fw (xs : List FarReq) : (s.setFar xs).fw = s.fw := rfl
@[simp] theorem State.setFar_conns (xs : List FarReq) : (s.setFar xs).conns = s.conns := rfl
@[simp] theorem State.setFar_range (xs : List FarReq) : (s.setFar xs).range = s.range := rfl
@[simp] theorem State.setFar_rst (xs : List FarReq) : (s.setFar xs).rst = s.rst := rfl
@[simp] theorem State.setFar_gen (xs : List FarReq) : (s.setFar xs).gen = s.gen := rfl
@[simp] theorem State.setFar_returns (xs : List FarReq) : (s.setFar xs).returns = s.returns := rfl
@[simp] theorem State.setFar_folding (xs : List FarReq) : (s.setFar xs).folding = s.folding := rfl
@[simp] theorem State.setFar_nor (xs : List FarReq) : (s.setFar xs).nor = s.nor := rfl
@[simp] theorem State.setFar_evt (xs : List FarReq) : (s.setFar xs).evt = s.evt := rfl
@[simp] theorem State.setFar_eseq (xs : List FarReq) : (s.setFar xs).eseq = s.eseq := rfl
@[simp] theorem State.setFar_evtRecv (xs : List FarReq) : (s.setFar xs).evtRecv = s.evtRecv := rfl
@[simp] theorem State.setFar_fresh (xs : List FarReq) : (s.setFar xs).fresh = s.fresh := rfl
@[simp] theorem State.setFar_out (xs : List FarReq) : (s.setFar xs).out = s.out := rfl
@[simp] theorem State.setFar_pending (xs : List FarReq) : (s.setFar xs).pending = s.pending := rfl

@[simp] theorem State.setPeat_regs (js : List PeatJob) : (s.setPeat js).regs = s.regs := rfl
@[simp] theorem State.setPeat_dram (js : List PeatJob) : (s.setPeat js).dram = s.dram := rfl
@[simp] theorem State.setPeat_store (js : List PeatJob) : (s.setPeat js).store = s.store := rfl
@[simp] theorem State.setPeat_scratch (js : List PeatJob) : (s.setPeat js).scratch = s.scratch := rfl
@[simp] theorem State.setPeat_cores (js : List PeatJob) : (s.setPeat js).cores = s.cores := rfl
@[simp] theorem State.setPeat_flocks (js : List PeatJob) : (s.setPeat js).flocks = s.flocks := rfl
@[simp] theorem State.setPeat_bales (js : List PeatJob) : (s.setPeat js).bales = s.bales := rfl
@[simp] theorem State.setPeat_bad (js : List PeatJob) : (s.setPeat js).bad = s.bad := rfl
@[simp] theorem State.setPeat_weak (js : List PeatJob) : (s.setPeat js).weak = s.weak := rfl
@[simp] theorem State.setPeat_inter (js : List PeatJob) : (s.setPeat js).inter = s.inter := rfl
@[simp] theorem State.setPeat_stks (js : List PeatJob) : (s.setPeat js).stks = s.stks := rfl
@[simp] theorem State.setPeat_fold (js : List PeatJob) : (s.setPeat js).fold = s.fold := rfl
@[simp] theorem State.setPeat_trk (js : List PeatJob) : (s.setPeat js).trk = s.trk := rfl
@[simp] theorem State.setPeat_ideStop (js : List PeatJob) : (s.setPeat js).ideStop = s.ideStop := rfl
@[simp] theorem State.setPeat_ideKeys (js : List PeatJob) : (s.setPeat js).ideKeys = s.ideKeys := rfl
@[simp] theorem State.setPeat_snoops (js : List PeatJob) : (s.setPeat js).snoops = s.snoops := rfl
@[simp] theorem State.setPeat_ni (js : List PeatJob) : (s.setPeat js).ni = s.ni := rfl
@[simp] theorem State.setPeat_rtr (js : List PeatJob) : (s.setPeat js).rtr = s.rtr := rfl
@[simp] theorem State.setPeat_far (js : List PeatJob) : (s.setPeat js).far = s.far := rfl
@[simp] theorem State.setPeat_pserve (js : List PeatJob) : (s.setPeat js).pserve = s.pserve := rfl
@[simp] theorem State.setPeat_queues (js : List PeatJob) : (s.setPeat js).queues = s.queues := rfl
@[simp] theorem State.setPeat_kiln (js : List PeatJob) : (s.setPeat js).kiln = s.kiln := rfl
@[simp] theorem State.setPeat_policy (js : List PeatJob) : (s.setPeat js).policy = s.policy := rfl
@[simp] theorem State.setPeat_eid (js : List PeatJob) : (s.setPeat js).eid = s.eid := rfl
@[simp] theorem State.setPeat_muster (js : List PeatJob) : (s.setPeat js).muster = s.muster := rfl
@[simp] theorem State.setPeat_shadow (js : List PeatJob) : (s.setPeat js).shadow = s.shadow := rfl
@[simp] theorem State.setPeat_ports (js : List PeatJob) : (s.setPeat js).ports = s.ports := rfl
@[simp] theorem State.setPeat_therm (js : List PeatJob) : (s.setPeat js).therm = s.therm := rfl
@[simp] theorem State.setPeat_pads (js : List PeatJob) : (s.setPeat js).pads = s.pads := rfl
@[simp] theorem State.setPeat_fw (js : List PeatJob) : (s.setPeat js).fw = s.fw := rfl
@[simp] theorem State.setPeat_conns (js : List PeatJob) : (s.setPeat js).conns = s.conns := rfl
@[simp] theorem State.setPeat_range (js : List PeatJob) : (s.setPeat js).range = s.range := rfl
@[simp] theorem State.setPeat_rst (js : List PeatJob) : (s.setPeat js).rst = s.rst := rfl
@[simp] theorem State.setPeat_gen (js : List PeatJob) : (s.setPeat js).gen = s.gen := rfl
@[simp] theorem State.setPeat_returns (js : List PeatJob) : (s.setPeat js).returns = s.returns := rfl
@[simp] theorem State.setPeat_folding (js : List PeatJob) : (s.setPeat js).folding = s.folding := rfl
@[simp] theorem State.setPeat_nor (js : List PeatJob) : (s.setPeat js).nor = s.nor := rfl
@[simp] theorem State.setPeat_evt (js : List PeatJob) : (s.setPeat js).evt = s.evt := rfl
@[simp] theorem State.setPeat_eseq (js : List PeatJob) : (s.setPeat js).eseq = s.eseq := rfl
@[simp] theorem State.setPeat_evtRecv (js : List PeatJob) : (s.setPeat js).evtRecv = s.evtRecv := rfl
@[simp] theorem State.setPeat_fresh (js : List PeatJob) : (s.setPeat js).fresh = s.fresh := rfl
@[simp] theorem State.setPeat_out (js : List PeatJob) : (s.setPeat js).out = s.out := rfl
@[simp] theorem State.setPeat_pending (js : List PeatJob) : (s.setPeat js).pending = s.pending := rfl

@[simp] theorem State.setServe_regs (i : Nat) (u : PeatServe) : (s.setServe i u).regs = s.regs := rfl
@[simp] theorem State.setServe_dram (i : Nat) (u : PeatServe) : (s.setServe i u).dram = s.dram := rfl
@[simp] theorem State.setServe_store (i : Nat) (u : PeatServe) : (s.setServe i u).store = s.store := rfl
@[simp] theorem State.setServe_scratch (i : Nat) (u : PeatServe) : (s.setServe i u).scratch = s.scratch := rfl
@[simp] theorem State.setServe_cores (i : Nat) (u : PeatServe) : (s.setServe i u).cores = s.cores := rfl
@[simp] theorem State.setServe_flocks (i : Nat) (u : PeatServe) : (s.setServe i u).flocks = s.flocks := rfl
@[simp] theorem State.setServe_bales (i : Nat) (u : PeatServe) : (s.setServe i u).bales = s.bales := rfl
@[simp] theorem State.setServe_bad (i : Nat) (u : PeatServe) : (s.setServe i u).bad = s.bad := rfl
@[simp] theorem State.setServe_weak (i : Nat) (u : PeatServe) : (s.setServe i u).weak = s.weak := rfl
@[simp] theorem State.setServe_inter (i : Nat) (u : PeatServe) : (s.setServe i u).inter = s.inter := rfl
@[simp] theorem State.setServe_stks (i : Nat) (u : PeatServe) : (s.setServe i u).stks = s.stks := rfl
@[simp] theorem State.setServe_fold (i : Nat) (u : PeatServe) : (s.setServe i u).fold = s.fold := rfl
@[simp] theorem State.setServe_trk (i : Nat) (u : PeatServe) : (s.setServe i u).trk = s.trk := rfl
@[simp] theorem State.setServe_ideStop (i : Nat) (u : PeatServe) : (s.setServe i u).ideStop = s.ideStop := rfl
@[simp] theorem State.setServe_ideKeys (i : Nat) (u : PeatServe) : (s.setServe i u).ideKeys = s.ideKeys := rfl
@[simp] theorem State.setServe_snoops (i : Nat) (u : PeatServe) : (s.setServe i u).snoops = s.snoops := rfl
@[simp] theorem State.setServe_ni (i : Nat) (u : PeatServe) : (s.setServe i u).ni = s.ni := rfl
@[simp] theorem State.setServe_rtr (i : Nat) (u : PeatServe) : (s.setServe i u).rtr = s.rtr := rfl
@[simp] theorem State.setServe_far (i : Nat) (u : PeatServe) : (s.setServe i u).far = s.far := rfl
@[simp] theorem State.setServe_peat (i : Nat) (u : PeatServe) : (s.setServe i u).peat = s.peat := rfl
@[simp] theorem State.setServe_queues (i : Nat) (u : PeatServe) : (s.setServe i u).queues = s.queues := rfl
@[simp] theorem State.setServe_kiln (i : Nat) (u : PeatServe) : (s.setServe i u).kiln = s.kiln := rfl
@[simp] theorem State.setServe_policy (i : Nat) (u : PeatServe) : (s.setServe i u).policy = s.policy := rfl
@[simp] theorem State.setServe_eid (i : Nat) (u : PeatServe) : (s.setServe i u).eid = s.eid := rfl
@[simp] theorem State.setServe_muster (i : Nat) (u : PeatServe) : (s.setServe i u).muster = s.muster := rfl
@[simp] theorem State.setServe_shadow (i : Nat) (u : PeatServe) : (s.setServe i u).shadow = s.shadow := rfl
@[simp] theorem State.setServe_ports (i : Nat) (u : PeatServe) : (s.setServe i u).ports = s.ports := rfl
@[simp] theorem State.setServe_therm (i : Nat) (u : PeatServe) : (s.setServe i u).therm = s.therm := rfl
@[simp] theorem State.setServe_pads (i : Nat) (u : PeatServe) : (s.setServe i u).pads = s.pads := rfl
@[simp] theorem State.setServe_fw (i : Nat) (u : PeatServe) : (s.setServe i u).fw = s.fw := rfl
@[simp] theorem State.setServe_conns (i : Nat) (u : PeatServe) : (s.setServe i u).conns = s.conns := rfl
@[simp] theorem State.setServe_range (i : Nat) (u : PeatServe) : (s.setServe i u).range = s.range := rfl
@[simp] theorem State.setServe_rst (i : Nat) (u : PeatServe) : (s.setServe i u).rst = s.rst := rfl
@[simp] theorem State.setServe_gen (i : Nat) (u : PeatServe) : (s.setServe i u).gen = s.gen := rfl
@[simp] theorem State.setServe_returns (i : Nat) (u : PeatServe) : (s.setServe i u).returns = s.returns := rfl
@[simp] theorem State.setServe_folding (i : Nat) (u : PeatServe) : (s.setServe i u).folding = s.folding := rfl
@[simp] theorem State.setServe_nor (i : Nat) (u : PeatServe) : (s.setServe i u).nor = s.nor := rfl
@[simp] theorem State.setServe_evt (i : Nat) (u : PeatServe) : (s.setServe i u).evt = s.evt := rfl
@[simp] theorem State.setServe_eseq (i : Nat) (u : PeatServe) : (s.setServe i u).eseq = s.eseq := rfl
@[simp] theorem State.setServe_evtRecv (i : Nat) (u : PeatServe) : (s.setServe i u).evtRecv = s.evtRecv := rfl
@[simp] theorem State.setServe_fresh (i : Nat) (u : PeatServe) : (s.setServe i u).fresh = s.fresh := rfl
@[simp] theorem State.setServe_out (i : Nat) (u : PeatServe) : (s.setServe i u).out = s.out := rfl
@[simp] theorem State.setServe_pending (i : Nat) (u : PeatServe) : (s.setServe i u).pending = s.pending := rfl

@[simp] theorem State.setFw_regs (w : Firmware) : (s.setFw w).regs = s.regs := rfl
@[simp] theorem State.setFw_dram (w : Firmware) : (s.setFw w).dram = s.dram := rfl
@[simp] theorem State.setFw_store (w : Firmware) : (s.setFw w).store = s.store := rfl
@[simp] theorem State.setFw_scratch (w : Firmware) : (s.setFw w).scratch = s.scratch := rfl
@[simp] theorem State.setFw_cores (w : Firmware) : (s.setFw w).cores = s.cores := rfl
@[simp] theorem State.setFw_flocks (w : Firmware) : (s.setFw w).flocks = s.flocks := rfl
@[simp] theorem State.setFw_bales (w : Firmware) : (s.setFw w).bales = s.bales := rfl
@[simp] theorem State.setFw_bad (w : Firmware) : (s.setFw w).bad = s.bad := rfl
@[simp] theorem State.setFw_weak (w : Firmware) : (s.setFw w).weak = s.weak := rfl
@[simp] theorem State.setFw_inter (w : Firmware) : (s.setFw w).inter = s.inter := rfl
@[simp] theorem State.setFw_stks (w : Firmware) : (s.setFw w).stks = s.stks := rfl
@[simp] theorem State.setFw_fold (w : Firmware) : (s.setFw w).fold = s.fold := rfl
@[simp] theorem State.setFw_trk (w : Firmware) : (s.setFw w).trk = s.trk := rfl
@[simp] theorem State.setFw_ideStop (w : Firmware) : (s.setFw w).ideStop = s.ideStop := rfl
@[simp] theorem State.setFw_ideKeys (w : Firmware) : (s.setFw w).ideKeys = s.ideKeys := rfl
@[simp] theorem State.setFw_snoops (w : Firmware) : (s.setFw w).snoops = s.snoops := rfl
@[simp] theorem State.setFw_ni (w : Firmware) : (s.setFw w).ni = s.ni := rfl
@[simp] theorem State.setFw_rtr (w : Firmware) : (s.setFw w).rtr = s.rtr := rfl
@[simp] theorem State.setFw_far (w : Firmware) : (s.setFw w).far = s.far := rfl
@[simp] theorem State.setFw_peat (w : Firmware) : (s.setFw w).peat = s.peat := rfl
@[simp] theorem State.setFw_pserve (w : Firmware) : (s.setFw w).pserve = s.pserve := rfl
@[simp] theorem State.setFw_queues (w : Firmware) : (s.setFw w).queues = s.queues := rfl
@[simp] theorem State.setFw_kiln (w : Firmware) : (s.setFw w).kiln = s.kiln := rfl
@[simp] theorem State.setFw_policy (w : Firmware) : (s.setFw w).policy = s.policy := rfl
@[simp] theorem State.setFw_eid (w : Firmware) : (s.setFw w).eid = s.eid := rfl
@[simp] theorem State.setFw_muster (w : Firmware) : (s.setFw w).muster = s.muster := rfl
@[simp] theorem State.setFw_shadow (w : Firmware) : (s.setFw w).shadow = s.shadow := rfl
@[simp] theorem State.setFw_ports (w : Firmware) : (s.setFw w).ports = s.ports := rfl
@[simp] theorem State.setFw_therm (w : Firmware) : (s.setFw w).therm = s.therm := rfl
@[simp] theorem State.setFw_pads (w : Firmware) : (s.setFw w).pads = s.pads := rfl
@[simp] theorem State.setFw_conns (w : Firmware) : (s.setFw w).conns = s.conns := rfl
@[simp] theorem State.setFw_range (w : Firmware) : (s.setFw w).range = s.range := rfl
@[simp] theorem State.setFw_rst (w : Firmware) : (s.setFw w).rst = s.rst := rfl
@[simp] theorem State.setFw_gen (w : Firmware) : (s.setFw w).gen = s.gen := rfl
@[simp] theorem State.setFw_returns (w : Firmware) : (s.setFw w).returns = s.returns := rfl
@[simp] theorem State.setFw_folding (w : Firmware) : (s.setFw w).folding = s.folding := rfl
@[simp] theorem State.setFw_nor (w : Firmware) : (s.setFw w).nor = s.nor := rfl
@[simp] theorem State.setFw_evt (w : Firmware) : (s.setFw w).evt = s.evt := rfl
@[simp] theorem State.setFw_eseq (w : Firmware) : (s.setFw w).eseq = s.eseq := rfl
@[simp] theorem State.setFw_evtRecv (w : Firmware) : (s.setFw w).evtRecv = s.evtRecv := rfl
@[simp] theorem State.setFw_fresh (w : Firmware) : (s.setFw w).fresh = s.fresh := rfl
@[simp] theorem State.setFw_out (w : Firmware) : (s.setFw w).out = s.out := rfl
@[simp] theorem State.setFw_pending (w : Firmware) : (s.setFw w).pending = s.pending := rfl

@[simp] theorem State.setQue_regs (q : Nat) (k : CmdQueue) : (s.setQue q k).regs = s.regs := rfl
@[simp] theorem State.setQue_dram (q : Nat) (k : CmdQueue) : (s.setQue q k).dram = s.dram := rfl
@[simp] theorem State.setQue_store (q : Nat) (k : CmdQueue) : (s.setQue q k).store = s.store := rfl
@[simp] theorem State.setQue_scratch (q : Nat) (k : CmdQueue) : (s.setQue q k).scratch = s.scratch := rfl
@[simp] theorem State.setQue_cores (q : Nat) (k : CmdQueue) : (s.setQue q k).cores = s.cores := rfl
@[simp] theorem State.setQue_flocks (q : Nat) (k : CmdQueue) : (s.setQue q k).flocks = s.flocks := rfl
@[simp] theorem State.setQue_bales (q : Nat) (k : CmdQueue) : (s.setQue q k).bales = s.bales := rfl
@[simp] theorem State.setQue_bad (q : Nat) (k : CmdQueue) : (s.setQue q k).bad = s.bad := rfl
@[simp] theorem State.setQue_weak (q : Nat) (k : CmdQueue) : (s.setQue q k).weak = s.weak := rfl
@[simp] theorem State.setQue_inter (q : Nat) (k : CmdQueue) : (s.setQue q k).inter = s.inter := rfl
@[simp] theorem State.setQue_stks (q : Nat) (k : CmdQueue) : (s.setQue q k).stks = s.stks := rfl
@[simp] theorem State.setQue_fold (q : Nat) (k : CmdQueue) : (s.setQue q k).fold = s.fold := rfl
@[simp] theorem State.setQue_trk (q : Nat) (k : CmdQueue) : (s.setQue q k).trk = s.trk := rfl
@[simp] theorem State.setQue_ideStop (q : Nat) (k : CmdQueue) : (s.setQue q k).ideStop = s.ideStop := rfl
@[simp] theorem State.setQue_ideKeys (q : Nat) (k : CmdQueue) : (s.setQue q k).ideKeys = s.ideKeys := rfl
@[simp] theorem State.setQue_snoops (q : Nat) (k : CmdQueue) : (s.setQue q k).snoops = s.snoops := rfl
@[simp] theorem State.setQue_ni (q : Nat) (k : CmdQueue) : (s.setQue q k).ni = s.ni := rfl
@[simp] theorem State.setQue_rtr (q : Nat) (k : CmdQueue) : (s.setQue q k).rtr = s.rtr := rfl
@[simp] theorem State.setQue_far (q : Nat) (k : CmdQueue) : (s.setQue q k).far = s.far := rfl
@[simp] theorem State.setQue_peat (q : Nat) (k : CmdQueue) : (s.setQue q k).peat = s.peat := rfl
@[simp] theorem State.setQue_pserve (q : Nat) (k : CmdQueue) : (s.setQue q k).pserve = s.pserve := rfl
@[simp] theorem State.setQue_kiln (q : Nat) (k : CmdQueue) : (s.setQue q k).kiln = s.kiln := rfl
@[simp] theorem State.setQue_policy (q : Nat) (k : CmdQueue) : (s.setQue q k).policy = s.policy := rfl
@[simp] theorem State.setQue_eid (q : Nat) (k : CmdQueue) : (s.setQue q k).eid = s.eid := rfl
@[simp] theorem State.setQue_muster (q : Nat) (k : CmdQueue) : (s.setQue q k).muster = s.muster := rfl
@[simp] theorem State.setQue_shadow (q : Nat) (k : CmdQueue) : (s.setQue q k).shadow = s.shadow := rfl
@[simp] theorem State.setQue_ports (q : Nat) (k : CmdQueue) : (s.setQue q k).ports = s.ports := rfl
@[simp] theorem State.setQue_therm (q : Nat) (k : CmdQueue) : (s.setQue q k).therm = s.therm := rfl
@[simp] theorem State.setQue_pads (q : Nat) (k : CmdQueue) : (s.setQue q k).pads = s.pads := rfl
@[simp] theorem State.setQue_fw (q : Nat) (k : CmdQueue) : (s.setQue q k).fw = s.fw := rfl
@[simp] theorem State.setQue_conns (q : Nat) (k : CmdQueue) : (s.setQue q k).conns = s.conns := rfl
@[simp] theorem State.setQue_range (q : Nat) (k : CmdQueue) : (s.setQue q k).range = s.range := rfl
@[simp] theorem State.setQue_rst (q : Nat) (k : CmdQueue) : (s.setQue q k).rst = s.rst := rfl
@[simp] theorem State.setQue_gen (q : Nat) (k : CmdQueue) : (s.setQue q k).gen = s.gen := rfl
@[simp] theorem State.setQue_returns (q : Nat) (k : CmdQueue) : (s.setQue q k).returns = s.returns := rfl
@[simp] theorem State.setQue_folding (q : Nat) (k : CmdQueue) : (s.setQue q k).folding = s.folding := rfl
@[simp] theorem State.setQue_nor (q : Nat) (k : CmdQueue) : (s.setQue q k).nor = s.nor := rfl
@[simp] theorem State.setQue_evt (q : Nat) (k : CmdQueue) : (s.setQue q k).evt = s.evt := rfl
@[simp] theorem State.setQue_eseq (q : Nat) (k : CmdQueue) : (s.setQue q k).eseq = s.eseq := rfl
@[simp] theorem State.setQue_evtRecv (q : Nat) (k : CmdQueue) : (s.setQue q k).evtRecv = s.evtRecv := rfl
@[simp] theorem State.setQue_fresh (q : Nat) (k : CmdQueue) : (s.setQue q k).fresh = s.fresh := rfl
@[simp] theorem State.setQue_out (q : Nat) (k : CmdQueue) : (s.setQue q k).out = s.out := rfl
@[simp] theorem State.setQue_pending (q : Nat) (k : CmdQueue) : (s.setQue q k).pending = s.pending := rfl

@[simp] theorem State.setKiln_regs (k : Kiln) : (s.setKiln k).regs = s.regs := rfl
@[simp] theorem State.setKiln_dram (k : Kiln) : (s.setKiln k).dram = s.dram := rfl
@[simp] theorem State.setKiln_store (k : Kiln) : (s.setKiln k).store = s.store := rfl
@[simp] theorem State.setKiln_scratch (k : Kiln) : (s.setKiln k).scratch = s.scratch := rfl
@[simp] theorem State.setKiln_cores (k : Kiln) : (s.setKiln k).cores = s.cores := rfl
@[simp] theorem State.setKiln_flocks (k : Kiln) : (s.setKiln k).flocks = s.flocks := rfl
@[simp] theorem State.setKiln_bales (k : Kiln) : (s.setKiln k).bales = s.bales := rfl
@[simp] theorem State.setKiln_bad (k : Kiln) : (s.setKiln k).bad = s.bad := rfl
@[simp] theorem State.setKiln_weak (k : Kiln) : (s.setKiln k).weak = s.weak := rfl
@[simp] theorem State.setKiln_inter (k : Kiln) : (s.setKiln k).inter = s.inter := rfl
@[simp] theorem State.setKiln_stks (k : Kiln) : (s.setKiln k).stks = s.stks := rfl
@[simp] theorem State.setKiln_fold (k : Kiln) : (s.setKiln k).fold = s.fold := rfl
@[simp] theorem State.setKiln_trk (k : Kiln) : (s.setKiln k).trk = s.trk := rfl
@[simp] theorem State.setKiln_ideStop (k : Kiln) : (s.setKiln k).ideStop = s.ideStop := rfl
@[simp] theorem State.setKiln_ideKeys (k : Kiln) : (s.setKiln k).ideKeys = s.ideKeys := rfl
@[simp] theorem State.setKiln_snoops (k : Kiln) : (s.setKiln k).snoops = s.snoops := rfl
@[simp] theorem State.setKiln_ni (k : Kiln) : (s.setKiln k).ni = s.ni := rfl
@[simp] theorem State.setKiln_rtr (k : Kiln) : (s.setKiln k).rtr = s.rtr := rfl
@[simp] theorem State.setKiln_far (k : Kiln) : (s.setKiln k).far = s.far := rfl
@[simp] theorem State.setKiln_peat (k : Kiln) : (s.setKiln k).peat = s.peat := rfl
@[simp] theorem State.setKiln_pserve (k : Kiln) : (s.setKiln k).pserve = s.pserve := rfl
@[simp] theorem State.setKiln_queues (k : Kiln) : (s.setKiln k).queues = s.queues := rfl
@[simp] theorem State.setKiln_policy (k : Kiln) : (s.setKiln k).policy = s.policy := rfl
@[simp] theorem State.setKiln_eid (k : Kiln) : (s.setKiln k).eid = s.eid := rfl
@[simp] theorem State.setKiln_muster (k : Kiln) : (s.setKiln k).muster = s.muster := rfl
@[simp] theorem State.setKiln_shadow (k : Kiln) : (s.setKiln k).shadow = s.shadow := rfl
@[simp] theorem State.setKiln_ports (k : Kiln) : (s.setKiln k).ports = s.ports := rfl
@[simp] theorem State.setKiln_therm (k : Kiln) : (s.setKiln k).therm = s.therm := rfl
@[simp] theorem State.setKiln_pads (k : Kiln) : (s.setKiln k).pads = s.pads := rfl
@[simp] theorem State.setKiln_fw (k : Kiln) : (s.setKiln k).fw = s.fw := rfl
@[simp] theorem State.setKiln_conns (k : Kiln) : (s.setKiln k).conns = s.conns := rfl
@[simp] theorem State.setKiln_range (k : Kiln) : (s.setKiln k).range = s.range := rfl
@[simp] theorem State.setKiln_rst (k : Kiln) : (s.setKiln k).rst = s.rst := rfl
@[simp] theorem State.setKiln_gen (k : Kiln) : (s.setKiln k).gen = s.gen := rfl
@[simp] theorem State.setKiln_returns (k : Kiln) : (s.setKiln k).returns = s.returns := rfl
@[simp] theorem State.setKiln_folding (k : Kiln) : (s.setKiln k).folding = s.folding := rfl
@[simp] theorem State.setKiln_nor (k : Kiln) : (s.setKiln k).nor = s.nor := rfl
@[simp] theorem State.setKiln_evt (k : Kiln) : (s.setKiln k).evt = s.evt := rfl
@[simp] theorem State.setKiln_eseq (k : Kiln) : (s.setKiln k).eseq = s.eseq := rfl
@[simp] theorem State.setKiln_evtRecv (k : Kiln) : (s.setKiln k).evtRecv = s.evtRecv := rfl
@[simp] theorem State.setKiln_fresh (k : Kiln) : (s.setKiln k).fresh = s.fresh := rfl
@[simp] theorem State.setKiln_out (k : Kiln) : (s.setKiln k).out = s.out := rfl
@[simp] theorem State.setKiln_pending (k : Kiln) : (s.setKiln k).pending = s.pending := rfl

@[simp] theorem State.setPort_regs (q : Nat) (p : Port) : (s.setPort q p).regs = s.regs := rfl
@[simp] theorem State.setPort_dram (q : Nat) (p : Port) : (s.setPort q p).dram = s.dram := rfl
@[simp] theorem State.setPort_store (q : Nat) (p : Port) : (s.setPort q p).store = s.store := rfl
@[simp] theorem State.setPort_scratch (q : Nat) (p : Port) : (s.setPort q p).scratch = s.scratch := rfl
@[simp] theorem State.setPort_cores (q : Nat) (p : Port) : (s.setPort q p).cores = s.cores := rfl
@[simp] theorem State.setPort_flocks (q : Nat) (p : Port) : (s.setPort q p).flocks = s.flocks := rfl
@[simp] theorem State.setPort_bales (q : Nat) (p : Port) : (s.setPort q p).bales = s.bales := rfl
@[simp] theorem State.setPort_bad (q : Nat) (p : Port) : (s.setPort q p).bad = s.bad := rfl
@[simp] theorem State.setPort_weak (q : Nat) (p : Port) : (s.setPort q p).weak = s.weak := rfl
@[simp] theorem State.setPort_inter (q : Nat) (p : Port) : (s.setPort q p).inter = s.inter := rfl
@[simp] theorem State.setPort_stks (q : Nat) (p : Port) : (s.setPort q p).stks = s.stks := rfl
@[simp] theorem State.setPort_fold (q : Nat) (p : Port) : (s.setPort q p).fold = s.fold := rfl
@[simp] theorem State.setPort_trk (q : Nat) (p : Port) : (s.setPort q p).trk = s.trk := rfl
@[simp] theorem State.setPort_ideStop (q : Nat) (p : Port) : (s.setPort q p).ideStop = s.ideStop := rfl
@[simp] theorem State.setPort_ideKeys (q : Nat) (p : Port) : (s.setPort q p).ideKeys = s.ideKeys := rfl
@[simp] theorem State.setPort_snoops (q : Nat) (p : Port) : (s.setPort q p).snoops = s.snoops := rfl
@[simp] theorem State.setPort_ni (q : Nat) (p : Port) : (s.setPort q p).ni = s.ni := rfl
@[simp] theorem State.setPort_rtr (q : Nat) (p : Port) : (s.setPort q p).rtr = s.rtr := rfl
@[simp] theorem State.setPort_far (q : Nat) (p : Port) : (s.setPort q p).far = s.far := rfl
@[simp] theorem State.setPort_peat (q : Nat) (p : Port) : (s.setPort q p).peat = s.peat := rfl
@[simp] theorem State.setPort_pserve (q : Nat) (p : Port) : (s.setPort q p).pserve = s.pserve := rfl
@[simp] theorem State.setPort_queues (q : Nat) (p : Port) : (s.setPort q p).queues = s.queues := rfl
@[simp] theorem State.setPort_kiln (q : Nat) (p : Port) : (s.setPort q p).kiln = s.kiln := rfl
@[simp] theorem State.setPort_policy (q : Nat) (p : Port) : (s.setPort q p).policy = s.policy := rfl
@[simp] theorem State.setPort_eid (q : Nat) (p : Port) : (s.setPort q p).eid = s.eid := rfl
@[simp] theorem State.setPort_muster (q : Nat) (p : Port) : (s.setPort q p).muster = s.muster := rfl
@[simp] theorem State.setPort_shadow (q : Nat) (p : Port) : (s.setPort q p).shadow = s.shadow := rfl
@[simp] theorem State.setPort_therm (q : Nat) (p : Port) : (s.setPort q p).therm = s.therm := rfl
@[simp] theorem State.setPort_pads (q : Nat) (p : Port) : (s.setPort q p).pads = s.pads := rfl
@[simp] theorem State.setPort_fw (q : Nat) (p : Port) : (s.setPort q p).fw = s.fw := rfl
@[simp] theorem State.setPort_conns (q : Nat) (p : Port) : (s.setPort q p).conns = s.conns := rfl
@[simp] theorem State.setPort_range (q : Nat) (p : Port) : (s.setPort q p).range = s.range := rfl
@[simp] theorem State.setPort_rst (q : Nat) (p : Port) : (s.setPort q p).rst = s.rst := rfl
@[simp] theorem State.setPort_gen (q : Nat) (p : Port) : (s.setPort q p).gen = s.gen := rfl
@[simp] theorem State.setPort_returns (q : Nat) (p : Port) : (s.setPort q p).returns = s.returns := rfl
@[simp] theorem State.setPort_folding (q : Nat) (p : Port) : (s.setPort q p).folding = s.folding := rfl
@[simp] theorem State.setPort_nor (q : Nat) (p : Port) : (s.setPort q p).nor = s.nor := rfl
@[simp] theorem State.setPort_evt (q : Nat) (p : Port) : (s.setPort q p).evt = s.evt := rfl
@[simp] theorem State.setPort_eseq (q : Nat) (p : Port) : (s.setPort q p).eseq = s.eseq := rfl
@[simp] theorem State.setPort_evtRecv (q : Nat) (p : Port) : (s.setPort q p).evtRecv = s.evtRecv := rfl
@[simp] theorem State.setPort_fresh (q : Nat) (p : Port) : (s.setPort q p).fresh = s.fresh := rfl
@[simp] theorem State.setPort_out (q : Nat) (p : Port) : (s.setPort q p).out = s.out := rfl
@[simp] theorem State.setPort_pending (q : Nat) (p : Port) : (s.setPort q p).pending = s.pending := rfl

@[simp] theorem State.modPort_regs (q : Nat) (g : Port → Port) : (s.modPort q g).regs = s.regs := rfl
@[simp] theorem State.modPort_dram (q : Nat) (g : Port → Port) : (s.modPort q g).dram = s.dram := rfl
@[simp] theorem State.modPort_store (q : Nat) (g : Port → Port) : (s.modPort q g).store = s.store := rfl
@[simp] theorem State.modPort_scratch (q : Nat) (g : Port → Port) : (s.modPort q g).scratch = s.scratch := rfl
@[simp] theorem State.modPort_cores (q : Nat) (g : Port → Port) : (s.modPort q g).cores = s.cores := rfl
@[simp] theorem State.modPort_flocks (q : Nat) (g : Port → Port) : (s.modPort q g).flocks = s.flocks := rfl
@[simp] theorem State.modPort_bales (q : Nat) (g : Port → Port) : (s.modPort q g).bales = s.bales := rfl
@[simp] theorem State.modPort_bad (q : Nat) (g : Port → Port) : (s.modPort q g).bad = s.bad := rfl
@[simp] theorem State.modPort_weak (q : Nat) (g : Port → Port) : (s.modPort q g).weak = s.weak := rfl
@[simp] theorem State.modPort_inter (q : Nat) (g : Port → Port) : (s.modPort q g).inter = s.inter := rfl
@[simp] theorem State.modPort_stks (q : Nat) (g : Port → Port) : (s.modPort q g).stks = s.stks := rfl
@[simp] theorem State.modPort_fold (q : Nat) (g : Port → Port) : (s.modPort q g).fold = s.fold := rfl
@[simp] theorem State.modPort_trk (q : Nat) (g : Port → Port) : (s.modPort q g).trk = s.trk := rfl
@[simp] theorem State.modPort_ideStop (q : Nat) (g : Port → Port) : (s.modPort q g).ideStop = s.ideStop := rfl
@[simp] theorem State.modPort_ideKeys (q : Nat) (g : Port → Port) : (s.modPort q g).ideKeys = s.ideKeys := rfl
@[simp] theorem State.modPort_snoops (q : Nat) (g : Port → Port) : (s.modPort q g).snoops = s.snoops := rfl
@[simp] theorem State.modPort_ni (q : Nat) (g : Port → Port) : (s.modPort q g).ni = s.ni := rfl
@[simp] theorem State.modPort_rtr (q : Nat) (g : Port → Port) : (s.modPort q g).rtr = s.rtr := rfl
@[simp] theorem State.modPort_far (q : Nat) (g : Port → Port) : (s.modPort q g).far = s.far := rfl
@[simp] theorem State.modPort_peat (q : Nat) (g : Port → Port) : (s.modPort q g).peat = s.peat := rfl
@[simp] theorem State.modPort_pserve (q : Nat) (g : Port → Port) : (s.modPort q g).pserve = s.pserve := rfl
@[simp] theorem State.modPort_queues (q : Nat) (g : Port → Port) : (s.modPort q g).queues = s.queues := rfl
@[simp] theorem State.modPort_kiln (q : Nat) (g : Port → Port) : (s.modPort q g).kiln = s.kiln := rfl
@[simp] theorem State.modPort_policy (q : Nat) (g : Port → Port) : (s.modPort q g).policy = s.policy := rfl
@[simp] theorem State.modPort_eid (q : Nat) (g : Port → Port) : (s.modPort q g).eid = s.eid := rfl
@[simp] theorem State.modPort_muster (q : Nat) (g : Port → Port) : (s.modPort q g).muster = s.muster := rfl
@[simp] theorem State.modPort_shadow (q : Nat) (g : Port → Port) : (s.modPort q g).shadow = s.shadow := rfl
@[simp] theorem State.modPort_therm (q : Nat) (g : Port → Port) : (s.modPort q g).therm = s.therm := rfl
@[simp] theorem State.modPort_pads (q : Nat) (g : Port → Port) : (s.modPort q g).pads = s.pads := rfl
@[simp] theorem State.modPort_fw (q : Nat) (g : Port → Port) : (s.modPort q g).fw = s.fw := rfl
@[simp] theorem State.modPort_conns (q : Nat) (g : Port → Port) : (s.modPort q g).conns = s.conns := rfl
@[simp] theorem State.modPort_range (q : Nat) (g : Port → Port) : (s.modPort q g).range = s.range := rfl
@[simp] theorem State.modPort_rst (q : Nat) (g : Port → Port) : (s.modPort q g).rst = s.rst := rfl
@[simp] theorem State.modPort_gen (q : Nat) (g : Port → Port) : (s.modPort q g).gen = s.gen := rfl
@[simp] theorem State.modPort_returns (q : Nat) (g : Port → Port) : (s.modPort q g).returns = s.returns := rfl
@[simp] theorem State.modPort_folding (q : Nat) (g : Port → Port) : (s.modPort q g).folding = s.folding := rfl
@[simp] theorem State.modPort_nor (q : Nat) (g : Port → Port) : (s.modPort q g).nor = s.nor := rfl
@[simp] theorem State.modPort_evt (q : Nat) (g : Port → Port) : (s.modPort q g).evt = s.evt := rfl
@[simp] theorem State.modPort_eseq (q : Nat) (g : Port → Port) : (s.modPort q g).eseq = s.eseq := rfl
@[simp] theorem State.modPort_evtRecv (q : Nat) (g : Port → Port) : (s.modPort q g).evtRecv = s.evtRecv := rfl
@[simp] theorem State.modPort_fresh (q : Nat) (g : Port → Port) : (s.modPort q g).fresh = s.fresh := rfl
@[simp] theorem State.modPort_out (q : Nat) (g : Port → Port) : (s.modPort q g).out = s.out := rfl
@[simp] theorem State.modPort_pending (q : Nat) (g : Port → Port) : (s.modPort q g).pending = s.pending := rfl

@[simp] theorem State.setMuster_regs (m : Muster) : (s.setMuster m).regs = s.regs := rfl
@[simp] theorem State.setMuster_dram (m : Muster) : (s.setMuster m).dram = s.dram := rfl
@[simp] theorem State.setMuster_store (m : Muster) : (s.setMuster m).store = s.store := rfl
@[simp] theorem State.setMuster_scratch (m : Muster) : (s.setMuster m).scratch = s.scratch := rfl
@[simp] theorem State.setMuster_cores (m : Muster) : (s.setMuster m).cores = s.cores := rfl
@[simp] theorem State.setMuster_flocks (m : Muster) : (s.setMuster m).flocks = s.flocks := rfl
@[simp] theorem State.setMuster_bales (m : Muster) : (s.setMuster m).bales = s.bales := rfl
@[simp] theorem State.setMuster_bad (m : Muster) : (s.setMuster m).bad = s.bad := rfl
@[simp] theorem State.setMuster_weak (m : Muster) : (s.setMuster m).weak = s.weak := rfl
@[simp] theorem State.setMuster_inter (m : Muster) : (s.setMuster m).inter = s.inter := rfl
@[simp] theorem State.setMuster_stks (m : Muster) : (s.setMuster m).stks = s.stks := rfl
@[simp] theorem State.setMuster_fold (m : Muster) : (s.setMuster m).fold = s.fold := rfl
@[simp] theorem State.setMuster_trk (m : Muster) : (s.setMuster m).trk = s.trk := rfl
@[simp] theorem State.setMuster_ideStop (m : Muster) : (s.setMuster m).ideStop = s.ideStop := rfl
@[simp] theorem State.setMuster_ideKeys (m : Muster) : (s.setMuster m).ideKeys = s.ideKeys := rfl
@[simp] theorem State.setMuster_snoops (m : Muster) : (s.setMuster m).snoops = s.snoops := rfl
@[simp] theorem State.setMuster_ni (m : Muster) : (s.setMuster m).ni = s.ni := rfl
@[simp] theorem State.setMuster_rtr (m : Muster) : (s.setMuster m).rtr = s.rtr := rfl
@[simp] theorem State.setMuster_far (m : Muster) : (s.setMuster m).far = s.far := rfl
@[simp] theorem State.setMuster_peat (m : Muster) : (s.setMuster m).peat = s.peat := rfl
@[simp] theorem State.setMuster_pserve (m : Muster) : (s.setMuster m).pserve = s.pserve := rfl
@[simp] theorem State.setMuster_queues (m : Muster) : (s.setMuster m).queues = s.queues := rfl
@[simp] theorem State.setMuster_kiln (m : Muster) : (s.setMuster m).kiln = s.kiln := rfl
@[simp] theorem State.setMuster_policy (m : Muster) : (s.setMuster m).policy = s.policy := rfl
@[simp] theorem State.setMuster_eid (m : Muster) : (s.setMuster m).eid = s.eid := rfl
@[simp] theorem State.setMuster_shadow (m : Muster) : (s.setMuster m).shadow = s.shadow := rfl
@[simp] theorem State.setMuster_ports (m : Muster) : (s.setMuster m).ports = s.ports := rfl
@[simp] theorem State.setMuster_therm (m : Muster) : (s.setMuster m).therm = s.therm := rfl
@[simp] theorem State.setMuster_pads (m : Muster) : (s.setMuster m).pads = s.pads := rfl
@[simp] theorem State.setMuster_fw (m : Muster) : (s.setMuster m).fw = s.fw := rfl
@[simp] theorem State.setMuster_conns (m : Muster) : (s.setMuster m).conns = s.conns := rfl
@[simp] theorem State.setMuster_range (m : Muster) : (s.setMuster m).range = s.range := rfl
@[simp] theorem State.setMuster_rst (m : Muster) : (s.setMuster m).rst = s.rst := rfl
@[simp] theorem State.setMuster_gen (m : Muster) : (s.setMuster m).gen = s.gen := rfl
@[simp] theorem State.setMuster_returns (m : Muster) : (s.setMuster m).returns = s.returns := rfl
@[simp] theorem State.setMuster_folding (m : Muster) : (s.setMuster m).folding = s.folding := rfl
@[simp] theorem State.setMuster_nor (m : Muster) : (s.setMuster m).nor = s.nor := rfl
@[simp] theorem State.setMuster_evt (m : Muster) : (s.setMuster m).evt = s.evt := rfl
@[simp] theorem State.setMuster_eseq (m : Muster) : (s.setMuster m).eseq = s.eseq := rfl
@[simp] theorem State.setMuster_evtRecv (m : Muster) : (s.setMuster m).evtRecv = s.evtRecv := rfl
@[simp] theorem State.setMuster_fresh (m : Muster) : (s.setMuster m).fresh = s.fresh := rfl
@[simp] theorem State.setMuster_out (m : Muster) : (s.setMuster m).out = s.out := rfl
@[simp] theorem State.setMuster_pending (m : Muster) : (s.setMuster m).pending = s.pending := rfl

@[simp] theorem State.setRst_regs (rs : List ResetOp) : (s.setRst rs).regs = s.regs := rfl
@[simp] theorem State.setRst_dram (rs : List ResetOp) : (s.setRst rs).dram = s.dram := rfl
@[simp] theorem State.setRst_store (rs : List ResetOp) : (s.setRst rs).store = s.store := rfl
@[simp] theorem State.setRst_scratch (rs : List ResetOp) : (s.setRst rs).scratch = s.scratch := rfl
@[simp] theorem State.setRst_cores (rs : List ResetOp) : (s.setRst rs).cores = s.cores := rfl
@[simp] theorem State.setRst_flocks (rs : List ResetOp) : (s.setRst rs).flocks = s.flocks := rfl
@[simp] theorem State.setRst_bales (rs : List ResetOp) : (s.setRst rs).bales = s.bales := rfl
@[simp] theorem State.setRst_bad (rs : List ResetOp) : (s.setRst rs).bad = s.bad := rfl
@[simp] theorem State.setRst_weak (rs : List ResetOp) : (s.setRst rs).weak = s.weak := rfl
@[simp] theorem State.setRst_inter (rs : List ResetOp) : (s.setRst rs).inter = s.inter := rfl
@[simp] theorem State.setRst_stks (rs : List ResetOp) : (s.setRst rs).stks = s.stks := rfl
@[simp] theorem State.setRst_fold (rs : List ResetOp) : (s.setRst rs).fold = s.fold := rfl
@[simp] theorem State.setRst_trk (rs : List ResetOp) : (s.setRst rs).trk = s.trk := rfl
@[simp] theorem State.setRst_ideStop (rs : List ResetOp) : (s.setRst rs).ideStop = s.ideStop := rfl
@[simp] theorem State.setRst_ideKeys (rs : List ResetOp) : (s.setRst rs).ideKeys = s.ideKeys := rfl
@[simp] theorem State.setRst_snoops (rs : List ResetOp) : (s.setRst rs).snoops = s.snoops := rfl
@[simp] theorem State.setRst_ni (rs : List ResetOp) : (s.setRst rs).ni = s.ni := rfl
@[simp] theorem State.setRst_rtr (rs : List ResetOp) : (s.setRst rs).rtr = s.rtr := rfl
@[simp] theorem State.setRst_far (rs : List ResetOp) : (s.setRst rs).far = s.far := rfl
@[simp] theorem State.setRst_peat (rs : List ResetOp) : (s.setRst rs).peat = s.peat := rfl
@[simp] theorem State.setRst_pserve (rs : List ResetOp) : (s.setRst rs).pserve = s.pserve := rfl
@[simp] theorem State.setRst_queues (rs : List ResetOp) : (s.setRst rs).queues = s.queues := rfl
@[simp] theorem State.setRst_kiln (rs : List ResetOp) : (s.setRst rs).kiln = s.kiln := rfl
@[simp] theorem State.setRst_policy (rs : List ResetOp) : (s.setRst rs).policy = s.policy := rfl
@[simp] theorem State.setRst_eid (rs : List ResetOp) : (s.setRst rs).eid = s.eid := rfl
@[simp] theorem State.setRst_muster (rs : List ResetOp) : (s.setRst rs).muster = s.muster := rfl
@[simp] theorem State.setRst_shadow (rs : List ResetOp) : (s.setRst rs).shadow = s.shadow := rfl
@[simp] theorem State.setRst_ports (rs : List ResetOp) : (s.setRst rs).ports = s.ports := rfl
@[simp] theorem State.setRst_therm (rs : List ResetOp) : (s.setRst rs).therm = s.therm := rfl
@[simp] theorem State.setRst_pads (rs : List ResetOp) : (s.setRst rs).pads = s.pads := rfl
@[simp] theorem State.setRst_fw (rs : List ResetOp) : (s.setRst rs).fw = s.fw := rfl
@[simp] theorem State.setRst_conns (rs : List ResetOp) : (s.setRst rs).conns = s.conns := rfl
@[simp] theorem State.setRst_range (rs : List ResetOp) : (s.setRst rs).range = s.range := rfl
@[simp] theorem State.setRst_gen (rs : List ResetOp) : (s.setRst rs).gen = s.gen := rfl
@[simp] theorem State.setRst_returns (rs : List ResetOp) : (s.setRst rs).returns = s.returns := rfl
@[simp] theorem State.setRst_folding (rs : List ResetOp) : (s.setRst rs).folding = s.folding := rfl
@[simp] theorem State.setRst_nor (rs : List ResetOp) : (s.setRst rs).nor = s.nor := rfl
@[simp] theorem State.setRst_evt (rs : List ResetOp) : (s.setRst rs).evt = s.evt := rfl
@[simp] theorem State.setRst_eseq (rs : List ResetOp) : (s.setRst rs).eseq = s.eseq := rfl
@[simp] theorem State.setRst_evtRecv (rs : List ResetOp) : (s.setRst rs).evtRecv = s.evtRecv := rfl
@[simp] theorem State.setRst_fresh (rs : List ResetOp) : (s.setRst rs).fresh = s.fresh := rfl
@[simp] theorem State.setRst_out (rs : List ResetOp) : (s.setRst rs).out = s.out := rfl
@[simp] theorem State.setRst_pending (rs : List ResetOp) : (s.setRst rs).pending = s.pending := rfl

@[simp] theorem State.setShadow_regs (x : Shadow) : (s.setShadow x).regs = s.regs := rfl
@[simp] theorem State.setShadow_dram (x : Shadow) : (s.setShadow x).dram = s.dram := rfl
@[simp] theorem State.setShadow_store (x : Shadow) : (s.setShadow x).store = s.store := rfl
@[simp] theorem State.setShadow_scratch (x : Shadow) : (s.setShadow x).scratch = s.scratch := rfl
@[simp] theorem State.setShadow_cores (x : Shadow) : (s.setShadow x).cores = s.cores := rfl
@[simp] theorem State.setShadow_flocks (x : Shadow) : (s.setShadow x).flocks = s.flocks := rfl
@[simp] theorem State.setShadow_bales (x : Shadow) : (s.setShadow x).bales = s.bales := rfl
@[simp] theorem State.setShadow_bad (x : Shadow) : (s.setShadow x).bad = s.bad := rfl
@[simp] theorem State.setShadow_weak (x : Shadow) : (s.setShadow x).weak = s.weak := rfl
@[simp] theorem State.setShadow_inter (x : Shadow) : (s.setShadow x).inter = s.inter := rfl
@[simp] theorem State.setShadow_stks (x : Shadow) : (s.setShadow x).stks = s.stks := rfl
@[simp] theorem State.setShadow_fold (x : Shadow) : (s.setShadow x).fold = s.fold := rfl
@[simp] theorem State.setShadow_trk (x : Shadow) : (s.setShadow x).trk = s.trk := rfl
@[simp] theorem State.setShadow_ideStop (x : Shadow) : (s.setShadow x).ideStop = s.ideStop := rfl
@[simp] theorem State.setShadow_ideKeys (x : Shadow) : (s.setShadow x).ideKeys = s.ideKeys := rfl
@[simp] theorem State.setShadow_snoops (x : Shadow) : (s.setShadow x).snoops = s.snoops := rfl
@[simp] theorem State.setShadow_ni (x : Shadow) : (s.setShadow x).ni = s.ni := rfl
@[simp] theorem State.setShadow_rtr (x : Shadow) : (s.setShadow x).rtr = s.rtr := rfl
@[simp] theorem State.setShadow_far (x : Shadow) : (s.setShadow x).far = s.far := rfl
@[simp] theorem State.setShadow_peat (x : Shadow) : (s.setShadow x).peat = s.peat := rfl
@[simp] theorem State.setShadow_pserve (x : Shadow) : (s.setShadow x).pserve = s.pserve := rfl
@[simp] theorem State.setShadow_queues (x : Shadow) : (s.setShadow x).queues = s.queues := rfl
@[simp] theorem State.setShadow_kiln (x : Shadow) : (s.setShadow x).kiln = s.kiln := rfl
@[simp] theorem State.setShadow_policy (x : Shadow) : (s.setShadow x).policy = s.policy := rfl
@[simp] theorem State.setShadow_eid (x : Shadow) : (s.setShadow x).eid = s.eid := rfl
@[simp] theorem State.setShadow_muster (x : Shadow) : (s.setShadow x).muster = s.muster := rfl
@[simp] theorem State.setShadow_ports (x : Shadow) : (s.setShadow x).ports = s.ports := rfl
@[simp] theorem State.setShadow_therm (x : Shadow) : (s.setShadow x).therm = s.therm := rfl
@[simp] theorem State.setShadow_pads (x : Shadow) : (s.setShadow x).pads = s.pads := rfl
@[simp] theorem State.setShadow_fw (x : Shadow) : (s.setShadow x).fw = s.fw := rfl
@[simp] theorem State.setShadow_conns (x : Shadow) : (s.setShadow x).conns = s.conns := rfl
@[simp] theorem State.setShadow_range (x : Shadow) : (s.setShadow x).range = s.range := rfl
@[simp] theorem State.setShadow_rst (x : Shadow) : (s.setShadow x).rst = s.rst := rfl
@[simp] theorem State.setShadow_gen (x : Shadow) : (s.setShadow x).gen = s.gen := rfl
@[simp] theorem State.setShadow_returns (x : Shadow) : (s.setShadow x).returns = s.returns := rfl
@[simp] theorem State.setShadow_folding (x : Shadow) : (s.setShadow x).folding = s.folding := rfl
@[simp] theorem State.setShadow_nor (x : Shadow) : (s.setShadow x).nor = s.nor := rfl
@[simp] theorem State.setShadow_evt (x : Shadow) : (s.setShadow x).evt = s.evt := rfl
@[simp] theorem State.setShadow_eseq (x : Shadow) : (s.setShadow x).eseq = s.eseq := rfl
@[simp] theorem State.setShadow_evtRecv (x : Shadow) : (s.setShadow x).evtRecv = s.evtRecv := rfl
@[simp] theorem State.setShadow_fresh (x : Shadow) : (s.setShadow x).fresh = s.fresh := rfl
@[simp] theorem State.setShadow_out (x : Shadow) : (s.setShadow x).out = s.out := rfl
@[simp] theorem State.setShadow_pending (x : Shadow) : (s.setShadow x).pending = s.pending := rfl

@[simp] theorem State.setConn_regs (t : Transport) (k : Conn) : (s.setConn t k).regs = s.regs := rfl
@[simp] theorem State.setConn_dram (t : Transport) (k : Conn) : (s.setConn t k).dram = s.dram := rfl
@[simp] theorem State.setConn_store (t : Transport) (k : Conn) : (s.setConn t k).store = s.store := rfl
@[simp] theorem State.setConn_scratch (t : Transport) (k : Conn) : (s.setConn t k).scratch = s.scratch := rfl
@[simp] theorem State.setConn_cores (t : Transport) (k : Conn) : (s.setConn t k).cores = s.cores := rfl
@[simp] theorem State.setConn_flocks (t : Transport) (k : Conn) : (s.setConn t k).flocks = s.flocks := rfl
@[simp] theorem State.setConn_bales (t : Transport) (k : Conn) : (s.setConn t k).bales = s.bales := rfl
@[simp] theorem State.setConn_bad (t : Transport) (k : Conn) : (s.setConn t k).bad = s.bad := rfl
@[simp] theorem State.setConn_weak (t : Transport) (k : Conn) : (s.setConn t k).weak = s.weak := rfl
@[simp] theorem State.setConn_inter (t : Transport) (k : Conn) : (s.setConn t k).inter = s.inter := rfl
@[simp] theorem State.setConn_stks (t : Transport) (k : Conn) : (s.setConn t k).stks = s.stks := rfl
@[simp] theorem State.setConn_fold (t : Transport) (k : Conn) : (s.setConn t k).fold = s.fold := rfl
@[simp] theorem State.setConn_trk (t : Transport) (k : Conn) : (s.setConn t k).trk = s.trk := rfl
@[simp] theorem State.setConn_ideStop (t : Transport) (k : Conn) : (s.setConn t k).ideStop = s.ideStop := rfl
@[simp] theorem State.setConn_ideKeys (t : Transport) (k : Conn) : (s.setConn t k).ideKeys = s.ideKeys := rfl
@[simp] theorem State.setConn_snoops (t : Transport) (k : Conn) : (s.setConn t k).snoops = s.snoops := rfl
@[simp] theorem State.setConn_ni (t : Transport) (k : Conn) : (s.setConn t k).ni = s.ni := rfl
@[simp] theorem State.setConn_rtr (t : Transport) (k : Conn) : (s.setConn t k).rtr = s.rtr := rfl
@[simp] theorem State.setConn_far (t : Transport) (k : Conn) : (s.setConn t k).far = s.far := rfl
@[simp] theorem State.setConn_peat (t : Transport) (k : Conn) : (s.setConn t k).peat = s.peat := rfl
@[simp] theorem State.setConn_pserve (t : Transport) (k : Conn) : (s.setConn t k).pserve = s.pserve := rfl
@[simp] theorem State.setConn_queues (t : Transport) (k : Conn) : (s.setConn t k).queues = s.queues := rfl
@[simp] theorem State.setConn_kiln (t : Transport) (k : Conn) : (s.setConn t k).kiln = s.kiln := rfl
@[simp] theorem State.setConn_policy (t : Transport) (k : Conn) : (s.setConn t k).policy = s.policy := rfl
@[simp] theorem State.setConn_eid (t : Transport) (k : Conn) : (s.setConn t k).eid = s.eid := rfl
@[simp] theorem State.setConn_muster (t : Transport) (k : Conn) : (s.setConn t k).muster = s.muster := rfl
@[simp] theorem State.setConn_shadow (t : Transport) (k : Conn) : (s.setConn t k).shadow = s.shadow := rfl
@[simp] theorem State.setConn_ports (t : Transport) (k : Conn) : (s.setConn t k).ports = s.ports := rfl
@[simp] theorem State.setConn_therm (t : Transport) (k : Conn) : (s.setConn t k).therm = s.therm := rfl
@[simp] theorem State.setConn_pads (t : Transport) (k : Conn) : (s.setConn t k).pads = s.pads := rfl
@[simp] theorem State.setConn_fw (t : Transport) (k : Conn) : (s.setConn t k).fw = s.fw := rfl
@[simp] theorem State.setConn_range (t : Transport) (k : Conn) : (s.setConn t k).range = s.range := rfl
@[simp] theorem State.setConn_rst (t : Transport) (k : Conn) : (s.setConn t k).rst = s.rst := rfl
@[simp] theorem State.setConn_gen (t : Transport) (k : Conn) : (s.setConn t k).gen = s.gen := rfl
@[simp] theorem State.setConn_returns (t : Transport) (k : Conn) : (s.setConn t k).returns = s.returns := rfl
@[simp] theorem State.setConn_folding (t : Transport) (k : Conn) : (s.setConn t k).folding = s.folding := rfl
@[simp] theorem State.setConn_nor (t : Transport) (k : Conn) : (s.setConn t k).nor = s.nor := rfl
@[simp] theorem State.setConn_evt (t : Transport) (k : Conn) : (s.setConn t k).evt = s.evt := rfl
@[simp] theorem State.setConn_eseq (t : Transport) (k : Conn) : (s.setConn t k).eseq = s.eseq := rfl
@[simp] theorem State.setConn_evtRecv (t : Transport) (k : Conn) : (s.setConn t k).evtRecv = s.evtRecv := rfl
@[simp] theorem State.setConn_fresh (t : Transport) (k : Conn) : (s.setConn t k).fresh = s.fresh := rfl
@[simp] theorem State.setConn_out (t : Transport) (k : Conn) : (s.setConn t k).out = s.out := rfl
@[simp] theorem State.setConn_pending (t : Transport) (k : Conn) : (s.setConn t k).pending = s.pending := rfl

@[simp] theorem State.setTherm_regs (t : Therm) : (s.setTherm t).regs = s.regs := rfl
@[simp] theorem State.setTherm_dram (t : Therm) : (s.setTherm t).dram = s.dram := rfl
@[simp] theorem State.setTherm_store (t : Therm) : (s.setTherm t).store = s.store := rfl
@[simp] theorem State.setTherm_scratch (t : Therm) : (s.setTherm t).scratch = s.scratch := rfl
@[simp] theorem State.setTherm_cores (t : Therm) : (s.setTherm t).cores = s.cores := rfl
@[simp] theorem State.setTherm_flocks (t : Therm) : (s.setTherm t).flocks = s.flocks := rfl
@[simp] theorem State.setTherm_bales (t : Therm) : (s.setTherm t).bales = s.bales := rfl
@[simp] theorem State.setTherm_bad (t : Therm) : (s.setTherm t).bad = s.bad := rfl
@[simp] theorem State.setTherm_weak (t : Therm) : (s.setTherm t).weak = s.weak := rfl
@[simp] theorem State.setTherm_inter (t : Therm) : (s.setTherm t).inter = s.inter := rfl
@[simp] theorem State.setTherm_stks (t : Therm) : (s.setTherm t).stks = s.stks := rfl
@[simp] theorem State.setTherm_fold (t : Therm) : (s.setTherm t).fold = s.fold := rfl
@[simp] theorem State.setTherm_trk (t : Therm) : (s.setTherm t).trk = s.trk := rfl
@[simp] theorem State.setTherm_ideStop (t : Therm) : (s.setTherm t).ideStop = s.ideStop := rfl
@[simp] theorem State.setTherm_ideKeys (t : Therm) : (s.setTherm t).ideKeys = s.ideKeys := rfl
@[simp] theorem State.setTherm_snoops (t : Therm) : (s.setTherm t).snoops = s.snoops := rfl
@[simp] theorem State.setTherm_ni (t : Therm) : (s.setTherm t).ni = s.ni := rfl
@[simp] theorem State.setTherm_rtr (t : Therm) : (s.setTherm t).rtr = s.rtr := rfl
@[simp] theorem State.setTherm_far (t : Therm) : (s.setTherm t).far = s.far := rfl
@[simp] theorem State.setTherm_peat (t : Therm) : (s.setTherm t).peat = s.peat := rfl
@[simp] theorem State.setTherm_pserve (t : Therm) : (s.setTherm t).pserve = s.pserve := rfl
@[simp] theorem State.setTherm_queues (t : Therm) : (s.setTherm t).queues = s.queues := rfl
@[simp] theorem State.setTherm_kiln (t : Therm) : (s.setTherm t).kiln = s.kiln := rfl
@[simp] theorem State.setTherm_policy (t : Therm) : (s.setTherm t).policy = s.policy := rfl
@[simp] theorem State.setTherm_eid (t : Therm) : (s.setTherm t).eid = s.eid := rfl
@[simp] theorem State.setTherm_muster (t : Therm) : (s.setTherm t).muster = s.muster := rfl
@[simp] theorem State.setTherm_shadow (t : Therm) : (s.setTherm t).shadow = s.shadow := rfl
@[simp] theorem State.setTherm_ports (t : Therm) : (s.setTherm t).ports = s.ports := rfl
@[simp] theorem State.setTherm_pads (t : Therm) : (s.setTherm t).pads = s.pads := rfl
@[simp] theorem State.setTherm_fw (t : Therm) : (s.setTherm t).fw = s.fw := rfl
@[simp] theorem State.setTherm_conns (t : Therm) : (s.setTherm t).conns = s.conns := rfl
@[simp] theorem State.setTherm_range (t : Therm) : (s.setTherm t).range = s.range := rfl
@[simp] theorem State.setTherm_rst (t : Therm) : (s.setTherm t).rst = s.rst := rfl
@[simp] theorem State.setTherm_gen (t : Therm) : (s.setTherm t).gen = s.gen := rfl
@[simp] theorem State.setTherm_returns (t : Therm) : (s.setTherm t).returns = s.returns := rfl
@[simp] theorem State.setTherm_folding (t : Therm) : (s.setTherm t).folding = s.folding := rfl
@[simp] theorem State.setTherm_nor (t : Therm) : (s.setTherm t).nor = s.nor := rfl
@[simp] theorem State.setTherm_evt (t : Therm) : (s.setTherm t).evt = s.evt := rfl
@[simp] theorem State.setTherm_eseq (t : Therm) : (s.setTherm t).eseq = s.eseq := rfl
@[simp] theorem State.setTherm_evtRecv (t : Therm) : (s.setTherm t).evtRecv = s.evtRecv := rfl
@[simp] theorem State.setTherm_fresh (t : Therm) : (s.setTherm t).fresh = s.fresh := rfl
@[simp] theorem State.setTherm_out (t : Therm) : (s.setTherm t).out = s.out := rfl
@[simp] theorem State.setTherm_pending (t : Therm) : (s.setTherm t).pending = s.pending := rfl

@[simp] theorem State.setStk_regs (i : Nat) (k : Stk) : (s.setStk i k).regs = s.regs := rfl
@[simp] theorem State.setStk_dram (i : Nat) (k : Stk) : (s.setStk i k).dram = s.dram := rfl
@[simp] theorem State.setStk_store (i : Nat) (k : Stk) : (s.setStk i k).store = s.store := rfl
@[simp] theorem State.setStk_scratch (i : Nat) (k : Stk) : (s.setStk i k).scratch = s.scratch := rfl
@[simp] theorem State.setStk_cores (i : Nat) (k : Stk) : (s.setStk i k).cores = s.cores := rfl
@[simp] theorem State.setStk_flocks (i : Nat) (k : Stk) : (s.setStk i k).flocks = s.flocks := rfl
@[simp] theorem State.setStk_bales (i : Nat) (k : Stk) : (s.setStk i k).bales = s.bales := rfl
@[simp] theorem State.setStk_bad (i : Nat) (k : Stk) : (s.setStk i k).bad = s.bad := rfl
@[simp] theorem State.setStk_weak (i : Nat) (k : Stk) : (s.setStk i k).weak = s.weak := rfl
@[simp] theorem State.setStk_inter (i : Nat) (k : Stk) : (s.setStk i k).inter = s.inter := rfl
@[simp] theorem State.setStk_fold (i : Nat) (k : Stk) : (s.setStk i k).fold = s.fold := rfl
@[simp] theorem State.setStk_trk (i : Nat) (k : Stk) : (s.setStk i k).trk = s.trk := rfl
@[simp] theorem State.setStk_ideStop (i : Nat) (k : Stk) : (s.setStk i k).ideStop = s.ideStop := rfl
@[simp] theorem State.setStk_ideKeys (i : Nat) (k : Stk) : (s.setStk i k).ideKeys = s.ideKeys := rfl
@[simp] theorem State.setStk_snoops (i : Nat) (k : Stk) : (s.setStk i k).snoops = s.snoops := rfl
@[simp] theorem State.setStk_ni (i : Nat) (k : Stk) : (s.setStk i k).ni = s.ni := rfl
@[simp] theorem State.setStk_rtr (i : Nat) (k : Stk) : (s.setStk i k).rtr = s.rtr := rfl
@[simp] theorem State.setStk_far (i : Nat) (k : Stk) : (s.setStk i k).far = s.far := rfl
@[simp] theorem State.setStk_peat (i : Nat) (k : Stk) : (s.setStk i k).peat = s.peat := rfl
@[simp] theorem State.setStk_pserve (i : Nat) (k : Stk) : (s.setStk i k).pserve = s.pserve := rfl
@[simp] theorem State.setStk_queues (i : Nat) (k : Stk) : (s.setStk i k).queues = s.queues := rfl
@[simp] theorem State.setStk_kiln (i : Nat) (k : Stk) : (s.setStk i k).kiln = s.kiln := rfl
@[simp] theorem State.setStk_policy (i : Nat) (k : Stk) : (s.setStk i k).policy = s.policy := rfl
@[simp] theorem State.setStk_eid (i : Nat) (k : Stk) : (s.setStk i k).eid = s.eid := rfl
@[simp] theorem State.setStk_muster (i : Nat) (k : Stk) : (s.setStk i k).muster = s.muster := rfl
@[simp] theorem State.setStk_shadow (i : Nat) (k : Stk) : (s.setStk i k).shadow = s.shadow := rfl
@[simp] theorem State.setStk_ports (i : Nat) (k : Stk) : (s.setStk i k).ports = s.ports := rfl
@[simp] theorem State.setStk_therm (i : Nat) (k : Stk) : (s.setStk i k).therm = s.therm := rfl
@[simp] theorem State.setStk_pads (i : Nat) (k : Stk) : (s.setStk i k).pads = s.pads := rfl
@[simp] theorem State.setStk_fw (i : Nat) (k : Stk) : (s.setStk i k).fw = s.fw := rfl
@[simp] theorem State.setStk_conns (i : Nat) (k : Stk) : (s.setStk i k).conns = s.conns := rfl
@[simp] theorem State.setStk_range (i : Nat) (k : Stk) : (s.setStk i k).range = s.range := rfl
@[simp] theorem State.setStk_rst (i : Nat) (k : Stk) : (s.setStk i k).rst = s.rst := rfl
@[simp] theorem State.setStk_gen (i : Nat) (k : Stk) : (s.setStk i k).gen = s.gen := rfl
@[simp] theorem State.setStk_returns (i : Nat) (k : Stk) : (s.setStk i k).returns = s.returns := rfl
@[simp] theorem State.setStk_folding (i : Nat) (k : Stk) : (s.setStk i k).folding = s.folding := rfl
@[simp] theorem State.setStk_nor (i : Nat) (k : Stk) : (s.setStk i k).nor = s.nor := rfl
@[simp] theorem State.setStk_evt (i : Nat) (k : Stk) : (s.setStk i k).evt = s.evt := rfl
@[simp] theorem State.setStk_eseq (i : Nat) (k : Stk) : (s.setStk i k).eseq = s.eseq := rfl
@[simp] theorem State.setStk_evtRecv (i : Nat) (k : Stk) : (s.setStk i k).evtRecv = s.evtRecv := rfl
@[simp] theorem State.setStk_fresh (i : Nat) (k : Stk) : (s.setStk i k).fresh = s.fresh := rfl
@[simp] theorem State.setStk_out (i : Nat) (k : Stk) : (s.setStk i k).out = s.out := rfl
@[simp] theorem State.setStk_pending (i : Nat) (k : Stk) : (s.setStk i k).pending = s.pending := rfl

@[simp] theorem State.modStk_regs (i : Nat) (g : Stk → Stk) : (s.modStk i g).regs = s.regs := rfl
@[simp] theorem State.modStk_dram (i : Nat) (g : Stk → Stk) : (s.modStk i g).dram = s.dram := rfl
@[simp] theorem State.modStk_store (i : Nat) (g : Stk → Stk) : (s.modStk i g).store = s.store := rfl
@[simp] theorem State.modStk_scratch (i : Nat) (g : Stk → Stk) : (s.modStk i g).scratch = s.scratch := rfl
@[simp] theorem State.modStk_cores (i : Nat) (g : Stk → Stk) : (s.modStk i g).cores = s.cores := rfl
@[simp] theorem State.modStk_flocks (i : Nat) (g : Stk → Stk) : (s.modStk i g).flocks = s.flocks := rfl
@[simp] theorem State.modStk_bales (i : Nat) (g : Stk → Stk) : (s.modStk i g).bales = s.bales := rfl
@[simp] theorem State.modStk_bad (i : Nat) (g : Stk → Stk) : (s.modStk i g).bad = s.bad := rfl
@[simp] theorem State.modStk_weak (i : Nat) (g : Stk → Stk) : (s.modStk i g).weak = s.weak := rfl
@[simp] theorem State.modStk_inter (i : Nat) (g : Stk → Stk) : (s.modStk i g).inter = s.inter := rfl
@[simp] theorem State.modStk_fold (i : Nat) (g : Stk → Stk) : (s.modStk i g).fold = s.fold := rfl
@[simp] theorem State.modStk_trk (i : Nat) (g : Stk → Stk) : (s.modStk i g).trk = s.trk := rfl
@[simp] theorem State.modStk_ideStop (i : Nat) (g : Stk → Stk) : (s.modStk i g).ideStop = s.ideStop := rfl
@[simp] theorem State.modStk_ideKeys (i : Nat) (g : Stk → Stk) : (s.modStk i g).ideKeys = s.ideKeys := rfl
@[simp] theorem State.modStk_snoops (i : Nat) (g : Stk → Stk) : (s.modStk i g).snoops = s.snoops := rfl
@[simp] theorem State.modStk_ni (i : Nat) (g : Stk → Stk) : (s.modStk i g).ni = s.ni := rfl
@[simp] theorem State.modStk_rtr (i : Nat) (g : Stk → Stk) : (s.modStk i g).rtr = s.rtr := rfl
@[simp] theorem State.modStk_far (i : Nat) (g : Stk → Stk) : (s.modStk i g).far = s.far := rfl
@[simp] theorem State.modStk_peat (i : Nat) (g : Stk → Stk) : (s.modStk i g).peat = s.peat := rfl
@[simp] theorem State.modStk_pserve (i : Nat) (g : Stk → Stk) : (s.modStk i g).pserve = s.pserve := rfl
@[simp] theorem State.modStk_queues (i : Nat) (g : Stk → Stk) : (s.modStk i g).queues = s.queues := rfl
@[simp] theorem State.modStk_kiln (i : Nat) (g : Stk → Stk) : (s.modStk i g).kiln = s.kiln := rfl
@[simp] theorem State.modStk_policy (i : Nat) (g : Stk → Stk) : (s.modStk i g).policy = s.policy := rfl
@[simp] theorem State.modStk_eid (i : Nat) (g : Stk → Stk) : (s.modStk i g).eid = s.eid := rfl
@[simp] theorem State.modStk_muster (i : Nat) (g : Stk → Stk) : (s.modStk i g).muster = s.muster := rfl
@[simp] theorem State.modStk_shadow (i : Nat) (g : Stk → Stk) : (s.modStk i g).shadow = s.shadow := rfl
@[simp] theorem State.modStk_ports (i : Nat) (g : Stk → Stk) : (s.modStk i g).ports = s.ports := rfl
@[simp] theorem State.modStk_therm (i : Nat) (g : Stk → Stk) : (s.modStk i g).therm = s.therm := rfl
@[simp] theorem State.modStk_pads (i : Nat) (g : Stk → Stk) : (s.modStk i g).pads = s.pads := rfl
@[simp] theorem State.modStk_fw (i : Nat) (g : Stk → Stk) : (s.modStk i g).fw = s.fw := rfl
@[simp] theorem State.modStk_conns (i : Nat) (g : Stk → Stk) : (s.modStk i g).conns = s.conns := rfl
@[simp] theorem State.modStk_range (i : Nat) (g : Stk → Stk) : (s.modStk i g).range = s.range := rfl
@[simp] theorem State.modStk_rst (i : Nat) (g : Stk → Stk) : (s.modStk i g).rst = s.rst := rfl
@[simp] theorem State.modStk_gen (i : Nat) (g : Stk → Stk) : (s.modStk i g).gen = s.gen := rfl
@[simp] theorem State.modStk_returns (i : Nat) (g : Stk → Stk) : (s.modStk i g).returns = s.returns := rfl
@[simp] theorem State.modStk_folding (i : Nat) (g : Stk → Stk) : (s.modStk i g).folding = s.folding := rfl
@[simp] theorem State.modStk_nor (i : Nat) (g : Stk → Stk) : (s.modStk i g).nor = s.nor := rfl
@[simp] theorem State.modStk_evt (i : Nat) (g : Stk → Stk) : (s.modStk i g).evt = s.evt := rfl
@[simp] theorem State.modStk_eseq (i : Nat) (g : Stk → Stk) : (s.modStk i g).eseq = s.eseq := rfl
@[simp] theorem State.modStk_evtRecv (i : Nat) (g : Stk → Stk) : (s.modStk i g).evtRecv = s.evtRecv := rfl
@[simp] theorem State.modStk_fresh (i : Nat) (g : Stk → Stk) : (s.modStk i g).fresh = s.fresh := rfl
@[simp] theorem State.modStk_out (i : Nat) (g : Stk → Stk) : (s.modStk i g).out = s.out := rfl
@[simp] theorem State.modStk_pending (i : Nat) (g : Stk → Stk) : (s.modStk i g).pending = s.pending := rfl

@[simp] theorem State.setBale_regs (b : Nat) (m : Meta) : (s.setBale b m).regs = s.regs := rfl
@[simp] theorem State.setBale_dram (b : Nat) (m : Meta) : (s.setBale b m).dram = s.dram := rfl
@[simp] theorem State.setBale_store (b : Nat) (m : Meta) : (s.setBale b m).store = s.store := rfl
@[simp] theorem State.setBale_scratch (b : Nat) (m : Meta) : (s.setBale b m).scratch = s.scratch := rfl
@[simp] theorem State.setBale_cores (b : Nat) (m : Meta) : (s.setBale b m).cores = s.cores := rfl
@[simp] theorem State.setBale_flocks (b : Nat) (m : Meta) : (s.setBale b m).flocks = s.flocks := rfl
@[simp] theorem State.setBale_bad (b : Nat) (m : Meta) : (s.setBale b m).bad = s.bad := rfl
@[simp] theorem State.setBale_weak (b : Nat) (m : Meta) : (s.setBale b m).weak = s.weak := rfl
@[simp] theorem State.setBale_inter (b : Nat) (m : Meta) : (s.setBale b m).inter = s.inter := rfl
@[simp] theorem State.setBale_stks (b : Nat) (m : Meta) : (s.setBale b m).stks = s.stks := rfl
@[simp] theorem State.setBale_fold (b : Nat) (m : Meta) : (s.setBale b m).fold = s.fold := rfl
@[simp] theorem State.setBale_trk (b : Nat) (m : Meta) : (s.setBale b m).trk = s.trk := rfl
@[simp] theorem State.setBale_ideStop (b : Nat) (m : Meta) : (s.setBale b m).ideStop = s.ideStop := rfl
@[simp] theorem State.setBale_ideKeys (b : Nat) (m : Meta) : (s.setBale b m).ideKeys = s.ideKeys := rfl
@[simp] theorem State.setBale_snoops (b : Nat) (m : Meta) : (s.setBale b m).snoops = s.snoops := rfl
@[simp] theorem State.setBale_ni (b : Nat) (m : Meta) : (s.setBale b m).ni = s.ni := rfl
@[simp] theorem State.setBale_rtr (b : Nat) (m : Meta) : (s.setBale b m).rtr = s.rtr := rfl
@[simp] theorem State.setBale_far (b : Nat) (m : Meta) : (s.setBale b m).far = s.far := rfl
@[simp] theorem State.setBale_peat (b : Nat) (m : Meta) : (s.setBale b m).peat = s.peat := rfl
@[simp] theorem State.setBale_pserve (b : Nat) (m : Meta) : (s.setBale b m).pserve = s.pserve := rfl
@[simp] theorem State.setBale_queues (b : Nat) (m : Meta) : (s.setBale b m).queues = s.queues := rfl
@[simp] theorem State.setBale_kiln (b : Nat) (m : Meta) : (s.setBale b m).kiln = s.kiln := rfl
@[simp] theorem State.setBale_policy (b : Nat) (m : Meta) : (s.setBale b m).policy = s.policy := rfl
@[simp] theorem State.setBale_eid (b : Nat) (m : Meta) : (s.setBale b m).eid = s.eid := rfl
@[simp] theorem State.setBale_muster (b : Nat) (m : Meta) : (s.setBale b m).muster = s.muster := rfl
@[simp] theorem State.setBale_shadow (b : Nat) (m : Meta) : (s.setBale b m).shadow = s.shadow := rfl
@[simp] theorem State.setBale_ports (b : Nat) (m : Meta) : (s.setBale b m).ports = s.ports := rfl
@[simp] theorem State.setBale_therm (b : Nat) (m : Meta) : (s.setBale b m).therm = s.therm := rfl
@[simp] theorem State.setBale_pads (b : Nat) (m : Meta) : (s.setBale b m).pads = s.pads := rfl
@[simp] theorem State.setBale_fw (b : Nat) (m : Meta) : (s.setBale b m).fw = s.fw := rfl
@[simp] theorem State.setBale_conns (b : Nat) (m : Meta) : (s.setBale b m).conns = s.conns := rfl
@[simp] theorem State.setBale_range (b : Nat) (m : Meta) : (s.setBale b m).range = s.range := rfl
@[simp] theorem State.setBale_rst (b : Nat) (m : Meta) : (s.setBale b m).rst = s.rst := rfl
@[simp] theorem State.setBale_gen (b : Nat) (m : Meta) : (s.setBale b m).gen = s.gen := rfl
@[simp] theorem State.setBale_returns (b : Nat) (m : Meta) : (s.setBale b m).returns = s.returns := rfl
@[simp] theorem State.setBale_folding (b : Nat) (m : Meta) : (s.setBale b m).folding = s.folding := rfl
@[simp] theorem State.setBale_nor (b : Nat) (m : Meta) : (s.setBale b m).nor = s.nor := rfl
@[simp] theorem State.setBale_evt (b : Nat) (m : Meta) : (s.setBale b m).evt = s.evt := rfl
@[simp] theorem State.setBale_eseq (b : Nat) (m : Meta) : (s.setBale b m).eseq = s.eseq := rfl
@[simp] theorem State.setBale_evtRecv (b : Nat) (m : Meta) : (s.setBale b m).evtRecv = s.evtRecv := rfl
@[simp] theorem State.setBale_fresh (b : Nat) (m : Meta) : (s.setBale b m).fresh = s.fresh := rfl
@[simp] theorem State.setBale_out (b : Nat) (m : Meta) : (s.setBale b m).out = s.out := rfl
@[simp] theorem State.setBale_pending (b : Nat) (m : Meta) : (s.setBale b m).pending = s.pending := rfl

end Sys2Proof.Machine
end

