-- ==== Sys2Proof/Laws/Reg.lean ====
section
/-! SUPPORT. Bit fields, and what reading a register, a core, a flock or another unit gives after an update. -/

namespace Sys2Proof.Machine

/-! ### Bit fields -/

theorem bits_lt (w hi lo : Nat) : bits w hi lo < 2 ^ (hi + 1 - lo) := Nat.mod_lt _ (Nat.two_pow_pos _)

theorem bits_testBit (w hi lo i : Nat) : (bits w hi lo).testBit i = (decide (i < hi + 1 - lo) && w.testBit (lo + i)) := by
  simp [bits, Nat.testBit_mod_two_pow, Nat.testBit_shiftRight]

/-- A number is what lies below a field, the field, and what lies above it. -/
theorem bits_split (w hi lo : Nat) : w = (w / 2 ^ lo / 2 ^ (hi + 1 - lo) * 2 ^ (hi + 1 - lo) + bits w hi lo) * 2 ^ lo + w % 2 ^ lo := by
  have h1 := Nat.div_add_mod w (2 ^ lo)
  have h2 := Nat.div_add_mod (w / 2 ^ lo) (2 ^ (hi + 1 - lo))
  have h3 : bits w hi lo = w / 2 ^ lo % 2 ^ (hi + 1 - lo) := by simp [bits, Nat.shiftRight_eq_div_pow]
  rw [h3, Nat.mul_comm (w / 2 ^ lo / 2 ^ (hi + 1 - lo)), h2, Nat.mul_comm (w / 2 ^ lo), h1]

/-- A replaced field, as arithmetic. -/
theorem setBits_eq (w hi lo v : Nat) : setBits w hi lo v =
    (w / 2 ^ lo / 2 ^ (hi + 1 - lo) * 2 ^ (hi + 1 - lo) + v % 2 ^ (hi + 1 - lo)) * 2 ^ lo + w % 2 ^ lo := by
  have h := bits_split w hi lo
  simp only [setBits, Nat.shiftLeft_eq]
  have h4 : w - bits w hi lo * 2 ^ lo = w / 2 ^ lo / 2 ^ (hi + 1 - lo) * 2 ^ (hi + 1 - lo) * 2 ^ lo + w % 2 ^ lo := by
    conv_lhs => rw [h]
    rw [show bits ((w / 2 ^ lo / 2 ^ (hi + 1 - lo) * 2 ^ (hi + 1 - lo) + bits w hi lo) * 2 ^ lo + w % 2 ^ lo) hi lo = bits w hi lo from
      by rw [← h]]
    rw [Nat.add_mul]
    omega
  rw [h4, Nat.add_mul]
  omega

/-- A replaced field reads as the new value. -/
theorem bits_setBits_same (w hi lo v : Nat) : bits (setBits w hi lo v) hi lo = v % 2 ^ (hi + 1 - lo) := by
  rw [setBits_eq]
  simp only [bits, Nat.shiftRight_eq_div_pow]
  rw [Nat.mul_comm _ (2 ^ lo), Nat.mul_add_div (Nat.two_pow_pos _), Nat.div_eq_of_lt (Nat.mod_lt _ (Nat.two_pow_pos _)),
    Nat.add_zero, Nat.mul_comm, Nat.mul_add_mod, Nat.mod_mod]

theorem setBits_testBit (w hi lo v i : Nat) : (setBits w hi lo v).testBit i =
    if lo ≤ i ∧ i < hi + 1 then v.testBit (i - lo) else w.testBit i := by
  rw [setBits_eq, Nat.mul_comm _ (2 ^ lo)]
  by_cases h1 : i < lo
  · rw [Nat.testBit_two_pow_mul_add _ (Nat.mod_lt _ (Nat.two_pow_pos _)), if_pos h1, if_neg (by omega),
      Nat.testBit_mod_two_pow]
    simp [h1]
  · rw [Nat.testBit_two_pow_mul_add _ (Nat.mod_lt _ (Nat.two_pow_pos _)), if_neg h1, Nat.mul_comm _ (2 ^ (hi + 1 - lo)),
      Nat.testBit_two_pow_mul_add _ (Nat.mod_lt _ (Nat.two_pow_pos _))]
    by_cases h2 : i < hi + 1
    · rw [if_pos (by omega), if_pos (by omega), Nat.testBit_mod_two_pow]
      simp [show i - lo < hi + 1 - lo by omega]
    · rw [if_neg (by omega), if_neg (by omega), Nat.testBit_div_two_pow, Nat.testBit_div_two_pow]
      by_cases h3 : lo ≤ hi + 1
      · congr 1; omega
      · rw [show hi + 1 - lo = 0 by omega] at *; congr 1; omega

/-- A field below or above a replaced one stays. -/
theorem bits_setBits_ne (w hi lo hi' lo' v : Nat) (h : hi' < lo ∨ hi < lo') :
    bits (setBits w hi lo v) hi' lo' = bits w hi' lo' := by
  apply Nat.eq_of_testBit_eq
  intro i
  rw [bits_testBit, bits_testBit, setBits_testBit]
  by_cases h1 : i < hi' + 1 - lo'
  · rw [if_neg (by omega)]
  · simp [h1]

/-- A number of `n` bits stays one. -/
theorem setBits_lt (w hi lo v n : Nat) (hw : w < 2 ^ n) (hn : hi < n) : setBits w hi lo v < 2 ^ n := by
  apply Nat.lt_pow_two_of_testBit
  intro i hi'
  rw [setBits_testBit, if_neg (by omega)]
  exact Nat.testBit_lt_two_pow (Nat.lt_of_lt_of_le hw (Nat.pow_le_pow_right (by decide) hi'))

/-! ### Registers -/

variable (s : State)

theorem State.reg_lt (r : Reg) (i j : Nat) : s.reg r i j < 2 ^ 64 := BitVec.isLt _

/-- A written register reads as the value. -/
theorem State.reg_setReg_same (r : Reg) (i j v : Nat) : (s.setReg r i j v).reg r i j = v % 2 ^ 64 := by
  simp [State.reg, State.setReg]

/-- A write leaves every register at another address. -/
theorem State.reg_setReg_ne (r r' : Reg) (i j i' j' v : Nat) (h : r'.addr i' j' ≠ r.addr i j) :
    (s.setReg r i j v).reg r' i' j' = s.reg r' i' j' := by
  simp only [State.reg, State.setReg]
  rw [Sparse.get_set_ne h]

/-- A written field reads as the value, cut to its width. -/
theorem State.fld_setFld_same (r : Reg) (i j hi lo v : Nat) (h : hi < 64) :
    (s.setFld r i j hi lo v).fld r i j hi lo = v % 2 ^ (hi + 1 - lo) := by
  simp only [State.fld, State.setFld, State.reg_setReg_same]
  rw [Nat.mod_eq_of_lt (setBits_lt _ _ _ _ _ (s.reg_lt r i j) h), bits_setBits_same]

/-- A field beside a written one stays. -/
theorem State.fld_setFld_ne (r : Reg) (i j hi lo hi' lo' v : Nat) (h : hi < 64) (hd : hi' < lo ∨ hi < lo') :
    (s.setFld r i j hi lo v).fld r i j hi' lo' = s.fld r i j hi' lo' := by
  simp only [State.fld, State.setFld, State.reg_setReg_same]
  rw [Nat.mod_eq_of_lt (setBits_lt _ _ _ _ _ (s.reg_lt r i j) h), bits_setBits_ne _ _ _ _ _ _ hd]

/-- A register at another address stays. -/
theorem State.reg_setFld_ne (r r' : Reg) (i j i' j' hi lo v : Nat) (h : r'.addr i' j' ≠ r.addr i j) :
    (s.setFld r i j hi lo v).reg r' i' j' = s.reg r' i' j' := s.reg_setReg_ne _ _ _ _ _ _ _ h

theorem State.rbit_setRbit_same (r : Reg) (i j b : Nat) (v : Bool) (h : b < 64) :
    (s.setRbit r i j b v).rbit r i j b = v := by
  simp only [State.rbit, State.setRbit, State.setFld, State.reg_setReg_same, bit]
  rw [Nat.mod_eq_of_lt (setBits_lt _ _ _ _ _ (s.reg_lt r i j) h), setBits_testBit, if_pos (by omega)]
  cases v <;> simp

theorem State.rbit_setRbit_ne (r : Reg) (i j b b' : Nat) (v : Bool) (h : b < 64) (hd : b' ≠ b) :
    (s.setRbit r i j b v).rbit r i j b' = s.rbit r i j b' := by
  simp only [State.rbit, State.setRbit, State.setFld, State.reg_setReg_same, bit]
  rw [Nat.mod_eq_of_lt (setBits_lt _ _ _ _ _ (s.reg_lt r i j) h), setBits_testBit, if_neg (by omega)]

/-! ### Units -/

@[simp] theorem State.core_setCore_same (f c : Nat) (k : Core) : (s.setCore f c k).core f c = k := by
  simp [State.core, State.setCore]

theorem State.core_setCore_ne (f c f' c' : Nat) (k : Core) (h : coreIdx f' c' ≠ coreIdx f c) :
    (s.setCore f c k).core f' c' = s.core f' c' := by
  simp only [State.core, State.setCore]; rw [Sparse.get_set_ne h]

@[simp] theorem State.core_modCore_same (f c : Nat) (g : Core → Core) : (s.modCore f c g).core f c = g (s.core f c) := by
  simp [State.modCore]

@[simp] theorem State.flock_setFlock_same (f : Nat) (k : Flock) : (s.setFlock f k).flock f = k := by
  simp [State.flock, State.setFlock]

theorem State.flock_setFlock_ne (f f' : Nat) (k : Flock) (h : f' ≠ f) : (s.setFlock f k).flock f' = s.flock f' := by
  simp only [State.flock, State.setFlock]; rw [Sparse.get_set_ne h]

@[simp] theorem State.flock_modFlock_same (f : Nat) (g : Flock → Flock) : (s.modFlock f g).flock f = g (s.flock f) := by
  simp [State.modFlock]

@[simp] theorem State.stk_setStk_same (i : Nat) (k : Stk) : (s.setStk i k).stk i = k := by simp [State.stk, State.setStk]

@[simp] theorem State.stk_modStk_same (i : Nat) (g : Stk → Stk) : (s.modStk i g).stk i = g (s.stk i) := by simp [State.modStk]

@[simp] theorem State.port_setPort_same (q : Nat) (p : Port) : (s.setPort q p).port q = p := by simp [State.port, State.setPort]

@[simp] theorem State.port_modPort_same (q : Nat) (g : Port → Port) : (s.modPort q g).port q = g (s.port q) := by
  simp [State.modPort]

@[simp] theorem State.que_setQue_same (q : Nat) (k : CmdQueue) : (s.setQue q k).que q = k := by simp [State.que, State.setQue]

@[simp] theorem State.conn_setConn_same (t : Transport) (k : Conn) : (s.setConn t k).conn t = k := by
  simp [State.conn, State.setConn]

/-- Every lane, scalar or tally that a core update does not name stays. -/
theorem Core.s_zero (k : Core) : k.s 0 = 0 := rfl

theorem Core.s_setS_same (k : Core) (r v : Nat) (h : r ≠ 0) : (k.setS r v).s r = v % 2 ^ 32 := by
  simp [Core.s, Core.setS, h]

theorem Core.s_setS_ne (k : Core) (r r' v : Nat) (h : r' ≠ r) : (k.setS r v).s r' = k.s r' := by
  simp only [Core.s, Core.setS]
  split
  · rfl
  · split
    · rfl
    · simp only; rw [Sparse.get_set_ne h]

theorem Core.setS_zero (k : Core) (v : Nat) : k.setS 0 v = k := rfl

end Sys2Proof.Machine
end

