-- ==== Sys2Proof/Laws/Issue.lean ====
section
/-! SUPPORT. What the shared forms of a command can do: the forms that check an operand, the issue of an instruction, and the
updates of one core. -/

namespace Sys2Proof.Machine

/-! ### Forms that check an operand -/

theorem onCore_eq (f c : Nat) (s : State) (k : State → State) :
    onCore f c s k = .next (if f < 672 ∧ c < 120 then k s else s) := rfl

theorem onCore_next {f c : Nat} {s : State} {k : State → State} (hf : f < 672) (hc : c < 120) :
    onCore f c s k = .next (k s) := by simp [onCore, hf, hc]

theorem inRange_next {i n : Nat} {s : State} {k : State → State} (h : i < n) : inRange i n s k = .next (k s) := by
  simp [inRange, h]

theorem onPort_next {f p : Nat} {s : State} {k : State → State} (hf : f < 672) (hp : p < 8) :
    onPort f p s k = .next (k s) := by simp [onPort, hf, hp]

/-! ### Issue -/

/-- All that `issue` does: nothing for a word of another row, for a core that the part lacks, for one that cannot issue, and
while a register of the word is awaited; a program counter outside the region raises FETCH; a word of R176 raises ILLEGAL; and
otherwise the meaning takes place. -/
theorem issue_cases (op f c : Nat) (w : Word64) (s : State) (k : State → State) :
    (issue op f c w s k = .next s ∧ (iOp w ≠ op ∨ ¬(f < 672 ∧ c < 120) ∨ s.canIssue f c = false ∨
      (scalarsUsed w).any (s.core f c).awaits = true)) ∨
    (issue op f c w s k = .next (s.fetchFault f c) ∧ (s.flock f).regionLen c ≤ (s.core f c).pc) ∨
    (issue op f c w s k = .next (s.precise f c 0x2 0 op) ∧ illegal w = true) ∨
    (issue op f c w s k = .next (k s) ∧ s.Issues f c op w) := by
  unfold issue State.Issues onCore
  by_cases h1 : iOp w = op
  · by_cases h2 : f < 672 ∧ c < 120
    · rw [if_neg (not_not.2 h1), if_pos h2]
      cases h3 : s.canIssue f c
      · exact .inl ⟨by simp only [h3, Bool.not_false, ↓reduceIte], .inr (.inr (.inl rfl))⟩
      · by_cases h4 : (s.flock f).regionLen c ≤ (s.core f c).pc
        · exact .inr (.inl ⟨by simp only [h3, h4, Bool.not_true, Bool.false_eq_true, ↓reduceIte], h4⟩)
        · cases h5 : (scalarsUsed w).any (s.core f c).awaits
          · cases h6 : illegal w
            · exact .inr (.inr (.inr ⟨by simp only [h3, h4, h5, Bool.not_true, Bool.false_eq_true, ↓reduceIte], h2.1, h2.2, h1, rfl, by omega, rfl, rfl⟩))
            · exact .inr (.inr (.inl ⟨by simp only [h3, h4, h5, Bool.not_true, Bool.false_eq_true, ↓reduceIte], rfl⟩))
          · exact .inl ⟨by simp only [h3, h4, h5, Bool.not_true, Bool.false_eq_true, ↓reduceIte], .inr (.inr (.inr rfl))⟩
    · rw [if_neg (not_not.2 h1), if_neg h2]; exact .inl ⟨rfl, .inr (.inl h2)⟩
  · rw [if_pos h1]; exact .inl ⟨rfl, .inl h1⟩

theorem issue_next {op f c : Nat} {w : Word64} {s : State} {k : State → State} (h : s.Issues f c op w) :
    issue op f c w s k = .next (k s) := by
  obtain ⟨hf, hc, ho, h1, h2, h3, h4⟩ := h
  unfold issue
  rw [if_neg (not_not.2 ho), onCore_next hf hc]
  simp only [h1, Nat.not_le.2 h2, h3, h4, Bool.not_true, Bool.false_eq_true, ↓reduceIte]

theorem State.Issues.hold {s : State} {f c op : Nat} {w : Word64} (h : s.Issues f c op w) : (s.core f c).hold = .free := by
  have h1 := h.2.2.2.1
  simp only [State.canIssue, Bool.and_eq_true] at h1
  exact of_decide_eq_true h1.1.1.2

/-! ### Updates of one core -/

theorem OnlyCore.refl (f c : Nat) (s : State) : OnlyCore f c s s := ⟨rfl, fun _ _ _ => rfl⟩

theorem OnlyCore.trans {f c : Nat} {s t u : State} (h : OnlyCore f c s t) (h' : OnlyCore f c t u) : OnlyCore f c s u := by
  obtain ⟨h1, h2⟩ := h
  obtain ⟨h3, h4⟩ := h'
  refine ⟨?_, fun f' c' hne => (h4 f' c' hne).trans (h2 f' c' hne)⟩
  rw [h3, h1]

theorem onlyCore_setCore (f c : Nat) (s : State) (k : Core) : OnlyCore f c s (s.setCore f c k) :=
  ⟨rfl, fun _ _ h => State.core_setCore_ne s f c _ _ k h⟩

theorem onlyCore_modCore (f c : Nat) (s : State) (g : Core → Core) : OnlyCore f c s (s.modCore f c g) :=
  onlyCore_setCore f c s _

theorem onlyCore_advance (f c : Nat) (s : State) : OnlyCore f c s (s.advance f c) := onlyCore_modCore f c s _

@[simp] theorem State.core_advance (f c : Nat) (s : State) :
    (s.advance f c).core f c = { s.core f c with pc := (s.core f c).pc + 1 } := by simp [State.advance]

theorem Core.setS_pc (k : Core) (r v n : Nat) : { k with pc := n }.setS r v = { k.setS r v with pc := n } := by
  unfold Core.setS; split <;> rfl

@[simp] theorem Core.setS_pc' (k : Core) (r v : Nat) : (k.setS r v).pc = k.pc := by unfold Core.setS; split <;> rfl

/-- A scalar result changes the core alone: sd takes the value and the program counter moves on. -/
theorem retS_becomes (f c r v : Nat) (s : State) :
    CoreBecomes f c s { (s.core f c).setS r v with pc := (s.core f c).pc + 1 } (s.retS f c r v) := by
  refine ⟨(onlyCore_modCore f c s _).trans (onlyCore_advance f c _), ?_⟩
  simp [State.retS]

theorem modCore_advance_becomes (f c : Nat) (s : State) (g : Core → Core) :
    CoreBecomes f c s { g (s.core f c) with pc := (g (s.core f c)).pc + 1 } ((s.modCore f c g).advance f c) := by
  refine ⟨(onlyCore_modCore f c s _).trans (onlyCore_advance f c _), ?_⟩
  simp

theorem setLanes_foldl_pc (l : List (Nat × Nat)) (k : Core) (v : Nat) :
    (l.foldl (fun k p => k.setLane v p.2 p.1) k).pc = k.pc := by
  induction l generalizing k with
  | nil => rfl
  | cons x l ih => exact ih _

@[simp] theorem Core.setLanes_pc (k : Core) (v : Nat) (xs : List Nat) : (k.setLanes v xs).pc = k.pc :=
  setLanes_foldl_pc _ k v

/-- A vector result changes the core alone. -/
theorem retV_becomes (f c v : Nat) (ls : List Nat) (s : State) :
    CoreBecomes f c s { (s.core f c).setLanes v ls with pc := (s.core f c).pc + 1 } (s.retV f c v ls) := by
  refine ⟨(onlyCore_modCore f c s _).trans (onlyCore_advance f c _), ?_⟩
  simp [State.retV]

/-! ### Writes of flock stores and core scratch -/

theorem get_map {α : Type} {d : α} (m : SMap α) (g : Nat → α → α) (k : Nat) (h : g k d = d) :
    Sparse.get d (m.map fun e => (e.1, g e.1 e.2)) k = g k (Sparse.get d m k) := by
  induction m with
  | nil => simp [Sparse.get, h]
  | cons e m ih =>
    simp only [List.map_cons, Sparse.get]
    split
    · rename_i h'; rw [h']
    · exact ih

/-- After a write each core is as before, but that a monitored WAIT may be satisfied. -/
theorem State.core_notify (s : State) (b : Bool) (a n f c : Nat) :
    (s.notify b a n).core f c = { s.core f c with
      hold := (s.core f c).hold.evaluate (Wait.hit (if b then s.store else s.scratch) b a n (coreIdx f c)) } := by
  unfold State.core State.notify
  simp only
  rw [get_map s.cores (fun i (k : Core) => { k with hold := k.hold.evaluate (Wait.hit _ b a n i) })]
  rfl

theorem Hold.evaluate_free (g : Wait → Option Nat) : Hold.free.evaluate g = .free := rfl

/-- A write of a place in the core's own memories changes that memory in the written bytes, and no core but for satisfied
WAITs. -/
theorem wrPlace_core (s : State) (f c f' c' : Nat) (p : Place) (bs : List Byte) :
    ∃ h, (s.wrPlace f c p bs).core f' c' = { s.core f' c' with hold := h } ∧
      ((s.core f' c').hold = .free → h = .free) := by
  cases hp : p.inStore <;> simp only [State.wrPlace, hp, State.wrStore, State.wrStoreAt, State.wrScratch, State.wrScratchAt] <;>
    simp only [Bool.false_eq_true, if_false, if_true] <;> rw [State.core_notify] <;>
    exact ⟨_, rfl, fun h => by simp [State.core] at h; simp [State.core, h, Hold.evaluate]⟩

theorem wrPlace_rest (s : State) (f c : Nat) (p : Place) (bs : List Byte) :
    s.wrPlace f c p bs = { s with
      cores := (s.wrPlace f c p bs).cores,
      store := if p.inStore then Sparse.writeBytes s.store (f * storeSize + p.off) bs else s.store,
      scratch := if p.inStore then s.scratch else Sparse.writeBytes s.scratch (coreIdx f c * scratchSize + p.off) bs } := by
  cases hp : p.inStore <;> simp [State.wrPlace, hp, State.wrStore, State.wrStoreAt, State.wrScratch, State.wrScratchAt, State.notify]

end Sys2Proof.Machine
end

