-- ==== Sys2Proof/Laws/Logs.lean ====
section
/-! SUPPORT. What the fault logs and event records of every unit can change (R172, R681, R682 and their kin): registers, the
event ring and its numbers, what has left the part, and the records that wait for a restarting drover. -/

namespace Sys2Proof.Machine

/-- `t` is `s` but for what a log entry and its event record change. -/
def LogOnly (s t : State) : Prop :=
  t = { s with regs := t.regs, out := t.out, evt := t.evt, eseq := t.eseq, fw := { s.fw with events := t.fw.events } }

variable {s t u : State}

theorem LogOnly.eq (h : LogOnly s t) :
    t = { s with regs := t.regs, out := t.out, evt := t.evt, eseq := t.eseq, fw := { s.fw with events := t.fw.events } } := h

theorem LogOnly.refl (s : State) : LogOnly s s := rfl

theorem LogOnly.trans (h : LogOnly s t) (h' : LogOnly t u) : LogOnly s u := by
  unfold LogOnly at *
  rw [h'] ; rw [h]

/-! ### The fields that a log leaves -/

theorem LogOnly.dram (h : LogOnly s t) : t.dram = s.dram := (congrArg State.dram h.eq).trans rfl
theorem LogOnly.store (h : LogOnly s t) : t.store = s.store := (congrArg State.store h.eq).trans rfl
theorem LogOnly.scratch (h : LogOnly s t) : t.scratch = s.scratch := (congrArg State.scratch h.eq).trans rfl
theorem LogOnly.cores (h : LogOnly s t) : t.cores = s.cores := (congrArg State.cores h.eq).trans rfl
theorem LogOnly.flocks (h : LogOnly s t) : t.flocks = s.flocks := (congrArg State.flocks h.eq).trans rfl
theorem LogOnly.bales (h : LogOnly s t) : t.bales = s.bales := (congrArg State.bales h.eq).trans rfl
theorem LogOnly.bad (h : LogOnly s t) : t.bad = s.bad := (congrArg State.bad h.eq).trans rfl
theorem LogOnly.weak (h : LogOnly s t) : t.weak = s.weak := (congrArg State.weak h.eq).trans rfl
theorem LogOnly.inter (h : LogOnly s t) : t.inter = s.inter := (congrArg State.inter h.eq).trans rfl
theorem LogOnly.stks (h : LogOnly s t) : t.stks = s.stks := (congrArg State.stks h.eq).trans rfl
theorem LogOnly.fold (h : LogOnly s t) : t.fold = s.fold := (congrArg State.fold h.eq).trans rfl
theorem LogOnly.trk (h : LogOnly s t) : t.trk = s.trk := (congrArg State.trk h.eq).trans rfl
theorem LogOnly.ideStop (h : LogOnly s t) : t.ideStop = s.ideStop := (congrArg State.ideStop h.eq).trans rfl
theorem LogOnly.ideKeys (h : LogOnly s t) : t.ideKeys = s.ideKeys := (congrArg State.ideKeys h.eq).trans rfl
theorem LogOnly.snoops (h : LogOnly s t) : t.snoops = s.snoops := (congrArg State.snoops h.eq).trans rfl
theorem LogOnly.ni (h : LogOnly s t) : t.ni = s.ni := (congrArg State.ni h.eq).trans rfl
theorem LogOnly.rtr (h : LogOnly s t) : t.rtr = s.rtr := (congrArg State.rtr h.eq).trans rfl
theorem LogOnly.far (h : LogOnly s t) : t.far = s.far := (congrArg State.far h.eq).trans rfl
theorem LogOnly.peat (h : LogOnly s t) : t.peat = s.peat := (congrArg State.peat h.eq).trans rfl
theorem LogOnly.pserve (h : LogOnly s t) : t.pserve = s.pserve := (congrArg State.pserve h.eq).trans rfl
theorem LogOnly.queues (h : LogOnly s t) : t.queues = s.queues := (congrArg State.queues h.eq).trans rfl
theorem LogOnly.kiln (h : LogOnly s t) : t.kiln = s.kiln := (congrArg State.kiln h.eq).trans rfl
theorem LogOnly.policy (h : LogOnly s t) : t.policy = s.policy := (congrArg State.policy h.eq).trans rfl
theorem LogOnly.eid (h : LogOnly s t) : t.eid = s.eid := (congrArg State.eid h.eq).trans rfl
theorem LogOnly.muster (h : LogOnly s t) : t.muster = s.muster := (congrArg State.muster h.eq).trans rfl
theorem LogOnly.shadow (h : LogOnly s t) : t.shadow = s.shadow := (congrArg State.shadow h.eq).trans rfl
theorem LogOnly.ports (h : LogOnly s t) : t.ports = s.ports := (congrArg State.ports h.eq).trans rfl
theorem LogOnly.therm (h : LogOnly s t) : t.therm = s.therm := (congrArg State.therm h.eq).trans rfl
theorem LogOnly.pads (h : LogOnly s t) : t.pads = s.pads := (congrArg State.pads h.eq).trans rfl
theorem LogOnly.conns (h : LogOnly s t) : t.conns = s.conns := (congrArg State.conns h.eq).trans rfl
theorem LogOnly.range (h : LogOnly s t) : t.range = s.range := (congrArg State.range h.eq).trans rfl
theorem LogOnly.rst (h : LogOnly s t) : t.rst = s.rst := (congrArg State.rst h.eq).trans rfl
theorem LogOnly.gen (h : LogOnly s t) : t.gen = s.gen := (congrArg State.gen h.eq).trans rfl
theorem LogOnly.returns (h : LogOnly s t) : t.returns = s.returns := (congrArg State.returns h.eq).trans rfl
theorem LogOnly.folding (h : LogOnly s t) : t.folding = s.folding := (congrArg State.folding h.eq).trans rfl
theorem LogOnly.nor (h : LogOnly s t) : t.nor = s.nor := (congrArg State.nor h.eq).trans rfl
theorem LogOnly.evtRecv (h : LogOnly s t) : t.evtRecv = s.evtRecv := (congrArg State.evtRecv h.eq).trans rfl
theorem LogOnly.fresh (h : LogOnly s t) : t.fresh = s.fresh := (congrArg State.fresh h.eq).trans rfl
theorem LogOnly.pending (h : LogOnly s t) : t.pending = s.pending := (congrArg State.pending h.eq).trans rfl

theorem LogOnly.core (h : LogOnly s t) (f c : Nat) : t.core f c = s.core f c := by unfold State.core; rw [h.cores]
theorem LogOnly.flock (h : LogOnly s t) (f : Nat) : t.flock f = s.flock f := by unfold State.flock; rw [h.flocks]

/-! ### What is logged -/

theorem setReg_logOnly (s : State) (r : Reg) (i j v : Nat) : LogOnly s (s.setReg r i j v) := rfl
theorem emit_logOnly (s : State) (o : Output) : LogOnly s (s.emit o) := rfl

theorem setFld_logOnly (s : State) (r : Reg) (i j hi lo v : Nat) : LogOnly s (s.setFld r i j hi lo v) := setReg_logOnly ..
theorem setRbit_logOnly (s : State) (r : Reg) (i j b : Nat) (v : Bool) : LogOnly s (s.setRbit r i j b v) := setReg_logOnly ..
theorem incFld_logOnly (s : State) (r : Reg) (i j hi lo : Nat) : LogOnly s (s.incFld r i j hi lo) := setFld_logOnly ..

theorem ite_logOnly {c : Prop} [Decidable c] (h : LogOnly s t) (h' : LogOnly s u) : LogOnly s (if c then t else u) := by
  split
  · exact h
  · exact h'

/-- A record that enters the ring. -/
theorem evt_logOnly (s : State) (l : List Evt) : LogOnly s { s with evt := l } := rfl
/-- A record takes its number. -/
theorem eseq_logOnly (s : State) (n : Nat) : LogOnly s { s with eseq := n } := rfl

theorem record_logOnly (s : State) (e : Evt) : LogOnly s (s.record e) := by
  unfold State.record
  have h := (eseq_logOnly s ((s.eseq + 1) % 2 ^ 16)).trans
    (ite_logOnly (c := s.evtRecv = true) (emit_logOnly _ (.event { e with eseq := s.eseq })) (.refl _))
  exact ite_logOnly (h.trans (evt_logOnly _ _)) (h.trans (incFld_logOnly ..))

theorem event_logOnly (s : State) (source kind loc detail addr : Nat) : LogOnly s (s.event source kind loc detail addr) := by
  unfold State.event; dsimp only; split
  · rfl
  · exact record_logOnly s _

theorem log_logOnly (s : State) (r : Reg) (i j v : Nat) (cnt : Option (Nat × Nat)) (addr : Option (Reg × Nat)) (source loc : Nat) :
    LogOnly s (s.log r i j v cnt addr source loc) := by
  unfold State.log; dsimp only; split
  · exact setReg_logOnly ..
  · refine LogOnly.trans ?_ (event_logOnly _ _ _ _ _ _)
    split
    · exact (setReg_logOnly ..).trans (setReg_logOnly ..)
    · exact setReg_logOnly ..

theorem flkLog_logOnly (s : State) (f addr status source core : Nat) : LogOnly s (s.flkLog f addr status source core) := log_logOnly ..
theorem resetLog_logOnly (s : State) (addr scope target source core : Nat) : LogOnly s (s.resetLog addr scope target source core) := log_logOnly ..
theorem stkLog_logOnly (s : State) (i addr status source type core : Nat) : LogOnly s (s.stkLog i addr status source type core) := log_logOnly ..
theorem peatLog_logOnly (s : State) (f c op status rows addr : Nat) : LogOnly s (s.peatLog f c op status rows addr) := log_logOnly ..
theorem hthLog_logOnly (s : State) (q : Nat) (rx : Bool) (wl kind : Nat) : LogOnly s (s.hthLog q rx wl kind) := log_logOnly ..
theorem niLog_logOnly (s : State) (status : Nat) (dir : Bool) (space cls op peer share addr : Nat) :
    LogOnly s (s.niLog status dir space cls op peer share addr) := log_logOnly ..

theorem cxlLog_logOnly (s : State) (addr status path queue core : Nat) : LogOnly s (s.cxlLog addr status path queue core) := by
  unfold State.cxlLog; dsimp only; split
  · exact (log_logOnly ..).trans (emit_logOnly _ _)
  · exact log_logOnly ..

theorem klnLog_logOnly (s : State) (status : Nat) (ab : KAbort) (g seq kind addr : Nat) :
    LogOnly s (s.klnLog status ab g seq kind addr) := by
  unfold State.klnLog; dsimp only
  refine LogOnly.trans ?_ (log_logOnly ..)
  split
  · exact .refl s
  · exact setReg_logOnly ..

theorem niFatalEvent_logOnly (s : State) (cause device : Nat) : LogOnly s (s.niFatalEvent cause device) := by
  unfold State.niFatalEvent; dsimp only
  exact (ite_logOnly (setRbit_logOnly ..) (setReg_logOnly ..)).trans (event_logOnly ..)

theorem sigLog_logOnly (s : State) (f cause source : Nat) (inScratch : Bool) (core off : Nat) :
    LogOnly s (s.sigLog f cause source inScratch core off) := by
  unfold State.sigLog; exact ite_logOnly (setRbit_logOnly ..) (setReg_logOnly ..)

theorem ownerLog_logOnly (s : State) (o : Origin) (a st : Nat) : LogOnly s (s.ownerLog o a st) := by
  unfold State.ownerLog; split
  · split
    · exact flkLog_logOnly ..
    · exact .refl _
  · exact stkLog_logOnly ..
  · exact .refl _

theorem pathLog_logOnly (s : State) (o : Origin) (a st : Nat) : LogOnly s (s.pathLog o a st) := by
  unfold State.pathLog; split
  · exact cxlLog_logOnly ..
  · exact .refl s

/-- A register access that fails changes logs and event records alone (R3, R778). -/
theorem regFault_logOnly (s : State) (o : Origin) (a : Nat) : LogOnly s (s.regFault o a) :=
  (pathLog_logOnly s o a _).trans (ownerLog_logOnly _ o a _)

/-- Reading a register changes that register alone (R4). -/
theorem readReg_logOnly (s : State) (r : Reg) (i j : Nat) : LogOnly s (s.readReg r i j).1 := rfl

end Sys2Proof.Machine
end

