-- ==== Sys2Proof/Laws/Mem.lean ====
section
/-! SUPPORT. What accesses of stacked memory can change (R290 to R299, R376 to R380, R482 to R492, R313 to R318): the memory and
its metadata, the stack interfaces, the window directory and the requests of the NI, the tracker and its snoops, and logs. -/

namespace Sys2Proof.Machine

/-- `t` is `s` but for what an access of stacked memory changes. -/
def MemOnly (s t : State) : Prop :=
  t = { s with regs := t.regs, out := t.out, evt := t.evt, eseq := t.eseq, fw := { s.fw with events := t.fw.events },
               dram := t.dram, bales := t.bales, bad := t.bad, weak := t.weak, stks := t.stks, ni := t.ni,
               snoops := t.snoops, trk := t.trk }

variable {s t u : State}

theorem MemOnly.eq (h : MemOnly s t) :
    t = { s with regs := t.regs, out := t.out, evt := t.evt, eseq := t.eseq, fw := { s.fw with events := t.fw.events },
                 dram := t.dram, bales := t.bales, bad := t.bad, weak := t.weak, stks := t.stks, ni := t.ni,
                 snoops := t.snoops, trk := t.trk } := h

theorem MemOnly.refl (s : State) : MemOnly s s := rfl

theorem MemOnly.trans (h : MemOnly s t) (h' : MemOnly t u) : MemOnly s u := by
  unfold MemOnly at *
  rw [h']; rw [h]

/-- A log is among what an access can change. -/
theorem LogOnly.mem (h : LogOnly s t) : MemOnly s t := by
  unfold LogOnly at h; unfold MemOnly
  rw [h]

theorem ite_memOnly {c : Prop} [Decidable c] (h : MemOnly s t) (h' : MemOnly s u) : MemOnly s (if c then t else u) := by
  split
  · exact h
  · exact h'

/-! ### The fields that an access leaves -/

theorem MemOnly.store (h : MemOnly s t) : t.store = s.store := (congrArg State.store h.eq).trans rfl
theorem MemOnly.scratch (h : MemOnly s t) : t.scratch = s.scratch := (congrArg State.scratch h.eq).trans rfl
theorem MemOnly.cores (h : MemOnly s t) : t.cores = s.cores := (congrArg State.cores h.eq).trans rfl
theorem MemOnly.flocks (h : MemOnly s t) : t.flocks = s.flocks := (congrArg State.flocks h.eq).trans rfl
theorem MemOnly.inter (h : MemOnly s t) : t.inter = s.inter := (congrArg State.inter h.eq).trans rfl
theorem MemOnly.fold (h : MemOnly s t) : t.fold = s.fold := (congrArg State.fold h.eq).trans rfl
theorem MemOnly.ideStop (h : MemOnly s t) : t.ideStop = s.ideStop := (congrArg State.ideStop h.eq).trans rfl
theorem MemOnly.ideKeys (h : MemOnly s t) : t.ideKeys = s.ideKeys := (congrArg State.ideKeys h.eq).trans rfl
theorem MemOnly.rtr (h : MemOnly s t) : t.rtr = s.rtr := (congrArg State.rtr h.eq).trans rfl
theorem MemOnly.far (h : MemOnly s t) : t.far = s.far := (congrArg State.far h.eq).trans rfl
theorem MemOnly.peat (h : MemOnly s t) : t.peat = s.peat := (congrArg State.peat h.eq).trans rfl
theorem MemOnly.pserve (h : MemOnly s t) : t.pserve = s.pserve := (congrArg State.pserve h.eq).trans rfl
theorem MemOnly.queues (h : MemOnly s t) : t.queues = s.queues := (congrArg State.queues h.eq).trans rfl
theorem MemOnly.kiln (h : MemOnly s t) : t.kiln = s.kiln := (congrArg State.kiln h.eq).trans rfl
theorem MemOnly.policy (h : MemOnly s t) : t.policy = s.policy := (congrArg State.policy h.eq).trans rfl
theorem MemOnly.eid (h : MemOnly s t) : t.eid = s.eid := (congrArg State.eid h.eq).trans rfl
theorem MemOnly.muster (h : MemOnly s t) : t.muster = s.muster := (congrArg State.muster h.eq).trans rfl
theorem MemOnly.shadow (h : MemOnly s t) : t.shadow = s.shadow := (congrArg State.shadow h.eq).trans rfl
theorem MemOnly.ports (h : MemOnly s t) : t.ports = s.ports := (congrArg State.ports h.eq).trans rfl
theorem MemOnly.therm (h : MemOnly s t) : t.therm = s.therm := (congrArg State.therm h.eq).trans rfl
theorem MemOnly.pads (h : MemOnly s t) : t.pads = s.pads := (congrArg State.pads h.eq).trans rfl
theorem MemOnly.conns (h : MemOnly s t) : t.conns = s.conns := (congrArg State.conns h.eq).trans rfl
theorem MemOnly.range (h : MemOnly s t) : t.range = s.range := (congrArg State.range h.eq).trans rfl
theorem MemOnly.rst (h : MemOnly s t) : t.rst = s.rst := (congrArg State.rst h.eq).trans rfl
theorem MemOnly.gen (h : MemOnly s t) : t.gen = s.gen := (congrArg State.gen h.eq).trans rfl
theorem MemOnly.returns (h : MemOnly s t) : t.returns = s.returns := (congrArg State.returns h.eq).trans rfl
theorem MemOnly.folding (h : MemOnly s t) : t.folding = s.folding := (congrArg State.folding h.eq).trans rfl
theorem MemOnly.nor (h : MemOnly s t) : t.nor = s.nor := (congrArg State.nor h.eq).trans rfl
theorem MemOnly.evtRecv (h : MemOnly s t) : t.evtRecv = s.evtRecv := (congrArg State.evtRecv h.eq).trans rfl
theorem MemOnly.fresh (h : MemOnly s t) : t.fresh = s.fresh := (congrArg State.fresh h.eq).trans rfl
theorem MemOnly.pending (h : MemOnly s t) : t.pending = s.pending := (congrArg State.pending h.eq).trans rfl

theorem MemOnly.core (h : MemOnly s t) (f c : Nat) : t.core f c = s.core f c := by unfold State.core; rw [h.cores]
theorem MemOnly.flock (h : MemOnly s t) (f : Nat) : t.flock f = s.flock f := by unfold State.flock; rw [h.flocks]

/-! ### Single changes -/

theorem dram_memOnly (s : State) (m : SMap Byte) : MemOnly s { s with dram := m } := rfl
theorem ni_memOnly (s : State) (n : Ni) : MemOnly s { s with ni := n } := rfl
theorem trk_memOnly (s : State) (l : List Nat) : MemOnly s { s with trk := l } := rfl
theorem setBale_memOnly (s : State) (b : Nat) (m : Meta) : MemOnly s (s.setBale b m) := rfl
theorem mendBale_memOnly (s : State) (b : Nat) : MemOnly s (s.mendBale b) := rfl
theorem rewritten_memOnly (s : State) (k : Nat) : MemOnly s (s.rewritten k) := rfl
theorem setStk_memOnly (s : State) (i : Nat) (k : Stk) : MemOnly s (s.setStk i k) := rfl
theorem modStk_memOnly (s : State) (i : Nat) (g : Stk → Stk) : MemOnly s (s.modStk i g) := rfl
theorem setLine_memOnly (s : State) (l : Nat) (x : LineSt) : MemOnly s (s.setLine l x) := rfl
theorem setCohw_memOnly (s : State) (xs : List CohWrite) : MemOnly s (s.setCohw xs) := rfl
theorem setSnoops_memOnly (s : State) (xs : List Snoop) : MemOnly s (s.setSnoops xs) := rfl
theorem leaveSnoops_memOnly (s : State) (p : Snoop → Bool) (q : StackReq → Bool) : MemOnly s (s.leaveSnoops p q) := rfl
theorem useSnoops_memOnly (s : State) (r : StackReq) (l : Nat) : MemOnly s (s.useSnoops r l) := rfl
theorem niAsk_memOnly (s : State) (r : NiReq) : MemOnly s (s.niAsk r) := rfl
theorem takeBrought_memOnly (s : State) (r : StackReq) : MemOnly s (s.takeBrought r) := rfl
theorem bring_memOnly (s : State) (line st : Nat) (data : List Byte) (ws : List FillWait) : MemOnly s (s.bring line st data ws) := rfl

theorem foldl_memOnly {α : Type} (g : State → α → State) (h : ∀ s x, MemOnly s (g s x)) :
    ∀ (l : List α) (s : State), MemOnly s (l.foldl g s)
  | [], s => .refl s
  | x :: l, s => (h s x).trans (foldl_memOnly g h l (g s x))

theorem ecc_memOnly (s : State) (key : Nat) (x : Ecc) : MemOnly s (s.ecc key x) := by
  cases x with
  | clean => exact .refl s
  | corrected => unfold State.ecc; exact ite_memOnly (.refl s) rfl
  | uncorrectable => rfl

theorem eccs_memOnly (s : State) (a n : Nat) (errs : Errs) : MemOnly s (s.eccs a n errs) :=
  foldl_memOnly _ (fun s _ => ite_memOnly (ecc_memOnly s _ _) (.refl s)) _ s

/-! ### The stack interface -/

theorem stkRefuse_memOnly (s : State) (i a source core : Nat) : MemOnly s (s.stkRefuse i a source core) :=
  ((stkLog_logOnly ..).trans (resetLog_logOnly ..)).mem

theorem uncorrected_memOnly (s : State) (i a n source type core : Nat) : MemOnly s (s.uncorrected i a n source type core) :=
  ((setFld_logOnly ..).trans (stkLog_logOnly ..)).mem

theorem corrected_memOnly (s : State) (i n : Nat) : MemOnly s (s.corrected i n) :=
  ite_memOnly (.refl s) (setFld_logOnly ..).mem

theorem readSector_memOnly (s : State) (source core a : Nat) : MemOnly s (s.readSector source core a).1 := by
  unfold State.readSector; dsimp only; split
  · exact stkRefuse_memOnly ..
  · split
    · exact uncorrected_memOnly ..
    · exact corrected_memOnly ..

theorem writeSector_memOnly (s : State) (source core a : Nat) (runs : List (Nat × List Byte)) :
    MemOnly s (s.writeSector source core a runs).1 := by
  unfold State.writeSector; dsimp only; split
  · exact stkRefuse_memOnly ..
  · split
    · exact uncorrected_memOnly ..
    · exact ((corrected_memOnly ..).trans (rewritten_memOnly ..)).trans (dram_memOnly ..)

theorem readStack_memOnly (source core : Nat) : ∀ (fuel : Nat) (s : State) (a n : Nat),
    MemOnly s (s.readStack source core fuel a n).1
  | 0, s, _, _ => .refl s
  | fuel + 1, s, a, n => by
    unfold State.readStack; split
    · exact .refl s
    · dsimp only
      have h := readSector_memOnly s source core a
      split
      · rename_i t bs heq
        rw [heq] at h
        exact h.trans (readStack_memOnly source core fuel t _ _)
      · rename_i t st bs hst heq
        rw [heq] at h
        exact h

theorem writeStack_memOnly (source core : Nat) : ∀ (fuel : Nat) (s : State) (a : Nat) (bs : List Byte),
    MemOnly s (s.writeStack source core fuel a bs).1
  | 0, s, _, _ => .refl s
  | fuel + 1, s, a, bs => by
    unfold State.writeStack; split
    · exact .refl s
    · dsimp only
      have h := writeSector_memOnly s source core a [(a, bs.take (32 - a % 32))]
      split
      · rename_i t heq
        rw [heq] at h
        exact h.trans (writeStack_memOnly source core fuel t _ _)
      · exact h

theorem readBale_memOnly (s : State) (source core a : Nat) : MemOnly s (s.readBale source core a).1 := by
  unfold State.readBale; dsimp only; split
  · exact stkRefuse_memOnly ..
  · split
    · exact corrected_memOnly ..
    · exact (corrected_memOnly ..).trans (uncorrected_memOnly ..)

theorem writeTagged_memOnly (s : State) (source core a : Nat) (data : List Byte) (tag crc : Nat) :
    MemOnly s (s.writeTagged source core a data tag crc).1 := by
  unfold State.writeTagged; dsimp only; split
  · exact stkRefuse_memOnly ..
  · split
    · exact (stkLog_logOnly ..).mem
    · exact ((dram_memOnly s _).trans (setBale_memOnly ..)).trans (mendBale_memOnly ..)

theorem writeUntagged_memOnly (s : State) (source core a : Nat) (data : List Byte) :
    MemOnly s (s.writeUntagged source core a data).1 := by
  unfold State.writeUntagged; dsimp only; split
  · exact stkRefuse_memOnly ..
  · exact ((dram_memOnly s _).trans (setBale_memOnly ..)).trans (mendBale_memOnly ..)

/-! ### The tracker, the windows and the gate -/

theorem sendSnoop_memOnly (s : State) (line : Nat) (inv : Bool) (reqs : List StackReq) : MemOnly s (s.sendSnoop line inv reqs) := by
  unfold State.sendSnoop
  exact ite_memOnly (((setSnoops_memOnly ..).trans (incFld_logOnly ..).mem).trans (emit_logOnly ..).mem) (setSnoops_memOnly ..)

theorem trackLine_memOnly (s : State) (r : StackReq) (write : Bool) (line : Nat) : MemOnly s (s.trackLine r write line).1 := by
  unfold State.trackLine; split
  · exact .refl s
  · split
    · split
      · exact sendSnoop_memOnly ..
      · exact .refl s
    · split
      · exact setSnoops_memOnly ..
      · exact .refl s
      · exact (leaveSnoops_memOnly ..).trans (cxlLog_logOnly ..).mem

theorem askMember_memOnly (s : State) (rank op line w4 : Nat) (pay : PaySrc) (owner : TagOwner) :
    MemOnly s (s.askMember rank op line w4 pay owner) := rfl

theorem filled_memOnly (s : State) (line st : Nat) : MemOnly s (s.filled line st) := by
  unfold State.filled; split
  · exact ite_memOnly (setLine_memOnly ..) ((bring_memOnly ..).trans (setLine_memOnly ..))
  · exact (ite_memOnly (.refl s) (bring_memOnly ..)).trans (setLine_memOnly ..)
  · exact .refl s

theorem cohRead_memOnly (s : State) (r : StackReq) (reads : Bool) (line : Nat) : MemOnly s (s.cohRead r reads line).1 := by
  unfold State.cohRead; split
  · exact .refl s
  · split
    · exact .refl s
    · dsimp only; split
      · exact .refl s
      · exact (askMember_memOnly ..).trans (setLine_memOnly ..)
      · exact setLine_memOnly ..
      · exact setLine_memOnly ..
      · exact .refl s

theorem invalidate_memOnly (s : State) (w : Window) (line mask : Nat) : MemOnly s (s.invalidate w line mask) :=
  (foldl_memOnly _ (fun _ _ => askMember_memOnly ..) _ s).trans (setLine_memOnly ..)

theorem cohHomeWrite_memOnly (s : State) (line : Nat) : MemOnly s (s.cohHomeWrite line).1 := by
  unfold State.cohHomeWrite; split
  · exact invalidate_memOnly ..
  · exact .refl s
  · exact .refl s

theorem cohRemoteWrite_memOnly (s : State) (r : StackReq) (home a : Nat) (bs : List Byte) (add : Bool) :
    MemOnly s (s.cohRemoteWrite r home a bs add).1 := by
  unfold State.cohRemoteWrite; dsimp only; split
  · exact .refl s
  · exact .refl s
  · exact setLine_memOnly ..
  · exact setLine_memOnly ..
  · have h := (setLine_memOnly s (a / 64 * 64) .inv).trans (setCohw_memOnly _
      ((s.setLine (a / 64 * 64) .inv).ni.cohw ++ [{ req := r, addr := a, data := bs, add := add, st := none, old := 0 }]))
    split
    · exact h.trans (askMember_memOnly ..)
    · exact h.trans (askMember_memOnly ..)

theorem takeCohWrite_memOnly (s : State) (r : StackReq) (a : Nat) : MemOnly s (s.takeCohWrite r a).1 := by
  unfold State.takeCohWrite; split
  · exact setCohw_memOnly ..
  · exact .refl s

theorem mirrorRec_memOnly (s : State) (a : Nat) (bs : List Byte) : MemOnly s (s.mirrorRec a bs) := by
  unfold State.mirrorRec; split
  · exact .refl s
  · dsimp only
    exact ite_memOnly ((setFld_logOnly ..).trans (event_logOnly ..)).mem (niAsk_memOnly ..)

theorem mirrorWrite_memOnly : ∀ (n : Nat) (s : State) (a : Nat) (bs : List Byte), MemOnly s (s.mirrorWrite n a bs)
  | 0, s, _, _ => .refl s
  | n + 1, s, a, bs => by
    unfold State.mirrorWrite; split
    · exact .refl s
    · exact (ite_memOnly (.refl s) (mirrorRec_memOnly ..)).trans (mirrorWrite_memOnly n _ _ _)

theorem mirrored_memOnly (s : State) (a : Nat) (bs : List Byte) : MemOnly s (s.mirrored a bs) := mirrorWrite_memOnly ..

/-! ### What an access needs -/

theorem prepRead_memOnly (host : Bool) (r : StackReq) (reads : Bool) : ∀ (ls : List Nat) (s : State),
    MemOnly s (s.prepRead host r reads ls).1
  | [], s => .refl s
  | l :: ls, s => by
    unfold State.prepRead
    refine MemOnly.trans ?_ (prepRead_memOnly host r reads ls _)
    split
    · exact .refl s
    · refine MemOnly.trans (t := (if host = true then (s, Ready.go) else s.trackLine r false l).1) ?_ (cohRead_memOnly ..)
      split
      · exact .refl s
      · exact trackLine_memOnly ..

theorem prepLine_memOnly (s : State) (host : Bool) (r : StackReq) (a : Nat) (bs : List Byte) :
    MemOnly s (s.prepLine host r a bs).1 := by
  unfold State.prepLine
  have h : MemOnly s (if host = true then (s, Ready.go) else s.trackLine r true (a / 64 * 64)).1 := by
    split
    · exact .refl s
    · exact trackLine_memOnly ..
  generalize (if host = true then (s, Ready.go) else s.trackLine r true (a / 64 * 64)) = x at h ⊢
  obtain ⟨t, y⟩ := x
  dsimp only at h ⊢
  split
  · split
    · exact h.trans (cohRemoteWrite_memOnly ..)
    · exact h
  · exact h.trans (cohHomeWrite_memOnly ..)

theorem prepLines_memOnly (host : Bool) (r : StackReq) : ∀ (ps : List (Nat × List Byte)) (s : State),
    MemOnly s (s.prepLines host r ps).1
  | [], s => .refl s
  | (a, bs) :: ps, s => by
    unfold State.prepLines
    refine MemOnly.trans ?_ (prepLines_memOnly host r ps _)
    split
    · exact prepLine_memOnly ..
    · exact .refl s

/-! ### Performing an access -/

theorem useLines_memOnly (s : State) (r : StackReq) (ls : List Nat) : MemOnly s (s.useLines r ls) :=
  foldl_memOnly _ (fun s l => useSnoops_memOnly s r l) ls s

theorem readLine_memOnly (s : State) (r : StackReq) (a m : Nat) : MemOnly s (s.readLine r a m).1 := by
  unfold State.readLine; split
  · exact .refl s
  · exact readStack_memOnly ..

theorem readLines_memOnly (r : StackReq) : ∀ (fuel : Nat) (s : State) (a n : Nat), MemOnly s (s.readLines r fuel a n).1
  | 0, s, _, _ => .refl s
  | fuel + 1, s, a, n => by
    unfold State.readLines; split
    · exact .refl s
    · dsimp only
      refine (readLine_memOnly s r a (min n (64 - a % 64))).trans ?_
      split
      · exact .refl _
      · exact readLines_memOnly r fuel _ _ _

theorem writeWhole_memOnly (s : State) (source core a : Nat) (bs : List Byte) :
    MemOnly s (s.writeWhole source core a bs).1 := by
  unfold State.writeWhole; split
  · exact writeSector_memOnly ..
  · exact writeStack_memOnly ..

theorem writeRmw_memOnly (s : State) (r : StackReq) (op x y : Nat) : MemOnly s (s.writeRmw r op x y).1 :=
  writeSector_memOnly ..

theorem writeLine_memOnly (s : State) (r : StackReq) (mask : Nat) (bs : List Byte) : MemOnly s (s.writeLine r mask bs).1 := by
  unfold State.writeLine; dsimp only; split
  · exact (writeSector_memOnly ..).trans (writeSector_memOnly ..)
  · exact (writeSector_memOnly ..).trans (foldl_memOnly _ (fun s y => writeSector_memOnly ..) _ _)

theorem takeCohWrites_memOnly (r : StackReq) : ∀ (ps : List (Nat × List Byte)) (s : State), MemOnly s (s.takeCohWrites r ps).1
  | [], s => .refl s
  | (a, _) :: ps, s => (takeCohWrite_memOnly s r a).trans (takeCohWrites_memOnly r ps _)

theorem writeHere_memOnly (s : State) (e : StkEnt) : MemOnly s (s.writeHere e).1 := by
  unfold State.writeHere; dsimp only; split
  · exact writeTagged_memOnly ..
  · exact writeUntagged_memOnly ..
  · exact (ecc_memOnly ..).trans (writeSector_memOnly ..)
  · rename_i m bs errs _
    exact ((eccs_memOnly s e.req.addr 2 errs).trans (writeLine_memOnly _ e.req m.toNat bs)).trans
      (ite_memOnly (foldl_memOnly _ (fun s p => mirrored_memOnly ..) _ _) (.refl _))
  · split
    · exact writeWhole_memOnly ..
    · exact writeStack_memOnly ..
  · exact writeRmw_memOnly ..
  · exact rewritten_memOnly ..
  · exact .refl s

theorem perfEnt_memOnly (s : State) (e : StkEnt) : MemOnly s (s.perfEnt e).1 := by
  unfold State.perfEnt; dsimp only; split
  · split
    · exact (useLines_memOnly ..).trans (takeCohWrites_memOnly ..)
    · exact (useLines_memOnly ..).trans (writeHere_memOnly ..)
  · split
    · exact ((eccs_memOnly ..).trans (readBale_memOnly ..)).trans (useLines_memOnly ..)
    · refine MemOnly.trans ?_ ((readLines_memOnly ..).trans ((useLines_memOnly ..).trans (takeBrought_memOnly ..)))
      split
      · exact ecc_memOnly ..
      · exact eccs_memOnly ..
      · exact .refl s

/-! ### Serving, arrival and grants -/

theorem entReady_memOnly (s : State) (i : Nat) (e : StkEnt) : MemOnly s (s.entReady i e).1 := by
  unfold State.entReady; dsimp only; split
  · exact .refl s
  · split
    · split
      · exact .refl s
      · split
        · exact trackLine_memOnly ..
        · exact prepLines_memOnly ..
    · split
      · exact prepRead_memOnly ..
      · exact prepRead_memOnly ..

theorem grantLine_memOnly (s : State) (line : Nat) : MemOnly s (s.grantLine line).1 := by
  unfold State.grantLine; dsimp only; split
  · exact .refl s
  · split
    · exact trk_memOnly ..
    · split
      · exact .refl s
      · split
        · exact .refl s
        · exact sendSnoop_memOnly ..

theorem answer_memOnly (s : State) (i : Nat) (e : StkEnt) (v : Served) : MemOnly s (s.answer i e v) := by
  unfold State.answer; split
  · exact modStk_memOnly ..
  · exact (incFld_logOnly ..).mem
  · exact (emit_logOnly ..).mem
  · exact filled_memOnly ..
  · exact .refl s
  · dsimp only
    refine MemOnly.trans (t := if v.status = stOk then s else (s.cxlLog e.req.addr v.status 0x1 0 0).emit .aer)
      (ite_memOnly (.refl s) ((cxlLog_logOnly ..).trans (emit_logOnly ..)).mem) ?_
    exact ite_memOnly (.refl _) (ite_memOnly (emit_logOnly ..).mem (emit_logOnly ..).mem)

theorem grantFor_memOnly (s : State) (e : StkEnt) (r : Ready) : MemOnly s (s.grantFor e r).1 := by
  unfold State.grantFor; split
  · exact grantLine_memOnly ..
  · exact .refl s

theorem endEnt_memOnly (s : State) (i : Nat) (e : StkEnt) (r : Ready) : MemOnly s (s.endEnt i e r) := by
  unfold State.endEnt; dsimp only
  refine MemOnly.trans ?_ ((modStk_memOnly ..).trans (answer_memOnly ..))
  split
  · exact (takeBrought_memOnly ..).trans (leaveSnoops_memOnly ..)
  · exact perfEnt_memOnly ..

theorem serveEnt_memOnly (s : State) (i : Nat) (e : StkEnt) : MemOnly s (s.serveEnt i e) := by
  unfold State.serveEnt; dsimp only; split
  · exact .refl s
  · have h := entReady_memOnly s i e
    split
    · rename_i heq; rw [heq] at h; exact h
    · rename_i t y _ heq
      rw [heq] at h
      have h' := grantFor_memOnly t e y
      split
      · rename_i heq'; rw [heq'] at h'; exact (h.trans h').trans (endEnt_memOnly ..)
      · rename_i heq'; rw [heq'] at h'; exact h.trans h'

theorem serve_memOnly (s : State) (i : Nat) : MemOnly s (s.serve i) := foldl_memOnly _ (fun s e => serveEnt_memOnly s i e) _ s

theorem serveAll_memOnly (s : State) : MemOnly s s.serveAll := foldl_memOnly _ serve_memOnly _ s

theorem grantOne_memOnly {s t : State} {i : Nat} (h : s.grantOne i = some t) : MemOnly s t := by
  unfold State.grantOne at h
  split at h
  · cases h
  · split at h
    · cases h
    · cases h; exact modStk_memOnly ..

theorem grants_memOnly (i : Nat) : ∀ (n : Nat) (s : State), MemOnly s (s.grants i n)
  | 0, s => .refl s
  | n + 1, s => by
    unfold State.grants; split
    · rename_i t heq
      exact ((grantOne_memOnly heq).trans (serve_memOnly ..)).trans (grants_memOnly i n _)
    · exact .refl s

theorem grantAll_memOnly (s : State) (i : Nat) : MemOnly s (s.grantAll i) := grants_memOnly ..

/-- A request that arrives at a stack, whether it is refused, deferred, kept waiting or served. -/
theorem arrive_memOnly (s : State) (i : Nat) (r : StackReq) (acc : StkAcc) (owner : StkOwner) :
    MemOnly s (s.arrive i r acc owner) := by
  unfold State.arrive; dsimp only; split
  · exact (stkRefuse_memOnly ..).trans (answer_memOnly ..)
  · refine (grantAll_memOnly s i).trans ?_
    split
    · exact (modStk_memOnly ..).trans (serve_memOnly ..)
    · exact ite_memOnly (answer_memOnly ..) (modStk_memOnly ..)

theorem refuseAll_memOnly (s : State) (i : Nat) : MemOnly s (s.refuseAll i) :=
  (modStk_memOnly ..).trans (foldl_memOnly _ (fun _ _ => (stkRefuse_memOnly ..).trans (answer_memOnly ..)) _ _)

theorem dropUnits_memOnly (s : State) (sel : StackReq → Bool) (owner : StkOwner) : MemOnly s (s.dropUnits sel owner) :=
  ((leaveSnoops_memOnly ..).trans (foldl_memOnly _ (fun _ _ => modStk_memOnly ..) _ _)).trans (ni_memOnly ..)

/-! ### Accesses of units -/

theorem unitQueue_memOnly (s : State) (i : Nat) (r : StackReq) (acc : StkAcc) : MemOnly s (s.unitQueue i r acc) := rfl

theorem unitRoom_memOnly (s : State) (i : Nat) (r : StackReq) : MemOnly s (s.unitRoom i r).1 := by
  unfold State.unitRoom; split
  · exact .refl s
  · dsimp only
    split
    · exact grantAll_memOnly ..
    · split
      · exact grantAll_memOnly ..
      · split
        · exact grantAll_memOnly ..
        · exact (grantAll_memOnly ..).trans (unitQueue_memOnly ..)

theorem unitLeave_memOnly (s : State) (i : Nat) (r : StackReq) : MemOnly s (s.unitLeave i r) := by
  unfold State.unitLeave; exact ite_memOnly (modStk_memOnly ..) (.refl s)

theorem unitRooms_memOnly (r : StackReq) : ∀ (is : List Nat) (s : State), MemOnly s (s.unitRooms r is).1
  | [], s => .refl s
  | i :: is, s => (unitRoom_memOnly s i r).trans (unitRooms_memOnly r is _)

theorem unitRead_memOnly (s : State) (r : StackReq) (reads : Bool) (ls : List Nat) : MemOnly s (s.unitRead r reads ls).1 := by
  unfold State.unitRead
  have h := prepRead_memOnly false r reads ls s
  split
  · rename_i t heq
    rw [heq] at h
    split
    · exact h
    · have h' := unitRooms_memOnly r (t.stacksOf ls) t
      split
      · rename_i heq'; rw [heq'] at h'; exact h.trans h'
      · rename_i heq'; rw [heq'] at h'; exact h.trans h'
  · exact h

theorem unitDone_memOnly (s : State) (r : StackReq) (ls : List Nat) : MemOnly s (s.unitDone r ls) :=
  ((useLines_memOnly ..).trans (takeBrought_memOnly ..)).trans (foldl_memOnly _ (fun _ _ => unitLeave_memOnly ..) _ _)

theorem tryRead_memOnly (s : State) (r : StackReq) (n : Nat) : MemOnly s (s.tryRead r n).1 := by
  unfold State.tryRead
  have h := unitRead_memOnly s r true (linesOf r.addr n)
  dsimp only; split
  · rename_i heq; rw [heq] at h; exact h
  · rename_i heq; rw [heq] at h; exact h.trans (dropUnits_memOnly ..)
  · rename_i heq; rw [heq] at h
    exact (h.trans (readLines_memOnly ..)).trans (unitDone_memOnly ..)

theorem tryReadBale_memOnly (s : State) (r : StackReq) (errs : Errs) : MemOnly s (s.tryReadBale r errs).1 := by
  unfold State.tryReadBale
  have h := unitRead_memOnly s r false (linesOf r.addr 4096)
  dsimp only; split
  · rename_i heq; rw [heq] at h; exact h
  · rename_i heq; rw [heq] at h; exact h.trans (dropUnits_memOnly ..)
  · rename_i heq; rw [heq] at h
    exact ((h.trans (eccs_memOnly ..)).trans (readBale_memOnly ..)).trans (unitDone_memOnly ..)

theorem takeResult_memOnly (s : State) (i : Nat) (r : StackReq) : MemOnly s (s.takeResult i r) := rfl

theorem reissue_memOnly (s : State) (i : Nat) (r : StackReq) : MemOnly s (s.reissue i r) := by
  unfold State.reissue; split
  · exact ite_memOnly (takeResult_memOnly ..) (.refl s)
  · exact .refl s

theorem hold_memOnly (s : State) (i : Nat) (r : StackReq) (acc : StkAcc) : MemOnly s (s.hold i r acc) := by
  unfold State.hold; dsimp only
  refine MemOnly.trans ((unitLeave_memOnly s i r).trans (grantAll_memOnly _ i)) ?_
  split
  · exact modStk_memOnly ..
  · exact unitQueue_memOnly ..

theorem prepHere_memOnly (s : State) (i : Nat) (r : StackReq) (acc : StkAcc) : MemOnly s (s.prepHere i r acc).1 := by
  unfold State.prepHere; split
  · exact hold_memOnly ..
  · split
    · exact .refl s
    · have h := prepLines_memOnly false r (acc.lines r.addr) s
      split
      · rename_i t heq
        rw [heq] at h
        dsimp only
        refine MemOnly.trans (h.trans (unitRoom_memOnly t i r)) ?_
        split
        · exact .refl _
        · exact .refl _
      · exact h

theorem prepAway_memOnly (s : State) (home : Nat) (r : StackReq) (acc : StkAcc) : MemOnly s (s.prepAway home r acc).1 := by
  unfold State.prepAway; dsimp only
  refine (trackLine_memOnly s r true (r.addr / 64 * 64)).trans ?_
  split
  · exact cohRemoteWrite_memOnly ..
  · exact cohRemoteWrite_memOnly ..
  · exact .refl _

theorem prepPart_memOnly (s : State) (u : StackReq) (p : Nat × StkAcc) : MemOnly s (s.prepPart u p).1 := by
  unfold State.prepPart; dsimp only; split
  · exact prepAway_memOnly ..
  · split
    · exact reissue_memOnly ..
    · split
      · exact reissue_memOnly ..
      · exact (reissue_memOnly ..).trans (prepHere_memOnly ..)

theorem prepParts_memOnly (u : StackReq) : ∀ (ps : List (Nat × StkAcc)) (s : State), MemOnly s (s.prepParts u ps).1
  | [], s => .refl s
  | p :: ps, s => (prepPart_memOnly s u p).trans (prepParts_memOnly u ps _)

theorem commitPart_memOnly (s : State) (u : StackReq) (p : Nat × StkAcc) : MemOnly s (s.commitPart u p).1 := by
  unfold State.commitPart; dsimp only; split
  · exact takeResult_memOnly ..
  · exact (useSnoops_memOnly ..).trans (takeCohWrite_memOnly ..)
  · exact (perfEnt_memOnly ..).trans (unitLeave_memOnly ..)

theorem commitParts_memOnly (u : StackReq) : ∀ (ps : List (Nat × StkAcc)) (s : State) (n : Nat),
    MemOnly s (s.commitParts u n ps).1
  | [], s, _ => .refl s
  | p :: ps, s, n => by
    unfold State.commitParts; dsimp only
    refine (commitPart_memOnly s u p).trans ?_
    split
    · exact commitParts_memOnly u ps _ _
    · exact dropUnits_memOnly ..

theorem prepWrites_memOnly (s : State) (u : StackReq) (ws : List UnitWrite) : MemOnly s (s.prepWrites u ws).1 := by
  unfold State.prepWrites; dsimp only
  have h := prepParts_memOnly u (ws.flatMap (s.parts u.source)) s
  split
  · rename_i heq; rw [heq] at h; exact h.trans (dropUnits_memOnly ..)
  · exact h

theorem commitUnit_memOnly (s : State) (u : StackReq) (w : UnitWrite) : MemOnly s (s.commitUnit u w).1 :=
  commitParts_memOnly ..

theorem tryUnit_memOnly (s : State) (u : StackReq) (w : UnitWrite) : MemOnly s (s.tryUnit u w).1 := by
  unfold State.tryUnit
  have h := prepWrites_memOnly s u [w]
  split
  · rename_i heq; rw [heq] at h; exact h
  · rename_i heq; rw [heq] at h; exact h
  · rename_i heq; rw [heq] at h; exact h.trans (commitUnit_memOnly ..)

theorem tryWrite_memOnly (s : State) (r : StackReq) (bs : List Byte) : MemOnly s (s.tryWrite r bs).1 := tryUnit_memOnly ..

theorem tryWriteBale_memOnly (s : State) (r : StackReq) (tag : Option Nat) (bs : List Byte) :
    MemOnly s (s.tryWriteBale r tag bs).1 := tryUnit_memOnly ..

theorem tryRmw_memOnly (s : State) (r : StackReq) (op x y : Nat) : MemOnly s (s.tryRmw r op x y).1 := by
  unfold State.tryRmw; dsimp only
  have h := prepPart_memOnly s r (r.addr, .rmw op x y)
  split
  · rename_i heq; rw [heq] at h; exact h
  · rename_i heq; rw [heq] at h; exact h.trans (dropUnits_memOnly ..)
  · rename_i heq; rw [heq] at h; exact h.trans (commitPart_memOnly ..)

/-- A read of local memory of any kind changes no more than that. -/
theorem tryReadMem_memOnly (s : State) (r : StackReq) (rs n : Nat) : MemOnly s (s.tryReadMem r rs n).1 := by
  unfold State.tryReadMem; split
  · exact .refl s
  · exact tryRead_memOnly ..
  · split
    · exact (resetLog_logOnly ..).mem
    · exact .refl s

end Sys2Proof.Machine
end

