-- ==== Sys2Proof/Laws/PerInstr.lean ====
section
/-! SUPPORT. A statement about every command as syntax: a well-formed command that names a core names one that the part has
(672 flocks of 120 cores). -/

namespace Sys2Proof.Laws.NamesRealCore

open Sys2Proof.Machine

/-- The core that a command names, as flock and core within the flock. -/
def core? : Instr → Option (Nat × Nat)
  | .alu f c _ => some (f, c)
  | .alui f c _ => some (f, c)
  | .li f c _ => some (f, c)
  | .ld f c _ => some (f, c)
  | .st f c _ => some (f, c)
  | .br f c _ => some (f, c)
  | .jal f c _ => some (f, c)
  | .jr f c _ => some (f, c)
  | .tixr f c _ => some (f, c)
  | .qwait f c _ => some (f, c)
  | .qwaitRelease f c => some (f, c)
  | .stop f c _ => some (f, c)
  | .nop f c _ => some (f, c)
  | .sread f c _ => some (f, c)
  | .movt f c _ => some (f, c)
  | .mft f c _ => some (f, c)
  | .taddi f c _ => some (f, c)
  | .vop f c _ => some (f, c)
  | .vops f c _ => some (f, c)
  | .vfma f c _ => some (f, c)
  | .vld f c _ => some (f, c)
  | .vst f c _ => some (f, c)
  | .vred f c _ => some (f, c)
  | .vlane f c _ => some (f, c)
  | .vmxq f c _ => some (f, c)
  | .wload f c _ => some (f, c)
  | .wswap f c _ => some (f, c)
  | .stream f c _ => some (f, c)
  | .drain f c _ => some (f, c)
  | .tclr f c _ => some (f, c)
  | .accview f c _ => some (f, c)
  | .gdrain f c _ => some (f, c)
  | .dma f c _ => some (f, c)
  | .ratom f c _ => some (f, c)
  | .rsig f c _ => some (f, c)
  | .rfence f c _ => some (f, c)
  | .sigadd f c _ => some (f, c)
  | .sigrd f c _ => some (f, c)
  | .siginit f c _ => some (f, c)
  | .wait f c _ => some (f, c)
  | .arrayStart f c => some (f, c)
  | .arrayRowFetch f c _ _ => some (f, c)
  | .roadRowArrival _ _ _ => none
  | .roadCreditReturn _ _ => none
  | .roadTimeout f c => some (f, c)
  | .waitPoll f c => some (f, c)
  | .waitSatisfied f c => some (f, c)
  | .waitExpiry f c => some (f, c)
  | .flkCoreHaltWrite f c => some (f, c)
  | .flkCoreDoneWrite f c => some (f, c)
  | .coreRestart f c => some (f, c)
  | .dmaDescriptorStart f c => some (f, c)
  | .dmaComplete f c _ => some (f, c)
  | .dmaTimeout f c _ => some (f, c)
  | .dmaPushAdmit _ => none
  | .baleReadComplete f c _ _ => some (f, c)
  | .foldLoad _ => none
  | .remap _ => none
  | .unload _ => none
  | .pipelineStart _ => none
  | .drvRankWrite _ => none
  | .stackWholeBaleRead _ _ => none
  | .stackTaggedWrite _ _ _ _ => none
  | .stackUntaggedWrite _ _ => none
  | .stackSectorRead _ _ => none
  | .stackSectorWrite _ _ _ _ => none
  | .stackEntryGrant _ => none
  | .refresh _ _ => none
  | .scrub _ _ _ => none
  | .zeroFill _ => none
  | .wipe _ => none
  | .wipeComplete _ => none
  | .writeGateChange _ _ => none
  | .heldWriteExpiry _ _ => none
  | .peatDescriptorAdmit f c _ => some (f, c)
  | .gather f c _ => some (f, c)
  | .segsum f c _ => some (f, c)
  | .wpool f c _ => some (f, c)
  | .optupd f c _ => some (f, c)
  | .kread f c _ => some (f, c)
  | .kwrite f c _ => some (f, c)
  | .kadd f c _ => some (f, c)
  | .peatRowRequest _ => none
  | .peatRowData _ _ => none
  | .deliveryBlock f c _ _ => some (f, c)
  | .peatComplete f c _ => some (f, c)
  | .cxlMemRead _ _ _ => none
  | .cxlMemWrite _ _ _ _ _ => none
  | .cxlHostEvict _ => none
  | .birsp _ _ => none
  | .biTimeout _ => none
  | .bar0Access _ _ _ => none
  | .cxlQsqDb _ _ => none
  | .cxlQcqDb _ _ => none
  | .queueEnable _ _ => none
  | .queueDisable _ _ => none
  | .sqFetch _ _ => none
  | .queueNop _ _ => none
  | .queueCopy _ _ _ => none
  | .queueSignal _ _ => none
  | .queueFence _ _ => none
  | .cqPost _ => none
  | .farTierResponse _ _ => none
  | .farTierTimeout _ => none
  | .linkUp _ _ _ => none
  | .linkDown => none
  | .cxlReset => none
  | .ideFail => none
  | .getEventRecords => none
  | .clearEventRecords => none
  | .getEventInterruptPolicy => none
  | .setEventInterruptPolicy _ => none
  | .getFwInfo => none
  | .transferFw _ _ _ _ => none
  | .activateFw _ _ => none
  | .getSupportedLogs => none
  | .getLog _ => none
  | .mailboxUnsupported _ => none
  | .mctpSetEndpointId _ => none
  | .pldmRequest _ => none
  | .getVersion _ _ => none
  | .getCapabilities _ _ => none
  | .negotiateAlgorithms _ _ => none
  | .getDigests _ _ => none
  | .getCertificate _ _ => none
  | .challenge _ _ => none
  | .getMeasurements _ _ _ => none
  | .keyExchange _ _ => none
  | .finish _ _ => none
  | .endSession _ _ => none
  | .getLmsCert _ _ => none
  | .getLmsSig _ => none
  | .routerPacketArrival _ _ _ _ _ => none
  | .packetForward _ _ => none
  | .niPacketSend _ => none
  | .write _ => none
  | .read _ => none
  | .atomic _ => none
  | .signal _ => none
  | .cohFwd _ => none
  | .response _ => none
  | .ack _ => none
  | .contrib _ => none
  | .relayData _ _ => none
  | .relayAck _ _ => none
  | .relayResult _ _ => none
  | .relayActivate _ _ => none
  | .relayAbort _ _ => none
  | .relayAckTimeout => none
  | .flagHoldRelease _ => none
  | .resendIntervalExpiry _ => none
  | .deferredBackoffExpiry _ => none
  | .tagDeadlineExpiry _ => none
  | .ackTimerExpiry _ => none
  | .niPairReset _ => none
  | .klnSubmit _ _ => none
  | .bucketSubmit _ _ => none
  | .redeliverSubmit _ _ => none
  | .klnCtrlAbort _ => none
  | .klnCtrlReset _ => none
  | .collectiveStart _ => none
  | .chunkStart _ => none
  | .kilnPacketInject _ => none
  | .kilnStallExpiry _ => none
  | .kilnMemoryComplete _ _ _ => none
  | .collectiveEnd _ => none
  | .channelRowAccept _ => none
  | .chunkComplete _ _ => none
  | .verifyCompare _ _ => none
  | .sealExchangeStart _ => none
  | .bucketSeal _ => none
  | .redeliveryEnd _ => none
  | .codewordDecode _ _ _ => none
  | .controlCodeword _ _ => none
  | .swapReq _ _ _ _ _ => none
  | .swapAck _ _ _ _ _ => none
  | .laserOut _ _ => none
  | .retrain _ => none
  | .swapSwitch _ _ => none
  | .portTrain _ _ _ _ => none
  | .trainingFrame _ _ _ => none
  | .trainingRetryExpiry _ => none
  | .level1Calibration _ _ => none
  | .ringSweepComplete _ _ _ _ => none
  | .pilotToneCheck _ _ _ => none
  | .serWindowExpiry _ => none
  | .laserFailure _ _ => none
  | .portRetrainWrite _ => none
  | .portDisable _ => none
  | .portEnable _ => none
  | .stileChangeComplete _ _ => none
  | .slewGovernorTick _ => none
  | .resetFlock _ => none
  | .resetPasture _ => none
  | .resetRouterSlice _ => none
  | .resetPort _ => none
  | .resetHearth _ => none
  | .resetDevice _ => none
  | .drainEnd => none
  | .drainLimitExpiry => none
  | .creditReturnMessage _ _ _ => none
  | .reinitAck _ => none
  | .resetPin => none
  | .powerOn => none
  | .powerLoss => none
  | .pllLockLoss _ => none
  | .pllLock _ => none
  | .droverBoot => none
  | .pastureRelease _ => none
  | .stackTrainingComplete _ => none
  | .thermalModelUpdate _ => none
  | .sensorReading _ => none
  | .powerMeasurement _ => none
  | .packagePowerMeasurement _ => none
  | .fractionApply _ => none
  | .fractionWatchdog _ => none
  | .gateDecisionWatchdog _ => none
  | .holdWrite _ => none
  | .sensorTrip _ => none
  | .eventPop => none
  | .drvRetire _ => none
  | .spareSelfTest _ _ _ => none
  | .musterPeriodicFrame _ => none
  | .musterSilenceExpiry _ => none
  | .voteExpiry _ _ => none
  | .drvDeclare _ => none
  | .stateArrayError => none
  | .shadowEnable _ => none
  | .shadowDisable _ => none
  | .stepMark => none
  | .digestComplete => none
  | .fwCommit => none
  | .fwActivateOnline _ => none
  | .fwActivateAtReset _ => none
  | .unitRestartComplete _ => none
  | .foldKeyEnrol _ => none
  | .foldKeyClear _ => none
  | .policyWrite _ => none
  | .relaySend _ => none
  | .rcRead _ _ _ => none
  | .registerWrite _ _ _ _ => none
  | .resetPinRelease => none
  | .railOutOfRange => none
  | .hearthLasersStable _ _ => none
  | .ringSetpointReturn _ _ => none
  | .sqReadError _ => none
  | .cqWriteError _ => none
  | .hostSnoop _ => none

/-- A well-formed command names a core of the part. -/
def Statement (i : Instr) : Prop := i.wf = true → ∀ f c, core? i = some (f, c) → f < 672 ∧ c < 120

theorem of_none {i : Instr} (h : core? i = none) : Statement i := by
  intro _ f c e; rw [h] at e; cases e

theorem of_core {i : Instr} {f c : Nat} (h : core? i = some (f, c)) (w : i.known = true → wfCore f c = true) : Statement i := by
  intro hw f' c' e
  rw [h] at e; cases e
  exact by simpa [wfCore] using w (by simp only [Instr.wf, Bool.and_eq_true] at hw; exact hw.1)

theorem core_of_instr {op f c : Nat} {w : Word64} (h : wfInstr op f c w = true) : wfCore f c = true := by
  simp only [wfInstr, Bool.and_eq_true] at h; exact h.2

theorem right_of_and {a b : Bool} (h : (a && b) = true) : b = true := by cases a <;> simp_all

theorem alu : ∀ x0 x1 x2, Statement (.alu x0 x1 x2) := fun _ _ _ => of_core rfl right_of_and
theorem alui : ∀ x0 x1 x2, Statement (.alui x0 x1 x2) := fun _ _ _ => of_core rfl core_of_instr
theorem li : ∀ x0 x1 x2, Statement (.li x0 x1 x2) := fun _ _ _ => of_core rfl core_of_instr
theorem ld : ∀ x0 x1 x2, Statement (.ld x0 x1 x2) := fun _ _ _ => of_core rfl core_of_instr
theorem st : ∀ x0 x1 x2, Statement (.st x0 x1 x2) := fun _ _ _ => of_core rfl core_of_instr
theorem br : ∀ x0 x1 x2, Statement (.br x0 x1 x2) := fun _ _ _ => of_core rfl core_of_instr
theorem jal : ∀ x0 x1 x2, Statement (.jal x0 x1 x2) := fun _ _ _ => of_core rfl core_of_instr
theorem jr : ∀ x0 x1 x2, Statement (.jr x0 x1 x2) := fun _ _ _ => of_core rfl core_of_instr
theorem tixr : ∀ x0 x1 x2, Statement (.tixr x0 x1 x2) := fun _ _ _ => of_core rfl core_of_instr
theorem qwait : ∀ x0 x1 x2, Statement (.qwait x0 x1 x2) := fun _ _ _ => of_core rfl core_of_instr
theorem qwaitRelease : ∀ x0 x1, Statement (.qwaitRelease x0 x1) := fun _ _ => of_core rfl id
theorem stop : ∀ x0 x1 x2, Statement (.stop x0 x1 x2) := fun _ _ _ => of_core rfl core_of_instr
theorem nop : ∀ x0 x1 x2, Statement (.nop x0 x1 x2) := fun _ _ _ => of_core rfl core_of_instr
theorem sread : ∀ x0 x1 x2, Statement (.sread x0 x1 x2) := fun _ _ _ => of_core rfl core_of_instr
theorem movt : ∀ x0 x1 x2, Statement (.movt x0 x1 x2) := fun _ _ _ => of_core rfl core_of_instr
theorem mft : ∀ x0 x1 x2, Statement (.mft x0 x1 x2) := fun _ _ _ => of_core rfl core_of_instr
theorem taddi : ∀ x0 x1 x2, Statement (.taddi x0 x1 x2) := fun _ _ _ => of_core rfl core_of_instr
theorem vop : ∀ x0 x1 x2, Statement (.vop x0 x1 x2) := fun _ _ _ => of_core rfl core_of_instr
theorem vops : ∀ x0 x1 x2, Statement (.vops x0 x1 x2) := fun _ _ _ => of_core rfl core_of_instr
theorem vfma : ∀ x0 x1 x2, Statement (.vfma x0 x1 x2) := fun _ _ _ => of_core rfl core_of_instr
theorem vld : ∀ x0 x1 x2, Statement (.vld x0 x1 x2) := fun _ _ _ => of_core rfl core_of_instr
theorem vst : ∀ x0 x1 x2, Statement (.vst x0 x1 x2) := fun _ _ _ => of_core rfl core_of_instr
theorem vred : ∀ x0 x1 x2, Statement (.vred x0 x1 x2) := fun _ _ _ => of_core rfl core_of_instr
theorem vlane : ∀ x0 x1 x2, Statement (.vlane x0 x1 x2) := fun _ _ _ => of_core rfl core_of_instr
theorem vmxq : ∀ x0 x1 x2, Statement (.vmxq x0 x1 x2) := fun _ _ _ => of_core rfl core_of_instr
theorem wload : ∀ x0 x1 x2, Statement (.wload x0 x1 x2) := fun _ _ _ => of_core rfl core_of_instr
theorem wswap : ∀ x0 x1 x2, Statement (.wswap x0 x1 x2) := fun _ _ _ => of_core rfl core_of_instr
theorem stream : ∀ x0 x1 x2, Statement (.stream x0 x1 x2) := fun _ _ _ => of_core rfl core_of_instr
theorem drain : ∀ x0 x1 x2, Statement (.drain x0 x1 x2) := fun _ _ _ => of_core rfl core_of_instr
theorem tclr : ∀ x0 x1 x2, Statement (.tclr x0 x1 x2) := fun _ _ _ => of_core rfl core_of_instr
theorem accview : ∀ x0 x1 x2, Statement (.accview x0 x1 x2) := fun _ _ _ => of_core rfl core_of_instr
theorem gdrain : ∀ x0 x1 x2, Statement (.gdrain x0 x1 x2) := fun _ _ _ => of_core rfl core_of_instr
theorem dma : ∀ x0 x1 x2, Statement (.dma x0 x1 x2) := fun _ _ _ => of_core rfl core_of_instr
theorem ratom : ∀ x0 x1 x2, Statement (.ratom x0 x1 x2) := fun _ _ _ => of_core rfl core_of_instr
theorem rsig : ∀ x0 x1 x2, Statement (.rsig x0 x1 x2) := fun _ _ _ => of_core rfl core_of_instr
theorem rfence : ∀ x0 x1 x2, Statement (.rfence x0 x1 x2) := fun _ _ _ => of_core rfl core_of_instr
theorem sigadd : ∀ x0 x1 x2, Statement (.sigadd x0 x1 x2) := fun _ _ _ => of_core rfl core_of_instr
theorem sigrd : ∀ x0 x1 x2, Statement (.sigrd x0 x1 x2) := fun _ _ _ => of_core rfl core_of_instr
theorem siginit : ∀ x0 x1 x2, Statement (.siginit x0 x1 x2) := fun _ _ _ => of_core rfl core_of_instr
theorem wait : ∀ x0 x1 x2, Statement (.wait x0 x1 x2) := fun _ _ _ => of_core rfl core_of_instr
theorem arrayStart : ∀ x0 x1, Statement (.arrayStart x0 x1) := fun _ _ => of_core rfl id
theorem arrayRowFetch : ∀ x0 x1 x2 x3, Statement (.arrayRowFetch x0 x1 x2 x3) := fun _ _ _ _ => of_core rfl id
theorem roadRowArrival : ∀ x0 x1 x2, Statement (.roadRowArrival x0 x1 x2) := fun _ _ _ => of_none rfl
theorem roadCreditReturn : ∀ x0 x1, Statement (.roadCreditReturn x0 x1) := fun _ _ => of_none rfl
theorem roadTimeout : ∀ x0 x1, Statement (.roadTimeout x0 x1) := fun _ _ => of_core rfl id
theorem waitPoll : ∀ x0 x1, Statement (.waitPoll x0 x1) := fun _ _ => of_core rfl id
theorem waitSatisfied : ∀ x0 x1, Statement (.waitSatisfied x0 x1) := fun _ _ => of_core rfl id
theorem waitExpiry : ∀ x0 x1, Statement (.waitExpiry x0 x1) := fun _ _ => of_core rfl id
theorem flkCoreHaltWrite : ∀ x0 x1, Statement (.flkCoreHaltWrite x0 x1) := fun _ _ => of_core rfl id
theorem flkCoreDoneWrite : ∀ x0 x1, Statement (.flkCoreDoneWrite x0 x1) := fun _ _ => of_core rfl id
theorem coreRestart : ∀ x0 x1, Statement (.coreRestart x0 x1) := fun _ _ => of_core rfl id
theorem dmaDescriptorStart : ∀ x0 x1, Statement (.dmaDescriptorStart x0 x1) := fun _ _ => of_core rfl id
theorem dmaComplete : ∀ x0 x1 x2, Statement (.dmaComplete x0 x1 x2) := fun _ _ _ => of_core rfl id
theorem dmaTimeout : ∀ x0 x1 x2, Statement (.dmaTimeout x0 x1 x2) := fun _ _ _ => of_core rfl id
theorem dmaPushAdmit : ∀ x0, Statement (.dmaPushAdmit x0) := fun _ => of_none rfl
theorem baleReadComplete : ∀ x0 x1 x2 x3, Statement (.baleReadComplete x0 x1 x2 x3) := fun _ _ _ _ => of_core rfl id
theorem foldLoad : ∀ x0, Statement (.foldLoad x0) := fun _ => of_none rfl
theorem remap : ∀ x0, Statement (.remap x0) := fun _ => of_none rfl
theorem unload : ∀ x0, Statement (.unload x0) := fun _ => of_none rfl
theorem pipelineStart : ∀ x0, Statement (.pipelineStart x0) := fun _ => of_none rfl
theorem drvRankWrite : ∀ x0, Statement (.drvRankWrite x0) := fun _ => of_none rfl
theorem stackWholeBaleRead : ∀ x0 x1, Statement (.stackWholeBaleRead x0 x1) := fun _ _ => of_none rfl
theorem stackTaggedWrite : ∀ x0 x1 x2 x3, Statement (.stackTaggedWrite x0 x1 x2 x3) := fun _ _ _ _ => of_none rfl
theorem stackUntaggedWrite : ∀ x0 x1, Statement (.stackUntaggedWrite x0 x1) := fun _ _ => of_none rfl
theorem stackSectorRead : ∀ x0 x1, Statement (.stackSectorRead x0 x1) := fun _ _ => of_none rfl
theorem stackSectorWrite : ∀ x0 x1 x2 x3, Statement (.stackSectorWrite x0 x1 x2 x3) := fun _ _ _ _ => of_none rfl
theorem stackEntryGrant : ∀ x0, Statement (.stackEntryGrant x0) := fun _ => of_none rfl
theorem refresh : ∀ x0 x1, Statement (.refresh x0 x1) := fun _ _ => of_none rfl
theorem scrub : ∀ x0 x1 x2, Statement (.scrub x0 x1 x2) := fun _ _ _ => of_none rfl
theorem zeroFill : ∀ x0, Statement (.zeroFill x0) := fun _ => of_none rfl
theorem wipe : ∀ x0, Statement (.wipe x0) := fun _ => of_none rfl
theorem wipeComplete : ∀ x0, Statement (.wipeComplete x0) := fun _ => of_none rfl
theorem writeGateChange : ∀ x0 x1, Statement (.writeGateChange x0 x1) := fun _ _ => of_none rfl
theorem heldWriteExpiry : ∀ x0 x1, Statement (.heldWriteExpiry x0 x1) := fun _ _ => of_none rfl
theorem peatDescriptorAdmit : ∀ x0 x1 x2, Statement (.peatDescriptorAdmit x0 x1 x2) := fun _ _ _ => of_core rfl id
theorem gather : ∀ x0 x1 x2, Statement (.gather x0 x1 x2) := fun _ _ _ => of_core rfl id
theorem segsum : ∀ x0 x1 x2, Statement (.segsum x0 x1 x2) := fun _ _ _ => of_core rfl id
theorem wpool : ∀ x0 x1 x2, Statement (.wpool x0 x1 x2) := fun _ _ _ => of_core rfl id
theorem optupd : ∀ x0 x1 x2, Statement (.optupd x0 x1 x2) := fun _ _ _ => of_core rfl id
theorem kread : ∀ x0 x1 x2, Statement (.kread x0 x1 x2) := fun _ _ _ => of_core rfl id
theorem kwrite : ∀ x0 x1 x2, Statement (.kwrite x0 x1 x2) := fun _ _ _ => of_core rfl id
theorem kadd : ∀ x0 x1 x2, Statement (.kadd x0 x1 x2) := fun _ _ _ => of_core rfl id
theorem peatRowRequest : ∀ x0, Statement (.peatRowRequest x0) := fun _ => of_none rfl
theorem peatRowData : ∀ x0 x1, Statement (.peatRowData x0 x1) := fun _ _ => of_none rfl
theorem deliveryBlock : ∀ x0 x1 x2 x3, Statement (.deliveryBlock x0 x1 x2 x3) := fun _ _ _ _ => of_core rfl id
theorem peatComplete : ∀ x0 x1 x2, Statement (.peatComplete x0 x1 x2) := fun _ _ _ => of_core rfl id
theorem cxlMemRead : ∀ x0 x1 x2, Statement (.cxlMemRead x0 x1 x2) := fun _ _ _ => of_none rfl
theorem cxlMemWrite : ∀ x0 x1 x2 x3 x4, Statement (.cxlMemWrite x0 x1 x2 x3 x4) := fun _ _ _ _ _ => of_none rfl
theorem cxlHostEvict : ∀ x0, Statement (.cxlHostEvict x0) := fun _ => of_none rfl
theorem birsp : ∀ x0 x1, Statement (.birsp x0 x1) := fun _ _ => of_none rfl
theorem biTimeout : ∀ x0, Statement (.biTimeout x0) := fun _ => of_none rfl
theorem bar0Access : ∀ x0 x1 x2, Statement (.bar0Access x0 x1 x2) := fun _ _ _ => of_none rfl
theorem cxlQsqDb : ∀ x0 x1, Statement (.cxlQsqDb x0 x1) := fun _ _ => of_none rfl
theorem cxlQcqDb : ∀ x0 x1, Statement (.cxlQcqDb x0 x1) := fun _ _ => of_none rfl
theorem queueEnable : ∀ x0 x1, Statement (.queueEnable x0 x1) := fun _ _ => of_none rfl
theorem queueDisable : ∀ x0 x1, Statement (.queueDisable x0 x1) := fun _ _ => of_none rfl
theorem sqFetch : ∀ x0 x1, Statement (.sqFetch x0 x1) := fun _ _ => of_none rfl
theorem queueNop : ∀ x0 x1, Statement (.queueNop x0 x1) := fun _ _ => of_none rfl
theorem queueCopy : ∀ x0 x1 x2, Statement (.queueCopy x0 x1 x2) := fun _ _ _ => of_none rfl
theorem queueSignal : ∀ x0 x1, Statement (.queueSignal x0 x1) := fun _ _ => of_none rfl
theorem queueFence : ∀ x0 x1, Statement (.queueFence x0 x1) := fun _ _ => of_none rfl
theorem cqPost : ∀ x0, Statement (.cqPost x0) := fun _ => of_none rfl
theorem farTierResponse : ∀ x0 x1, Statement (.farTierResponse x0 x1) := fun _ _ => of_none rfl
theorem farTierTimeout : ∀ x0, Statement (.farTierTimeout x0) := fun _ => of_none rfl
theorem linkUp : ∀ x0 x1 x2, Statement (.linkUp x0 x1 x2) := fun _ _ _ => of_none rfl
theorem linkDown : Statement .linkDown := of_none rfl
theorem cxlReset : Statement .cxlReset := of_none rfl
theorem ideFail : Statement .ideFail := of_none rfl
theorem getEventRecords : Statement .getEventRecords := of_none rfl
theorem clearEventRecords : Statement .clearEventRecords := of_none rfl
theorem getEventInterruptPolicy : Statement .getEventInterruptPolicy := of_none rfl
theorem setEventInterruptPolicy : ∀ x0, Statement (.setEventInterruptPolicy x0) := fun _ => of_none rfl
theorem getFwInfo : Statement .getFwInfo := of_none rfl
theorem transferFw : ∀ x0 x1 x2 x3, Statement (.transferFw x0 x1 x2 x3) := fun _ _ _ _ => of_none rfl
theorem activateFw : ∀ x0 x1, Statement (.activateFw x0 x1) := fun _ _ => of_none rfl
theorem getSupportedLogs : Statement .getSupportedLogs := of_none rfl
theorem getLog : ∀ x0, Statement (.getLog x0) := fun _ => of_none rfl
theorem mailboxUnsupported : ∀ x0, Statement (.mailboxUnsupported x0) := fun _ => of_none rfl
theorem mctpSetEndpointId : ∀ x0, Statement (.mctpSetEndpointId x0) := fun _ => of_none rfl
theorem pldmRequest : ∀ x0, Statement (.pldmRequest x0) := fun _ => of_none rfl
theorem getVersion : ∀ x0 x1, Statement (.getVersion x0 x1) := fun _ _ => of_none rfl
theorem getCapabilities : ∀ x0 x1, Statement (.getCapabilities x0 x1) := fun _ _ => of_none rfl
theorem negotiateAlgorithms : ∀ x0 x1, Statement (.negotiateAlgorithms x0 x1) := fun _ _ => of_none rfl
theorem getDigests : ∀ x0 x1, Statement (.getDigests x0 x1) := fun _ _ => of_none rfl
theorem getCertificate : ∀ x0 x1, Statement (.getCertificate x0 x1) := fun _ _ => of_none rfl
theorem challenge : ∀ x0 x1, Statement (.challenge x0 x1) := fun _ _ => of_none rfl
theorem getMeasurements : ∀ x0 x1 x2, Statement (.getMeasurements x0 x1 x2) := fun _ _ _ => of_none rfl
theorem keyExchange : ∀ x0 x1, Statement (.keyExchange x0 x1) := fun _ _ => of_none rfl
theorem finish : ∀ x0 x1, Statement (.finish x0 x1) := fun _ _ => of_none rfl
theorem endSession : ∀ x0 x1, Statement (.endSession x0 x1) := fun _ _ => of_none rfl
theorem getLmsCert : ∀ x0 x1, Statement (.getLmsCert x0 x1) := fun _ _ => of_none rfl
theorem getLmsSig : ∀ x0, Statement (.getLmsSig x0) := fun _ => of_none rfl
theorem routerPacketArrival : ∀ x0 x1 x2 x3 x4, Statement (.routerPacketArrival x0 x1 x2 x3 x4) := fun _ _ _ _ _ => of_none rfl
theorem packetForward : ∀ x0 x1, Statement (.packetForward x0 x1) := fun _ _ => of_none rfl
theorem niPacketSend : ∀ x0, Statement (.niPacketSend x0) := fun _ => of_none rfl
theorem write : ∀ x0, Statement (.write x0) := fun _ => of_none rfl
theorem read : ∀ x0, Statement (.read x0) := fun _ => of_none rfl
theorem atomic : ∀ x0, Statement (.atomic x0) := fun _ => of_none rfl
theorem signal : ∀ x0, Statement (.signal x0) := fun _ => of_none rfl
theorem cohFwd : ∀ x0, Statement (.cohFwd x0) := fun _ => of_none rfl
theorem response : ∀ x0, Statement (.response x0) := fun _ => of_none rfl
theorem ack : ∀ x0, Statement (.ack x0) := fun _ => of_none rfl
theorem contrib : ∀ x0, Statement (.contrib x0) := fun _ => of_none rfl
theorem relayData : ∀ x0 x1, Statement (.relayData x0 x1) := fun _ _ => of_none rfl
theorem relayAck : ∀ x0 x1, Statement (.relayAck x0 x1) := fun _ _ => of_none rfl
theorem relayResult : ∀ x0 x1, Statement (.relayResult x0 x1) := fun _ _ => of_none rfl
theorem relayActivate : ∀ x0 x1, Statement (.relayActivate x0 x1) := fun _ _ => of_none rfl
theorem relayAbort : ∀ x0 x1, Statement (.relayAbort x0 x1) := fun _ _ => of_none rfl
theorem relayAckTimeout : Statement .relayAckTimeout := of_none rfl
theorem flagHoldRelease : ∀ x0, Statement (.flagHoldRelease x0) := fun _ => of_none rfl
theorem resendIntervalExpiry : ∀ x0, Statement (.resendIntervalExpiry x0) := fun _ => of_none rfl
theorem deferredBackoffExpiry : ∀ x0, Statement (.deferredBackoffExpiry x0) := fun _ => of_none rfl
theorem tagDeadlineExpiry : ∀ x0, Statement (.tagDeadlineExpiry x0) := fun _ => of_none rfl
theorem ackTimerExpiry : ∀ x0, Statement (.ackTimerExpiry x0) := fun _ => of_none rfl
theorem niPairReset : ∀ x0, Statement (.niPairReset x0) := fun _ => of_none rfl
theorem klnSubmit : ∀ x0 x1, Statement (.klnSubmit x0 x1) := fun _ _ => of_none rfl
theorem bucketSubmit : ∀ x0 x1, Statement (.bucketSubmit x0 x1) := fun _ _ => of_none rfl
theorem redeliverSubmit : ∀ x0 x1, Statement (.redeliverSubmit x0 x1) := fun _ _ => of_none rfl
theorem klnCtrlAbort : ∀ x0, Statement (.klnCtrlAbort x0) := fun _ => of_none rfl
theorem klnCtrlReset : ∀ x0, Statement (.klnCtrlReset x0) := fun _ => of_none rfl
theorem collectiveStart : ∀ x0, Statement (.collectiveStart x0) := fun _ => of_none rfl
theorem chunkStart : ∀ x0, Statement (.chunkStart x0) := fun _ => of_none rfl
theorem kilnPacketInject : ∀ x0, Statement (.kilnPacketInject x0) := fun _ => of_none rfl
theorem kilnStallExpiry : ∀ x0, Statement (.kilnStallExpiry x0) := fun _ => of_none rfl
theorem kilnMemoryComplete : ∀ x0 x1 x2, Statement (.kilnMemoryComplete x0 x1 x2) := fun _ _ _ => of_none rfl
theorem collectiveEnd : ∀ x0, Statement (.collectiveEnd x0) := fun _ => of_none rfl
theorem channelRowAccept : ∀ x0, Statement (.channelRowAccept x0) := fun _ => of_none rfl
theorem chunkComplete : ∀ x0 x1, Statement (.chunkComplete x0 x1) := fun _ _ => of_none rfl
theorem verifyCompare : ∀ x0 x1, Statement (.verifyCompare x0 x1) := fun _ _ => of_none rfl
theorem sealExchangeStart : ∀ x0, Statement (.sealExchangeStart x0) := fun _ => of_none rfl
theorem bucketSeal : ∀ x0, Statement (.bucketSeal x0) := fun _ => of_none rfl
theorem redeliveryEnd : ∀ x0, Statement (.redeliveryEnd x0) := fun _ => of_none rfl
theorem codewordDecode : ∀ x0 x1 x2, Statement (.codewordDecode x0 x1 x2) := fun _ _ _ => of_none rfl
theorem controlCodeword : ∀ x0 x1, Statement (.controlCodeword x0 x1) := fun _ _ => of_none rfl
theorem swapReq : ∀ x0 x1 x2 x3 x4, Statement (.swapReq x0 x1 x2 x3 x4) := fun _ _ _ _ _ => of_none rfl
theorem swapAck : ∀ x0 x1 x2 x3 x4, Statement (.swapAck x0 x1 x2 x3 x4) := fun _ _ _ _ _ => of_none rfl
theorem laserOut : ∀ x0 x1, Statement (.laserOut x0 x1) := fun _ _ => of_none rfl
theorem retrain : ∀ x0, Statement (.retrain x0) := fun _ => of_none rfl
theorem swapSwitch : ∀ x0 x1, Statement (.swapSwitch x0 x1) := fun _ _ => of_none rfl
theorem portTrain : ∀ x0 x1 x2 x3, Statement (.portTrain x0 x1 x2 x3) := fun _ _ _ _ => of_none rfl
theorem trainingFrame : ∀ x0 x1 x2, Statement (.trainingFrame x0 x1 x2) := fun _ _ _ => of_none rfl
theorem trainingRetryExpiry : ∀ x0, Statement (.trainingRetryExpiry x0) := fun _ => of_none rfl
theorem level1Calibration : ∀ x0 x1, Statement (.level1Calibration x0 x1) := fun _ _ => of_none rfl
theorem ringSweepComplete : ∀ x0 x1 x2 x3, Statement (.ringSweepComplete x0 x1 x2 x3) := fun _ _ _ _ => of_none rfl
theorem pilotToneCheck : ∀ x0 x1 x2, Statement (.pilotToneCheck x0 x1 x2) := fun _ _ _ => of_none rfl
theorem serWindowExpiry : ∀ x0, Statement (.serWindowExpiry x0) := fun _ => of_none rfl
theorem laserFailure : ∀ x0 x1, Statement (.laserFailure x0 x1) := fun _ _ => of_none rfl
theorem portRetrainWrite : ∀ x0, Statement (.portRetrainWrite x0) := fun _ => of_none rfl
theorem portDisable : ∀ x0, Statement (.portDisable x0) := fun _ => of_none rfl
theorem portEnable : ∀ x0, Statement (.portEnable x0) := fun _ => of_none rfl
theorem stileChangeComplete : ∀ x0 x1, Statement (.stileChangeComplete x0 x1) := fun _ _ => of_none rfl
theorem slewGovernorTick : ∀ x0, Statement (.slewGovernorTick x0) := fun _ => of_none rfl
theorem resetFlock : ∀ x0, Statement (.resetFlock x0) := fun _ => of_none rfl
theorem resetPasture : ∀ x0, Statement (.resetPasture x0) := fun _ => of_none rfl
theorem resetRouterSlice : ∀ x0, Statement (.resetRouterSlice x0) := fun _ => of_none rfl
theorem resetPort : ∀ x0, Statement (.resetPort x0) := fun _ => of_none rfl
theorem resetHearth : ∀ x0, Statement (.resetHearth x0) := fun _ => of_none rfl
theorem resetDevice : ∀ x0, Statement (.resetDevice x0) := fun _ => of_none rfl
theorem drainEnd : Statement .drainEnd := of_none rfl
theorem drainLimitExpiry : Statement .drainLimitExpiry := of_none rfl
theorem creditReturnMessage : ∀ x0 x1 x2, Statement (.creditReturnMessage x0 x1 x2) := fun _ _ _ => of_none rfl
theorem reinitAck : ∀ x0, Statement (.reinitAck x0) := fun _ => of_none rfl
theorem resetPin : Statement .resetPin := of_none rfl
theorem powerOn : Statement .powerOn := of_none rfl
theorem powerLoss : Statement .powerLoss := of_none rfl
theorem pllLockLoss : ∀ x0, Statement (.pllLockLoss x0) := fun _ => of_none rfl
theorem pllLock : ∀ x0, Statement (.pllLock x0) := fun _ => of_none rfl
theorem droverBoot : Statement .droverBoot := of_none rfl
theorem pastureRelease : ∀ x0, Statement (.pastureRelease x0) := fun _ => of_none rfl
theorem stackTrainingComplete : ∀ x0, Statement (.stackTrainingComplete x0) := fun _ => of_none rfl
theorem thermalModelUpdate : ∀ x0, Statement (.thermalModelUpdate x0) := fun _ => of_none rfl
theorem sensorReading : ∀ x0, Statement (.sensorReading x0) := fun _ => of_none rfl
theorem powerMeasurement : ∀ x0, Statement (.powerMeasurement x0) := fun _ => of_none rfl
theorem packagePowerMeasurement : ∀ x0, Statement (.packagePowerMeasurement x0) := fun _ => of_none rfl
theorem fractionApply : ∀ x0, Statement (.fractionApply x0) := fun _ => of_none rfl
theorem fractionWatchdog : ∀ x0, Statement (.fractionWatchdog x0) := fun _ => of_none rfl
theorem gateDecisionWatchdog : ∀ x0, Statement (.gateDecisionWatchdog x0) := fun _ => of_none rfl
theorem holdWrite : ∀ x0, Statement (.holdWrite x0) := fun _ => of_none rfl
theorem sensorTrip : ∀ x0, Statement (.sensorTrip x0) := fun _ => of_none rfl
theorem eventPop : Statement .eventPop := of_none rfl
theorem drvRetire : ∀ x0, Statement (.drvRetire x0) := fun _ => of_none rfl
theorem spareSelfTest : ∀ x0 x1 x2, Statement (.spareSelfTest x0 x1 x2) := fun _ _ _ => of_none rfl
theorem musterPeriodicFrame : ∀ x0, Statement (.musterPeriodicFrame x0) := fun _ => of_none rfl
theorem musterSilenceExpiry : ∀ x0, Statement (.musterSilenceExpiry x0) := fun _ => of_none rfl
theorem voteExpiry : ∀ x0 x1, Statement (.voteExpiry x0 x1) := fun _ _ => of_none rfl
theorem drvDeclare : ∀ x0, Statement (.drvDeclare x0) := fun _ => of_none rfl
theorem stateArrayError : Statement .stateArrayError := of_none rfl
theorem shadowEnable : ∀ x0, Statement (.shadowEnable x0) := fun _ => of_none rfl
theorem shadowDisable : ∀ x0, Statement (.shadowDisable x0) := fun _ => of_none rfl
theorem stepMark : Statement .stepMark := of_none rfl
theorem digestComplete : Statement .digestComplete := of_none rfl
theorem fwCommit : Statement .fwCommit := of_none rfl
theorem fwActivateOnline : ∀ x0, Statement (.fwActivateOnline x0) := fun _ => of_none rfl
theorem fwActivateAtReset : ∀ x0, Statement (.fwActivateAtReset x0) := fun _ => of_none rfl
theorem unitRestartComplete : ∀ x0, Statement (.unitRestartComplete x0) := fun _ => of_none rfl
theorem foldKeyEnrol : ∀ x0, Statement (.foldKeyEnrol x0) := fun _ => of_none rfl
theorem foldKeyClear : ∀ x0, Statement (.foldKeyClear x0) := fun _ => of_none rfl
theorem policyWrite : ∀ x0, Statement (.policyWrite x0) := fun _ => of_none rfl
theorem relaySend : ∀ x0, Statement (.relaySend x0) := fun _ => of_none rfl
theorem rcRead : ∀ x0 x1 x2, Statement (.rcRead x0 x1 x2) := fun _ _ _ => of_none rfl
theorem registerWrite : ∀ x0 x1 x2 x3, Statement (.registerWrite x0 x1 x2 x3) := fun _ _ _ _ => of_none rfl
theorem resetPinRelease : Statement .resetPinRelease := of_none rfl
theorem railOutOfRange : Statement .railOutOfRange := of_none rfl
theorem hearthLasersStable : ∀ x0 x1, Statement (.hearthLasersStable x0 x1) := fun _ _ => of_none rfl
theorem ringSetpointReturn : ∀ x0 x1, Statement (.ringSetpointReturn x0 x1) := fun _ _ => of_none rfl
theorem sqReadError : ∀ x0, Statement (.sqReadError x0) := fun _ => of_none rfl
theorem cqWriteError : ∀ x0, Statement (.cqWriteError x0) := fun _ => of_none rfl
theorem hostSnoop : ∀ x0, Statement (.hostSnoop x0) := fun _ => of_none rfl

end Sys2Proof.Laws.NamesRealCore
end

