-- ==== Sys2Proof/Tests/Slice0.lean ====
section
/-! SUPPORT. Tests: ill-formed terms that WellFormed refuses, states and operands that meet the hypotheses of each statement, and
what a command leaves there. Expected results come from the spec's tables by hand. -/

set_option Elab.async false

namespace Sys2Proof.Tests

open Sys2Proof Sys2Proof.Machine

/-- Whether a command goes on to a state with a property. -/
def gives (i : Instr) (s : State) (p : State → Bool) : Bool :=
  match exec i s with
  | .next t => p t
  | _ => false

/-- Whether a command leaves the state as it is. -/
def idle (i : Instr) (s : State) : Bool := gives i s fun t => decide (t = s)

/-- An instruction word of Table 5.1. -/
def word (op a b c fn imm : Nat) : Word64 :=
  BitVec.ofNat 64 (op * 2 ^ 56 + a * 2 ^ 51 + b * 2 ^ 46 + c * 2 ^ 41 + fn * 2 ^ 32 + imm)

/-- A core that runs. -/
def kern : Core :=
  { Core.fresh with run := .running, pc := 3, sreg := [(1, 5#32), (2, 7#32), (3, 0xFFFFFFF0#32), (4, 64#32), (5, 0x01000000#32)] }

/-- A part out of reset whose units are ready; every pipeline of flock 0 has 16 instructions. -/
def ready : State :=
  { State.reset with
    cores := [(0, kern)], flocks := [(0, { Flock.fresh with conf := List.replicate 148 0 ++ [16] })],
    stks := (List.range 12).map fun i => (i, { Stk.fresh with trained := true, owed := false }),
    pads := { State.reset.pads with resetN := true, released := 2 ^ 12 - 1 },
    regs := ((List.range 12).flatMap (fun i => [(Reg.stkStatus.addr i 0, 2 ^ 63), (Reg.rtrStatus.addr i 0, 2 ^ 63)]) ++
      (List.range 16).map (fun h => (Reg.hthStatus.addr h 0, 2 ^ 63)) ++
      [(Reg.drvReady.addr 0 0, 2 ^ 64 - 1), (Reg.niStatus.addr 0 0, 2 ^ 63), (Reg.klnStatus.addr 0 0, 0xFFF * 2 ^ 48)]).foldl
      (fun (m : SMap Word64) (x : Nat × Nat) => Sparse.set 0 m x.1 (BitVec.ofNat 64 x.2)) State.reset.regs }

/-- The part with another core 0 of flock 0. -/
def withCore (k : Core) : State := { ready with cores := [(0, k)] }

/-- A descriptor that has not started. -/
def desc : Dma :=
  { seq := 0, raw := [], started := false, left := 0, status := 0, failOff := 0, land := [], done := 0, again := false }

/-- `n` bytes with numbers of given length at given places, and zeros. -/
def image (n : Nat) (fs : List (Nat × Nat × Nat)) : List Byte :=
  (List.range n).map fun i => match fs.find? fun x => decide (x.1 ≤ i) && decide (i < x.1 + x.2.1) with
    | some (o, _, v) => BitVec.ofNat 8 (v / 256 ^ (i - o))
    | none => 0

/-- The fold of device 0 (rank 0) in a job of two, with one route, one collective group and one tally channel. -/
def job : Fold :=
  { header := [], device := 0, rank := 0, threshold := 1, jobTag := 5, ranks := [0, 1], dims := [],
    routes := [{ first := 1, last := 1, minPorts := 1, esc := 0 }],
    groups := [{ num := 0, resv := 0, limit := 2 ^ 18, my := 0, quantum := 4096, members := [0, 1] }],
    resvs := [{ index := 0, slice := 0, bytes := 65536, off := 0 }], windows := [],
    chans := [{ enable := true, group := 0, flocks := 1 }] }

/-- The part with that fold loaded. -/
def loaded : State :=
  { ready with fold := some job }

def loadedWith (k : Core) : State := { loaded with cores := [(0, k)] }

/-- A descriptor with the fields of Table 4.3. -/
def dmaOf (op src dst len comp : Nat) : Dma :=
  { desc with raw := image 32 [(0, 8, src), (8, 8, dst), (16, 4, len), (24, 4, comp), (28, 1, op)] }

def dmas (ds : List Dma) : State := loadedWith { kern with dma := ds }

def started (d : Dma) : Dma := { d with started := true }

/-- A request packet from device 1 to offset 64 of flock 0's store. -/
def pkt (op : Nat) (pay : List Byte) : Packet :=
  pktSigned
    { dest := 0, src := 1, cls := opClass op, flag := false, ll := false, op := op, status := 0, len := pay.length, share := 0, hops := 0,
      jobTag := 5, seq := 0, space := 0, offset := 0x020000000040, ackSeq := 0, ackV := false, epoch := 3, tag := 9, w4 := 0, w5 := 0, w6 := 0,
      rsv2 := 0, rsv7 := 0, esc := false, crc := 0, payload := pay }

/-- The one answer to that packet. -/
def answered (t : State) (st : Nat) (bs : List Byte) : Bool :=
  (t.queue 0 (qInject 2)).map (fun q => (q.op, q.status, q.dest, q.tag, q.payload)) == [(0x20, st, 1, 9, bs)]

theorem test_step_front :
    step { ready with pending := [.nop 0 0 (word 0x0E 0 0 0 0 0), .eventPop] } =
      exec (.nop 0 0 (word 0x0E 0 0 0 0 0)) { ready with pending := [.eventPop] } ∧ step ready = .next ready := by
  exact ⟨rfl, rfl⟩

theorem test_witness_alu :
    ready.Issues 0 0 0x01 (word 0x01 31 1 2 0x0E 0) ∧ ready.Issues 0 0 0x02 (word 0x02 6 1 0 0 0xFFFFFFFF) ∧
    gives (.alu 0 0 (word 0x01 6 3 1 0x07 0)) ready (fun t => (t.core 0 0).s 6 == 0xFFFFFFFF && (t.core 0 0).pc == 4) ∧
    gives (.alui 0 0 (word 0x02 6 1 0 0 0xFFFFFFFF)) ready (fun t => (t.core 0 0).s 6 == 4) := by
  unfold State.Issues; decide +kernel

theorem test_witness_moves :
    ready.Issues 0 0 0x03 (word 0x03 0 0 0 0 7) ∧ ready.Issues 0 0 0x0B (word 0x0B 6 0 0 0 0) ∧
    ready.Issues 0 0 0x0B (word 0x0B 6 0 0 1 0) ∧ ready.Issues 0 0 0x11 (word 0x11 6 7 0 1 0) ∧
    ready.Issues 0 0 0x0E (word 0x0E 0 0 0 0 0) ∧ ready.Issues 0 0 0x10 (word 0x10 7 1 3 0 0) ∧
    ready.Issues 0 0 0x12 (word 0x12 7 7 0 0 0xFFFFFFFC) ∧
    gives (.li 0 0 (word 0x03 0 0 0 0 7)) (withCore { kern with pc := 16 }) (fun t => t.fresh == 2) ∧
    gives (.li 0 0 (word 0x03 0 0 0 0 7)) ready (fun t => t == withCore { kern with pc := 4 }) ∧
    gives (.tixr 0 0 (word 0x0B 6 0 0 1 0)) (ready.setRbit .flkArithInexactLo 0 0 0 true)
      (fun t => (t.core 0 0).s 6 == 1 && !t.inexactFlag 0 0) ∧
    gives (.movt 0 0 (word 0x10 7 1 3 0 0)) ready (fun t => (t.core 0 0).t 7 == 0xFFFF070000000005) ∧
    gives (.taddi 0 0 (word 0x12 7 7 0 0 0xFFFFFFFC)) ready (fun t => (t.core 0 0).t 7 == 0x3FFFFC) := by
  unfold State.Issues; decide +kernel

theorem test_witness_loads_and_stores :
    ready.Issues 0 0 0x04 (word 0x04 6 4 0 0x005 0xFFFFFFC0) ∧
    effAddr 0 0 (ready.core 0 0) 0 4 0xFFFFFFC0 2 2 false = .ok { inStore := false, off := 0 } ∧
    gives (.ld 0 0 (word 0x04 6 4 0 0x005 0xFFFFFFC0)) (ready.wrScratch 0 0 0 [0x01#8, 0x80#8]) (fun t => (t.core 0 0).s 6 == 0xFFFF8001) ∧
    ready.Issues 0 0 0x05 (word 0x05 1 4 0 0x082 0) ∧
    effAddr 0 0 (ready.core 0 0) 1 4 0 4 4 false = .ok { inStore := true, off := 64 } ∧
    gives (.st 0 0 (word 0x05 3 4 0 0x082 0)) ready (fun t => t.rdStore 0 64 5 == [0xF0#8, 0xFF#8, 0xFF#8, 0xFF#8, 0#8]) ∧
    ready.Issues 0 0 0x24 (word 0x24 1 4 0 0x000 0) ∧ vecBytes 0 = some 64 ∧
    effAddr 0 0 (ready.core 0 0) 0 4 0 64 64 false = .ok { inStore := false, off := 64 } ∧
    gives (.vst 0 0 (word 0x24 1 4 0 0x000 0)) (withCore (kern.setLanes 1 (List.replicate 16 0x3F800000)))
      (fun t => t.rdScratch 0 0 124 4 == [0x00#8, 0x00#8, 0x80#8, 0x3F#8]) ∧
    ready.Issues 0 0 0x6A (word 0x6A 2 4 0 0 0) ∧
    effAddr 0 0 (ready.core 0 0) 0 4 0 8 8 true = .ok { inStore := false, off := 64 } ∧
    ready.Issues 0 0 0x0F (word 0x0F 6 0 0 0 0) ∧ ready.Issues 0 0 0x0F (word 0x0F 6 0 0 4 0) ∧
    ready.Issues 0 0 0x0F (word 0x0F 6 0 0 6 0) ∧
    gives (.sread 0 0 (word 0x0F 6 0 0 6 0)) ready (fun t => (t.core 0 0).s 6 == 16) ∧
    gives (.sread 0 0 (word 0x0F 6 0 0 4 0)) ready (fun t => t.fresh == 1) ∧
    gives (.siginit 0 0 (word 0x6A 2 4 0 0 0)) ready (fun t => t.rdScratch 0 0 64 8 == [7#8, 0#8, 0#8, 0#8, 0xF0#8, 0xFF#8, 0xFF#8, 0xFF#8]) := by
  unfold State.Issues; decide +kernel

theorem test_witness_branches :
    ready.Issues 0 0 0x08 (word 0x08 1 2 0 0 5) ∧ condTable 0 5#32 7#32 = false ∧
    ready.Issues 0 0 0x08 (word 0x08 1 2 0 2 0xFFFFFFFD) ∧ condTable 2 5#32 7#32 = true ∧
    gives (.br 0 0 (word 0x08 1 2 0 0 5)) ready (fun t => (t.core 0 0).pc == 4) ∧
    gives (.br 0 0 (word 0x08 1 2 0 2 0xFFFFFFFD)) ready (fun t => (t.core 0 0).pc == 0) ∧
    gives (.br 0 0 (word 0x08 1 2 0 2 0xFFFFFFFC)) ready (fun t => t.fresh != 0) ∧
    ready.Issues 0 0 0x09 (word 0x09 6 0 0 0 12) ∧
    gives (.jal 0 0 (word 0x09 6 0 0 0 12)) ready (fun t => (t.core 0 0).pc == 15 && (t.core 0 0).s 6 == 4) ∧
    gives (.jal 0 0 (word 0x09 6 0 0 0 13)) ready (fun t => t.fresh != 0 && (t.core 0 0).s 6 == 0) ∧
    ready.Issues 0 0 0x0A (word 0x0A 6 3 0 0 0x1F) ∧
    gives (.jr 0 0 (word 0x0A 6 3 0 0 0x1F)) ready (fun t => (t.core 0 0).pc == 15) ∧
    gives (.jr 0 0 (word 0x0A 6 3 0 0 0x20)) ready (fun t => t.fresh != 0) := by
  unfold State.Issues; decide +kernel

theorem test_witness_waits :
    ready.Issues 0 0 0x0C (word 0x0C 0 0 0 3 0) ∧ ready.Issues 0 0 0x63 (word 0x63 0 0 0 0 0) ∧ ready.Issues 0 0 0x0D (word 0x0D 0 0 0 0 0) ∧
    gives (.qwait 0 0 (word 0x0C 0 0 0 3 0)) ready (fun t => t == withCore { kern with pc := 4 }) ∧
    (withCore { kern with dma := [desc] }).Issues 0 0 0x0C (word 0x0C 0 0 0 2 0) ∧
    gives (.qwait 0 0 (word 0x0C 0 0 0 2 0)) (withCore { kern with dma := [desc] }) (fun t => (t.core 0 0).hold == .qwait 2) ∧
    gives (.qwaitRelease 0 0) (withCore { kern with hold := .qwait 2 }) (fun t => t == ready) ∧
    idle (.qwaitRelease 0 0) (withCore { kern with hold := .qwait 2, dma := [desc] }) ∧
    gives (.rfence 0 0 (word 0x63 0 0 0 0 0)) (withCore { kern with dma := [{ desc with raw := List.replicate 28 0 ++ [8] }] }) (fun t => (t.core 0 0).hold == .rfence) ∧
    gives (.rfence 0 0 (word 0x63 0 0 0 0 0)) (withCore { kern with dma := [{ desc with raw := List.replicate 28 0 ++ [2] }] }) (fun t => (t.core 0 0).hold == .free) ∧
    gives (.stop 0 0 (word 0x0D 0 0 0 0 0)) ready (fun t => t.doneBit 0 0 && (t.core 0 0).pc == 4) ∧
    gives (.stop 0 0 (word 0x0D 0 0 0 0 0)) (withCore { kern with dma := [desc] }) (fun t => (t.core 0 0).hold == .stop && !t.doneBit 0 0) ∧
    gives (.qwaitRelease 0 0) (withCore { kern with hold := .stop }) (fun t => t.doneBit 0 0) := by
  unfold State.Issues; decide +kernel

theorem test_witness_vectors :
    ready.Issues 0 0 0x20 (word 0x20 1 2 3 0 0) ∧
    ready.Issues 0 0 0x20 (word 0x20 1 2 0 0x10 0) ∧ ready.Issues 0 0 0x21 (word 0x21 1 2 3 2 0) ∧
    ready.Issues 0 0 0x22 (word 0x22 1 2 3 0 0) ∧ ready.Issues 0 0 0x25 (word 0x25 6 2 0 0 0) ∧
    ready.Issues 0 0 0x26 (word 0x26 1 0 3 0x00F 0) ∧ ready.Issues 0 0 0x26 (word 0x26 6 2 0 0x08F 0) ∧
    ready.Issues 0 0 0x26 (word 0x26 1 0 3 0x100 0) ∧ ready.Issues 0 0 0x23 (word 0x23 1 4 0 0 0) ∧
    effAddr 0 0 (ready.core 0 0) 0 4 0 64 64 false = .ok { inStore := false, off := 64 } := by
  unfold State.Issues; decide +kernel

/-- 2^1.5 and 1/3, rounded to FP32, and the bound of R206 about 1.0: less than two units above, and less than four of the half-size
units below. -/
theorem test_special_values :
    toF32 (exactSpecial 0x12 false 3 (-1)) = 0x403504F3 ∧ toF32 (exactSpecial 0x14 false 3 0) = 0x3EAAAAAB ∧
    within2Ulp (f32 0x3F800001) (f32 0x3F800000) = true ∧ within2Ulp (f32 0x3F800003) (f32 0x3F800000) = false ∧
    within2Ulp (f32 0x3F7FFFFD) (f32 0x3F800000) = true ∧ within2Ulp (f32 0x3F7FFFFB) (f32 0x3F800000) = false ∧
    vUnary 0x13 0x3F800000 = 0 := by
  decide +kernel

theorem test_vector_functions :
    vBinary 0x03 0x80000000 0 = 0x80000000 ∧ vBinary 0x04 0x80000000 0 = 0 ∧ vUnary 0x13 0 = 0xFF800000 ∧ vUnary 0x14 0x80000000 = 0xFF800000 ∧
    vBinary 0 0x3F800000 0x3F800000 = 0x40000000 ∧ vBinary 2 0x40000000 0x3F000000 = 0x3F800000 ∧
    fmtMx 8 = true ∧ ready.Issues 0 0 0x27 (word 0x27 4 2 2 0x008 0) ∧
    effAddr 0 0 (ready.core 0 0) 0 4 0 8 (packedLen 8 32) false = .ok { inStore := false, off := 64 } ∧
    effAddr 0 0 (ready.core 0 0) 0 2 0 1 1 false = .ok { inStore := false, off := 7 } ∧
    gives (.vlane 0 0 (word 0x26 1 0 3 0x100 0)) ready (fun t => (t.core 0 0).lane 1 15 == 0xFFFFFFF0) ∧
    gives (.vmxq 0 0 (word 0x27 4 2 2 0x008 0)) (withCore (kern.setLanes 3 (List.replicate 16 0x40000000)))
      (fun t => t.rdScratch 0 0 7 1 != [0#8] && (t.rdScratch 0 0 64 16).all (· == 0) && !(t.rdScratch 0 0 80 16).all (· == 0)) := by
  unfold State.Issues; decide +kernel

theorem test_witness_faults :
    idle (.alu 0 0 (word 0x01 6 1 2 0 0)) (withCore { kern with run := .idle }) ∧
    ready.canIssue 0 0 = true ∧ (withCore { kern with pc := 16 }).canIssue 0 0 = true ∧
    gives (.alu 0 0 (word 0x01 6 1 2 0 0)) (withCore { kern with pc := 16 }) (fun t => t.fresh != 0) ∧
    (withCore { kern with remotes := [{ id := 0, atom := true, res := 2, sreg := 9 }] }).canIssue 0 0 = true ∧
    idle (.alu 0 0 (word 0x01 6 1 3 0 0)) (withCore { kern with remotes := [{ id := 0, atom := true, res := 2, sreg := 9 }] }) ∧
    opRow 0x06 = none ∧ illegal (word 0x01 6 1 2 0x0F 0) = true ∧
    gives (.alu 0 0 (word 0x01 6 1 2 0x0F 0)) ready (fun t => t.fresh != 0) ∧
    gives (.alu 0 0 (word 0x06 0 0 0 0 0)) ready (fun t => t.fresh != 0) ∧
    ready.Issues 0 0 0x04 (word 0x04 6 1 0 2 0) ∧ effAddr 0 0 (ready.core 0 0) 0 1 0 4 4 false = .bad stAddressFault 0x021000000005 ∧
    ready.Issues 0 0 0x04 (word 0x04 6 4 0 0x102 0) ∧
    effAddr 0 0 (ready.core 0 0) 2 4 0 4 4 false = .bad stRefused 0x40 ∧
    gives (.ld 0 0 (word 0x04 6 4 0 0x102 0)) ready (fun t => t.fresh != 0) := by
  unfold State.Issues; decide +kernel

/-- A queued array instruction with its operands. -/
def entry (w : Word64) (ta tb : Nat) : ArrayEntry :=
  { w := w, pc := 0, ta := BitVec.ofNat 64 ta, ta1 := 0, tb := BitVec.ofNat 64 tb, sb := 0, sc := 0 }

def tclr : ArrayEntry := entry (word 0x44 0 0 0 0 32) 0 0

theorem test_witness_array_queue :
    ready.Issues 0 0 0x40 (word 0x40 1 0 0 0x05 0) ∧ ready.Issues 0 0 0x41 (word 0x41 0 0 0 0 0) ∧
    ready.Issues 0 0 0x42 (word 0x42 1 2 0 0x085 0x80000001) ∧ ready.Issues 0 0 0x43 (word 0x43 1 0 0 0x012 1) ∧
    ready.Issues 0 0 0x44 (word 0x44 0 0 0 0x060 1) ∧ ready.Issues 0 0 0x45 (word 0x45 0 0 0 0x020 0x100) ∧
    ready.Issues 0 0 0x46 (word 0x46 0 1 0 0x00F 1) ∧ ready.Issues 0 0 0x40 (word 0x40 1 0 0 0x00 0) ∧
    gives (.gdrain 0 0 (word 0x46 0 1 0 0x00F 1)) ready (fun t => (t.core 0 0).queue.length == 1 && (t.core 0 0).pc == 4) ∧
    idle (.tclr 0 0 (word 0x44 0 0 0 0x060 1)) (withCore { kern with queue := [tclr, tclr, tclr, tclr] }) ∧
    gives (.wload 0 0 (word 0x40 1 0 0 0x00 0)) ready (fun t => t.fresh != 0) := by
  unfold State.Issues; decide +kernel

/-- A part whose core 0 of flock 0 has one array instruction queued. -/
def queued (e : ArrayEntry) : State := withCore { kern with queue := [e], loaded := true, tally := [(0, { Tally.empty with pair := 5 })] }

theorem test_witness_array_start :
    (kern.canStart tclr = true ∧ startCause (queued tclr) 0 0 tclr = none) ∧
    startCause (queued (entry (word 0x41 0 0 0 0 0) 0 0)) 0 0 (entry (word 0x41 0 0 0 0 0) 0 0) = none ∧
    startCause (queued (entry (word 0x45 0 0 0 0x020 0x100) 0 0)) 0 0 (entry (word 0x45 0 0 0 0x020 0x100) 0 0) = none ∧
    startCause (queued (entry (word 0x40 1 0 0 0x05 0) 0 0)) 0 0 (entry (word 0x40 1 0 0 0x05 0) 0 0) = none ∧
    startCause (queued (entry (word 0x43 1 0 0 0x012 32) 0 0)) 0 0 (entry (word 0x43 1 0 0 0x012 32) 0 0) = none ∧
    startCause (queued (entry (word 0x44 0 0 0 0 33) 0 0)) 0 0 (entry (word 0x44 0 0 0 0 33) 0 0) = some 2 ∧
    gives (.arrayStart 0 0) (queued tclr) (fun t => (t.core 0 0).tally == [] && (t.core 0 0).queue == []) ∧
    gives (.arrayStart 0 0) (queued (entry (word 0x45 0 0 0 0x020 0x100) 0 0)) (fun t => (t.core 0 0).accView 1 == 0x100) ∧
    gives (.arrayStart 0 0) (queued (entry (word 0x40 1 0 0 0x05 0) 0 0)) (fun t => !(t.core 0 0).loaded && (t.core 0 0).runs.length == 1) := by
  decide +kernel

/-- An INT8 tile of ones. -/
def ones : Tile := { fmt := 5, segs := List.replicate 16 (List.replicate 16 1), scales := List.replicate 16 0x7F }

/-- A running array instruction. -/
def running (w : Word64) (ta done total : Nat) : ArrayRun :=
  { e := entry w ta 0, done := done, total := total, segs := [], scales := [] }

def runs (r : ArrayRun) : State := withCore { kern with runs := [r], active := some ones }

theorem test_witness_array_rows :
    gives (.arrayRowFetch 0 0 0 false) ((runs (running (word 0x40 1 0 0 0x05 0) 0x0004000000000010 1 16)).wrScratch 0 0 32 [9])
      (fun t => (t.core 0 0).runs.map (fun r => (r.done, r.scales, r.segs.map (·.take 2))) == [(2, [0x7F], [[9, 0]])]) ∧
    gives (.arrayRowFetch 0 0 0 false) (runs (running (word 0x40 1 0 0 0x05 0) 0 15 16))
      (fun t => (t.core 0 0).runs == [] && (t.core 0 0).loaded && ((t.core 0 0).standby.map (·.fmt)) == some 5) ∧
    pairCode 5 5 = some 4 ∧ (runs (running (word 0x42 1 2 0 0x005 1) 0 0 1)).fetchRow 0 0 (entry (word 0x42 1 2 0 0x005 1) 0 0) 0 16 false =
      .row (List.replicate 16 0) 0x7F ∧
    gives (.arrayRowFetch 0 0 0 false) ((runs (running (word 0x42 1 2 0 0x005 1) 0 0 1)).wrScratch 0 0 0 [2, 3, 0xFF])
      (fun t => outElem 0 (((t.core 0 0).tly 0 15).value) == leBytes 4 0x40800000 && (t.core 0 0).runs == []) ∧
    (ready.sinkFor 0 0x0000000000000040#64 0 64 = .ready ∧
    gives (.arrayRowFetch 0 0 0 false)
      ((runs (running (word 0x43 1 0 0 0x000 1) 0x40 0 1)).setCore 0 0
        { (runs (running (word 0x43 1 0 0 0x000 1) 0x40 0 1)).core 0 0 with tally := [(0, (Tally.empty.contribute 4 (elemVal 5 3) (elemVal 5 2) 0 false).1)] })
      (fun t => t.rdScratch 0 0 64 8 == leBytes 8 0x40C00000 && (t.core 0 0).runs == [])) ∧
    gives (.arrayRowFetch 0 0 0 false) (runs (running (word 0x46 0 1 0 0x003 2) 0 0 2))
      (fun t => ((t.core 0 0).grad.map fun g => (g.ch, g.vals.length)) == some (3, 16)) := by
  decide +kernel

def roadRow : RoadRow := { data := List.replicate 64 7, scale := 0x7F, ok := true }

/-- A flock with a row on its way, a row sent and a credit on its way back. -/
def roads : State :=
  { ready with flocks := [(0, { ready.flock 0 with inp := [(7, { transit := [roadRow], buf := [], dead := false })], outp := [(0, { used := 2, returning := 1 })] })] }

theorem test_witness_roads :
    gives (.roadRowArrival 0 7 false) roads (fun t => t.inPort 0 7 == { transit := [], buf := [{ roadRow with ok := false }], dead := true }) ∧
    gives (.roadCreditReturn 0 0) roads (fun t => t.outPort 0 0 == { used := 1, returning := 0 }) ∧
    ready.fld .flkTimeouts 0 0 15 0 ≠ 0 ∧
    gives (.roadTimeout 0 0) (runs (running (word 0x42 1 2 0 0x005 1) 0x8000000000000000 0 1))
      (fun t => t.fresh != 0 && (t.core 0 0).runs == []) := by
  decide +kernel

/-- A part whose scratch word at 64 of core 0 holds a value. -/
def signalled (v : Nat) : State := ready.wrScratch 0 0 64 (leBytes 8 v)

theorem test_witness_signals :
    effAddr 0 0 kern 0 4 0 8 8 true = .ok { inStore := false, off := 64 } ∧
    ready.Issues 0 0 0x68 (word 0x68 6 4 1 0 0) ∧ ready.Issues 0 0 0x68 (word 0x68 6 4 3 0 0) ∧ ready.Issues 0 0 0x69 (word 0x69 6 4 0 0 0) ∧
    gives (.sigadd 0 0 (word 0x68 6 4 1 0 0)) (signalled 0x1234FFFFFFFFFFFF)
      (fun t => ofLE (t.rdScratch 0 0 64 8) == 0x1234000000000004 && (t.core 0 0).s 6 == 0xFFFFFFFF) ∧
    gives (.sigadd 0 0 (word 0x68 6 4 1 0 0)) (signalled 0x80007FFFFFFFFFFA) (fun t => ofLE (t.rdScratch 0 0 64 8) == 0x80007FFFFFFFFFFF) ∧
    gives (.sigadd 0 0 (word 0x68 6 4 1 0 0)) (signalled 0x80007FFFFFFFFFFB) (fun t => t.fresh != 0 && ofLE (t.rdScratch 0 0 64 8) == 0x80007FFFFFFFFFFB) ∧
    gives (.sigadd 0 0 (word 0x68 6 4 3 0 0)) (signalled 0x8000000000000010) (fun t => ofLE (t.rdScratch 0 0 64 8) == 0x8000000000000000) ∧
    gives (.sigadd 0 0 (word 0x68 6 4 3 0 0)) (signalled 0x800000000000000F) (fun t => t.fresh != 0) ∧
    gives (.sigrd 0 0 (word 0x69 6 4 0 0 0)) (signalled 0x8000000000000010) (fun t => (t.core 0 0).pair 6 == 0x8000000000000010) ∧
    sigSatisfied 0x0001000000000000 0 (2 ^ 47 + 1) = true ∧ sigSatisfied 0x0001000000000000 1 1 = false := by
  unfold State.Issues; decide +kernel

/-- A WAIT of core 0 on its scratch word at 64. -/
def waiting : Wait := { inStore := false, off := 64, te := 0, tc := 5, sreg := 9, imm := 1, monitor := false, sat := false }

theorem test_witness_wait :
    effAddr 0 0 kern 0 4 0 8 8 true = .ok { inStore := false, off := 64 } ∧ ready.Issues 0 0 0x6B (word 0x6B 4 2 0 0x090 9) ∧
    gives (.wait 0 0 (word 0x6B 4 2 0 0x090 9)) ready (fun t => (t.core 0 0).hold == .wait { waiting with te := 0xFFFF, tc := 0xFFF000000007, imm := 9 }) ∧
    gives (.wait 0 0 (word 0x6B 4 2 0 0x090 9)) (signalled 0x8000000000000000) (fun t => t.fresh != 0) ∧
    gives (.waitPoll 0 0) ((withCore { kern with hold := .wait waiting }).wrScratch 0 0 64 [5]) (fun t => (t.core 0 0).hold == .wait { waiting with sat := true }) ∧
    gives (.waitSatisfied 0 0) (withCore { kern with hold := .wait { waiting with sat := true } }) (fun t => (t.core 0 0).hold == .free && (t.core 0 0).s 9 == 0) ∧
    gives (.waitExpiry 0 0) (withCore { kern with hold := .wait waiting }) (fun t => (t.core 0 0).hold == .free && (t.core 0 0).s 9 == 9) := by
  unfold State.Issues; decide +kernel

/-- A stream of one row in pass mode with the sink `tb`. -/
def passing (tb : Nat) : State :=
  (runs { running (word 0x42 1 2 0 0x085 1) 0 0 1 with e := { entry (word 0x42 1 2 0 0x085 1) 0 tb with tb := BitVec.ofNat 64 tb } }).wrScratch 0 0 0 [2, 3, 0xFF]

theorem test_array_rows_elsewhere :
    kindSize 0 < 0x7FF8 + packedLen 5 (tileK 5) ∧
    passMode (word 0x42 1 2 0 0x085 1) 1 = true ∧ (passing 0x100).sinkFor 0 0x100#64 0 64 = .ready ∧
    gives (.arrayRowFetch 0 0 0 false) (passing 0x100) (fun t => t.rdScratch 0 0 0x100 4 == leBytes 4 0x40800000 && (t.core 0 0).runs == []) ∧
    gives (.arrayRowFetch 0 0 0 true) (runs (running (word 0x42 1 2 0 0x005 1) 0 0 1)) (fun t => t.halted 0 0 && (t.core 0 0).runs == []) ∧
    gives (.arrayRowFetch 0 0 0 false) (runs (running (word 0x43 1 0 0 0x112 1) (0x4000000000000000 + 0x80) 0 1))
      (fun t => (t.core 0 0).runs == [] && (t.core 0 0).tally == []) := by
  decide +kernel

def ratomCore : Core := { kern with sreg := [(3, 0x00040000#32), (4, 7#32)] }

theorem test_witness_remote :
    (loadedWith ratomCore).Issues 0 0 0x61 (word 0x61 6 2 4 0x090 0) ∧ (loadedWith ratomCore).Issues 0 0 0x62 (word 0x62 0 2 4 0x091 0) ∧
    ratomCore.pair 2 = 0x0004000000000000 ∧ (loadedWith ratomCore).deviceOf 1 = some 1 ∧
    gives (.ratom 0 0 (word 0x61 6 2 4 0x090 0)) (loadedWith ratomCore) (fun t => t.ni.waiting.map (fun r => (r.dest, r.op, r.w4)) == [(1, 3, 7#64)]) ∧
    gives (.rsig 0 0 (word 0x62 0 2 4 0x091 0)) (loadedWith ratomCore) (fun t => t.ni.waiting.map (fun r => (r.flag, r.op, r.pay)) == [(true, 4, .bytes (leBytes 8 7))]) ∧
    idle (.rsig 0 0 (word 0x62 0 2 4 0x091 0)) (loadedWith { ratomCore with remotes := List.replicate 8 { id := 0, atom := false, res := 0, sreg := 20 } }) ∧
    ready.Issues 0 0 0x60 (word 0x60 0 4 0 0 0) ∧ effAddr 0 0 kern 0 4 0 32 32 true = .ok { inStore := false, off := 64 } ∧
    (ready.dmaRoom 0 0 = true ∧ (withCore { kern with dma := List.replicate 16 desc }).dmaRoom 0 0 = false) ∧
    gives (.dma 0 0 (word 0x60 0 4 0 0 0)) ready (fun t => (t.core 0 0).dma.length == 1 && (t.core 0 0).pc == 4) ∧
    gives (.dma 0 0 (word 0x60 0 4 0 0 0)) (withCore { kern with dma := List.replicate 16 desc })
      (fun t => (t.core 0 0).hold == .push false 64 && (t.flock 0).stalled == [0]) ∧
    gives (.dmaPushAdmit 0) { withCore { kern with hold := .push false 64 } with flocks := [(0, { ready.flock 0 with stalled := [0] })] }
      (fun t => (t.core 0 0).dma.length == 1 && (t.core 0 0).pc == 4 && (t.flock 0).stalled == []) := by
  unfold State.Issues; decide +kernel

theorem test_witness_restart :
    (ready.haltCore 0 0).halted 0 0 = true ∧ ready.coreRetired 0 0 = false ∧
    gives (.flkCoreHaltWrite 0 0) (ready.haltCore 0 0) (fun t => !t.halted 0 0 && (t.core 0 0).run == .restarting) ∧
    idle (.flkCoreHaltWrite 0 0) ready ∧
    gives (.flkCoreDoneWrite 0 0) (ready.setRbit .flkCoreDoneLo 0 0 0 true) (fun t => !t.doneBit 0 0 && (t.core 0 0).run == .restarting) ∧
    gives (.coreRestart 0 0) (withCore { kern with run := .restarting })
      (fun t => (t.core 0 0).run == .running && (t.core 0 0).sreg == [] && (t.core 0 0).pc == 0) ∧
    idle (.coreRestart 0 0) (withCore { kern with run := .restarting, dma := [desc] }) := by
  decide +kernel

theorem test_witness_dma_start :
    (dmaOf 0 0 0 0 0).refused = true ∧ (dmaOf 2 0 0x020000000000 4096 0).refused = false ∧
    ready.dmaBad 0 (dmaOf 2 0 0x020000000000 4096 0) = none ∧ ready.dmaBad 0 (dmaOf 2 32 0x020000000000 4096 0) = some 32 ∧
    loaded.dmaBad 0 (dmaOf 8 0x020000000000 0x00040000000001FC 8 0) = none ∧
    gives (.dmaDescriptorStart 0 0) (dmas [dmaOf 0 0 0 0 0]) (fun t => t.halted 0 0 && bits (t.reg .flkCoreFault 0 0) 59 52 == 0x52) ∧
    gives (.dmaDescriptorStart 0 0) (dmas [dmaOf 2 32 0x020000000000 4096 0]) (fun t => bits (t.reg .flkCoreFault 0 0) 59 52 == 0x55) ∧
    gives (.dmaDescriptorStart 0 0) (dmas [dmaOf 2 0 0x020000000000 4096 0]) (fun t => (t.core 0 0).dma.map (·.started) == [true]) ∧
    gives (.dmaDescriptorStart 0 0) (dmas [dmaOf 8 0x020000000000 0x00040000000001FC 8 0])
      (fun t => t.ni.waiting.map (·.offset) == [508, 512] && (t.core 0 0).dma.map (·.left) == [2]) ∧
    cut512 2 0 508 8 = [(0, 4), (4, 4)] := by
  decide +kernel

theorem test_witness_dma_end :
    overlaps 0x020000000000 0x020000000100 4 = false ∧
    memOf 0x020000000000 4 = some .store ∧ (flocksOf .store 0x020000000100 4).find? ready.flockQuiet = none ∧
    gives (.dmaComplete 0 0 0) ((dmas [started (dmaOf 1 0x020000000000 0x020000000100 4 0)]).wrStore 0 0 [1, 2, 3, 4, 5])
      (fun t => t.rdStore 0 256 5 == [1, 2, 3, 4, 0] && (t.core 0 0).dma == []) ∧
    (dmaOf 2 0 0x020000000000 4096 0x80000040).word 0 0 = some (.store 0 64) ∧
    (ready.addSignal (.store 0 64) 1 0x4 (some 0)).2 = stOk ∧
    gives (.dmaComplete 0 0 0) (dmas [{ started (dmaOf 2 0 0x020000000000 4096 0x80000040) with done := 4096 }])
      (fun t => t.rdStore 0 64 1 == [1] && (t.core 0 0).dma == []) ∧
    gives (.dmaComplete 0 0 0) (dmas [{ started (dmaOf 2 0 0x020000000000 4096 0) with done := 4096 }]) (fun t => t == dmas []) ∧
    loaded.fld .flkTimeouts 0 0 31 16 ≠ 0 ∧
    gives (.dmaTimeout 0 0 0) (dmas [started (dmaOf 2 0 0x020000000000 4096 0), { dmaOf 2 0 0x020000000000 4096 0 with seq := 1 }])
      (fun t => t.halted 0 0 && (t.core 0 0).dma == [] && bits (t.reg .flkCoreFault 0 0) 59 47 == 0x59 * 32 + 1) := by
  decide +kernel

def baleIn (again : Bool) (tag : Nat) : State :=
  dmas [{ started (dmaOf 2 0 0x020000000000 4096 0) with again := again, raw := image 32 [(8, 8, 0x020000000000), (16, 4, 4096), (20, 4, tag), (28, 1, 2)] }]

/-- A bale that is good, one with another tag for both reads, and one with an uncorrectable sector, which ends the descriptor. -/
theorem test_witness_bale :
    (baleIn false 0).Plain 0 ∧ (baleIn false 0).stackOf 0 = 0 ∧ baleOf ((baleIn false 0).phys 0) = 0 ∧
    sectorsIn ((baleIn false 0).eccs 0 128 [(3, .corrected)]).bad 0 = [] ∧
    ((baleIn false 0).bale 0).crcErr = 0 ∧ ((baleIn false 0).bale 0).tag = 0 ∧
    ((baleIn true 7).core 0 0).dma.map (fun d => (d.tag, d.again, d.op)) = [(7, true, 2)] ∧
    gives (.baleReadComplete 0 0 0 [(3, .uncorrectable)]) (baleIn false 0)
      (fun t => t.halted 0 0 && (t.core 0 0).dma == [] && bits (t.reg .flkCoreFault 0 0) 59 52 == 0x50 + stChecksumFault) := by
  refine ⟨⟨by decide, by decide +kernel, by decide +kernel, rfl, rfl, rfl, rfl, rfl, rfl, rfl, fun x h => by cases h; rfl⟩, ?_⟩
  decide +kernel

/-- A peat descriptor with COUNT 1 on FP32 rows of 16 elements, its lists at the places of Table 8.2. -/
def peatRaw (op flags wgt len : Nat) (more : List (Nat × Nat × Nat)) : List Byte :=
  image len (more ++ [(0, 1, op), (1, 1, flags), (4, 1, wgt), (8, 4, 1), (24, 4, 64), (28, 4, 4), (32, 4, 0x100), (36, 4, 0x200), (40, 4, 0x300),
    (44, 4, 0x400), (52, 2, 16)])

/-- The part with a started peat descriptor of core 0 at offset 0 of its flock store, not yet admitted. -/
def peatState (raw : List Byte) : State :=
  (dmas [started (dmaOf 4 0x020000000000 0 raw.length 0)]).wrStore 0 0 raw

/-- The descriptor admitted. -/
def peatJob (raw : List Byte) : PeatJob :=
  { f := 0, c := 0, seq := 0, raw := raw, pool := false, asked := 0, got := [], done := 0, todo := [], formed := false, out := [], sent := 0,
    again := false, status := stOk, addr := 0x020000000000, low := 0 }

def withJob (j : PeatJob) : State := { peatState j.raw with peat := [j] }

def gatherRaw : List Byte := peatRaw 1 0 0 64 [(36, 8, 0)]
def asked : PeatServe := { last := 0, asks := [{ f := 0, c := 0, seq := 0, pos := 0 }] }

theorem test_witness_peat_admit :
    ((peatState gatherRaw).peatDma 0 0 0).isSome ∧ (peatState gatherRaw).peatEntry 0 = some false ∧
    (peatState gatherRaw).peatCheck 0 0 64 gatherRaw = none ∧ (peatState gatherRaw).stkReady 0 = true ∧ (peatState gatherRaw).peatHeld 0 = false ∧
    gives (.peatDescriptorAdmit 0 0 0) (peatState gatherRaw) (fun t => t.peat == [peatJob gatherRaw]) ∧
    (peatState (peatRaw 1 1 0 64 [(36, 8, 0)])).peatCheck 0 0 64 (peatRaw 1 1 0 64 [(36, 8, 0)]) = some (stRefused, 0x020000000000) ∧
    gives (.peatDescriptorAdmit 0 0 0) (peatState (peatRaw 1 1 0 64 [(36, 8, 0)])) (fun t => t.peat == [] && bits (t.reg .flkCoreFault 0 0) 59 52 == 0x52) ∧
    idle (.peatDescriptorAdmit 0 0 0)
      { peatState gatherRaw with peat := List.replicate 9 { peatJob gatherRaw with c := 1, pool := true } ++ [{ peatJob gatherRaw with c := 1 }] } := by
  decide +kernel

theorem test_witness_peat_rows :
    ((withJob (peatJob gatherRaw)).serveUnit 0).last = 11 ∧ (withJob (peatJob gatherRaw)).firstAsk 0 0 = some (peatJob gatherRaw, 0) ∧
    gives (.peatRowRequest 0) (withJob (peatJob gatherRaw)) (fun t => t.serveUnit 0 == asked && t.peat.map (·.asked) == [1]) ∧
    gives (.peatRowData 0 []) { withJob (peatJob gatherRaw) with pserve := [(0, asked)], dram := [(3, 0x40#8)] }
      (fun t => t.peat.map (·.got) == [[(0, stOk, leBytes 64 0x40000000)]] && (t.serveUnit 0).asks == []) := by
  decide +kernel

/-- A job with its row of 2.0 and fifteen zeros back. -/
def fetched (raw : List Byte) : PeatJob := { peatJob raw with asked := 1, got := [(0, stOk, leBytes 64 0x40000000)] }

/-- One segment, which ends after position 0, and a weight of 3. -/
def pooling (raw : List Byte) (w : List Byte) : State := (withJob (fetched raw)).wrStore 0 0x200 [1] |>.wrStore 0 0x300 w

theorem test_witness_peat_lookups :
    gives (.gather 0 0 0) (withJob (fetched gatherRaw)) (fun t => t.peat.map (fun j => (j.formed, j.out)) == [(true, leBytes 64 0x40000000)]) ∧
    gives (.segsum 0 0 0) (pooling (peatRaw 2 0 0 64 [(12, 4, 1)]) []) (fun t => t.peat.map (·.out) == [leBytes 64 0x40000000]) ∧
    gives (.wpool 0 0 0) (pooling (peatRaw 3 0 0 64 [(12, 4, 1)]) (leBytes 4 0x40400000)) (fun t => t.peat.map (·.out) == [leBytes 64 0x40C00000]) ∧
    gives (.segsum 0 0 0)
      { pooling (peatRaw 2 1 0 64 [(12, 4, 1), (2, 1, 5)]) [] with
        peat := [{ fetched (peatRaw 2 1 0 64 [(12, 4, 1), (2, 1, 5)]) with got := [(0, stOk, leBytes 16 0xFE02)] }] }
      (fun t => t.peat.map (·.out) == [leBytes 64 0xC000000040000000]) ∧
    gives (.wpool 0 0 0)
      { pooling (peatRaw 3 1 5 64 [(12, 4, 1), (2, 1, 5)]) [3] with
        peat := [{ fetched (peatRaw 3 1 5 64 [(12, 4, 1), (2, 1, 5)]) with got := [(0, stOk, leBytes 16 2)] }] }
      (fun t => t.peat.map (·.out) == [leBytes 64 0x40C00000]) := by
  decide +kernel

def formed : PeatJob := { fetched gatherRaw with formed := true, out := leBytes 64 0x40000000 }

theorem test_witness_delivery :
    gives (.deliveryBlock 0 0 0 []) (withJob formed) (fun t => t.rdStore 0 0x400 4 == leBytes 4 0x40000000 && t.peat.map (·.sent) == [64]) ∧
    gives (.deliveryBlock 0 0 0 [(5, 1)]) (withJob formed) (fun t => t.peat == [{ formed with again := true }]) ∧
    gives (.deliveryBlock 0 0 0 [(5, 1)]) (withJob { formed with again := true }) (fun t => t.peat.map (fun j => (j.out, j.status, j.addr)) == [([], stChecksumFault, 0x020000000400)]) ∧
    ({ formed with sent := 64 } : PeatJob).over = true ∧ ({ formed with sent := 64 } : PeatJob).final = stOk ∧
    gives (.peatComplete 0 0 0) (withJob { formed with sent := 64 }) (fun t => t.peat == [] && (t.core 0 0).dma == [] && !t.halted 0 0) ∧
    gives (.peatComplete 0 0 0) (withJob { formed with out := [], status := stChecksumFault }) (fun t => t.peat == [] && t.halted 0 0) ∧
    idle (.peatComplete 0 0 0) (withJob formed) := by
  decide +kernel

/-- SGD with a learning rate of 0.5. -/
def sgd : List Byte := peatRaw 8 0 0 128 [(80, 4, 0x3F000000), (108, 1, 1)]
def updating (g : Nat) : State := (withJob { peatJob sgd with asked := 1, got := [(0, stOk, [])] }).wrStore 0 0x300 (leBytes 4 g)

theorem test_witness_optupd :
    ((List.range 16).map ((updating 0x40000000).gradient (peatJob sgd) 0)).all f32Finite = true ∧
    ((updating 0x40000000).readMany (peatJob sgd) [(0, 64), mRow sgd 0, vRow sgd 0]).2 = (stOk, 0, [leBytes 64 0, [], []]) ∧
    gives (.optupd 0 0 0) (updating 0x40000000) 
      (fun t => Sparse.readBytes t.dram 0 8 == leBytes 8 0xBF800000 && t.peat.map (fun j => (j.done, j.todo.length, j.formed)) == [(0, 1, true)] &&
        gives (.optupd 0 0 0) t (fun u => u.peat.map (fun j => (j.done, j.todo.length, j.formed)) == [(1, 0, false)])) ∧
    gives (.optupd 0 0 0) (updating 0x7F800000) (fun t => t.dram == [] && t.peat.map (·.done) == [1] && t.fld .peatSkipped 0 0 31 0 == 1) := by
  decide +kernel

def kindling (op stride : Nat) : List Byte := peatRaw op 0 0 64 [(24, 4, stride)]
/-- An access to address 64, whose bytes are 5 and zeros, with 7 to write or add. -/
def kindled (op stride : Nat) : State :=
  { ((withJob { peatJob (kindling op stride) with asked := 1, got := [(0, stOk, [])] }).wrStore 0 0x100 [64]).wrStore 0 0x300 [7] with
    dram := [(64, 5#8)] }

theorem test_witness_kindling :
    ((kindled 0x10 8).kindle { peatJob (kindling 0x10 8) with asked := 1 } 0).2 = some (stOk, [5, 0, 0, 0, 0, 0, 0, 0]) ∧
    gives (.kread 0 0 0) (kindled 0x10 8) (fun t => t.rdStore 0 0x400 1 == [5] && t.rdStore 0 0x200 1 == [0] && t.peat.map (·.done) == [1]) ∧
    gives (.kwrite 0 0 0) (kindled 0x11 8) (fun t => t.dram == [(64, 7#8)] && t.peat.map (·.done) == [1]) ∧
    gives (.kadd 0 0 0) (kindled 0x12 8) (fun t => t.dram == [(64, 12#8)] && t.rdStore 0 0x400 1 == [5]) := by
  decide +kernel

theorem test_places : stackPlace false 0x017FFFFFFFFF = (11, 2 ^ 37 - 1) ∧ stackPlace true 0x2FFF = (2, 0xFFF) ∧ stackPlace true 0xC000 = (1, 0x1000) := by
  decide +kernel

def req (a : Nat) : StackReq := { source := 1, core := 0, addr := a }

/-- Nothing stands before stack 11, and its first bale is good. -/
theorem test_witness_plain : ready.Plain 11 ∧ (req 0x017FFFFFF000).addr % 4096 = 0 ∧ ready.stackOf 0x017FFFFFF000 = 11 ∧
    (∃ crc : Word32, baleCrc (List.replicate 4096 0) 0 (ready.phys 0x017FFFFFF000 / 4096) = crc.toNat) ∧
    sectorsIn (ready.eccs 0x017FFFFFF000 128 [(127, .corrected)]).bad (ready.phys 0x017FFFFFF000 / 4096) = [] ∧
    sectorsIn (ready.eccs 0x017FFFFFF000 128 [(127, .uncorrectable)]).bad (ready.phys 0x017FFFFFF000 / 4096) ≠ [] ∧
    sectorsIn ready.bad (2 ^ 25 - 1) = [] :=
  ⟨⟨by decide, by decide +kernel, by decide +kernel, by decide +kernel, by decide +kernel, rfl, rfl, rfl, rfl, rfl, fun _ h => by cases h⟩,
    by decide +kernel, by decide +kernel, baleCrc_exists _ _ _, by decide +kernel, by decide +kernel, by decide +kernel⟩

/-- The other CRC of the two words does not match. -/
theorem test_witness_wrong_crc : ∃ crc : Word32, baleCrc (List.replicate 4096 0) 0 0 ≠ crc.toNat := by
  obtain ⟨x, h⟩ := baleCrc_exists (List.replicate 4096 0) 0 0
  refine ⟨x + 1, fun e => ?_⟩
  rw [h] at e
  exact absurd (BitVec.eq_of_toNat_eq e) (by intro h2; simp at h2)

theorem test_witness_stack_requests :
    (ready.ecc (ready.phys 0x1000) .corrected).badSector (ready.phys 0x1000 / 32) = false ∧
    gives (.stackSectorRead (req 0x1000) .clean) { ready with dram := [(0x1001, 9#8)] }
      (fun t => t.out == [.stack (req 0x1000) stOk ([0, 9] ++ List.replicate 30 0) 0 0] && t.fld .stkEcc 0 0 63 32 == 0) ∧
    gives (.stackSectorRead (req 0x1000) .corrected) ready (fun t => t.fld .stkEcc 0 0 63 32 == 1) ∧
    gives (.stackSectorWrite (req 0x1000) 2#32 (List.replicate 32 7) .clean) ready (fun t => t.dram == [(0x1001, 7#8)]) ∧
    ({ ready with bad := [(128, true)] } : State).badSector (ready.phys 0x1000 / 32) = true ∧
    gives (.stackSectorRead (req 0x1000) .clean) { ready with bad := [(128, true)] } (fun t => t.out == [.stack (req 0x1000) stChecksumFault [] 0 0]) ∧
    gives (.stackSectorWrite (req 0x1000) 0#32 (List.replicate 32 7) .clean) { ready with bad := [(128, true)] }
      (fun t => t.out == [.stack (req 0x1000) stChecksumFault [] 0 0] && t.dram == []) ∧
    gives (.stackSectorRead (req 0x1000) .uncorrectable) ready (fun t => t.out == [.stack (req 0x1000) stChecksumFault [] 0 0]) ∧
    gives (.stackWholeBaleRead (req 0x1000) [(5, .uncorrectable), (6, .uncorrectable)]) ready
      (fun t => t.out == [.stack (req 0x1000) stChecksumFault [] 0 0] && t.fld .stkEcc 0 0 31 0 == 2) ∧
    State.reset.stkOpen 0 = false ∧
    gives (.stackUntaggedWrite (req 0x1000) (List.replicate 4096 1)) State.reset (fun t => t.out == [.stack (req 0x1000) stTargetReset [] 0 0]) ∧
    gives (.stackSectorRead (req 0x1000) .clean) State.reset (fun t => t.out == [.stack (req 0x1000) stTargetReset [] 0 0]) := by
  decide +kernel

/-- Stack 0 with an initialisation under way. -/
def initing (wiping : Bool) : State :=
  { ready with stks := [(0, { Stk.fresh with trained := true, owed := !wiping, wiping := wiping })], dram := [(5, 1#8), (2 ^ 37, 2#8)], regs := (ready.setReg .stkStatus 0 0 (2 ^ 62)).regs }

def ent (write : Bool) : StkEnt :=
  { cls := 1, flock := 0, pool := 0, req := req 0x1000, acc := if write then .sectorWrite 1 (List.replicate 32 7) .clean else .sectorRead .clean,
    owner := .port }

def gated : State := { ready with stks := [(0, { ready.stk 0 with ents := [ent true] })], regs := (ready.setReg .stkStatus 0 0 (2 ^ 63 + 2 ^ 61)).regs }

theorem test_witness_stack_maintenance :
    gives (.refresh 0 16383) ready (fun t => (t.stk 0).lastRef == (63, 255)) ∧
    idle (.scrub 0 0 []) ready ∧
    gives (.scrub 0 0 [(127, .corrected)]) ready (fun t => t.fld .stkEcc 0 0 63 32 == 1) ∧
    gives (.scrub 0 0 [(127, .uncorrectable)]) ready (fun t => t.badSector 127 && t.fld .stkEcc 0 0 31 0 == 1) ∧
    gives (.zeroFill 0) (initing false) (fun t => t.dram == [(2 ^ 37, 2#8)] && t.stkReady 0 && !t.initBusy 0) ∧
    gives (.wipe 0) (ready.setRbit .drvSelf 0 0 30 true) (fun t => t.rbit .stkStatus 0 0 58) ∧
    gives (.wipe 0) ready (fun t => (t.stk 0).wiping && t.initBusy 0) ∧
    gives (.wipeComplete 0) (initing true) (fun t => t.dram == [(2 ^ 37, 2#8)] && !t.initBusy 0) ∧
    (State.nextWaiting { ready with stks := [(0, { ready.stk 0 with waiting := [ent false] })] } 0 = some (ent false) ∧
      (State.roomFor { ready with stks := [(0, { ready.stk 0 with waiting := [ent false] })] } 0 (req 0x1000) (ent false).acc).isSome) ∧
    gives (.stackEntryGrant 0) { ready with stks := [(0, { ready.stk 0 with waiting := [ent false] })] }
      (fun t => (t.stk 0).waiting == [] && t.out == [.stack (req 0x1000) stOk (List.replicate 32 0) 0 0]) ∧
    gives (.writeGateChange 0 true) (ready.setRbit .thmStk 0 0 15 true) (fun t => t.gateClosed 0) ∧
    gives (.writeGateChange 0 false) (gated.setRbit .thmStk 0 0 15 false) (fun t => !t.gateClosed 0 && t.dram == [(0x1000, 7#8)]) ∧
    gated.heldWrites 0 = [ent true] ∧ gated.fld .stkGate 0 0 15 0 ≠ 0 ∧
    gives (.heldWriteExpiry 0 0) gated (fun t => (t.stk 0).ents == [] && t.out == [.stack (req 0x1000) stDeferred [] 0 0]) ∧
    (let t := ready.flkLog 671 0x123456 stRefused 3 77
     t.fld .flkFaultInfo 671 0 31 28 = stRefused ∧ t.fld .flkFaultInfo 671 0 47 32 = 1 ∧
       (t.flkLog 671 0 stTimeout 0 0).rbit .flkFaultInfo 671 0 62 = true) := by
  decide +kernel

/-- The part with an UP link in MODE CXL and the whole of stack 0 in the window. -/
def linked : State :=
  { ready with regs := ((ready.setReg .cxlStatus 0 0 (2 ^ 63 + 2 ^ 62 + 2 ^ 61 + 2 ^ 57)).setReg .cxlHdm 0 0 1).regs }

/-- A snoop of the line at 128, for which requests wait. -/
def snooped (st : SnoopSt) (rs : List StackReq) : State :=
  { linked with trk := [128], snoops := [{ line := 128, inv := false, st := st, reqs := rs }] }

theorem test_witness_host_memory :
    linked.inHdm 128 = true ∧ linked.inHdm 64 = true ∧ linked.hostTraffic = true ∧ linked.rbit .cxlStatus 0 0 57 = true ∧ linked.fld .drvShadowStatus 0 0 63 61 ≠ 1 ∧
    gives (.cxlMemRead 128 true [(1, .corrected)]) { linked with dram := [(128, 3#8)] }
      (fun t => t.out == [.hostData 128 (leBytes 64 3) false] && t.trk == [128] && t.fld .stkEcc 0 0 63 32 == 1) ∧
    gives (.cxlMemWrite 128 3#64 (List.replicate 64 1) false []) linked (fun t => t.dram == [(128, 1#8), (129, 1#8)] && t.out == [.hostDone 128]) ∧
    gives (.cxlMemWrite 128 3#64 (List.replicate 64 1) true []) linked (fun t => t.dram == [] && t.out.contains .aer) ∧
    gives (.cxlHostEvict 128) { linked with trk := [128] } (fun t => t.trk == []) ∧
    gives (.birsp 128 true) (snooped .sent [req 128]) (fun t => t.trk == [128] && t.snoops.map (·.st) == [.answered]) ∧
    gives (.birsp 128 false) (snooped .sent [req 128]) (fun t => t.trk == [] && t.snoops.map (·.st) == [.answered]) ∧
    gives (.birsp 128 false) (snooped .sent []) (fun t => t.trk == [] && t.snoops == []) ∧
    gives (.birsp 128 true) (snooped .late []) (fun t => t.trk == [128] && t.snoops == []) ∧
    gives (.birsp 64 true) (snooped .sent [req 128]) (fun t => t.trk == [128] && t.snoops.map (·.st) == [.sent]) ∧
    linked.fld .cxlTimeouts 0 0 31 16 ≠ 0 ∧
    gives (.biTimeout 0) (snooped .sent [req 128]) (fun t => t.snoops.map (·.st) == [.late]) ∧
    gives (.hostSnoop 0x40) linked (fun t => t.out == [.rspIHitI 0x40]) := by
  decide +kernel

/-- The link with queue 15 RUNNING, 16 entries, and a command waiting at the host. -/
def queueing (x : CmdQueue) : State :=
  { linked with queues := [(15, x)], regs := ((linked.setReg .cxlQctrl 0 15 (2 ^ 63 + 2 ^ 62 + 2 ^ 60 + 4 * 2 ^ 56)).setReg .cxlQcqBase 0 15 0x5000).regs }

def cmd (raw : List Byte) (res : Option (Nat × Nat)) : QCmd := { raw := raw, num := 0, data := [], res := res, mute := false }
def ring (cs : List QCmd) : CmdQueue := { tail := 3, head := 5, passes := 0, cmds := cs }

theorem test_witness_queues :
    gives (.queueEnable 15 (BitVec.ofNat 64 (2 ^ 63 + 2 ^ 62 + 4 * 2 ^ 56))) ((linked.setReg .cxlQsqBase 0 15 0x4000).setReg .cxlQcqBase 0 15 0x5000)
      (fun t => t.queState 15 == 1 && t.queSize 15 == 16) ∧
    gives (.queueEnable 15 (BitVec.ofNat 64 (2 ^ 63 + 3 * 2 ^ 56))) ((linked.setReg .cxlQsqBase 0 15 0x4000).setReg .cxlQcqBase 0 15 0x5000)
      (fun t => t.queState 15 == 2 && t.fld .cxlQctrl 0 15 55 52 == 4) ∧
    gives (.queueDisable 15 0) (queueing (ring [])) (fun t => t.queState 15 == 0) ∧
    gives (.queueDisable 15 0) (queueing (ring [cmd [] none])) (fun t => t.queState 15 == 3) ∧
    gives (.cxlQsqDb 15 15#32) (queueing (ring [])) (fun t => (t.que 15).tail == 15) ∧
    gives (.cxlQcqDb 15 16#32) (queueing (ring [])) (fun t => t.queState 15 == 2 && t.fld .cxlQctrl 0 15 55 52 == 1) ∧
    (queueing (ring [])).mayFetch 15 = true ∧ (queueing { ring [] with tail := 0 }).mayFetch 15 = false ∧
    (cmd (List.replicate 64 0) none).malformed = false ∧
    gives (.sqFetch 15 (List.replicate 64 0)) (queueing (ring [])) (fun t => (t.que 15).cmds.length == 1 && t.fld .cxlQctrl 0 15 31 16 == 1) ∧
    gives (.sqReadError 15) (queueing (ring [])) (fun t => t.queState 15 == 2 && t.fld .cxlQctrl 0 15 55 52 == 2) ∧
    (queueing (ring [cmd [] (some (0, 64))])).mayPost 15 = true ∧
    gives (.cqPost 15) (queueing (ring [cmd [0, 0, 9] (some (0, 64))]))
      (fun t => t.out == [.hostWrite 0x5000 [9, 0, 0, 1, 0, 0, 0, 0, 64, 0, 0, 0, 0, 0, 0, 0], .msix 15] && t.fld .cxlQctrl 0 15 15 0 == 1) ∧
    gives (.cqWriteError 15) (queueing (ring [cmd [] (some (0, 64))])) (fun t => t.queState 15 == 2 && t.out == []) := by
  decide +kernel

/-- A submission entry. -/
def sqe (op flags src dst len inc : Nat) : List Byte :=
  image 64 [(0, 1, op), (1, 1, flags), (8, 8, src), (16, 8, dst), (24, 4, len), (28, 4, inc)]

def result (t : State) : List (Option (Nat × Nat)) := (t.que 15).cmds.map (·.res)

theorem test_witness_queue_commands :
    gives (.queueNop 15 0) (queueing (ring [cmd (sqe 0 0 0 0 0 0) none])) (fun t => result t == [some (0, 0)]) ∧
    gives (.queueFence 15 0) (queueing (ring [cmd (sqe 3 0 0 0 0 0) none])) (fun t => result t == [some (0, 0)]) ∧
    locOf 0x020000000040 = .store 0 64 ∧
    gives (.queueSignal 15 0) (queueing (ring [cmd (sqe 2 0 0 0x020000000040 0 3) none])) (fun t => result t == [some (0, 0)] && t.rdStore 0 64 1 == [3]) ∧
    gives (.queueSignal 15 0) (queueing (ring [cmd (sqe 2 0 0 0x020000000040 0 0xFFFFFFFF) none])) (fun t => result t == [some (stRefused, 0)] && t.store == []) ∧
    (cmd (sqe 1 1 0x4000 0x020000000040 64 0) none).copyBad = none ∧ memOf 0x020000000040 64 = some .store ∧
    gives (.queueCopy 15 0 (List.replicate 64 6)) (queueing (ring [cmd (sqe 1 1 0x4000 0x020000000040 64 0) none]))
      (fun t => result t == [some (0, 64)] && t.rdStore 0 127 2 == [6, 0]) ∧
    gives (.queueCopy 15 0 []) ((queueing (ring [cmd (sqe 1 0 0x020000000040 0x020000000080 64 0) none])).wrStore 0 64 [8])
      (fun t => result t == [some (0, 64)] && t.rdStore 0 128 2 == [8, 0]) ∧
    (cmd (sqe 1 0 0x020000000040 0x020000000080 63 0) none).copyBad.isSome = true ∧
    gives (.queueCopy 15 0 []) (queueing (ring [cmd (sqe 1 0 0x020000000040 0x020000000080 63 0) none])) (fun t => (result t).map Option.isSome == [true] && t.store == []) ∧
    gives (.queueCopy 15 0 []) ((queueing (ring [cmd (sqe 1 2 0x020000000040 0x4000 64 0) none])).wrStore 0 64 [8])
      (fun t => result t == [some (0, 64)] && t.out == [.hostWrite 0x4000 (leBytes 64 8)]) := by
  decide +kernel

/-- A far-tier COPY with one request on its way. -/
def far (write : Bool) : State :=
  { linked with far := [{ f := 0, c := 0, seq := 0, write := write, addr := 0x040000000040, off := 0 }], cores := [(0, { kern with dma := [{ started (if write then dmaOf 1 0x020000000000 0x040000000040 64 0 else dmaOf 1 0x040000000040 0x020000000000 64 0) with left := 1 }] })] }

theorem test_witness_far_and_link :
    inFar 0x020000000000 64 = false ∧
    gives (.farTierResponse 0 (.data (List.replicate 64 4))) (far false) (fun t => t.far == [] && (t.core 0 0).dma.map (fun d => (d.left, d.land.length)) == [(0, 1)]) ∧
    gives (.farTierResponse 0 (.data [])) (far true) (fun t => t.far == [] && (t.core 0 0).dma.map (·.left) == [0]) ∧
    gives (.farTierResponse 0 .unsupported) (far true) (fun t => (t.core 0 0).dma.map (·.status) == [stRefused] && t.rbit .cxlFaultInfo 0 0 63) ∧
    gives (.farTierResponse 0 .poisoned) (far false) (fun t => (t.core 0 0).dma.map (·.status) == [stChecksumFault]) ∧
    (far true).fld .cxlTimeouts 0 0 15 0 ≠ 0 ∧ gives (.farTierTimeout 0) (far true) (fun t => (t.core 0 0).dma.map (·.status) == [stTimeout]) ∧
    gives (.linkUp true 8 4) (ready.setReg .cxlStatus 0 0 (2 ^ 63)) (fun t => t.rbit .cxlStatus 0 0 62 && t.fld .cxlStatus 0 0 61 60 == 2) ∧
    gives .linkDown (queueing (ring [cmd [] none])) (fun t => !t.rbit .cxlStatus 0 0 62 && t.queState 15 == 0) ∧
    gives .cxlReset (queueing (ring [])) (fun t => t.rbit .cxlStatus 0 0 62 && t.queState 15 == 0) ∧
    (linked.setRbit .cxlStatus 0 0 59 true).rbit .cxlStatus 0 0 59 = true ∧
    idle .ideFail ready ∧ idle .linkDown ready ∧ idle .cxlReset ready := by
  decide +kernel

/-- A COPY from the far tier that has not started, its window unmapped or mapped by entry 0. -/
def farDma : Dma := dmaOf 1 0x040000000000 0x020000000000 64 0
def farQueued (s : State) : State := { s with cores := [(0, { kern with dma := [farDma] })] }
def farMapped (s : State) : State := farQueued (s.setReg .cxlFarMap 0 0 (2 ^ 63 + 1))

theorem test_witness_far_start :
    farDma.refused = false ∧ linked.dmaBad 0 farDma = none ∧ farDma.farSide = some 0x040000000000 ∧ inFar farDma.dst 64 = false ∧
    linked.farUnmapped 0x040000000000 64 = some 0x040000000000 ∧ (farMapped linked).farUnmapped 0x040000000000 64 = none ∧
    linked.farMode = stOk ∧ ready.farMode = stTargetReset ∧ linked.flockQuiet 0 = false ∧
    gives (.dmaDescriptorStart 0 0) (farQueued linked) (fun t => bits (t.reg .flkCoreFault 0 0) 59 52 == 0x50 + stAddressFault && t.far == []) ∧
    gives (.dmaDescriptorStart 0 0) (farMapped ready) (fun t => bits (t.reg .flkCoreFault 0 0) 59 52 == 0x50 + stTargetReset && t.rbit .cxlFaultInfo 0 0 63) ∧
    gives (.dmaDescriptorStart 0 0) (farMapped linked) (fun t => t.far.map (·.addr) == [0x040000000000] && (t.core 0 0).dma.map (·.left) == [1]) := by
  decide +kernel

theorem test_witness_dma_done :
    gives (.dmaComplete 0 0 0) (dmas [started (dmaOf 8 0x020000000000 0x0004000000000040 4 0)]) (fun t => t == dmas []) ∧
    gives (.dmaComplete 0 0 0) (dmas [{ started farDma with done := 64 }]) (fun t => t == dmas []) ∧
    idle (.dmaComplete 0 0 0) (dmas [started (dmaOf 2 0 0x020000000000 4096 0)]) ∧
    idle (.dmaDescriptorStart 0 0) (dmas [started (dmaOf 2 0 0x020000000000 4096 0), { farDma with seq := 1, raw := farDma.raw.take 29 ++ [1] ++ farDma.raw.drop 30 }]) := by
  decide +kernel

def shielded : State := linked.setRbit .cxlStatus 0 0 59 true

theorem test_witness_link_more :
    (cmd (sqe 9 0 0 0 0 0) none).malformed = true ∧
    gives (.sqFetch 15 (sqe 9 0 0 0 0 0)) (queueing (ring [])) (fun t => result t == [some (stRefused, 0)] && t.fld .cxlQctrl 0 15 31 16 == 1) ∧
    idle (.sqFetch 15 (sqe 0 0 0 0 0 0)) (queueing { ring [] with tail := 0 }) ∧
    gives (.queueDisable 15 0) ((queueing (ring [])).setFld .cxlQctrl 0 15 61 60 2) (fun t => t.queState 15 == 0) ∧
    idle (.farTierTimeout 0) ((far true).setReg .cxlTimeouts 0 0 0) ∧ shielded.rbit .cxlStatus 0 0 59 = true ∧
    gives .linkDown shielded (fun t => !t.rbit .cxlStatus 0 0 59 && !t.rbit .cxlStatus 0 0 62) := by
  decide +kernel

/-! ### A full fold that passes every check -/

/-- The sections of a fold of device 0 as rank 0 of two, with no torus and one route. `rank` is the DEVICE section's RANK. -/
def foldSections (rank : Nat) : List (Nat × Nat × List Byte) :=
  [(0x01, 192, image 64 [(2, 2, rank)]), (0x02, 256, image 16 [(0, 4, 2), (10, 2, 1)]), (0x03, 320, image 8 [(0, 1, 1)]),
    (0x04, 384, image 32 [(0, 4, 1), (8, 2, 1), (10, 2, 1), (16, 8, 1)])]

/-- A section padded to 64 bytes. -/
def padded (bs : List Byte) : List Byte := bs ++ List.replicate (64 - bs.length) 0

/-- The directory and the sections. -/
def foldContent (rank : Nat) : List Byte :=
  ((foldSections rank).map fun x => leBytes 2 x.1 ++ leBytes 2 0 ++ leBytes 4 x.2.1 ++ leBytes 4 x.2.2.length ++ leBytes 4 (crc32c x.2.2)).flatten ++
    ((foldSections rank).map fun x => padded x.2.2).flatten

/-- The `n` bytes of a number, the highest first. -/
def beBytes : Nat → Nat → List Byte
  | 0, _ => []
  | n + 1, x => BitVec.ofNat 8 (x / 256 ^ n) :: beBytes n x

theorem beBytes_fold (n x a : Nat) : (beBytes n x).foldl (fun a b => a * 256 + b.toNat) a = a * 256 ^ n + x % 256 ^ n := by
  induction n generalizing a with
  | zero => simp [beBytes, Nat.mod_one]
  | succ n ih =>
    simp only [beBytes, List.foldl_cons]
    rw [ih, BitVec.toNat_ofNat, show (2 ^ 8 : Nat) = 256 from rfl, Nat.pow_succ, Nat.mod_mul, Nat.add_mul]
    have e : x % 256 ^ n + 256 ^ n * (x / 256 ^ n % 256) = x / 256 ^ n % 256 * 256 ^ n + x % 256 ^ n := by
      rw [Nat.mul_comm, Nat.add_comm]
    rw [e, Nat.mul_assoc, Nat.mul_comm 256 (256 ^ n), Nat.add_assoc]

theorem digest_bytes (x : BitVec 384) : BitVec.ofNat 384 ((beBytes 48 x.toNat).foldl (fun a b => a * 256 + b.toNat) 0) = x := by
  rw [beBytes_fold]
  apply BitVec.eq_of_toNat_eq
  rw [BitVec.toNat_ofNat, show (256 ^ 48 : Nat) = 2 ^ (8 * 48) from (Nat.pow_mul 2 8 48).symm, Nat.zero_mul, Nat.zero_add, Nat.mod_mod, Nat.mod_eq_of_lt x.isLt]

/-- The image: a header with the digest of the content, and the content. -/
def foldImage (rank : Nat) : List Byte :=
  image 32 [(0, 4, 0x444C4F46), (4, 2, 0x0100), (6, 1, 1), (8, 4, 448), (12, 4, 4), (16, 4, 5), (20, 4, 1), (28, 4, 0xFFFFFFFF)] ++
    beBytes 48 (Config.sha384 (foldContent rank)).toNat ++ List.replicate 48 0 ++ foldContent rank

theorem fold_digest (rank : Nat) : decide (Config.sha384 (foldContent rank) =
    BitVec.ofNat 384 ((beBytes 48 (Config.sha384 (foldContent rank)).toNat).foldl (fun a b => a * 256 + b.toNat) 0)) = true := by
  rw [digest_bytes]; exact decide_eq_true rfl

set_option maxRecDepth 100000 in
theorem fold_slices : (parseHeader (foldImage 0)).dir = 128 ∧
    slice (foldImage 0) (parseHeader (foldImage 0)).dir ((parseHeader (foldImage 0)).total - (parseHeader (foldImage 0)).dir) = foldContent 0 ∧
    (parseHeader (foldImage 0)).digest = beBytes 48 (Config.sha384 (foldContent 0)).toNat := ⟨rfl, rfl, rfl⟩

theorem test_fold_passes : firstErr (checkErrs ready (foldImage 0) 0 none) = none := by
  unfold checkErrs
  simp only [fold_slices.2.1, fold_slices.2.2, fold_digest]
  decide +kernel

/-- The image in stacked memory at address 0. -/
def staged : State := { ready with dram := (foldImage 0).zipIdx.map fun x => (x.2, x.1) }

theorem test_witness_fold_ready : staged.allReady = true ∧ staged.rbit .drvFoldStatus 0 0 63 = false ∧ bits (1#64).toNat 1 0 = 1 ∧
    (parseHeader (foldImage 0)).sigLen = 0 ∧ (parseHeader (foldImage 0)).full = true ∧
    firstErr (headerErrs (slice (foldImage 0) 0 128) 0) = none ∧
    (foldSecs (foldImage 0)).filter (fun x => x.type == 0x30) = [] ∧ secOf (foldSecs (foldImage 0)) 0x20 = none := by
  decide +kernel

/-- An image of zeros: the first error is its magic number. -/
theorem test_fold_refused :
    gives (.foldLoad 1#64) ready (fun t => t.fld .drvFoldStatus 0 0 55 48 == 1 && t.rbit .drvFoldStatus 0 0 62 && t.fld .drvFoldStatus 0 0 31 0 == 0) := by
  decide +kernel

/-- The apply phase of that image at a step. -/
def jobAt (step : Nat) (top : List Byte) : FoldJob :=
  { src := 0, mode := false, top := top, flock := none, fold := some job, step := step, sec := 0, off := 0 }

/-- Reads of zeros; the last step with no flock to bind, and a section whose bytes have gone. -/
theorem test_witness_apply :
    (match (ready.readImage ready.inter 0 128).2 with | .ok bs => bs == List.replicate 128 0 | _ => false) = true ∧
    (match (ready.applyStep (jobAt 7 (image 128 []))).2 with | .bound => true | _ => false) = true ∧
    (match (ready.applyStep (jobAt 3 (slice (foldImage 0) 0 192))).2 with | .fails e => e.code == 0x11 | _ => false) = true ∧
    (∃ e ∈ (withCore kern).flocks, e.2.starting = []) ∧
    (∃ e ∈ ({ ready with flocks := [(0, { ready.flock 0 with starting := [0, 2] })] } : State).flocks, e.2.starting ≠ []) := by
  decide +kernel

def remapTo (f l p : Nat) : Word64 := BitVec.ofNat 64 (2 + f * 2 ^ 32 + l * 2 ^ 16 + p * 2 ^ 24)
def rankWrite (rank device : Nat) : Word64 := BitVec.ofNat 64 (rank + device * 2 ^ 32)
def flockRunning : State := loaded.setFoldState 0 2

theorem test_witness_fold_operations :
    flockRunning.foldState 0 = 2 ∧ (flockRunning.flock 0).logicalOf 127 = none ∧ flockRunning.physGood 0 127 = true ∧
    gives (.remap (remapTo 0 119 127)) flockRunning (fun t => t.foldState 0 == 1 && t.folding == some (.remap 0 119 127) && t.rst.length == 1) ∧
    gives (.remap (remapTo 0 120 127)) flockRunning (fun t => t.fld .drvFoldStatus 0 0 55 48 == 0x0A) ∧
    gives (.remap (remapTo 0 0 1)) flockRunning (fun t => t.fld .drvFoldStatus 0 0 55 48 == 0x0C) ∧
    gives (.remap (remapTo 1 0 127)) flockRunning (fun t => t.fld .drvFoldStatus 0 0 55 48 == 0x09) ∧
    gives (.drvRankWrite (rankWrite 1 1)) loaded (fun t => t == loaded) ∧
    gives (.drvRankWrite (rankWrite 0 1)) loaded (fun t => t.rbit .drvFoldStatus 0 0 60) ∧
    gives (.drvRankWrite (rankWrite 1 1)) ready (fun t => t.rbit .drvFoldStatus 0 0 60) ∧
    gives (.drvRankWrite (rankWrite 1 1)) (loaded.setRbit .drvFoldStatus 0 0 63 true) (fun t => t.rbit .drvFoldStatus 0 0 61) ∧
    gives (.pipelineStart 0) { ready with flocks := [(0, { ready.flock 0 with starting := [0, 2] })] }
      (fun t => (t.flock 0).starting == [2] && (t.core 0 1).run == .running) := by
  decide +kernel

theorem test_witness_unload :
    gives (.unload 3#64) loaded (fun t => t.fold == none) ∧
    gives (.unload 3#64) (loaded.setRbit .drvFoldStatus 0 0 63 true) (fun t => t.fold == loaded.fold && t.rbit .drvFoldStatus 0 0 61) ∧
    gives (.pipelineStart 0) { ready with folding := some (.start none), flocks := [(0, { ready.flock 0 with starting := [0] })] }
      (fun t => t.folding == none && t.rbit .drvFoldStatus 0 0 62) := by
  decide +kernel

def goWrite (scope target : Nat) : Word32 := BitVec.ofNat 32 (2 ^ 31 + scope * 2 ^ 24 + target)

theorem test_witness_resets :
    loaded.rst = [] ∧ loaded.rbit .drvResetStatus 0 0 63 = false ∧ loaded.rbit .drvFoldStatus 0 0 63 = false ∧ loaded.ni.proc.length = 0 ∧
    bits (goWrite 2 11).toNat 9 0 = 11 ∧
    gives (.resetFlock (goWrite 1 671)) loaded (fun t => t.rst.map (fun r => (r.scope, r.target, r.phase)) == [(1, 671, 2)] && t.flockQuiet 671) ∧
    gives (.resetRouterSlice (goWrite 3 11)) loaded (fun t => t.fld .drvResetStatus 0 0 58 40 == 2 * 2 ^ 16 + 3 * 2 ^ 10 + 11) ∧
    gives (.resetPort (goWrite 4 63)) loaded (fun t => t.rst.map (fun r => (r.phase, r.peers)) == [(4, [963])] && Sparse.get 0 t.gen (4 * 1024 + 63) == 1) ∧
    gives (.resetHearth (goWrite 5 15)) loaded (fun t => t.rst.map (·.peers) == [[960, 961, 962, 963]]) ∧
    gives (.resetFlock (goWrite 1 672)) loaded (fun t => t.rbit .drvResetStatus 0 0 61 && t.rst == []) := by
  decide +kernel

def portReset : ResetOp := { scope := 4, target := 63, phase := 4, requested := true, lockWait := false, peers := [963] }
def flockReset : ResetOp := { scope := 1, target := 5, phase := 2, requested := true, lockWait := false, peers := [] }

/-- Flock 0 drains with a far-tier read of its own outstanding. -/
def busyReset : State :=
  { loaded with rst := [{ flockReset with target := 0 }], far := [{ f := 0, c := 0, seq := 0, write := false, addr := 0x040000000000, off := 0 }] }

theorem test_witness_reset_ends :
    (State.draining { loaded with rst := [flockReset] } = some flockReset ∧ State.drained { loaded with rst := [flockReset] } flockReset = true) ∧
    State.drained busyReset { flockReset with target := 0 } = false ∧
    loaded.portState 63 ≠ 1 ∧ loaded.portState 63 ≠ 3 ∧
    gives .drainEnd { loaded with rst := [flockReset] } (fun t => t.rst == [] && t.gen == [(1024 + 5, 1)]) ∧
    idle .drainEnd busyReset ∧
    gives .drainLimitExpiry busyReset (fun t => t.core 0 0 == Core.fresh && t.rbit .drvResetStatus 0 0 60) ∧
    gives (.reinitAck 963) { loaded with rst := [portReset] } (fun t => t.rst == [] && t.rbit .drvResetStatus 0 0 62) ∧
    idle (.reinitAck 962) { loaded with rst := [portReset] } ∧
    gives (.creditReturnMessage 1 2 3) { loaded with returns := [(1, 2, 3)] } (fun t => t.returns == []) := by
  decide +kernel

theorem test_witness_device_reset :
    gives (.resetDevice (goWrite 7 0)) loaded (fun t => t.fold == none && t.cores == [] && t.fld .flkTimeouts 671 0 31 0 == 0x40004000) ∧
    gives .powerLoss { loaded with dram := [(0, 1#8)] } (fun t => t.dram == [] && !t.pads.vin) ∧
    gives .resetPin { loaded with dram := [(0, 1#8)] } (fun t => t.dram == [(0, 1#8)] && t.cores == [] && t.inReset) ∧
    gives (.pllLockLoss 2) (loaded.setRbit .drvClkStatus 0 0 2 true) (fun t => t.rst.map (fun r => (r.scope, r.target)) == [(7, 2)] && t.fold == none) ∧
    gives .powerOn { loaded with pads := { loaded.pads with vin := false } } (fun t => t.pads.vin) ∧
    gives .resetPinRelease { loaded with pads := { loaded.pads with resetN := false } } (fun t => t.pads.resetN) ∧
    gives .railOutOfRange { loaded with dram := [(0, 1#8)] } (fun t => !t.pads.rails && t.dram == [(0, 1#8)] && t.cores == []) ∧
    (loaded.setRbit .drvClkStatus 0 0 35 true).rbit .drvClkStatus 0 0 35 = true ∧
    gives (.pllLock 63) loaded (fun t => t.rbit .drvClkStatus 0 0 63) ∧
    gives (.pllLock 2) { loaded with rst := [{ scope := 7, target := 2, phase := 3, requested := false, lockWait := true, peers := [] }] } (fun t => t.rst == []) ∧
    gives (.pastureRelease 11) (State.setReg { ready with pads := { ready.pads with released := 2 ^ 11 - 1 } } .drvClkStatus 0 0 (2 ^ 35 + 2))
      (fun t => t.pads.released == 2 ^ 12 - 1 && t.pastureReady 11 && t.rbit .rtrStatus 11 0 63) ∧
    gives (.stackTrainingComplete 11) { ready with stks := [] } (fun t => (t.stk 11).trained && t.initBusy 11) ∧
    gives (.stackTrainingComplete 11) ready (fun t => t.stkReady 11 && t.rbit .drvClkStatus 0 0 47) := by
  decide +kernel

/-- Port 0 of the loaded device is UP and holds a credit for class 0. -/
def portUp0 : State := State.setPortState { loaded with rtr := { Rtr.fresh with seen := [(0, 1)] } } 0 2

theorem test_witness_router :
    portSlice 0 < 12 ∧ portUp0.sliceUp (portSlice 0) = true ∧ portUp0.portUp 0 = true ∧
    gives (.routerPacketArrival (portSlice 0) 0 false (pkt 1 [1, 2, 3, 4]) false) portUp0
      (fun t => (t.queue (portSlice 0) (qPort 0 0)).map (·.hops) == [1] && t.regs == portUp0.regs) ∧
    gives (.routerPacketArrival (portSlice 0) 0 false (pkt 1 [1, 2, 3, 4]) true) portUp0
      (fun t => t.queue (portSlice 0) (qPort 0 0) == [] && t.fld .rtrDrop (portSlice 0) 0 63 48 == 1) ∧
    queueKind (qPort 0 0) = some (.port 0 0 false) ∧ portUp0.ejectShare (pkt 1 []) = 0 ∧
    gives (.packetForward (portSlice 0) (qPort 0 0)) (portUp0.pushQueue (portSlice 0) (qPort 0 0) (pkt 1 [1, 2, 3, 4]))
      (fun t => t.queue 0 (qEject 0) == [pkt 1 [1, 2, 3, 4]] && t.queue (portSlice 0) (qPort 0 0) == []) ∧
    portUp0.adaptivePort (portSlice 0) 0 { first := 1, last := 1, minPorts := 1, esc := 0 } = some 0 ∧
    gives (.packetForward (portSlice 0) (qPort 0 0)) (portUp0.pushQueue (portSlice 0) (qPort 0 0) { pkt 1 [1, 2, 3, 4] with dest := 1 })
      (fun t => (t.port 0).txPos == 2 && t.out.length == 2 && t.credits 0 false 0 == 0 && t.queue (portSlice 0) (qPort 0 0) == []) ∧
    (portUp0.pushQueue (portSlice 0) (qPort 0 0) { pkt 1 [1, 2, 3, 4] with dest := 1 }).winner (portSlice 0) 0 = some ((QKind.port 0 0 false).rival (qPort 0 0)) ∧
    (portUp0.pushQueue (portSlice 0) (qPort 0 0) (pkt 1 [1, 2, 3, 4])).winner (portSlice 0) (outEject 0) = some ((QKind.port 0 0 false).rival (qPort 0 0)) ∧
    idle (.packetForward (portSlice 0) (qPort 0 0))
      ((portUp0.pushQueue (portSlice 0) (qPort 0 0) (pkt 1 [1, 2, 3, 4])).pushQueue (portSlice 0) (qPortEsc 0 0) { pkt 1 [1, 2, 3, 4] with esc := true }) ∧
    packetOf (pktFlits (pkt 1 [1, 2, 3, 4])).flatten = pkt 1 [1, 2, 3, 4] ∧
    gives (.packetForward (portSlice 0) (qPort 0 0)) (portUp0.pushQueue (portSlice 0) (qPort 0 0) { pkt 1 [1, 2, 3, 4] with dest := 2 })
      (fun t => t.out == [] && t.queue (portSlice 0) (qPort 0 0) == []) := by
  decide +kernel

def coherent : State := { loaded with ni := { Ni.fresh with lines := [(0x1000, .valid)] } }
def fwd : Packet := pktSigned { pkt 0x10 [] with offset := 0x1000 }

theorem test_witness_admitted :
    loaded.Admits (pkt 1 [1, 2, 3, 4]) ∧ loaded.Admits (pktSigned { pkt 2 [] with w4 := 512 }) ∧ loaded.Admits (pktSigned { pkt 3 [] with w4 := 3, w6 := 0 }) ∧
    loaded.Admits (pktSigned { pkt 4 (leBytes 8 2) with space := 1 }) ∧ coherent.Admits fwd := by
  refine ⟨?_, ?_, ?_, ?_, ?_⟩ <;> (unfold State.Admits; decide +kernel)

theorem test_witness_packets :
    memOf 0x020000000040 4 = some .store ∧ (flocksOf .store 0x020000000040 512).find? loaded.flockQuiet = none ∧
    gives (.write (pkt 1 [1, 2, 3, 4])) loaded (fun t => answered t 0 [] && t.rdStore 0 64 5 == [1, 2, 3, 4, 0]) ∧
    gives (.read (pktSigned { pkt 2 [] with w4 := 4 })) (loaded.wrStore 0 64 [7]) (fun t => answered t 0 [7, 0, 0, 0]) ∧
    gives (.atomic (pktSigned { pkt 3 [] with w4 := 3, w6 := 0 })) (loaded.wrStore 0 64 [7]) (fun t => answered t 0 (leBytes 8 7) && t.rdStore 0 64 1 == [10]) ∧
    sigPlace 0x020000000040 = some (.store 0 64) ∧
    gives (.signal (pktSigned { pkt 4 (leBytes 8 2) with space := 1 })) loaded (fun t => answered t 0 [] && t.rdStore 0 64 1 == [2]) ∧
    coherent.lineSt 0x1000 = .valid ∧
    gives (.cohFwd fwd) coherent (fun t => answered t 0 [] && t.lineSt 0x1000 == .inv) := by
  decide +kernel

/-- The record of device 1 after SEQ 0 arrived, and after it retired. -/
def seen1 (ret : Bool) : State :=
  { loaded with ni := { Ni.fresh with
      rx := [(1, if ret then (RxRec.fresh.receive 3 0).retire 0 else RxRec.fresh.receive 3 0)],
      replay := if ret then [{ src := 1, seq := 0, status := stRefused, result := 0, pending := false, share := 0, pool := false }] else [] } }

theorem test_witness_repeats :
    RxRec.fresh.classify 3 255 = .new ∧ ((RxRec.fresh.receive 3 0).retire 0).classify 3 0 = .answered ∧
    loaded.niUp = true ∧ loaded.injectRoom 0 2 = true ∧
    gives (.write { pkt 1 [1, 2, 3, 4] with crc := (pkt 1 [1, 2, 3, 4]).crc + 1 }) loaded (fun t => t.fld .niCntA 0 0 63 32 == 1 && t.store == []) ∧
    ((seen1 false).rx 1).classify 3 0 = .inProgress ∧
    gives (.write (pkt 1 [1, 2, 3, 4])) (seen1 false) (fun t => t.fld .niCntB 0 0 63 32 == 1 && t.store == []) ∧
    ((seen1 true).rx 1).classify 3 0 = .answered ∧
    gives (.write (pkt 1 [1, 2, 3, 4])) (seen1 true) (fun t => answered t stRefused [] && t.store == []) ∧
    ((seen1 true).rx 1).classify 3 300 = .stale ∧
    gives (.write (pktSigned { pkt 1 [1, 2, 3, 4] with seq := 300 })) (seen1 true) (fun t => answered t stSeqStale []) ∧
    (loaded.ni.replayRoom 0).isSome ∧ (loaded.ni.holdRoom 0).isSome ∧
    gives (.write (pktSigned { pkt 1 [1, 2, 3, 4] with flag := true, seq := 1 })) loaded (fun t => t.ni.held.length == 1 && t.store == []) ∧
    gives (.flagHoldRelease 1) { coherent with ni := { coherent.ni with held := [{ p := pktSigned { fwd with flag := true }, share := coherent.ejectShare fwd, pool := false }], rx := [(1, RxRec.fresh.receive 3 0)] } }
      (fun t => t.ni.held == [] && t.lineSt 0x1000 == .inv) := by
  decide +kernel

/-- The header words of the SIGNAL of the worked example of 10_fabric.md. -/
theorem test_signal_header :
    (pktWords { pkt 0x04 [0, 0, 0, 0, 0, 0, 0, 0] with
      dest := 0x123, src := 0x40, flag := true, share := 2, hops := 0, jobTag := 0x5A170001, seq := 0, space := 1, len := 8,
      offset := 0x02004A400100 }).take 3 = [0x048C040210008200, 0x5A17000100000000, 0x000102004A400100] := by
  decide

def putReq : NiReq :=
  { share := 0, dest := 1, byRank := true, op := 1, flag := false, space := 0, offset := 64, w4 := 0, w5 := 0, w6 := 0, pay := .bytes [1, 2, 3, 4],
    owner := .put 0 0 0 0, after := 0 }
def putTag : Tag := { num := 0, req := putReq, dest := 1, seq := 7, resends := 0, backoff := false }
def tagged (x : Tag) : State := { dmas [{ started (dmaOf 8 0x020000000000 0x0004000000000040 4 0) with left := 1 }] with ni := { Ni.fresh with tags := [x] } }
def response (st : Nat) : Packet := pktSigned { pkt 0x20 [] with status := st, tag := 0, seq := 7 }

theorem test_witness_source :
    loaded.fenced = false ∧ loaded.isShadow = false ∧ Ni.fresh.windowRoom 1 = true ∧ Ni.fresh.freeTag 0 = some 0 ∧
    gives (.niPacketSend 0) { loaded with ni := { Ni.fresh with waiting := [putReq], next := [(1, 2 ^ 32 - 1)], acked := [] } }
      (fun t => (t.queue 0 0).map (fun q => (q.seq, q.tag, q.dest, q.payload)) == [(2 ^ 32 - 1, 0, 1, [1, 2, 3, 4])] && t.ni.nextSeq 1 == 0) ∧
    0 < loaded.fld .niResend 0 0 35 32 ∧
    gives (.resendIntervalExpiry 0) (tagged putTag) (fun t => t.ni.tags.map (·.resends) == [1] && (t.queue 0 0).map (·.seq) == [7]) ∧
    gives (.resendIntervalExpiry 0) (tagged { putTag with resends := 15 }) (fun t => t.ni.tags == [] && (t.core 0 0).dma.map (fun d => (d.left, d.status)) == [(0, stTimeout)]) ∧
    gives (.deferredBackoffExpiry 0) (tagged { putTag with backoff := true }) (fun t => t.ni.tags.map (·.backoff) == [false] && (t.queue 0 0).length == 1) ∧
    gives (.tagDeadlineExpiry 0) (tagged putTag) (fun t => t.ni.tags == []) ∧
    rspWellFormed (response 0) = true ∧ rspLen putReq 0 = 0 ∧
    gives (.response (response 0)) (tagged putTag) (fun t => t.ni.tags == [] && (t.core 0 0).dma.map (fun d => (d.left, d.status)) == [(0, 0)]) ∧
    gives (.response (response stDeferred)) (tagged putTag) (fun t => t.ni.tags == [{ putTag with backoff := true }]) ∧
    gives (.response (pktSigned { response 0 with seq := 8 })) (tagged putTag) (fun t => t.ni.tags == [putTag] && t.fld .niCntB 0 0 31 0 == 1) ∧
    gives (.ack (pktSigned { pkt 0x21 [] with ackV := true, ackSeq := 1 })) (seen1 true) (fun t => (t.rx 1).rack == 1) ∧
    gives (.ackTimerExpiry 1) { loaded with ni := { Ni.fresh with next := [(1, 4)] } } (fun t => (t.queue 8 2).map (fun q => (q.op, q.ackSeq)) == [(0x21, 4#32)]) ∧
    gives (.niPairReset 1#64) (seen1 true) (fun t => t.rx 1 == RxRec.fresh && t.ni.replay == []) := by
  decide +kernel

/-- Address 0 of flock 0's store. -/
def sb : Nat := 0x020000000000

/-- An ALLREDUCE SUM of 16 INT32 elements in place, at store offset 0x200. -/
def collBytes : List Byte := image 64 [(0, 1, 1), (2, 1, 0x10), (4, 4, 16), (8, 8, sb + 0x400), (16, 8, sb + 0x400)]
def conf : Group := { num := 0, resv := 0, limit := 2 ^ 18, my := 0, quantum := 4096, members := [0, 1] }
def coll : KJob := collJob conf (sb + 0x200) collBytes 0 0
def kiln (js : List KJob) : State := { loaded with kiln := { Kiln.fresh with groups := [(0, { KGroup.fresh with jobs := js, next := 1 })], order := 1 } }
def at200 (bs : List Byte) : Word64 × State := (BitVec.ofNat 64 (sb + 0x200), loaded.wrStore 0 0x200 bs)

/-- A bucket of 512 elements that core 0 of flock 0 feeds in 32 rows; its seal table lies at store offset 0x800. -/
def buckBytes : List Byte :=
  image 128 [(0, 1, 6), (3, 1, 0x11), (4, 4, 512), (8, 8, sb + 0x600), (16, 8, 0), (32, 2, 3), (36, 2, 1), (40, 8, sb + 0x800)]
def feedBytes : List Byte := leBytes 4 32
def bucketed : State := (loaded.wrStore 0 0x200 buckBytes).wrStore 0 0x600 feedBytes

/-- A redelivery of bale 0 of that bucket, which has ended with its seal bit. -/
def redelBytes : List Byte := image 64 [(0, 1, 7), (8, 8, sb + 0x200), (20, 4, 1)]
def sealedB : State := (loaded.wrStore 0 0x200 (buckBytes.take 72 ++ [0xC0] ++ buckBytes.drop 73)).wrStore 0 0x400 redelBytes

theorem test_witness_submissions :
    memOf (sb + 0x200) 128 = some .store ∧ (flocksOf .store (sb + 0x200) 128).find? loaded.flockQuiet = none ∧
    loaded.groupConf 0 = some conf ∧ loaded.sliceQuiet 0 = false ∧ collWellFormed collBytes 2 = true ∧ collAddresses (sb + 0x200) collBytes 2 = true ∧
    gives (.klnSubmit .host (at200 collBytes).1) (at200 collBytes).2
      (fun t => (t.kgroup 0).jobs == [coll] && t.fld .klnSubmitResult 0 0 63 56 == 0x80) ∧
    gives (.klnSubmit .host (at200 collBytes).1) (State.setGroup (at200 collBytes).2 0 { KGroup.fresh with jobs := List.replicate 16 coll })
      (fun t => (t.kgroup 0).jobs.length == 16 && t.fld .klnSubmitResult 0 0 59 56 == stDeferred) ∧
    (bucketed.chanConf 0).isSome ∧ bucketWellFormed buckBytes [(0, 32)] { enable := true, group := 0, flocks := 1 } 65536 = true ∧
    bucketAddresses (sb + 0x200) buckBytes = true ∧ feedEntries 1 feedBytes = [(0, 32)] ∧
    gives (.bucketSubmit .drover (BitVec.ofNat 64 (sb + 0x200))) bucketed
      (fun t => (t.kgroup 0).jobs.map (fun j => (j.op, j.seq, j.alg)) == [(6, 0, 0)] && t.fld .klnSubmitResult 0 0 63 56 == 0x80) ∧
    redelWellFormed (sb + 0x400) redelBytes (Sparse.readBytes sealedB.store 0x200 96) = true ∧
    gives (.redeliverSubmit .host (BitVec.ofNat 64 (sb + 0x400))) sealedB
      (fun t => t.kiln.redel.map (fun r => (r.addr, r.peer)) == [(sb + 0x400, 1)] && t.fld .klnSubmitResult 0 0 63 56 == 0x80) := by
  decide +kernel

/-- The running collective with a chunk at a stage. -/
def runJob : KJob := { coll with run := true }
def chunk0 (st : KStage) : KChunk := { runJob.mkChunk conf 0 16 false (List.replicate 16 7) st with stage := st }
def withChunk (k : KChunk) : KJob := { runJob with chunks := [k], next := 1 }
def abOwn (cause : Nat) : KAbort := { cause := cause, culprit := 0, detector := 0, digest := 0 }

theorem test_witness_collectives :
    gives (.collectiveStart 0) (kiln [coll]) (fun t => (t.kgroup 0).jobs == [runJob]) ∧
    gives (.collectiveStart 0) (State.setGroup (kiln [coll]) 0 { KGroup.fresh with jobs := [coll], next := 1, pend := [{ seq := 0, ab := abOwn 3, ahead := false }] })
      (fun t => (t.kgroup 0).jobs == []) ∧
    runJob.mayStart 2 65536 = true ∧ runJob.srcParts 2 0 65536 0 = [(sb + 0x400, 64, 0)] ∧
    gives (.chunkStart 0) (kiln [runJob]) (fun t => (t.kgroup 0).jobs.map (fun j => j.chunks.map fun k => (k.idx, k.elems.length)) == [[(0, 16)]]) ∧
    (withChunk (chunk0 .loading)).mayStart 2 65536 = false ∧
    gives (.kilnMemoryComplete 0 0 []) (State.wrStore (kiln [withChunk (chunk0 .loading)]) 0 0x400 [5])
      (fun t => (t.kgroup 0).jobs.map (fun j => j.chunks.map fun k => k.elems) == [[5 :: List.replicate 15 0]]) ∧
    gives (.kilnMemoryComplete 0 0 []) (kiln [withChunk (chunk0 .storing)])
      (fun t => t.rdStore 0 0x43C 5 == [7, 0, 0, 0, 0] && (t.kgroup 0).jobs.map (fun j => (j.ended, j.chunks)) == [(1, [])]) ∧
    gives (.collectiveEnd 0) (kiln [{ runJob with ended := 1, next := 1 }]) (fun t => t.rdStore 0 0x230 1 == [0x80] && (t.kgroup 0).jobs == []) ∧
    idle (.collectiveEnd 0) (kiln [runJob]) ∧
    gives (.klnCtrlAbort 0#64) (kiln [runJob]) (fun t => (t.kgroup 0).jobs == []) ∧
    idle (.klnCtrlAbort 1#64) (kiln [runJob]) ∧ idle (.kilnStallExpiry 0) (State.setFld (kiln [runJob]) .klnStall 0 0 15 0 0) := by
  decide +kernel

theorem test_witness_collective_stall :
    gives (.kilnStallExpiry 0) (State.setFld (kiln [runJob]) .klnStall 0 0 15 0 1) (fun t => (t.kgroup 0).jobs == []) ∧
    gives (.klnCtrlReset 0#64) (kiln [runJob]) (fun t => (t.kgroup 0).next == 0 && (t.kgroup 0).jobs == []) ∧
    gives (.klnCtrlReset 0#64) (kiln []) (fun t => (t.kgroup 0).next == 0) := by
  decide +kernel

/-- The collective in its one step, and what comes from member 1. -/
def stepping : State := kiln [withChunk (runJob.enter (chunk0 .loading))]
def contribPkt (digest : Nat) : Packet :=
  pktSigned { pkt 0x30 (List.replicate 64 1) with offset := 0, w4 := BitVec.ofNat 64 digest, w5 := 0, w6 := BitVec.ofNat 64 (2 ^ 50) }
def noticed : State := { loaded with kiln := { Kiln.fresh with notices := [{ dest := 1, digest := 0, ab := abOwn 3 }] } }
def turned : State := { stepping with kiln := { stepping.kiln with turn := [(0, 0)], groups := [(0, { stepping.kgroup 0 with deficit := 4096 })] } }

theorem test_witness_contributions :
    (noticed.kiln.notices.find? fun x => (noticed.sliceGroups 0).contains x.group).isSome ∧
    gives (.kilnPacketInject 0) noticed (fun t => t.ni.waiting.map (fun r => (r.op, r.dest)) == [(0x30, 1)] && t.kiln.notices == []) ∧
    turned.kiln.notices = [] ∧ turned.sliceGroups 0 = [0] ∧ Sparse.get 64 turned.kiln.turn 0 = 0 ∧
    (turned.pickPacket 0 2).isSome ∧ ((turned.pickPacket 0 2).bind fun k => k.ready 0x10) = some (1, 0, 0, 0, (List.replicate 16 [7, 0, 0, 0]).flatten) ∧
    gives (.kilnPacketInject 0) turned (fun t => t.ni.waiting.map (fun r => (r.op, r.dest)) == [(0x30, 1)] && (t.kgroup 0).deficit == 4096 - 128) := by
  decide +kernel

theorem test_witness_contrib_admitted :
    stepping.Admits (contribPkt runJob.digest) ∧ stepping.Admits (contribPkt (runJob.digest + 1)) := by
  refine ⟨?_, ?_⟩ <;> (unfold State.Admits; decide +kernel)

theorem test_witness_contribs :
    kpPhase (contribPkt runJob.digest) = 0 ∧ stepping.groupConf (kpGroup (contribPkt runJob.digest)) = some conf ∧
    (runJob.digest = 2 ^ 39 + 2 ^ 35 + 16) ∧
    gives (.contrib (contribPkt runJob.digest)) stepping
      (fun t => answered t 0 [] && (t.kgroup 0).jobs.map (fun j => j.chunks.map fun k => k.slots.length) == [[1]]) ∧
    gives (.contrib (contribPkt (runJob.digest + 1))) stepping
      (fun t => answered t stMismatch (leBytes 8 runJob.digest) && (t.kgroup 0).jobs == []) := by
  decide +kernel

/-- That bucket at work, with its 512 elements fed, one chunk at a stage, and elements kept. -/
def bk (fed : List Nat) (kept : List (Nat × List Nat)) : KBucket :=
  { chan := 0, feed := [(0, 32)], entry := 0, rows := 0, fed := fed, peak := 5, kept := kept, markers := 0, flags := 0 }
def bjob (b : KBucket) (ks : List KChunk) (ended : Nat) : KJob :=
  { bucketJob conf (sb + 0x200) buckBytes [(0, 32)] 0 0 with bucket := some b, run := true, chunks := ks, ended := ended, next := 1 }
def bchunk (idx : Nat) (ver : Bool) (xs : List Nat) : KChunk :=
  { (bjob (bk [] []) [] 0).mkChunk conf idx xs.length ver xs .storing with stage := .storing }
def row1s : List Nat := List.replicate 512 1
def rowOf (g : Int) : GradRow := { ch := 0, vals := List.replicate 16 1, g := g, peak := 7 }
def feeding (g : Int) : State :=
  { kiln [bjob (bk [] []) [] 0] with cores := [(0, { kern with grad := some (rowOf g) })] }
def completing : State := kiln [bjob (bk row1s []) [bchunk 0 false row1s] 0]
def completingWrites : List (Nat × List Byte) :=
  ((bjob (bk row1s []) [bchunk 0 false row1s] 0).keep (bchunk 0 false row1s) false).sealEntries 2 65536 0 ++
    balePieces (4096 / 4096 + 2) 0 ((bchunk 0 false row1s).elems.flatMap (bjob (bk row1s []) [] 0).outBytes)

theorem test_witness_buckets :
    (feeding 3).offered (bk [] []) = some (0, 0, 32, rowOf 3) ∧ (bjob (bk [] []) [] 0).nchunks 2 65536 = 1 ∧ bkG buckBytes = 3 ∧
    gives (.channelRowAccept 0) (feeding 3) (fun t => (t.core 0 0).grad == none &&
      (t.kgroup 0).jobs.map (fun j => j.bucket.map fun b => (b.fed.length, b.rows, b.peak)) == [some (16, 1, 7)]) ∧
    gives (.channelRowAccept 0) (feeding 4) (fun t => (t.kgroup 0).jobs == []) ∧
    gives (.verifyCompare 0 0) (kiln [bjob (bk row1s [(0, row1s)]) [bchunk 0 true row1s] 1])
      (fun t => (t.kgroup 0).jobs.map (fun j => j.bucket.map fun b => b.flags) == [some 4]) ∧
    gives (.verifyCompare 0 0) (kiln [bjob (bk row1s [(0, row1s)]) [bchunk 0 true [2]] 1])
      (fun t => (t.kgroup 0).jobs.map (fun j => j.bucket.map fun b => b.flags) == [some 8]) ∧
    gives (.sealExchangeStart 0) (kiln [bjob (bk row1s [(0, row1s)]) [] 1])
      (fun t => (t.kgroup 0).jobs.map (fun j => j.chunks.map fun k => (k.idx, k.elems[2]?)) == [[(sealIdx, some 0x48674BC7)]]) ∧
    gives (.bucketSeal 0) (kiln [bjob (bk row1s [(0, row1s)]) [bchunk sealIdx false [5, 0, 9, 2 ^ 64 - 9, 0, 0, 0, 0]] 1])
      (fun t => (t.kgroup 0).jobs == [] && t.rdStore 0 0x248 1 == [0xC0]) ∧
    gives (.bucketSeal 0) (kiln [bjob (bk row1s [(0, row1s)]) [bchunk sealIdx false [5, 0, 9, 2 ^ 64 - 8, 0, 0, 0, 0]] 1])
      (fun t => (t.kgroup 0).jobs == []) := by
  decide +kernel

theorem test_witness_chunk_complete :
    (bchunk 0 false row1s).stage = .storing ∧ (bjob (bk row1s []) [bchunk 0 false row1s] 0).chunk 0 false = some (bchunk 0 false row1s) ∧
    (completing.bump.kilnStore (kReq 0 0 0 0) completingWrites).2.map (·.1) = some stOk := by
  decide +kernel

/-- A redelivery of bale 0 from the retained copy, with bales done. -/
def redel (done : Nat) : Redel :=
  { id := 0, addr := sb + 0x400, raw := redelBytes, buck := buckBytes, group := 0, done := done, peer := 0, got := [], asked := false, stat := stOk }
def redelivering (done : Nat) : State :=
  { kiln [bjob (bk row1s [(0, row1s)]) [] 1] with kiln := { (kiln [bjob (bk row1s [(0, row1s)]) [] 1]).kiln with redel := [redel done] } }

theorem test_witness_redelivery :
    rdBales redelBytes = 1 ∧ (redel 0).len = 4096 ∧ (redelivering 0).groupConf 0 = some conf ∧ rdComp redelBytes = 0 ∧
    gives (.redeliveryEnd 0) (redelivering 1) (fun t => t.kiln.redel == [] && t.rdStore 0 0x420 8 == [0x80, 0, 0, 0, 1, 0, 0, 0]) ∧
    ((redelivering 0).runningBucket 0 (sb + 0x200)).isSome ∧
    ((redelivering 0).tryWriteBale ((redel 0).req (redel 0).addrOf) none ((bjob (bk row1s [(0, row1s)]) [] 1).resultBytes 2 65536 0 4096)).2 = some stOk := by
  decide +kernel

/-- Hearth 0 with its lasers out of no wavelength and both stiles open; port 0 in a state. -/
def hearth (st : Nat) : State :=
  State.setPortState (((ready.setFld .hthStatus 0 0 62 54 0x1FF).setRbit .hthStatus 0 0 52 true).setRbit .hthStatus 0 0 53 true) 0 st
def port0 : State := ((hearth 2).mapLanes 0 true 0x1FF).mapLanes 0 false 0x1FF
def lanes (t : State) : List Nat := (List.range 8).map (fun j => t.slotWl 0 true j) ++ [t.spare 0 true]

theorem test_witness_ports :
    (hearth 1).mayTrain 0 = true ∧ (hearth 1).portState 0 = 1 ∧ (hearth 1).minLanes 0 = 1 ∧
    gives (.portTrain 0 0x1FE 0x1FF true) (hearth 1) (fun t => t.portState 0 == 2 && t.slotWl 0 false 0 == 1 && t.slotWl 0 true 7 == 7 && t.spare 0 true == 8 &&
      t.spare 0 false == 0xF && t.fld .hthPortStatus 0 0 59 52 == 0x88 && t.out.length == 1) ∧
    gives (.portTrain 0 0x000 0x1FF true) (hearth 1) (fun t => t.portState 0 == 0) ∧
    gives (.portTrain 0 0x1FF 0x000 true) (hearth 3) (fun t => t.portState 0 == 0) ∧
    gives (.portTrain 0 0x1FF 0x1FF false) (hearth 3) (fun t => t.portState 0 == 1) ∧
    idle (.portTrain 0 0x1FF 0x1FF true) (hearth 2) ∧
    gives (.trainingFrame 0 0x2345 63) (hearth 1) (fun t => t.fld .hthPortStatus 0 0 43 30 == 0x2345 && t.fld .hthPortStatus 0 0 51 46 == 63) ∧
    gives (.trainingRetryExpiry 0) (hearth 0) (fun t => t.portState 0 == 1) := by
  decide +kernel

theorem test_witness_port_changes :
    gives (.retrain 0) (hearth 2) (fun t => t.portState 0 == 3 && t.out == []) ∧
    gives (.portRetrainWrite 0) (hearth 2) (fun t => t.portState 0 == 3 && (t.port 0).next == 1 && t.out.length == 1 + (20 - (hearth 2 |>.port 0).txPos) % 20) ∧
    idle (.retrain 0) (hearth 0) ∧
    gives (.portRetrainWrite 0) (hearth 0) (fun t => t.portState 0 == 3) ∧
    gives (.portDisable 0) (hearth 2) (fun t => t.portState 0 == 4 && t.rbit .hthPortCtrl 0 0 1) ∧
    gives (.portEnable 0) (State.setRbit (hearth 4) .hthPortCtrl 0 0 1 true) (fun t => t.portState 0 == 1 && !t.rbit .hthPortCtrl 0 0 1) ∧
    gives (.hearthLasersStable 0 0x1FB) (State.setRbit (hearth 0) .hthStatus 0 0 63 false) (fun t => t.portState 0 == 1 && t.fld .hthStatus 0 0 63 54 == 0x3FB) ∧
    gives (.stileChangeComplete 0 1) (State.setRbit (hearth 0) .hthStatus 0 0 53 false) (fun t => t.rbit .hthStatus 0 0 53) ∧
    gives (.stileChangeComplete 0 0) (State.setRbit (hearth 0) .hthStatus 0 0 52 false) (fun t => t.portState 0 == 1) := by
  decide +kernel

def ctl (ok : Bool) : ControlWord :=
  let w := ctlSigned { cseq := 7, credits := [6, 0, 0, 0, 0, 0, 0, 4], selfDevice := 0, selfPort := 0, lane := .none, muster := none, crc := 0 }
  if ok then w else { w with crc := w.crc + 1 }
/-- The zero codeword, with `n` symbols from symbol 5 on in error, and a codeword, on the eight slots. -/
def zeroLanes (n : Nat) : List (List (BitVec 10)) :=
  (onSlots 8 ((List.replicate 5 0 ++ List.replicate n 3 ++ List.replicate 131 0).take 136)).map fun l => l.map (BitVec.ofNat 10)
def wordLanes (bs : List Byte) : List (List (BitVec 10)) := (onSlots 8 (rsEncode bs)).map fun l => l.map (BitVec.ofNat 10)
def inFlits : State := port0.modPort 0 fun p => { p with rxPos := 1 }
def swap : Swap := { slot := 0, wl := 8, bound := 9, acked := false, urgent := false }
def asking (acked : Bool) : State := port0.modPort 0 fun p => { p with asked := [{ swap with acked := acked }] }

/-- The zero word is a codeword; four symbols in error are corrected and five are found uncorrectable. -/
theorem test_codeword :
    rsDecode (List.replicate 136 0) = some (List.replicate 136 0, []) ∧
    rsDecode (offSlots ((zeroLanes 4).map fun l => l.map BitVec.toNat)) = some (List.replicate 136 0, [5, 6, 7, 8]) ∧
    rsDecode (offSlots ((zeroLanes 5).map fun l => l.map BitVec.toNat)) = none ∧
    (rsSyndromes (rsEncode (controlBytes (ctl true)))).all (· == 0) = true ∧
    controlOf (controlBytes (ctl true)) = ctl true ∧ controlOk (controlBytes (ctl true)) = true ∧
    gives (.codewordDecode 0 (List.range 8) (wordLanes (controlBytes (ctl true)))) port0 (fun t => (t.port 0).got == 7 && (t.port 0).rxPos == 1) := by
  decide +kernel

theorem test_witness_lanes :
    port0.portState 0 = 2 ∧ lanes port0 = [0, 1, 2, 3, 4, 5, 6, 7, 8] ∧
    gives (.codewordDecode 0 (List.range 8) (zeroLanes 5)) port0 (fun t => t.fld .hthPortCnt 0 0 31 0 == 1 && (t.port 0).rxPos == 1) ∧
    gives (.codewordDecode 0 (List.range 8) (zeroLanes 5)) inFlits (fun t => t.fld .hthPortCnt 0 0 31 0 == 1 && (t.port 0).rxPos == 2) ∧
    gives (.codewordDecode 0 (List.range 8) (zeroLanes 1)) port0 (fun t => t.fld .hthPortCnt 0 0 63 32 == 1 && Sparse.get 0 (t.port 0).corr 5 == 1) ∧
    gives (.codewordDecode 0 (List.range 8) (zeroLanes 1)) inFlits (fun t => t.fld .hthPortCnt 0 0 63 32 == 1 && (t.port 0).rxBytes.length == 32) ∧
    gives (.controlCodeword 0 (ctl true)) { port0 with rtr := { port0.rtr with seen := [(0, 15)] } }
      (fun t => (t.port 0).got == 7 && Sparse.get 0 t.rtr.seen 0 == 22 && Sparse.get 0 t.rtr.seen 7 == 4) ∧
    (ctl true).crc.toNat = crc32c (controlBody (ctl true)) ∧
    gives (.controlCodeword 0 (ctl false)) port0 (fun t => t == port0.modPort 0 fun p => { p with rxPos := 1 }) ∧
    gives (.swapReq 0 true 7 8 9) port0 (fun t => (t.port 0).granted.map (fun x => (x.slot, x.wl)) == [(7, 8)] && (t.port 0).next == (port0.port 0).next + 1) ∧
    gives (.swapAck 0 true 0 8 9) (asking false) (fun t => (t.port 0).asked == [{ swap with acked := true }]) ∧
    gives (.swapSwitch 0 false) (port0.modPort 0 fun p => { p with granted := [{ swap with slot := 7 }] })
      (fun t => t.slotWl 0 false 7 == 8 && t.slotWl 0 false 0 == 0 && (t.port 0).granted == []) ∧
    gives (.swapSwitch 0 true) (asking true) (fun t => lanes t == [8, 1, 2, 3, 4, 5, 6, 7, 8] && (t.port 0).asked == []) := by
  decide +kernel

/-- Wavelength 0 at a health in the receive direction. -/
def wl0 (h : Nat) : State := port0.setHealth 0 true 0 h
def asked0 (t : State) (h : Nat) : Bool :=
  t.health 0 true 0 == h && t.lane 0 true 39 36 == 0 && (t.port 0).asked.map (fun x => (x.slot, x.wl, x.urgent)) == [(0, 8, h == 3)]

theorem test_witness_wavelengths :
    port0.hearthBusy 0 = false ∧ port0.health 0 true 0 = 0 ∧ port0.spare 0 true = 8 ∧ port0.lane 0 true 39 36 = 0xF ∧ (port0.port 0).away = none ∧
    gives (.laserOut 0 0) port0 (fun t => asked0 t 3) ∧ gives (.pilotToneCheck 0 0 none) port0 (fun t => asked0 t 3) ∧
    gives (.serWindowExpiry 0) (port0.modPort 0 fun p => { p with corr := [(0, max 1 (port0.fld .hthCfg 0 0 15 0) + 1)] }) (fun t => asked0 t 3) ∧
    idle (.serWindowExpiry 0) port0 ∧
    port0.fld .hthCfg 0 0 31 24 ≠ 0 ∧ (port0.port 0).calRx = 0 ∧
    gives (.level1Calibration 0 true) (wl0 3) (fun t => (t.port 0).calRx == 1 && t.regs == (wl0 3).regs) ∧
    gives (.level1Calibration 0 true) port0 (fun t => asked0 t 1 && (t.port 0).calRx == 1) := by
  decide +kernel

theorem test_witness_rings :
    (wl0 2).health 0 true 0 = 2 ∧
    gives (.ringSweepComplete 0 true 0 true) (wl0 2) (fun t => t.health 0 true 0 == 0) ∧
    gives (.ringSweepComplete 0 true 0 false) (wl0 2) (fun t => t.health 0 true 0 == 2 && Sparse.get 0 (t.port 0).sweeps 0 == 1) ∧
    gives (.pilotToneCheck 0 0 (some 0)) port0 (fun t => t.regs == port0.regs) ∧
    gives (.pilotToneCheck 0 8 (some 3)) (port0.modPort 0 fun p => { p with wrong := [(8, 1)] }) (fun t => t.health 0 true 8 == 2) ∧
    gives (.laserFailure 0 0) port0 (fun t => t.rbit .hthStatus 0 0 54 == false && t.health 3 false 0 == 3 && t.health 4 false 0 == 0) ∧
    gives (.ringSetpointReturn 0 true) ((wl0 1).modPort 0 fun p => { p with away := some (0, 0), claims := [1] })
      (fun t => t.health 0 true 0 == 0 && (t.port 0).asked.map (fun x => (x.slot, x.wl)) == [(0, 0)]) := by
  decide +kernel

/-- Every die at a temperature in 1/16 °C, but for one node. -/
def dies (x : Int) (i : Nat) (y : Int) : List Int := (List.replicate 233 x).set i y

theorem test_witness_thermal :
    ready.inReset = false ∧ ready.rbit .drvReady 0 0 62 = true ∧ ready.fwStep ≠ 1 ∧ ready.rbit .drvReady 0 0 60 = true ∧
    ready.tripped = false ∧ ready.fld .thmCfg 0 0 31 31 = 0 ∧
    tripSite ((List.range 24).map (ready.therm.acting (dies 400 18 1680))) (dies 400 18 1680) = none ∧
    gives (.thermalModelUpdate (dies 400 18 1680)) ready (fun t => !t.tripped && t.fld .thmPas 0 1 63 48 == 1680 && t.fld .thmPas 0 1 31 20 == 128 * 8 + 1 &&
      t.fld .thmPas 0 0 31 23 == 0 && t.rbit .thmStk 0 3 15 == false) ∧
    ((dies 400 232 2000).any fun x => decide (2000 ≤ x)) = true := by
  decide +kernel

theorem test_witness_thermal_inputs :
    gives (.sensorReading (List.replicate 24 300)) ready (fun t => t.therm.sensors.length == 24 && t.therm.unread) ∧
    gives (.powerMeasurement (List.replicate 712 100)) ready (fun t => t.therm.power == [List.replicate 12 5700]) ∧
    gives (.packagePowerMeasurement 70000) ready (fun t => t.fld .thmPower 0 0 15 0 == 0xFFFF && t.fld .thmPower 0 0 63 48 == 0xFFFF) ∧
    gives (.fractionApply 11) (State.setFld ready .thmPas 0 11 31 23 77) (fun t => Sparse.get 0 t.therm.frac 11 == 77) ∧
    gives (.fractionWatchdog 0) ready (fun t => t.withheld 55 && !t.withheld 56) ∧
    gives (.gateDecisionWatchdog 0) (ready.setRbit .thmStk 0 0 15 false) (fun t => t.gateClosed 0) ∧
    gives (.holdWrite (BitVec.ofNat 32 (2 ^ 31))) ready (fun t => t.fld .thmCfg 0 0 31 31 == 1) ∧
    gives (.holdWrite (BitVec.ofNat 32 (2 ^ 31))) (ready.trip 0) (fun t => t.fld .thmCfg 0 0 31 31 == 0) ∧
    gives (.sensorTrip 23) ready (fun t => t.tripped && t.gateClosed 0 && t.fld .thmEvent 0 0 41 38 == 11) ∧
    gives (.slewGovernorTick 4) { ready with therm := { ready.therm with power := [List.replicate 12 40000, List.replicate 12 1000] } }
      (fun t => Sparse.get (0, 1) t.therm.slew 4 == (9000, 40000)) ∧
    idle (.slewGovernorTick 5) ready := by
  decide +kernel

def up : State := State.setPortState loaded 0 2

theorem test_witness_muster :
    up.portUp 0 = true ∧ loaded.device = 0 ∧ loaded.musterState = 1 ∧
    gives (.musterPeriodicFrame 0) { up with muster := { up.muster with fseq := [(0, 0xFFFF)] } } (fun t => t.out.length == 1 && Sparse.get 0 t.muster.fseq 0 == 0) ∧
    idle (.musterPeriodicFrame 1) up ∧
    up.fold.isSome = true ∧ up.muster.suspect = [] ∧ up.muster.votes = [] ∧
    (State.setFld up .drvMusterCfg 0 0 27 24 2).quorum = 2 ∧
    gives (.musterSilenceExpiry 0) (State.setFld { up with muster := { up.muster with learned := [(0, 1, false)] } } .drvMusterCfg 0 0 27 24 2)
      (fun t => t.muster.suspect == [1] && t.muster.learned == [(0, 1, true)]) ∧
    gives (.voteExpiry 1 2) { up with muster := { up.muster with votes := [(1, 2)] } } (fun t => t.muster.votes == [] && t.muster.dead == []) := by
  decide +kernel

theorem test_witness_deaths :
    loaded.fenced = false ∧ loaded.kiln.groups = [] ∧ loaded.ni.tags = [] ∧
    gives (.drvDeclare 0#32) loaded (fun t => t.fenced && t.fld .drvMusterStatus 0 0 61 60 == 3) ∧
    gives (.drvDeclare 1#32) loaded (fun t => !t.fenced && t.muster.dead == [1] && t.ni.dead.contains 1 && t.fld .drvMusterStatus 0 0 45 32 == 1) ∧
    gives .stateArrayError loaded (fun t => t.fenced && t.fld .drvMusterStatus 0 0 61 60 == 2) ∧
    gives .eventPop (loaded.event 1 2 3 4 5) (fun t => t.evt == []) ∧
    loaded.physGood 671 127 = true ∧ loaded.physGood 0 126 = true ∧ (loaded.flock 0).logicalOf 127 = none ∧
    gives (.drvRetire (BitVec.ofNat 32 (671 * 2 ^ 16 + 127))) loaded (fun t => !t.physGood 671 127 && t.physGood 671 126 && t.nor == [(671, 127)]) ∧
    gives (.spareSelfTest 0 127 false) loaded (fun t => !t.physGood 0 127 && t.nor == [(0, 127)]) ∧
    idle (.spareSelfTest 0 127 true) loaded := by
  decide +kernel

def shadowing : State := State.setShadowState (loaded.setRbit .drvShadowCtrl 0 0 63 true |>.setRbit .drvShadowCtrl 0 0 62 true) 2
def due (s : State) (d : Nat) : State := s.setShadow { s.shadow with due := 1, prim := [(1, d)] }

theorem test_witness_shadow :
    loaded.isShadow = false ∧ loaded.rbit .drvShadowCtrl 0 0 63 = false ∧ shadowing.isShadow = true ∧
    gives (.shadowEnable 5#64) loaded (fun t => t.fld .drvShadowStatus 0 0 63 61 == 1 && t.shadowPeer == 5) ∧
    gives (.shadowEnable (BitVec.ofNat 64 (2 ^ 62))) loaded (fun t => t.fld .drvShadowStatus 0 0 63 61 == 2 && t.isShadow) ∧
    gives (.shadowDisable 0#64) (loaded.setRbit .drvShadowCtrl 0 0 63 true) (fun t => t.fld .drvShadowStatus 0 0 63 61 == 0) ∧
    gives (.shadowEnable 5#64) shadowing (fun t => t.fld .drvShadowCtrl 0 0 13 0 == 5 && t.isShadow) ∧ idle (.shadowDisable 0#64) shadowing ∧
    gives .stepMark loaded (fun t => t.shadow.due == 1 && t.rbit .drvShadowStatus 0 0 60) ∧
    idle .digestComplete loaded ∧
    gives .digestComplete (due loaded 0) (fun t => t.shadow.due == 0 && t.fld .drvShadowStatus 0 0 47 32 == 1) := by
  decide +kernel

theorem test_witness_digests :
    shadowing.windowDigest = 0 ∧ shadowing.shadow.own = [] ∧
    gives .digestComplete (due shadowing 0) (fun t => t.fld .drvShadowStatus 0 0 63 61 == 2 && t.fld .drvShadowStatus 0 0 59 48 == 1) ∧
    gives .digestComplete (due shadowing 9) (fun t => t.fld .drvShadowStatus 0 0 63 61 == 4) := by
  decide +kernel

/-- The host link is up and the mailbox is open. -/
def mailed : State := (ready.setRbit .cxlStatus 0 0 62 true).setRbit .cxlStatus 0 0 63 true
def tellsB (i : Instr) (s : State) (op : Nat) (r : MbRet) (data : List Byte) : Bool := gives i s fun t => decide (t = s.mbDone op r data)

/-- A firmware image of five sectors whose components are single bytes; its signatures are left to `fwAuthentic`. -/
def fwTail : List Byte := List.replicate 16384 0
def fwEntry (k : Nat) : List Byte := image 32 [(0, 1, k + 1), (4, 4, 4096 * (k + 1)), (8, 4, 1), (16, 4, crc32c [0])]
def fwImg : List Byte :=
  image 32 [(0, 4, 0x57465A49), (4, 2, 0x0100), (6, 1, 0x10), (8, 4, 20480), (12, 4, 7), (24, 4, 4), (28, 4, 3224)] ++
    beBytes 48 (Config.sha384 fwTail).toNat ++ List.replicate 48 0 ++ (List.range 4).flatMap fwEntry ++ List.replicate 3840 0 ++ fwTail

set_option maxRecDepth 100000 in
theorem test_fw_slices : fwTotal fwImg = 20480 ∧ slice fwImg 4096 (20480 - 4096) = fwTail ∧
    slice fwImg 32 48 = beBytes 48 (Config.sha384 fwTail).toNat := by
  refine ⟨by decide +kernel, ?_, rfl⟩
  decide +kernel

theorem test_fw_header : fwHeaderOk fwImg = true ∧ leAt fwImg 4 2 = 0x0100 ∧ fwTableOk fwImg = true ∧ fwSvn fwImg = 0 ∧ leAt fwImg 16 4 = 0 ∧
    matrixOk fwImg fwImg = true ∧ fwSetVersion fwImg = 7 := by
  decide +kernel

theorem test_fw_body : fwBodyOk fwImg = true := by
  unfold fwBodyOk
  rw [test_fw_slices.1, test_fw_slices.2.1, test_fw_slices.2.2, beBytes_fold, Nat.zero_mul, Nat.zero_add, Nat.mod_eq_of_lt, beq_self_eq_true, Bool.true_and]
  · decide +kernel
  · rw [show (256 ^ 48 : Nat) = 2 ^ (8 * 48) from (Nat.pow_mul 2 8 48).symm]
    exact (Config.sha384 fwTail).isLt

/-- An authentic image passes; that an image is authentic is up to the free signature functions. -/
theorem test_fw_check (h : fwAuthentic fwImg = true) : fwCheck mailed.svnFloor (some mailed.fwVersion) fwImg = 0 := by
  unfold fwCheck
  rw [h]
  decide +kernel

theorem test_witness_mailbox :
    mailed.rbit .cxlStatus 0 0 62 = true ∧ mailed.rbit .cxlStatus 0 0 63 = true ∧ mailed.fwStep = 0 ∧ mailed.fw.moving = none ∧
    mailed.fw.recovery = false ∧
    gives .getEventRecords mailed (fun t => t.out.length == 2) ∧
    gives .clearEventRecords (mailed.setRbit .cxlFaultInfo 0 0 63 true) (fun t => !t.rbit .cxlFaultInfo 0 0 63 && t.out.length == 2) ∧
    tellsB .getEventInterruptPolicy mailed 0x0102 .success [mailed.policy] ∧
    gives (.setEventInterruptPolicy 5) mailed (fun t => t.policy == 5 && t.out == [.mailbox 0x0103 .success [], .msix 16]) ∧
    gives .getFwInfo mailed (fun t => t.out.length == 2) ∧ gives .getSupportedLogs mailed (fun t => t.out.length == 2) ∧
    tellsB (.mailboxUnsupported 0x0300) mailed 0x0300 .unsupported [] ∧
    tellsB (.transferFw 0 0 0 []) mailed 0x0201 .invalidSlot [] := by
  decide +kernel

theorem test_witness_mailbox_firmware :
    mailed.inactive 1 = true ∧ mailed.fw.staging = none ∧ fwCheck mailed.svnFloor (some mailed.fwVersion) (List.replicate 4096 0) = 1 ∧
    gives (.transferFw 2 0 0 (List.replicate 4096 0)) mailed (fun t => t.bankState 1 == 3 && t.fld .secFwStatus 0 0 47 40 == 1 && t.fw.staging == none) ∧
    mailed.bankState 0 = 1 ∧ mailed.actBusy = false ∧ mailed.bankState 1 = 0 ∧
    gives (.activateFw 1 true) mailed (fun t => t.fw.boot == 0 && t.out == [.mailbox 0x0202 .success [], .msix 16]) ∧
    tellsB (.activateFw 2 false) mailed 0x0202 .invalidSlot [] ∧
    tellsB .getFwInfo (mailed.setFld .secFwStatus 0 0 55 52 1) 0x0200 .busy [] ∧
    idle .getFwInfo ready := by
  decide +kernel

/-- Both banks hold that image, and bank 1 is VALID. -/
def banked : State := ((mailed.setImage 0 fwImg).setImage 1 fwImg).setBankState 1 1

theorem test_witness_activation :
    banked.bankState 1 = 1 ∧ banked.actBusy = false ∧ banked.activeBank = 0 ∧ banked.svnFloor ≤ fwSvn (banked.bankImage 1) ∧
    leAt (banked.bankImage 1) 16 4 ≤ banked.fwVersion ∧ matrixOk (banked.bankImage 0) (banked.bankImage 1) = true ∧
    gives (.activateFw 2 false) banked (fun t => t.fwStep == 1 && t.fw.moving == some { bank := 1, back := false, asker := 1, session := 0 } && t.out == []) ∧
    gives (.fwActivateOnline (BitVec.ofNat 32 (3 * 2 ^ 29))) banked (fun t => t.fwStep == 1 && t.rbit .secFwStatus 0 0 63) ∧
    gives (.fwActivateAtReset (BitVec.ofNat 32 (7 * 2 ^ 28))) banked (fun t => t.fw.boot == 1 && t.fw.moving == none) ∧
    gives (.fwActivateOnline (BitVec.ofNat 32 (3 * 2 ^ 29))) (banked.setRbit .drvResetStatus 0 0 63 true) (fun t => t.fld .secFwStatus 0 0 47 40 == 8) := by
  decide +kernel

theorem test_witness_management :
    mailed.managed = true ∧ ready.managed = false ∧
    gives (.mctpSetEndpointId 9) mailed (fun t => t.eid == 9 && t.out.length == 1) ∧
    gives (.pldmRequest [0, 2, 4, 1]) mailed (fun t => t.evtRecv && t.out.length == 1) ∧
    gives (.getVersion .doe [1]) mailed (fun t => t.out.length == 1) ∧ gives (.getMeasurements .mctp false [1]) mailed (fun t => t.out.length == 1) ∧
    gives (.challenge .doe [1]) mailed (fun t => t.fresh == mailed.fresh + 1 && (t.conn .doe).transcript.isSome && (t.conn .mctp).transcript.isNone) ∧
    gives (.keyExchange .doe [1]) mailed (fun t => (t.conn .doe).session == 1) ∧
    gives (.finish .doe { bytes := [1], keys := [] }) (mailed.setConn .doe { Conn.fresh with session := 1 }) (fun t => (t.conn .doe).session == 2 && t.regs == mailed.regs) ∧
    gives (.finish .doe { bytes := [1], keys := [7] }) (mailed.setConn .doe { Conn.fresh with session := 1 }) (fun t => t.ideKeys == [7] && t.rbit .cxlStatus 0 0 59) ∧
    gives (.finish .doe { bytes := [1], keys := [7] }) mailed (fun t => t.ideKeys == [] && t.out.length == 1) ∧
    gives (.endSession .doe [1]) (mailed.setConn .doe { Conn.fresh with session := 2 }) (fun t => (t.conn .doe).session == 0) ∧
    gives (.endSession .doe [1]) mailed (fun t => t.conns == [] && t.out.length == 1) ∧
    idle (.challenge .doe [1]) ready := by
  decide +kernel

theorem test_witness_lms :
    gives (.getLmsSig .doe) mailed (fun t => t.out.length == 1 && t.fld .secLms 0 0 25 0 == 0) ∧
    gives (.getLmsSig .doe) (mailed.setConn .doe { Conn.fresh with transcript := some [1] })
      (fun t => (t.conn .doe).sig.map (·.1) == some 0 && t.fld .secLms 0 0 25 0 == 1) ∧
    gives (.getLmsSig .doe) (mailed.setConn .doe { Conn.fresh with transcript := some [1], sig := some (3, [4]) })
      (fun t => t.fld .secLms 0 0 25 0 == 0 && t.out.length == 1) ∧
    gives (.getLmsSig .doe) ((mailed.setFld .secLms 0 0 25 0 (2 ^ 25)).setConn .doe { Conn.fresh with transcript := some [1] })
      (fun t => (t.conn .doe).sig.isNone && t.out.length == 1) ∧
    gives (.getLmsSig .doe) ((mailed.setFld .secLms 0 0 25 0 (2 ^ 25 - 1)).setConn .doe { Conn.fresh with transcript := some [1] })
      (fun t => t.rbit .secLms 0 0 63) := by
  decide +kernel

/-- An activation of bank 1 at a step and unit. -/
def moving (back : Bool) (step unit : Nat) : State :=
  ((ready.setFw { ready.fw with moving := some { bank := 1, back := back, asker := 0, session := 0 } }).setFld .secFwStatus 0 0 55 52 step).setFld
    .secFwStatus 0 0 51 48 unit

theorem test_witness_units :
    ready.fw.events = [] ∧ ready.fw.fails = [] ∧ ready.peat = [] ∧ nextUnit 4 11 = none ∧ nextUnit 3 15 = some (4, 0) ∧ prevUnit 4 0 = some (3, 15) ∧
    gives (.unitRestartComplete true) (moving false 3 15) (fun t => t.fwStep == 4 && t.fwUnit == 0) ∧
    gives (.unitRestartComplete true) (State.setImage (moving false 4 11) 1 (image 24 [(12, 4, 9)]))
      (fun t => t.activeBank == 1 && t.trial && t.fwVersion == 9 && t.fwStep == 0 && t.fw.prev == 0) ∧
    gives (.unitRestartComplete false) (moving false 2 0) (fun t => t.fw.moving.map (·.back) == some true && t.fwStep == 2) ∧
    gives (.unitRestartComplete true) (moving true 1 0) (fun t => t.fw.moving == none && t.fld .secFwStatus 0 0 47 40 == 0x0B && t.activeBank == 0) ∧
    gives (.unitRestartComplete false) (moving true 4 0) (fun t => t.fwStep == 3 && t.fwUnit == 15) ∧
    gives .fwCommit (State.setImage (ready.setRbit .secFwStatus 0 0 59 true) 0 (image 24 [(7, 1, 1), (20, 1, 63)])) (fun t => !t.trial && t.svnFloor == 63) := by
  decide +kernel

/-- Before the boot ROM runs, with one image in bank 0. -/
def cold (img : List Byte) : State := ((ready.setRbit .drvReady 0 0 62 false).setImage 0 img).setImage 1 [1]

theorem test_witness_boot :
    (cold []).inReset = false ∧ (cold []).rbit .drvReady 0 0 62 = false ∧ (cold []).fw.recovery = false ∧ (cold []).trial = false ∧ (cold []).fw.boot = 0 ∧
    (cold []).nor = [] ∧ (cold [1]).bootOk 0 = false ∧ (cold [1]).bootOk 1 = false ∧
    gives .droverBoot (cold [1]) (fun t => t.fw.recovery && !t.rbit .drvReady 0 0 62) := by
  decide +kernel

/-- The boot ROM starts an authentic image; that an image is authentic is up to the free signature functions. -/
theorem test_witness_boot_ok (h : fwAuthentic fwImg = true) : (cold fwImg).bootOk 0 = true := by
  have e : (cold fwImg).bankImage 0 = fwImg := by rfl
  unfold State.bootOk fwCheck
  simp only [e, h, test_fw_body, test_fw_header.1, test_fw_header.2.2.1]
  decide +kernel

theorem test_witness_fold_policy :
    ready.policyOpen = true ∧ memOf 64 160 = some .stacked ∧ (2 ^ 63 + 64) % 2 ^ 48 = 64 ∧
    gives (.foldKeyEnrol (BitVec.ofNat 64 (2 ^ 63 + 64))) ready (fun t => t.fw.foldKey == List.replicate 160 0 && t.rbit .secPolicy 0 0 29) ∧
    gives (.foldKeyEnrol (BitVec.ofNat 64 (2 ^ 63 + 64))) { ready with dram := [(64 + 98, 1)] } (fun t => t.fw.foldKey == [] && t.rbit .secFwStatus 0 0 61) ∧
    gives (.foldKeyEnrol (BitVec.ofNat 64 (2 ^ 63 + 64))) (ready.setRbit .secPolicy 0 0 31 true) (fun t => t.fw == ready.fw && t.rbit .secFwStatus 0 0 61) ∧
    gives (.foldKeyClear (BitVec.ofNat 64 (2 ^ 62))) (ready.setFw { ready.fw with foldKey := [1] }) (fun t => t.fw.foldKey == []) ∧
    gives (.foldKeyClear (BitVec.ofNat 64 (2 ^ 62))) (ready.setRbit .drvSelf 0 0 30 true) (fun t => t.rbit .secFwStatus 0 0 61) ∧
    gives (.policyWrite (BitVec.ofNat 32 (2 ^ 31 + 2 ^ 30))) ready (fun t => t.rbit .secPolicy 0 0 30 && t.rbit .secPolicy 0 0 31) ∧
    gives (.policyWrite (BitVec.ofNat 32 (2 ^ 30))) (ready.setRbit .secPolicy 0 0 31 true) (fun t => !t.rbit .secPolicy 0 0 30 && t.rbit .secFwStatus 0 0 61) := by
  decide +kernel

/-- Port 0 is UP towards a device that relays session 5. -/
def relayed : State := State.setPortState (ready.setReg .secRelayCfg 0 0 (2 ^ 31)) 0 2
def msg (m off : Nat) (pay : List Byte) : Packet := relayPacket (relayW4 m 5 20480) off 0 pay
def receiving : State :=
  relayed.setFw { relayed.fw with staging := some { bank := 1, relay := some (0, 5), total := 0, got := [1, 2] } }
def sending : State :=
  State.setFw (relayed.setImage 1 (image 24 [(8, 4, 600)])) { (relayed.setImage 1 (image 24 [(8, 4, 600)])).fw with
    tx := some { port := 0, session := 5, next := 0, sent := 512 } }
/-- Port 0 carries nine wavelengths, and its next codeword is one of flits. -/
def laned : State := (receiving.mapLanes 0 false 0x1FF).modPort 0 fun p => { p with txPos := 1 }
/-- What the codewords that left say: message, OFFSET and count of credits of each relay packet. -/
def sentOut (t : State) : List (Nat × Nat × Nat) :=
  (takeFlits 16 ((t.out.flatMap fun o => match o with
    | .codeword _ ls => rsBytes (offSlots (ls.map fun l => l.2.map BitVec.toNat))
    | _ => []).map fun b => (b, false))).1.map fun p => (relayMsg p.1, p.1.w5.toNat, bits p.1.w6.toNat 15 8)

theorem test_witness_relays :
    relayed.portState 0 = 2 ∧ (msg 1 2 [3]).ll = true ∧ pktOk (msg 1 2 [3]) = true ∧ relayWellFormed (msg 1 2 [3]) = true ∧ pktOk (msg 1 0 [3]) = true ∧
    relayWellFormed (msg 1 0 [3]) = true ∧ pktOk (msg 2 512 []) = true ∧ pktOk (msg 3 0 []) = true ∧ pktOk (msg 4 0 []) = true ∧ pktOk (msg 5 0 []) = true ∧ relayed.inReset = false ∧ relayed.fwStep = 0 ∧ relaySession (msg 1 0 []) = 5 ∧ relayMsg (msg 5 0 []) = 5 ∧
    gives (.relaySend (BitVec.ofNat 32 (2 ^ 31 + 2 ^ 28))) ((relayed.setImage 1 (image 24 [(8, 4, 600)])).setBankState 1 1)
      (fun t => t.fw.tx == some { port := 0, session := 1, next := 0, sent := 1024 } && t.out.length == 9) ∧
    gives (.relayData 0 (msg 1 2 [3])) receiving (fun t => t.fw.staging.map (·.got) == some [1, 2, 3] && t.fld .secRelayStatus 0 0 31 0 == 3) ∧
    gives (.relayData 0 (msg 1 2 [3])) laned (fun t => sentOut t == [(2, 3, 1)]) ∧
    gives (.relayData 0 (msg 1 1 [3])) receiving (fun t => (t.port 0).relFreed == 1 && t.fw == receiving.fw) ∧
    gives (.relayData 0 (msg 1 1 [3])) laned (fun t => sentOut t == [(2, 2, 1)]) ∧
    gives (.relayData 0 (msg 1 0 [3])) (relayed.setReg .secRelayCfg 0 0 0) (fun t => (t.port 0).relFreed == 1 && t.fw == relayed.fw && t.out.length == 3) ∧
    gives (.relayAck 0 (msg 2 512 [])) sending (fun t => t.fw.tx.map (·.next) == some 512) ∧
    gives (.relayResult 0 (msg 3 0 [])) sending (fun t => t.fw.tx == none && t.rbit .secRelayStatus 0 0 60) ∧
    gives (.relayActivate 0 (msg 4 0 [])) relayed (fun t => t.out.length == 2 && t.fwStep == 0) ∧
    gives (.relayAbort 0 (msg 5 0 [])) receiving (fun t => t.fw.staging == none && t.bankState 1 == 3) ∧
    gives .relayAckTimeout sending (fun t => t.fw.tx.map (·.sent) == some 1024 && (t.port 0).relSent == 2) ∧
    idle .relayAckTimeout relayed := by
  decide +kernel

theorem test_witness_relay_activate :
    gives (.relayActivate 0 (msg 4 0 [])) (((relayed.setReg .secRelayCfg 0 0 (2 ^ 29)).setImage 0 fwImg |>.setImage 1 fwImg).setBankState 1 1)
      (fun t => t.fwStep == 1 && t.fw.moving == some { bank := 1, back := false, asker := 2, session := 5 }) := by
  decide +kernel

/-- The last byte of an image of 4,097 bytes. -/
def almost : List Byte := image 32 [(8, 4, 4097)] ++ List.replicate 4064 0
def lastMsg : Packet := relayPacket (relayW4 1 5 4097) 4096 0 [9]

theorem test_almost : almost.length = 4096 := by
  have h : (image 32 [(8, 4, 4097)]).length = 32 := by decide +kernel
  rw [almost, List.length_append, h, List.length_replicate]

theorem test_witness_relay_last :
    pktOk lastMsg = true ∧ relayWellFormed lastMsg = true ∧ relayTotal lastMsg = 4097 ∧ relaySession lastMsg = 5 ∧
    fwTotal (almost ++ lastMsg.payload) = 4097 ∧ lastMsg.payload.length = 1 ∧ lastMsg.w5.toNat = 4096 := by
  decide +kernel

/-! ### Ill-formed terms -/

def sreq : StackReq := { source := 0, core := 0, addr := 0 }

/-! For each check of `Instr.wf` a term that fails it. -/

def illCore : List Instr :=
  [.alu 0 0 (word 0x02 0 0 0 0 0), .li 0 120 (word 0x03 0 0 0 0 0), .li 672 0 (word 0x03 0 0 0 0 0), .qwaitRelease 0 120,
   .roadRowArrival 0 8 true, .roadCreditReturn 672 0, .dmaPushAdmit 672, .foldLoad 2, .remap 1, .unload 0, .pipelineStart 672]

def illStack : List Instr :=
  [.stackWholeBaleRead { sreq with addr := 32 } [], .stackWholeBaleRead { sreq with source := 6 } [],
   .stackSectorRead { sreq with addr := 0x018000000000 } .clean, .stackSectorRead { sreq with source := 8 } .clean,
   .stackUntaggedWrite sreq [0], .stackTaggedWrite sreq [] 0 0, .stackSectorWrite sreq 0 (List.replicate 31 0) .clean,
   .refresh 0 16384, .cxlMemRead 32 true [], .cxlMemWrite 0 0 [] false [], .bar0Access (2 ^ 30) 4 none]

def illHost : List Instr :=
  [.cxlQsqDb 16 0, .queueEnable 0 0, .queueDisable 0 (BitVec.ofNat 64 (2 ^ 63)), .sqFetch 0 [], .linkUp true 3 1, .linkUp true 8 0, .linkUp true 8 5,
   .mailboxUnsupported 0x0200, .niPacketSend 12, .write (pkt 2 []),
   .read { pkt 2 [] with len := 1 }, .write (pkt 1 (List.replicate 1024 0)), .ack { pkt 0x21 [] with len := 1 }]

def illFabric : List Instr :=
  [.routerPacketArrival 12 0 true (pkt 1 []) false, .routerPacketArrival 0 0 true { pkt 1 [] with cls := 4 } false,
   .routerPacketArrival 0 4 true (pkt 1 []) false, .routerPacketArrival (portSlice 0 + 1) 0 false (pkt 1 []) false, .packetForward 0 4095,
   .relayData 0 (pkt 0x11 []), .relayData 64 (relayPacket 1 0 0 []), .relayAck 0 (relayPacket 1 0 0 []), .collectiveStart 64,
   .kilnPacketInject 12, .channelRowAccept 16, .retrain 64, .ringSweepComplete 0 true 9 true, .pilotToneCheck 0 9 none, .laserFailure 16 0,
   .stileChangeComplete 0 2, .slewGovernorTick 12]

def illPart : List Instr :=
  [.resetFlock (BitVec.ofNat 32 (2 ^ 24)), .resetPort (BitVec.ofNat 32 (2 ^ 31 + 2 ^ 24)), .pllLockLoss 23, .thermalModelUpdate [], .sensorReading [],
   .powerMeasurement [], .sensorTrip 24, .spareSelfTest 672 0 true, .fwActivateOnline (BitVec.ofNat 32 (5 * 2 ^ 28)),
   .fwActivateAtReset (BitVec.ofNat 32 (2 ^ 30)), .foldKeyEnrol 0, .foldKeyClear 0, .relaySend 0, .rcRead .fabric 0 4, .registerWrite .fabric 0 8 0,
   .hearthLasersStable 16 0]

theorem test_ill_formed_refused : ((illCore ++ illStack ++ illHost ++ illFabric ++ illPart).all fun i => !i.wf) = true := by decide +kernel

theorem test_unknown_idle :
    exec (.li 0 120 (word 0x03 0 0 0 0 0)) ready = .next ready ∧ exec (.roadRowArrival 0 8 true) ready = .next ready ∧
    (Instr.li 0 120 (word 0x03 0 0 0 0 0)).known = false ∧ (Instr.foldLoad 2).known = true ∧
    (Instr.li 671 119 (word 0x03 0 0 0 0 0)).wf = true ∧ (Instr.write (pkt 1 [1])).wf = true ∧ (Instr.eventPop).wf = true := by
  refine ⟨rfl, rfl, ?_⟩
  decide +kernel

theorem test_ill_formed_transfer : (Instr.transferFw 1 0 0 (List.replicate (2 ^ 20 + 1) 0)).wf = false := by
  simp only [Instr.wf, Instr.known, List.length_replicate]; decide

theorem test_decode : decodeTableWord 64 (2 ^ 64 - 1) = none := rfl

/-! ### Invariants and register accesses -/

theorem test_witness_queue : ({ ready with pending := [.eventPop, .li 671 119 (word 0x03 0 0 0 0 0)] }).queueOk := by
  intro i hi
  simp only [List.mem_cons, List.not_mem_nil, or_false] at hi
  rcases hi with rfl | rfl <;> decide

theorem test_witness_invariants : (loaded.wrStore 0 64 [7]).memOk ∧ loaded.recordsOk ∧ step ready = .next ready := by
  refine ⟨?_, ?_, rfl⟩
  · unfold State.memOk; decide +kernel
  · unfold State.recordsOk; decide +kernel

theorem test_witness_registers :
    ready.reaches .drover = true ∧ mailed.reaches .host = true ∧
    (regTarget (Reg.klnStall.addr 0 0) 4).isSome = true ∧ regTarget (Reg.klnStall.addr 0 0 + 1) 4 = none ∧
    gives (.registerWrite .drover (Reg.klnStall.addr 0 0) 4 0x12345678#64) ready (fun t => t.fld .klnStall 0 0 15 0 == 0x5678) ∧
    gives (.registerWrite .drover (Reg.klnStall.addr 0 0 + 1) 4 0x12345678#64) ready (fun t => t.fld .klnStall 0 0 15 0 == ready.fld .klnStall 0 0 15 0) ∧
    gives (.rcRead .host (Reg.niCntA.addr 0 0) 8) (mailed.incFld .niCntA 0 0 63 32) (fun t => t.fld .niCntA 0 0 63 32 == 0 &&
      t.out == [.regDone .host (Reg.niCntA.addr 0 0) stOk (2 ^ 32)]) ∧
    gives (.bar0Access (Reg.niCntA.addr 0 0 - 0x030000000000) 8 none) (mailed.incFld .niCntA 0 0 63 32) (fun t => t.fld .niCntA 0 0 63 32 == 0) := by
  decide +kernel

theorem test_core_registers :
    (kern.setS 0 5).s 0 = 0 ∧ (kern.setS 31 (2 ^ 32 + 5)).s 31 = 5 ∧ kern.pair 0 = 5 * 2 ^ 32 ∧ (kern.setT 7 (2 ^ 64 - 1)).t 7 = 0xFFFF0700003FFFFF := by
  decide +kernel

end Sys2Proof.Tests
end

/-! SUPPORT. Register fields by access code (R4, Table 0.3). Each of the three passes over a register's fields — a write, a
read's answer, what a read leaves — replaces one field after another by a rule of its access code, and the fields of a register
lie apart, so each field holds what its own rule gives and every other bit stays. -/

namespace Sys2Proof.Machine

/-! ### Replacing the fields of a word one after another -/

/-- Two fields share no bit. -/
abbrev Field.Apart (f g : Field) : Prop := f.hi < g.lo ∨ g.hi < f.lo

/-- The word with each field of a list replaced by what `rule` makes of its bits. -/
def reviseFields (rule : Field → Nat → Nat) (fs : List Field) (w : Nat) : Nat :=
  fs.foldl (fun acc f => setBits acc f.hi f.lo (rule f (bits acc f.hi f.lo))) w

@[simp] theorem reviseFields_nil (rule : Field → Nat → Nat) (w : Nat) : reviseFields rule [] w = w := rfl

@[simp] theorem reviseFields_cons (rule : Field → Nat → Nat) (f : Field) (fs : List Field) (w : Nat) :
    reviseFields rule (f :: fs) w = reviseFields rule fs (setBits w f.hi f.lo (rule f (bits w f.hi f.lo))) := rfl

/-- Bits that lie apart from every field of the list stay. -/
theorem bits_reviseFields_apart (rule : Field → Nat → Nat) {fs : List Field} {hi lo : Nat}
    (h : ∀ f ∈ fs, hi < f.lo ∨ f.hi < lo) (w : Nat) : bits (reviseFields rule fs w) hi lo = bits w hi lo := by
  induction fs generalizing w with
  | nil => rfl
  | cons f fs ih =>
    obtain ⟨hf, hfs⟩ := List.forall_mem_cons.1 h
    rw [reviseFields_cons, ih hfs, bits_setBits_ne _ _ _ _ _ _ hf]

/-- A field of the list becomes what its rule makes of its first bits, when the fields lie apart. -/
theorem bits_reviseFields_mem (rule : Field → Nat → Nat) {fs : List Field} (h : fs.Pairwise Field.Apart) {f : Field}
    (hf : f ∈ fs) (w : Nat) :
    bits (reviseFields rule fs w) f.hi f.lo = rule f (bits w f.hi f.lo) % 2 ^ (f.hi + 1 - f.lo) := by
  induction fs generalizing w with
  | nil => exact absurd hf List.not_mem_nil
  | cons g fs ih =>
    obtain ⟨hg, hfs⟩ := List.pairwise_cons.1 h
    rw [reviseFields_cons]
    rcases List.mem_cons.1 hf with rfl | hf
    · rw [bits_reviseFields_apart rule hg, bits_setBits_same]
    · rw [ih hfs hf, bits_setBits_ne _ _ _ _ _ _ (hg f hf).symm]

/-- One bit is a field of width 1. -/
theorem bit_eq_testBit_bits (w b : Nat) : bit w b = (bits w b b).testBit 0 := by
  rw [bits_testBit]
  simp [bit]

/-- A bit that no field of the list covers stays. -/
theorem bit_reviseFields_uncovered (rule : Field → Nat → Nat) {fs : List Field} {b : Nat}
    (h : ∀ f ∈ fs, b < f.lo ∨ f.hi < b) (w : Nat) : bit (reviseFields rule fs w) b = bit w b := by
  rw [bit_eq_testBit_bits, bits_reviseFields_apart rule h, ← bit_eq_testBit_bits]

/-- Replacing a field by its own bits changes nothing. -/
theorem setBits_bits_self (w hi lo : Nat) : setBits w hi lo (bits w hi lo) = w := by
  rw [setBits_eq, Nat.mod_eq_of_lt (bits_lt w hi lo), ← bits_split]

/-- Adding a value in place of a field that holds zero replaces the field. -/
theorem add_shiftLeft_eq_setBits {w hi lo v : Nat} (hw : bits w hi lo = 0) (hv : v < 2 ^ (hi + 1 - lo)) :
    w + v <<< lo = setBits w hi lo v := by
  simp [setBits, hw, Nat.mod_eq_of_lt hv]

/-! ### The rule of each access code (Table 0.3) -/

/-- What the bits `x` of a field become when software writes `v` to its register. -/
def Field.written (v : Nat) (f : Field) (x : Nat) : Nat :=
  match f.acc with
  | .rw => bits v f.hi f.lo
  | .w1c => x &&& (2 ^ 64 - 1 - bits v f.hi f.lo)
  | .w1s => x ||| bits v f.hi f.lo
  | _ => x

/-- What the bits `x` of a field become when its register is read. -/
def Field.afterRead (f : Field) (x : Nat) : Nat := if f.acc = .rc then 0 else x

/-- What a read of the register's bits `cur` shows in a field. -/
def Field.shown (cur : Nat) (f : Field) : Nat := if f.acc = .wo then 0 else bits cur f.hi f.lo

theorem Field.written_lt (v : Nat) (f : Field) {x : Nat} (hx : x < 2 ^ (f.hi + 1 - f.lo)) :
    f.written v x < 2 ^ (f.hi + 1 - f.lo) := by
  unfold Field.written
  split
  · exact bits_lt v f.hi f.lo
  · exact Nat.lt_of_le_of_lt Nat.and_le_left hx
  · exact Nat.or_lt_two_pow hx (bits_lt v f.hi f.lo)
  · exact hx

theorem Field.afterRead_lt (f : Field) {x : Nat} (hx : x < 2 ^ (f.hi + 1 - f.lo)) : f.afterRead x < 2 ^ (f.hi + 1 - f.lo) := by
  unfold Field.afterRead
  split
  · exact Nat.two_pow_pos _
  · exact hx

theorem Field.shown_lt (cur : Nat) (f : Field) : f.shown cur < 2 ^ (f.hi + 1 - f.lo) := by
  unfold Field.shown
  split
  · exact Nat.two_pow_pos _
  · exact bits_lt cur f.hi f.lo

/-! ### The passes over a register's fields -/

/-- The fields of every register lie apart (Tables 21.1 to 21.12). -/
theorem Reg.fields_apart (r : Reg) : r.row.fields.Pairwise Field.Apart := by
  cases r <;> decide

theorem Reg.written_eq (r : Reg) (old v : Nat) : r.written old v = reviseFields (Field.written v) r.row.fields old := by
  unfold Reg.written reviseFields
  congr 1
  funext acc f
  cases h : f.acc <;> simp only [Field.written, h, setBits_bits_self]

theorem Reg.afterRead_eq (r : Reg) (cur : Nat) : r.afterRead cur = reviseFields Field.afterRead r.row.fields cur := by
  unfold Reg.afterRead reviseFields
  congr 1
  funext acc f
  cases h : f.acc <;> simp [Field.afterRead, h, setBits_bits_self]

/-- Adding up the shown fields over fields that still hold zero replaces each of them. -/
theorem foldl_add_shown {fs : List Field} (hfs : fs.Pairwise Field.Apart) (cur : Nat) {w : Nat}
    (hw : ∀ f ∈ fs, bits w f.hi f.lo = 0) :
    fs.foldl (fun acc f => acc + f.shown cur <<< f.lo) w = reviseFields (fun f _ => f.shown cur) fs w := by
  induction fs generalizing w with
  | nil => rfl
  | cons f fs ih =>
    obtain ⟨hf, hfs⟩ := List.pairwise_cons.1 hfs
    obtain ⟨hwf, hw⟩ := List.forall_mem_cons.1 hw
    rw [List.foldl_cons, reviseFields_cons, add_shiftLeft_eq_setBits hwf (f.shown_lt cur)]
    refine ih hfs fun g hg => ?_
    rw [bits_setBits_ne _ _ _ _ _ _ (hf g hg).symm, hw g hg]

theorem bits_zero (hi lo : Nat) : bits 0 hi lo = 0 := by simp [bits]

theorem Reg.readVal_eq (r : Reg) (cur : Nat) :
    r.readVal cur = reviseFields (fun f _ => f.shown cur) r.row.fields 0 := by
  rw [← foldl_add_shown r.fields_apart cur fun f _ => bits_zero f.hi f.lo]
  unfold Reg.readVal
  congr 1
  funext acc f
  cases h : f.acc <;> simp [Field.shown, h]

/-! ### What each pass leaves in a field -/

theorem Reg.bits_written {r : Reg} {f : Field} (hf : f ∈ r.row.fields) (old v : Nat) :
    bits (r.written old v) f.hi f.lo = f.written v (bits old f.hi f.lo) := by
  rw [r.written_eq, bits_reviseFields_mem _ r.fields_apart hf, Nat.mod_eq_of_lt (f.written_lt v (bits_lt ..))]

theorem Reg.bits_afterRead {r : Reg} {f : Field} (hf : f ∈ r.row.fields) (cur : Nat) :
    bits (r.afterRead cur) f.hi f.lo = f.afterRead (bits cur f.hi f.lo) := by
  rw [r.afterRead_eq, bits_reviseFields_mem _ r.fields_apart hf, Nat.mod_eq_of_lt (f.afterRead_lt (bits_lt ..))]

theorem Reg.bits_readVal {r : Reg} {f : Field} (hf : f ∈ r.row.fields) (cur : Nat) :
    bits (r.readVal cur) f.hi f.lo = f.shown cur := by
  rw [r.readVal_eq, bits_reviseFields_mem _ r.fields_apart hf, Nat.mod_eq_of_lt (f.shown_lt cur)]

/-- Settles O7: each pass over the fields gives a field what the rule of its code says and keeps the bits between fields; the
value read starts from zero. -/
theorem registerFieldsFollowTheirCodes : Obligations.RegisterFieldsFollowTheirCodes := by
  intro r old v
  constructor
  · intro f hf
    exact ⟨Reg.bits_written hf old v, Reg.bits_afterRead hf old, Reg.bits_readVal hf old⟩
  · intro b hb
    rw [r.readVal_eq, r.written_eq, r.afterRead_eq]
    have keeps := fun rule => bit_reviseFields_uncovered rule hb
    exact ⟨(keeps _ 0).trans (Nat.zero_testBit b), keeps _ old, keeps _ old⟩

end Sys2Proof.Machine

/-! SUPPORT. Words of 32 bits as numbers: the model computes scalar results on numbers (`sext`, `wrap`), and the statements name
operations of machine words. Here the two meet, up to Table 5.5 (R188) and the branch conditions of R191. -/

namespace Sys2Proof.Machine

/-! ### Two's complement -/

/-- Sign extension of the low bits of a number is the signed value of the word that they make. -/
theorem sext_eq_toInt (n w : Nat) : sext n w = (BitVec.ofNat n w).toInt := by
  simp [sext, BitVec.toInt_eq_toNat_cond]

theorem sext_toNat (x : Word32) : sext 32 x.toNat = x.toInt := by
  rw [sext_eq_toInt, BitVec.ofNat_toNat, BitVec.setWidth_eq]

/-- Cutting an integer to `n` bits leaves its residue. -/
theorem wrap_eq_emod (n : Nat) (x : Int) : wrap n x = (x % 2 ^ n).toNat := by simp [wrap]

/-- Cutting an integer to `n` bits is forming a machine word of it. -/
theorem wrap_eq_toNat_ofInt (n : Nat) (x : Int) : wrap n x = (BitVec.ofInt n x).toNat := (BitVec.toNat_ofInt x).symm

theorem wrap_toInt {n : Nat} (x : BitVec n) : wrap n x.toInt = x.toNat := by
  rw [wrap_eq_toNat_ofInt, BitVec.ofInt_toInt]

/-! ### Shifts and products -/

/-- A floor division by a power of two is the arithmetic shift (Table 5.5, SRA). -/
theorem wrap_div_eq_sshiftRight (x : Word32) (n : Nat) : wrap 32 (x.toInt / (2 ^ n : Nat)) = (x.sshiftRight n).toNat := by
  rw [← Int.shiftRight_eq_div_pow, ← BitVec.toInt_sshiftRight, wrap_toInt]

/-- The high half of an unsigned product, as a product of double width. -/
theorem mul_div_eq_mulhu (a b : Word32) :
    a.toNat * b.toNat / 2 ^ 32 = (((a.setWidth 64 * b.setWidth 64) >>> 32).setWidth 32 : Word32).toNat := by
  have hlt : a.toNat * b.toNat < 2 ^ 32 * 2 ^ 32 := Nat.mul_lt_mul'' a.isLt b.isLt
  have ha := a.isLt
  have hb := b.isLt
  simp only [BitVec.toNat_setWidth, BitVec.toNat_ushiftRight, BitVec.toNat_mul, Nat.shiftRight_eq_div_pow]
  rw [Nat.mod_eq_of_lt (a := a.toNat) (by omega), Nat.mod_eq_of_lt (a := b.toNat) (by omega)]
  omega

/-- The high half of a signed product, as a product of double width. -/
theorem wrap_mul_div_eq_mulhs (a b : Word32) :
    wrap 32 (a.toInt * b.toInt / (2 ^ 32 : Nat)) =
      (((a.signExtend 64 * b.signExtend 64) >>> 32).setWidth 32 : Word32).toNat := by
  have hmul : a.signExtend 64 * b.signExtend 64 = BitVec.ofInt 64 (a.toInt * b.toInt) := (BitVec.ofInt_mul _ _).symm
  rw [hmul]
  simp only [wrap, BitVec.toNat_setWidth, BitVec.toNat_ushiftRight, BitVec.toNat_ofInt, Nat.shiftRight_eq_div_pow]
  omega

/-! ### Differences and comparisons -/

theorem sub_toNat (a b : Word32) : (a.toNat + 2 ^ 32 - b.toNat) % 2 ^ 32 = (a - b).toNat := by
  rw [BitVec.toNat_sub]
  congr 1
  omega

theorem slt_toNat (a b : Word32) : (decide (a.toInt < b.toInt)).toNat = (if a.slt b then (1 : Word32) else 0).toNat := by
  rw [← BitVec.slt_eq_decide]
  cases a.slt b <;> rfl

theorem ult_toNat (a b : Word32) : (decide (a.toNat < b.toNat)).toNat = (if a.ult b then (1 : Word32) else 0).toNat := by
  rw [← BitVec.ult_eq_decide]
  cases a.ult b <;> rfl

/-- A choice by a signed comparison (Table 5.5, MIN and MAX). -/
theorem select_toNat (a b x y : Word32) :
    (if a.toInt < b.toInt then x.toNat else y.toNat) = (if a.slt b then x else y).toNat := by
  simp only [BitVec.slt_iff_toInt_lt, apply_ite BitVec.toNat]

/-! ### Table 5.5 and R191 -/

/-- The last row of Table 5.5, MAX. -/
theorem aluTable_max {fn : Nat} (hfn : 0x0E ≤ fn) (a b : Word32) : aluTable fn a b = if a.slt b then b else a := by
  unfold aluTable
  split
  case h_15 => rfl
  all_goals exact absurd hfn (by decide)

/-- The scalar unit computes Table 5.5, row by row. -/
theorem aluFn_toNat (fn : Nat) (a b : Word32) : aluFn fn a.toNat b.toNat = (aluTable fn a b).toNat := by
  unfold aluFn
  simp only [sext_toNat]
  split
  case h_1 => exact (BitVec.toNat_add a b).symm
  case h_2 => exact sub_toNat a b
  case h_3 => exact (BitVec.toNat_and a b).symm
  case h_4 => exact (BitVec.toNat_or a b).symm
  case h_5 => exact (BitVec.toNat_xor a b).symm
  case h_6 => exact BitVec.toNat_shiftLeft.symm
  case h_7 => exact (BitVec.toNat_ushiftRight a _).symm
  case h_8 => exact wrap_div_eq_sshiftRight a _
  case h_9 => exact (BitVec.toNat_mul a b).symm
  case h_10 => exact mul_div_eq_mulhu a b
  case h_11 => exact wrap_mul_div_eq_mulhs a b
  case h_12 => exact slt_toNat a b
  case h_13 => exact ult_toNat a b
  case h_14 => exact select_toNat a b a b
  case h_15 =>
    have hfn : 0x0E ≤ fn := by grind
    rw [aluTable_max hfn]
    exact select_toNat a b b a

/-- The branch unit tests the conditions of R191. -/
theorem branchTaken_toNat (cond : Nat) (a b : Word32) : branchTaken cond a.toNat b.toNat = condTable cond a b := by
  simp only [branchTaken, sext_toNat]
  match cond with
  | 0 => exact beq_eq_beq.2 BitVec.toNat_inj
  | 1 => exact congrArg not (beq_eq_beq.2 BitVec.toNat_inj)
  | 2 => exact BitVec.slt_eq_decide.symm
  | 3 => simp only [condTable, BitVec.slt_eq_decide, ← decide_not, Int.not_lt]
  | 4 => exact BitVec.ult_eq_decide.symm
  | n + 5 => simp only [condTable, BitVec.ult_eq_decide, ← decide_not, Nat.not_lt]

/-! ### The operands -/

theorem Core.s_lt (k : Core) (r : Nat) : k.s r < 2 ^ 32 := by
  unfold Core.s
  split
  · exact Nat.two_pow_pos 32
  · exact BitVec.isLt _

@[simp] theorem Core.toNat_ofNat_s (k : Core) (r : Nat) : (BitVec.ofNat 32 (k.s r)).toNat = k.s r :=
  (BitVec.toNat_ofNat ..).trans (Nat.mod_eq_of_lt (k.s_lt r))

@[simp] theorem toNat_ofNat_iImm (w : Word64) : (BitVec.ofNat 32 (iImm w)).toNat = iImm w :=
  (BitVec.toNat_ofNat ..).trans (Nat.mod_eq_of_lt (bits_lt _ 31 0))

/-- IMM as a signed number (R175). -/
theorem iSimm_eq (w : Word64) : iSimm w = (BitVec.ofNat 32 (iImm w)).toInt := sext_eq_toInt 32 _

end Sys2Proof.Machine

/-! SUPPORT. ALU and ALUI (R188). -/

namespace Sys2Proof.Machine

variable {s : State} {f c : Nat} {w : Word64}

theorem State.Issues.opcode {op : Nat} (h : s.Issues f c op w) : iOp w = op := by
  obtain ⟨_, _, ho, _⟩ := h
  exact ho

/-- The row of ALU answers for its own opcode (Table 5.4 lists it). -/
theorem exec_alu (h : s.Issues f c 0x01 w) :
    exec (.alu f c w) s = .next (s.retS f c (iA w) (aluFn (iFn w) ((s.core f c).s (iB w)) ((s.core f c).s (iC w)))) := by
  have hop : (if (opRow (iOp w)).isNone then iOp w else 0x01) = 0x01 := by rw [h.opcode]; rfl
  show execAlu f c w s = _
  rw [execAlu, hop, issue_next h]

/-- Settles O10: the issue of either instruction writes one scalar result, which is the word of Table 5.5. -/
theorem aluAndAluiWriteTable55 : Obligations.AluAndAluiWriteTable55 := by
  intro s f c w
  simp only [← aluFn_toNat, Core.toNat_ofNat_s, toNat_ofNat_iImm]
  exact ⟨fun h => ⟨_, exec_alu h, retS_becomes ..⟩, fun h => ⟨_, issue_next h, retS_becomes ..⟩⟩

end Sys2Proof.Machine

/-! SUPPORT. LI, TIXR, MFT, NOP, MOVT and TADDI (R189, R194, R198, R201 to R203). -/

namespace Sys2Proof.Machine

variable {s : State} {f c : Nat} {w : Word64}

/-! ### Halves of a register -/

theorem bits_low (v hi : Nat) : bits v hi 0 = v % 2 ^ (hi + 1) := by simp [bits]

theorem Core.bits_t_high (k : Core) (r : Nat) : bits (k.t r) 63 32 = k.t r / 2 ^ 32 := by
  have h : k.t r / 2 ^ 32 < 2 ^ 32 := Nat.div_lt_of_lt_mul (BitVec.isLt (w := 64) _)
  rw [bits, Nat.shiftRight_eq_div_pow, Nat.mod_eq_of_lt h]

/-- Stated for any map, so that no proof computes the value that `setT` packs into the register. -/
theorem Core.treg_update_pc (k : Core) (m : SMap Word64) : { k with treg := m }.pc = k.pc := rfl

@[simp] theorem Core.setT_pc (k : Core) (r v : Nat) : (k.setT r v).pc = k.pc := k.treg_update_pc _

/-- A result in a tile-address register changes the core alone. -/
theorem setT_becomes (f c r : Nat) (v : Core → Nat) (s : State) :
    CoreBecomes f c s { (s.core f c).setT r (v (s.core f c)) with pc := (s.core f c).pc + 1 }
      ((s.modCore f c fun k => k.setT r (v k)).advance f c) := by
  simpa only [Core.setT_pc] using modCore_advance_becomes f c s fun k => k.setT r (v k)

/-! ### The TALLY_INEXACT flag (R75, R76) -/

theorem coreBit_lt (lo hi : Reg) (hc : c < 120) : (coreBit lo hi c).2 < 64 := by
  unfold coreBit
  split <;> dsimp only <;> omega

/-- The bit of a core in a pair of registers, written: it reads as the value, no other register changes, and in its own register
no other bit. -/
theorem State.setCbit_spec (s : State) (lo hi : Reg) (f : Nat) (v : Bool) (hc : c < 120) :
    (s.setCbit lo hi f c v).cbit lo hi f c = v ∧
      (∀ r i j, r.addr i j ≠ (coreBit lo hi c).1.addr f 0 → (s.setCbit lo hi f c v).reg r i j = s.reg r i j) ∧
      ∀ b, b ≠ (coreBit lo hi c).2 →
        (s.setCbit lo hi f c v).rbit (coreBit lo hi c).1 f 0 b = s.rbit (coreBit lo hi c).1 f 0 b :=
  ⟨s.rbit_setRbit_same _ _ _ _ _ (coreBit_lt lo hi hc), fun r i j hne => s.reg_setFld_ne _ r _ _ i j _ _ _ hne,
    fun b hne => s.rbit_setRbit_ne _ _ _ _ b _ (coreBit_lt lo hi hc) hne⟩

/-! ### The instructions -/

theorem exec_tixr (h : s.Issues f c 0x0B w) :
    exec (.tixr f c w) s = .next (
      let t := s.retS f c (iA w) (if s.inexactFlag f c then 1 else 0)
      if bit (iFn w) 0 then t.setCbit .flkArithInexactLo .flkArithInexactHi f c false else t) := by
  refine (issue_next h).trans ?_
  cases s.inexactFlag f c <;> rfl

/-- MFT gives either half of the register (R202). -/
theorem exec_mft (h : s.Issues f c 0x11 w) :
    exec (.mft f c w) s = .next (s.retS f c (iA w)
      (if bit (iFn w) 0 then (s.core f c).t (iB w) / 2 ^ 32 else (s.core f c).t (iB w) % 2 ^ 32)) := by
  rw [← Core.bits_t_high, ← bits_low _ 31]
  exact issue_next h

/-- MOVT writes both halves of the register (R201). -/
theorem movt_becomes (h : s.Issues f c 0x10 w) : ∃ t, exec (.movt f c w) s = .next t ∧
      CoreBecomes f c s { (s.core f c).setT (iA w) ((s.core f c).s (iB w) + (s.core f c).s (iC w) * 2 ^ 32) with pc := (s.core f c).pc + 1 } t :=
  ⟨_, issue_next h, setT_becomes f c (iA w) (fun k => k.s (iB w) + k.s (iC w) * 2 ^ 32) s⟩

/-- TADDI adds to OFFSET modulo 2^22 (R203). -/
theorem taddi_becomes (h : s.Issues f c 0x12 w) : ∃ t, exec (.taddi f c w) s = .next t ∧
    CoreBecomes f c s { (s.core f c).setT (iA w) (setBits ((s.core f c).t (iB w)) 21 0
      ((((s.core f c).t (iB w) % 2 ^ 22 : Nat) + (BitVec.ofNat 32 (iImm w)).toInt) % 2 ^ 22).toNat) with pc := (s.core f c).pc + 1 } t := by
  rw [← wrap_eq_emod, ← bits_low _ 21, ← iSimm_eq]
  exact ⟨_, issue_next h, setT_becomes f c (iA w)
    (fun k => setBits (k.t (iB w)) 21 0 (wrap 22 ((bits (k.t (iB w)) 21 0 : Int) + iSimm w))) s⟩

/-- Settles O11: each instruction but TIXR with CLEAR changes its core alone; that one then clears one bit of a register, which
no core holds. -/
theorem movesWriteTheirDestination : Obligations.MovesWriteTheirDestination := by
  intro s f c w k bi
  refine ⟨fun h => ⟨_, issue_next h, retS_becomes ..⟩, fun h hclear => ?tixr, fun h hclear => ?tixrClear,
    fun h => ⟨_, exec_mft h, retS_becomes ..⟩, fun h => ⟨_, issue_next h, onlyCore_advance f c s, State.core_advance ..⟩,
    movt_becomes, taddi_becomes⟩
  case tixr =>
    refine ⟨_, exec_tixr h, ?_⟩
    simp only [hclear, Bool.false_eq_true, if_false]
    exact retS_becomes ..
  case tixrClear =>
    refine ⟨_, exec_tixr h, ?_⟩
    simp only [hclear, if_true]
    obtain ⟨_, hc, _⟩ := h
    obtain ⟨⟨_, hothers⟩, hcore⟩ := retS_becomes f c (iA w) (if s.inexactFlag f c then 1 else 0) s
    obtain ⟨hflag, hregs, hbits⟩ := (s.retS f c (iA w) (if s.inexactFlag f c then 1 else 0)).setCbit_spec
      .flkArithInexactLo .flkArithInexactHi f false hc
    exact ⟨hcore, hflag, rfl, hregs, hbits, hothers⟩

end Sys2Proof.Machine

/-! SUPPORT. BR, JAL and JR (R191 to R193). -/

namespace Sys2Proof.Machine

variable {s : State} {f c : Nat} {w : Word64}

/-- A target inside the program region: the link is written, and the program counter takes the target. -/
theorem jump_becomes (op : Nat) {target : Int} (link : Core → Core) (h0 : 0 ≤ target) (hlen : target < (s.flock f).regionLen c) :
    CoreBecomes f c s { link (s.core f c) with pc := target.toNat } (s.jump f c op target link) := by
  rw [State.jump, if_pos ⟨h0, hlen⟩]
  exact ⟨onlyCore_modCore f c s _, State.core_modCore_same ..⟩

/-- A target outside the program region: FETCH of the branch itself, and no link. -/
theorem jump_fault (op : Nat) {target : Int} (link : Core → Core) (h : ¬(0 ≤ target ∧ target < (s.flock f).regionLen c)) :
    s.jump f c op target link = s.precise f c 0x4 0 op := by
  rw [State.jump, if_neg h]

theorem exec_br (h : s.Issues f c 0x08 w) :
    exec (.br f c w) s = .next (
      if condTable (iFn w) (BitVec.ofNat 32 ((s.core f c).s (iA w))) (BitVec.ofNat 32 ((s.core f c).s (iB w))) then
        s.jump f c 0x08 ((s.core f c).pc + (BitVec.ofNat 32 (iImm w)).toInt) id
      else s.advance f c) := by
  rw [← branchTaken_toNat, Core.toNat_ofNat_s, Core.toNat_ofNat_s, ← iSimm_eq]
  exact issue_next h

theorem exec_jal (h : s.Issues f c 0x09 w) :
    exec (.jal f c w) s = .next (s.jump f c 0x09 ((s.core f c).pc + (BitVec.ofNat 32 (iImm w)).toInt)
      fun k => k.setS (iA w) ((s.core f c).pc + 1)) := by
  rw [← iSimm_eq]
  exact issue_next h

/-- The target of JR is a sum of machine words. -/
theorem exec_jr (h : s.Issues f c 0x0A w) :
    exec (.jr f c w) s = .next (s.jump f c 0x0A ((BitVec.ofNat 32 ((s.core f c).s (iB w)) + BitVec.ofNat 32 (iImm w)).toNat : Nat)
      fun k => k.setS (iA w) ((s.core f c).pc + 1)) := by
  rw [BitVec.toNat_add, Core.toNat_ofNat_s, toNat_ofNat_iImm]
  exact issue_next h

/-- Settles O13: each of the three is a jump, or for a BR whose condition fails the next instruction. -/
theorem branchesSetThePc : Obligations.BranchesSetThePc := by
  intro s f c w k len rel cond idx
  refine ⟨fun h hcond => ⟨s.advance f c, ?_, onlyCore_advance f c s, State.core_advance ..⟩,
    fun h hcond h0 hlen => ⟨s.jump f c 0x08 rel id, ?_, jump_becomes 0x08 id h0 hlen⟩, fun h hcond hout => ?_,
    fun h h0 hlen => ⟨_, exec_jal h, jump_becomes 0x09 _ h0 hlen⟩,
    fun h hout => (exec_jal h).trans (congrArg _ (jump_fault 0x09 _ hout)),
    fun h hlen => ⟨_, exec_jr h, jump_becomes 0x0A _ (Int.natCast_nonneg _) (Int.ofNat_lt.2 hlen)⟩,
    fun h hout => (exec_jr h).trans (congrArg _ (jump_fault 0x0A _ fun ⟨_, hlt⟩ => hout (Int.ofNat_lt.1 hlt)))⟩
  · exact (exec_br h).trans (congrArg _ (if_neg (ne_true_of_eq_false hcond)))
  · exact (exec_br h).trans (congrArg _ (if_pos hcond))
  · exact (exec_br h).trans (congrArg _ ((if_pos hcond).trans (jump_fault 0x08 id hout)))

end Sys2Proof.Machine

/-! SUPPORT. Writes of a place in a core's own memories: what a write leaves of cores and memories, in whole (R180, R230). -/

namespace Sys2Proof.Machine

variable {s t : State} {f c : Nat} {p : Place} {bs : List Byte} {k' : Core}

theorem leBytes_length (n v : Nat) : (leBytes n v).length = n := by
  induction n generalizing v with
  | zero => rfl
  | succ n ih => exact congrArg (· + 1) (ih (v / 256))

/-- Stored bytes are read back. -/
theorem Sparse.readBytes_writeBytes (mem : SMap Byte) (a : Nat) (bs : List Byte) :
    Sparse.readBytes (Sparse.writeBytes mem a bs) a bs.length = bs := by
  induction bs generalizing mem a with
  | nil => rfl
  | cons b bs ih =>
    have hfirst : Sparse.get 0 (Sparse.writeBytes mem a (b :: bs)) a = b :=
      Sparse.get_writeBytes_inside (bs := b :: bs) (i := 0) (Nat.zero_lt_succ _)
    exact congrArg₂ List.cons hfirst (ih _ (a + 1))

theorem wrPlace_store (s : State) (f c : Nat) (p : Place) (bs : List Byte) : (s.wrPlace f c p bs).store =
    if p.inStore then Sparse.writeBytes s.store (f * storeSize + p.off) bs else s.store :=
  congrArg State.store (wrPlace_rest s f c p bs)

theorem wrPlace_scratch (s : State) (f c : Nat) (p : Place) (bs : List Byte) : (s.wrPlace f c p bs).scratch =
    if p.inStore then s.scratch else Sparse.writeBytes s.scratch (coreIdx f c * scratchSize + p.off) bs :=
  congrArg State.scratch (wrPlace_rest s f c p bs)

/-- A core that waits for nothing is as before when its own memory has been written. -/
theorem wrPlace_core_free {f' c' : Nat} (h : (s.core f' c').hold = .free) : (s.wrPlace f c p bs).core f' c' = s.core f' c' := by
  obtain ⟨hold, hcore, hfree⟩ := wrPlace_core s f c f' c' p bs
  rw [hcore, hfree h, ← h]

/-- `t` is `s` but that the bytes `bs` stand at place `p` of core `c`, that this core is now `k'`, and that WAITs of other cores
may be satisfied. -/
def WritesPlace (f c : Nat) (p : Place) (bs : List Byte) (k' : Core) (s t : State) : Prop :=
  t.rdPlace f c p bs.length = bs ∧ t.core f c = k' ∧ t = { s with cores := t.cores, store := t.store, scratch := t.scratch } ∧
    (∀ f' c', coreIdx f' c' ≠ coreIdx f c → ∃ h, t.core f' c' = { s.core f' c' with hold := h }) ∧
    (∀ a, ¬(p.inStore = true ∧ f * storeSize + p.off ≤ a ∧ a < f * storeSize + p.off + bs.length) →
      Sparse.get 0 t.store a = Sparse.get 0 s.store a) ∧
    ∀ a, ¬(p.inStore = false ∧ coreIdx f c * scratchSize + p.off ≤ a ∧ a < coreIdx f c * scratchSize + p.off + bs.length) →
      Sparse.get 0 t.scratch a = Sparse.get 0 s.scratch a

/-- A write of a place, followed by a change of the writing core alone. -/
theorem CoreBecomes.writesPlace (h : CoreBecomes f c (s.wrPlace f c p bs) k' t) : WritesPlace f c p bs k' s t := by
  obtain ⟨⟨ht, hothers⟩, hcore⟩ := h
  have hstore : t.store = _ := (congrArg State.store ht).trans (wrPlace_store s f c p bs)
  have hscratch : t.scratch = _ := (congrArg State.scratch ht).trans (wrPlace_scratch s f c p bs)
  refine ⟨?read, hcore, ?rest, fun f' c' hne => ?cores, fun a ha => ?store, fun a ha => ?scratch⟩
  case read =>
    unfold State.rdPlace State.rdStore State.rdScratch
    rw [hstore, hscratch]
    cases p.inStore <;> exact Sparse.readBytes_writeBytes ..
  case rest => rw [ht, wrPlace_rest s f c p bs]
  case cores =>
    obtain ⟨hold, hcore', -⟩ := wrPlace_core s f c f' c' p bs
    exact ⟨hold, (hothers f' c' hne).trans hcore'⟩
  case store =>
    rw [hstore]
    split
    case isTrue hin =>
      have hout : ¬_ := fun hr => ha ⟨hin, hr⟩
      exact Sparse.get_writeBytes_outside (by omega)
    case isFalse => rfl
  case scratch =>
    rw [hscratch]
    split
    case isTrue => rfl
    case isFalse hin =>
      have hout : ¬_ := fun hr => ha ⟨Bool.eq_false_of_not_eq_true hin, hr⟩
      exact Sparse.get_writeBytes_outside (by omega)

end Sys2Proof.Machine

/-! SUPPORT. SIGADD, SIGRD and SIGINIT (R228 to R230, R499 to R502). -/

namespace Sys2Proof.Machine

variable {s : State} {f c : Nat} {w : Word64} {p : Place}

/-! ### Additions by kind (Table 12.2) -/

section
variable {v : Nat} {i : Int}

/-- The count of a signal word replaced; its epoch tag stays (R500). -/
theorem setBits_count (v : Nat) {n : Nat} (hn : n < 2 ^ 48) : setBits v 47 0 n = v / 2 ^ 48 * 2 ^ 48 + n := by
  rw [setBits_eq]
  omega

theorem sigCount_eq (v : Nat) : sigCount v = v % 2 ^ 48 := bits_low v 47

theorem sigAdd_wrapping (hkind : bit v 63 = false) (hi : 0 ≤ i) :
    sigAdd v i = .ok (v / 2 ^ 48 * 2 ^ 48 + (((v : Int) % 2 ^ 48 + i) % 2 ^ 48).toNat) := by
  have hsum : (v % 2 ^ 48 + i.toNat) % 2 ^ 48 = (((v : Int) % 2 ^ 48 + i) % 2 ^ 48).toNat := by omega
  simp only [sigAdd, hkind, Bool.false_eq_true, if_false, if_neg (Int.not_lt.2 hi), sigCount_eq]
  rw [hsum, setBits_count v (by omega)]

theorem sigAdd_bounded (hkind : bit v 63 = true) (h0 : 0 ≤ (v : Int) % 2 ^ 48 + i) (hmax : (v : Int) % 2 ^ 48 + i ≤ 2 ^ 47 - 1) :
    sigAdd v i = .ok (v / 2 ^ 48 * 2 ^ 48 + ((v : Int) % 2 ^ 48 + i).toNat) := by
  have hcount : ((v % 2 ^ 48 : Nat) : Int) = (v : Int) % 2 ^ 48 := by omega
  simp only [sigAdd, hkind, if_true, sigCount_eq, hcount, if_neg (Int.not_lt.2 h0), gt_iff_lt, if_neg (Int.not_lt.2 hmax)]
  rw [setBits_count v (by omega)]

theorem sigAdd_underflow (h : i < 0 ∧ (bit v 63 = false ∨ (v : Int) % 2 ^ 48 + i < 0)) : sigAdd v i = .error 0x1 := by
  obtain ⟨hi, hkind⟩ := h
  have hcount : ((v % 2 ^ 48 : Nat) : Int) = (v : Int) % 2 ^ 48 := by omega
  cases hb : bit v 63
  · simp only [sigAdd, hb, Bool.false_eq_true, if_false, if_pos hi]
  · have hneg : (v : Int) % 2 ^ 48 + i < 0 := hkind.resolve_left (by simp [hb])
    simp only [sigAdd, hb, if_true, sigCount_eq, hcount, if_pos hneg]

theorem sigAdd_overflow (hkind : bit v 63 = true) (hmax : 2 ^ 47 - 1 < (v : Int) % 2 ^ 48 + i) : sigAdd v i = .error 0x2 := by
  have hcount : ((v % 2 ^ 48 : Nat) : Int) = (v : Int) % 2 ^ 48 := by omega
  simp only [sigAdd, hkind, if_true, sigCount_eq, hcount, if_neg (show ¬(v : Int) % 2 ^ 48 + i < 0 by omega), gt_iff_lt, if_pos hmax]

end

/-! ### The word at a place -/

theorem sigWord_sig (s : State) (f c : Nat) (p : Place) : s.sigWord (p.sig f c) = ofLE (s.rdPlace f c p 8) := by
  unfold Place.sig State.rdPlace
  cases p.inStore <;> rfl

theorem setSigWord_sig (s : State) (f c : Nat) (p : Place) (v : Nat) :
    s.setSigWord (p.sig f c) v = s.wrPlace f c p (leBytes 8 v) := by
  unfold Place.sig State.wrPlace
  cases p.inStore <;> rfl

/-- An addition that stays in range is a write of the new word. -/
theorem addSignal_ok {new : Nat} {i : Int} (source : Nat) (issuer : Option Nat)
    (h : sigAdd (ofLE (s.rdPlace f c p 8)) i = .ok new) :
    s.addSignal (p.sig f c) i source issuer = (s.wrPlace f c p (leBytes 8 new), stOk) := by
  simp only [State.addSignal, sigWord_sig, h, setSigWord_sig]

/-- An addition that leaves the range changes the log alone (R502, R515). -/
theorem addSignal_error {cause : Nat} {i : Int} (source id : Nat)
    (h : sigAdd (ofLE (s.rdPlace f c p 8)) i = .error cause) :
    s.addSignal (p.sig f c) i source (some id) = (s.sigLog f cause source (!p.inStore) id p.off, stRefused) := by
  simp only [State.addSignal, sigWord_sig, h]
  unfold Place.sig
  cases p.inStore <;> rfl

/-! ### The instructions -/

section
variable (hp : effAddr f c (s.core f c) (iSpace w) (iB w) (iImm w) 8 8 true = .ok p)
include hp

theorem exec_sigadd_ok {new : Nat} (h : s.Issues f c 0x68 w)
    (hadd : sigAdd (ofLE (s.rdPlace f c p 8)) (BitVec.ofNat 32 ((s.core f c).s (iC w))).toInt = .ok new) :
    exec (.sigadd f c w) s =
      .next ((s.wrPlace f c p (leBytes 8 new)).retS f c (iA w) (ofLE (s.rdPlace f c p 8) % 2 ^ 32)) := by
  have hold : bits (sigCount (ofLE (s.rdPlace f c p 8))) 31 0 = ofLE (s.rdPlace f c p 8) % 2 ^ 32 := by
    rw [sigCount_eq, bits_low]
    omega
  refine (issue_next h).trans ?_
  simp only [hp, sext_eq_toInt, sigWord_sig, addSignal_ok _ _ hadd, if_true, hold]

theorem exec_sigadd_error {cause : Nat} (h : s.Issues f c 0x68 w)
    (hadd : sigAdd (ofLE (s.rdPlace f c p 8)) (BitVec.ofNat 32 ((s.core f c).s (iC w))).toInt = .error cause) :
    exec (.sigadd f c w) s = .next ((s.sigLog f cause 0 (!p.inStore) (coreId f c) p.off).precise f c 0x6 0 0x68) := by
  refine (issue_next h).trans ?_
  simp only [hp, sext_eq_toInt, addSignal_error _ _ hadd, if_neg (show stRefused ≠ stOk by decide)]

theorem exec_sigrd (h : s.Issues f c 0x69 w) :
    exec (.sigrd f c w) s =
      .next ((s.modCore f c fun k => k.setPair (iA w) (ofLE (s.rdPlace f c p 8))).advance f c) := by
  refine (issue_next h).trans ?_
  simp only [hp, sigWord_sig]

theorem exec_siginit (h : s.Issues f c 0x6A w) :
    exec (.siginit f c w) s = .next ((s.wrPlace f c p (leBytes 8 ((s.core f c).pair (iA w)))).advance f c) := by
  refine (issue_next h).trans ?_
  simp only [hp, setSigWord_sig]

end

theorem Core.setPair_pc (k : Core) (r v : Nat) : (k.setPair r v).pc = k.pc := by simp only [Core.setPair, Core.setS_pc']

/-- An issuing core waits for nothing, so a write and then a scalar result leave of it what the result alone does. -/
theorem retS_writesPlace {op : Nat} (h : s.Issues f c op w) (bs : List Byte) (r v : Nat) :
    WritesPlace f c p bs { (s.core f c).setS r v with pc := (s.core f c).pc + 1 } s ((s.wrPlace f c p bs).retS f c r v) := by
  have hb := retS_becomes f c r v (s.wrPlace f c p bs)
  rw [wrPlace_core_free h.hold] at hb
  exact hb.writesPlace

theorem advance_writesPlace {op : Nat} (h : s.Issues f c op w) (bs : List Byte) :
    WritesPlace f c p bs { s.core f c with pc := (s.core f c).pc + 1 } s ((s.wrPlace f c p bs).advance f c) := by
  have hb : CoreBecomes f c (s.wrPlace f c p bs) _ _ := ⟨onlyCore_advance f c _, State.core_advance ..⟩
  rw [wrPlace_core_free h.hold] at hb
  exact hb.writesPlace

/-- Settles O20: the addition follows Table 12.2, and a write of a word at a place changes nothing beside it. -/
theorem signalWordInstructions : Obligations.SignalWordInstructions := by
  intro s f c w p k v i cnt hp writes
  have hw {op : Instr} {new : Nat} {k' : Core} {t : State} (he : exec op s = .next t)
      (ht : WritesPlace f c p (leBytes 8 new) k' s t) : writes op new k' := by
    unfold WritesPlace at ht
    rw [leBytes_length] at ht
    exact ⟨t, he, ht⟩
  refine ⟨fun h hkind hi => hw (exec_sigadd_ok hp h (sigAdd_wrapping hkind hi)) (retS_writesPlace h ..),
    fun h hkind h0 hmax => hw (exec_sigadd_ok hp h (sigAdd_bounded hkind h0 hmax)) (retS_writesPlace h ..),
    fun h hunder => exec_sigadd_error hp h (sigAdd_underflow hunder),
    fun h hkind hmax => exec_sigadd_error hp h (sigAdd_overflow hkind hmax), fun h => ⟨_, exec_sigrd hp h, ?_⟩,
    fun h => hw (exec_siginit hp h) (advance_writesPlace h ..)⟩
  simpa only [Core.setPair_pc] using modCore_advance_becomes f c s fun k => k.setPair (iA w) v

end Sys2Proof.Machine

/-! SUPPORT. Registers of the drover's block beside every other register (Table 1.8, R777). -/

namespace Sys2Proof.Machine

/-- The drover's block stands once, none of its registers is a family, and each is found at its own offset. -/
theorem Reg.row_of_drv (r : Reg) : r.row.block = .drv →
    r.row.step = 0 ∧ r.row.off < 0x100000 ∧ Block.drv.find r.row.off = some (r, 0) := by
  cases r <;> decide

theorem Reg.addr_of_drv {r : Reg} (h : r.row.block = .drv) (i j : Nat) : r.addr i j = 0x030000000000 + r.row.off := by
  obtain ⟨hstep, -, -⟩ := r.row_of_drv h
  rw [Reg.addr, h, hstep, Nat.mul_zero]
  rfl

theorem Reg.le_addr_of_not_drv {r : Reg} (h : r.row.block ≠ .drv) (i j : Nat) : 0x030000100000 ≤ r.addr i j := by
  have hbase : 0x030000100000 ≤ r.row.block.base i := by
    cases hb : r.row.block
    case drv => exact absurd hb h
    all_goals simp only [Block.base]; omega
  unfold Reg.addr
  omega

/-- A register of the drover's block shares its address with no other register, whatever numbers of units and members are given. -/
theorem Reg.addr_ne_of_drv {r r' : Reg} (h : r.row.block = .drv) (hne : r ≠ r') (i j i' j' : Nat) :
    r.addr i j ≠ r'.addr i' j' := by
  obtain ⟨-, hoff, hfind⟩ := r.row_of_drv h
  rw [Reg.addr_of_drv h]
  by_cases h' : r'.row.block = .drv
  · obtain ⟨-, -, hfind'⟩ := r'.row_of_drv h'
    rw [Reg.addr_of_drv h']
    intro heq
    rw [Nat.add_left_cancel heq, hfind'] at hfind
    exact hne (congrArg Prod.fst (Option.some.inj hfind)).symm
  · have := Reg.le_addr_of_not_drv h' i' j'
    omega

/-- A write of another register leaves a register of the drover. -/
theorem State.reg_drv_setReg (s : State) {r r' : Reg} (h : r.row.block = .drv) (hne : r ≠ r') (i j i' j' v : Nat) :
    (s.setReg r' i' j' v).reg r i j = s.reg r i j :=
  s.reg_setReg_ne r' r i' j' i j v (Reg.addr_ne_of_drv h hne i j i' j')

/-- A write of a register of the drover leaves every other register. -/
theorem State.reg_setReg_drv (s : State) {r r' : Reg} (h : r'.row.block = .drv) (hne : r' ≠ r) (i j i' j' v : Nat) :
    (s.setReg r' i' j' v).reg r i j = s.reg r i j :=
  s.reg_setReg_ne r' r i' j' i j v (Reg.addr_ne_of_drv h hne i' j' i j).symm

end Sys2Proof.Machine

/-! SUPPORT. Writes of DRV_FOLD_CTRL and DRV_RANK_WRITE: what each does while a fold operation runs and while none does (R256, R257,
R266, R273). -/

namespace Sys2Proof.Machine

variable {s : State} {v f l p : Nat}

/-! ### A write of DRV_FOLD_CTRL (R256) -/

/-- The state in which the operation of a write of DRV_FOLD_CTRL begins: the register holds what was written. -/
def State.ctrlWritten (s : State) (v : Nat) : State :=
  s.setReg .drvFoldCtrl 0 0 (Reg.drvFoldCtrl.written (s.reg .drvFoldCtrl 0 0) v)

theorem State.ctrlWritten_reg {r : Reg} (h : Reg.drvFoldCtrl ≠ r) (i j : Nat) : (s.ctrlWritten v).reg r i j = s.reg r i j :=
  s.reg_setReg_drv rfl h ..

theorem State.ctrlWritten_foldState (s : State) (v f : Nat) : (s.ctrlWritten v).foldState f = s.foldState f := by
  simp only [State.foldState, State.fld, State.ctrlWritten_reg (r := .flkFoldState) (by decide)]

theorem State.ctrlWritten_physGood (s : State) (v f p : Nat) : (s.ctrlWritten v).physGood f p = s.physGood f p := by
  have hreg : Reg.drvFoldCtrl ≠ (coreBit .flkPhysGoodLo .flkPhysGoodHi p).1 := by
    unfold coreBit
    split <;> exact Reg.noConfusion
  simp only [State.physGood, State.cbit, State.rbit, State.ctrlWritten_reg hreg]

theorem State.ctrlWritten_flock (s : State) (v f : Nat) : (s.ctrlWritten v).flock f = s.flock f := by
  simp only [State.flock, State.ctrlWritten, State.setReg_flocks]

/-- While a fold operation runs, a write with an OP only sets REJECTED_BUSY. -/
theorem State.writeFoldCtrl_busy (hop : bits v 1 0 ≠ 0) (hbusy : s.rbit .drvFoldStatus 0 0 63 = true) :
    s.writeFoldCtrl v = s.setRbit .drvFoldStatus 0 0 61 true :=
  if_pos ⟨hop, hbusy⟩

theorem State.writeFoldCtrl_remap (hop : bits v 1 0 = 2) (hbusy : s.rbit .drvFoldStatus 0 0 63 = false) :
    s.writeFoldCtrl v = (s.ctrlWritten v).runRemap (bits v 41 32) (bits v 22 16) (bits v 30 24) := by
  simp only [State.writeFoldCtrl, hop, hbusy, Bool.false_eq_true, and_false, if_false, Nat.reduceEqDiff, false_and,
    State.ctrlWritten]

theorem State.writeFoldCtrl_unload (hop : bits v 1 0 = 3) (hbusy : s.rbit .drvFoldStatus 0 0 63 = false) :
    s.writeFoldCtrl v = (s.ctrlWritten v).endJob.foldEnd 0 0 0 := by
  simp only [State.writeFoldCtrl, hop, hbusy, Bool.false_eq_true, and_false, if_false, Nat.reduceEqDiff, false_and,
    State.ctrlWritten, State.runUnload]

/-! ### REMAP (R273 to R275) -/

theorem State.runRemap_outOfRange (h : 672 ≤ f ∨ 120 ≤ l) : s.runRemap f l p = s.foldEnd 0x0A 0xFFFF 0 := by
  unfold State.runRemap
  rw [if_pos h, noSec]

section
variable (hf : f < 672) (hl : l < 120)
include hf hl

theorem State.runRemap_inRange : s.runRemap f l p =
    if s.foldState f ≠ 2 then s.foldEnd 0x09 0xFFFF 0
    else if (s.flock f).logicalOf p ≠ none ∨ s.physGood f p = false then s.foldEnd 0x0C 0xFFFF 0
    else ((s.setFoldState f 1).foldWait (.remap f l p) 3).startReset 1 f false false := by
  have hin : ¬(672 ≤ f ∨ 120 ≤ l) := by omega
  unfold State.runRemap noSec
  rw [if_neg hin]
  cases (s.flock f).logicalOf p <;> cases s.physGood f p <;> simp

theorem State.runRemap_notRunning (h : s.foldState f ≠ 2) : s.runRemap f l p = s.foldEnd 0x09 0xFFFF 0 := by
  rw [State.runRemap_inRange hf hl, if_pos h]

theorem State.runRemap_unusable (h : s.foldState f = 2) (hp : (s.flock f).logicalOf p ≠ none ∨ s.physGood f p = false) :
    s.runRemap f l p = s.foldEnd 0x0C 0xFFFF 0 := by
  rw [State.runRemap_inRange hf hl, if_neg (not_not.2 h), if_pos hp]

theorem State.runRemap_drains (h : s.foldState f = 2) (hfree : (s.flock f).logicalOf p = none)
    (hgood : s.physGood f p = true) :
    s.runRemap f l p = ((s.setFoldState f 1).foldWait (.remap f l p) 3).startReset 1 f false false := by
  rw [State.runRemap_inRange hf hl, if_neg (not_not.2 h), if_neg (by simp [hfree, hgood])]

end

/-! ### DRV_RANK_WRITE (R257) -/

/-- R257: the rank is one of the fold's other than the device's own, its device stands at no other rank, and a route leads there. -/
def Fold.mayWriteRank (x : Fold) (rank device : Nat) : Prop :=
  rank < x.ranks.length ∧ rank ≠ x.rank ∧ (∀ r, r ≠ rank → x.ranks[r]? ≠ some device) ∧
    (x.routes.any fun r => r.covers device) = true

/-- A device stands at no rank but one, looked for rank by rank. -/
theorem standsElsewhere_false_iff (ranks : List Nat) (rank device : Nat) :
    ((List.range ranks.length).any fun r => r != rank && ranks[r]? == some device) = false ↔
      ∀ r, r ≠ rank → ranks[r]? ≠ some device := by
  simp only [List.any_eq_false, List.mem_range, Bool.and_eq_true, bne_iff_ne, beq_iff_eq, not_and]
  refine ⟨fun h r hne heq => ?_, fun h r _ => h r⟩
  obtain ⟨hr, -⟩ := List.getElem?_eq_some_iff.1 heq
  exact h r hr hne heq

theorem State.writeRank_busy (hbusy : s.rbit .drvFoldStatus 0 0 63 = true) :
    s.writeRank v = s.setRbit .drvFoldStatus 0 0 61 true :=
  if_pos hbusy

section
variable (hbusy : s.rbit .drvFoldStatus 0 0 63 = false)
include hbusy

theorem State.writeRank_unloaded (hx : s.fold = none) : s.writeRank v = s.setRbit .drvFoldStatus 0 0 60 true := by
  simp only [State.writeRank, hbusy, hx, Bool.false_eq_true, if_false]

section
variable {x : Fold} (hx : s.fold = some x)
include hx

theorem State.writeRank_allowed (h : x.mayWriteRank (bits v 13 0) (bits v 45 32)) :
    s.writeRank v = { s with fold := some { x with ranks := x.ranks.set (bits v 13 0) (bits v 45 32) } } := by
  rw [Fold.mayWriteRank, ← standsElsewhere_false_iff] at h
  obtain ⟨hrank, hown, helsewhere, hroute⟩ := h
  simp only [State.writeRank, hbusy, hx, Bool.false_eq_true, if_false, hrank, hown, helsewhere, hroute, ne_eq, not_false_eq_true,
    Bool.not_false, and_self, if_true]

theorem State.writeRank_refused (h : ¬x.mayWriteRank (bits v 13 0) (bits v 45 32)) :
    s.writeRank v = s.setRbit .drvFoldStatus 0 0 60 true := by
  rw [Fold.mayWriteRank, ← standsElsewhere_false_iff] at h
  simp only [State.writeRank, hbusy, hx, Bool.false_eq_true, if_false, Bool.not_eq_true', if_neg h]

end

end

/-! ### PIPELINE_START (R249, R780) -/

/-- Cores of a flock start at their entry points. -/
def State.startCores (s : State) (f : Nat) (cs : List Nat) : State :=
  cs.foldl (fun s c => s.modCore f c fun k => k.started ((s.flock f).entry c)) s

theorem State.startCores_cons (s : State) (f c : Nat) (cs : List Nat) :
    s.startCores f (c :: cs) = (s.modCore f c fun k => k.started ((s.flock f).entry c)).startCores f cs := rfl

theorem State.startCores_rest (s : State) (f : Nat) (cs : List Nat) :
    s.startCores f cs = { s with cores := (s.startCores f cs).cores } := by
  induction cs generalizing s with
  | nil => rfl
  | cons c cs ih =>
    rw [State.startCores_cons]
    exact ih _

theorem State.startCores_flock (s : State) (f : Nat) (cs : List Nat) (g : Nat) : (s.startCores f cs).flock g = s.flock g := by
  rw [State.startCores_rest]
  rfl

theorem State.startCores_core (s : State) (f : Nat) {cs : List Nat} (h : cs.Nodup) (c : Nat) :
    (s.startCores f cs).core f c = if c ∈ cs then (s.core f c).started ((s.flock f).entry c) else s.core f c := by
  induction cs generalizing s with
  | nil => rfl
  | cons d cs ih =>
    obtain ⟨hd, hcs⟩ := List.nodup_cons.1 h
    rw [State.startCores_cons, ih _ hcs]
    by_cases hc : c = d
    · subst hc
      rw [if_neg hd, if_pos List.mem_cons_self, State.core_modCore_same]
    · have hne : coreIdx f c ≠ coreIdx f d := by unfold coreIdx; omega
      have hcore : (s.modCore f d fun k => k.started ((s.flock f).entry d)).core f c = s.core f c :=
        State.core_setCore_ne s f d f c _ hne
      simp only [List.mem_cons, hc, false_or, hcore]
      rfl

/-- The cores of a pipeline. -/
def Flock.pipelineCores (k : Flock) (n : Nat) : List Nat := (List.range 120).filter fun c => k.pipeline c == n

theorem Flock.nodup_pipelineCores (k : Flock) (n : Nat) : (k.pipelineCores n).Nodup := List.nodup_range.filter _

theorem Flock.mem_pipelineCores {k : Flock} {n c : Nat} (hc : c < 120) : c ∈ k.pipelineCores n ↔ k.pipeline c = n := by
  simp [Flock.pipelineCores, hc]

section
variable {n : Nat} {rest : List Nat} (hquiet : s.flockQuiet f = false) (hstart : (s.flock f).starting = n :: rest)
include hquiet hstart

/-- The lowest pipeline that has not started is taken off the list, and its cores start. -/
theorem State.startPipeline_eq : s.startPipeline f =
    (s.modFlock f fun k => { k with starting := rest }).startCores f ((s.flock f).pipelineCores n) := by
  simp only [State.startPipeline, hquiet, hstart, Bool.false_eq_true, if_false, State.flock_modFlock_same]
  rfl

theorem State.startPipeline_rest :
    s.startPipeline f = { s with cores := (s.startPipeline f).cores, flocks := (s.startPipeline f).flocks } := by
  rw [State.startPipeline_eq hquiet hstart, State.startCores_rest]
  rfl

theorem State.startPipeline_flock : (s.startPipeline f).flock f = { s.flock f with starting := rest } := by
  rw [State.startPipeline_eq hquiet hstart, State.startCores_flock, State.flock_modFlock_same]

theorem State.startPipeline_core {c : Nat} (hc : c < 120) : (s.startPipeline f).core f c =
    if (s.flock f).pipeline c = n then (s.core f c).started ((s.flock f).entry c) else s.core f c := by
  rw [State.startPipeline_eq hquiet hstart, State.startCores_core _ _ (Flock.nodup_pipelineCores ..),
    State.flock_modFlock_same]
  simp only [Flock.mem_pipelineCores hc]
  rfl

end

theorem exec_pipelineStart (s : State) (f : Nat) : exec (.pipelineStart f) s = execPipelineStart f s := rfl

/-- A fold operation in its start phase looks whether the pipeline that has started was the last (R258 step 4). -/
theorem exec_pipelineStart_starting {g : Option Nat} (hf : f < 672) (h : (s.startPipeline f).folding = some (.start g)) :
    exec (.pipelineStart f) s = .next ((s.startPipeline f).foldStart g) := by
  rw [exec_pipelineStart, execPipelineStart, inRange_next hf]
  simp only [h]

theorem exec_pipelineStart_other (hf : f < 672) (h : ∀ g, (s.startPipeline f).folding ≠ some (.start g)) :
    exec (.pipelineStart f) s = .next (s.startPipeline f) := by
  rw [exec_pipelineStart, execPipelineStart, inRange_next hf]
  dsimp only
  split
  · exact absurd ‹_› (h _)
  · rfl

end Sys2Proof.Machine

/-! SUPPORT. What the steps that reset the flocks leave as the end of a job has made it (R266): DRV_SELF, the processing entries of
the NI and the kiln. Accesses of stacked memory, fault logs and event records are among those steps. -/

namespace Sys2Proof.Machine

/-- `t` has the DRV_SELF, the processing entries and the kiln of `s`. -/
def KeepsJob (s t : State) : Prop :=
  (t.reg .drvSelf 0 0, t.ni.proc, t.kiln) = (s.reg .drvSelf 0 0, s.ni.proc, s.kiln)

variable {s t u : State}

theorem KeepsJob.refl (s : State) : KeepsJob s s := rfl

theorem KeepsJob.trans (h : KeepsJob s t) (h' : KeepsJob t u) : KeepsJob s u := Eq.trans h' h

theorem KeepsJob.self (h : KeepsJob s t) : t.reg .drvSelf 0 0 = s.reg .drvSelf 0 0 := congrArg Prod.fst h
theorem KeepsJob.proc (h : KeepsJob s t) : t.ni.proc = s.ni.proc := congrArg (fun x => x.2.1) h
theorem KeepsJob.kiln (h : KeepsJob s t) : t.kiln = s.kiln := congrArg (fun x => x.2.2) h

/-- A step that leaves the registers, the processing entries and the kiln alone. -/
theorem KeepsJob.same (hregs : t.regs = s.regs) (hproc : t.ni.proc = s.ni.proc) (hkiln : t.kiln = s.kiln) : KeepsJob s t := by
  unfold KeepsJob State.reg
  rw [hregs, hproc, hkiln]

theorem KeepsJob.ite {c : Prop} [Decidable c] (h : KeepsJob s t) (h' : KeepsJob s u) : KeepsJob s (if c then t else u) := by
  split
  · exact h
  · exact h'

theorem KeepsJob.foldl {α : Type} {g : State → α → State} (h : ∀ s x, KeepsJob s (g s x)) :
    ∀ (l : List α) (s : State), KeepsJob s (l.foldl g s)
  | [], s => .refl s
  | x :: l, s => (h s x).trans (foldl h l (g s x))

/-- The state that a call answers, where its answer is taken apart. -/
theorem KeepsJob.of_eq {α : Type} {x : State × α} {a : α} (h : KeepsJob s x.1) (heq : x = (t, a)) : KeepsJob s t := by
  rw [heq] at h
  exact h

/-! ### Single changes -/

theorem modCore_keepsJob (s : State) (f c : Nat) (g : Core → Core) : KeepsJob s (s.modCore f c g) := rfl
theorem modFlock_keepsJob (s : State) (f : Nat) (g : Flock → Flock) : KeepsJob s (s.modFlock f g) := rfl
theorem modStk_keepsJob (s : State) (i : Nat) (g : Stk → Stk) : KeepsJob s (s.modStk i g) := rfl
theorem modPort_keepsJob (s : State) (q : Nat) (g : Port → Port) : KeepsJob s (s.modPort q g) := rfl
theorem setNi_keepsJob {n : Ni} (h : n.proc = s.ni.proc) : KeepsJob s (s.setNi n) := .same rfl h rfl
theorem setSnoops_keepsJob (s : State) (xs : List Snoop) : KeepsJob s (s.setSnoops xs) := rfl
theorem setPeat_keepsJob (s : State) (js : List PeatJob) : KeepsJob s (s.setPeat js) := rfl
theorem setFar_keepsJob (s : State) (xs : List FarReq) : KeepsJob s (s.setFar xs) := rfl
theorem setRtr_keepsJob (s : State) (r : Rtr) : KeepsJob s (s.setRtr r) := rfl
theorem setShadow_keepsJob (s : State) (x : Shadow) : KeepsJob s (s.setShadow x) := rfl
theorem setFold_keepsJob (s : State) (x : Option Fold) : KeepsJob s { s with fold := x } := rfl
theorem setCores_keepsJob (s : State) (ps : SMap PeatServe) (xs : List (Nat × Nat × Nat)) (cs : SMap Core) :
    KeepsJob s { s with pserve := ps, returns := xs, cores := cs } := rfl
theorem setReturns_keepsJob (s : State) (xs : List (Nat × Nat × Nat)) : KeepsJob s { s with returns := xs } := rfl
theorem setGen_keepsJob (s : State) (g : SMap Nat) : KeepsJob s { s with gen := g } := rfl
theorem emit_keepsJob (s : State) (o : Output) : KeepsJob s (s.emit o) := rfl

/-! ### Registers, logs and records -/

theorem setReg_keepsJob {r : Reg} (h : Reg.drvSelf ≠ r) (s : State) (i j v : Nat) : KeepsJob s (s.setReg r i j v) := by
  have hreg := s.reg_drv_setReg (r := .drvSelf) rfl h 0 0 i j v
  exact congrArg (fun x => (x, s.ni.proc, s.kiln)) hreg

theorem setFld_keepsJob {r : Reg} (h : Reg.drvSelf ≠ r) (s : State) (i j hi lo v : Nat) : KeepsJob s (s.setFld r i j hi lo v) :=
  setReg_keepsJob h ..

theorem resetRegs_keepsJob {rs : List Reg} (h : .drvSelf ∉ rs) (s : State) (i : Nat) :
    KeepsJob s (rs.foldl (fun s r => s.resetReg r i 0) s) := by
  induction rs generalizing s with
  | nil => exact .refl s
  | cons r rs ih =>
    obtain ⟨hr, hrs⟩ := not_or.1 (mt List.mem_cons.2 h)
    exact (setReg_keepsJob hr ..).trans (ih hrs _)

theorem record_keepsJob (s : State) (e : Evt) : KeepsJob s (s.record e) := by
  have h : KeepsJob s (if s.evtRecv then
      ({ s with eseq := (s.eseq + 1) % 2 ^ 16 } : State).emit (.event { e with eseq := s.eseq })
      else { s with eseq := (s.eseq + 1) % 2 ^ 16 }) := .ite rfl rfl
  exact .ite (h.trans rfl) (h.trans (setFld_keepsJob (by decide) ..))

theorem event_keepsJob (s : State) (source kind loc detail addr : Nat) : KeepsJob s (s.event source kind loc detail addr) :=
  .ite rfl (record_keepsJob ..)

theorem log_keepsJob {r : Reg} {addr : Option (Reg × Nat)} (h : Reg.drvSelf ≠ r) (ha : ∀ x ∈ addr, Reg.drvSelf ≠ x.1) (s : State)
    (i j v : Nat) (cnt : Option (Nat × Nat)) (source loc : Nat) : KeepsJob s (s.log r i j v cnt addr source loc) := by
  unfold State.log
  dsimp only
  split
  · exact setReg_keepsJob h ..
  · refine KeepsJob.trans ?_ (event_keepsJob ..)
    split
    case h_1 ar a => exact (setReg_keepsJob h ..).trans (setReg_keepsJob (ha (ar, a) rfl) ..)
    case h_2 => exact setReg_keepsJob h ..

theorem resetLog_keepsJob (s : State) (addr scope target source core : Nat) :
    KeepsJob s (s.resetLog addr scope target source core) := log_keepsJob (by decide) (by simp) ..

theorem peatLog_keepsJob (s : State) (f c op status rows addr : Nat) : KeepsJob s (s.peatLog f c op status rows addr) :=
  log_keepsJob (by decide) (by simp) ..

theorem stkLog_keepsJob (s : State) (i addr status source type core : Nat) :
    KeepsJob s (s.stkLog i addr status source type core) := log_keepsJob (by decide) (by simp) ..

theorem cxlLog_keepsJob (s : State) (addr status path queue core : Nat) : KeepsJob s (s.cxlLog addr status path queue core) := by
  have h (v : Nat) : KeepsJob s (s.log .cxlFaultInfo 0 0 v (some (47, 32)) (some (.cxlFaultAddr, addr)) 0x05 0) :=
    log_keepsJob (by decide) (by simp) ..
  exact .ite ((h _).trans rfl) (h _)

/-! ### The stack interface -/

theorem ecc_keepsJob (s : State) (key : Nat) (x : Ecc) : KeepsJob s (s.ecc key x) := by
  cases x with
  | clean => exact .refl s
  | corrected => exact .ite (.refl s) rfl
  | uncorrectable => rfl

theorem eccs_keepsJob (s : State) (a n : Nat) (errs : Errs) : KeepsJob s (s.eccs a n errs) :=
  .foldl (fun _ _ => .ite (ecc_keepsJob ..) (.refl _)) _ s

theorem stkRefuse_keepsJob (s : State) (i a source core : Nat) : KeepsJob s (s.stkRefuse i a source core) :=
  (stkLog_keepsJob ..).trans (resetLog_keepsJob ..)

theorem uncorrected_keepsJob (s : State) (i a n source type core : Nat) : KeepsJob s (s.uncorrected i a n source type core) :=
  (setFld_keepsJob (by decide) ..).trans (stkLog_keepsJob ..)

theorem corrected_keepsJob (s : State) (i n : Nat) : KeepsJob s (s.corrected i n) :=
  .ite (.refl s) (setFld_keepsJob (by decide) ..)

theorem readSector_keepsJob (s : State) (source core a : Nat) : KeepsJob s (s.readSector source core a).1 := by
  unfold State.readSector
  dsimp only
  split
  · exact stkRefuse_keepsJob ..
  · split
    · exact uncorrected_keepsJob ..
    · exact corrected_keepsJob ..

theorem writeSector_keepsJob (s : State) (source core a : Nat) (runs : List (Nat × List Byte)) :
    KeepsJob s (s.writeSector source core a runs).1 := by
  unfold State.writeSector
  dsimp only
  split
  · exact stkRefuse_keepsJob ..
  · split
    · exact uncorrected_keepsJob ..
    · exact (corrected_keepsJob ..).trans rfl

theorem readStack_keepsJob (source core : Nat) : ∀ (fuel : Nat) (s : State) (a n : Nat),
    KeepsJob s (s.readStack source core fuel a n).1
  | 0, s, _, _ => .refl s
  | fuel + 1, s, a, n => by
    unfold State.readStack
    have h := readSector_keepsJob s source core a
    split
    · exact .refl s
    · dsimp only
      split
      · exact (h.of_eq ‹_›).trans (readStack_keepsJob source core fuel ..)
      · exact h.of_eq ‹_›

theorem writeStack_keepsJob (source core : Nat) : ∀ (fuel : Nat) (s : State) (a : Nat) (bs : List Byte),
    KeepsJob s (s.writeStack source core fuel a bs).1
  | 0, s, _, _ => .refl s
  | fuel + 1, s, a, bs => by
    unfold State.writeStack
    have h := writeSector_keepsJob s source core a [(a, bs.take (32 - a % 32))]
    split
    · exact .refl s
    · dsimp only
      split
      · exact (h.of_eq ‹_›).trans (writeStack_keepsJob source core fuel ..)
      · exact h

theorem readBale_keepsJob (s : State) (source core a : Nat) : KeepsJob s (s.readBale source core a).1 := by
  unfold State.readBale
  dsimp only
  split
  · exact stkRefuse_keepsJob ..
  · split
    · exact corrected_keepsJob ..
    · exact (corrected_keepsJob ..).trans (uncorrected_keepsJob ..)

theorem writeTagged_keepsJob (s : State) (source core a : Nat) (data : List Byte) (tag crc : Nat) :
    KeepsJob s (s.writeTagged source core a data tag crc).1 := by
  unfold State.writeTagged
  dsimp only
  split
  · exact stkRefuse_keepsJob ..
  · split
    · exact stkLog_keepsJob ..
    · rfl

theorem writeUntagged_keepsJob (s : State) (source core a : Nat) (data : List Byte) :
    KeepsJob s (s.writeUntagged source core a data).1 := by
  unfold State.writeUntagged
  dsimp only
  split
  · exact stkRefuse_keepsJob ..
  · rfl

/-! ### The tracker, the windows and the mirror stream -/

theorem sendSnoop_keepsJob (s : State) (line : Nat) (inv : Bool) (reqs : List StackReq) :
    KeepsJob s (s.sendSnoop line inv reqs) :=
  have h : KeepsJob s (s.setSnoops (s.snoops ++ [{ line := line, inv := inv, st := .sent, reqs := reqs }])) := rfl
  .ite ((h.trans (setFld_keepsJob (by decide) ..)).trans (emit_keepsJob ..)) h

theorem trackLine_keepsJob (s : State) (r : StackReq) (write : Bool) (line : Nat) : KeepsJob s (s.trackLine r write line).1 := by
  unfold State.trackLine
  split
  · exact .refl s
  · split
    · split
      · exact sendSnoop_keepsJob ..
      · exact .refl s
    · split
      · rfl
      · exact .refl s
      · exact cxlLog_keepsJob (s.leaveSnoops _ _) ..

theorem filled_keepsJob (s : State) (line st : Nat) : KeepsJob s (s.filled line st) := by
  unfold State.filled
  split
  · exact .ite rfl rfl
  · split <;> rfl
  · exact .refl s

theorem cohRead_keepsJob (s : State) (r : StackReq) (reads : Bool) (line : Nat) : KeepsJob s (s.cohRead r reads line).1 := by
  unfold State.cohRead
  split
  · exact .refl s
  · split
    · exact .refl s
    · dsimp only
      split <;> rfl

theorem askMember_keepsJob (s : State) (rank op line w4 : Nat) (pay : PaySrc) (owner : TagOwner) :
    KeepsJob s (s.askMember rank op line w4 pay owner) := rfl

theorem invalidate_keepsJob (s : State) (w : Window) (line mask : Nat) : KeepsJob s (s.invalidate w line mask) :=
  (KeepsJob.foldl (fun _ _ => askMember_keepsJob ..) _ s).trans rfl

theorem cohHomeWrite_keepsJob (s : State) (line : Nat) : KeepsJob s (s.cohHomeWrite line).1 := by
  unfold State.cohHomeWrite
  split
  · exact invalidate_keepsJob ..
  · exact .refl s
  · exact .refl s

theorem cohRemoteWrite_keepsJob (s : State) (r : StackReq) (home a : Nat) (bs : List Byte) (add : Bool) :
    KeepsJob s (s.cohRemoteWrite r home a bs add).1 := by
  unfold State.cohRemoteWrite
  dsimp only
  split
  · exact .refl s
  · exact .refl s
  · rfl
  · rfl
  · split <;> rfl

theorem takeCohWrite_keepsJob (s : State) (r : StackReq) (a : Nat) : KeepsJob s (s.takeCohWrite r a).1 := by
  unfold State.takeCohWrite
  split <;> rfl

theorem mirrorRec_keepsJob (s : State) (a : Nat) (bs : List Byte) : KeepsJob s (s.mirrorRec a bs) :=
  .ite (.refl s) (.ite ((setFld_keepsJob (by decide) ..).trans (event_keepsJob ..)) rfl)

theorem mirrorWrite_keepsJob : ∀ (n : Nat) (s : State) (a : Nat) (bs : List Byte), KeepsJob s (s.mirrorWrite n a bs)
  | 0, s, _, _ => .refl s
  | n + 1, s, _, _ => .ite (.refl s) ((KeepsJob.ite (.refl s) (mirrorRec_keepsJob ..)).trans (mirrorWrite_keepsJob n ..))

/-! ### What an access needs -/

theorem prepRead_keepsJob (host : Bool) (r : StackReq) (reads : Bool) : ∀ (ls : List Nat) (s : State),
    KeepsJob s (s.prepRead host r reads ls).1
  | [], s => .refl s
  | l :: ls, s => by
    unfold State.prepRead
    refine KeepsJob.trans ?_ (prepRead_keepsJob host r reads ls _)
    split
    · exact .refl s
    · refine KeepsJob.trans (t := (if host = true then (s, Ready.go) else s.trackLine r false l).1) ?_ (cohRead_keepsJob ..)
      split
      · exact .refl s
      · exact trackLine_keepsJob ..

theorem prepLine_keepsJob (s : State) (host : Bool) (r : StackReq) (a : Nat) (bs : List Byte) :
    KeepsJob s (s.prepLine host r a bs).1 := by
  unfold State.prepLine
  have h : KeepsJob s (if host = true then (s, Ready.go) else s.trackLine r true (a / 64 * 64)).1 := by
    split
    · exact .refl s
    · exact trackLine_keepsJob ..
  dsimp only
  split
  · split
    · exact h.trans (cohRemoteWrite_keepsJob ..)
    · exact h
  · exact h.trans (cohHomeWrite_keepsJob ..)

theorem prepLines_keepsJob (host : Bool) (r : StackReq) : ∀ (ps : List (Nat × List Byte)) (s : State),
    KeepsJob s (s.prepLines host r ps).1
  | [], s => .refl s
  | (a, bs) :: ps, s => by
    unfold State.prepLines
    refine KeepsJob.trans ?_ (prepLines_keepsJob host r ps _)
    split
    · exact prepLine_keepsJob ..
    · exact .refl s

/-! ### Performing an access -/

theorem useSnoops_keepsJob (s : State) (r : StackReq) (line : Nat) : KeepsJob s (s.useSnoops r line) := rfl

theorem useLines_keepsJob (s : State) (r : StackReq) (ls : List Nat) : KeepsJob s (s.useLines r ls) :=
  .foldl (fun _ _ => useSnoops_keepsJob ..) ls s

theorem readLine_keepsJob (s : State) (r : StackReq) (a m : Nat) : KeepsJob s (s.readLine r a m).1 := by
  unfold State.readLine
  split
  · exact .refl s
  · exact readStack_keepsJob ..

theorem readLines_keepsJob (r : StackReq) : ∀ (fuel : Nat) (s : State) (a n : Nat), KeepsJob s (s.readLines r fuel a n).1
  | 0, s, _, _ => .refl s
  | fuel + 1, s, a, n => by
    unfold State.readLines
    split
    · exact .refl s
    · dsimp only
      refine (readLine_keepsJob s r a (min n (64 - a % 64))).trans ?_
      split
      · exact .refl _
      · exact readLines_keepsJob r fuel ..

theorem writeWhole_keepsJob (s : State) (source core a : Nat) (bs : List Byte) : KeepsJob s (s.writeWhole source core a bs).1 := by
  unfold State.writeWhole
  split
  · exact writeSector_keepsJob ..
  · exact writeStack_keepsJob ..

theorem writeLine_keepsJob (s : State) (r : StackReq) (mask : Nat) (bs : List Byte) : KeepsJob s (s.writeLine r mask bs).1 := by
  unfold State.writeLine
  dsimp only
  split
  · exact (writeSector_keepsJob ..).trans (writeSector_keepsJob ..)
  · exact (writeSector_keepsJob ..).trans (.foldl (fun _ _ => writeSector_keepsJob ..) _ _)

theorem takeCohWrites_keepsJob (r : StackReq) : ∀ (ps : List (Nat × List Byte)) (s : State), KeepsJob s (s.takeCohWrites r ps).1
  | [], s => .refl s
  | (a, _) :: ps, s => (takeCohWrite_keepsJob s r a).trans (takeCohWrites_keepsJob r ps _)

theorem writeHere_keepsJob (s : State) (e : StkEnt) : KeepsJob s (s.writeHere e).1 := by
  unfold State.writeHere
  dsimp only
  split
  · exact writeTagged_keepsJob ..
  · exact writeUntagged_keepsJob ..
  · exact (ecc_keepsJob ..).trans (writeSector_keepsJob ..)
  · exact ((eccs_keepsJob ..).trans (writeLine_keepsJob ..)).trans (.ite (.foldl (fun _ _ => mirrorWrite_keepsJob ..) _ _) (.refl _))
  · split
    · exact writeWhole_keepsJob ..
    · exact writeStack_keepsJob ..
  · exact writeSector_keepsJob ..
  · rfl
  · exact .refl s

theorem perfEnt_keepsJob (s : State) (e : StkEnt) : KeepsJob s (s.perfEnt e).1 := by
  unfold State.perfEnt
  dsimp only
  split
  · split
    · exact (useLines_keepsJob ..).trans (takeCohWrites_keepsJob ..)
    · exact (useLines_keepsJob ..).trans (writeHere_keepsJob ..)
  · split
    · exact ((eccs_keepsJob ..).trans (readBale_keepsJob ..)).trans (useLines_keepsJob ..)
    · refine KeepsJob.trans ?_ ((readLines_keepsJob ..).trans ((useLines_keepsJob ..).trans rfl))
      split
      · exact ecc_keepsJob ..
      · exact eccs_keepsJob ..
      · exact .refl s

/-! ### Serving, arrival and grants -/

theorem entReady_keepsJob (s : State) (i : Nat) (e : StkEnt) : KeepsJob s (s.entReady i e).1 := by
  unfold State.entReady
  dsimp only
  split
  · exact .refl s
  · split
    · split
      · exact .refl s
      · split
        · exact trackLine_keepsJob ..
        · exact prepLines_keepsJob ..
    · split <;> exact prepRead_keepsJob ..

theorem grantLine_keepsJob (s : State) (line : Nat) : KeepsJob s (s.grantLine line).1 := by
  unfold State.grantLine
  dsimp only
  split
  · exact .refl s
  · split
    · rfl
    · split
      · exact .refl s
      · split
        · exact .refl s
        · exact sendSnoop_keepsJob ..

theorem answer_keepsJob (s : State) (i : Nat) (e : StkEnt) (v : Served) : KeepsJob s (s.answer i e v) := by
  unfold State.answer
  split
  · rfl
  · exact setFld_keepsJob (by decide) ..
  · rfl
  · exact filled_keepsJob ..
  · exact .refl s
  · have h : KeepsJob s (if v.status = stOk then s else (s.cxlLog e.req.addr v.status 0x1 0 0).emit .aer) :=
      .ite (.refl s) ((cxlLog_keepsJob ..).trans (emit_keepsJob ..))
    exact h.trans (.ite (.refl _) (.ite (emit_keepsJob ..) (emit_keepsJob ..)))

theorem grantFor_keepsJob (s : State) (e : StkEnt) (r : Ready) : KeepsJob s (s.grantFor e r).1 := by
  unfold State.grantFor
  split
  · exact grantLine_keepsJob ..
  · exact .refl s

theorem endEnt_keepsJob (s : State) (i : Nat) (e : StkEnt) (r : Ready) : KeepsJob s (s.endEnt i e r) := by
  unfold State.endEnt
  dsimp only
  refine KeepsJob.trans ?_ (answer_keepsJob (State.modStk _ _ _) ..)
  split
  · rfl
  · exact (perfEnt_keepsJob s e).trans rfl

theorem serveEnt_keepsJob (s : State) (i : Nat) (e : StkEnt) : KeepsJob s (s.serveEnt i e) := by
  unfold State.serveEnt
  have h := entReady_keepsJob s i e
  dsimp only
  split
  · exact .refl s
  · split
    · exact h.of_eq ‹_›
    case h_2 t y _ heq =>
      have h' := (h.of_eq heq).trans (grantFor_keepsJob t e y)
      split
      · exact (h'.of_eq ‹_›).trans (endEnt_keepsJob ..)
      · exact h'.of_eq ‹_›

theorem serve_keepsJob (s : State) (i : Nat) : KeepsJob s (s.serve i) := .foldl (fun s e => serveEnt_keepsJob s i e) _ s

theorem grantOne_keepsJob {i : Nat} (h : s.grantOne i = some t) : KeepsJob s t := by
  unfold State.grantOne at h
  split at h
  · cases h
  · split at h <;> cases h
    rfl

theorem grants_keepsJob (i : Nat) : ∀ (n : Nat) (s : State), KeepsJob s (s.grants i n)
  | 0, s => .refl s
  | n + 1, s => by
    unfold State.grants
    split
    · exact ((grantOne_keepsJob ‹_›).trans (serve_keepsJob ..)).trans (grants_keepsJob i n _)
    · exact .refl s

theorem arrive_keepsJob (s : State) (i : Nat) (r : StackReq) (acc : StkAcc) (owner : StkOwner) :
    KeepsJob s (s.arrive i r acc owner) := by
  unfold State.arrive
  dsimp only
  split
  · exact (stkRefuse_keepsJob ..).trans (answer_keepsJob ..)
  · refine KeepsJob.trans (t := s.grantAll i) (grants_keepsJob ..) ?_
    split
    · exact serve_keepsJob (State.modStk _ _ _) i
    · exact .ite (answer_keepsJob ..) rfl

theorem dropUnits_keepsJob (s : State) (sel : StackReq → Bool) (owner : StkOwner) : KeepsJob s (s.dropUnits sel owner) := by
  unfold State.dropUnits
  dsimp only
  refine KeepsJob.trans ?_ (setNi_keepsJob (by rfl))
  exact (setSnoops_keepsJob ..).trans (.foldl (fun _ _ => modStk_keepsJob ..) _ _)

/-! ### A flock enters quiesce (R359, R644, R645) -/

theorem setCbit_keepsJob {lo hi : Reg} (hlo : Reg.drvSelf ≠ lo) (hhi : Reg.drvSelf ≠ hi) (s : State) (f c : Nat) (v : Bool) :
    KeepsJob s (s.setCbit lo hi f c v) := by
  refine setFld_keepsJob ?_ ..
  unfold coreBit
  split
  · exact hlo
  · exact hhi

theorem haltCore_keepsJob (s : State) (f c : Nat) : KeepsJob s (s.haltCore f c) := by
  unfold State.haltCore
  exact ((setCbit_keepsJob (by decide) (by decide) ..).trans (modCore_keepsJob ..)).trans (modFlock_keepsJob ..)

theorem coreFault_keepsJob (s : State) (f c cls status dropped pc op seq : Nat) (imprecise : Bool) :
    KeepsJob s (s.coreFault f c cls status dropped pc op seq imprecise) := by
  unfold State.coreFault
  dsimp only
  refine KeepsJob.trans ?_ (haltCore_keepsJob ..)
  split
  · exact setFld_keepsJob (by decide) ..
  · exact (event_keepsJob ..).trans (setReg_keepsJob (by decide) ..)

theorem outcome_keepsJob (s : State) (core kind ordinal status result : Nat) :
    KeepsJob s (s.outcome core kind ordinal status result) :=
  .ite (.refl s) ((mirrorRec_keepsJob ..).trans rfl)

theorem dropDma_keepsJob (s : State) (f c seq : Nat) : KeepsJob s (s.dropDma f c seq) :=
  (modCore_keepsJob ..).trans (dropUnits_keepsJob ..)

theorem dmaFail_keepsJob (s : State) (f c : Nat) (d : Dma) (st : Nat) : KeepsJob s (s.dmaFail f c d st) := by
  have hout : KeepsJob s (s.dmaOutcome f c d st) := .ite (outcome_keepsJob ..) (.refl s)
  exact ((hout.trans (dropDma_keepsJob ..)).trans (modCore_keepsJob ..)).trans (coreFault_keepsJob ..)

theorem flushRow_keepsJob (s : State) (j : PeatJob) : KeepsJob s (s.flushRow j).1 := by
  unfold State.flushRow
  split
  · exact .refl s
  · exact .foldl (fun _ _ => arrive_keepsJob ..) _ s

theorem stopPeat_keepsJob (s : State) (f c : Nat) (d : Dma) (st : Nat) : KeepsJob s (s.stopPeat f c d st) := by
  unfold State.stopPeat
  split
  · exact .ite (peatLog_keepsJob ..) (.refl s)
  case h_2 j _ =>
    have h : KeepsJob s (if pkOptupd j.raw then s.flushRow j else (s, j)).1 := by
      split
      · exact flushRow_keepsJob ..
      · exact .refl s
    exact h.trans (peatLog_keepsJob (State.dropJob _ _) ..)

/-- Once the kiln holds no group, no bucket waits for a feed. -/
theorem State.feedLost_idle (h : s.kiln.groups = []) (lost : Nat → Nat → Bool) : s.feedLost lost = s := by
  refine List.foldl_fixed' (fun g => ?_) _
  have hrun : (s.kgroup g).running = none := by
    rw [State.kgroup, h]
    rfl
  rw [hrun]

/-- Once the NI holds no processing entry, none is tried again. -/
theorem State.retryProc_idle (h : s.ni.proc = []) : s.retryProc = s := by
  rw [State.retryProc, h]
  rfl

theorem quiesceFlock_keepsJob (hkiln : s.kiln.groups = []) (hproc : s.ni.proc = []) (f : Nat) :
    KeepsJob s (s.quiesceFlock f) := by
  have hidle {u : State} {lost : Nat → Nat → Bool} (h : KeepsJob s u) : KeepsJob s (u.feedLost lost).retryProc := by
    rw [State.feedLost_idle ((congrArg Kiln.groups h.kiln).trans hkiln), State.retryProc_idle (h.proc.trans hproc)]
    exact h
  exact hidle (.foldl (fun _ _ => .foldl (fun _ _ => (stopPeat_keepsJob ..).trans (dmaFail_keepsJob ..)) _ _) _ s)

/-! ### A flock is cleared (Table 16.2) -/

theorem dropFamily_keepsJob {r : Reg} (h : r.row.block ≠ .drv) (s : State) (i n : Nat) : KeepsJob s (s.dropFamily r i n) := by
  have hself : Reg.drvSelf.addr 0 0 = 0x030000000008 := rfl
  have hle := r.le_addr_of_not_drv h i 0
  have hreg : (s.dropFamily r i n).reg .drvSelf 0 0 = s.reg .drvSelf 0 0 := by
    simp only [State.reg, State.dropFamily, Sparse.get_drop, hself]
    rw [if_neg (by simp; omega)]
  exact congrArg (fun x => (x, s.ni.proc, s.kiln)) hreg

theorem clearFlkRegs_keepsJob (s : State) (f : Nat) : KeepsJob s (s.clearFlkRegs f) :=
  ((dropFamily_keepsJob (by decide) ..).trans (dropFamily_keepsJob (by decide) ..)).trans (resetRegs_keepsJob (by decide) ..)

theorem lateFlock_keepsJob (s : State) (f : Nat) : KeepsJob s (s.lateFlock f) := by
  unfold State.lateFlock
  dsimp only
  exact (((setNi_keepsJob (by rfl)).trans (setFar_keepsJob ..)).trans (dropUnits_keepsJob ..)).trans
    (.foldl (fun _ _ => modStk_keepsJob ..) _ _)

theorem setInPort_keepsJob (s : State) (f q : Nat) (x : InPort) : KeepsJob s (s.setInPort f q x) := modFlock_keepsJob ..

theorem reviveRoad_keepsJob (s : State) (f p : Nat) : KeepsJob s (s.reviveRoad f p) := by
  unfold State.reviveRoad
  dsimp only
  split
  · exact setInPort_keepsJob ..
  · exact .refl s

theorem reviveRoads_keepsJob (s : State) (f : Nat) : KeepsJob s (s.reviveRoads f) :=
  .foldl (fun _ _ => reviveRoad_keepsJob ..) _ s

theorem clearFlock_keepsJob (s : State) (f : Nat) : KeepsJob s (s.clearFlock f) := by
  unfold State.clearFlock
  dsimp only
  refine KeepsJob.trans ?_ ((modFlock_keepsJob ..).trans ((reviveRoads_keepsJob ..).trans (clearFlkRegs_keepsJob ..)))
  exact ((lateFlock_keepsJob s f).trans (setPeat_keepsJob ..)).trans (setCores_keepsJob ..)

/-! ### Every flock and every slice is reset (R266) -/

theorem resetFlocks_keepsJob (hkiln : s.kiln.groups = []) (hproc : s.ni.proc = []) : KeepsJob s s.resetFlocks := by
  unfold State.resetFlocks
  generalize List.range 672 = fs
  induction fs generalizing s with
  | nil => exact .refl s
  | cons f fs ih =>
    have h := (((quiesceFlock_keepsJob hkiln hproc f).trans (clearFlock_keepsJob _ f)).trans
      (modFlock_keepsJob _ f fun k => { k with conf := [], presets := [], outp := [] })).trans
      (setReg_keepsJob (r := .flkFoldState) (by decide) _ f 0 Reg.flkFoldState.resetVal)
    rw [List.foldl_cons]
    exact h.trans (ih ((congrArg Kiln.groups h.kiln).trans hkiln) (h.proc.trans hproc))

theorem sendCodeword_keepsJob (s : State) (q : Nat) (data : List Byte) : KeepsJob s (s.sendCodeword q data) :=
  (modPort_keepsJob ..).trans (emit_keepsJob ..)

theorem sendFlitWord_keepsJob (s : State) (q : Nat) : KeepsJob s (s.sendFlitWord q) := by
  unfold State.sendFlitWord
  exact (modPort_keepsJob ..).trans (sendCodeword_keepsJob ..)

theorem sendControl_keepsJob (s : State) (q : Nat) (lane : LaneMsg) (muster : Option MusterFrame) :
    KeepsJob s (s.sendControl q lane muster) := by
  unfold State.sendControl State.sendDue
  exact ((KeepsJob.foldl (fun _ _ => sendFlitWord_keepsJob ..) _ s).trans (modPort_keepsJob ..)).trans (sendCodeword_keepsJob ..)

theorem startRetrain_keepsJob (s : State) (q : Nat) : KeepsJob s (s.startRetrain q) := by
  have hpart : KeepsJob s (s.dropPart q) := .ite (.refl s) (setFld_keepsJob (by decide) ..)
  have hstate : KeepsJob s ((s.dropPart q).setPortState q 3) :=
    (hpart.trans (setFld_keepsJob (by decide) ..)).trans (setFld_keepsJob (by decide) ..)
  have hoff : KeepsJob s (s.portOff q 3) := (hstate.trans (setRtr_keepsJob ..)).trans (modPort_keepsJob ..)
  exact hoff.trans (setFld_keepsJob (by decide) ..)

theorem resetPort_keepsJob (s : State) (q : Nat) : KeepsJob s (s.resetPort q) :=
  .ite ((sendControl_keepsJob ..).trans (startRetrain_keepsJob ..)) (.ite (startRetrain_keepsJob ..) (.refl s))

theorem resetSlices_keepsJob (s : State) : KeepsJob s s.resetSlices := by
  unfold State.resetSlices
  exact ((setRtr_keepsJob ..).trans (.foldl (fun _ _ => setGen_keepsJob ..) _ _)).trans
    (.foldl (fun _ _ => .ite (resetPort_keepsJob ..) (.refl _)) _ _)

theorem endShadow_keepsJob (s : State) : KeepsJob s s.endShadow := by
  unfold State.endShadow
  exact ((setReg_keepsJob (by decide) ..).trans (setReg_keepsJob (by decide) ..)).trans (setShadow_keepsJob ..)

/-! ### The end of a job -/

/-- The first steps of the end of a job: DRV_SELF at its reset value, and the kiln and the NI without work. -/
def State.endUnits (s : State) : State := (s.resetReg .drvSelf 0 0).clearKiln.endNi

theorem State.endUnits_proc (s : State) : s.endUnits.ni.proc = [] := rfl

theorem setNi_kiln (s : State) (n : Ni) : (s.setNi n).kiln = s.kiln := rfl
theorem setNi_self (s : State) (n : Ni) : (s.setNi n).reg .drvSelf 0 0 = s.reg .drvSelf 0 0 := rfl
theorem setKiln_kiln (s : State) (k : Kiln) : (s.setKiln k).kiln = k := rfl
theorem setKiln_self (s : State) (k : Kiln) : (s.setKiln k).reg .drvSelf 0 0 = s.reg .drvSelf 0 0 := rfl

theorem State.endUnits_kiln (s : State) : s.endUnits.kiln.groups = [] := by
  unfold State.endUnits State.endNi State.clearKiln
  rw [setNi_kiln, (dropUnits_keepsJob ..).kiln, setKiln_kiln]
  rfl

theorem State.endUnits_self (s : State) : s.endUnits.reg .drvSelf 0 0 = 0 := by
  unfold State.endUnits State.endNi State.clearKiln
  rw [setNi_self, (dropUnits_keepsJob ..).self, setKiln_self, (dropUnits_keepsJob ..).self]
  exact s.reg_setReg_same ..

theorem State.endJob_self (s : State) : s.endJob.reg .drvSelf 0 0 = 0 := by
  have hflocks := resetFlocks_keepsJob s.endUnits_kiln s.endUnits_proc
  have hshadow := ((hflocks.trans (setReturns_keepsJob _ [])).trans (resetSlices_keepsJob _)).trans (endShadow_keepsJob _)
  have hend : KeepsJob s.endUnits s.endJob :=
    (hshadow.trans (setFold_keepsJob _ none)).trans (setReg_keepsJob (r := .drvFoldId) (by decide) ..)
  exact hend.self.trans s.endUnits_self

theorem State.endJob_fold (s : State) : s.endJob.fold = none := by
  unfold State.endJob State.resetReg
  exact State.setReg_fold ..

end Sys2Proof.Machine

/-! SUPPORT. REMAP, UNLOAD, rank writes and the start of pipelines (R249, R256 to R258, R266, R273). -/

namespace Sys2Proof.Machine

variable {s : State} {v f : Nat}

/-! ### The end of a fold operation (Table 6.12) -/

section
variable (s : State) (sec off : Nat) {code : Nat}

theorem State.reg_foldEnd_self (code : Nat) : (s.foldEnd code sec off).reg .drvSelf 0 0 = s.reg .drvSelf 0 0 :=
  State.reg_drv_setReg { s with folding := none } (r := .drvSelf) rfl (by decide) ..

theorem State.foldEnd_fold (code : Nat) : (s.foldEnd code sec off).fold = s.fold := by
  unfold State.foldEnd
  rw [State.setReg_fold]

theorem State.foldEnd_folding (code : Nat) : (s.foldEnd code sec off).folding = none := by
  unfold State.foldEnd
  rw [State.setReg_folding]

variable (hcode : code < 256)
include hcode

/-- The status word that an operation leaves. -/
theorem State.reg_foldEnd : (s.foldEnd code sec off).reg .drvFoldStatus 0 0 =
    2 ^ 62 + bits (s.reg .drvFoldStatus 0 0) 61 60 * 2 ^ 60 + code * 2 ^ 48 + sec % 2 ^ 16 * 2 ^ 32 + off % 2 ^ 28 := by
  have hflags := bits_lt (s.reg .drvFoldStatus 0 0) 61 60
  refine (State.reg_setReg_same { s with folding := none } ..).trans (Nat.mod_eq_of_lt ?_)
  omega

theorem State.foldEnd_busy : (s.foldEnd code sec off).rbit .drvFoldStatus 0 0 63 = false := by
  have hflags := bits_lt (s.reg .drvFoldStatus 0 0) 61 60
  rw [State.rbit, State.reg_foldEnd s sec off hcode, bit, Nat.testBit_eq_decide_div_mod_eq, decide_eq_false_iff_not]
  omega

theorem State.foldEnd_done : (s.foldEnd code sec off).rbit .drvFoldStatus 0 0 62 = true := by
  have hflags := bits_lt (s.reg .drvFoldStatus 0 0) 61 60
  rw [State.rbit, State.reg_foldEnd s sec off hcode, bit, Nat.testBit_eq_decide_div_mod_eq, decide_eq_true_iff]
  omega

theorem State.foldEnd_error : (s.foldEnd code sec off).fld .drvFoldStatus 0 0 55 48 = code := by
  have hflags := bits_lt (s.reg .drvFoldStatus 0 0) 61 60
  rw [State.fld, State.reg_foldEnd s sec off hcode, bits, Nat.shiftRight_eq_div_pow]
  omega

end

/-! ### The commands -/

theorem exec_foldLoad (v : Word64) : exec (.foldLoad v) s = .next (s.writeFoldCtrl v.toNat) := rfl
theorem exec_remap (v : Word64) : exec (.remap v) s = .next (s.writeFoldCtrl v.toNat) := rfl
theorem exec_unload (v : Word64) : exec (.unload v) s = .next (s.writeFoldCtrl v.toNat) := rfl
theorem exec_drvRankWrite (v : Word64) : exec (.drvRankWrite v) s = .next (s.writeRank v.toNat) := rfl

/-- Settles O41: each write of DRV_FOLD_CTRL and DRV_RANK_WRITE is one case of its meaning, and no step of the end of a job after the
first touches DRV_SELF. Bit 60 of DRV_FOLD_STATUS is RANK_REFUSED in Table 6.12. -/
theorem foldOperationsAndRankWrites : Obligations.FoldOperationsAndRankWrites := by
  intro s v busy s0 f l p
  have hs0 : s0 = s.ctrlWritten v.toNat := rfl
  refine ⟨fun hop hbusy => ?remap, fun hop hbusy => ?unload, fun hbusy => ?rejected, ?rank, ?pipeline⟩
  case remap =>
    have hexec : exec (.remap v) s = .next (s0.runRemap f l p) :=
      (exec_remap v).trans (congrArg _ (State.writeFoldCtrl_remap hop hbusy))
    rw [hexec, ← s.ctrlWritten_foldState v.toNat, ← s.ctrlWritten_flock v.toNat, ← s.ctrlWritten_physGood v.toNat, ← hs0]
    exact ⟨fun hf hl hst hfree hgood => congrArg _ (State.runRemap_drains hf hl hst hfree hgood),
      fun hout => congrArg _ (State.runRemap_outOfRange hout),
      fun hf hl hst => congrArg _ (State.runRemap_notRunning hf hl hst),
      fun hf hl hst hp => congrArg _ (State.runRemap_unusable hf hl hst hp)⟩
  case unload =>
    have hself : (s0.endJob.foldEnd 0 0 0).rbit .drvSelf 0 0 30 = false := by
      rw [State.rbit, State.reg_foldEnd_self, State.endJob_self]
      rfl
    have hcode : 0 < 256 := by decide
    exact ⟨_, (exec_unload v).trans (congrArg _ (State.writeFoldCtrl_unload hop hbusy)), rfl, hself,
      (State.foldEnd_fold ..).trans s0.endJob_fold, State.foldEnd_folding .., State.foldEnd_busy _ _ _ hcode,
      State.foldEnd_done _ _ _ hcode, State.foldEnd_error _ _ _ hcode⟩
  case rejected =>
    have hctrl (hop : bits v.toNat 1 0 ≠ 0) := State.writeFoldCtrl_busy hop hbusy
    exact ⟨fun hop => (exec_foldLoad v).trans (congrArg _ (hctrl (by omega))),
      fun hop => (exec_remap v).trans (congrArg _ (hctrl (by omega))),
      fun hop => (exec_unload v).trans (congrArg _ (hctrl (by omega))),
      (exec_drvRankWrite v).trans (congrArg _ (State.writeRank_busy hbusy))⟩
  case rank =>
    intro rank device may hbusy
    rw [exec_drvRankWrite]
    refine ⟨fun x hx hmay => congrArg _ (State.writeRank_allowed hbusy hx hmay), ?_⟩
    rintro (hx | ⟨x, hx, hmay⟩)
    · exact congrArg _ (State.writeRank_unloaded hbusy hx)
    · exact congrArg _ (State.writeRank_refused hbusy hx hmay)
  case pipeline =>
    intro f n rest hf hquiet hstart
    have hrest := State.startPipeline_rest hquiet hstart
    have hfolding : (s.startPipeline f).folding = s.folding := by rw [hrest]
    exact ⟨_, rfl, fun g hg => exec_pipelineStart_starting hf (hfolding.trans hg),
      fun hno => exec_pipelineStart_other hf (by rw [hfolding]; exact hno), State.startPipeline_flock hquiet hstart, hrest,
      fun c hc => State.startPipeline_core hquiet hstart hc⟩

end Sys2Proof.Machine

/-! SUPPORT. A stack interface at rest: a request that arrives meets no host line and no coherent window, takes an entry at once,
is performed and answered (R280 to R283, R376, R482). -/

namespace Sys2Proof.Machine

variable {s t u : State} {i : Nat} {r : StackReq} {acc : StkAcc} {e : StkEnt}

/-! ### Nothing before the stack -/

/-- No host holds or is asked for a line, no fill has brought one, and no window of the fold covers one (R247, R376). -/
structure State.Unshared (s : State) : Prop where
  trk     : s.trk = []
  snoops  : s.snoops = []
  brought : s.ni.brought = []
  windows : ∀ x, s.fold = some x → x.windows = []

theorem State.Plain.unshared (h : s.Plain i) : s.Unshared := by
  obtain ⟨-, -, -, -, -, -, htrk, hsnoops, -, hbrought, hwindows⟩ := h
  exact ⟨htrk, hsnoops, hbrought, hwindows⟩

theorem LogOnly.unshared (h : LogOnly s t) (hs : s.Unshared) : t.Unshared where
  trk := h.trk.trans hs.trk
  snoops := h.snoops.trans hs.snoops
  brought := (congrArg Ni.brought h.ni).trans hs.brought
  windows x hx := hs.windows x (h.fold.symm.trans hx)

namespace State.Unshared

variable (h : s.Unshared)
include h

theorem windowAt (a : Nat) : s.windowAt a = none := by
  unfold State.windowAt
  split
  case h_1 x hx => rw [h.windows x hx]; rfl
  case h_2 => rfl

theorem homedElsewhere (a : Nat) : s.homedElsewhere a = none := by rw [State.homedElsewhere, h.windowAt]

theorem trackLine (r : StackReq) (write : Bool) (line : Nat) : s.trackLine r write line = (s, .go) := by
  simp [State.trackLine, h.snoops, h.trk]

theorem cohRead (r : StackReq) (reads : Bool) (line : Nat) : s.cohRead r reads line = (s, .go) := by
  rw [State.cohRead, h.homedElsewhere]

theorem cohHomeWrite (line : Nat) : s.cohHomeWrite line = (s, .go) := by rw [State.cohHomeWrite, h.windowAt]

theorem prepRead (host : Bool) (r : StackReq) (reads : Bool) (ls : List Nat) : s.prepRead host r reads ls = (s, .go) := by
  induction ls with
  | nil => rfl
  | cons l ls ih => simp [State.prepRead, h.trackLine, h.cohRead, ih, Ready.and]

theorem prepLine (host : Bool) (r : StackReq) (a : Nat) (bs : List Byte) : s.prepLine host r a bs = (s, .go) := by
  simp [State.prepLine, h.trackLine, h.homedElsewhere, h.cohHomeWrite, Ready.and]

theorem prepLines (host : Bool) (r : StackReq) (ps : List (Nat × List Byte)) : s.prepLines host r ps = (s, .go) := by
  induction ps with
  | nil => rfl
  | cons p ps ih => simp [State.prepLines, h.prepLine, ih, Ready.and]

theorem useLines (r : StackReq) (ls : List Nat) : s.useLines r ls = s := by
  refine List.foldl_fixed' (fun l => ?_) ls
  rw [State.useSnoops, State.leaveSnoops, h.snoops]
  exact congrArg (fun x => { s with snoops := x }) h.snoops.symm

theorem takeBrought (r : StackReq) : s.takeBrought r = s := by
  rw [State.takeBrought, h.brought]
  exact congrArg (fun x => { s with ni := { s.ni with brought := x } }) h.brought.symm

theorem broughtTo (r : StackReq) (line : Nat) : s.broughtTo r line = none := by rw [State.broughtTo, h.brought]; rfl

theorem away (e : StkEnt) : e.away s = false := by simp [StkEnt.away, h.homedElsewhere]

/-- An entry can be served, unless it is a write that the gate holds. -/
theorem entReady (hgate : s.gateClosed i = false) (hfill : e.owner ≠ .fill) : s.entReady i e = (s, .go) := by
  have hother : (e.owner == .fill) = false := beq_eq_false_iff_ne.2 hfill
  unfold State.entReady
  simp only [hgate, hother, h.prepLines, Bool.false_and, Bool.false_eq_true, if_false]
  split
  · rfl
  · split
    · rfl
    · split
      · exact h.prepRead ..
      · exact h.prepRead ..

end State.Unshared

/-! ### The requests of R280 -/

/-- The five requests that a stack interface takes from its requesters. -/
inductive StkAcc.IsRequest : StkAcc → Prop
  | baleRead (errs : Errs) : IsRequest (.baleRead errs)
  | tagged (data : List Byte) (tag crc : Word32) : IsRequest (.tagged data tag crc)
  | untagged (data : List Byte) : IsRequest (.untagged data)
  | sectorRead (x : Ecc) : IsRequest (.sectorRead x)
  | sectorWrite (mask : BitVec 32) (data : List Byte) (x : Ecc) : IsRequest (.sectorWrite mask data x)

theorem StkAcc.IsRequest.entries (h : acc.IsRequest) (a : Nat) : acc.entries a = 1 := by cases h <;> rfl

theorem StkAcc.IsRequest.ne_ticket (h : acc.IsRequest) : acc ≠ .ticket := by cases h <;> exact StkAcc.noConfusion

theorem StkAcc.IsRequest.grantFor (h : e.acc.IsRequest) (s : State) (x : Ready) : s.grantFor e x = (s, true) := by
  unfold State.grantFor
  split
  case h_1 hline => rw [hline] at h; cases h
  case h_2 => rfl

/-- The state in which one entry alone is at stack `i`. -/
def State.holding (s : State) (i : Nat) (e : StkEnt) : State := s.setStk i { s.stk i with ents := [e] }

/-- The entries of stack `i` are returned, and the requester is answered. -/
def State.replied (s : State) (i : Nat) (r : StackReq) (v : Served) : State :=
  (s.modStk i fun k => { k with ents := [] }).emit
    (.stack r v.status v.data (BitVec.ofNat 32 v.tag) (BitVec.ofNat 32 v.crc))

theorem State.replied_out (s : State) (i : Nat) (r : StackReq) (v : Served) : (s.replied i r v).out =
    s.out ++ [.stack r v.status v.data (BitVec.ofNat 32 v.tag) (BitVec.ofNat 32 v.crc)] := rfl

theorem State.replied_ents (s : State) (i : Nat) (r : StackReq) (v : Served) : ((s.replied i r v).stk i).ents = [] :=
  congrArg Stk.ents (s.stk_modStk_same i fun k => { k with ents := [] })

theorem State.holding_ents (s : State) (i : Nat) (e : StkEnt) : ((s.holding i e).stk i).ents = [e] :=
  congrArg Stk.ents (s.stk_setStk_same i _)

/-- An entry of request `r` that alone is at stack `i` is performed with result `v`; the state then satisfies `q`, and the entry
is still there. -/
def State.Performs (s : State) (i : Nat) (r : StackReq) (acc : StkAcc) (v : Served) (q : State → Prop) : Prop :=
  ∀ e : StkEnt, e.req = r → e.acc = acc →
    ∃ u, (s.holding i e).perfEnt e = (u, v) ∧ u.stks = (s.holding i e).stks ∧ q u

theorem State.endEnt_port {v : Served} (howner : e.owner = .port) (hperf : s.perfEnt e = (u, v))
    (hents : (u.stk i).ents = [e]) : s.endEnt i e .go = u.replied i e.req v := by
  simp only [State.endEnt, hperf, State.answer, howner, State.modStk, hents, List.erase_cons_head]
  rfl

namespace State.Plain

variable (h : s.Plain i)
include h

theorem isOpen : s.stkOpen i = true := by obtain ⟨-, hopen, -⟩ := h; exact hopen
theorem gate : s.gateClosed i = false := by obtain ⟨-, -, hgate, -⟩ := h; exact hgate
theorem ents : (s.stk i).ents = [] := by obtain ⟨-, -, -, hents, -⟩ := h; exact hents
theorem waiting : (s.stk i).waiting = [] := by obtain ⟨-, -, -, -, hwaiting, -⟩ := h; exact hwaiting

theorem holding_unshared (e : StkEnt) : (s.holding i e).Unshared := by
  obtain ⟨htrk, hsnoops, hbrought, hwindows⟩ := h.unshared
  exact ⟨htrk, hsnoops, hbrought, hwindows⟩

theorem grantAll : s.grantAll i = s := by rw [State.grantAll, h.waiting]; rfl

/-- One entry is within the shared pool alone. -/
theorem room (r : StackReq) : ∃ pool, (s.stk i).room r 1 = some pool := by
  have hpooled : Machine.pooled (s.stk i).ents = 0 := by rw [h.ents]; rfl
  have hpool (n : Nat) : Machine.pooled (s.stk i).ents + (1 - n) ≤ 448 := by omega
  exact ⟨_, if_pos (hpool _)⟩

theorem arrivalRoom (hacc : acc.IsRequest) (r : StackReq) : ∃ pool, s.arrivalRoom i r acc = some pool := by
  obtain ⟨pool, hpool⟩ := h.room r
  refine ⟨pool, ?_⟩
  simp [State.arrivalRoom, State.roomFor, h.gate, hacc.entries, hpool, Stk.contended, h.waiting]

/-- The only entry of a stack is served. -/
theorem serve (hacc : e.acc.IsRequest) (howner : e.owner = .port) :
    (s.holding i e).serve i = (s.holding i e).endEnt i e .go := by
  have hready := (h.holding_unshared e).entReady (i := i) (e := e) h.gate (by rw [howner]; exact StkOwner.noConfusion)
  rw [State.serve, State.holding_ents, List.foldl_cons, List.foldl_nil, State.serveEnt]
  simp [State.holding_ents, hacc.ne_ticket, hready, hacc.grantFor]

/-- A request that arrives is performed at once, and its requester is answered. -/
theorem arrive {v : Served} {q : State → Prop} (hacc : acc.IsRequest) (hperf : s.Performs i r acc v q) :
    ∃ u, s.arrive i r acc .port = u.replied i r v ∧ q u := by
  obtain ⟨pool, hpool⟩ := h.arrivalRoom hacc r
  have henter : (s.modStk i fun k => k.enter (stkEnt r acc .port pool)) = s.holding i (stkEnt r acc .port pool) := by
    simp [State.modStk, State.holding, Stk.enter, h.ents]
  obtain ⟨u, hu, hstks, hq⟩ := hperf (stkEnt r acc .port pool) rfl rfl
  refine ⟨u, ?_, hq⟩
  simp only [State.arrive, h.isOpen, Bool.not_true, Bool.false_eq_true, if_false, h.grantAll, hpool, henter]
  rw [h.serve hacc rfl, State.endEnt_port rfl hu]
  · rfl
  · rw [← s.holding_ents, State.stk, hstks]; rfl

end State.Plain

end Sys2Proof.Machine

/-! SUPPORT. Accesses of stacked memory: what each sector and bale access of a stack does when it can be made and when it fails
(R289 to R299), and what it leaves. -/

namespace Sys2Proof.Machine

variable {s t u : State} {i : Nat} {r : StackReq} {e : StkEnt}

/-! ### What a read can change: errors that sectors hold, and counters (R297) -/

/-- `t` is `s` but for the errors that sectors hold and the registers. -/
def ReadsOnly (s t : State) : Prop := t = { s with regs := t.regs, bad := t.bad, weak := t.weak }

theorem ReadsOnly.refl (s : State) : ReadsOnly s s := rfl

theorem ReadsOnly.trans (h : ReadsOnly s t) (h' : ReadsOnly t u) : ReadsOnly s u := by
  unfold ReadsOnly at *
  rw [h', h]

theorem ite_readsOnly {c : Prop} [Decidable c] (h : ReadsOnly s t) (h' : ReadsOnly s u) : ReadsOnly s (if c then t else u) := by
  split
  · exact h
  · exact h'

namespace ReadsOnly

variable (h : ReadsOnly s t)
include h

theorem dram : t.dram = s.dram := (congrArg State.dram h).trans rfl
theorem bales : t.bales = s.bales := (congrArg State.bales h).trans rfl
theorem inter : t.inter = s.inter := (congrArg State.inter h).trans rfl
theorem rst : t.rst = s.rst := (congrArg State.rst h).trans rfl
theorem stks : t.stks = s.stks := (congrArg State.stks h).trans rfl
theorem out : t.out = s.out := (congrArg State.out h).trans rfl

theorem unshared (hs : s.Unshared) : t.Unshared := by
  obtain ⟨htrk, hsnoops, hbrought, hwindows⟩ := hs
  rw [h]
  exact ⟨htrk, hsnoops, hbrought, hwindows⟩

theorem phys : t.phys = s.phys := by unfold State.phys; rw [h.inter]
theorem stackOf : t.stackOf = s.stackOf := by unfold State.stackOf; rw [h.inter]

end ReadsOnly

/-! ### Findings of the ECC (R297) -/

theorem ecc_readsOnly (s : State) (key : Nat) (x : Ecc) : ReadsOnly s (s.ecc key x) := by
  cases x with
  | corrected => exact ite_readsOnly (.refl s) rfl
  | clean | uncorrectable => rfl

theorem ecc_regs (s : State) (key : Nat) (x : Ecc) : (s.ecc key x).regs = s.regs := by
  cases x with
  | corrected => exact (apply_ite State.regs ..).trans (ite_self _)
  | clean | uncorrectable => rfl

theorem ecc_corrected_bad {key : Nat} (h : s.badSector (key / 32) = true) : s.ecc key .corrected = s := if_pos h

theorem ecc_corrected_good {key : Nat} (h : ¬s.badSector (key / 32) = true) :
    s.ecc key .corrected = { s with weak := Sparse.set false s.weak (key / 32) true } := if_neg h

/-- The findings do not depend on what is at a stack. -/
theorem ecc_holding (s : State) (i : Nat) (e : StkEnt) (key : Nat) (x : Ecc) :
    (s.holding i e).ecc key x = (s.ecc key x).holding i e := by
  cases x with
  | corrected =>
    by_cases hbad : s.badSector (key / 32) = true
    · rw [ecc_corrected_bad hbad, ecc_corrected_bad (s := s.holding i e) hbad]
    · rw [ecc_corrected_good hbad, ecc_corrected_good (s := s.holding i e) hbad]
      rfl
  | clean | uncorrectable => rfl

/-- One finding of a list, at its sector of the `n` that an access from `a` reads. -/
def State.eccAt (a n : Nat) (s : State) (x : Nat × Ecc) : State :=
  if x.1 < n then s.ecc (s.phys (a / 32 * 32 + 32 * x.1)) x.2 else s

theorem eccs_cons (s : State) (a n : Nat) (x : Nat × Ecc) (errs : Errs) :
    s.eccs a n (x :: errs) = (s.eccAt a n x).eccs a n errs := rfl

theorem eccAt_readsOnly (a n : Nat) (s : State) (x : Nat × Ecc) : ReadsOnly s (s.eccAt a n x) :=
  ite_readsOnly (ecc_readsOnly ..) (.refl s)

theorem eccAt_regs (a n : Nat) (s : State) (x : Nat × Ecc) : (s.eccAt a n x).regs = s.regs := by
  unfold State.eccAt
  split
  · exact ecc_regs ..
  · rfl

theorem eccAt_holding (a n : Nat) (s : State) (i : Nat) (e : StkEnt) (x : Nat × Ecc) :
    (s.holding i e).eccAt a n x = (s.eccAt a n x).holding i e := by
  unfold State.eccAt
  split
  · exact ecc_holding ..
  · rfl

theorem eccs_readsOnly (s : State) (a n : Nat) (errs : Errs) : ReadsOnly s (s.eccs a n errs) := by
  induction errs generalizing s with
  | nil => exact .refl s
  | cons x errs ih => exact (eccAt_readsOnly a n s x).trans (ih _)

theorem eccs_regs (s : State) (a n : Nat) (errs : Errs) : (s.eccs a n errs).regs = s.regs := by
  induction errs generalizing s with
  | nil => rfl
  | cons x errs ih => exact (ih _).trans (eccAt_regs a n s x)

theorem eccs_holding (s : State) (i : Nat) (e : StkEnt) (a n : Nat) (errs : Errs) :
    (s.holding i e).eccs a n errs = (s.eccs a n errs).holding i e := by
  induction errs generalizing s with
  | nil => rfl
  | cons x errs ih => rw [eccs_cons, eccAt_holding, ih, eccs_cons]

/-- `v` is `s` but for what the ECC has found. -/
structure EccOnly (s v : State) : Prop where
  reads : ReadsOnly s v
  regs  : v.regs = s.regs

theorem ecc_eccOnly (s : State) (key : Nat) (x : Ecc) : EccOnly s (s.ecc key x) := ⟨ecc_readsOnly .., ecc_regs ..⟩

theorem eccs_eccOnly (s : State) (a n : Nat) (errs : Errs) : EccOnly s (s.eccs a n errs) := ⟨eccs_readsOnly .., eccs_regs ..⟩

section
variable {v : State} (h : EccOnly s v) (i : Nat) (e : StkEnt)
include h

theorem EccOnly.phys_holding : (v.holding i e).phys = s.phys := h.reads.phys
theorem EccOnly.stackOf_holding : (v.holding i e).stackOf = s.stackOf := h.reads.stackOf

theorem EccOnly.stks_holding : (v.holding i e).stks = (s.holding i e).stks := by
  simp only [State.holding, State.setStk, State.stk, h.reads.stks]

/-- A stack that answers still does. -/
theorem EccOnly.isOpen_holding {a : Nat} (hopen : s.stkOpen (s.stackOf a) = true) :
    (v.holding i e).stkOpen ((v.holding i e).stackOf a) = true := by
  rw [h.stackOf_holding, ← hopen]
  simp only [State.stkOpen, State.stkReady, State.initBusy, State.rbit, State.reg, State.holding, State.setStk,
    h.regs, h.reads.rst]

end

/-! ### The counter of corrected sectors (Table 7.8) -/

/-- `n` more sectors are counted as corrected at stack `i`, and no register but that counter's changes. -/
def CountsCorrected (i n : Nat) (s t : State) : Prop :=
  t.fld .stkEcc i 0 63 32 = min (s.fld .stkEcc i 0 63 32 + n) (2 ^ 32 - 1) ∧
    ∀ r' i' j', Reg.addr r' i' j' ≠ Reg.stkEcc.addr i 0 → t.reg r' i' j' = s.reg r' i' j'

theorem corrected_counts (s : State) (i n : Nat) : CountsCorrected i n s (s.corrected i n) := by
  unfold State.corrected
  split
  case isTrue hn =>
    have hlt : s.fld .stkEcc i 0 63 32 < 2 ^ 32 := bits_lt ..
    exact ⟨by omega, fun _ _ _ _ => rfl⟩
  case isFalse =>
    refine ⟨(s.fld_setFld_same _ _ _ _ _ _ (by omega)).trans (Nat.mod_eq_of_lt ?_),
      fun r' i' j' hne => s.reg_setFld_ne _ _ _ _ _ _ _ _ _ hne⟩
    omega

/-- The counter and the other registers are of the register file alone. -/
theorem CountsCorrected.of_regs {s' t' : State} {n : Nat} (h : CountsCorrected i n s t) (hs : s.regs = s'.regs)
    (ht : t'.regs = t.regs) : CountsCorrected i n s' t' := by
  unfold CountsCorrected State.fld State.reg at *
  rw [ht, ← hs]
  exact h

theorem setReg_readsOnly (s : State) (r : Reg) (i j v : Nat) : ReadsOnly s (s.setReg r i j v) := rfl

theorem corrected_readsOnly (s : State) (i n : Nat) : ReadsOnly s (s.corrected i n) :=
  ite_readsOnly (.refl s) (setReg_readsOnly ..)

theorem corrected_logOnly (s : State) (i n : Nat) : LogOnly s (s.corrected i n) := ite_logOnly (.refl s) (setFld_logOnly ..)

theorem uncorrected_logOnly (s : State) (i a n source type core : Nat) : LogOnly s (s.uncorrected i a n source type core) :=
  (setFld_logOnly ..).trans (stkLog_logOnly ..)

theorem stkRefuse_logOnly (s : State) (i a source core : Nat) : LogOnly s (s.stkRefuse i a source core) :=
  (stkLog_logOnly ..).trans (resetLog_logOnly ..)

/-! ### Sector accesses (R293, R296 to R299) -/

section
variable {source core a : Nat}

theorem readSector_logOnly (s : State) (source core a : Nat) : LogOnly s (s.readSector source core a).1 := by
  unfold State.readSector
  dsimp only
  split
  · exact stkRefuse_logOnly ..
  · split
    · exact uncorrected_logOnly ..
    · exact corrected_logOnly ..

/-- A sector is read in whole or not at all. -/
theorem readSector_cases (s : State) (source core a : Nat) :
    (∃ t bs, s.readSector source core a = (t, stOk, bs) ∧ bs.length = 32) ∨
      ∃ t st, s.readSector source core a = (t, st, []) ∧ st ≠ stOk := by
  unfold State.readSector
  dsimp only
  split
  · exact .inr ⟨_, _, rfl, by decide⟩
  · split
    · exact .inr ⟨_, _, rfl, by decide⟩
    · exact .inl ⟨_, _, rfl, Sparse.readBytes_length ..⟩

section
variable (hopen : s.stkOpen (s.stackOf a) = true) (ha : a % 32 = 0)
include hopen ha

theorem readSector_ok (hgood : s.badSector (s.phys a / 32) = false) : s.readSector source core a =
    (s.corrected (s.stackOf a) (s.weakSector (s.phys a / 32)).toNat, stOk, Sparse.readBytes s.dram (s.phys a) 32) := by
  have hx : a / 32 * 32 = a := by omega
  simp [State.readSector, hopen, hx, hgood]

theorem readSector_bad (hbad : s.badSector (s.phys a / 32) = true) : s.readSector source core a =
    (s.uncorrected (s.stackOf a) a 1 source 0x1 core, stChecksumFault, []) := by
  have hx : a / 32 * 32 = a := by omega
  simp [State.readSector, hopen, hx, hbad]

theorem writeSector_ok (runs : List (Nat × List Byte)) (hgood : s.badSector (s.phys a / 32) = false) :
    s.writeSector source core a runs =
      ({ (s.corrected (s.stackOf a) (s.weakSector (s.phys a / 32)).toNat).rewritten (s.phys a / 32) with
        dram := runs.foldl (fun m x => Sparse.writeBytes m (s.phys x.1) x.2) s.dram }, stOk) := by
  have hx : a / 32 * 32 = a := by omega
  have hphys : ((s.corrected (s.stackOf a) (s.weakSector (s.phys a / 32)).toNat).rewritten (s.phys a / 32)).phys = s.phys :=
    (corrected_readsOnly ..).phys
  simp only [State.writeSector, hopen, hx, hgood, hphys, Bool.not_true, Bool.false_eq_true, if_false]
  simp only [State.rewritten, (corrected_readsOnly ..).dram]

theorem writeSector_bad (runs : List (Nat × List Byte)) (hbad : s.badSector (s.phys a / 32) = true) :
    s.writeSector source core a runs = (s.uncorrected (s.stackOf a) a 1 source 0x2 core, stChecksumFault) := by
  have hx : a / 32 * 32 = a := by omega
  simp [State.writeSector, hopen, hx, hbad]

end

theorem readStack_nothing (s : State) (source core fuel a : Nat) : s.readStack source core fuel a 0 = (s, stOk, []) := by
  cases fuel <;> simp [State.readStack]

/-- A read of one whole sector is one access. -/
theorem readStack_sector (ha : a % 32 = 0) (s : State) (source core fuel : Nat) :
    s.readStack source core (fuel + 1) a 32 = s.readSector source core a := by
  rcases readSector_cases s source core a with ⟨t, bs, hread, hlen⟩ | ⟨t, st, hread, hst⟩
  · have htake : bs.take 32 = bs := List.take_of_length_le hlen.le
    simp [State.readStack, ha, hread, stOk, readStack_nothing, htake]
  · rw [State.readStack]
    simp only [hread]
    cases st with
    | zero => exact absurd rfl hst
    | succ st => rfl

theorem readLines_nothing (s : State) (r : StackReq) (fuel a : Nat) : s.readLines r fuel a 0 = (s, stOk, []) := by
  cases fuel <;> simp [State.readLines]

theorem readLines_sector (hs : s.Unshared) (ha : a % 32 = 0) (r : StackReq) (fuel : Nat) :
    s.readLines r (fuel + 1) a 32 = s.readSector r.source r.core a := by
  have hmin : min 32 (64 - a % 64) = 32 := by omega
  rw [State.readLines, if_neg (by decide)]
  simp only [hmin, State.readLine, hs.broughtTo, readStack_sector ha, Nat.sub_self, readLines_nothing, List.append_nil]
  rcases readSector_cases s r.source r.core a with ⟨t, bs, hread, -⟩ | ⟨t, st, hread, hst⟩
  · simp [hread]
  · simp [hread, hst]

end

/-! ### Bale accesses (R289 to R292, R294, R298) -/

section
variable {source core a : Nat}

/-- A bale stored in whole with its metadata: no sector of it holds an error any more (R299). -/
def State.storeBale (s : State) (b : Nat) (data : List Byte) (m : Meta) : State :=
  ({ s with dram := Sparse.writeBytes s.dram (b * 4096) data }.setBale b m).mendBale b

theorem sectorsIn_drop (m : SMap Bool) (b : Nat) : sectorsIn (Sparse.drop (fun k => k / 128 == b) m) b = [] := by
  unfold sectorsIn Sparse.drop
  rw [List.map_eq_nil_iff, List.filter_filter, List.filter_eq_nil_iff]
  simp

section
variable {b : Nat} {data : List Byte} (s) (m : Meta)

theorem storeBale_baleData (hlen : data.length = 4096) : (s.storeBale b data m).baleData b = data := by
  have hread := Sparse.readBytes_writeBytes s.dram (b * 4096) data
  rw [hlen] at hread
  exact hread

theorem storeBale_bale : (s.storeBale b data m).bale b = m := Sparse.get_set_same

theorem storeBale_bale_ne {b' : Nat} (hne : b' ≠ b) : (s.storeBale b data m).bale b' = s.bale b' := Sparse.get_set_ne hne

theorem storeBale_sectorsIn : sectorsIn (s.storeBale b data m).bad b = [] := sectorsIn_drop ..

theorem storeBale_dram_outside (hlen : data.length = 4096) {x : Nat} (hx : x / 4096 ≠ b) :
    Sparse.get 0 (s.storeBale b data m).dram x = Sparse.get 0 s.dram x :=
  Sparse.get_writeBytes_outside (by omega)

end

theorem readBale_logOnly (s : State) (source core a : Nat) : LogOnly s (s.readBale source core a).1 := by
  unfold State.readBale
  dsimp only
  split
  · exact stkRefuse_logOnly ..
  · split
    · exact corrected_logOnly ..
    · exact (corrected_logOnly ..).trans (uncorrected_logOnly ..)

section
variable (hopen : s.stkOpen (s.stackOf a) = true)
include hopen

theorem readBale_ok (hgood : sectorsIn s.bad (s.phys a / 4096) = []) : s.readBale source core a =
    (s.corrected (s.stackOf a) (sectorsIn s.weak (s.phys a / 4096)).length, stOk, s.baleData (s.phys a / 4096),
      (s.bale (s.phys a / 4096)).tag.toNat, s.storedCrc (s.phys a / 4096)) := by
  simp [State.readBale, hopen, baleOf, hgood]

theorem readBale_bad (hbad : sectorsIn s.bad (s.phys a / 4096) ≠ []) :
    ∃ t, s.readBale source core a = (t, stChecksumFault, [], 0, 0) := by
  have hlen := List.length_pos_iff.2 hbad
  unfold State.readBale
  simp only [hopen, baleOf, Bool.not_true, Bool.false_eq_true, if_false]
  split
  case h_1 hzero => omega
  case h_2 => exact ⟨_, rfl⟩

theorem writeTagged_ok {data : List Byte} {tag : Word32} {crc : Nat}
    (hcrc : baleCrc data tag.toNat (s.phys a / 4096) = crc) : s.writeTagged source core a data tag.toNat crc =
      (s.storeBale (s.phys a / 4096) data { tag := tag, crcErr := 0 }, stOk) := by
  simp [State.writeTagged, hopen, baleOf, hcrc, State.storeBale]

theorem writeTagged_mismatch {data : List Byte} {tag crc : Nat} (hcrc : baleCrc data tag (s.phys a / 4096) ≠ crc) :
    s.writeTagged source core a data tag crc =
      (s.stkLog (s.stackOf a) a stChecksumFault source 0x3 core, stChecksumFault) := by
  simp [State.writeTagged, hopen, baleOf, hcrc]

theorem writeUntagged_ok (data : List Byte) : s.writeUntagged source core a data =
    (s.storeBale (s.phys a / 4096) data { tag := (s.bale (s.phys a / 4096)).tag, crcErr := 0 }, stOk) := by
  simp [State.writeUntagged, hopen, baleOf, State.storeBale]

end

end

/-! ### Entries performed -/

/-- What is delivered of a sector read, of a bale read and of a write. -/
def sectorServed : State × Nat × List Byte → State × Served
  | (s, st, data) => (s, { Served.of st with data := data })
def baleServed : State × Nat × List Byte × Nat × Nat → State × Served
  | (s, st, data, tag, crc) => (s, { status := st, data := data, tag := tag, crc := crc })
def writeServed : State × Nat → State × Served
  | (s, st) => (s, Served.of st)

namespace State.Unshared

variable (h : s.Unshared)
include h

theorem perfEnt_write (hwrite : e.acc.isWrite = true) : s.perfEnt e = s.writeHere e := by
  simp [State.perfEnt, hwrite, h.useLines, h.away]

theorem perfEnt_tagged {data : List Byte} {tag crc : Word32} (hacc : e.acc = .tagged data tag crc) : s.perfEnt e =
    writeServed (s.writeTagged e.req.source e.req.core e.req.addr data tag.toNat crc.toNat) := by
  rw [h.perfEnt_write (by rw [hacc]; rfl), State.writeHere, hacc]
  rfl

theorem perfEnt_untagged {data : List Byte} (hacc : e.acc = .untagged data) : s.perfEnt e =
    writeServed (s.writeUntagged e.req.source e.req.core e.req.addr data) := by
  rw [h.perfEnt_write (by rw [hacc]; rfl), State.writeHere, hacc]
  rfl

theorem perfEnt_sectorWrite {mask : BitVec 32} {data : List Byte} {x : Ecc} (hacc : e.acc = .sectorWrite mask data x) :
    s.perfEnt e = writeServed ((s.ecc (s.phys e.req.addr) x).writeSector e.req.source e.req.core e.req.addr
      (maskRuns mask.toNat e.req.addr 0 data)) := by
  rw [h.perfEnt_write (by rw [hacc]; rfl), State.writeHere, hacc]
  rfl

theorem perfEnt_sectorRead {x : Ecc} (hacc : e.acc = .sectorRead x) (ha : e.req.addr % 32 = 0) : s.perfEnt e =
    sectorServed ((s.ecc (s.phys e.req.addr) x).readSector e.req.source e.req.core e.req.addr) := by
  have hecc := (ecc_readsOnly s (s.phys e.req.addr) x).unshared h
  have hafter := (readSector_logOnly _ e.req.source e.req.core e.req.addr).unshared hecc
  simp only [State.perfEnt, hacc, StkAcc.isWrite, StkAcc.size, Bool.false_eq_true, if_false]
  rw [readLines_sector hecc ha, hafter.useLines, hafter.takeBrought]
  rfl

theorem perfEnt_baleRead {errs : Errs} (hacc : e.acc = .baleRead errs) : s.perfEnt e =
    baleServed ((s.eccs e.req.addr 128 errs).readBale e.req.source e.req.core e.req.addr) := by
  have hecc := (eccs_readsOnly s e.req.addr 128 errs).unshared h
  have hafter := (readBale_logOnly _ e.req.source e.req.core e.req.addr).unshared hecc
  simp only [State.perfEnt, hacc, StkAcc.isWrite, StkAcc.size, Bool.false_eq_true, if_false]
  rw [hafter.useLines]
  rfl

end State.Unshared

/-! ### Masked bytes (R293) -/

/-- The byte that a mask selects first is stored first. -/
theorem foldl_maskRuns_cons (g : Nat → Nat) (mask a i : Nat) (b : Byte) (bs : List Byte) (m : SMap Byte)
    (hnext : bs ≠ [] → g (a + i + 1) = g (a + i) + 1) :
    (maskRuns mask a i (b :: bs)).foldl (fun m x => Sparse.writeBytes m (g x.1) x.2) m =
      (maskRuns mask a (i + 1) bs).foldl (fun m x => Sparse.writeBytes m (g x.1) x.2)
        (if bit mask i then Sparse.set 0 m (g (a + i)) b else m) := by
  rw [maskRuns]
  split
  case h_1 hbit => rw [hbit]; rfl
  case h_2 x y rs hbit hruns =>
    have hbs : bs ≠ [] := by rintro rfl; cases hruns
    rw [hbit, hruns]
    split
    case isTrue hx => subst hx; simp [Sparse.writeBytes, hnext hbs]
    case isFalse => rfl
  case h_3 hbit hruns => rw [hbit, hruns]; rfl

/-- A masked write stores the selected bytes at their places and leaves every other byte. -/
theorem get_foldl_maskRuns {g : Nat → Nat} {mask a key : Nat} (bs : List Byte) : ∀ (i : Nat) (m : SMap Byte) (y : Nat),
    (∀ j, i ≤ j → j < i + bs.length → g (a + j) = key + j) →
    Sparse.get 0 ((maskRuns mask a i bs).foldl (fun m x => Sparse.writeBytes m (g x.1) x.2) m) y =
      if key + i ≤ y ∧ y < key + i + bs.length ∧ bit mask (y - key) then bs.getD (y - key - i) 0 else Sparse.get 0 m y := by
  induction bs with
  | nil => intro i m y _; rw [if_neg (by simp; omega)]; rfl
  | cons b bs ih =>
    intro i m y hg
    have hlen : (b :: bs).length = bs.length + 1 := rfl
    have hfirst := hg i (Nat.le_refl i) (by omega)
    have hnext (hbs : bs ≠ []) : g (a + i + 1) = g (a + i) + 1 := by
      have := List.length_pos_iff.2 hbs
      rw [hfirst, Nat.add_assoc, hg (i + 1) (by omega) (by omega), Nat.add_assoc]
    rw [foldl_maskRuns_cons g mask a i b bs m hnext, ih (i + 1) _ y fun j hj hlt => hg j (by omega) (by omega), hfirst]
    have hother (hy : y ≠ key + i) :
        Sparse.get 0 (if bit mask i then Sparse.set 0 m (key + i) b else m) y = Sparse.get 0 m y := by
      split
      · exact Sparse.get_set_ne hy
      · rfl
    rcases Nat.lt_trichotomy y (key + i) with hy | rfl | hy
    · rw [hother (by omega), if_neg (by omega), if_neg (by omega)]
    · have hat : key + i - key = i := by omega
      rw [if_neg (by omega), hat, Nat.sub_self, List.getD_cons_zero]
      cases bit mask i <;> simp
    · have hindex : y - key - i = y - key - (i + 1) + 1 := by omega
      rw [hindex, List.getD_cons_succ, hother (by omega)]
      refine if_congr ?_ rfl rfl
      rw [hlen]
      refine and_congr ⟨fun _ => by omega, fun _ => by omega⟩ (and_congr ⟨fun _ => by omega, fun _ => by omega⟩ Iff.rfl)

/-- A sector stays together (R284, R285). -/
theorem phys_add {a j : Nat} (s : State) (ha : a % 32 = 0) (hj : j < 32) : s.phys (a + j) = s.phys a + j := by
  unfold State.phys stackPlace
  cases s.inter
  · simp only [Bool.false_eq_true, if_false]
    omega
  · have hbale : (a + j) / 4096 = a / 4096 := by omega
    have hoff : (a + j) % 4096 = a % 4096 + j := by omega
    simp only [if_true, hbale, hoff]
    omega

end Sys2Proof.Machine

/-! SUPPORT. The requests of a stack interface, performed and answered (R280, R289 to R299, R319). -/

namespace Sys2Proof.Machine

variable {s t u : State} {r : StackReq} {acc : StkAcc} {e : StkEnt}

/-! ### What the requests leave -/

/-- `u` is `s` but for `n` sectors counted as corrected, the errors that sectors hold and what is at stacks. -/
def State.ReadBack (s : State) (i n : Nat) (u : State) : Prop :=
  u = { s with regs := u.regs, bad := u.bad, weak := u.weak, stks := u.stks } ∧ CountsCorrected i n s u

/-- `u` holds what `s` holds in stacked memory. -/
def State.SameContent (s u : State) : Prop := u.dram = s.dram ∧ u.bales = s.bales

/-- `u` is `s` but for a bale stored in whole and what is at stacks. -/
def State.StoresBale (s : State) (b : Nat) (data : List Byte) (m : Meta) (u : State) : Prop :=
  u = { s.storeBale b data m with stks := u.stks }

/-- The masked bytes of the sector at `key` are stored and `n` sectors counted as corrected; nothing else of stacked memory
changes. -/
def State.StoresSector (s : State) (i n key : Nat) (mask : BitVec 32) (data : List Byte) (u : State) : Prop :=
  (∀ j, j < 32 → Sparse.get 0 u.dram (key + j) =
      if mask.toNat.testBit j then data.getD j 0 else Sparse.get 0 s.dram (key + j)) ∧
    (∀ y, (y < key ∨ key + 32 ≤ y) → Sparse.get 0 u.dram y = Sparse.get 0 s.dram y) ∧ u.bales = s.bales ∧
    CountsCorrected i n s u ∧ u.out = s.out

theorem LogOnly.sameContent (h : LogOnly s t) : s.SameContent t := ⟨h.dram, h.bales⟩

theorem ReadsOnly.sameContent (h : ReadsOnly s t) : s.SameContent t := ⟨h.dram, h.bales⟩

theorem State.SameContent.trans (h : s.SameContent t) (h' : t.SameContent u) : s.SameContent u := by
  obtain ⟨hdram, hbales⟩ := h
  obtain ⟨hdram', hbales'⟩ := h'
  exact ⟨hdram'.trans hdram, hbales'.trans hbales⟩

namespace State.SameContent

variable (h : s.SameContent t)
include h

theorem baleData (b : Nat) : t.baleData b = s.baleData b := by
  obtain ⟨hdram, -⟩ := h
  simp only [State.baleData, hdram]

theorem bale (b : Nat) : t.bale b = s.bale b := by
  obtain ⟨-, hbales⟩ := h
  simp only [State.bale, hbales]

theorem storedCrc (b : Nat) : t.storedCrc b = s.storedCrc b := by simp only [State.storedCrc, h.baleData, h.bale]

end State.SameContent

/-- The stored runs of a mask are the bytes that it selects. -/
theorem storesSector_maskRuns {i n a : Nat} {mask : BitVec 32} {data : List Byte} (ha : a % 32 = 0) (hlen : data.length = 32)
    (hdram : u.dram = (maskRuns mask.toNat a 0 data).foldl (fun m x => Sparse.writeBytes m (s.phys x.1) x.2) s.dram)
    (hbales : u.bales = s.bales) (hcount : CountsCorrected i n s u) (hout : u.out = s.out) :
    s.StoresSector i n (s.phys a) mask data u := by
  have hget (y : Nat) := get_foldl_maskRuns (g := s.phys) (mask := mask.toNat) (a := a) (key := s.phys a) data 0 s.dram y
    fun j _ hj => phys_add s ha (by omega)
  rw [hlen, ← hdram] at hget
  refine ⟨fun j hj => ?_, fun y hy => ?_, hbales, hcount, hout⟩
  · have hindex : s.phys a + j - s.phys a = j := by omega
    rw [hget, hindex, Nat.sub_zero]
    exact if_congr ⟨fun ⟨_, _, hbit⟩ => hbit, fun hbit => ⟨by omega, by omega, hbit⟩⟩ rfl rfl
  · rw [hget, if_neg (by omega)]

/-! ### The entry of a request, performed -/

section
variable {i : Nat} (h : s.Plain i)
include h

theorem State.Plain.perfEnt_sectorRead {x : Ecc} (hacc : e.acc = .sectorRead x) (ha : e.req.addr % 32 = 0) :
    (s.holding i e).perfEnt e = sectorServed
      (((s.ecc (s.phys e.req.addr) x).holding i e).readSector e.req.source e.req.core e.req.addr) := by
  rw [← ecc_holding]
  exact (h.holding_unshared e).perfEnt_sectorRead hacc ha

theorem State.Plain.perfEnt_sectorWrite {mask : BitVec 32} {data : List Byte} {x : Ecc}
    (hacc : e.acc = .sectorWrite mask data x) : (s.holding i e).perfEnt e = writeServed
      (((s.ecc (s.phys e.req.addr) x).holding i e).writeSector e.req.source e.req.core e.req.addr
        (maskRuns mask.toNat e.req.addr 0 data)) := by
  rw [← ecc_holding]
  exact (h.holding_unshared e).perfEnt_sectorWrite hacc

theorem State.Plain.perfEnt_baleRead {errs : Errs} (hacc : e.acc = .baleRead errs) :
    (s.holding i e).perfEnt e = baleServed
      (((s.eccs e.req.addr 128 errs).holding i e).readBale e.req.source e.req.core e.req.addr) := by
  rw [← eccs_holding]
  exact (h.holding_unshared e).perfEnt_baleRead hacc

end

/-- A read of data leaves all but what it counts. -/
theorem EccOnly.readBack {v : State} (hv : EccOnly s v) (i : Nat) (e : StkEnt) (n : Nat) :
    s.ReadBack i n ((v.holding i e).corrected i n) := by
  refine ⟨?_, (corrected_counts (v.holding i e) i n).of_regs hv.regs rfl⟩
  rw [corrected_readsOnly (v.holding i e) i n, hv.reads]
  rfl

/-! ### Requests performed -/

section
variable (h : s.Plain (s.stackOf r.addr))
include h

theorem performs_sectorRead {x : Ecc} (ha : r.addr % 32 = 0)
    (hgood : (s.ecc (s.phys r.addr) x).badSector (s.phys r.addr / 32) = false) :
    s.Performs (s.stackOf r.addr) r (.sectorRead x) { Served.of stOk with data := Sparse.readBytes s.dram (s.phys r.addr) 32 }
      (s.ReadBack (s.stackOf r.addr) ((s.ecc (s.phys r.addr) x).weakSector (s.phys r.addr / 32)).toNat) := by
  rintro e rfl hacc
  have hv := ecc_eccOnly s (s.phys e.req.addr) x
  have hopen := hv.isOpen_holding (s.stackOf e.req.addr) e h.isOpen
  have hread := readSector_ok (source := e.req.source) (core := e.req.core) hopen ha
    (by rw [hv.phys_holding]; exact hgood)
  rw [hv.phys_holding, hv.stackOf_holding] at hread
  have hdata : ((s.ecc (s.phys e.req.addr) x).holding (s.stackOf e.req.addr) e).dram = s.dram := hv.reads.dram
  rw [hdata] at hread
  exact ⟨_, (h.perfEnt_sectorRead hacc ha).trans (congrArg sectorServed hread),
    (corrected_readsOnly ..).stks.trans (hv.stks_holding ..), hv.readBack ..⟩

theorem performs_sectorRead_bad {x : Ecc} (ha : r.addr % 32 = 0)
    (hbad : (s.ecc (s.phys r.addr) x).badSector (s.phys r.addr / 32) = true) :
    s.Performs (s.stackOf r.addr) r (.sectorRead x) (Served.of stChecksumFault) s.SameContent := by
  rintro e rfl hacc
  have hv := ecc_eccOnly s (s.phys e.req.addr) x
  have hopen := hv.isOpen_holding (s.stackOf e.req.addr) e h.isOpen
  have hread := readSector_bad (source := e.req.source) (core := e.req.core) hopen ha
    (by rw [hv.phys_holding]; exact hbad)
  have hlog := uncorrected_logOnly ((s.ecc (s.phys e.req.addr) x).holding (s.stackOf e.req.addr) e)
  exact ⟨_, (h.perfEnt_sectorRead hacc ha).trans (congrArg sectorServed hread),
    (hlog ..).stks.trans (hv.stks_holding ..), hv.reads.sameContent.trans (hlog ..).sameContent⟩

theorem performs_sectorWrite {x : Ecc} {mask : BitVec 32} {data : List Byte} (ha : r.addr % 32 = 0) (hlen : data.length = 32)
    (hgood : (s.ecc (s.phys r.addr) x).badSector (s.phys r.addr / 32) = false) :
    s.Performs (s.stackOf r.addr) r (.sectorWrite mask data x) (Served.of stOk)
      (s.StoresSector (s.stackOf r.addr) ((s.ecc (s.phys r.addr) x).weakSector (s.phys r.addr / 32)).toNat (s.phys r.addr)
        mask data) := by
  rintro e rfl hacc
  have hv := ecc_eccOnly s (s.phys e.req.addr) x
  have hopen := hv.isOpen_holding (s.stackOf e.req.addr) e h.isOpen
  have hwrite := writeSector_ok (source := e.req.source) (core := e.req.core) hopen ha
    (maskRuns mask.toNat e.req.addr 0 data) (by rw [hv.phys_holding]; exact hgood)
  rw [hv.phys_holding, hv.stackOf_holding] at hwrite
  have hdata : ((s.ecc (s.phys e.req.addr) x).holding (s.stackOf e.req.addr) e).dram = s.dram := hv.reads.dram
  rw [hdata] at hwrite
  refine ⟨_, (h.perfEnt_sectorWrite hacc).trans (congrArg writeServed hwrite),
    (corrected_readsOnly ..).stks.trans (hv.stks_holding ..), storesSector_maskRuns ha hlen rfl ?_ ?_ ?_⟩
  · exact (corrected_readsOnly ..).bales.trans hv.reads.bales
  · exact (corrected_counts ((s.ecc (s.phys e.req.addr) x).holding (s.stackOf e.req.addr) e) ..).of_regs hv.regs rfl
  · exact (corrected_readsOnly ..).out.trans hv.reads.out

theorem performs_sectorWrite_bad {x : Ecc} {mask : BitVec 32} {data : List Byte} (ha : r.addr % 32 = 0)
    (hbad : (s.ecc (s.phys r.addr) x).badSector (s.phys r.addr / 32) = true) :
    s.Performs (s.stackOf r.addr) r (.sectorWrite mask data x) (Served.of stChecksumFault) s.SameContent := by
  rintro e rfl hacc
  have hv := ecc_eccOnly s (s.phys e.req.addr) x
  have hopen := hv.isOpen_holding (s.stackOf e.req.addr) e h.isOpen
  have hwrite := writeSector_bad (source := e.req.source) (core := e.req.core) hopen ha
    (maskRuns mask.toNat e.req.addr 0 data) (by rw [hv.phys_holding]; exact hbad)
  have hlog := uncorrected_logOnly ((s.ecc (s.phys e.req.addr) x).holding (s.stackOf e.req.addr) e)
  exact ⟨_, (h.perfEnt_sectorWrite hacc).trans (congrArg writeServed hwrite),
    (hlog ..).stks.trans (hv.stks_holding ..), hv.reads.sameContent.trans (hlog ..).sameContent⟩

theorem performs_baleRead {errs : Errs} (hgood : sectorsIn (s.eccs r.addr 128 errs).bad (s.phys r.addr / 4096) = []) :
    s.Performs (s.stackOf r.addr) r (.baleRead errs)
      { status := stOk, data := Sparse.readBytes s.dram (s.phys r.addr / 4096 * 4096) 4096,
        tag := (s.bale (s.phys r.addr / 4096)).tag.toNat, crc := s.storedCrc (s.phys r.addr / 4096) }
      (s.ReadBack (s.stackOf r.addr) (sectorsIn (s.eccs r.addr 128 errs).weak (s.phys r.addr / 4096)).length) := by
  rintro e rfl hacc
  have hv := eccs_eccOnly s e.req.addr 128 errs
  have hopen := hv.isOpen_holding (s.stackOf e.req.addr) e h.isOpen
  have hread := readBale_ok (source := e.req.source) (core := e.req.core) hopen
    (by rw [hv.phys_holding]; exact hgood)
  rw [hv.phys_holding, hv.stackOf_holding] at hread
  have hcontent : s.SameContent ((s.eccs e.req.addr 128 errs).holding (s.stackOf e.req.addr) e) := hv.reads.sameContent
  rw [hcontent.baleData, hcontent.bale, hcontent.storedCrc] at hread
  exact ⟨_, (h.perfEnt_baleRead hacc).trans (congrArg baleServed hread),
    (corrected_readsOnly ..).stks.trans (hv.stks_holding ..), hv.readBack ..⟩

theorem performs_baleRead_bad {errs : Errs} (hbad : sectorsIn (s.eccs r.addr 128 errs).bad (s.phys r.addr / 4096) ≠ []) :
    s.Performs (s.stackOf r.addr) r (.baleRead errs) (Served.of stChecksumFault) s.SameContent := by
  rintro e rfl hacc
  have hv := eccs_eccOnly s e.req.addr 128 errs
  have hopen := hv.isOpen_holding (s.stackOf e.req.addr) e h.isOpen
  obtain ⟨u, hread⟩ := readBale_bad (source := e.req.source) (core := e.req.core) hopen
    (by rw [hv.phys_holding]; exact hbad)
  have hlog := readBale_logOnly ((s.eccs e.req.addr 128 errs).holding (s.stackOf e.req.addr) e) e.req.source e.req.core
    e.req.addr
  rw [hread] at hlog
  exact ⟨_, (h.perfEnt_baleRead hacc).trans (congrArg baleServed hread), hlog.stks.trans (hv.stks_holding ..),
    hv.reads.sameContent.trans hlog.sameContent⟩

theorem performs_tagged {data : List Byte} {tag crc : Word32} (hcrc : baleCrc data tag.toNat (s.phys r.addr / 4096) = crc.toNat) :
    s.Performs (s.stackOf r.addr) r (.tagged data tag crc) (Served.of stOk)
      (s.StoresBale (s.phys r.addr / 4096) data { tag := tag, crcErr := 0 }) := by
  rintro e rfl hacc
  have hwrite := writeTagged_ok (s := s.holding (s.stackOf e.req.addr) e) (source := e.req.source) (core := e.req.core)
    h.isOpen hcrc
  exact ⟨_, ((h.holding_unshared e).perfEnt_tagged hacc).trans (congrArg writeServed hwrite), rfl, rfl⟩

theorem performs_tagged_mismatch {data : List Byte} {tag crc : Word32}
    (hcrc : baleCrc data tag.toNat (s.phys r.addr / 4096) ≠ crc.toNat) :
    s.Performs (s.stackOf r.addr) r (.tagged data tag crc) (Served.of stChecksumFault) s.SameContent := by
  rintro e rfl hacc
  have hwrite := writeTagged_mismatch (s := s.holding (s.stackOf e.req.addr) e) (source := e.req.source) (core := e.req.core)
    h.isOpen hcrc
  exact ⟨_, ((h.holding_unshared e).perfEnt_tagged hacc).trans (congrArg writeServed hwrite), (stkLog_logOnly ..).stks,
    (stkLog_logOnly ..).sameContent⟩

theorem performs_untagged (data : List Byte) :
    s.Performs (s.stackOf r.addr) r (.untagged data) (Served.of stOk)
      (s.StoresBale (s.phys r.addr / 4096) data { tag := (s.bale (s.phys r.addr / 4096)).tag, crcErr := 0 }) := by
  rintro e rfl hacc
  have hwrite := writeUntagged_ok (s := s.holding (s.stackOf e.req.addr) e) (source := e.req.source) (core := e.req.core)
    h.isOpen data
  exact ⟨_, ((h.holding_unshared e).perfEnt_untagged hacc).trans (congrArg writeServed hwrite), rfl, rfl⟩

end

/-! ### Requests answered -/

/-- A request of a listed SOURCE to stacked memory (Table 7.10). -/
structure ListedReq (r : StackReq) : Prop where
  source : r.source < 8
  notOwn : r.source ≠ 6
  addr   : r.addr < 0x018000000000

section
variable (hr : ListedReq r)
include hr

theorem stackReq_next {align : Nat} {bytesOk : Bool} (halign : r.addr % align = 0) (hbytes : bytesOk = true) :
    stackReq r align bytesOk s acc = .next (s.arrive (s.stackOf r.addr) r acc .port) :=
  if_pos ⟨hr.source, hr.notOwn, halign, hr.addr, hbytes⟩

theorem exec_stackSectorRead (ha : r.addr % 32 = 0) (x : Ecc) :
    exec (.stackSectorRead r x) s = .next (s.arrive (s.stackOf r.addr) r (.sectorRead x) .port) :=
  stackReq_next hr ha rfl

theorem exec_stackSectorWrite (ha : r.addr % 32 = 0) (mask : BitVec 32) {data : List Byte} (hlen : data.length = 32) (x : Ecc) :
    exec (.stackSectorWrite r mask data x) s = .next (s.arrive (s.stackOf r.addr) r (.sectorWrite mask data x) .port) :=
  stackReq_next hr ha (beq_iff_eq.2 hlen)

theorem exec_stackWholeBaleRead (ha : r.addr % 4096 = 0) (errs : Errs) :
    exec (.stackWholeBaleRead r errs) s = .next (s.arrive (s.stackOf r.addr) r (.baleRead errs) .port) :=
  stackReq_next hr ha rfl

theorem exec_stackTaggedWrite (ha : r.addr % 4096 = 0) {data : List Byte} (hlen : data.length = 4096) (tag crc : Word32) :
    exec (.stackTaggedWrite r data tag crc) s = .next (s.arrive (s.stackOf r.addr) r (.tagged data tag crc) .port) :=
  stackReq_next hr ha (beq_iff_eq.2 hlen)

theorem exec_stackUntaggedWrite (ha : r.addr % 4096 = 0) {data : List Byte} (hlen : data.length = 4096) :
    exec (.stackUntaggedWrite r data) s = .next (s.arrive (s.stackOf r.addr) r (.untagged data) .port) :=
  stackReq_next hr ha (beq_iff_eq.2 hlen)

end

section
variable {c : Instr} (hexec : exec c s = .next (s.arrive (s.stackOf r.addr) r acc .port))
include hexec

/-- A request that is performed is answered with what it delivers. -/
theorem answers_of_performs {v : Served} {q q' : State → Prop} (h : s.Plain (s.stackOf r.addr)) (hacc : acc.IsRequest)
    (hperf : s.Performs (s.stackOf r.addr) r acc v q) (hout : ∀ u, q u → u.out = s.out)
    (hq : ∀ u, q u → q' (u.replied (s.stackOf r.addr) r v)) :
    ∃ t, exec c s = .next t ∧ t.out = s.out ++ [.stack r v.status v.data (BitVec.ofNat 32 v.tag) (BitVec.ofNat 32 v.crc)] ∧
      (t.stk (s.stackOf r.addr)).ents = [] ∧ q' t := by
  obtain ⟨u, harrive, hu⟩ := h.arrive hacc hperf
  refine ⟨_, hexec.trans (congrArg _ harrive), ?_, State.replied_ents .., hq u hu⟩
  rw [State.replied_out, hout u hu]

/-- A request that fails when it is performed stores nothing and is answered with its status. -/
theorem fails_of_performs {st : Nat} (h : s.Plain (s.stackOf r.addr)) (hacc : acc.IsRequest)
    (hperf : s.Performs (s.stackOf r.addr) r acc (Served.of st) s.SameContent) :
    ∃ t, exec c s = .next t ∧ t.dram = s.dram ∧ t.bales = s.bales ∧ Output.stack r st [] 0 0 ∈ t.out := by
  obtain ⟨u, harrive, hdram, hbales⟩ := h.arrive hacc hperf
  refine ⟨_, hexec.trans (congrArg _ harrive), hdram, hbales, ?_⟩
  rw [State.replied_out]
  exact List.mem_append_right _ List.mem_cons_self

/-- A request to a stack that is not open stores nothing and is answered with TARGET_RESET (R319). -/
theorem fails_of_closed (hclosed : s.stkOpen (s.stackOf r.addr) = false) :
    ∃ t, exec c s = .next t ∧ t.dram = s.dram ∧ t.bales = s.bales ∧ Output.stack r stTargetReset [] 0 0 ∈ t.out := by
  have harrive : s.arrive (s.stackOf r.addr) r acc .port =
      (s.stkRefuse (s.stackOf r.addr) r.addr r.source r.core).emit (.stack r stTargetReset [] 0 0) := by
    simp only [State.arrive, hclosed, Bool.not_false, if_true]
    rfl
  have hlog := (stkRefuse_logOnly s (s.stackOf r.addr) r.addr r.source r.core).trans
    (emit_logOnly _ (.stack r stTargetReset [] 0 0))
  exact ⟨_, hexec.trans (congrArg _ harrive), hlog.dram, hlog.bales, List.mem_append_right _ List.mem_cons_self⟩

end

theorem State.ReadBack.out {i n : Nat} (h : s.ReadBack i n u) : u.out = s.out := by
  obtain ⟨hu, -⟩ := h
  rw [hu]

/-- What a read leaves, once it is answered. -/
theorem State.ReadBack.replied {i j n : Nat} {v : Served} (h : s.ReadBack i n u) :
    u.replied j r v = { s with out := (u.replied j r v).out, stks := (u.replied j r v).stks, regs := (u.replied j r v).regs,
                               weak := (u.replied j r v).weak, bad := (u.replied j r v).bad } ∧
      CountsCorrected i n s (u.replied j r v) := by
  obtain ⟨hu, hcount⟩ := h
  refine ⟨?_, hcount.of_regs rfl rfl⟩
  rw [hu]
  rfl

/-- What a whole-bale write leaves. -/
theorem State.StoresBale.spec {b : Nat} {data : List Byte} {m : Meta} (h : s.StoresBale b data m u) (hlen : data.length = 4096) :
    u.baleData b = data ∧ u.bale b = m ∧ sectorsIn u.bad b = [] ∧ u.regs = s.regs ∧
      (∀ x, x / 4096 ≠ b → Sparse.get 0 u.dram x = Sparse.get 0 s.dram x) ∧
      ∀ b', b' ≠ b → u.bale b' = s.bale b' := by
  unfold State.StoresBale at h
  rw [h]
  exact ⟨storeBale_baleData s m hlen, storeBale_bale s m, storeBale_sectorsIn s m, rfl,
    fun x hx => storeBale_dram_outside s m hlen hx, fun b' hne => storeBale_bale_ne s m hne⟩

theorem State.StoresBale.out {b : Nat} {data : List Byte} {m : Meta} (h : s.StoresBale b data m u) : u.out = s.out := by
  unfold State.StoresBale at h
  rw [h]
  rfl

/-- Settles O33: a request at a stack with nothing before it is performed at once and answered; each of the five is one access of
the stack, or fails. -/
theorem stackRequestsAnswer : Obligations.StackRequestsAnswer := by
  constructor
  case left =>
    intro s r h hsource hown haddr i key b counted ans
    have hr : ListedReq r := ⟨hsource, hown, haddr⟩
    refine ⟨fun x ha hgood => ?sectorRead, fun errs ha hgood => ?baleRead, fun data tag crc ha hlen hcrc => ?tagged,
      fun data ha hlen => ?untagged, fun mask data x ha hlen hgood => ?sectorWrite⟩
    case sectorRead =>
      exact answers_of_performs (exec_stackSectorRead hr ha x) h (.sectorRead x) (performs_sectorRead h ha hgood)
        (fun _ => State.ReadBack.out) fun _ => State.ReadBack.replied
    case baleRead =>
      exact answers_of_performs (exec_stackWholeBaleRead hr ha errs) h (.baleRead errs) (performs_baleRead h hgood)
        (fun _ => State.ReadBack.out) fun _ => State.ReadBack.replied
    case tagged =>
      exact answers_of_performs (exec_stackTaggedWrite hr ha hlen tag crc) h (.tagged ..) (performs_tagged h hcrc)
        (fun _ => State.StoresBale.out) fun _ hu => hu.spec hlen
    case untagged =>
      exact answers_of_performs (exec_stackUntaggedWrite hr ha hlen) h (.untagged data) (performs_untagged h data)
        (fun _ => State.StoresBale.out) fun _ hu => hu.spec hlen
    case sectorWrite =>
      refine answers_of_performs (exec_stackSectorWrite hr ha mask hlen x) h (.sectorWrite ..)
        (performs_sectorWrite h ha hlen hgood) ?_ ?_
      · rintro u ⟨-, -, -, -, hout⟩
        exact hout
      · rintro u ⟨hin, hout, hbales, hcount, -⟩
        exact ⟨hin, hout, hbales, hcount⟩
  case right =>
    intro s r hsource hown haddr i key ans
    have hr : ListedReq r := ⟨hsource, hown, haddr⟩
    refine ⟨fun h ha data tag crc hlen hcrc => ?tagged, fun x h ha hbad => ⟨?sectorRead, fun mask data hlen => ?sectorWrite⟩,
      fun errs h ha hbad => ?baleRead, fun hclosed ha x => ⟨?closedRead, fun mask data hlen => ?closedWrite⟩,
      fun hclosed ha => ⟨fun errs => ?closedBaleRead, fun data tag crc hlen => ⟨?closedTagged, ?closedUntagged⟩⟩⟩
    case tagged =>
      exact fails_of_performs (exec_stackTaggedWrite hr ha hlen tag crc) h (.tagged ..) (performs_tagged_mismatch h hcrc)
    case sectorRead =>
      exact fails_of_performs (exec_stackSectorRead hr ha x) h (.sectorRead x) (performs_sectorRead_bad h ha hbad)
    case sectorWrite =>
      exact fails_of_performs (exec_stackSectorWrite hr ha mask hlen x) h (.sectorWrite ..) (performs_sectorWrite_bad h ha hbad)
    case baleRead =>
      exact fails_of_performs (exec_stackWholeBaleRead hr ha errs) h (.baleRead errs) (performs_baleRead_bad h hbad)
    case closedRead => exact fails_of_closed (exec_stackSectorRead hr ha x) hclosed
    case closedWrite => exact fails_of_closed (exec_stackSectorWrite hr ha mask hlen x) hclosed
    case closedBaleRead => exact fails_of_closed (exec_stackWholeBaleRead hr ha errs) hclosed
    case closedTagged => exact fails_of_closed (exec_stackTaggedWrite hr ha hlen tag crc) hclosed
    case closedUntagged => exact fails_of_closed (exec_stackUntaggedWrite hr ha hlen) hclosed

end Sys2Proof.Machine

/-! SUPPORT. The source side of the NI: what a sending puts in an injection queue, when a waiting request is sent, how a tag is sent
again or retires with its piece of a PUT, what an RSP packet that passes the checks does, and what a pair reset forgets (R407, R425,
R431, R438, R440 to R443, R446). -/

namespace Sys2Proof.Machine

variable {s t : State} {r : NiReq} {x : Tag} {p : Packet} {bs : List Byte} {d num f c seq off : Nat}

/-! ### Packets and injection queues (R407, R438) -/

theorem pktOk_pktSigned (p : Packet) : pktOk (pktSigned p) = true := by
  have hcrc : pktCrc (pktSigned p) = pktCrc p := rfl
  have hlt : pktCrc p < 2 ^ 32 := crc32c_lt _
  rw [pktOk, hcrc, pktSigned, BitVec.toNat_ofNat, Nat.mod_eq_of_lt hlt, beq_self_eq_true]

theorem LogOnly.queue (h : LogOnly s t) (i q : Nat) : t.queue i q = s.queue i q := by
  unfold State.queue
  rw [h.rtr]

/-- A packet enters the queue of its class behind those that wait there, with its CRC. -/
theorem State.queue_inject (s : State) (share : Nat) (p : Packet) :
    (s.inject share p).queue share (qInject p.cls) = s.queue share (qInject p.cls) ++ [pktSigned p] :=
  Sparse.get_set_same

@[simp] theorem State.setNi_ni (s : State) (n : Ni) : (s.setNi n).ni = n := rfl
@[simp] theorem State.setNi_queue (s : State) (n : Ni) (i q : Nat) : (s.setNi n).queue i q = s.queue i q := rfl

@[simp] theorem State.inject_ni (s : State) (share : Nat) (p : Packet) :
    (s.inject share p).ni = { s.ni with acked := Sparse.set 0 s.ni.acked p.dest p.ackSeq.toNat } := rfl

/-! ### A waiting request is sent (R425, R431, R451) -/

/-- The tag with which a request goes to a device for the first time: it takes the next SEQ. -/
def State.firstTag (s : State) (r : NiReq) (d num : Nat) : Tag :=
  { num := num, req := r, dest := d, seq := s.ni.nextSeq d, resends := 0, backoff := false }

/-- The NI when a request has left the waiting ones and holds its tag. -/
def State.tagged (s : State) (r : NiReq) (d num : Nat) : State :=
  s.setNi { s.ni with
    waiting := s.ni.waiting.erase r
    tags := s.ni.tags ++ [s.firstTag r d num]
    next := Sparse.set 0 s.ni.next d ((s.ni.nextSeq d + 1) % 2 ^ 32) }

/-- A request by rank that nothing keeps from being sent: device `d` is its destination, `num` its tag, `bs` its payload. -/
structure State.Sends (s : State) (r : NiReq) (d num : Nat) (bs : List Byte) : Prop where
  fenced : s.fenced = false
  shadow : s.isShadow = false
  byRank : r.byRank = true
  device : s.deviceOf r.dest = some d
  dead : s.ni.dead = []
  window : s.ni.windowRoom d = true
  room : s.injectRoom r.share (opClass r.op) = true
  flag : r.flag = false
  pay : r.pay = .bytes bs
  forward : s.forwardRoom r.op d = true
  tag : s.ni.freeTag r.share = some num

/-- Such a request gets its tag, and its packet enters the queue; only the count of invalidations lies between. -/
theorem State.Sends.sendReq (h : s.Sends r d num bs) :
    ∃ u, LogOnly (s.tagged r d num) u ∧
      s.sendReq r = (u.inject r.share (u.tagPacket (s.firstTag r d num) bs), .sent) := by
  have hflag : s.flagWaits r d = false := by simp [State.flagWaits, h.flag]
  have hpay : s.payload r = (s, some (stOk, bs)) := by simp [State.payload, h.pay]
  refine ⟨if r.op = 0x10 then (s.tagged r d num).incFld .niCoh 0 0 63 32 else s.tagged r d num,
    ite_logOnly (incFld_logOnly ..) (.refl _), ?_⟩
  simp only [State.sendReq, h.byRank, ↓reduceIte, h.device, h.fenced, h.dead, List.contains_nil, Bool.or_self,
    Bool.false_eq_true, h.shadow, Bool.false_and, h.window, h.room, hflag, h.forward, Bool.not_true, h.tag, hpay, ne_eq,
    not_true_eq_false]
  rfl

theorem foldl_insertBy_singleton (key : Nat → Nat) (i : Nat) : [i].foldl (fun l i => insertBy key i l) [] = [i] := rfl

theorem State.inTurn_singleton (h : s.ni.waiting = [r]) : s.inTurn r.share = [r] := by
  have hmine : s.ni.waiting.filter (fun x => x.share == r.share) = [r] := by simp [h]
  have hissuer : distinct ([r].map fun x => x.owner.issuer) = [r.owner.issuer] := rfl
  have hown : [r].filter (fun x => x.owner.issuer == r.owner.issuer) = [r] := by simp
  simp only [State.inTurn, hmine, hissuer, foldl_insertBy_singleton, List.flatMap_singleton, hown]

/-- The one request that waits is sent, and its issuer is the one served last. -/
theorem State.Sends.sendNext (h : s.Sends r d num bs) (hwait : s.ni.waiting = [r]) :
    ∃ u v, LogOnly (s.tagged r d num) u ∧ v = u.inject r.share (u.tagPacket (s.firstTag r d num) bs) ∧
      s.sendNext r.share = v.setNi { v.ni with turn := Sparse.set 0 v.ni.turn r.share r.owner.issuer } := by
  obtain ⟨u, hlog, hsend⟩ := h.sendReq
  have hmatch : s.matchSlots = s := by simp [State.matchSlots, h.shadow]
  refine ⟨u, _, hlog, rfl, ?_⟩
  simp only [State.sendNext, hmatch, State.inTurn_singleton hwait, State.sendFirst, List.any_nil, Bool.false_eq_true,
    ↓reduceIte, hsend]

/-! ### A tag is sent again (R440, R442) -/

theorem Ni.tag_singleton {n : Ni} (h : n.tags = [x]) : n.tag x.num = some x := by simp [Ni.tag, h]

theorem State.setTag_tags {y : Tag} (h : s.ni.tags = [x]) (hnum : y.num = x.num) : (s.setTag y).ni.tags = [y] := by
  simp [State.setTag, State.setNi, h, hnum]

/-- The packet of a tag goes out again and counts as a re-send. -/
theorem State.resend_eq (hfence : s.fenced = false) (hroom : s.injectRoom x.req.share (opClass x.req.op) = true)
    (hpay : x.req.pay = .bytes bs) :
    s.resend x = ((s.setTag x).incFld .niCntA 0 0 31 0).inject x.req.share (s.tagPacket x bs) := by
  simp only [State.resend, hfence, hroom, Bool.not_true, Bool.or_self, Bool.false_eq_true, ↓reduceIte, State.payload, hpay,
    ne_eq, not_true_eq_false]

theorem State.resendExpiry_below (hx : s.ni.tags = [x]) (hback : x.backoff = false)
    (hlimit : x.resends < s.fld .niResend 0 0 35 32) :
    s.resendExpiry x.num = s.resend { x with resends := x.resends + 1, backoff := false } := by
  simp [State.resendExpiry, Ni.tag_singleton hx, hback, Nat.not_le.2 hlimit]

theorem State.resendExpiry_atLimit (hx : s.ni.tags = [x]) (hback : x.backoff = false)
    (hlimit : s.fld .niResend 0 0 35 32 ≤ x.resends) :
    s.resendExpiry x.num = (s.niFatalEvent 2 x.dest).retireTag x stTimeout [] := by
  simp [State.resendExpiry, Ni.tag_singleton hx, hback, hlimit]

theorem State.backoffExpiry_eq (hx : s.ni.tags = [x]) (hback : x.backoff = true) :
    s.backoffExpiry x.num = s.resend { x with backoff := false } := by
  simp [State.backoffExpiry, Ni.tag_singleton hx, hback]

theorem State.tagDeadline_eq (hx : s.ni.tags = [x]) : s.tagDeadline x.num = s.retireTag x stTimeout [] := by
  simp [State.tagDeadline, Ni.tag_singleton hx]

/-- `t` has the one tag `x`, and the packet of that tag stands in the queue of its share behind what waits there in `s`. -/
def State.SentAgain (s : State) (x : Tag) (bs : List Byte) (t : State) : Prop :=
  ∃ q : Packet, t.ni.tags = [x] ∧ pktOk q = true ∧
    t.queue x.req.share (opClass x.req.op) = s.queue x.req.share (opClass x.req.op) ++ [q] ∧
    q.tag = x.num ∧ q.seq = BitVec.ofNat 32 x.seq ∧ q.dest = x.dest ∧ q.payload = bs

theorem State.resend_sentAgain {y : Tag} (hx : s.ni.tags = [x]) (hnum : y.num = x.num) (hfence : s.fenced = false)
    (hroom : s.injectRoom y.req.share (opClass y.req.op) = true) (hpay : y.req.pay = .bytes bs) :
    s.SentAgain y bs (s.resend y) := by
  have hpushed := ((s.setTag y).incFld .niCntA 0 0 31 0).queue_inject y.req.share (s.tagPacket y bs)
  rw [(incFld_logOnly ..).queue] at hpushed
  rw [State.resend_eq hfence hroom hpay]
  refine ⟨_, ?tags, pktOk_pktSigned _, hpushed, rfl, rfl, rfl, rfl⟩
  rw [State.inject_ni, State.incFld_ni]
  exact State.setTag_tags hx hnum

/-! ### A tag retires (R222, R458) -/

/-- The one tag of `s` is gone, and its piece of the PUT has ended with a status. -/
def State.PieceEnds (s : State) (f c seq off st : Nat) (t : State) : Prop :=
  t.ni.tags = [] ∧
    t.core f c = { s.core f c with dma := (s.core f c).dma.map fun d => if d.seq = seq then d.piece off st else d }

theorem State.dropTag_tags (hx : s.ni.tags = [x]) : (s.dropTag x.num).ni.tags = [] := by
  simp [State.dropTag, State.setNi, hx]

/-- A tag that carries a piece of a PUT retires: the descriptor learns the status. -/
theorem State.retireAs_pieceEnds (hx : s.ni.tags = [x]) (hown : x.req.owner = .put f c seq off) (logged st : Nat)
    (bs : List Byte) : s.PieceEnds f c seq off st (s.retireAs x logged st bs) := by
  let u := s.dropTag x.num
  let v := if st = stOk then u
    else u.niLog logged true x.req.space (opClass x.req.op) x.req.op x.dest x.req.share x.req.offset
  have hlog : LogOnly u v := ite_logOnly (.refl u) (niLog_logOnly ..)
  have hret : s.retireAs x logged st bs = v.modDma f c seq fun d => d.piece off st := by
    simp only [State.retireAs, State.completeOwner, hown, u, v]
  rw [hret]
  constructor
  · calc (v.modDma f c seq fun d => d.piece off st).ni.tags
      _ = u.ni.tags := by rw [← hlog.ni]; rfl
      _ = [] := State.dropTag_tags hx
  · have hcore : v.core f c = s.core f c := (hlog.core f c).trans rfl
    rw [State.modDma, State.core_modCore_same, hcore]

theorem State.retireTag_pieceEnds (hx : s.ni.tags = [x]) (hown : x.req.owner = .put f c seq off) (st : Nat)
    (bs : List Byte) : s.PieceEnds f c seq off st (s.retireTag x st bs) :=
  State.retireAs_pieceEnds hx hown st st bs

/-- What a log entry changed before does not matter to the end of a piece. -/
theorem LogOnly.pieceEnds {u : State} {st : Nat} (h : LogOnly s t) (hu : t.PieceEnds f c seq off st u) :
    s.PieceEnds f c seq off st u := by
  obtain ⟨htags, hcore⟩ := hu
  exact ⟨htags, by rw [hcore, h.core]⟩

/-! ### RSP packets (R408, R410, R438, R439) -/

theorem exec_response_eq (p : Packet) (s : State) : exec (.response p) s = execResponse p s := rfl
theorem exec_ack_eq (p : Packet) (s : State) : exec (.ack p) s = execAck p s := rfl

theorem onPacket_next {op : Nat} {k : State → State} (hlen : p.payload.length = p.len) (hop : p.op = op) :
    onPacket op p s k = .next (k s) := by
  simp [onPacket, hlen, hop]

/-- An RSP packet that the NI takes: whole, of this job, well formed, and in order with its LEN. -/
structure State.TakesRsp (s : State) (p : Packet) : Prop where
  up : s.niUp = true
  len : p.payload.length = p.len
  crc : pktOk p = true
  job : p.jobTag.toNat = s.jobTag
  form : rspWellFormed p = true

theorem State.TakesRsp.arriveRsp (h : s.TakesRsp p) (take : State → State) :
    s.arriveRsp p take = take ((s.takeEject p).takeAck p) := by
  obtain ⟨hbit, hfold⟩ := Bool.and_eq_true_iff.1 h.up
  have hfold' : (s.takeEject p).fold.isNone = false := by
    change s.fold.isNone = false
    simpa using hfold
  have hjob : p.jobTag.toNat = (s.takeEject p).jobTag := h.job
  simp [State.arriveRsp, hbit, hfold', h.crc, ← hjob, h.form]

theorem State.takeAck_noAck (h : p.ackV = false) : s.takeAck p = s := by simp [State.takeAck, h]

theorem State.rx_setNi (s : State) (n : Ni) (i : Nat) : (s.setNi n).rx i = Sparse.get RxRec.fresh n.rx i := rfl

/-- RACK of a record in use rises to an ACK_SEQ that is not before it. -/
theorem State.takeAck_rx (hack : p.ackV = true) (huse : (s.rx p.src).inUse = true)
    (hnew : seqDiff p.ackSeq.toNat (s.rx p.src).rack < 2 ^ 31) :
    (s.takeAck p).rx p.src = { s.rx p.src with rack := p.ackSeq.toNat } := by
  simp only [State.takeAck, hack, huse, hnew, decide_true, Bool.and_self, ↓reduceIte, State.rx_setNi, State.setRx,
    State.setNi_ni, Sparse.get_set_same]

theorem State.TakesRsp.exec_response (h : s.TakesRsp p) (hop : p.op = 0x20) (hack : p.ackV = false) :
    exec (.response p) s = .next ((s.takeEject p).takeResponse p).goOn := by
  rw [exec_response_eq, execResponse, onPacket_next h.len hop, h.arriveRsp, State.takeAck_noAck hack]

theorem State.TakesRsp.exec_ack (h : s.TakesRsp p) (hop : p.op = 0x21) :
    exec (.ack p) s = .next ((s.takeEject p).takeAck p) := by
  rw [exec_ack_eq, execAck, onPacket_next h.len hop, h.arriveRsp]

/-! ### A RESPONSE and its tag (R442, R443) -/

/-- A RESPONSE that answers no sending of this device is counted and has no other effect. -/
theorem State.takeResponse_unmatched (h : ∀ x, s.ni.tag p.tag = some x → x.dest ≠ p.src ∨ x.seq ≠ p.seq.toNat) :
    s.takeResponse p = s.incFld .niCntB 0 0 31 0 := by
  unfold State.takeResponse
  split
  case h_1 => rfl
  case h_2 x hx => rw [if_pos (h x hx)]

/-- A RESPONSE to the one tag of the NI, with a status that a response may carry and the LEN that it asks for. -/
structure State.Answers (s : State) (x : Tag) (p : Packet) : Prop where
  tags : s.ni.tags = [x]
  tag : p.tag = x.num
  src : x.dest = p.src
  seq : x.seq = p.seq.toNat
  len : p.len = rspLen x.req p.status
  notTimeout : p.status ≠ stTimeout
  listed : p.status ≤ 0xA

theorem State.Answers.takeResponse (h : s.Answers x p) :
    s.takeResponse p =
      if p.status = stDeferred then s.setTag { x with resends := 0, backoff := true } else s.retireTag x p.status p.payload := by
  have htag : s.ni.tag p.tag = some x := by rw [h.tag, Ni.tag_singleton h.tags]
  have hmatch : ¬(x.dest ≠ p.src ∨ x.seq ≠ p.seq.toNat) := by simp [h.src, h.seq]
  have hlisted : ¬(p.status = stTimeout ∨ 0xA < p.status) := by simp [h.notTimeout, h.listed]
  simp only [State.takeResponse, htag, if_neg hmatch, if_neg hlisted, h.len, ne_eq, not_true_eq_false, ↓reduceIte]

/-! ### An acknowledgement of its own (R438) -/

theorem exec_ackTimerExpiry (hup : s.niUp = true) (hfence : s.fenced = false) (hnew : s.ni.ackSeq d ≠ Sparse.get 0 s.ni.acked d)
    (hroom : s.injectRoom 8 2 = true) :
    exec (.ackTimerExpiry d) s = .next (s.inject 8 (s.packet d 0x21 false 0 8 0 0 0 0 0 0 0 [])) := by
  have hexec : exec (.ackTimerExpiry d) s = execAckTimerExpiry d s := rfl
  simp [hexec, execAckTimerExpiry, hup, hfence, hnew, hroom]

/-! ### Pair resets (R446) -/

/-- With no tag outstanding to a device none retires. -/
theorem State.retireAllTo_of_no_tag (h : ∀ x ∈ s.ni.tags, x.dest ≠ d) : s.retireAllTo d = s := by
  have hnone : (s.ni.tags.filter fun t => t.dest == d) = [] := by simpa using h
  rw [State.retireAllTo, hnone]
  rfl

/-- What a pair reset forgets of the device that it names. -/
theorem State.pairReset_forgets (s : State) (v : Nat) : let d := bits v 13 0
    (s.pairReset v).ni.nextSeq d = 0 ∧ (s.pairReset v).rx d = RxRec.fresh ∧ d ∉ (s.pairReset v).ni.dead ∧
      ∀ x ∈ (s.pairReset v).ni.replay, x.src ≠ d := by
  refine ⟨?next, ?rx, ?dead, ?replay⟩
  all_goals simp [State.pairReset, Ni.nextSeq, State.rx_setNi]

/-- A pair reset to a device to which no tag is outstanding leaves the records and counters of every other device. -/
theorem State.pairReset_others {v d' : Nat} (hne : d' ≠ bits v 13 0) (h : ∀ x ∈ s.ni.tags, x.dest ≠ bits v 13 0) :
    (s.pairReset v).rx d' = s.rx d' ∧ (s.pairReset v).ni.nextSeq d' = s.ni.nextSeq d' := by
  simp only [State.pairReset, State.retireAllTo_of_no_tag h, State.rx_setNi, State.setNi_ni, Ni.nextSeq, Sparse.get_set_ne hne]
  exact ⟨rfl, rfl⟩

/-! ### The commands (R431, R440, R442, R443) -/

theorem exec_niPacketSend_eq (share : Nat) (s : State) : exec (.niPacketSend share) s = execNiPacketSend share s := rfl
theorem exec_resendIntervalExpiry_eq (num : Nat) (s : State) :
    exec (.resendIntervalExpiry num) s = .next (s.resendExpiry num).goOn := rfl
theorem exec_deferredBackoffExpiry_eq (num : Nat) (s : State) :
    exec (.deferredBackoffExpiry num) s = .next (s.backoffExpiry num).goOn := rfl
theorem exec_tagDeadlineExpiry_eq (num : Nat) (s : State) :
    exec (.tagDeadlineExpiry num) s = .next (s.tagDeadline num).goOn := rfl
theorem exec_niPairReset_eq (v : Word64) (s : State) : exec (.niPairReset v) s = .next (s.pairReset v.toNat).goOn := rfl

/-- The one waiting request of a share goes out with its tag, the next SEQ and its CRC. -/
theorem exec_niPacketSend (hup : s.niUp = true) (hshare : r.share < 12) (hwait : s.ni.waiting = [r]) (h : s.Sends r d num bs) :
    ∃ (t : State) (q : Packet), exec (.niPacketSend r.share) s = .next t.goOn ∧ t.ni.waiting = [] ∧ pktOk q = true ∧
      t.ni.tags = s.ni.tags ++ [s.firstTag r d num] ∧ t.ni.nextSeq d = (s.ni.nextSeq d + 1) % 2 ^ 32 ∧
      t.queue r.share (opClass r.op) = s.queue r.share (opClass r.op) ++ [q] ∧ q.dest = d ∧ q.op = r.op ∧ q.tag = num ∧
      q.seq = BitVec.ofNat 32 (s.ni.nextSeq d) ∧ q.offset = r.offset ∧ q.payload = bs ∧ q.src = s.device := by
  obtain ⟨u, v, hlog, hv, hsend⟩ := h.sendNext hwait
  have hni : v.ni = { (s.tagged r d num).ni with
      acked := Sparse.set 0 u.ni.acked d (u.tagPacket (s.firstTag r d num) bs).ackSeq.toNat } := by
    rw [hv, State.inject_ni, hlog.ni]
    rfl
  have hqueue : v.queue r.share (opClass r.op) =
      s.queue r.share (opClass r.op) ++ [pktSigned (u.tagPacket (s.firstTag r d num) bs)] := by
    have hpushed := u.queue_inject r.share (u.tagPacket (s.firstTag r d num) bs)
    rw [← hv, hlog.queue] at hpushed
    exact hpushed
  refine ⟨s.sendNext r.share, pktSigned (u.tagPacket (s.firstTag r d num) bs), ?exec, ?waiting, pktOk_pktSigned _, ?tags,
    ?next, ?queue, rfl, rfl, rfl, rfl, rfl, rfl, ?src⟩
  case exec =>
    rw [exec_niPacketSend_eq, execNiPacketSend, inRange_next hshare, if_pos hup]
  case waiting =>
    rw [hsend, State.setNi_ni, hni]
    simp [State.tagged, State.setNi, hwait]
  case tags =>
    rw [hsend, State.setNi_ni, hni]
    rfl
  case next =>
    rw [hsend, State.setNi_ni, hni]
    exact Sparse.get_set_same
  case queue => rw [hsend, State.setNi_queue, hqueue]
  case src =>
    change u.device = s.device
    unfold State.device
    rw [hlog.fold]
    rfl

/-- A RESPONSE to the tag of a piece ends the piece with its status, unless it defers. -/
theorem exec_response_final (h : s.TakesRsp p) (hop : p.op = 0x20) (hack : p.ackV = false) (ha : s.Answers x p)
    (hown : x.req.owner = .put f c seq off) (hst : p.status ≠ stDeferred) :
    ∃ t : State, exec (.response p) s = .next t.goOn ∧ s.PieceEnds f c seq off p.status t := by
  have ha' : (s.takeEject p).Answers x p := { ha with tags := ha.tags }
  refine ⟨_, h.exec_response hop hack, ?_⟩
  rw [ha'.takeResponse, if_neg hst]
  exact State.retireTag_pieceEnds (s := s.takeEject p) ha.tags hown _ _

/-- A RESPONSE with DEFERRED puts the tag into back-off with its count of re-sends at zero. -/
theorem exec_response_deferred (h : s.TakesRsp p) (hop : p.op = 0x20) (hack : p.ackV = false) (ha : s.Answers x p)
    (hst : p.status = stDeferred) :
    ∃ t : State, exec (.response p) s = .next t.goOn ∧ t.ni.tags = [{ x with resends := 0, backoff := true }] := by
  have ha' : (s.takeEject p).Answers x p := { ha with tags := ha.tags }
  refine ⟨_, h.exec_response hop hack, ?_⟩
  rw [ha'.takeResponse, if_pos hst]
  exact State.setTag_tags ha'.tags rfl

/-- Settles O47: a waiting request is sent; the tag of a piece is sent again, retires with TIMEOUT, or is answered; a RESPONSE to no
tag is counted; an acknowledgement is taken and one is sent; and a pair reset forgets a device. -/
theorem sourceSendsAndResends : Obligations.SourceSendsAndResends := by
  intro s hup hfence hshadow
  refine ⟨?send, ?tag, ?unmatched, ?ack, ?ackTimer, ?reset⟩
  case send =>
    intro r d num bs hshare hwait hrank hdev hdead hwin hroom hflag hpay hfwd htag
    exact exec_niPacketSend hup hshare hwait
      ⟨hfence, hshadow, hrank, hdev, hdead, hwin, hroom, hflag, hpay, hfwd, htag⟩
  case tag =>
    intro x f c seq off bs hx hown hpay mine again
    have hagain {i : Instr} {n : Nat} (hexec : exec i s = .next (s.resend { x with resends := n, backoff := false }).goOn) :
        again i n := by
      intro hroom
      obtain ⟨q, hq⟩ := State.resend_sentAgain (y := { x with resends := n, backoff := false }) hx rfl hfence hroom hpay
      exact ⟨_, q, hexec, hq⟩
    refine ⟨fun hback hlimit => hagain ?resend, fun hback hlimit => ?limit, fun hback => hagain ?backoff, ?deadline, ?response⟩
    case resend => rw [exec_resendIntervalExpiry_eq, State.resendExpiry_below hx hback hlimit]
    case limit =>
      have hlog := niFatalEvent_logOnly s 2 x.dest
      refine ⟨_, exec_resendIntervalExpiry_eq .., ?_⟩
      rw [State.resendExpiry_atLimit hx hback hlimit]
      exact hlog.pieceEnds (State.retireTag_pieceEnds (by rw [hlog.ni, hx]) hown ..)
    case backoff => rw [exec_deferredBackoffExpiry_eq, State.backoffExpiry_eq hx hback]
    case deadline =>
      refine ⟨_, exec_tagDeadlineExpiry_eq .., ?_⟩
      rw [State.tagDeadline_eq hx]
      exact State.retireTag_pieceEnds hx hown ..
    case response =>
      intro p hop hlen hrsp hcrc hjob hform hack htag hsrc hseq htimeout hlisted
      have htakes : s.TakesRsp p := ⟨hup, hlen, hcrc, hjob, hform⟩
      have hans : s.Answers x p := ⟨hx, htag, hsrc, hseq, hrsp, htimeout, hlisted⟩
      exact ⟨exec_response_final htakes hop hack hans hown, exec_response_deferred htakes hop hack hans⟩
  case unmatched =>
    intro p hop hlen hcrc hjob hform hack hno
    have htakes : s.TakesRsp p := ⟨hup, hlen, hcrc, hjob, hform⟩
    rw [htakes.exec_response hop hack, State.takeResponse_unmatched (s := s.takeEject p) hno]
  case ack =>
    intro p hop hlen hcrc hjob hform hack huse hnew
    have htakes : s.TakesRsp p := ⟨hup, hlen, hcrc, hjob, hform⟩
    exact ⟨_, htakes.exec_ack hop, State.takeAck_rx (s := s.takeEject p) hack huse hnew⟩
  case ackTimer =>
    intro d hnew hroom
    exact ⟨_, _, exec_ackTimerExpiry hup hfence hnew hroom, State.queue_inject .., rfl, rfl, rfl, rfl⟩
  case reset =>
    intro v d
    obtain ⟨hnext, hrx, hdead, hreplay⟩ := s.pairReset_forgets v.toNat
    exact ⟨_, exec_niPairReset_eq v s, hnext, hrx, hdead, hreplay, fun _ hne hno => State.pairReset_others hne hno⟩

end Sys2Proof.Machine

/-! SUPPORT. When a signal word satisfies a target pair, and how a WAIT is held and ends (R232, R504, R506 to R510). -/

namespace Sys2Proof.Machine

variable {s : State} {f c : Nat} {w : Word64} {p : Place} {x : Wait}

/-! ### Comparing a count (R504) -/

/-- The epoch tag is what stands above the count. -/
theorem sigEpoch_eq {v : Nat} (hv : v < 2 ^ 64) : sigEpoch v = v / 2 ^ 48 := by
  rw [sigEpoch, bits, Nat.shiftRight_eq_div_pow]
  exact Nat.mod_eq_of_lt (by omega)

/-- A count less a target modulo 2^48 is the distance by which the count has passed the target. -/
theorem sub_mod_lt_iff_exists_add {cnt tc : Nat} (hcnt : cnt < 2 ^ 48) (htc : tc < 2 ^ 48) :
    (cnt + 2 ^ 48 - tc) % 2 ^ 48 < 2 ^ 47 ↔ ∃ d, d < 2 ^ 47 ∧ (tc + d) % 2 ^ 48 = cnt := by
  constructor
  · intro h
    exact ⟨(cnt + 2 ^ 48 - tc) % 2 ^ 48, h, by omega⟩
  · rintro ⟨d, hd, hsum⟩
    omega

/-- Settles O21: the two conditions of R504 are the two tests that the bank makes. -/
theorem satisfactionOfATarget : Obligations.SatisfactionOfATarget := by
  intro w te tc hw hte htc
  have hcount : w % 2 ^ 48 < 2 ^ 48 := Nat.mod_lt _ (Nat.two_pow_pos 48)
  simp only [sigSatisfied, sigEpoch_eq hw, sigCount_eq, Bool.and_eq_true, Bool.or_eq_true, beq_iff_eq, decide_eq_true_eq,
    sub_mod_lt_iff_exists_add hcount htc]

/-! ### Updates of the waiting core -/

theorem modCore_becomes (f c : Nat) (s : State) (g : Core → Core) :
    CoreBecomes f c s (g (s.core f c)) (s.modCore f c g) :=
  ⟨onlyCore_modCore f c s g, State.core_modCore_same ..⟩

theorem advance_modCore_becomes (f c : Nat) (s : State) (g : Core → Core) :
    CoreBecomes f c s (g { s.core f c with pc := (s.core f c).pc + 1 }) ((s.advance f c).modCore f c g) :=
  ⟨(onlyCore_advance f c s).trans (onlyCore_modCore f c _ g), by rw [State.core_modCore_same, State.core_advance]⟩

theorem endWait_becomes (f c : Nat) (s : State) (x : Wait) (status : Nat) :
    CoreBecomes f c s { (s.core f c).setS x.sreg status with hold := .free } (s.endWait f c x status) :=
  modCore_becomes f c s _

/-! ### The issue of a WAIT (R232, R506, R507) -/

/-- What a WAIT with the word `w` holds issue with, when its signal word lies at `p` and its target pair is `target`: the first
evaluation is that of the one read at issue. -/
def State.waitAt (s : State) (f c : Nat) (w : Word64) (p : Place) (target : Nat) : Wait :=
  { inStore := p.inStore, off := p.off, te := bits target 63 48, tc := target % 2 ^ 48, sreg := bits (iFn w) 8 4, imm := iImm w,
    monitor := bit (iFn w) 1,
    sat := sigSatisfied (ofLE (s.rdPlace f c p 8)) (bits target 63 48) (target % 2 ^ 48) }

section
variable (h : s.Issues f c 0x6B w) (hp : effAddr f c (s.core f c) (iSpace w) (iA w) 0 8 8 true = .ok p)
include h hp

theorem exec_wait_holds
    (hrange : ¬(bit (ofLE (s.rdPlace f c p 8)) 63 = true ∧ 2 ^ 47 ≤ (s.core f c).pair (iB w) % 2 ^ 48)) :
    exec (.wait f c w) s = .next ((s.advance f c).modCore f c fun k =>
      { k with hold := .wait (s.waitAt f c w p ((s.core f c).pair (iB w))) }) := by
  refine (issue_next h).trans ?_
  simp only [hp, sigWord_sig, sigEpoch, sigCount_eq, if_neg hrange, State.waitAt]

theorem exec_wait_range
    (hrange : bit (ofLE (s.rdPlace f c p 8)) 63 = true ∧ 2 ^ 47 ≤ (s.core f c).pair (iB w) % 2 ^ 48) :
    exec (.wait f c w) s = .next ((s.sigLog f 3 1 (!p.inStore) (coreId f c) p.off).precise f c 0x6 0 0x6B) := by
  refine (issue_next h).trans ?_
  simp only [hp, sigWord_sig, sigCount_eq, if_pos hrange]

end

/-! ### The end of a WAIT (R507 to R510) -/

theorem waitWord_eq (s : State) (f c : Nat) (x : Wait) :
    s.waitWord f c x = ofLE (if x.inStore then s.rdStore f x.off 8 else s.rdScratch f c x.off 8) :=
  sigWord_sig s f c ⟨x.inStore, x.off⟩

section
variable (hf : f < 672) (hc : c < 120) (hx : (s.core f c).hold = .wait x)
include hf hc hx

theorem exec_waitPoll (hpoll : x.monitor = false) (hsat : sigSatisfied (s.waitWord f c x) x.te x.tc = true) :
    exec (.waitPoll f c) s = .next (s.modCore f c fun k => { k with hold := .wait { x with sat := true } }) := by
  show execWaitPoll f c s = _
  rw [execWaitPoll, onCore_next hf hc]
  simp only [hx, hpoll, hsat, Bool.not_false, Bool.and_self, if_true]

theorem exec_waitSatisfied (hsat : x.sat = true) : exec (.waitSatisfied f c) s = .next (s.endWait f c x stOk) := by
  show execWaitSatisfied f c s = _
  rw [execWaitSatisfied, onCore_next hf hc]
  simp only [hx, hsat, if_true]

theorem exec_waitExpiry (himm : x.imm ≠ 0) : exec (.waitExpiry f c) s = .next (s.endWait f c x stTimeout) := by
  show execWaitExpiry f c s = _
  rw [execWaitExpiry, onCore_next hf hc]
  simp only [hx, if_neg himm]

end

/-- Settles O22: an issuing WAIT reads its word once and then either is out of range or holds issue; each of the three ends
changes the waiting core alone. -/
theorem waitHoldsUntilSatisfiedOrExpired : Obligations.WaitHoldsUntilSatisfiedOrExpired := by
  intro s f c w p k v target
  refine ⟨fun h hp => ⟨fun hrange => ⟨_, exec_wait_holds h hp hrange, advance_modCore_becomes ..⟩, exec_wait_range h hp⟩,
    fun x hf hc hx => ⟨fun hpoll hsat => ?_, fun hsat => ?_, fun himm => ?_⟩⟩
  · rw [← waitWord_eq] at hsat
    exact ⟨_, exec_waitPoll hf hc hx hpoll hsat, modCore_becomes ..⟩
  · exact ⟨_, exec_waitSatisfied hf hc hx hsat, endWait_becomes ..⟩
  · exact ⟨_, exec_waitExpiry hf hc hx himm, endWait_becomes ..⟩

end Sys2Proof.Machine

/-! SUPPORT. The kiln's reads and writes of a flock store, the end of its jobs, and what these leave (R474, R530, R582, R706). -/

namespace Sys2Proof.Machine

variable {s t u : State} {a n g : Nat} {bs : List Byte} {c : Group} {j : KJob} {b : KBucket}

/-! ### Groups and running jobs -/

@[simp] theorem State.kgroup_modGroup_same (s : State) (g : Nat) (f : KGroup → KGroup) :
    (s.modGroup g f).kgroup g = f (s.kgroup g) := Sparse.get_set_same

@[simp] theorem State.kgroup_putKJob_same (s : State) (g : Nat) (j : KJob) : (s.putKJob g j).kgroup g = (s.kgroup g).put j :=
  s.kgroup_modGroup_same ..

theorem State.kgroup_congr (h : t.kiln = s.kiln) (g : Nat) : t.kgroup g = s.kgroup g := by rw [State.kgroup, h, State.kgroup]

@[simp] theorem State.modGroup_store (s : State) (g : Nat) (f : KGroup → KGroup) : (s.modGroup g f).store = s.store := rfl

theorem State.groupConf_congr (h : t.fold = s.fold) (g : Nat) : t.groupConf g = s.groupConf g := by
  rw [State.groupConf, h, State.groupConf]

theorem State.groupConf_num (h : s.groupConf g = some c) : c.num = g := by
  unfold State.groupConf at h
  split at h
  case h_1 => exact beq_iff_eq.1 (List.find?_some (p := fun c : Group => c.num == g) h)
  case h_2 => cases h

/-- The group of an aborted job keeps its SEQ as that of the last abort (R541). -/
theorem State.abortKJob_aborted (s : State) (c : Group) (j : KJob) (ab : KAbort) (addr : Nat) :
    ((s.abortKJob c j ab addr).kgroup c.num).aborted = j.seq := by
  unfold State.abortKJob
  rw [State.kgroup_modGroup_same]

theorem State.abortOwn_aborted (hconf : s.groupConf g = some c) (hrun : (s.kgroup g).running = some j) (cause : Nat) :
    ((s.abortOwn g cause).kgroup g).aborted = j.seq := by
  obtain rfl := State.groupConf_num hconf
  simp only [State.abortOwn, hconf, hrun]
  exact State.abortKJob_aborted ..

/-! ### What the mirror stream and refused accesses change outside the drover's registers -/

/-- `t` has the stacked memory of `s` and its registers outside the drover's block. -/
structure DroverOnly (s t : State) : Prop where
  dram : t.dram = s.dram
  reg : ∀ (r : Reg) (i j : Nat), r.row.block ≠ .drv → t.reg r i j = s.reg r i j

theorem DroverOnly.refl (s : State) : DroverOnly s s := ⟨rfl, fun _ _ _ _ => rfl⟩

theorem DroverOnly.trans (h : DroverOnly s t) (h' : DroverOnly t u) : DroverOnly s u :=
  ⟨h'.dram.trans h.dram, fun r i j hr => (h'.reg r i j hr).trans (h.reg r i j hr)⟩

theorem DroverOnly.ite {p : Prop} [Decidable p] (h : DroverOnly s t) (h' : DroverOnly s u) :
    DroverOnly s (if p then t else u) := by
  split
  · exact h
  · exact h'

theorem DroverOnly.fld (h : DroverOnly s t) {r : Reg} (hr : r.row.block ≠ .drv) (i j hi lo : Nat) :
    t.fld r i j hi lo = s.fld r i j hi lo := congrArg (bits · hi lo) (h.reg r i j hr)

/-- A step that leaves the registers and stacked memory alone. -/
theorem DroverOnly.same (hdram : t.dram = s.dram) (hregs : t.regs = s.regs) : DroverOnly s t :=
  ⟨hdram, fun r i j _ => by rw [State.reg, hregs, State.reg]⟩

theorem setReg_droverOnly {r : Reg} (h : r.row.block = .drv) (s : State) (i j v : Nat) : DroverOnly s (s.setReg r i j v) :=
  ⟨rfl, fun _ i' j' h' => s.reg_setReg_drv h (fun heq => h' (heq ▸ h :)) i' j' i j v⟩

theorem setFld_droverOnly {r : Reg} (h : r.row.block = .drv) (s : State) (i j hi lo v : Nat) :
    DroverOnly s (s.setFld r i j hi lo v) := setReg_droverOnly h ..

theorem record_droverOnly (s : State) (e : Evt) : DroverOnly s (s.record e) := by
  have h : DroverOnly s (if s.evtRecv then
      ({ s with eseq := (s.eseq + 1) % 2 ^ 16 } : State).emit (.event { e with eseq := s.eseq })
      else { s with eseq := (s.eseq + 1) % 2 ^ 16 }) := .ite (.same rfl rfl) (.same rfl rfl)
  exact .ite (h.trans (.same rfl rfl)) (h.trans (setFld_droverOnly rfl ..))

theorem event_droverOnly (s : State) (source kind loc detail addr : Nat) : DroverOnly s (s.event source kind loc detail addr) :=
  .ite (.same rfl rfl) (record_droverOnly ..)

theorem resetLog_droverOnly (s : State) (addr scope target source core : Nat) :
    DroverOnly s (s.resetLog addr scope target source core) :=
  .ite (setReg_droverOnly rfl ..) (((setReg_droverOnly rfl ..).trans (setReg_droverOnly rfl ..)).trans (event_droverOnly ..))

theorem mirrorRec_droverOnly (s : State) (a : Nat) (bs : List Byte) : DroverOnly s (s.mirrorRec a bs) :=
  .ite (.refl s) (.ite ((setFld_droverOnly rfl ..).trans (event_droverOnly ..)) (.same rfl rfl))

theorem mirrorWrite_droverOnly : ∀ (n : Nat) (s : State) (a : Nat) (bs : List Byte), DroverOnly s (s.mirrorWrite n a bs)
  | 0, s, _, _ => .refl s
  | n + 1, s, _, _ =>
    .ite (.refl s) ((DroverOnly.ite (.refl s) (mirrorRec_droverOnly ..)).trans (mirrorWrite_droverOnly n ..))

theorem mirrored_droverOnly (s : State) (a : Nat) (bs : List Byte) : DroverOnly s (s.mirrored a bs) := mirrorWrite_droverOnly ..

/-! ### Accesses of a flock store -/

/-- The parts that are being reset depend on the registers and the resets in progress. -/
theorem State.flockQuiet_congr (hregs : t.regs = s.regs) (hrst : t.rst = s.rst) : t.flockQuiet = s.flockQuiet := by
  funext f
  simp only [State.flockQuiet, State.pastureReady, State.rbit, State.reg, hregs, hrst]

theorem State.wrStoreAt_store (s : State) (a : Nat) (bs : List Byte) : (s.wrStoreAt a bs).store =
    Sparse.writeBytes s.store a bs := rfl

theorem wrStoreAt_droverOnly (s : State) (a : Nat) (bs : List Byte) : DroverOnly s (s.wrStoreAt a bs) := .same rfl rfl

theorem State.tryReadMem_store {r : StackReq} {rs : Nat} (hmem : memOf r.addr n = some .store)
    (hcalm : (flocksOf .store r.addr n).find? s.flockQuiet = none) :
    s.tryReadMem r rs n = (s, some (stOk, Sparse.readBytes s.store (r.addr - storeBase) n)) := by
  simp only [State.tryReadMem, hmem, hcalm, if_true]

theorem State.tryWriteMem_store {r : StackReq} (rs : Nat) (hmem : memOf r.addr bs.length = some .store)
    (hcalm : (flocksOf .store r.addr bs.length).find? s.flockQuiet = none) :
    s.tryWriteMem r rs bs = (s.wrStoreAt (r.addr - storeBase) bs, some stOk) := by
  simp only [State.tryWriteMem, hmem, hcalm, if_true]

/-- A flock that is being reset, or whose pasture is not ready, refuses the write. -/
theorem State.tryWriteMem_refused {r : StackReq} {f : Nat} (rs : Nat) (hmem : memOf r.addr bs.length = some .store)
    (hquiet : (flocksOf .store r.addr bs.length).find? s.flockQuiet = some f) :
    s.tryWriteMem r rs bs = (s.flockRefuses r rs f, some stTargetReset) := by
  simp only [State.tryWriteMem, hmem, hquiet]

theorem State.kilnReads_store {r : StackReq} (hmem : memOf a n = some .store)
    (hcalm : (flocksOf .store a n).find? s.flockQuiet = none) :
    s.kilnReads r [(a, n)] = (s, some (stOk, 0, [Sparse.readBytes s.store (a - storeBase) n])) := by
  have hready : s.kilnReady r [(a, n)] = (s, .go, 0) := by
    simp [State.kilnReady, hmem, Ready.and]
  have htake : s.kilnTake r [(a, n)] = (s, some (stOk, 0, [Sparse.readBytes s.store (a - storeBase) n])) := by
    by_cases hn : n = 0
    · simp [State.kilnTake, hn, Sparse.readBytes]
    · have hread := State.tryReadMem_store (s := s) (r := { r with addr := a }) (rs := 0x1) hmem hcalm
      simp [State.kilnTake, hn, hread]
  simp only [State.kilnReads, hready, htake]

/-! ### Writes of the kiln into a flock store -/

theorem State.kilnPut_calm (hmem : memOf a bs.length = some .store)
    (hcalm : (flocksOf .store a bs.length).find? s.flockQuiet = none) :
    s.kilnPut a bs = (s.wrStoreAt (a - storeBase) bs).mirrored a bs := by
  rw [State.kilnPut, State.tryWriteMem_store (r := kSubReq a) 0x1 hmem hcalm]
  rfl

theorem State.kilnPut_refused {f : Nat} (hmem : memOf a bs.length = some .store)
    (hquiet : (flocksOf .store a bs.length).find? s.flockQuiet = some f) :
    s.kilnPut a bs = s.flockRefuses (kSubReq a) 0x1 f := by
  rw [State.kilnPut, State.tryWriteMem_refused (r := kSubReq a) 0x1 hmem hquiet]
  rfl

section
variable (hlen : bs.length = n) (hmem : memOf a n = some .store)
include hlen hmem

/-- What the kiln wrote is read back. -/
theorem State.readBytes_kilnPut (hcalm : (flocksOf .store a n).find? s.flockQuiet = none) :
    Sparse.readBytes (s.kilnPut a bs).store (a - storeBase) n = bs := by
  subst hlen
  rw [State.kilnPut_calm hmem hcalm, (mirrored_memOnly ..).store, State.wrStoreAt_store, Sparse.readBytes_writeBytes]

theorem State.kilnPut_kiln : (s.kilnPut a bs).kiln = s.kiln := by
  subst hlen
  cases hquiet : (flocksOf .store a bs.length).find? s.flockQuiet with
  | none => rw [State.kilnPut_calm hmem hquiet, (mirrored_memOnly ..).kiln]; rfl
  | some f => rw [State.kilnPut_refused hmem hquiet, State.flockRefuses, (resetLog_logOnly ..).kiln]

theorem kilnPut_droverOnly (s : State) : DroverOnly s (s.kilnPut a bs) := by
  subst hlen
  cases hquiet : (flocksOf .store a bs.length).find? s.flockQuiet with
  | none => exact State.kilnPut_calm hmem hquiet ▸ (wrStoreAt_droverOnly ..).trans (mirrored_droverOnly ..)
  | some f => exact State.kilnPut_refused hmem hquiet ▸ resetLog_droverOnly ..

end

theorem State.kilnComplete_zero (s : State) (g seq addr : Nat) : s.kilnComplete 0 g seq addr = s := rfl

/-! ### Requests that are dropped -/

/-- `t` has the registers of `s`, and every request in an entry of a stack of `t` is one of `s`, for the same access. -/
structure NoNewEntries (s t : State) : Prop where
  regs : t.regs = s.regs
  ents : ∀ i, ∀ e ∈ (t.stk i).ents, ∃ e' ∈ (s.stk i).ents, e'.acc = e.acc ∧ e'.req = e.req

theorem NoNewEntries.same (hregs : t.regs = s.regs) (hstks : t.stks = s.stks) : NoNewEntries s t where
  regs := hregs
  ents i e he := ⟨e, by rwa [State.stk, ← hstks], rfl, rfl⟩

theorem NoNewEntries.trans (h : NoNewEntries s t) (h' : NoNewEntries t u) : NoNewEntries s u where
  regs := h'.regs.trans h.regs
  ents i e he := by
    obtain ⟨e', he', hacc', hreq'⟩ := h'.ents i e he
    obtain ⟨e'', he'', hacc, hreq⟩ := h.ents i e' he'
    exact ⟨e'', he'', hacc.trans hacc', hreq.trans hreq'⟩

section
variable {f : Stk → Stk} (h : ∀ k : Stk, ∀ e ∈ (f k).ents, ∃ e' ∈ k.ents, e'.acc = e.acc ∧ e'.req = e.req)
include h

theorem modStk_noNewEntries (s : State) (i : Nat) : NoNewEntries s (s.modStk i f) where
  regs := rfl
  ents i' e he := by
    by_cases hi : i' = i
    · rw [hi, State.stk_modStk_same] at he
      exact hi ▸ h _ e he
    · have hstk : (s.modStk i f).stk i' = s.stk i' := Sparse.get_set_ne hi
      exact ⟨e, hstk ▸ he, rfl, rfl⟩

theorem foldl_modStk_noNewEntries (is : List Nat) (s : State) :
    NoNewEntries s (is.foldl (fun s i => s.modStk i f) s) := by
  induction is generalizing s with
  | nil => exact .same rfl rfl
  | cons i is ih => exact (modStk_noNewEntries h s i).trans (ih _)

end

theorem setNi_noNewEntries (s : State) (n : Ni) : NoNewEntries s (s.setNi n) := .same rfl rfl

theorem leaveSnoops_noNewEntries (s : State) (p : Snoop → Bool) (q : StackReq → Bool) : NoNewEntries s (s.leaveSnoops p q) :=
  .same rfl rfl

theorem dropUnits_noNewEntries (s : State) (sel : StackReq → Bool) (owner : StkOwner) :
    NoNewEntries s (s.dropUnits sel owner) := by
  unfold State.dropUnits
  dsimp only
  refine NoNewEntries.trans ?_ (setNi_noNewEntries ..)
  refine (leaveSnoops_noNewEntries ..).trans (foldl_modStk_noNewEntries (fun k e he => ?_) ..)
  obtain ⟨e', he', rfl⟩ := List.mem_map.1 he
  refine ⟨e', List.mem_of_mem_filter he', ?_⟩
  split <;> exact ⟨rfl, rfl⟩

/-- A job whose DST writes no gate holds has none after some requests are dropped. -/
theorem NoNewEntries.kilnHolds {seq : Nat} (h : NoNewEntries s t) (hs : s.kilnHolds g seq = false) :
    t.kilnHolds g seq = false := by
  simp only [State.kilnHolds, List.any_eq_false] at hs ⊢
  intro i hi hany
  obtain ⟨e, he, hbad⟩ := List.any_eq_true.1 hany
  obtain ⟨e', he', hacc, hreq⟩ := h.ents i e he
  refine hs i hi (List.any_eq_true.2 ⟨e', he', ?_⟩)
  rw [hacc, hreq]
  exact hbad

/-! ### The end of a bucket (R530, R582) -/

/-- What a scattered range leaves. -/
theorem State.scatter_rest (s : State) (a n : Nat) :
    (s.scatter a n).kiln = s.kiln ∧ (s.scatter a n).regs = s.regs ∧ (s.scatter a n).rst = s.rst := by
  unfold State.scatter
  dsimp only
  split
  case h_1 | h_4 => exact ⟨rfl, rfl, rfl⟩
  case h_2 | h_3 => split <;> exact ⟨rfl, rfl, rfl⟩

/-- The state in which the descriptor of an ended job is written: DST of one that did not end with OK may hold any value. -/
def State.leaveDst (s : State) (e : KEnd) : State :=
  if e.status = stOk then s else s.scatter e.job.dst (e.job.dstBytes e.m)

theorem State.leaveDst_rest (s : State) (e : KEnd) :
    (s.leaveDst e).kiln = s.kiln ∧ (s.leaveDst e).regs = s.regs ∧ (s.leaveDst e).rst = s.rst := by
  unfold State.leaveDst
  split
  · exact ⟨rfl, rfl, rfl⟩
  · exact State.scatter_rest ..

theorem State.writeEnd_bucket {e : KEnd} (hb : e.job.bucket = some b) (hcomp : e.job.comp = 0) (sealed : Bool) :
    s.writeEnd e sealed =
      (s.leaveDst e).kilnPut (e.job.addr + 64) (e.job.bucketTail b e.m e.status e.ab sealed e.peak) := by
  simp only [State.writeEnd, hb, hcomp, State.kilnComplete_zero, State.leaveDst]

theorem KJob.bucketTail_length (j : KJob) (b : KBucket) (m status : Nat) (ab : KAbort) (sealed : Bool) (peak : Int) :
    (j.bucketTail b m status ab sealed peak).length = 32 := by
  simp only [KJob.bucketTail, List.length_append, leBytes_length]

/-- A bucket that ends leaves its group, and its descriptor says how, when no gate holds its writes and the descriptor can be
written. -/
theorem State.endKJob_bucket {e : KEnd} (hb : e.job.bucket = some b) (hcomp : e.job.comp = 0)
    (hholds : s.kilnHolds e.group e.job.seq = false) (hmem : memOf (e.job.addr + 64) 32 = some .store)
    (hcalm : (flocksOf .store (e.job.addr + 64) 32).find? s.flockQuiet = none) (sealed : Bool) :
    ((s.endKJob e sealed).kgroup e.group).jobs = (s.kgroup e.group).jobs.filter (fun x => x.seq != e.job.seq) ∧
      Sparse.readBytes (s.endKJob e sealed).store (e.job.addr + 64 - storeBase) 32 =
        e.job.bucketTail b e.m e.status e.ab sealed e.peak := by
  have hdrop := dropUnits_memOnly s (kMine e.group e.job.seq) .none
  obtain ⟨hkiln, hregs, hrst⟩ := (s.dropUnits (kMine e.group e.job.seq) .none).leaveDst_rest e
  have hless := dropUnits_noNewEntries s (kMine e.group e.job.seq) .none
  have hquiet := State.flockQuiet_congr (hregs.trans hless.regs) (hrst.trans hdrop.rst)
  have hlen := e.job.bucketTail_length b e.m e.status e.ab sealed e.peak
  rw [← hquiet] at hcalm
  simp only [State.endKJob, hless.kilnHolds hholds, Bool.false_eq_true, if_false, State.writeEnd_bucket hb hcomp,
    State.kgroup_modGroup_same, State.modGroup_store]
  refine ⟨?jobs, State.readBytes_kilnPut hlen hmem hcalm⟩
  case jobs => rw [State.kgroup_congr ((State.kilnPut_kiln hlen hmem).trans (hkiln.trans hdrop.kiln))]

end Sys2Proof.Machine

/-! SUPPORT. Buckets and redeliveries (R560 to R563, R571 to R574, R579 to R587). -/

namespace Sys2Proof.Machine

variable {s t : State} {g : Nat} {c : Group} {j : KJob} {b : KBucket}

/-! ### The commands of a running bucket -/

/-- The seals of all members agree: none reports a failed verification, and the greatest digest and the greatest
negated digest cancel (R581). -/
def KChunk.sealsAgree (k : KChunk) : Bool :=
  (k.elems[1]?).getD 0 == 0 && ((k.elems[2]?).getD 0 + (k.elems[3]?).getD 0) % 2 ^ 64 == 0

/-- How a bucket ends after its seal exchange. -/
def KJob.sealEnd (j : KJob) (g m : Nat) (k : KChunk) : KEnd :=
  { group := g, m := m, job := j, status := if k.sealsAgree then stOk else stChecksumFault, ab := KAbort.none,
    peak := sext 64 ((k.elems[0]?).getD 0) }

section
variable (hg : g < 64) (hconf : s.groupConf g = some c) (hrun : (s.kgroup g).running = some j) (hb : j.bucket = some b)
include hconf hrun hb

/-- A row that a chunk has room for is taken from its core; a row with another G aborts the bucket (R560 to R563, R572). -/
theorem exec_channelRowAccept {x : Chan} {f k n : Nat} {r : GradRow} (hch : b.chan < 16) (hchan : s.chanConf b.chan = some x)
    (hx : x.group = g) (hoff : s.offered b = some (f, k, n, r))
    (hroom : b.fed.length / j.chunkE c.members.length (s.resvOf c).bytes <
      b.lowOpen (j.nchunks c.members.length (s.resvOf c).bytes) + 2) :
    exec (.channelRowAccept b.chan) s = .next (
      if r.g = bkG j.raw then (s.modCore f k Core.gradTaken).putKJob g { j with bucket := some (b.accept r n) }
      else (s.modCore f k Core.gradTaken).abortOwn g 0xA) := by
  obtain rfl := State.groupConf_num hconf
  have hexec : exec (.channelRowAccept b.chan) s = execChannelRowAccept b.chan s := rfl
  rw [hexec, execChannelRowAccept, inRange_next hch]
  simp only [hchan, Option.bind_some, hx, hconf, hrun, hb, hoff, ne_eq, not_true_eq_false, false_or, if_neg (Nat.not_le.2 hroom),
    ite_not]

include hg

/-- The result of a chunk is kept and written (R571). -/
theorem exec_chunkComplete {k : KChunk} {s1 : State} {a : Nat} (hk : j.chunk k.idx false = some k) (hstage : k.stage = .storing)
    (hidx : k.idx ≠ sealIdx)
    (hstore : s.bump.kilnStore (kReq g j.seq k.idx 0)
      ((j.keep k (bit s.freeVal.toNat 0)).sealEntries c.members.length (s.resvOf c).bytes k.idx ++
        balePieces ((k.elems.flatMap j.outBytes).length / 4096 + 2)
          (bkDst j.raw + k.idx * j.chunkE c.members.length (s.resvOf c).bytes * bkElem j.raw) (k.elems.flatMap j.outBytes)) =
      (s1, some (stOk, a))) :
    exec (.chunkComplete g k.idx) s =
      .next ((s1.countOverflow g j.seq k.ovf).putKJob g (j.keep k (bit s.freeVal.toNat 0))) := by
  obtain rfl := State.groupConf_num hconf
  have hexec : exec (.chunkComplete c.num k.idx) s = execChunkComplete c.num k.idx s := rfl
  rw [hexec, execChunkComplete, inRange_next hg]
  simp only [hconf, hrun, hk, hb, Option.isSome_some, hstage, hidx, ne_eq, not_false_eq_true, and_self, if_true,
    State.completeChunk, hstore, not_true_eq_false, if_false]

omit hconf in
/-- Both results of a sampled chunk are compared, and the verification path ends (R579). -/
theorem exec_verifyCompare {v : KChunk} {xs : List Nat} (hv : j.chunk v.idx true = some v) (hstage : v.stage = .storing)
    (hkept : b.kept.find? (fun x => x.1 == v.idx) = some (v.idx, xs)) :
    exec (.verifyCompare g v.idx) s = .next (s.putKJob g
      { j.dropChunk v with bucket := some { b with flags := b.flags ||| (if xs = v.elems then 4 else 8) } }) := by
  have hexec : exec (.verifyCompare g v.idx) s = execVerifyCompare g v.idx s := rfl
  rw [hexec, execVerifyCompare, inRange_next hg]
  simp only [hrun, hb, hv, hkept, hstage, ne_eq, not_true_eq_false, if_false]

/-- Once every chunk has ended, the block with the CRC of the seal table enters its exchange (R580). -/
theorem exec_sealExchangeStart (hended : j.nchunks c.members.length (s.resvOf c).bytes ≤ j.ended) (hchunks : j.chunks = [])
    (hmem : memOf (bkSeal j.raw) (4 * bkBales j.raw) = some .store)
    (hcalm : (flocksOf .store (bkSeal j.raw) (4 * bkBales j.raw)).find? s.flockQuiet = none) :
    exec (.sealExchangeStart g) s = .next (s.putKJob g { j with chunks := [j.enter (j.mkChunk c sealIdx 8 false
      (b.block (crc32c (Sparse.readBytes s.store (bkSeal j.raw - storeBase) (4 * bkBales j.raw)))) .loading)] }) := by
  have hexec : exec (.sealExchangeStart g) s = execSealExchangeStart g s := rfl
  rw [hexec, execSealExchangeStart, inRange_next hg]
  simp only [hconf, hrun, hb, Nat.not_lt.2 hended, hchunks, ne_eq, not_true_eq_false, or_self, if_false,
    State.kilnReads_store hmem hcalm, List.flatten_cons, List.flatten_nil, List.append_nil]

omit hb in
/-- The bucket ends with what the seal exchange brought (R581). -/
theorem exec_bucketSeal {k : KChunk} (hk : j.chunk sealIdx false = some k) (hstage : k.stage = .storing)
    (hkept : s.keptInUse j.addr = false) :
    exec (.bucketSeal g) s = .next (s.endKJob (j.sealEnd g c.members.length k) k.sealsAgree) := by
  have hexec : exec (.bucketSeal g) s = execBucketSeal g s := rfl
  rw [hexec, execBucketSeal, inRange_next hg]
  simp only [hconf, hrun, hk, hstage, hkept, ne_eq, not_true_eq_false, Bool.false_eq_true, or_self, if_false]
  rfl

end

/-! ### Redeliveries (R583 to R587) -/

section
variable {r : Redel}

theorem exec_redeliveryEnd (hredel : s.kiln.redel = [r]) (hconf : s.groupConf r.group = some c) :
    exec (.redeliveryEnd 0) s = .next (s.redeliver c r.id (rdBales r.raw * (c.members.length + 1) + 2)) := by
  have hexec : exec (.redeliveryEnd 0) s = execRedeliveryEnd 0 s := rfl
  simp only [hexec, execRedeliveryEnd, hredel, List.getElem?_cons_zero, hconf]

theorem State.putRedel_redel {r' : Redel} (h : s.kiln.redel = [r]) (hid : r.id = r'.id) : (s.putRedel r').kiln.redel = [r'] := by
  simp [State.putRedel, setKiln_kiln, h, hid]

theorem putRedel_droverOnly (s : State) (r : Redel) : DroverOnly s (s.putRedel r) := .same rfl rfl
theorem dropRedel_droverOnly (s : State) (id : Nat) : DroverOnly s (s.dropRedel id) := .same rfl rfl

theorem State.dropRedel_redel (h : s.kiln.redel = [r]) : (s.dropRedel r.id).kiln.redel = [] := by
  simp [State.dropRedel, setKiln_kiln, h]

/-- A redelivery whose bales are done ends. -/
theorem State.redeliver_done (hredel : s.kiln.redel = [r]) (hdone : rdBales r.raw ≤ r.done) (fuel : Nat) :
    s.redeliver c r.id (fuel + 1) = s.endRedel c r := by
  simp [State.redeliver, hredel, hdone]

/-- A redelivery whose step goes on takes the next one. -/
theorem State.redeliver_step (hredel : s.kiln.redel = [r]) (hstat : r.stat = stOk) (hdone : r.done < rdBales r.raw)
    (hstep : s.redelStep c r = (t, true)) (fuel : Nat) : s.redeliver c r.id (fuel + 1) = t.redeliver c r.id fuel := by
  simp [State.redeliver, hredel, hstat, Nat.not_le.2 hdone, hstep]

/-- Bytes 32 to 39 of the descriptor of a redelivery that the retained copy has served in full (Table 14.5). -/
def Redel.okTail (r : Redel) : List Byte := leBytes 1 0x80 ++ leBytes 3 0 ++ leBytes 4 r.done

theorem Redel.okTail_length (r : Redel) : r.okTail.length = 8 := rfl

theorem State.endRedel_kept (hstat : r.stat = stOk) (hpeer : r.peer = 0) (hcomp : rdComp r.raw = 0) :
    s.endRedel c r = (s.kilnPut (r.addr + 32) r.okTail).dropRedel r.id := by
  simp only [State.endRedel, hstat, hpeer, hcomp, State.kilnComplete_zero, if_true]
  rfl

/-- The redelivery after its current bale has been written. -/
def Redel.next (r : Redel) : Redel :=
  { r with done := r.done + 1, peer := if r.done + 1 < rdBales r.raw then min r.peer 1 else r.peer, got := [], asked := false }

/-- A counter that stops at all ones. -/
theorem State.fld_incFld_same (s : State) (r : Reg) (i j : Nat) {hi lo : Nat} (h : hi < 64) :
    (s.incFld r i j hi lo).fld r i j hi lo = min (s.fld r i j hi lo + 1) (2 ^ (hi + 1 - lo) - 1) := by
  have hlt : satInc (hi + 1 - lo) (s.fld r i j hi lo) < 2 ^ (hi + 1 - lo) :=
    Nat.lt_of_le_of_lt (Nat.min_le_right ..) (Nat.sub_one_lt (Nat.two_pow_pos _).ne')
  rw [State.incFld, State.fld_setFld_same _ _ _ _ _ _ _ h, Nat.mod_eq_of_lt hlt, satInc]

/-- What follows the write of a bale `bs`: it is mirrored and counted, and the redelivery moves on. -/
def State.baleWritten (s : State) (r : Redel) (bs : List Byte) : State :=
  ((s.mirrored r.addrOf bs).incFld .klnRedelivery 0 0 63 32).putRedel r.next

theorem State.baleWritten_redel (h : s.kiln.redel = [r]) (bs : List Byte) : (s.baleWritten r bs).kiln.redel = [r.next] :=
  State.putRedel_redel ((congrArg Kiln.redel (mirrored_memOnly s r.addrOf bs).kiln).trans h) rfl

theorem State.baleWritten_dram (s : State) (r : Redel) (bs : List Byte) : (s.baleWritten r bs).dram = s.dram :=
  (putRedel_droverOnly ..).dram.trans ((State.incFld_dram ..).trans (mirrored_droverOnly ..).dram)

/-- The count of the bales written rises by one (R587). -/
theorem State.baleWritten_count (s : State) (r : Redel) (bs : List Byte) :
    (s.baleWritten r bs).fld .klnRedelivery 0 0 63 32 = min (s.fld .klnRedelivery 0 0 63 32 + 1) (2 ^ 32 - 1) := by
  have hblock : Reg.klnRedelivery.row.block ≠ .drv := by decide
  rw [State.baleWritten, (putRedel_droverOnly ..).fld hblock, State.fld_incFld_same _ _ _ _ (by decide),
    (mirrored_droverOnly ..).fld hblock]

/-- The request for a bale changes no more than an access of stacked memory. -/
theorem memOnly_of_tryWriteBale {q : StackReq} {tag st : Option Nat} {bs : List Byte} (h : s.tryWriteBale q tag bs = (t, st)) :
    MemOnly s t := by
  have hmem := tryWriteBale_memOnly s q tag bs
  rwa [h] at hmem

/-- A whole bale is written from the retained copy, mirrored and counted (R585, R587). -/
theorem State.redelStep_kept {bs : List Byte} (hpeer : r.peer = 0) (hrun : s.runningBucket r.group (rdBucket r.raw) = some j)
    (hlen : r.len = 4096) (hbs : j.resultBytes c.members.length (s.resvOf c).bytes (r.bale * 4096) 4096 = bs)
    (hwrite : s.tryWriteBale (r.req r.addrOf) none bs = (t, some stOk)) :
    s.redelStep c r = (t.baleWritten r bs, true) := by
  simp only [State.baleWritten, State.redelStep, hpeer, hrun, State.rewrite, hlen, hbs, hwrite, ne_eq,
    not_true_eq_false, if_true, if_false, Redel.next]

section
variable (hstat : r.stat = stOk) (hpeer : r.peer = 0) (hcomp : rdComp r.raw = 0) (hmem : memOf (r.addr + 32) 8 = some .store)
include hstat hpeer hcomp hmem

theorem State.endRedel_redel (hredel : s.kiln.redel = [r]) : (s.endRedel c r).kiln.redel = [] := by
  rw [State.endRedel_kept hstat hpeer hcomp]
  exact State.dropRedel_redel ((congrArg Kiln.redel (State.kilnPut_kiln r.okTail_length hmem)).trans hredel)

theorem endRedel_droverOnly (s : State) (c : Group) : DroverOnly s (s.endRedel c r) := by
  rw [State.endRedel_kept hstat hpeer hcomp]
  exact (kilnPut_droverOnly r.okTail_length hmem s).trans (dropRedel_droverOnly ..)

theorem State.readBytes_endRedel (hcalm : (flocksOf .store (r.addr + 32) 8).find? s.flockQuiet = none) :
    Sparse.readBytes (s.endRedel c r).store (r.addr + 32 - storeBase) 8 = r.okTail := by
  rw [State.endRedel_kept hstat hpeer hcomp]
  exact State.readBytes_kilnPut r.okTail_length hmem hcalm

/-- The last bale is written from the retained copy, and the redelivery is over. -/
theorem redeliveryEnd_lastBale {bs : List Byte} (hredel : s.kiln.redel = [r]) (hconf : s.groupConf r.group = some c)
    (hlast : r.done + 1 = rdBales r.raw) (hrun : s.runningBucket r.group (rdBucket r.raw) = some j) (hlen : r.len = 4096)
    (hbs : j.resultBytes c.members.length (s.resvOf c).bytes (r.bale * 4096) 4096 = bs)
    (hwrite : s.tryWriteBale (r.req r.addrOf) none bs = (t, some stOk)) :
    ∃ u, exec (.redeliveryEnd 0) s = .next u ∧ u.kiln.redel = [] ∧ u.dram = t.dram ∧
      u.fld .klnRedelivery 0 0 63 32 = min (t.fld .klnRedelivery 0 0 63 32 + 1) (2 ^ 32 - 1) := by
  have hredel' : t.kiln.redel = [r] := (congrArg Kiln.redel (memOnly_of_tryWriteBale hwrite).kiln).trans hredel
  have hnext := State.baleWritten_redel hredel' bs
  have hpeer' : r.next.peer = 0 := by simp [Redel.next, hpeer]
  have hstep := State.redelStep_kept hpeer hrun hlen hbs hwrite
  have hend := endRedel_droverOnly (r := r.next) hstat hpeer' hcomp hmem (t.baleWritten r bs) c
  have hover (fuel : Nat) : s.redeliver c r.id (fuel + 2) = (t.baleWritten r bs).endRedel c r.next :=
    (State.redeliver_step hredel hstat (hlast ▸ r.done.lt_succ_self) hstep _).trans (State.redeliver_done hnext hlast.ge fuel)
  refine ⟨_, (exec_redeliveryEnd hredel hconf).trans (congrArg _ (hover _)),
    State.endRedel_redel hstat hpeer' hcomp hmem hnext, hend.dram.trans (t.baleWritten_dram r bs), ?_⟩
  exact (hend.fld (by decide) ..).trans (t.baleWritten_count r bs)

end
end

/-- Settles O51: each command of a running bucket has one form under its clause's hypotheses; the end of a bucket and of a
redelivery writes its descriptor in a flock store, and nothing after the write changes what stands there. -/
theorem bucketsAndRedeliveries : Obligations.BucketsAndRedeliveries := by
  refine ⟨fun s g c j b hg hconf hrun hb => ⟨?row, ?chunk, ?verify, ?exchange, ?sealing⟩,
    fun s r c hredel hconf hstat hcomp hmem hcalm =>
      ⟨fun hdone hpeer => ?done, fun j s1 hlast hpeer hrun hlen hwrite => ?bale⟩⟩
  case row =>
    intro x f k n r hch hchan hx hoff hroom
    have hexec := exec_channelRowAccept hconf hrun hb hch hchan hx hoff hroom
    refine ⟨fun hG => ⟨_, hexec, ?_⟩, fun hG => ⟨_, hexec, ?_⟩⟩
    · rw [if_pos hG]
      exact ⟨rfl, s.core_modCore_same .., State.kgroup_putKJob_same ..⟩
    · have hconf' := (State.groupConf_congr (s.modCore_fold f k Core.gradTaken) g).trans hconf
      have hkgroup := State.kgroup_congr (s.modCore_kiln f k Core.gradTaken) g
      rw [if_neg hG]
      exact State.abortOwn_aborted hconf' (hkgroup ▸ hrun) _
  case chunk =>
    intro k s1 a hk hstage hidx result other writes hstore
    exact exec_chunkComplete hg hconf hrun hb hk hstage hidx hstore
  case verify =>
    intro v xs hv hstage hkept
    exact ⟨_, exec_verifyCompare hg hrun hb hv hstage hkept, rfl, State.kgroup_putKJob_same ..⟩
  case exchange =>
    intro hended hchunks hcalm
    obtain ⟨hmem, hcalm⟩ := hcalm
    exact ⟨_, exec_sealExchangeStart hg hconf hrun hb hended hchunks hmem hcalm, rfl, State.kgroup_putKJob_same ..⟩
  case sealing =>
    intro k hk hstage hkept hcomp hholds hcalm el ok
    obtain ⟨hmem, hcalm⟩ := hcalm
    exact ⟨_, exec_bucketSeal hg hconf hrun hk hstage hkept,
      State.endKJob_bucket (e := j.sealEnd g c.members.length k) hb hcomp hholds hmem hcalm k.sealsAgree⟩
  case done =>
    refine ⟨_, exec_redeliveryEnd hredel hconf, ?_⟩
    rw [State.redeliver_done hredel hdone]
    exact ⟨State.endRedel_redel hstat hpeer hcomp hmem hredel, State.readBytes_endRedel hstat hpeer hcomp hmem hcalm⟩
  case bale => exact redeliveryEnd_lastBale hstat hpeer hcomp hmem hredel hconf hlast hrun hlen rfl hwrite

end Sys2Proof.Machine

/-! SUPPORT. What the publication of the thermal model, its events and a trip write, and what they leave (R664 to R680): every
register outside the few that each step writes, and the power state while the model publishes. -/

namespace Sys2Proof.Machine

variable {s t u : State} {w : Set Nat}

/-! ### Registers outside a set of addresses -/

/-- Every register at an address outside `w` reads in `t` as in `s`. -/
structure RegsOutside (w : Set Nat) (s t : State) : Prop where
  reg : ∀ (r : Reg) (i j : Nat), r.addr i j ∉ w → t.reg r i j = s.reg r i j

theorem RegsOutside.of_regs (h : t.regs = s.regs) : RegsOutside w s t :=
  ⟨fun r i j _ => by rw [State.reg, h, State.reg]⟩

theorem RegsOutside.refl (s : State) : RegsOutside w s s := .of_regs rfl

theorem RegsOutside.trans (h : RegsOutside w s t) (h' : RegsOutside w t u) : RegsOutside w s u :=
  ⟨fun r i j hr => (h'.reg r i j hr).trans (h.reg r i j hr)⟩

theorem RegsOutside.ite {p : Prop} [Decidable p] (h : RegsOutside w s t) (h' : RegsOutside w s u) :
    RegsOutside w s (if p then t else u) := by
  split
  · exact h
  · exact h'

theorem RegsOutside.foldl {α : Type} {g : State → α → State} {l : List α} (h : ∀ s, ∀ x ∈ l, RegsOutside w s (g s x))
    (s : State) : RegsOutside w s (l.foldl g s) :=
  List.foldlRecOn l g (.refl s) fun _ hb x hx => hb.trans (h _ x hx)

theorem setReg_outside {r : Reg} {i j : Nat} (h : r.addr i j ∈ w) (s : State) (v : Nat) : RegsOutside w s (s.setReg r i j v) :=
  ⟨fun r' i' j' hr => s.reg_setReg_ne r r' i j i' j' v fun heq => hr (heq ▸ h)⟩

theorem setFld_outside {r : Reg} {i j : Nat} (h : r.addr i j ∈ w) (s : State) (hi lo v : Nat) :
    RegsOutside w s (s.setFld r i j hi lo v) := setReg_outside h ..

theorem setFld_outside_self (s : State) (r : Reg) (i j hi lo v : Nat) : RegsOutside {r.addr i j} s (s.setFld r i j hi lo v) :=
  setFld_outside (Set.mem_singleton _) ..

theorem setRbit_outside_self (s : State) (r : Reg) (i j b : Nat) (v : Bool) : RegsOutside {r.addr i j} s (s.setRbit r i j b v) :=
  setFld_outside_self ..

theorem setRbit_outside {r : Reg} {i j : Nat} (h : r.addr i j ∈ w) (s : State) (b : Nat) (v : Bool) :
    RegsOutside w s (s.setRbit r i j b v) := setFld_outside h ..

theorem RegsOutside.fld (h : RegsOutside w s t) {r : Reg} {i j : Nat} (hr : r.addr i j ∉ w) (hi lo : Nat) :
    t.fld r i j hi lo = s.fld r i j hi lo := congrArg (bits · hi lo) (h.reg r i j hr)

theorem RegsOutside.rbit (h : RegsOutside w s t) {r : Reg} {i j : Nat} (hr : r.addr i j ∉ w) (b : Nat) :
    t.rbit r i j b = s.rbit r i j b := congrArg (bit · b) (h.reg r i j hr)

/-! ### Bits of a written field -/

/-- A bit is a field of width 1. -/
theorem State.rbit_eq_fld (s : State) (r : Reg) (i j b : Nat) : s.rbit r i j b = (s.fld r i j b b).testBit 0 :=
  bit_eq_testBit_bits ..

/-- A bit beside a written field stays. -/
theorem State.rbit_setFld_ne (s : State) (r : Reg) (i j : Nat) {hi lo b : Nat} (v : Nat) (h : hi < 64) (hb : b < lo ∨ hi < b) :
    (s.setFld r i j hi lo v).rbit r i j b = s.rbit r i j b := by
  rw [State.rbit_eq_fld, s.fld_setFld_ne r i j hi lo b b v h hb, ← State.rbit_eq_fld]

/-- A bit of a written field is the value's. -/
theorem State.rbit_setFld_mem (s : State) (r : Reg) (i j : Nat) {hi lo b : Nat} (v : Nat) (h : hi < 64)
    (hb : lo ≤ b ∧ b < hi + 1) : (s.setFld r i j hi lo v).rbit r i j b = bit v (b - lo) := by
  simp only [State.rbit, State.setFld, State.reg_setReg_same, bit]
  rw [Nat.mod_eq_of_lt (setBits_lt _ _ _ _ _ (s.reg_lt r i j) h), setBits_testBit, if_pos hb]

/-! ### Where the registers stand (Tables 1.8, 7.8, 17.6 to 17.12) -/

@[simp] theorem Reg.addr_drvReady (i j : Nat) : Reg.drvReady.addr i j = 0x030000000200 := by simp [Reg.addr, Reg.row, Block.base]
@[simp] theorem Reg.addr_drvEvtStatus (i j : Nat) : Reg.drvEvtStatus.addr i j = 0x030000000318 := by
  simp [Reg.addr, Reg.row, Block.base]
@[simp] theorem Reg.addr_thmStatus (i j : Nat) : Reg.thmStatus.addr i j = 0x030000100000 := by
  simp [Reg.addr, Reg.row, Block.base]
@[simp] theorem Reg.addr_thmCfg (i j : Nat) : Reg.thmCfg.addr i j = 0x030000100008 := by simp [Reg.addr, Reg.row, Block.base]
@[simp] theorem Reg.addr_thmEvent (i j : Nat) : Reg.thmEvent.addr i j = 0x030000100018 := by simp [Reg.addr, Reg.row, Block.base]
@[simp] theorem Reg.addr_thmPas (i j : Nat) : Reg.thmPas.addr i j = 0x030000100100 + j * 8 := by
  simp [Reg.addr, Reg.row, Block.base]
@[simp] theorem Reg.addr_thmStk (i j : Nat) : Reg.thmStk.addr i j = 0x030000100200 + j * 8 := by
  simp [Reg.addr, Reg.row, Block.base]
@[simp] theorem Reg.addr_stkStatus (i j : Nat) : Reg.stkStatus.addr i j = 0x030020000000 + i * 0x100000 := by
  simp [Reg.addr, Reg.row, Block.base]

/-! ### The power state and the settings -/

/-- `t` has the power state of the thermal model of `s`, and its settings. -/
structure KeepsMode (s t : State) : Prop where
  tripped : t.tripped = s.tripped
  power : t.fld .thmStatus 0 0 62 61 = s.fld .thmStatus 0 0 62 61
  cfg : t.reg .thmCfg 0 0 = s.reg .thmCfg 0 0

theorem KeepsMode.refl (s : State) : KeepsMode s s := ⟨rfl, rfl, rfl⟩

theorem KeepsMode.trans (h : KeepsMode s t) (h' : KeepsMode t u) : KeepsMode s u :=
  ⟨h'.tripped.trans h.tripped, h'.power.trans h.power, h'.cfg.trans h.cfg⟩

theorem RegsOutside.keepsMode (h : RegsOutside w s t) (hstatus : Reg.thmStatus.addr 0 0 ∉ w) (hcfg : Reg.thmCfg.addr 0 0 ∉ w) :
    KeepsMode s t := ⟨h.rbit hstatus 63, h.fld hstatus 62 61, h.reg _ 0 0 hcfg⟩

/-- THM_STATUS below the power state is written without changing it. -/
theorem setFld_keepsMode {hi : Nat} (h : hi < 61) (s : State) (lo v : Nat) : KeepsMode s (s.setFld .thmStatus 0 0 hi lo v) :=
  ⟨s.rbit_setFld_ne _ 0 0 v (by omega) (.inr (by omega)), s.fld_setFld_ne _ 0 0 hi lo 62 61 v (by omega) (.inr h),
    s.reg_setFld_ne _ _ 0 0 0 0 hi lo v (by simp)⟩

theorem setRbit_keepsMode {b : Nat} (h : b < 61) (s : State) (v : Bool) : KeepsMode s (s.setRbit .thmStatus 0 0 b v) :=
  setFld_keepsMode h ..

/-! ### Events (R680) -/

/-- The registers that an event of the thermal model writes. -/
def thmLogRegs : Set Nat := {Reg.thmEvent.addr 0 0, Reg.drvEvtStatus.addr 0 0}

/-- `t` is `s` after events of the thermal model: its other registers and the model are those of `s`. -/
structure EventsOnly (s t : State) : Prop where
  therm : t.therm = s.therm
  regs : RegsOutside thmLogRegs s t

theorem EventsOnly.refl (s : State) : EventsOnly s s := ⟨rfl, .refl s⟩

theorem EventsOnly.trans (h : EventsOnly s t) (h' : EventsOnly t u) : EventsOnly s u :=
  ⟨h'.therm.trans h.therm, h.regs.trans h'.regs⟩

theorem EventsOnly.ite {p : Prop} [Decidable p] (h : EventsOnly s t) (h' : EventsOnly s u) :
    EventsOnly s (if p then t else u) := by
  split
  · exact h
  · exact h'

theorem record_outside (h : Reg.drvEvtStatus.addr 0 0 ∈ w) (s : State) (e : Evt) : RegsOutside w s (s.record e) := by
  have hnumber : RegsOutside w s (if s.evtRecv then
      ({ s with eseq := (s.eseq + 1) % 2 ^ 16 } : State).emit (.event { e with eseq := s.eseq })
      else { s with eseq := (s.eseq + 1) % 2 ^ 16 }) := .ite (.of_regs rfl) (.of_regs rfl)
  exact .ite (hnumber.trans (.of_regs rfl)) (hnumber.trans (setFld_outside h ..))

theorem event_outside (h : Reg.drvEvtStatus.addr 0 0 ∈ w) (s : State) (source kind loc detail addr : Nat) :
    RegsOutside w s (s.event source kind loc detail addr) := .ite (.of_regs rfl) (record_outside h ..)

theorem thmLog_eventsOnly (s : State) (kind site temp rate : Nat) : EventsOnly s (s.thmLog kind site temp rate) where
  therm := (log_logOnly ..).therm
  regs := by
    have hevent : Reg.thmEvent.addr 0 0 ∈ thmLogRegs := .inl rfl
    exact .ite (setReg_outside hevent ..) ((setReg_outside hevent ..).trans (event_outside (.inr rfl) ..))

theorem siteLog_eventsOnly (s : State) (kind i : Nat) : EventsOnly s (s.siteLog kind i) :=
  .ite (thmLog_eventsOnly ..) (thmLog_eventsOnly ..)

theorem packageLog_eventsOnly (s : State) (kind : Nat) : EventsOnly s (s.packageLog kind) :=
  have hbump : EventsOnly s s.bump := ⟨rfl, .of_regs rfl⟩
  hbump.trans (thmLog_eventsOnly ..)

theorem siteEvents_eventsOnly (s : State) (kind : Nat) (sites : List Nat) : EventsOnly s (s.siteEvents kind sites) :=
  List.foldlRecOn sites _ (.refl s) fun _ hb i _ => hb.trans (siteLog_eventsOnly _ kind i)

/-- A trip is logged at its site (24 for a place that is no pasture or stack). -/
theorem tripLog_eventsOnly (s : State) (i : Nat) : EventsOnly s (if i < 24 then s.siteLog 9 i else s.packageLog 9) :=
  .ite (siteLog_eventsOnly ..) (packageLog_eventsOnly ..)

/-! ### One step for each of the twelve pastures or stacks -/

/-- What steps `0` to `n - 1` make of the observations `obs 0` to `obs (n - 1)`, where step `i` changes `obs i` alone and keeps `P`. -/
theorem foldl_range_obs {β : Type} {P : State → Prop} {g : State → Nat → State} {obs : Nat → State → β}
    {f : Nat → β → β} {n : Nat}
    (hkeep : ∀ s, ∀ i < n, P s → P (g s i)) (hsame : ∀ s, ∀ i < n, P s → obs i (g s i) = f i (obs i s))
    (hother : ∀ s, ∀ i < n, ∀ p < n, p ≠ i → obs p (g s i) = obs p s) (s : State) (h : P s) :
    P ((List.range n).foldl g s) ∧ ∀ p < n, obs p ((List.range n).foldl g s) = f p (obs p s) := by
  have hprefix : ∀ m ≤ n, P ((List.range m).foldl g s) ∧
      ∀ p < n, obs p ((List.range m).foldl g s) = if p < m then f p (obs p s) else obs p s := by
    intro m
    induction m with
    | zero => exact fun _ => ⟨h, fun _ _ => rfl⟩
    | succ m ih =>
      intro hm
      obtain ⟨hP, hobs⟩ := ih (by omega)
      rw [List.range_succ, List.foldl_append, List.foldl_cons, List.foldl_nil]
      refine ⟨hkeep _ m hm hP, fun p hp => ?_⟩
      by_cases hpm : p = m
      · subst hpm
        rw [hsame _ p hm hP, hobs p hp, if_neg (Nat.lt_irrefl p), if_pos p.lt_succ_self]
      · rw [hother _ m hm p hp hpm, hobs p hp]
        exact if_congr (by omega) rfl rfl
  obtain ⟨hP, hobs⟩ := hprefix n n.le_refl
  exact ⟨hP, fun p hp => (hobs p hp).trans (if_pos hp)⟩

/-! ### The stacks at a trip (R677) -/

theorem tripStack_outside {i : Nat} (hstk : Reg.thmStk.addr 0 i ∈ w) (hgate : Reg.stkStatus.addr i 0 ∈ w) (s : State) :
    RegsOutside w s (s.tripStack i) :=
  ((setRbit_outside hstk ..).trans (setRbit_outside hstk ..)).trans (setRbit_outside hgate ..)

theorem State.tripStack_therm (s : State) (i : Nat) : (s.tripStack i).therm = s.therm :=
  (State.setRbit_therm ..).trans ((State.setRbit_therm ..).trans (State.setRbit_therm ..))

/-- The registers of the stacks, which a trip writes. -/
def stackRegs : Set Nat := {a | ∃ i < 12, a = Reg.thmStk.addr 0 i ∨ a = Reg.stkStatus.addr i 0}

theorem not_mem_stackRegs {a : Nat} (h : a < Reg.thmStk.addr 0 0) : a ∉ stackRegs := by
  rintro ⟨i, -, rfl | rfl⟩ <;> simp at h
  omega

/-- Every stack takes in the trip. -/
def State.tripStacks (s : State) : State := (List.range 12).foldl State.tripStack s

theorem tripStacks_outside (s : State) : RegsOutside stackRegs s s.tripStacks := by
  refine .foldl (fun u i hi => ?_) s
  have hi := List.mem_range.1 hi
  have hstk : Reg.thmStk.addr 0 i ∈ stackRegs := ⟨i, hi, .inl rfl⟩
  have hgate : Reg.stkStatus.addr i 0 ∈ stackRegs := ⟨i, hi, .inr rfl⟩
  exact tripStack_outside hstk hgate u

theorem tripStacks_therm (s : State) : s.tripStacks.therm = s.therm :=
  List.foldlRecOn (motive := fun t : State => t.therm = s.therm) _ _ rfl fun u h i _ => (State.tripStack_therm u i).trans h

/-- A trip closes every write gate. -/
theorem tripStacks_gateClosed (s : State) : ∀ i < 12, s.tripStacks.gateClosed i = true := by
  obtain ⟨-, hgates⟩ := foldl_range_obs (P := fun _ => True) (g := State.tripStack) (obs := fun i t => t.gateClosed i)
    (f := fun _ _ => true) (n := 12) (fun _ _ _ h => h) (fun _ _ _ _ => State.rbit_setRbit_same _ _ _ _ _ _ (by decide))
    (fun u i _ p _ hp => (tripStack_outside (w := {Reg.thmStk.addr 0 i, Reg.stkStatus.addr i 0}) (.inl rfl) (.inr rfl) u).rbit
      (by simp; omega) 61) s trivial
  exact hgates

end Sys2Proof.Machine

/-! SUPPORT. The throttle law (R670) and the words that the model publishes (Tables 17.11 and 17.12). -/

namespace Sys2Proof.Machine

/-! ### The throttle law -/

theorem ramp_le (e : Int) {d : Int} (hd : 0 < d) : ramp e d ≤ 256 := by
  unfold ramp
  split
  · exact Nat.zero_le _
  · split
    · exact Nat.le_refl _
    · next hlow hhigh =>
      have hdiv : (e * 256 + d - 1) / d < 257 := Int.ediv_lt_of_lt_mul hd (by omega)
      omega

theorem Therm.capTerm_le (t : Therm) (cap : Nat) : t.capTerm cap ≤ 256 := by
  simp only [Therm.capTerm]
  omega

theorem throttleTerms_le (tp rp ts rs : Int) {rate fcap : Nat} (hrate : 0 < rate) (hcap : fcap ≤ 256) :
    ∀ x ∈ throttleTerms tp rp ts rs rate fcap, x ≤ 256 := by
  have hrate : (0 : Int) < rate * 16 := by omega
  simp only [throttleTerms, List.forall_mem_cons]
  exact ⟨ramp_le _ (by decide), ramp_le _ hrate, ramp_le _ (by decide), ramp_le _ hrate, hcap, by simp⟩

/-- The largest term so far and its cause, over terms that are numbered from `k`. -/
def largestTerm (best : Nat × Nat) (x : Nat × Nat) : Nat × Nat := if best.1 < x.1 then (x.1, x.2 + 1) else best

theorem throttle_unforced (terms : List Nat) : throttle terms false = terms.zipIdx.foldl largestTerm (0, 0) := rfl

theorem largestTerm_fst (best x : Nat × Nat) : (largestTerm best x).1 = max best.1 x.1 := by
  unfold largestTerm
  split
  next h => exact (max_eq_right h.le).symm
  next h => exact (max_eq_left (not_lt.1 h)).symm

theorem foldl_largestTerm_fst (terms : List Nat) (k : Nat) (best : Nat × Nat) :
    ((terms.zipIdx k).foldl largestTerm best).1 = terms.foldl max best.1 := by
  induction terms generalizing k best with
  | nil => rfl
  | cons x terms ih => rw [List.zipIdx_cons, List.foldl_cons, ih, largestTerm_fst, List.foldl_cons]

theorem foldl_largestTerm_snd_le (terms : List Nat) (k : Nat) {best : Nat × Nat} (h : best.2 ≤ k) :
    ((terms.zipIdx k).foldl largestTerm best).2 ≤ k + terms.length := by
  induction terms generalizing k best with
  | nil => exact h
  | cons x terms ih =>
    have hstep : (largestTerm best (x, k)).2 ≤ k + 1 := by
      unfold largestTerm
      split
      · exact Nat.le_refl _
      · exact Nat.le_succ_of_le h
    have := ih (k + 1) hstep
    rw [List.zipIdx_cons, List.foldl_cons, List.length_cons]
    omega

/-- The fraction is the largest of the terms (R670). -/
theorem throttle_fst (terms : List Nat) : (throttle terms false).1 = terms.foldl max 0 :=
  foldl_largestTerm_fst terms 0 (0, 0)

theorem throttle_fst_le {terms : List Nat} (h : ∀ x ∈ terms, x ≤ 256) : ∀ forced, (throttle terms forced).1 ≤ 256
  | true => Nat.le_refl _
  | false => by
    rw [throttle_fst]
    exact List.foldlRecOn (motive := (· ≤ 256)) terms max (Nat.zero_le _) fun _ hb x hx => Nat.max_le.2 ⟨hb, h x hx⟩

theorem throttle_snd_le {terms : List Nat} (h : terms.length = 5) : ∀ forced, (throttle terms forced).2 ≤ 6
  | true => Nat.le_refl _
  | false => by
    have := foldl_largestTerm_snd_le terms 0 (best := (0, 0)) (Nat.le_refl 0)
    rw [throttle_unforced]
    omega

/-! ### The words -/

theorem field16_lt (x : Int) : field16 x < 2 ^ 16 := BitVec.isLt _

/-- The fraction and its cause for pasture `p`, where HOLD or a trip may force the whole. -/
def Therm.fraction (t : Therm) (now : List Int) (rate : Nat) (forced : Bool) (p : Nat) : Nat × Nat :=
  throttle (throttleTerms ((now[p]?).getD 0) (t.rate now p) ((now[12 + p]?).getD 0) (t.rate now (12 + p)) rate t.fcap) forced

/-- THM_PAS of pasture `p` (Table 17.11). -/
def Therm.pastureWord (t : Therm) (now : List Int) (rate : Nat) (forced : Bool) (p : Nat) : Nat :=
  field16 ((now[p]?).getD 0) * 2 ^ 48 + field16 (t.rate now p) * 2 ^ 32 + (t.fraction now rate forced p).1 * 2 ^ 23 +
    (t.fraction now rate forced p).2 * 2 ^ 20 + min 0xFFFF (t.meanPower p)

theorem bits_of_pasture_fields {word temp rate f cause power : Nat}
    (hword : word = (temp * 2 ^ 48 + rate * 2 ^ 32 + f * 2 ^ 23 + cause * 2 ^ 20 + power) % 2 ^ 64) (htemp : temp < 2 ^ 16)
    (hrate : rate < 2 ^ 16) (hf : f ≤ 256) (hcause : cause ≤ 6) (hpower : power ≤ 0xFFFF) :
    bits word 63 48 = temp ∧ bits word 31 23 = f := by
  simp only [bits, Nat.shiftRight_eq_div_pow]
  omega

/-- The temperature and the fraction that THM_PAS shows. -/
theorem Therm.bits_pastureWord {t : Therm} {rate : Nat} (hrate : 0 < rate) (hcap : t.fcap ≤ 256) (now : List Int)
    (forced : Bool) (p : Nat) :
    bits (t.pastureWord now rate forced p % 2 ^ 64) 63 48 = field16 ((now[p]?).getD 0) ∧
    bits (t.pastureWord now rate forced p % 2 ^ 64) 31 23 = (t.fraction now rate forced p).1 :=
  bits_of_pasture_fields rfl (field16_lt _) (field16_lt _) (throttle_fst_le (throttleTerms_le _ _ _ _ hrate hcap) forced)
    (throttle_snd_le rfl forced) (Nat.min_le_left ..)

theorem bit_eq_of_div_mod {w i : Nat} {b : Bool} (h : w / 2 ^ i % 2 = b.toNat) : bit w i = b := by
  rw [bit, Nat.testBit_eq_decide_div_mod_eq, h]
  cases b <;> rfl

/-- The decisions in THM_STK (Table 17.12). -/
theorem bits_of_stack_fields {word a b c : Nat} {gate refresh held : Bool} (hword : word = (a * 2 ^ 48 + b * 2 ^ 32 + c * 2 ^ 16 +
      gate.toNat * 2 ^ 15 + refresh.toNat * 2 ^ 14 + held.toNat * 2 ^ 13) % 2 ^ 64) :
    bit word 15 = gate ∧ bit word 14 = refresh := by
  have hgate := gate.toNat_le
  have hrefresh := refresh.toNat_le
  have hheld := held.toNat_le
  exact ⟨bit_eq_of_div_mod (by omega), bit_eq_of_div_mod (by omega)⟩

end Sys2Proof.Machine

/-! SUPPORT. The publication of the stacks and the pastures, step 7 of an update (R670, R671, Tables 17.2, 17.11 and 17.12). -/

namespace Sys2Proof.Machine

variable {s t : State}

theorem publishStack_outside {w : Set Nat} {i : Nat} (hstatus : Reg.thmStatus.addr 0 0 ∈ w) (hstk : Reg.thmStk.addr 0 i ∈ w)
    (s : State) (nodes now : List Int) (th : Therm) : RegsOutside w s (s.publishStack nodes now th i) :=
  (setRbit_outside hstatus ..).trans (setReg_outside hstk ..)

theorem publishStack_keepsMode {i : Nat} (hi : i < 12) (s : State) (nodes now : List Int) (th : Therm) :
    KeepsMode s (s.publishStack nodes now th i) :=
  (setRbit_keepsMode (by omega) s _).trans
    ((setReg_outside (w := {Reg.thmStk.addr 0 i}) rfl ..).keepsMode (by simp; omega) (by simp; omega))

/-- The decisions of a stack (Table 17.2). -/
theorem publishStack_decisions (s : State) (nodes now : List Int) (th : Therm) (i : Nat) :
    (s.publishStack nodes now th i).rbit .thmStk 0 i 15 =
      (s.tripped || gateDecision (s.rbit .thmStk 0 i 15) ((now[12 + i]?).getD 0)) ∧
    (s.publishStack nodes now th i).rbit .thmStk 0 i 14 = refreshDecision (s.rbit .thmStk 0 i 14) ((now[12 + i]?).getD 0) := by
  simp only [State.publishStack, State.rbit, State.reg_setReg_same]
  exact bits_of_stack_fields rfl

/-- RATE of the settings (R670). -/
def State.thmRate (s : State) : Nat := rateLimit (s.fld .thmCfg 0 0 28 24)

theorem State.thmRate_pos (s : State) : 0 < s.thmRate := by
  unfold State.thmRate rateLimit
  omega

/-- HOLD or a trip forces the whole fraction. -/
def State.forced (s : State) : Bool := s.tripped || s.fld .thmStatus 0 0 62 61 == 1

theorem KeepsMode.thmRate (h : KeepsMode s t) : t.thmRate = s.thmRate := by
  rw [State.thmRate, State.fld, h.cfg, ← State.fld, ← State.thmRate]

theorem KeepsMode.forced (h : KeepsMode s t) : t.forced = s.forced := by
  rw [State.forced, h.tripped, h.power, ← State.forced]

theorem publishPasture_outside {w : Set Nat} {p : Nat} (hstatus : Reg.thmStatus.addr 0 0 ∈ w) (hpas : Reg.thmPas.addr 0 p ∈ w)
    (s : State) (now : List Int) (th : Therm) : RegsOutside w s (s.publishPasture now th p) :=
  (setRbit_outside hstatus ..).trans (setReg_outside hpas ..)

theorem publishPasture_keepsMode {p : Nat} (hp : p < 12) (s : State) (now : List Int) (th : Therm) :
    KeepsMode s (s.publishPasture now th p) :=
  (setRbit_keepsMode (by omega) s _).trans
    ((setReg_outside (w := {Reg.thmPas.addr 0 p}) rfl ..).keepsMode (by simp; omega) (by simp; omega))

theorem publishPasture_word (s : State) (now : List Int) (th : Therm) (p : Nat) :
    (s.publishPasture now th p).reg .thmPas 0 p = th.pastureWord now s.thmRate s.forced p % 2 ^ 64 :=
  State.reg_setReg_same ..

/-- Every stack is published. -/
def State.publishStacks (s : State) (nodes now : List Int) (th : Therm) : State :=
  (List.range 12).foldl (fun s i => s.publishStack nodes now th i) s

/-- Every pasture is published. -/
def State.publishPastures (s : State) (now : List Int) (th : Therm) : State :=
  (List.range 12).foldl (fun s p => s.publishPasture now th p) s

theorem publishStacks_spec (s : State) (nodes now : List Int) (th : Therm) :
    KeepsMode s (s.publishStacks nodes now th) ∧ ∀ i < 12,
      ((s.publishStacks nodes now th).rbit .thmStk 0 i 15, (s.publishStacks nodes now th).rbit .thmStk 0 i 14) =
        (s.tripped || gateDecision (s.rbit .thmStk 0 i 15) ((now[12 + i]?).getD 0),
          refreshDecision (s.rbit .thmStk 0 i 14) ((now[12 + i]?).getD 0)) := by
  refine foldl_range_obs (P := KeepsMode s) (g := fun s i => s.publishStack nodes now th i)
    (obs := fun i u => (u.rbit .thmStk 0 i 15, u.rbit .thmStk 0 i 14))
    (f := fun i x => (s.tripped || gateDecision x.1 ((now[12 + i]?).getD 0), refreshDecision x.2 ((now[12 + i]?).getD 0)))
    (fun u i hi h => h.trans (publishStack_keepsMode hi ..)) (fun u i _ h => ?_) (fun u i _ p _ hp => ?_) s (.refl s)
  · obtain ⟨hgate, hrefresh⟩ := publishStack_decisions u nodes now th i
    rw [hgate, hrefresh, h.tripped]
  · have hout := publishStack_outside (w := {Reg.thmStatus.addr 0 0, Reg.thmStk.addr 0 i}) (.inl rfl) (.inr rfl) u nodes now th
    have hstk : Reg.thmStk.addr 0 p ∉ ({Reg.thmStatus.addr 0 0, Reg.thmStk.addr 0 i} : Set Nat) := by simp; omega
    rw [hout.rbit hstk, hout.rbit hstk]

theorem publishPastures_spec (s : State) (now : List Int) (th : Therm) :
    KeepsMode s (s.publishPastures now th) ∧ ∀ p < 12,
      (s.publishPastures now th).reg .thmPas 0 p = th.pastureWord now s.thmRate s.forced p % 2 ^ 64 := by
  refine foldl_range_obs (P := KeepsMode s) (g := fun s p => s.publishPasture now th p) (obs := fun p u => u.reg .thmPas 0 p)
    (f := fun p _ => th.pastureWord now s.thmRate s.forced p % 2 ^ 64)
    (fun u p hp h => h.trans (publishPasture_keepsMode hp ..)) (fun u p _ h => ?_) (fun u i _ p _ hp => ?_) s (.refl s)
  · rw [publishPasture_word, h.thmRate, h.forced]
  · exact (publishPasture_outside (w := {Reg.thmStatus.addr 0 0, Reg.thmPas.addr 0 i}) (.inl rfl) (.inr rfl) u now th).reg _ 0 p
      (by simp; omega)

/-- The pastures are published below the registers of the stacks. -/
theorem publishPastures_outside (s : State) (now : List Int) (th : Therm) :
    RegsOutside {a | a < Reg.thmStk.addr 0 0} s (s.publishPastures now th) :=
  .foldl (fun u p hp => by
    have hp := List.mem_range.1 hp
    exact publishPasture_outside (by simp) (by simp; omega) u now th) s

/-- Every stack and every pasture is published. -/
def State.publish (s : State) (nodes now : List Int) (th : Therm) : State := (s.publishStacks nodes now th).publishPastures now th

theorem publish_keepsMode (s : State) (nodes now : List Int) (th : Therm) : KeepsMode s (s.publish nodes now th) := by
  obtain ⟨hstacks, -⟩ := publishStacks_spec s nodes now th
  obtain ⟨hpastures, -⟩ := publishPastures_spec (s.publishStacks nodes now th) now th
  exact hstacks.trans hpastures

theorem publish_pasture (s : State) (nodes now : List Int) (th : Therm) {p : Nat} (hp : p < 12) :
    (s.publish nodes now th).reg .thmPas 0 p = th.pastureWord now s.thmRate s.forced p % 2 ^ 64 := by
  obtain ⟨hstacks, -⟩ := publishStacks_spec s nodes now th
  obtain ⟨-, hpastures⟩ := publishPastures_spec (s.publishStacks nodes now th) now th
  rw [State.publish, hpastures p hp, hstacks.thmRate, hstacks.forced]

theorem publish_stack (s : State) (nodes now : List Int) (th : Therm) {p : Nat} (hp : p < 12) :
    (s.publish nodes now th).rbit .thmStk 0 p 15 = (s.tripped || gateDecision (s.rbit .thmStk 0 p 15) ((now[12 + p]?).getD 0)) ∧
    (s.publish nodes now th).rbit .thmStk 0 p 14 = refreshDecision (s.rbit .thmStk 0 p 14) ((now[12 + p]?).getD 0) := by
  obtain ⟨-, hstacks⟩ := publishStacks_spec s nodes now th
  have hout := publishPastures_outside (s.publishStacks nodes now th) now th
  have hstk : Reg.thmStk.addr 0 p ∉ {a | a < Reg.thmStk.addr 0 0} := by simp
  rw [State.publish, hout.rbit hstk, hout.rbit hstk]
  exact Prod.mk.inj (hstacks p hp)

end Sys2Proof.Machine

/-! SUPPORT. One update of the thermal model (R664 to R672, R676, R677): the stages that it goes through, and what stands at its
end. -/

namespace Sys2Proof.Machine

variable {s t u : State} {now nodes : List Int} {th : Therm}

/-! ### The stages of an update -/

/-- The thermal model once it has taken in the readings; the cap term counts the powers from the first update on (R666, R672). -/
def State.calibrated (s : State) (nodes : List Int) : Therm :=
  let t := s.therm.calibrate nodes
  if !s.rbit .drvReady 0 0 60 then { t with newPower := 0, newPkg := 0 } else t

/-- The acting temperatures of the pastures and the stacks (R665). -/
def Therm.sites (t : Therm) (nodes : List Int) : List Int := (List.range 24).map (t.acting nodes)

/-- The acting temperatures of an update. -/
def State.siteTemps (s : State) (nodes : List Int) : List Int := (s.calibrated nodes).sites nodes

/-- The thermal model that an update publishes from. -/
def State.nextTherm (s : State) (nodes : List Int) : Therm :=
  let t := s.calibrated nodes
  { t with fcap := t.capTerm (capLimit (s.fld .thmCfg 0 0 10 0)), terms := activeTerms (s.siteTemps nodes) t s.thmRate, dogs := [] }

/-- The power state that an update enters, which may trip the device at `site` (R676, Table 17.4). -/
def State.enterPower (s : State) (site : Option Nat) : State :=
  match site with
  | some _ => if s.tripped then s else s.setFld .thmStatus 0 0 63 61 0b110
  | none => s.powerState

/-- THM_STATUS shows that the cap acts, and the layers that drift. -/
def State.setFlags (s : State) (cap : Bool) (x y : Nat) : State :=
  ((s.setRbit .thmStatus 0 0 60 cap).setFld .thmStatus 0 0 35 24 x).setFld .thmStatus 0 0 23 12 y

/-- The model is kept and ready. -/
def State.keepTherm (s : State) (now : List Int) (th : Therm) : State :=
  (s.setTherm { th with hist := (now :: th.hist).take 10 }).setRbit .drvReady 0 0 60 true

/-- A tripped device closes every write gate once the model is kept. -/
def State.closeUpdate (s : State) (now : List Int) (th : Therm) : State :=
  if (s.keepTherm now th).tripped then (s.keepTherm now th).tripStacks else s.keepTherm now th

/-- The state in which an update publishes. -/
def State.entered (s : State) (nodes : List Int) : State := s.enterPower (tripSite (s.siteTemps nodes) nodes)

/-- What an update has published. -/
def State.published (s : State) (nodes : List Int) : State :=
  (s.entered nodes).publish nodes (s.siteTemps nodes) (s.nextTherm nodes)

/-- An update publishes, closes, and then logs its events. -/
theorem modelUpdate_stages (s : State) (nodes : List Int) : ∃ cap x y,
    EventsOnly (((s.published nodes).setFlags cap x y).closeUpdate (s.siteTemps nodes) (s.nextTherm nodes)) (s.modelUpdate nodes) := by
  refine ⟨(s.nextTherm nodes).fcap != 0,
    s.fld .thmStatus 0 0 35 24 ||| mask 12 fun p => (s.therm.drifts nodes).contains p,
    s.fld .thmStatus 0 0 23 12 ||| mask 12 fun i => (s.therm.drifts nodes).contains (12 + i), ?_⟩
  unfold State.modelUpdate
  extract_lets _ _ _ _ _ _ _ _ trips _ _ _ _ _ _ _ closed _ _ _ _ _ _ _ _ _ _ _ logged
  have hlogged : EventsOnly closed logged :=
    (siteEvents_eventsOnly ..).trans <| (siteEvents_eventsOnly ..).trans <| (siteEvents_eventsOnly ..).trans <|
      (siteEvents_eventsOnly ..).trans <| (siteEvents_eventsOnly ..).trans <|
        (EventsOnly.ite (packageLog_eventsOnly ..) (.refl _)).trans <|
          (siteEvents_eventsOnly ..).trans (siteEvents_eventsOnly ..)
  change EventsOnly closed _
  clear_value trips logged
  split
  · exact hlogged
  · cases trips with
    | none => exact hlogged
    | some i => exact hlogged.trans (tripLog_eventsOnly _ i)

/-! ### The thermal model after an update -/

theorem Therm.calibrate_hist (t : Therm) (nodes : List Int) : (t.calibrate nodes).hist = t.hist := by
  unfold Therm.calibrate
  split <;> rfl

theorem State.calibrated_of_ready (h : s.rbit .drvReady 0 0 60 = true) (nodes : List Int) :
    s.calibrated nodes = s.therm.calibrate nodes := by
  simp only [State.calibrated, h, Bool.not_true, Bool.false_eq_true, if_false]

/-- The acting temperatures are those of the calibrated model, at the first update too. -/
theorem State.siteTemps_eq (s : State) (nodes : List Int) : s.siteTemps nodes = (s.therm.calibrate nodes).sites nodes := by
  unfold State.siteTemps State.calibrated
  dsimp only
  split <;> rfl

theorem State.nextTherm_fcap_le (s : State) (nodes : List Int) : (s.nextTherm nodes).fcap ≤ 256 := Therm.capTerm_le ..

/-! ### The power state of an update -/

theorem enterPower_outside (s : State) (site : Option Nat) : RegsOutside {Reg.thmStatus.addr 0 0} s (s.enterPower site) := by
  cases site with
  | some i => exact .ite (.refl s) (setFld_outside_self ..)
  | none => exact .ite (.refl s) (setFld_outside_self ..)

theorem enterPower_thmRate (s : State) (site : Option Nat) : (s.enterPower site).thmRate = s.thmRate := by
  rw [State.thmRate, (enterPower_outside s site).fld (by simp), ← State.thmRate]

theorem enterPower_trips (h : s.tripped = false) (i : Nat) : (s.enterPower (some i)).tripped = true := by
  simp only [State.enterPower, h, Bool.false_eq_true, if_false]
  exact (s.rbit_setFld_mem _ 0 0 _ (by decide) (by decide)).trans (by decide)

/-- Without HOLD and a trip nothing forces the fraction. -/
theorem enterPower_unforced (h : s.tripped = false) (hhold : s.fld .thmCfg 0 0 31 31 = 0) :
    (s.enterPower none).tripped = false ∧ (s.enterPower none).forced = false := by
  have hpower : s.enterPower none = s.setFld .thmStatus 0 0 62 61 0 := by
    simp only [State.enterPower, State.powerState, h, hhold, Bool.false_eq_true, if_false]
  have htripped : (s.enterPower none).tripped = false := by
    rw [hpower]
    exact (s.rbit_setFld_ne _ 0 0 0 (by decide) (by decide)).trans h
  refine ⟨htripped, ?_⟩
  rw [State.forced, htripped, hpower, State.fld_setFld_same _ _ _ _ _ _ _ (by decide)]
  rfl

/-! ### What stands at the end of an update -/

theorem setFlags_keepsMode (s : State) (cap : Bool) (x y : Nat) : KeepsMode s (s.setFlags cap x y) :=
  ((setRbit_keepsMode (by decide) ..).trans (setFld_keepsMode (by decide) ..)).trans (setFld_keepsMode (by decide) ..)

theorem setFlags_outside (s : State) (cap : Bool) (x y : Nat) : RegsOutside {Reg.thmStatus.addr 0 0} s (s.setFlags cap x y) :=
  ((setRbit_outside_self ..).trans (setFld_outside_self ..)).trans (setFld_outside_self ..)

theorem keepTherm_outside (s : State) (now : List Int) (th : Therm) :
    RegsOutside {Reg.drvReady.addr 0 0} s (s.keepTherm now th) :=
  have htherm : RegsOutside {Reg.drvReady.addr 0 0} s (s.setTherm { th with hist := (now :: th.hist).take 10 }) := .of_regs rfl
  htherm.trans (setRbit_outside_self ..)

theorem keepTherm_tripped (s : State) (now : List Int) (th : Therm) : (s.keepTherm now th).tripped = s.tripped :=
  (keepTherm_outside s now th).rbit (by simp) 63

theorem closeUpdate_of_untripped (h : s.tripped = false) (now : List Int) (th : Therm) :
    s.closeUpdate now th = s.keepTherm now th := by
  have hkeep := (keepTherm_tripped s now th).trans h
  exact if_neg (ne_true_of_eq_false hkeep)

theorem closeUpdate_of_tripped (h : s.tripped = true) (now : List Int) (th : Therm) :
    s.closeUpdate now th = (s.keepTherm now th).tripStacks :=
  if_pos ((keepTherm_tripped s now th).trans h)

/-- `t` is what an update leaves of the state `u` that it has published, with the thermal model `th` kept. -/
structure UpdateEnd (now : List Int) (th : Therm) (u t : State) : Prop where
  therm : t.therm = { th with hist := (now :: th.hist).take 10 }
  ready : t.rbit .drvReady 0 0 60 = true
  tripped : t.tripped = u.tripped
  pastures : ∀ p < 12, t.reg .thmPas 0 p = u.reg .thmPas 0 p
  decisions : u.tripped = false → ∀ i < 12, t.reg .thmStk 0 i = u.reg .thmStk 0 i
  gates : u.tripped = true → ∀ i < 12, t.gateClosed i = true

theorem keepTherm_updateEnd (h : s.tripped = false) (now : List Int) (th : Therm) : UpdateEnd now th s (s.keepTherm now th) where
  therm := State.setRbit_therm ..
  ready := State.rbit_setRbit_same _ _ _ _ _ _ (by decide)
  tripped := keepTherm_tripped ..
  pastures p _ := (keepTherm_outside s now th).reg _ 0 p (by simp; omega)
  decisions _ i _ := (keepTherm_outside s now th).reg _ 0 i (by simp; omega)
  gates h' := absurd h' (ne_true_of_eq_false h)

theorem tripStacks_updateEnd (h : s.tripped = true) (now : List Int) (th : Therm) :
    UpdateEnd now th s (s.keepTherm now th).tripStacks := by
  have hout := tripStacks_outside (s.keepTherm now th)
  have hkeep := keepTherm_outside s now th
  exact {
    therm := (tripStacks_therm _).trans (State.setRbit_therm ..)
    ready := (hout.rbit (not_mem_stackRegs (by simp)) 60).trans (State.rbit_setRbit_same _ _ _ _ _ _ (by decide))
    tripped := (hout.rbit (not_mem_stackRegs (by simp)) 63).trans (keepTherm_tripped ..)
    pastures := fun p hp => (hout.reg _ 0 p (not_mem_stackRegs (by simp; omega))).trans (hkeep.reg _ 0 p (by simp; omega))
    decisions := fun h' => absurd h (ne_true_of_eq_false h')
    gates := fun _ => tripStacks_gateClosed _ }

theorem closeUpdate_updateEnd (s : State) (now : List Int) (th : Therm) : UpdateEnd now th s (s.closeUpdate now th) := by
  cases h : s.tripped with
  | false => exact closeUpdate_of_untripped h now th ▸ keepTherm_updateEnd h now th
  | true => exact closeUpdate_of_tripped h now th ▸ tripStacks_updateEnd h now th

/-- Flags set before the end change nothing of it. -/
theorem UpdateEnd.of_flags {cap : Bool} {x y : Nat} (h : UpdateEnd now th (s.setFlags cap x y) t) : UpdateEnd now th s t where
  therm := h.therm
  ready := h.ready
  tripped := h.tripped.trans (setFlags_keepsMode ..).tripped
  pastures p hp := (h.pastures p hp).trans ((setFlags_outside ..).reg _ 0 p (by simp; omega))
  decisions hs i hi := (h.decisions ((setFlags_keepsMode ..).tripped.trans hs) i hi).trans
    ((setFlags_outside ..).reg _ 0 i (by simp; omega))
  gates hs := h.gates ((setFlags_keepsMode ..).tripped.trans hs)

/-- Events logged after the end change nothing of it. -/
theorem UpdateEnd.events (h : UpdateEnd now th s t) (he : EventsOnly t u) : UpdateEnd now th s u where
  therm := he.therm.trans h.therm
  ready := (he.regs.rbit (by simp [thmLogRegs]) 60).trans h.ready
  tripped := (he.regs.rbit (by simp [thmLogRegs]) 63).trans h.tripped
  pastures p hp := (he.regs.reg _ 0 p (by simp [thmLogRegs]; omega)).trans (h.pastures p hp)
  decisions hs i hi := (he.regs.reg _ 0 i (by simp [thmLogRegs]; omega)).trans (h.decisions hs i hi)
  gates hs i hi := (he.regs.rbit (by simp [thmLogRegs]; omega) 61).trans (h.gates hs i hi)

theorem modelUpdate_updateEnd (s : State) (nodes : List Int) :
    UpdateEnd (s.siteTemps nodes) (s.nextTherm nodes) (s.published nodes) (s.modelUpdate nodes) := by
  obtain ⟨cap, x, y, hevents⟩ := modelUpdate_stages s nodes
  exact (closeUpdate_updateEnd ..).of_flags.events hevents

/-! ### The command -/

theorem exec_thermalModelUpdate (hlen : nodes.length = 233) (hreset : s.inReset = false) (hdrover : s.rbit .drvReady 0 0 62 = true)
    (hfw : s.fwStep ≠ 1) : exec (.thermalModelUpdate nodes) s = .next (s.modelUpdate nodes) := by
  have hexec : exec (.thermalModelUpdate nodes) s = execThermalModelUpdate nodes s := rfl
  rw [hexec, execThermalModelUpdate, if_neg (not_not.2 hlen), if_neg (by simp [hreset, hdrover, hfw])]

theorem entered_thmRate (s : State) (nodes : List Int) : (s.entered nodes).thmRate = s.thmRate := enterPower_thmRate ..

/-- THM_PAS of a pasture after an update: its acting temperature and its fraction. -/
theorem modelUpdate_pasture (s : State) (nodes : List Int) {p : Nat} (hp : p < 12) :
    (s.modelUpdate nodes).fld .thmPas 0 p 63 48 = field16 (((s.siteTemps nodes)[p]?).getD 0) ∧
    (s.modelUpdate nodes).fld .thmPas 0 p 31 23 =
      ((s.nextTherm nodes).fraction (s.siteTemps nodes) s.thmRate (s.entered nodes).forced p).1 := by
  have hword : (s.modelUpdate nodes).reg .thmPas 0 p =
      (s.nextTherm nodes).pastureWord (s.siteTemps nodes) s.thmRate (s.entered nodes).forced p % 2 ^ 64 := by
    rw [(modelUpdate_updateEnd s nodes).pastures p hp, State.published, publish_pasture _ _ _ _ hp, entered_thmRate]
  rw [State.fld, State.fld, hword]
  exact Therm.bits_pastureWord s.thmRate_pos (s.nextTherm_fcap_le nodes) ..

/-- The decisions of a stack after an update that does not trip the device. -/
theorem modelUpdate_stack (s : State) (nodes : List Int) (h : (s.entered nodes).tripped = false) {p : Nat} (hp : p < 12) :
    let ts := ((s.siteTemps nodes)[12 + p]?).getD 0
    (s.modelUpdate nodes).rbit .thmStk 0 p 15 = gateDecision (s.rbit .thmStk 0 p 15) ts ∧
    (s.modelUpdate nodes).rbit .thmStk 0 p 14 = refreshDecision (s.rbit .thmStk 0 p 14) ts := by
  intro ts
  have hend := modelUpdate_updateEnd s nodes
  have hreg := hend.decisions ((publish_keepsMode ..).tripped.trans h) p hp
  obtain ⟨hgate, hrefresh⟩ := publish_stack (s.entered nodes) nodes (s.siteTemps nodes) (s.nextTherm nodes) hp
  have hbefore (b : Nat) : (s.entered nodes).rbit .thmStk 0 p b = s.rbit .thmStk 0 p b :=
    (enterPower_outside ..).rbit (by simp; omega) b
  rw [h, Bool.false_or, hbefore] at hgate
  rw [hbefore] at hrefresh
  exact ⟨(congrArg (bit · 15) hreg).trans hgate, (congrArg (bit · 14) hreg).trans hrefresh⟩

/-- A device trips where a site or another die reaches 125 °C (R676). -/
theorem tripSite_isSome (h : (∃ i < 24, 2000 ≤ (now[i]?).getD 0) ∨ ∃ x ∈ nodes, 2000 ≤ x) :
    (tripSite now nodes).isSome = true := by
  unfold tripSite
  split
  · rfl
  next hcool =>
    have hcool := List.find?_eq_none.1 hcool
    obtain ⟨i, hi, hhot⟩ | ⟨x, hx, hhot⟩ := h
    · exact absurd (decide_eq_true hhot) (hcool i (List.mem_range.2 hi))
    · rw [if_pos (List.any_eq_true.2 ⟨x, hx, decide_eq_true hhot⟩)]
      rfl

/-- An update that finds 125 °C trips the device, closes every write gate and has every pasture withhold its issue (R676, R677). -/
theorem modelUpdate_trips (htripped : s.tripped = false) (h : (tripSite (s.siteTemps nodes) nodes).isSome = true) :
    (s.modelUpdate nodes).tripped = true ∧
    ∀ i < 12, (s.modelUpdate nodes).gateClosed i = true ∧ (s.modelUpdate nodes).fld .thmPas 0 i 31 23 = 256 := by
  obtain ⟨i, hi⟩ := Option.isSome_iff_exists.1 h
  have hend := modelUpdate_updateEnd s nodes
  have henter : (s.entered nodes).tripped = true := by
    rw [State.entered, hi]
    exact enterPower_trips htripped i
  have hpublished : (s.published nodes).tripped = true := (publish_keepsMode ..).tripped.trans henter
  refine ⟨hend.tripped.trans hpublished, fun p hp => ⟨hend.gates hpublished p hp, ?_⟩⟩
  obtain ⟨-, hfraction⟩ := modelUpdate_pasture s nodes hp
  rw [hfraction, State.forced, henter]
  rfl

end Sys2Proof.Machine

/-! SUPPORT. The commands that feed the thermal model and those that follow from it (R620 to R623, R662, R663, R666, R671, R674 to
R677). -/

namespace Sys2Proof.Machine

variable {s : State} {p : Nat}

/-! ### A number made of bits -/

theorem mask_succ (n : Nat) (f : Nat → Bool) : mask (n + 1) f = mask n f + (f n).toNat * 2 ^ n := by
  simp only [mask, List.range_succ, List.foldl_append, List.foldl_cons, List.foldl_nil]

theorem mask_lt (n : Nat) (f : Nat → Bool) : mask n f < 2 ^ n := by
  induction n with
  | zero => exact Nat.one_pos
  | succ n ih =>
    have hbit : (f n).toNat * 2 ^ n ≤ 1 * 2 ^ n := Nat.mul_le_mul_right _ (Bool.toNat_le _)
    rw [mask_succ, Nat.pow_succ]
    omega

theorem bit_mask {n i : Nat} (f : Nat → Bool) (h : i < n) : bit (mask n f) i = f i := by
  induction n with
  | zero => omega
  | succ n ih =>
    rw [mask_succ, Nat.add_comm, Nat.mul_comm, bit, Nat.testBit_two_pow_mul_add _ (mask_lt n f)]
    split
    next hi => exact ih hi
    next hi =>
      obtain rfl : i = n := by omega
      cases f i <;> simp

/-! ### Measurements and readings -/

theorem exec_sensorReading {xs : List Int} (h : xs.length = 24) : exec (.sensorReading xs) s = .next (s.setTherm { s.therm with
    sensors := xs, unread := true, hot := mask 24 fun i => decide (2000 ≤ (xs[i]?).getD 0) }) := by
  have hexec : exec (.sensorReading xs) s = execSensorReading xs s := rfl
  rw [hexec, execSensorReading, if_neg (not_not.2 h)]

theorem exec_powerMeasurement {xs : List Nat} (h : xs.length = 712) : exec (.powerMeasurement xs) s = .next (s.setTherm { s.therm with
    power := (computePower xs :: s.therm.power).take 1000, newPower := min 1000 (s.therm.newPower + 1) }) := by
  have hexec : exec (.powerMeasurement xs) s = execPowerMeasurement xs s := rfl
  rw [hexec, execPowerMeasurement, if_neg (not_not.2 h)]

/-- The latest package power `w` and the mean `mean` are shown. -/
def State.showPower (s : State) (w mean : Nat) : State := (s.setFld .thmPower 0 0 15 0 w).setFld .thmPower 0 0 31 16 mean

/-- The state after a measurement `w` of the package power, with the mean `mean` (Table 17.9). -/
def State.setPower (s : State) (w mean : Nat) : State :=
  (s.showPower w mean).setFld .thmPower 0 0 63 48 (max w ((s.showPower w mean).fld .thmPower 0 0 63 48))

/-- The package power and its peak stand in fields that hold them. -/
theorem setPower_fields (s : State) {w : Nat} (mean : Nat) (hw : w ≤ 0xFFFF) :
    (s.setPower w mean).fld .thmPower 0 0 15 0 = w ∧
    (s.setPower w mean).fld .thmPower 0 0 63 48 = max w (s.fld .thmPower 0 0 63 48) := by
  have hpeak : s.fld .thmPower 0 0 63 48 < 2 ^ 16 := bits_lt ..
  have hbefore : (s.showPower w mean).fld .thmPower 0 0 63 48 = s.fld .thmPower 0 0 63 48 := by
    rw [State.showPower, State.fld_setFld_ne _ _ _ _ _ _ _ _ _ (by decide) (by decide),
      State.fld_setFld_ne _ _ _ _ _ _ _ _ _ (by decide) (by decide)]
  constructor
  · rw [State.setPower, State.fld_setFld_ne _ _ _ _ _ _ _ _ _ (by decide) (by decide), State.showPower,
      State.fld_setFld_ne _ _ _ _ _ _ _ _ _ (by decide) (by decide), State.fld_setFld_same _ _ _ _ _ _ _ (by decide)]
    exact Nat.mod_eq_of_lt (Nat.lt_succ_of_le hw)
  · rw [State.setPower, hbefore, State.fld_setFld_same _ _ _ _ _ _ _ (by decide)]
    exact Nat.mod_eq_of_lt (by omega)

/-- A write of a field after writes of registers alone is another of them. -/
theorem eq_regs_of_setFld {s t : State} (h : t = { s with regs := t.regs }) (r : Reg) (i j hi lo v : Nat) :
    t.setFld r i j hi lo v = { s with regs := (t.setFld r i j hi lo v).regs } := by
  rw [h]
  rfl

theorem setPower_regs (s : State) (w mean : Nat) : s.setPower w mean = { s with regs := (s.setPower w mean).regs } :=
  eq_regs_of_setFld (eq_regs_of_setFld (eq_regs_of_setFld rfl ..) ..) ..

/-- A thermal model that is set before registers are written is the only other change. -/
theorem eq_therm_regs_of_setTherm {s t : State} {th : Therm} (h : t = { s.setTherm th with regs := t.regs }) :
    t = { s with therm := t.therm, regs := t.regs } := by
  rw [h]
  rfl

/-- The thermal model with one more measurement of the package power. -/
def Therm.addPackagePower (t : Therm) (w : Nat) : Therm :=
  { t with pkg := (w :: t.pkg).take 100, newPkg := min 100 (t.newPkg + 1) }

theorem exec_packagePowerMeasurement (s : State) (w : Nat) :
    let th := s.therm.addPackagePower (min w 0xFFFF)
    exec (.packagePowerMeasurement w) s = .next ((s.setTherm th).setPower (min w 0xFFFF) (th.pkg.sum / th.pkg.length)) := rfl

/-! ### What pastures and stacks do -/

theorem exec_fractionApply (hp : p < 12) (h : s.rbit .drvReady 0 0 60 = true) : exec (.fractionApply p) s =
    .next (s.setTherm { s.therm with frac := Sparse.set 0 s.therm.frac p (s.fld .thmPas 0 p 31 23) }) := by
  have hexec : exec (.fractionApply p) s = execFractionApply p s := rfl
  rw [hexec, execFractionApply, inRange_next hp, h]
  rfl

theorem exec_fractionWatchdog (hp : p < 12) : exec (.fractionWatchdog p) s = .next (s.setTherm { s.therm with
    frac := Sparse.set 0 s.therm.frac p 256, dogs := (List.range 24).filter fun i => i = p ∨ i ∈ s.therm.dogs }) := by
  have hexec : exec (.fractionWatchdog p) s = execFractionWatchdog p s := rfl
  rw [hexec, execFractionWatchdog, inRange_next hp]

/-- A pasture that applies the whole fraction withholds all issue of its flocks. -/
theorem State.withheld_of_frac {f : Nat} (h : Sparse.get 0 s.therm.frac (f / 56) = 256) : s.withheld f = true := by
  rw [State.withheld, h, beq_self_eq_true, Bool.or_true]

/-- A stack interface closes its write gate by itself (R674). -/
def State.closeGate (s : State) (i : Nat) : State :=
  ((s.setRbit .stkStatus i 0 61 true).setRbit .thmStk 0 i 15 true).setRbit .thmStatus 0 0 (48 + i) true

theorem exec_gateDecisionWatchdog (hp : p < 12) : exec (.gateDecisionWatchdog p) s = .next (State.closeGate
    (s.setTherm { s.therm with dogs := (List.range 24).filter fun j => j = 12 + p ∨ j ∈ s.therm.dogs }) p) := by
  have hexec : exec (.gateDecisionWatchdog p) s = execGateDecisionWatchdog p s := rfl
  rw [hexec, execGateDecisionWatchdog, inRange_next hp]
  rfl

theorem closeGate_dram (s : State) (i : Nat) : (s.closeGate i).dram = s.dram :=
  (State.setRbit_dram ..).trans ((State.setRbit_dram ..).trans (State.setRbit_dram ..))

theorem closeGate_gateClosed (s : State) {i : Nat} (hi : i < 12) :
    (s.closeGate i).gateClosed i = true ∧ ∀ k < 12, k ≠ i → (s.closeGate i).gateClosed k = s.gateClosed k := by
  have hclose (u : State) : RegsOutside {Reg.thmStk.addr 0 i, Reg.thmStatus.addr 0 0} u
      ((u.setRbit .thmStk 0 i 15 true).setRbit .thmStatus 0 0 (48 + i) true) :=
    (setRbit_outside (.inl rfl) ..).trans (setRbit_outside (.inr rfl) ..)
  have hstatus (k : Nat) : (s.closeGate i).gateClosed k = (s.setRbit .stkStatus i 0 61 true).gateClosed k :=
    (hclose _).rbit (by simp; omega) 61
  have hothers : RegsOutside {Reg.stkStatus.addr i 0} s (s.setRbit .stkStatus i 0 61 true) := setRbit_outside_self ..
  exact ⟨(hstatus i).trans (State.rbit_setRbit_same _ _ _ _ _ _ (by decide)),
    fun k _ hk => (hstatus k).trans (hothers.rbit (by simp; omega) 61)⟩

/-! ### Settings and trips -/

theorem exec_holdWrite (v : Word32) : exec (.holdWrite v) s = .next (s.writeThmCfg v.toNat) := rfl

/-- HOLD stays in a tripped device (R677). -/
theorem writeThmCfg_hold_of_tripped (h : s.tripped = true) (v : Nat) :
    (s.writeThmCfg v).fld .thmCfg 0 0 31 31 = s.fld .thmCfg 0 0 31 31 := by
  simp only [State.writeThmCfg, h, if_true]
  rw [State.fld_setFld_same _ _ _ _ _ _ _ (by decide)]
  exact Nat.mod_eq_of_lt (bits_lt ..)

theorem exec_sensorTrip {i : Nat} (hi : i < 24) :
    exec (.sensorTrip i) s = .next ((s.setTherm { s.therm with hot := s.therm.hot ||| 2 ^ i }).trip i) := by
  have hexec : exec (.sensorTrip i) s = execSensorTrip i s := rfl
  rw [hexec, execSensorTrip, inRange_next hi]

/-- What a trip shows before it reaches the stacks (R676, R677). -/
def State.showTrip (s : State) (i : Nat) : State :=
  ((if i < 24 then s.siteLog 9 i else s.packageLog 9).setFld .thmStatus 0 0 63 61 0b110).setFld .thmStatus 0 0 59 48 0xFFF

theorem trip_of_untripped (h : s.tripped = false) (i : Nat) : s.trip i = (s.showTrip i).tripStacks :=
  if_neg (ne_true_of_eq_false h)

theorem showTrip_tripped (s : State) (i : Nat) : (s.showTrip i).tripped = true := by
  refine (State.rbit_setFld_ne _ _ 0 0 _ (by decide) (by decide)).trans ?_
  exact (State.rbit_setFld_mem _ _ 0 0 _ (by decide) (by decide)).trans (by decide)

theorem showTrip_therm (s : State) (i : Nat) : (s.showTrip i).therm = s.therm :=
  (State.setFld_therm ..).trans ((State.setFld_therm ..).trans (tripLog_eventsOnly s i).therm)

/-- A trip closes every write gate (R677). -/
theorem trip_spec (h : s.tripped = false) (i : Nat) :
    (s.trip i).tripped = true ∧ (s.trip i).therm = s.therm ∧ ∀ k < 12, (s.trip i).gateClosed k = true := by
  rw [trip_of_untripped h]
  exact ⟨((tripStacks_outside _).rbit (not_mem_stackRegs (by simp)) 63).trans (showTrip_tripped s i),
    (tripStacks_therm _).trans (showTrip_therm s i), tripStacks_gateClosed _⟩

/-! ### The slew governor -/

/-- What the governor withholds of the newest power `x` above its bound over the powers `rest` before it (R620). -/
def State.slewFraction (s : State) (x : Nat) (rest : List Nat) : Nat × Nat :=
  if rest.foldl min x + s.slewLimit < x then (x - (rest.foldl min x + s.slewLimit), x) else (0, 1)

theorem exec_slewGovernorTick (hp : p < 12) (h5 : p ≠ 5) (h6 : p ≠ 6) {x : Nat} {rest : List Nat}
    (h : ((s.therm.power.take 101).map fun v => v.getD p 0) = x :: rest) : exec (.slewGovernorTick p) s =
    .next (s.setTherm { s.therm with slew := Sparse.set (0, 1) s.therm.slew p (s.slewFraction x rest) }) := by
  have hexec : exec (.slewGovernorTick p) s = execSlewGovernorTick p s := rfl
  simp only [List.getD_eq_getElem?_getD] at h
  rw [hexec, execSlewGovernorTick, inRange_next hp, if_neg (by omega), h]
  rfl

theorem exec_slewGovernorTick_middle (h : p = 5 ∨ p = 6) : exec (.slewGovernorTick p) s = .next s := by
  have hexec : exec (.slewGovernorTick p) s = execSlewGovernorTick p s := rfl
  rw [hexec, execSlewGovernorTick, inRange_next (by omega), if_pos h]

end Sys2Proof.Machine

/-! SUPPORT. The thermal model and its actions (R620 to R623, R662 to R677). -/

namespace Sys2Proof.Machine

variable {s : State} {nodes : List Int}

/-- An update that neither HOLD nor a trip forces publishes its fractions and decisions. -/
theorem modelUpdate_publishes (hready : s.rbit .drvReady 0 0 60 = true) (htripped : s.tripped = false)
    (hcool : tripSite ((s.therm.calibrate nodes).sites nodes) nodes = none) (hhold : s.fld .thmCfg 0 0 31 31 = 0) :
    let th := s.therm.calibrate nodes
    let now := th.sites nodes
    let t := s.modelUpdate nodes
    t.tripped = false ∧ t.therm.fcap = th.capTerm (capLimit (s.fld .thmCfg 0 0 10 0)) ∧
    t.therm.hist = (now :: s.therm.hist).take 10 ∧ t.rbit .drvReady 0 0 60 = true ∧ ∀ p < 12,
      t.fld .thmPas 0 p 63 48 = field16 ((now[p]?).getD 0) ∧
      t.fld .thmPas 0 p 31 23 = (throttleTerms ((now[p]?).getD 0) (th.rate now p) ((now[12 + p]?).getD 0) (th.rate now (12 + p))
        s.thmRate (th.capTerm (capLimit (s.fld .thmCfg 0 0 10 0)))).foldl max 0 ∧
      t.rbit .thmStk 0 p 15 = gateDecision (s.rbit .thmStk 0 p 15) ((now[12 + p]?).getD 0) ∧
      t.rbit .thmStk 0 p 14 = refreshDecision (s.rbit .thmStk 0 p 14) ((now[12 + p]?).getD 0) := by
  intro th now t
  have hcal : s.calibrated nodes = th := State.calibrated_of_ready hready nodes
  have hsites : s.siteTemps nodes = now := s.siteTemps_eq nodes
  have hnext : s.nextTherm nodes = { th with
      fcap := th.capTerm (capLimit (s.fld .thmCfg 0 0 10 0)), terms := activeTerms now th s.thmRate, dogs := [] } := by
    rw [State.nextTherm, hcal, hsites]
  obtain ⟨hentered, hunforced⟩ : (s.entered nodes).tripped = false ∧ (s.entered nodes).forced = false := by
    rw [State.entered, hsites, hcool]
    exact enterPower_unforced htripped hhold
  have hend := modelUpdate_updateEnd s nodes
  rw [hsites, hnext] at hend
  refine ⟨hend.tripped.trans ((publish_keepsMode ..).tripped.trans hentered), ?_, ?_, hend.ready, fun p hp => ?_⟩
  · rw [hend.therm]
  · rw [hend.therm, Therm.calibrate_hist]
  · obtain ⟨htemp, hfraction⟩ := modelUpdate_pasture s nodes hp
    obtain ⟨hgate, hrefresh⟩ := modelUpdate_stack s nodes hentered hp
    rw [hunforced, Therm.fraction, throttle_fst, hnext] at hfraction
    rw [hsites] at htemp hfraction hgate hrefresh
    exact ⟨htemp, hfraction, hgate, hrefresh⟩

/-- Settles O54: an update is its publication, its closing and its events; each action is one change of the model or of a few
registers, which leaves the others. -/
theorem thermalModelAndItsActions : Obligations.ThermalModelAndItsActions := by
  refine ⟨fun s nodes hlen hreset hdrover hfw => ?update, fun s p hp =>
    ⟨?readings, ?powers, ?package, ?apply, ?watchdog, ?gate, ?hold, ?trip, ?slew, exec_slewGovernorTick_middle⟩⟩
  case update =>
    have hexec := exec_thermalModelUpdate hlen hreset hdrover hfw
    have hsites := s.siteTemps_eq nodes
    simp only [List.getD_eq_getElem?_getD]
    refine ⟨fun hready htripped hcool hhold => ⟨_, hexec, ?_⟩, fun htripped hhot => ⟨_, hexec, ?_⟩⟩
    · exact modelUpdate_publishes hready htripped hcool hhold
    · exact modelUpdate_trips htripped (tripSite_isSome (hsites ▸ hhot))
  case readings =>
    intro xs hxs
    refine ⟨_, exec_sensorReading hxs, rfl, rfl, rfl, fun i hi => ?_⟩
    rw [List.getD_eq_getElem?_getD]
    exact bit_mask _ hi
  case powers => exact fun xs hxs => ⟨_, exec_powerMeasurement hxs, rfl, rfl, rfl⟩
  case package =>
    exact fun w => ⟨_, exec_packagePowerMeasurement s w, eq_therm_regs_of_setTherm (setPower_regs ..),
      setPower_fields _ _ (Nat.min_le_right ..)⟩
  case apply => exact fun hready => ⟨_, exec_fractionApply hp hready, rfl, Sparse.get_set_same⟩
  case watchdog =>
    exact ⟨_, exec_fractionWatchdog hp, rfl, fun f hf => State.withheld_of_frac (by simp [State.setTherm, hf])⟩
  case gate =>
    obtain ⟨hclosed, hothers⟩ := closeGate_gateClosed
      (s.setTherm { s.therm with dogs := (List.range 24).filter fun j => j = 12 + p ∨ j ∈ s.therm.dogs }) hp
    exact ⟨_, exec_gateDecisionWatchdog hp, hclosed, closeGate_dram .., fun k hk hk' => hothers k hk' hk⟩
  case hold =>
    intro v
    refine ⟨fun h => ?_, fun h => ⟨_, exec_holdWrite v, writeThmCfg_hold_of_tripped h _⟩⟩
    rw [exec_holdWrite, State.writeThmCfg, h]
    rfl
  case trip =>
    intro i hi htripped
    obtain ⟨htrip, htherm, hgates⟩ := trip_spec
      (s := s.setTherm { s.therm with hot := s.therm.hot ||| 2 ^ i }) htripped i
    refine ⟨_, exec_sensorTrip hi, htrip, ?_, hgates⟩
    rw [htherm, bit, State.setTherm, Nat.testBit_or, Nat.testBit_two_pow_self, Bool.or_true]
  case slew => exact fun h5 h6 x rest h => ⟨_, exec_slewGovernorTick hp h5 h6 h, rfl, Sparse.get_set_same⟩

end Sys2Proof.Machine

/-! SUPPORT. Where the registers stand that activation, boot and the fold image policy read or write, a field or a bit beside a
written one, and the range of a number in an image. -/

namespace Sys2Proof.Machine

@[simp] theorem Reg.addr_drvSelf (i j : Nat) : Reg.drvSelf.addr i j = 0x030000000008 := by simp [Reg.addr, Reg.row, Block.base]
@[simp] theorem Reg.addr_drvFoldStatus (i j : Nat) : Reg.drvFoldStatus.addr i j = 0x030000000110 := by
  simp [Reg.addr, Reg.row, Block.base]
@[simp] theorem Reg.addr_drvResetStatus (i j : Nat) : Reg.drvResetStatus.addr i j = 0x030000000210 := by
  simp [Reg.addr, Reg.row, Block.base]
@[simp] theorem Reg.addr_secFwStatus (i j : Nat) : Reg.secFwStatus.addr i j = 0x030000200000 := by
  simp [Reg.addr, Reg.row, Block.base]
@[simp] theorem Reg.addr_secFwCtrl (i j : Nat) : Reg.secFwCtrl.addr i j = 0x030000200008 := by simp [Reg.addr, Reg.row, Block.base]
@[simp] theorem Reg.addr_secBank (i j : Nat) : Reg.secBank.addr i j = 0x030000200010 + j * 8 := by
  simp [Reg.addr, Reg.row, Block.base]
@[simp] theorem Reg.addr_secPolicy (i j : Nat) : Reg.secPolicy.addr i j = 0x030000200020 := by simp [Reg.addr, Reg.row, Block.base]
@[simp] theorem Reg.addr_secFoldKey (i j : Nat) : Reg.secFoldKey.addr i j = 0x030000200028 := by
  simp [Reg.addr, Reg.row, Block.base]
@[simp] theorem Reg.addr_secLms (i j : Nat) : Reg.secLms.addr i j = 0x030000200030 := by simp [Reg.addr, Reg.row, Block.base]
@[simp] theorem Reg.addr_cxlStatus (i j : Nat) : Reg.cxlStatus.addr i j = 0x030000300000 := by simp [Reg.addr, Reg.row, Block.base]

/-- The registers of the flocks. -/
def flkRegs : Set Nat := {a | Block.flk.base 0 ≤ a}

theorem addr_mem_flkRegs {r : Reg} (h : r.row.block = .flk) (i j : Nat) : r.addr i j ∈ flkRegs := by
  rw [Reg.addr, h]
  show 0x030010000000 ≤ _
  simp only [Block.base]
  omega

theorem not_mem_flkRegs {a : Nat} (h : a < Block.flk.base 0) : a ∉ flkRegs := Nat.not_le.2 h

theorem RegsOutside.mono {w w' : Set Nat} {s t : State} (h : RegsOutside w s t) (hw : w ⊆ w') : RegsOutside w' s t :=
  ⟨fun r i j hr => h.reg r i j fun hin => hr (hw hin)⟩

theorem State.fld_setRbit_ne (s : State) (r : Reg) (i j : Nat) {b hi lo : Nat} (v : Bool) (h : b < 64) (hd : hi < b ∨ b < lo) :
    (s.setRbit r i j b v).fld r i j hi lo = s.fld r i j hi lo := s.fld_setFld_ne r i j b b hi lo _ h hd

@[simp] theorem State.setFw_fw (s : State) (w : Firmware) : (s.setFw w).fw = w := rfl

theorem bankImage_congr {s t : State} (h : t.fw.image = s.fw.image) (b : Nat) : t.bankImage b = s.bankImage b := by
  rw [State.bankImage, h, State.bankImage]

theorem ofLE_lt (bs : List Byte) : ofLE bs < 256 ^ bs.length := by
  induction bs with
  | nil => exact Nat.one_pos
  | cons b bs ih =>
    have hb : b.toNat < 256 := b.isLt
    rw [ofLE, List.length_cons, Nat.pow_succ]
    omega

theorem slice_length (bs : List Byte) (i n : Nat) : (slice bs i n).length = n := by
  simp only [slice, List.length_append, List.length_replicate, List.length_take]
  omega

theorem leAt_lt (bs : List Byte) (i n : Nat) : leAt bs i n < 256 ^ n := (ofLE_lt _).trans_eq (by rw [slice_length])

end Sys2Proof.Machine

/-! SUPPORT. Requests for an activation and COMMIT, which are writes of SEC_FW_CTRL (R736, R737, R739). -/

namespace Sys2Proof.Machine

variable {s : State}

/-! ### A write of SEC_FW_CTRL -/

/-- SEC_FW_CTRL holds what its fields take of a written value. -/
def State.fwCtrlWritten (s : State) (v : Nat) : State :=
  s.setReg .secFwCtrl 0 0 (Reg.secFwCtrl.written (s.reg .secFwCtrl 0 0) v)

theorem fwCtrlWritten_outside (s : State) (v : Nat) : RegsOutside {Reg.secFwCtrl.addr 0 0} s (s.fwCtrlWritten v) :=
  setReg_outside (Set.mem_singleton _) ..

section
variable (s : State) (v : Nat)

@[simp] theorem State.fwCtrlWritten_fw : (s.fwCtrlWritten v).fw = s.fw := State.setReg_fw ..
@[simp] theorem State.fwCtrlWritten_bankImage (b : Nat) : (s.fwCtrlWritten v).bankImage b = s.bankImage b :=
  bankImage_congr (congrArg Firmware.image (s.fwCtrlWritten_fw v)) b
@[simp] theorem State.fwCtrlWritten_activeBank : (s.fwCtrlWritten v).activeBank = s.activeBank :=
  (fwCtrlWritten_outside s v).fld (by simp) ..
@[simp] theorem State.fwCtrlWritten_trial : (s.fwCtrlWritten v).trial = s.trial := (fwCtrlWritten_outside s v).rbit (by simp) _
@[simp] theorem State.fwCtrlWritten_fwVersion : (s.fwCtrlWritten v).fwVersion = s.fwVersion :=
  (fwCtrlWritten_outside s v).fld (by simp) ..
@[simp] theorem State.fwCtrlWritten_svnFloor : (s.fwCtrlWritten v).svnFloor = s.svnFloor :=
  (fwCtrlWritten_outside s v).fld (by simp) ..
@[simp] theorem State.fwCtrlWritten_bankState (b : Nat) : (s.fwCtrlWritten v).bankState b = s.bankState b :=
  (fwCtrlWritten_outside s v).fld (by simp; omega) ..
@[simp] theorem State.fwCtrlWritten_actBusy : (s.fwCtrlWritten v).actBusy = s.actBusy := by
  have h := fwCtrlWritten_outside s v
  simp only [State.actBusy, h.rbit (r := .drvFoldStatus) (i := 0) (j := 0) (by simp),
    h.rbit (r := .drvResetStatus) (i := 0) (j := 0) (by simp), State.fwCtrlWritten_fw]

end

theorem writeFwCtrl_activate {v : Nat} (hact : bit v 30 = true) (hcommit : bit v 31 = false)
    (hbank : s.bankState (bits v 29 29) = 1) :
    s.writeFwCtrl v = (s.fwCtrlWritten v).activate (bits v 29 29) (bit v 28) 0 0 := by
  have hbank' : (s.fwCtrlWritten v).bankState (bits v 29 29) = 1 := by simpa
  rw [State.fwCtrlWritten] at hbank' ⊢
  simp [State.writeFwCtrl, hact, hcommit, hbank']

theorem writeFwCtrl_commit {v : Nat} (hact : bit v 30 = false) (hcommit : bit v 31 = true) :
    s.writeFwCtrl v = (s.fwCtrlWritten v).commitFw := by
  simp [State.writeFwCtrl, hact, hcommit, State.fwCtrlWritten]

/-! ### Requests (R736, R737) -/

section
variable {b asker session : Nat}

theorem activate_busy (hbusy : s.actBusy = true) (atReset : Bool) : s.activate b atReset asker session = s.actRefuse asker session 8 :=
  if_pos hbusy

theorem activate_atReset (hidle : s.actBusy = false) :
    s.activate b true asker session = (s.setFw { s.fw with boot := b }).actResult asker session 0 := by
  simp [State.activate, hidle]

theorem activate_online (hidle : s.actBusy = false) (hrec : s.fw.recovery = false) (hb : b ≠ s.activeBank)
    (hsvn : s.svnFloor ≤ fwSvn (s.bankImage b)) (hfloor : leAt (s.bankImage b) 16 4 ≤ s.fwVersion)
    (hmatrix : matrixOk (s.bankImage s.activeBank) (s.bankImage b) = true) :
    s.activate b false asker session = s.actStart b asker session := by
  simp [State.activate, hidle, hrec, hb, hmatrix, Nat.not_lt.2 hsvn, Nat.not_lt.2 hfloor]

theorem moving_of_not_actBusy (hidle : s.actBusy = false) : s.fw.moving = none := by
  simp only [State.actBusy, Bool.or_eq_false_iff, Option.isSome_eq_false_iff, Option.isNone_iff_eq_none] at hidle
  exact hidle.2

theorem actResult_registers (s : State) (session err : Nat) : s.actResult 0 session err = s := rfl

theorem actRefuse_fw (s : State) (session err : Nat) : (s.actRefuse 0 session err).fw = s.fw :=
  (State.setFld_fw ..).trans (State.setRbit_fw ..)

theorem actRefuse_error (s : State) (session : Nat) {err : Nat} (h : err < 2 ^ 8) :
    (s.actRefuse 0 session err).fld .secFwStatus 0 0 47 40 = err :=
  (State.fld_setFld_same _ _ 0 0 47 40 err (by decide)).trans (Nat.mod_eq_of_lt h)

theorem actStart_fw (s : State) (b asker session : Nat) : (s.actStart b asker session).fw =
    { s.fw with moving := some { bank := b, back := false, asker := asker, session := session } } := by
  rw [State.actStart, State.setFld_fw, State.setFld_fw, State.setRbit_fw, State.setFw_fw]

theorem actStart_step (s : State) (b asker session : Nat) : (s.actStart b asker session).fwStep = 1 :=
  (State.fld_setFld_ne _ _ 0 0 51 48 55 52 0 (by decide) (.inr (by decide))).trans
    (State.fld_setFld_same _ _ 0 0 55 52 1 (by decide))

theorem actStart_unit (s : State) (b asker session : Nat) : (s.actStart b asker session).fwUnit = 0 :=
  State.fld_setFld_same _ _ 0 0 51 48 0 (by decide)

theorem actStart_busy (s : State) (b asker session : Nat) : (s.actStart b asker session).rbit .secFwStatus 0 0 63 = true := by
  rw [State.actStart, State.rbit_setFld_ne _ _ 0 0 0 (by decide) (.inr (by decide)),
    State.rbit_setFld_ne _ _ 0 0 1 (by decide) (.inr (by decide)), State.rbit_setRbit_same _ _ 0 0 63 true (by decide)]

end

theorem exec_fwActivateOnline (v : Word32) : exec (.fwActivateOnline v) s = .next (s.writeFwCtrl v.toNat) := rfl
theorem exec_fwActivateAtReset (v : Word32) : exec (.fwActivateAtReset v) s = .next (s.writeFwCtrl v.toNat) := rfl

/-! ### COMMIT (R739) -/

/-- The value that FW_COMMIT writes. -/
theorem bit_commitValue (n : Nat) : bit (2 ^ 31 + n % 2 ^ 30) 31 = true ∧ bit (2 ^ 31 + n % 2 ^ 30) 30 = false := by
  have hn : n % 2 ^ 30 < 2 ^ 30 := Nat.mod_lt _ (Nat.two_pow_pos _)
  constructor
  · rw [bit, Nat.testBit_two_pow_add_eq, Nat.testBit_lt_two_pow (hn.trans (by decide))]
    rfl
  · rw [bit, Nat.testBit_two_pow_add_gt (by decide), Nat.testBit_lt_two_pow hn]

theorem exec_fwCommit : exec .fwCommit s = .next (s.fwCtrlWritten (2 ^ 31 + s.reg .secFwCtrl 0 0 % 2 ^ 30)).commitFw := by
  obtain ⟨hcommit, hact⟩ := bit_commitValue (s.reg .secFwCtrl 0 0)
  rw [← writeFwCtrl_commit hact hcommit]
  rfl

/-- The roll-back floor as COMMIT leaves it. -/
def State.raiseFloor (s : State) (img : List Byte) : State :=
  if bit (leAt img 7 1) 0 then s.setFld .secPolicy 0 0 5 0 (max s.svnFloor (fwSvn img)) else s

theorem raiseFloor_outside (s : State) (img : List Byte) : RegsOutside {Reg.secPolicy.addr 0 0} s (s.raiseFloor img) :=
  .ite (setFld_outside_self ..) (.refl s)

theorem commitFw_settled (h : s.trial = false) : s.commitFw = s := by simp [State.commitFw, h]

theorem commitFw_trial (h : s.trial = true) :
    s.commitFw = (s.setRbit .secFwStatus 0 0 59 false).raiseFloor (s.bankImage s.activeBank) := by
  simp [State.commitFw, h, State.raiseFloor]

theorem raiseFloor_fw (s : State) (img : List Byte) : (s.raiseFloor img).fw = s.fw := by
  unfold State.raiseFloor
  split_ifs
  · exact State.setFld_fw ..
  · rfl

theorem commitFw_fw (s : State) : s.commitFw.fw = s.fw := by
  cases h : s.trial
  · rw [commitFw_settled h]
  · rw [commitFw_trial h, raiseFloor_fw, State.setRbit_fw]

theorem commitFw_ends_trial (s : State) : s.commitFw.trial = false := by
  cases h : s.trial
  · rw [commitFw_settled h, h]
  · rw [commitFw_trial h]
    exact ((raiseFloor_outside ..).rbit (by simp) 59).trans (State.rbit_setRbit_same _ _ 0 0 59 false (by decide))

theorem commitFw_svnFloor (h : s.trial = true) (hraise : bit (leAt (s.bankImage s.activeBank) 7 1) 0 = true)
    (hsvn : fwSvn (s.bankImage s.activeBank) < 64) :
    s.commitFw.svnFloor = max s.svnFloor (fwSvn (s.bankImage s.activeBank)) := by
  have hkept : (s.setRbit .secFwStatus 0 0 59 false).svnFloor = s.svnFloor := (setRbit_outside_self ..).fld (by simp) ..
  have hfloor : s.svnFloor < 64 := bits_lt ..
  rw [commitFw_trial h, State.raiseFloor, if_pos hraise, hkept]
  exact (State.fld_setFld_same _ _ 0 0 5 0 _ (by decide)).trans (Nat.mod_eq_of_lt (max_lt hfloor hsvn))

end Sys2Proof.Machine

/-! SUPPORT. The units of an activation in the order of Table 19.12a, and its two endings (R737, R738). -/

namespace Sys2Proof.Machine

variable {s : State} {m : Moving} {old : Nat} {x : Nat × Nat}

/-! ### The order of the units -/

theorem nextUnit_lt {step unit : Nat} (h : nextUnit step unit = some x) : x.1 < 16 ∧ x.2 < 16 := by
  unfold nextUnit at h
  split at h
  · cases h; decide
  · cases h; decide
  · split_ifs at h <;> cases h <;> dsimp only <;> omega
  · split_ifs at h; cases h; dsimp only; omega

theorem prevUnit_lt {step unit : Nat} (hunit : unit < 16) (h : prevUnit step unit = some x) : x.1 < 16 ∧ x.2 < 16 := by
  unfold prevUnit at h
  split at h
  · cases h
  · cases h; decide
  · split_ifs at h <;> cases h <;> dsimp only <;> omega
  · split_ifs at h <;> cases h <;> dsimp only <;> omega

theorem State.fwUnit_lt (s : State) : s.fwUnit < 16 := bits_lt ..

/-! ### One unit gives way to another -/

/-- SEC_FW_STATUS shows a STEP and a UNIT. -/
def State.showUnit (s : State) (x : Nat × Nat) : State := (s.setFld .secFwStatus 0 0 55 52 x.1).setFld .secFwStatus 0 0 51 48 x.2

theorem showUnit_step (s : State) (h : x.1 < 16) : (s.showUnit x).fwStep = x.1 :=
  (State.fld_setFld_ne _ _ 0 0 51 48 55 52 x.2 (by decide) (.inr (by decide))).trans
    ((State.fld_setFld_same _ _ 0 0 55 52 x.1 (by decide)).trans (Nat.mod_eq_of_lt h))

theorem showUnit_unit (s : State) (h : x.2 < 16) : (s.showUnit x).fwUnit = x.2 :=
  (State.fld_setFld_same _ _ 0 0 51 48 x.2 (by decide)).trans (Nat.mod_eq_of_lt h)

theorem showUnit_fw (s : State) (x : Nat × Nat) : (s.showUnit x).fw = s.fw :=
  (State.setFld_fw ..).trans (State.setFld_fw ..)

theorem showUnit_activeBank (s : State) (x : Nat × Nat) : (s.showUnit x).activeBank = s.activeBank :=
  (State.fld_setFld_ne _ _ 0 0 51 48 60 60 x.2 (by decide) (.inr (by decide))).trans
    (State.fld_setFld_ne _ _ 0 0 55 52 60 60 x.1 (by decide) (.inr (by decide)))

/-- Nothing waits for the unit that has restarted: no event for the drover, no failure for a hearth controller. -/
structure State.NothingWaits (s : State) (step : Nat) : Prop where
  events : step = 1 → s.fw.events = []
  fails : step = 3 → s.fw.fails = []

theorem State.NothingWaits.leaveUnit (h : s.NothingWaits old) : s.leaveUnit old = s := by
  unfold State.leaveUnit
  split_ifs with hdrover hhearth
  · have hfw : s.setFw { s.fw with events := [] } = s := by rw [← h.events hdrover]; rfl
    rw [h.events hdrover, List.foldl_nil, hfw]
  · have hfw : s.setFw { s.fw with fails := [] } = s := by rw [← h.fails hhearth]; rfl
    rw [State.runFails, h.fails hhearth, List.foldl_nil]
    exact hfw
  · rfl

theorem State.NothingWaits.toUnit (h : s.NothingWaits old) (x : Nat × Nat) : s.toUnit old x = s.showUnit x :=
  State.NothingWaits.leaveUnit (s := s.showUnit x) ⟨h.events, h.fails⟩

/-! ### The endings -/

/-- An activation is over: no unit restarts, and SEC_FW_STATUS shows its ERROR. -/
def State.endMoving (s : State) (err : Nat) : State := ((s.setFw { s.fw with moving := none }).showUnit (0, 0)).fwEnd err

/-- The set of bank `b` runs in trial, and the one that ran before is its roll-back bank. -/
def State.startTrial (s : State) (b : Nat) : State :=
  let t := s.setFw { s.fw with boot := b, prev := s.activeBank }
  ((t.setRbit .secFwStatus 0 0 59 true).setFld .secFwStatus 0 0 60 60 b).setFld .secFwStatus 0 0 31 0 (fwSetVersion (t.bankImage b))

theorem actEnd_passed (h : s.NothingWaits old) (hasker : m.asker = 0) : s.actEnd m old 0 = (s.endMoving 0).startTrial m.bank := by
  have hunit := State.NothingWaits.toUnit (s := s.setFw { s.fw with moving := none }) ⟨h.events, h.fails⟩ (0, 0)
  simp only [State.actEnd, hasker, hunit, if_pos, actResult_registers]
  rfl

theorem actEnd_failed {err : Nat} (h : s.NothingWaits old) (hasker : m.asker = 0) (herr : err ≠ 0) :
    s.actEnd m old err = (s.endMoving err).setRbit .secFwStatus 0 0 58 true := by
  have hunit := State.NothingWaits.toUnit (s := s.setFw { s.fw with moving := none }) ⟨h.events, h.fails⟩ (0, 0)
  simp only [State.actEnd, hasker, hunit, if_neg herr, actResult_registers]
  rfl

theorem endMoving_fw (s : State) (err : Nat) : (s.endMoving err).fw = { s.fw with moving := none } := rfl

theorem endMoving_error (s : State) {err : Nat} (h : err < 2 ^ 8) : (s.endMoving err).fld .secFwStatus 0 0 47 40 = err :=
  (State.fld_setFld_same _ _ 0 0 47 40 err (by decide)).trans (Nat.mod_eq_of_lt h)

/-- The end of an operation leaves the fields between STAGE and ERROR, and those between DONE and STAGE. -/
theorem fwEnd_fld (s : State) (err : Nat) {hi lo : Nat} (h : 48 ≤ lo ∧ hi < 56 ∨ 58 ≤ lo ∧ hi < 62) :
    (s.fwEnd err).fld .secFwStatus 0 0 hi lo = s.fld .secFwStatus 0 0 hi lo := by
  rw [State.fwEnd, State.fld_setFld_ne _ _ 0 0 47 40 hi lo err (by decide) (by omega),
    State.fld_setFld_ne _ _ 0 0 57 56 hi lo 0 (by decide) (by omega), State.fld_setRbit_ne _ _ 0 0 _ (by decide) (by omega),
    State.fld_setRbit_ne _ _ 0 0 _ (by decide) (by omega)]

theorem fwEnd_busy (s : State) (err : Nat) : (s.fwEnd err).rbit .secFwStatus 0 0 63 = false := by
  rw [State.fwEnd, State.rbit_setFld_ne _ _ 0 0 err (by decide) (.inr (by decide)),
    State.rbit_setFld_ne _ _ 0 0 0 (by decide) (.inr (by decide)), State.rbit_setRbit_ne _ _ 0 0 62 63 true (by decide) (by decide),
    State.rbit_setRbit_same _ _ 0 0 63 false (by decide)]

theorem endMoving_step (s : State) (err : Nat) : (s.endMoving err).fwStep = 0 :=
  (fwEnd_fld _ err (.inl ⟨by decide, by decide⟩)).trans (showUnit_step _ (by decide))

theorem endMoving_activeBank (s : State) (err : Nat) : (s.endMoving err).activeBank = s.activeBank :=
  (fwEnd_fld _ err (.inr ⟨by decide, by decide⟩)).trans (showUnit_activeBank ..)

theorem startTrial_fw (s : State) (b : Nat) : (s.startTrial b).fw = { s.fw with boot := b, prev := s.activeBank } := rfl

theorem startTrial_version (s : State) (b : Nat) : (s.startTrial b).fwVersion = fwSetVersion (s.bankImage b) := by
  have himg : (s.setFw { s.fw with boot := b, prev := s.activeBank }).bankImage b = s.bankImage b := bankImage_congr rfl b
  rw [State.fwVersion, State.startTrial, State.fld_setFld_same _ _ 0 0 31 0 _ (by decide), himg]
  exact Nat.mod_eq_of_lt (leAt_lt _ 12 4)

theorem startTrial_activeBank (s : State) {b : Nat} (h : b < 2) : (s.startTrial b).activeBank = b :=
  (State.fld_setFld_ne _ _ 0 0 31 0 60 60 _ (by decide) (.inr (by decide))).trans
    ((State.fld_setFld_same _ _ 0 0 60 60 b (by decide)).trans (Nat.mod_eq_of_lt h))

theorem startTrial_trial (s : State) (b : Nat) : (s.startTrial b).trial = true := by
  rw [State.trial, State.startTrial, State.rbit_setFld_ne _ _ 0 0 _ (by decide) (.inr (by decide)),
    State.rbit_setFld_ne _ _ 0 0 b (by decide) (.inl (by decide)), State.rbit_setRbit_same _ _ 0 0 59 true (by decide)]

/-- The start of a trial leaves what SEC_FW_STATUS shows of operations. -/
theorem startTrial_fld (s : State) (b : Nat) {hi lo : Nat} (h : 32 ≤ lo ∧ hi < 59 ∨ 61 ≤ lo) :
    (s.startTrial b).fld .secFwStatus 0 0 hi lo = s.fld .secFwStatus 0 0 hi lo := by
  rw [State.startTrial, State.fld_setFld_ne _ _ 0 0 31 0 hi lo _ (by decide) (by omega),
    State.fld_setFld_ne _ _ 0 0 60 60 hi lo b (by decide) (by omega), State.fld_setRbit_ne _ _ 0 0 _ (by decide) (by omega)]
  rfl

theorem startTrial_busy (s : State) (b : Nat) : (s.startTrial b).rbit .secFwStatus 0 0 63 = s.rbit .secFwStatus 0 0 63 := by
  rw [State.rbit_eq_fld, startTrial_fld s b (.inr (by decide)), ← State.rbit_eq_fld]

/-! ### UNIT_RESTART_COMPLETE -/

section
variable (hm : s.fw.moving = some m) (hpeat : s.fwStep = 4 → s.peat = [])
include hm hpeat

/-- What a restart that ends does, once the peat unit has no descriptor left. -/
theorem exec_unitRestartComplete (passed : Bool) :
    exec (.unitRestartComplete passed) s = .next (
      if m.back then (prevUnit s.fwStep s.fwUnit).elim (s.actEnd m s.fwStep 0x0B) (s.toUnit s.fwStep)
      else if passed then (nextUnit s.fwStep s.fwUnit).elim (s.actEnd m s.fwStep 0) (s.toUnit s.fwStep)
      else s.setFw { s.fw with moving := some { m with back := true } }) := by
  have hnone : ¬(s.fwStep = 4 ∧ (s.peat.any fun j => j.f / 56 == s.fwUnit) = true) := by
    rintro ⟨hstep, hany⟩
    simp [hpeat hstep] at hany
  have hexec : exec (.unitRestartComplete passed) s = execUnitRestartComplete passed s := rfl
  rw [hexec, execUnitRestartComplete, hm]
  dsimp only
  rw [if_neg hnone]
  congr 3
  · cases prevUnit s.fwStep s.fwUnit <;> rfl
  · cases nextUnit s.fwStep s.fwUnit <;> rfl

theorem restart_moves_on (hback : m.back = false) (hw : s.NothingWaits s.fwStep) (hx : nextUnit s.fwStep s.fwUnit = some x) :
    exec (.unitRestartComplete true) s = .next (s.showUnit x) := by
  simp [exec_unitRestartComplete hm hpeat, hback, hx, hw.toUnit]

theorem restart_passes (hback : m.back = false) (hw : s.NothingWaits s.fwStep) (hlast : nextUnit s.fwStep s.fwUnit = none)
    (hasker : m.asker = 0) : exec (.unitRestartComplete true) s = .next ((s.endMoving 0).startTrial m.bank) := by
  simp [exec_unitRestartComplete hm hpeat, hback, hlast, actEnd_passed hw hasker]

theorem restart_turns_back (hback : m.back = false) :
    exec (.unitRestartComplete false) s = .next (s.setFw { s.fw with moving := some { m with back := true } }) := by
  simp [exec_unitRestartComplete hm hpeat, hback]

theorem restart_moves_back (hback : m.back = true) (hw : s.NothingWaits s.fwStep) (passed : Bool)
    (hx : prevUnit s.fwStep s.fwUnit = some x) : exec (.unitRestartComplete passed) s = .next (s.showUnit x) := by
  simp [exec_unitRestartComplete hm hpeat, hback, hx, hw.toUnit]

theorem restart_rolled_back (hback : m.back = true) (hw : s.NothingWaits s.fwStep) (passed : Bool) (hstep : s.fwStep = 1)
    (hasker : m.asker = 0) :
    exec (.unitRestartComplete passed) s = .next ((s.endMoving 0x0B).setRbit .secFwStatus 0 0 58 true) := by
  have hfirst : prevUnit s.fwStep s.fwUnit = none := by rw [hstep]; rfl
  simp [exec_unitRestartComplete hm hpeat, hback, hfirst, actEnd_failed hw hasker]

end

end Sys2Proof.Machine

/-! SUPPORT. The boot (R729, R739): what the boot ROM verifies, and what the drover writes on its way to READY. -/

namespace Sys2Proof.Machine

variable {s t : State}

/-! ### The banks -/

/-- A bank that a staging held is INVALID. -/
def State.dropBank (s : State) (b : Nat) : State := if s.bankState b = 2 then s.setBankState b 3 else s

theorem dropStaged_eq (s : State) : s.dropStaged = (s.dropBank 0).dropBank 1 := rfl

theorem dropBank_fw (s : State) (b : Nat) : (s.dropBank b).fw = s.fw := by
  unfold State.dropBank
  split_ifs
  · exact State.setFld_fw ..
  · rfl

theorem dropBank_outside (s : State) (b : Nat) : RegsOutside {Reg.secBank.addr 0 b} s (s.dropBank b) :=
  .ite (setFld_outside_self ..) (.refl s)

theorem dropBank_valid_iff (s : State) (b b' : Nat) : (s.dropBank b).bankState b' = 1 ↔ s.bankState b' = 1 := by
  by_cases hb : b' = b
  · subst hb
    unfold State.dropBank
    split_ifs with hstaged
    · have hset : (s.setBankState b' 3).bankState b' = 3 := State.fld_setFld_same _ _ 0 b' 63 62 3 (by decide)
      simp [hset, hstaged]
    · rfl
  · have hkept : (s.dropBank b).bankState b' = s.bankState b' := (dropBank_outside s b).fld (by simpa using hb) ..
    rw [hkept]

theorem bootOk_congr (hfw : t.fw = s.fw) (hfloor : t.svnFloor = s.svnFloor) {b : Nat}
    (hbank : t.bankState b = 1 ↔ s.bankState b = 1) : t.bootOk b = s.bootOk b := by
  simp only [State.bootOk, bankImage_congr (congrArg Firmware.image hfw), hfloor, beq_eq_decide, hbank]

theorem dropBank_bootOk (s : State) {b : Nat} (h : b < 2) (b' : Nat) : (s.dropBank b).bootOk b' = s.bootOk b' :=
  bootOk_congr (dropBank_fw s b) ((dropBank_outside s b).fld (by simp; omega) ..) (dropBank_valid_iff s b b')

theorem dropStaged_fw (s : State) : s.dropStaged.fw = s.fw := by rw [dropStaged_eq, dropBank_fw, dropBank_fw]

theorem dropStaged_bootOk (s : State) (b : Nat) : s.dropStaged.bootOk b = s.bootOk b := by
  rw [dropStaged_eq, dropBank_bootOk _ (by decide), dropBank_bootOk _ (by decide)]

theorem dropStaged_outside (s : State) : RegsOutside {Reg.secBank.addr 0 0, Reg.secBank.addr 0 1} s s.dropStaged :=
  ((dropBank_outside s 0).mono (by simp)).trans ((dropBank_outside (s.dropBank 0) 1).mono (by simp))

/-! ### From a verified bank to READY -/

/-- SEC_FW_STATUS names the set of bank `b` as the running one. -/
def State.runSet (s : State) (b : Nat) : State :=
  (s.setFld .secFwStatus 0 0 60 60 b).setFld .secFwStatus 0 0 31 0 (fwSetVersion (s.bankImage b))

/-- The retirement record is applied and the spare maps are those of R251. -/
def State.applyRetirement (s : State) : State :=
  let t := s.nor.foldl (fun s x => s.setCbit .flkPhysGoodLo .flkPhysGoodHi x.1 x.2 false) s
  (t.nor.map (·.1)).dedup.foldl (fun s f => s.applyMap f (s.mapFor f [])) t

theorem bootFrom_eq (s : State) (b : Nat) :
    s.bootFrom b = (((s.runSet b).applyRetirement.setLms (s.runSet b).applyRetirement.fw.lmsEnd).setRbit .drvReady 0 0 62 true).cxlUp := rfl

theorem runSet_activeBank (s : State) {b : Nat} (h : b < 2) : (s.runSet b).activeBank = b :=
  (State.fld_setFld_ne _ _ 0 0 31 0 60 60 _ (by decide) (.inr (by decide))).trans
    ((State.fld_setFld_same _ _ 0 0 60 60 b (by decide)).trans (Nat.mod_eq_of_lt h))

theorem runSet_version (s : State) (b : Nat) : (s.runSet b).fwVersion = fwSetVersion (s.bankImage b) :=
  (State.fld_setFld_same _ _ 0 0 31 0 _ (by decide)).trans (Nat.mod_eq_of_lt (leAt_lt _ 12 4))

theorem runSet_fw (s : State) (b : Nat) : (s.runSet b).fw = s.fw := (State.setFld_fw ..).trans (State.setFld_fw ..)

theorem setCbit_physGood_outside (s : State) (f c : Nat) (v : Bool) :
    RegsOutside flkRegs s (s.setCbit .flkPhysGoodLo .flkPhysGoodHi f c v) := by
  refine setRbit_outside (addr_mem_flkRegs ?_ f 0) ..
  unfold coreBit
  split_ifs <;> rfl

/-- Spare maps lie in no register, and the firmware has no part in them. -/
theorem applyMap_regs_fw (s : State) (f : Nat) (m : Nat → Nat) : (s.applyMap f m).regs = s.regs ∧ (s.applyMap f m).fw = s.fw :=
  List.foldlRecOn (motive := fun t : State => t.regs = s.regs ∧ t.fw = s.fw) _ _ ⟨rfl, rfl⟩ fun _ h _ _ => h

theorem applyRetirement_fw (s : State) : s.applyRetirement.fw = s.fw := by
  have hnor : (s.nor.foldl (fun s x => s.setCbit .flkPhysGoodLo .flkPhysGoodHi x.1 x.2 false) s).fw = s.fw :=
    List.foldlRecOn (motive := fun t : State => t.fw = s.fw) _ _ rfl fun _ h _ _ => h
  exact List.foldlRecOn (motive := fun t : State => t.fw = s.fw) _ _ hnor fun t h f _ => (applyMap_regs_fw t f _).2.trans h

theorem applyRetirement_outside (s : State) : RegsOutside flkRegs s s.applyRetirement :=
  (RegsOutside.foldl (fun t x _ => setCbit_physGood_outside t x.1 x.2 false) s).trans
    (.foldl (fun t f _ => .of_regs (applyMap_regs_fw t f _).1) _)

theorem setLms_outside (s : State) (n : Nat) : RegsOutside {Reg.secLms.addr 0 0} s (s.setLms n) :=
  ((setFld_outside_self ..).trans (setRbit_outside_self ..)).trans (setRbit_outside_self ..)

theorem setLms_fw (s : State) (n : Nat) : (s.setLms n).fw = s.fw :=
  (State.setRbit_fw ..).trans ((State.setRbit_fw ..).trans (State.setFld_fw ..))

theorem cxlUp_outside (s : State) : RegsOutside {Reg.cxlStatus.addr 0 0} s s.cxlUp := .ite (setRbit_outside_self ..) (.refl s)

theorem cxlUp_fw (s : State) : s.cxlUp.fw = s.fw := by
  unfold State.cxlUp
  split_ifs
  · exact State.setRbit_fw ..
  · rfl

theorem bootFrom_fw (s : State) (b : Nat) : (s.bootFrom b).fw = s.fw := by
  rw [bootFrom_eq, cxlUp_fw, State.setRbit_fw, setLms_fw, applyRetirement_fw, runSet_fw]

theorem bootFrom_ready (s : State) (b : Nat) : (s.bootFrom b).rbit .drvReady 0 0 62 = true := by
  rw [bootFrom_eq, (cxlUp_outside _).rbit (by simp), State.rbit_setRbit_same _ _ 0 0 62 true (by decide)]

/-- After it is named, the running set stays named. -/
theorem bootFrom_status (s : State) (b : Nat) : (s.bootFrom b).reg .secFwStatus 0 0 = (s.runSet b).reg .secFwStatus 0 0 := by
  rw [bootFrom_eq, (cxlUp_outside _).reg _ 0 0 (by simp), (setRbit_outside_self ..).reg _ 0 0 (by simp),
    (setLms_outside ..).reg _ 0 0 (by simp), (applyRetirement_outside _).reg _ 0 0 (not_mem_flkRegs (by simp [Block.base]))]

theorem bootFrom_activeBank (s : State) {b : Nat} (h : b < 2) : (s.bootFrom b).activeBank = b := by
  rw [State.activeBank, State.fld, bootFrom_status]
  exact runSet_activeBank s h

theorem bootFrom_version (s : State) (b : Nat) : (s.bootFrom b).fwVersion = fwSetVersion (s.bankImage b) := by
  rw [State.fwVersion, State.fld, bootFrom_status]
  exact runSet_version s b

/-! ### DROVER_BOOT -/

/-- The bank that the boot ROM starts when it accepts it: the one of the boot record, else the other. -/
def State.bootBank (s : State) : Nat := if s.bootOk s.fw.boot then s.fw.boot else 1 - s.fw.boot

theorem bootBank_lt (h : s.fw.boot < 2) : s.bootBank < 2 := by
  unfold State.bootBank
  split_ifs <;> omega

section
variable (hout : s.inReset = false) (hready : s.rbit .drvReady 0 0 62 = false) (hrec : s.fw.recovery = false)
  (htrial : s.trial = false)
include hout hready hrec htrial

theorem exec_droverBoot : exec .droverBoot s = .next (
    if s.bootOk s.bootBank then s.dropStaged.bootFrom s.bootBank
    else (s.dropStaged.setFw { s.dropStaged.fw with recovery := true }).cxlUp) := by
  have hexec : exec .droverBoot s = execDroverBoot s := rfl
  have htrial' : s.dropStaged.trial = false := ((dropStaged_outside s).rbit (by simp) 59).trans htrial
  rw [hexec, execDroverBoot]
  simp only [hout, hready, hrec, htrial', Bool.or_self, Bool.false_eq_true, if_false, dropStaged_bootOk, dropStaged_fw]
  cases hfirst : s.bootOk s.fw.boot <;> simp [State.bootBank, hfirst]

theorem droverBoot_starts (hok : s.bootOk s.bootBank = true) : exec .droverBoot s = .next (s.dropStaged.bootFrom s.bootBank) := by
  rw [exec_droverBoot hout hready hrec htrial, if_pos hok]

theorem droverBoot_recovers (hbad : s.bootOk s.bootBank = false) :
    exec .droverBoot s = .next (s.dropStaged.setFw { s.dropStaged.fw with recovery := true }).cxlUp := by
  rw [exec_droverBoot hout hready hrec htrial, hbad]
  rfl

end

end Sys2Proof.Machine

/-! SUPPORT. The fold image policy (R742): writes of SEC_FOLD_KEY and SEC_POLICY. -/

namespace Sys2Proof.Machine

variable {s t : State} {v : Nat}

/-! ### When a change is allowed -/

theorem policyOpen_of_outside {w : Set Nat} (h : RegsOutside w s t) (hself : Reg.drvSelf.addr 0 0 ∉ w)
    (hpolicy : Reg.secPolicy.addr 0 0 ∉ w) : t.policyOpen = s.policyOpen := by
  simp only [State.policyOpen, h.rbit hself, h.rbit hpolicy]

theorem fwRefuse_fw (s : State) : s.fwRefuse.fw = s.fw := State.setRbit_fw ..

theorem fwRefuse_refused (s : State) : s.fwRefuse.rbit .secFwStatus 0 0 61 = true :=
  State.rbit_setRbit_same _ _ 0 0 61 true (by decide)

theorem fwRefuse_policy (s : State) : s.fwRefuse.reg .secPolicy 0 0 = s.reg .secPolicy 0 0 :=
  (setRbit_outside_self ..).reg _ 0 0 (by simp)

/-! ### SEC_FOLD_KEY -/

/-- SEC_FOLD_KEY holds the address of a written value. -/
def State.foldKeyAt (s : State) (v : Nat) : State := s.setFld .secFoldKey 0 0 47 0 (bits v 47 0)

/-- CLEAR: no key is enrolled. -/
def State.forgetKey (s : State) : State := (s.setFw { s.fw with foldKey := [], enrol := none }).setRbit .secPolicy 0 0 29 false

/-- An allowed write before its ENROL: the address, and CLEAR. -/
def State.foldKeyWritten (s : State) (v : Nat) : State := if bit v 62 then (s.foldKeyAt v).forgetKey else s.foldKeyAt v

theorem forgetKey_fw (s : State) : s.forgetKey.fw = { s.fw with foldKey := [], enrol := none } :=
  State.setRbit_fw ..

theorem forgetKey_unenrolled (s : State) : s.forgetKey.rbit .secPolicy 0 0 29 = false :=
  State.rbit_setRbit_same _ _ 0 0 29 false (by decide)

theorem foldKeyAt_policyOpen (s : State) (v : Nat) : (s.foldKeyAt v).policyOpen = s.policyOpen :=
  policyOpen_of_outside (setFld_outside_self ..) (by simp) (by simp)

theorem bits_foldKey_aligned (v : Nat) : bits v 5 0 = bits v 47 0 % 64 := by
  rw [bits_low, bits_low]
  omega

theorem writeFoldKey_refused (hask : bit v 63 = true ∨ bit v 62 = true) (hclosed : s.policyOpen = false) :
    s.writeFoldKey v = (s.foldKeyAt v).fwRefuse := by
  have hclosed' : (s.foldKeyAt v).policyOpen = false := (foldKeyAt_policyOpen s v).trans hclosed
  rw [State.foldKeyAt] at hclosed' ⊢
  rcases hask with hask | hask <;> simp [State.writeFoldKey, hask, hclosed']

theorem writeFoldKey_open (hask : bit v 63 = true ∨ bit v 62 = true) (hopen : s.policyOpen = true) :
    s.writeFoldKey v = if bit v 63 then
      (if bits v 47 0 % 64 = 0 ∧ memOf (bits v 47 0) 160 = some .stacked then (s.foldKeyWritten v).runEnrol (bits v 47 0)
        else (s.foldKeyWritten v).fwRefuse)
      else s.foldKeyWritten v := by
  have hopen' : (s.foldKeyAt v).policyOpen = true := (foldKeyAt_policyOpen s v).trans hopen
  rw [← bits_foldKey_aligned]
  rw [State.foldKeyAt] at hopen'
  rcases hask with hask | hask <;> simp [State.writeFoldKey, hask, hopen', State.foldKeyWritten, State.foldKeyAt, State.forgetKey]

theorem exec_foldKeyEnrol (v : Word64) : exec (.foldKeyEnrol v) s = .next (s.writeFoldKey v.toNat) := rfl
theorem exec_foldKeyClear (v : Word64) : exec (.foldKeyClear v) s = .next (s.writeFoldKey v.toNat) := rfl

theorem foldKeyAt_fw (s : State) (v : Nat) : (s.foldKeyAt v).fw = s.fw := State.setFld_fw ..

/-- A refused write of SEC_FOLD_KEY leaves the key, and shows. -/
theorem writeFoldKey_closed_spec (hask : bit v 63 = true ∨ bit v 62 = true) (hclosed : s.policyOpen = false) :
    (s.writeFoldKey v).fw = s.fw ∧ (s.writeFoldKey v).rbit .secFwStatus 0 0 61 = true := by
  rw [writeFoldKey_refused hask hclosed]
  exact ⟨(fwRefuse_fw _).trans (foldKeyAt_fw s v), fwRefuse_refused _⟩

theorem writeFoldKey_enrols (henrol : bit v 63 = true) (hopen : s.policyOpen = true) (haligned : bits v 47 0 % 64 = 0)
    (hmem : memOf (bits v 47 0) 160 = some .stacked) : s.writeFoldKey v = (s.foldKeyWritten v).runEnrol (bits v 47 0) := by
  rw [writeFoldKey_open (.inl henrol) hopen, if_pos henrol, if_pos ⟨haligned, hmem⟩]

theorem writeFoldKey_misplaced (henrol : bit v 63 = true) (hopen : s.policyOpen = true)
    (hbad : bits v 47 0 % 64 ≠ 0 ∨ memOf (bits v 47 0) 160 ≠ some .stacked) : s.writeFoldKey v = (s.foldKeyWritten v).fwRefuse := by
  have hbad' : ¬(bits v 47 0 % 64 = 0 ∧ memOf (bits v 47 0) 160 = some .stacked) := fun h => hbad.elim (· h.1) (· h.2)
  rw [writeFoldKey_open (.inl henrol) hopen, if_pos henrol, if_neg hbad']

theorem writeFoldKey_clears (hclear : bit v 62 = true) (hnoEnrol : bit v 63 = false) (hopen : s.policyOpen = true) :
    s.writeFoldKey v = (s.foldKeyAt v).forgetKey := by
  rw [writeFoldKey_open (.inr hclear) hopen, hnoEnrol, State.foldKeyWritten, if_pos hclear]
  rfl

/-! ### The read of a key package -/

/-- The drover's read of the key package at an address. -/
def State.readKey (s : State) (a : Nat) : State × Option (Nat × List Byte) := s.tryReadMem { foldReq a with job := 2 } 0x5 160

section
variable {a st : Nat} {bs : List Byte}

theorem runEnrol_waits (h : s.readKey a = (t, none)) : s.runEnrol a = t.setFw { t.fw with enrol := some a } := by
  rw [State.readKey] at h
  rw [State.runEnrol, h]
  rfl

theorem runEnrol_enrols (h : s.readKey a = (t, some (st, bs))) (hst : st = stOk) (hzero : leAt bs 97 3 = 0) :
    s.runEnrol a = (t.setFw { t.fw with enrol := none, foldKey := bs }).setRbit .secPolicy 0 0 29 true := by
  rw [State.readKey] at h
  rw [State.runEnrol, h]
  exact if_pos ⟨hst, hzero⟩

theorem runEnrol_refuses (h : s.readKey a = (t, some (st, bs))) (hbad : st ≠ stOk ∨ leAt bs 97 3 ≠ 0) :
    s.runEnrol a = (t.setFw { t.fw with enrol := none }).fwRefuse := by
  rw [State.readKey] at h
  rw [State.runEnrol, h]
  exact if_neg (by tauto)

end

/-! ### SEC_POLICY -/

theorem exec_policyWrite (w : Word32) : exec (.policyWrite w) s = .next (s.writePolicy w.toNat) := rfl

/-- FOLD_SIGNED follows the written bit where it may, and a refused change sets REFUSED. -/
def State.writeSigned (s : State) (b : Bool) : State :=
  if b = s.rbit .secPolicy 0 0 30 then s else if s.policyOpen then s.setRbit .secPolicy 0 0 30 b else s.fwRefuse

theorem writePolicy_eq (s : State) (v : Nat) : s.writePolicy v =
    if bit v 31 then (s.writeSigned (bit v 30)).setRbit .secPolicy 0 0 31 true else s.writeSigned (bit v 30) := rfl

/-- LOCK is set by a 1 and stays. -/
theorem writePolicy_lock (s : State) (v : Nat) :
    (s.writePolicy v).rbit .secPolicy 0 0 31 = ((s.writeSigned (bit v 30)).rbit .secPolicy 0 0 31 || bit v 31) := by
  rw [writePolicy_eq]
  split_ifs with hlock
  · rw [hlock, Bool.or_true, State.rbit_setRbit_same _ _ 0 0 31 true (by decide)]
  · rw [Bool.eq_false_of_not_eq_true hlock, Bool.or_false]

theorem writePolicy_signed (s : State) (v : Nat) :
    (s.writePolicy v).rbit .secPolicy 0 0 30 = (s.writeSigned (bit v 30)).rbit .secPolicy 0 0 30 := by
  rw [writePolicy_eq]
  split_ifs
  · exact State.rbit_setRbit_ne _ _ 0 0 31 30 true (by decide) (by decide)
  · rfl

theorem writePolicy_status (s : State) (v b : Nat) :
    (s.writePolicy v).rbit .secFwStatus 0 0 b = (s.writeSigned (bit v 30)).rbit .secFwStatus 0 0 b := by
  rw [writePolicy_eq]
  exact (RegsOutside.ite (w := {Reg.secPolicy.addr 0 0}) (setRbit_outside_self ..) (.refl _)).rbit (by simp) b

theorem writeSigned_signed_open (hopen : s.policyOpen = true) (b : Bool) : (s.writeSigned b).rbit .secPolicy 0 0 30 = b := by
  unfold State.writeSigned
  split_ifs with hsame
  · exact hsame.symm
  · exact State.rbit_setRbit_same _ _ 0 0 30 b (by decide)

theorem writeSigned_signed_closed (hclosed : s.policyOpen = false) (b : Bool) :
    (s.writeSigned b).rbit .secPolicy 0 0 30 = s.rbit .secPolicy 0 0 30 := by
  unfold State.writeSigned
  split_ifs with hsame hopen
  · rfl
  · exact absurd hopen (by simp [hclosed])
  · exact congrArg (bit · 30) (fwRefuse_policy s)

theorem writeSigned_lock (s : State) (b : Bool) : (s.writeSigned b).rbit .secPolicy 0 0 31 = s.rbit .secPolicy 0 0 31 := by
  unfold State.writeSigned
  split_ifs
  · rfl
  · exact State.rbit_setRbit_ne _ _ 0 0 30 31 b (by decide) (by decide)
  · exact congrArg (bit · 31) (fwRefuse_policy s)

theorem writeSigned_refused (hclosed : s.policyOpen = false) {b : Bool} (hne : b ≠ s.rbit .secPolicy 0 0 30) :
    (s.writeSigned b).rbit .secFwStatus 0 0 61 = true := by
  rw [State.writeSigned, hclosed, if_neg hne]
  exact fwRefuse_refused s

theorem lock_of_policyOpen (hopen : s.policyOpen = true) : s.rbit .secPolicy 0 0 31 = false := by
  simp only [State.policyOpen, Bool.and_eq_true, Bool.not_eq_true'] at hopen
  exact hopen.2

end Sys2Proof.Machine

/-! Activation, the boot and the fold image policy (O59), command by command. -/

namespace Sys2Proof.Machine

variable {s : State} {m : Moving}

/-! ### Requests -/

section
variable {v : Word32} (hact : bit v.toNat 30 = true) (hcommit : bit v.toNat 31 = false)
  (hbank : s.bankState (bits v.toNat 29 29) = 1)
include hact hcommit hbank

theorem fwActivateOnline_starts (honline : bit v.toNat 28 = false) (hidle : s.actBusy = false) (hrec : s.fw.recovery = false)
    (hb : bits v.toNat 29 29 ≠ s.activeBank) (hsvn : s.svnFloor ≤ fwSvn (s.bankImage (bits v.toNat 29 29)))
    (hfloor : leAt (s.bankImage (bits v.toNat 29 29)) 16 4 ≤ s.fwVersion)
    (hmatrix : matrixOk (s.bankImage s.activeBank) (s.bankImage (bits v.toNat 29 29)) = true) :
    exec (.fwActivateOnline v) s = .next ((s.fwCtrlWritten v.toNat).actStart (bits v.toNat 29 29) 0 0) := by
  rw [exec_fwActivateOnline, writeFwCtrl_activate hact hcommit hbank, honline]
  rw [activate_online] <;> simpa only [State.fwCtrlWritten_fw, State.fwCtrlWritten_bankImage, State.fwCtrlWritten_activeBank,
    State.fwCtrlWritten_fwVersion, State.fwCtrlWritten_svnFloor, State.fwCtrlWritten_actBusy]

theorem fwActivateOnline_busy (hbusy : s.actBusy = true) :
    exec (.fwActivateOnline v) s = .next ((s.fwCtrlWritten v.toNat).actRefuse 0 0 8) := by
  rw [exec_fwActivateOnline, writeFwCtrl_activate hact hcommit hbank, activate_busy ((s.fwCtrlWritten_actBusy _).trans hbusy)]

theorem fwActivateAtReset_names (hreset : bit v.toNat 28 = true) (hidle : s.actBusy = false) :
    exec (.fwActivateAtReset v) s = .next ((s.fwCtrlWritten v.toNat).setFw { s.fw with boot := bits v.toNat 29 29 }) := by
  rw [exec_fwActivateAtReset, writeFwCtrl_activate hact hcommit hbank, hreset,
    activate_atReset ((s.fwCtrlWritten_actBusy _).trans hidle), actResult_registers, State.fwCtrlWritten_fw]

end

/-! ### What the endings of an activation show -/

theorem passed_fw (s : State) (b : Nat) :
    ((s.endMoving 0).startTrial b).fw = { s.fw with moving := none, boot := b, prev := s.activeBank } := by
  rw [startTrial_fw, endMoving_fw, endMoving_activeBank]

/-- The new set runs in trial, the old one is its roll-back bank, and the operation has ended without error. -/
theorem passed_spec (s : State) {b : Nat} (hb : b < 2) : let t := (s.endMoving 0).startTrial b
    t.activeBank = b ∧ t.trial = true ∧ t.fwVersion = fwSetVersion (s.bankImage b) ∧ t.fw.moving = none ∧ t.fw.boot = b ∧
      t.fw.prev = s.activeBank ∧ t.fwStep = 0 ∧ t.rbit .secFwStatus 0 0 63 = false ∧ t.fld .secFwStatus 0 0 47 40 = 0 := by
  have himg : (s.endMoving 0).bankImage b = s.bankImage b := bankImage_congr (by rw [endMoving_fw]) b
  have hversion := startTrial_version (s.endMoving 0) b
  rw [himg] at hversion
  refine ⟨startTrial_activeBank _ hb, startTrial_trial .., hversion, by rw [passed_fw], by rw [passed_fw], by rw [passed_fw], ?_, ?_, ?_⟩
  · exact (startTrial_fld _ _ (.inl (by decide))).trans (endMoving_step ..)
  · exact (startTrial_busy ..).trans (fwEnd_busy ..)
  · exact (startTrial_fld _ _ (.inl (by decide))).trans (endMoving_error s (by decide))

/-- The set that ran before runs on, and the operation has ended with ERROR 0x0B. -/
theorem rolledBack_spec (s : State) : let t := (s.endMoving 0x0B).setRbit .secFwStatus 0 0 58 true
    t.fw.moving = none ∧ t.rbit .secFwStatus 0 0 58 = true ∧ t.fld .secFwStatus 0 0 47 40 = 0x0B ∧ t.activeBank = s.activeBank := by
  refine ⟨?_, State.rbit_setRbit_same _ _ 0 0 58 true (by decide), ?_, ?_⟩
  · rw [State.setRbit_fw, endMoving_fw]
  · rw [State.fld_setRbit_ne _ _ 0 0 true (by decide) (.inl (by decide)), endMoving_error s (by decide)]
  · rw [State.activeBank, State.fld_setRbit_ne _ _ 0 0 true (by decide) (.inr (by decide))]
    exact endMoving_activeBank ..

/-! ### What a boot shows -/

theorem booted_spec (hboot : s.fw.boot < 2) (hrec : s.fw.recovery = false) : let t := s.dropStaged.bootFrom s.bootBank
    t.rbit .drvReady 0 0 62 = true ∧ t.activeBank = s.bootBank ∧ t.fwVersion = fwSetVersion (s.bankImage s.bootBank) ∧
      t.fw.recovery = false := by
  have himg : s.dropStaged.bankImage s.bootBank = s.bankImage s.bootBank := bankImage_congr (by rw [dropStaged_fw]) _
  refine ⟨bootFrom_ready .., bootFrom_activeBank _ (bootBank_lt hboot), ?_, ?_⟩
  · rw [bootFrom_version, himg]
  · rw [bootFrom_fw, dropStaged_fw, hrec]

theorem recovered_spec (hready : s.rbit .drvReady 0 0 62 = false) :
    let t := (s.dropStaged.setFw { s.dropStaged.fw with recovery := true }).cxlUp
    t.fw.recovery = true ∧ t.rbit .drvReady 0 0 62 = false := by
  refine ⟨by rw [cxlUp_fw, State.setFw_fw], ?_⟩
  exact ((cxlUp_outside _).rbit (by simp) 62).trans (((dropStaged_outside s).rbit (by simp) 62).trans hready)

/-! ### What an enrolment shows -/

section
variable {t : State} {a st : Nat} {bs : List Byte}

theorem enrolled_spec (h : s.readKey a = (t, some (st, bs))) (hst : st = stOk) (hzero : leAt bs 97 3 = 0) :
    (s.runEnrol a).fw.foldKey = bs ∧ (s.runEnrol a).fw.enrol = none ∧ (s.runEnrol a).rbit .secPolicy 0 0 29 = true := by
  rw [runEnrol_enrols h hst hzero, State.setRbit_fw, State.setFw_fw]
  exact ⟨rfl, rfl, State.rbit_setRbit_same _ _ 0 0 29 true (by decide)⟩

theorem enrolRefused_spec (h : s.readKey a = (t, some (st, bs))) (hbad : st ≠ stOk ∨ leAt bs 97 3 ≠ 0) :
    (s.runEnrol a).fw.foldKey = t.fw.foldKey ∧ (s.runEnrol a).fw.enrol = none ∧ (s.runEnrol a).rbit .secFwStatus 0 0 61 = true := by
  rw [runEnrol_refuses h hbad, fwRefuse_fw, State.setFw_fw]
  exact ⟨rfl, rfl, fwRefuse_refused _⟩

end

/-- Settles O59: a request, a restart that ends, COMMIT and the boot each take one of the branches above, and so does each write of
SEC_FOLD_KEY and SEC_POLICY. -/
theorem activationAndFoldPolicy : Obligations.ActivationAndFoldPolicy := by
  refine ⟨fun s => ⟨fun v => ?request, fun m x hm hback hevents hfails hpeat => ?forward,
      fun m hm hback hasker hstep hevents => ?rolledBack, fun m x b hm hback hevents hfails hpeat hx => ?backward, ?commit,
      fun hout hready hrec htrial hboot _ => ?boot⟩, fun s v w => ?policy⟩
  case request =>
    intro b hact hcommit hbank
    refine ⟨fun honline hidle hrec hb hsvn hfloor hmatrix => ?online, fun hreset hidle => ?atReset, fun _ hbusy => ?busy⟩
    case online =>
      exact ⟨_, fwActivateOnline_starts hact hcommit hbank honline hidle hrec hb hsvn hfloor hmatrix, actStart_step .., actStart_unit ..,
        actStart_busy .., by rw [actStart_fw]⟩
    case atReset =>
      refine ⟨_, fwActivateAtReset_names hact hcommit hbank hreset hidle, ?_⟩
      rw [State.setFw_fw, moving_of_not_actBusy hidle]
      exact ⟨rfl, rfl⟩
    case busy =>
      refine ⟨_, fwActivateOnline_busy hact hcommit hbank hbusy, ?_, actRefuse_error _ 0 (by decide)⟩
      rw [actRefuse_fw, State.fwCtrlWritten_fw]
  case forward =>
    have hw : s.NothingWaits s.fwStep := ⟨fun _ => hevents, fun _ => hfails⟩
    have hdrained : s.fwStep = 4 → s.peat = [] := fun _ => hpeat
    refine ⟨fun hx => ?_, fun hlast hbank hasker => ?_, restart_turns_back hm hdrained hback⟩
    · obtain ⟨hstep, hunit⟩ := nextUnit_lt hx
      exact ⟨_, restart_moves_on hm hdrained hback hw hx, showUnit_step s hstep, showUnit_unit s hunit, showUnit_fw ..⟩
    · exact ⟨_, restart_passes hm hdrained hback hw hlast hasker, passed_spec s hbank⟩
  case rolledBack =>
    have hw : s.NothingWaits s.fwStep := ⟨fun _ => hevents, fun h => absurd (hstep.symm.trans h) (by decide)⟩
    have hdrained : s.fwStep = 4 → s.peat = [] := fun h => absurd (hstep.symm.trans h) (by decide)
    exact ⟨_, restart_rolled_back hm hdrained hback hw true hstep hasker, rolledBack_spec s⟩
  case backward =>
    have hw : s.NothingWaits s.fwStep := ⟨fun _ => hevents, fun _ => hfails⟩
    obtain ⟨hstep, hunit⟩ := prevUnit_lt s.fwUnit_lt hx
    exact ⟨_, restart_moves_back hm (fun _ => hpeat) hback hw b hx, showUnit_step s hstep, showUnit_unit s hunit, showUnit_fw ..⟩
  case commit =>
    refine ⟨_, exec_fwCommit, commitFw_ends_trial _, (commitFw_fw _).trans (State.fwCtrlWritten_fw ..), fun htrial hraise hsvn => ?_⟩
    rw [commitFw_svnFloor] <;> simp [htrial, hraise, hsvn]
  case boot =>
    exact ⟨fun hok => ⟨_, droverBoot_starts hout hready hrec htrial hok, booted_spec hboot hrec⟩,
      fun hbad => ⟨_, droverBoot_recovers hout hready hrec htrial hbad, recovered_spec hready⟩⟩
  case policy =>
    intro a _ u
    refine ⟨fun henrol hopen haligned hmem t r hread => ?enrol, fun henrol hopen hbad => ?misplaced,
      fun henrol hclosed => ⟨_, exec_foldKeyEnrol v, writeFoldKey_closed_spec (.inl henrol) hclosed⟩,
      fun hclear hnoEnrol hopen => ?clear,
      fun hclear hclosed => ⟨_, exec_foldKeyClear v, writeFoldKey_closed_spec (.inr hclear) hclosed⟩,
      fun hopen => ⟨_, exec_policyWrite w, ?signedOpen, ?lockOpen⟩,
      fun hclosed => ⟨_, exec_policyWrite w, ?signedClosed, ?lockClosed, fun hne => ?refused⟩⟩
    case enrol =>
      have hexec : exec (.foldKeyEnrol v) s = .next (u.runEnrol a) :=
        (exec_foldKeyEnrol v).trans (congrArg _ (writeFoldKey_enrols henrol hopen haligned hmem))
      refine ⟨?_, ?_⟩
      · rintro rfl
        rw [hexec, runEnrol_waits hread]
      · rintro st bs rfl
        exact ⟨fun hst hzero => ⟨_, hexec, enrolled_spec hread hst hzero⟩, fun hbad => ⟨_, hexec, enrolRefused_spec hread hbad⟩⟩
    case misplaced =>
      exact (exec_foldKeyEnrol v).trans (congrArg _ (writeFoldKey_misplaced henrol hopen hbad))
    case clear =>
      refine ⟨_, (exec_foldKeyClear v).trans (congrArg _ (writeFoldKey_clears hclear hnoEnrol hopen)), ?_⟩
      rw [forgetKey_fw]
      exact ⟨rfl, rfl, forgetKey_unenrolled _⟩
    case signedOpen => rw [writePolicy_signed, writeSigned_signed_open hopen]
    case lockOpen => rw [writePolicy_lock, writeSigned_lock, lock_of_policyOpen hopen, Bool.false_or]
    case signedClosed => rw [writePolicy_signed, writeSigned_signed_closed hclosed]
    case lockClosed => rw [writePolicy_lock, writeSigned_lock]
    case refused => rw [writePolicy_status, writeSigned_refused hclosed hne]

end Sys2Proof.Machine

/-! SUPPORT. What every command keeps, whatever else it changes: the commands that wait, the canonical form of the memories, and the
bounds of the records and of every core's queues (O2, O4 to O6). One lemma per operation, in the form of its definition. -/

namespace Sys2Proof.Machine

/-- The bounds of one core (R112, R157, R225). -/
def Core.Bounded (k : Core) : Prop := k.queue.length ≤ 4 ∧ k.dma.length ≤ 16 ∧ k.remotes.length ≤ 8

theorem Core.Bounded.of_le {k k' : Core} (h : k.Bounded) (hq : k'.queue.length ≤ k.queue.length) (hd : k'.dma.length ≤ k.dma.length)
    (hr : k'.remotes.length ≤ k.remotes.length) : k'.Bounded :=
  ⟨hq.trans h.1, hd.trans h.2.1, hr.trans h.2.2⟩

theorem Core.Bounded.setS {k : Core} (h : k.Bounded) {r v : Nat} : (k.setS r v).Bounded := by
  unfold Core.setS
  split
  · exact h
  · exact h

theorem Core.Bounded.setPair {k : Core} (h : k.Bounded) {r v : Nat} : (k.setPair r v).Bounded := h.setS.setS

theorem Core.Bounded.withTreg {k : Core} (h : k.Bounded) (m : SMap Word64) : { k with treg := m }.Bounded := h

theorem Core.Bounded.setT {k : Core} (h : k.Bounded) {r v : Nat} : (k.setT r v).Bounded := h.withTreg _

theorem Core.Bounded.setTly {k : Core} (h : k.Bounded) {r i : Nat} {x : Tally} : (k.setTly r i x).Bounded := by
  unfold Core.setTly; exact h

theorem Core.Bounded.clearRows {k : Core} (h : k.Bounded) {base n : Nat} : (k.clearRows base n).Bounded := by
  unfold Core.clearRows; exact h

theorem Core.Bounded.rowDone {k : Core} (h : k.Bounded) {i : Nat} : (k.rowDone i).Bounded := by
  unfold Core.rowDone
  split
  · split <;> exact h
  · exact h

theorem Core.Bounded.accumulate {k : Core} (h : k.Bounded) {pair row i : Nat} {rs : List (List (FVal × FVal × Int × Bool))} :
    (k.accumulate pair row i rs).1.Bounded := by
  induction rs generalizing k i with
  | nil => exact h
  | cons ps rs ih => exact ih h.setTly

theorem Core.Bounded.foldl {α : Type} {g : Core → α → Core} {l : List α} {k : Core} (h : k.Bounded)
    (hg : ∀ k x, k.Bounded → (g k x).Bounded) : (l.foldl g k).Bounded := by
  induction l generalizing k with
  | nil => exact h
  | cons x l ih => exact ih (hg k x h)

theorem Core.Bounded.fresh : Core.fresh.Bounded := ⟨Nat.zero_le _, Nat.zero_le _, Nat.zero_le _⟩

theorem Core.Bounded.started {k : Core} {entry : Nat} : (k.started entry).Bounded := fresh

/-! ### Walks

One lemma per operation, for every relation of states that the single changes respect: what every command keeps is one such relation,
what a reset and a declared death wait for is another. -/

/-- The registers of the resets, the PLLs and the muster, which no access and no ending of an operation writes, but for the count of
late replies in DRV_RESET_STATUS. -/
def heldRegs : List Reg := [.drvClkStatus, .drvReady, .drvMusterStatus, .drvResetStatus]

def Reg.isFree (r : Reg) : Bool := !heldRegs.contains r

/-- What a walk follows, or leaves as it is. -/
def State.walked (s : State) : List Instr × SMap Byte × SMap Byte × SMap Byte × List Evt × List (Nat × Nat) × SMap Core × SMap Word64 ×
    List ResetOp × SMap Nat × Muster × List Proc × List Nat :=
  (s.pending, s.dram, s.store, s.scratch, s.evt, s.nor, s.cores, s.regs, s.rst, s.gen, s.muster, s.ni.proc, s.ni.dead)

/-- A relation of states that the single changes of an access respect. -/
structure Frame where
  rel     : State → State → Prop
  trans   : ∀ {s t u}, rel s t → rel t u → rel s u
  congr   : ∀ {s t : State}, t.walked = s.walked → rel s t
  setReg  : ∀ (s : State) (r : Reg) (i j v : Nat), r.isFree = true → rel s (s.setReg r i j v)
  late    : ∀ s : State, rel s (s.incFld .drvResetStatus 0 0 31 0)
  dram    : ∀ (s : State) (m : SMap Byte), (Memory.wf s.dram = true → Memory.wf m = true) → rel s { s with dram := m }
  store   : ∀ (s : State) (m : SMap Byte), (Memory.wf s.store = true → Memory.wf m = true) → rel s { s with store := m }
  scratch : ∀ (s : State) (m : SMap Byte), (Memory.wf s.scratch = true → Memory.wf m = true) → rel s { s with scratch := m }
  evt     : ∀ (s : State) (l : List Evt), (s.evt.length ≤ 256 → l.length ≤ 256) → rel s { s with evt := l }
  core    : ∀ (s : State) (f c : Nat) (k : Core), ((s.core f c).Bounded → k.Bounded) → rel s (s.setCore f c k)
  notify  : ∀ (s : State) (inStore : Bool) (a n : Nat), rel s (s.notify inStore a n)

/-- A walk from `s` has led to `t`. -/
def Walk (F : Frame) (s t : State) : Prop := F.rel s t

variable {F : Frame} {s t u : State}

-- Elaborated in order: side by side, these many short proofs would need more threads than the memory limit of a compile has stacks for.
set_option Elab.async false

theorem Walk.self : Walk F s s := F.congr rfl

theorem Walk.trans (h : Walk F s t) (h' : Walk F t u) : Walk F s u := F.trans h h'

/-- A change of any other field. -/
theorem Walk.congr (h : Walk F s t) (hu : u.walked = t.walked := by rfl) : Walk F s u := h.trans (F.congr hu)

theorem Walk.withNi (h : Walk F s t) {n : Ni} (hproc : n.proc = t.ni.proc := by rfl) (hdead : n.dead = t.ni.dead := by rfl) :
    Walk F s { t with ni := n } := h.congr (by rw [State.walked, hproc, hdead]; rfl)

theorem Walk.setNi (h : Walk F s t) {n : Ni} (hproc : n.proc = t.ni.proc := by rfl) (hdead : n.dead = t.ni.dead := by rfl) :
    Walk F s (t.setNi n) := h.withNi hproc hdead

theorem Walk.withDram (h : Walk F s t) {m : SMap Byte} (hm : Memory.wf t.dram = true → Memory.wf m = true) :
    Walk F s { t with dram := m } := h.trans (F.dram t m hm)

theorem Walk.withStore (h : Walk F s t) {m : SMap Byte} (hm : Memory.wf t.store = true → Memory.wf m = true) :
    Walk F s { t with store := m } := h.trans (F.store t m hm)

theorem Walk.withScratch (h : Walk F s t) {m : SMap Byte} (hm : Memory.wf t.scratch = true → Memory.wf m = true) :
    Walk F s { t with scratch := m } := h.trans (F.scratch t m hm)

theorem Walk.withEvt (h : Walk F s t) {l : List Evt} (hl : t.evt.length ≤ 256 → l.length ≤ 256) : Walk F s { t with evt := l } :=
  h.trans (F.evt t l hl)

theorem Walk.setCore (h : Walk F s t) {f c : Nat} {k : Core} (hk : (t.core f c).Bounded → k.Bounded) : Walk F s (t.setCore f c k) :=
  h.trans (F.core t f c k hk)

theorem Walk.modCore (h : Walk F s t) {f c : Nat} {g : Core → Core} (hg : ∀ k : Core, k.Bounded → (g k).Bounded := by exact fun _ hk => hk) :
    Walk F s (t.modCore f c g) := h.setCore (hg _)

theorem Walk.notify (h : Walk F s t) {inStore : Bool} {a n : Nat} : Walk F s (t.notify inStore a n) := h.trans (F.notify t inStore a n)

theorem Walk.late (h : Walk F s t) : Walk F s (t.incFld .drvResetStatus 0 0 31 0) := h.trans (F.late t)

section
variable {r : Reg} {i j : Nat}

theorem Walk.setReg (h : Walk F s t) {v : Nat} (hr : r.isFree = true := by rfl) : Walk F s (t.setReg r i j v) := h.trans (F.setReg t r i j v hr)

theorem Walk.setFld (h : Walk F s t) {hi lo v : Nat} (hr : r.isFree = true := by rfl) : Walk F s (t.setFld r i j hi lo v) := h.setReg hr

theorem Walk.setRbit (h : Walk F s t) {b : Nat} {v : Bool} (hr : r.isFree = true := by rfl) : Walk F s (t.setRbit r i j b v) := h.setFld hr

theorem Walk.incFld (h : Walk F s t) {hi lo : Nat} (hr : r.isFree = true := by rfl) : Walk F s (t.incFld r i j hi lo) := h.setFld hr

theorem Walk.addFld (h : Walk F s t) {hi lo n : Nat} (hr : r.isFree = true := by rfl) : Walk F s (t.addFld r i j hi lo n) := h.setFld hr

theorem Walk.setCbit (h : Walk F s t) {lo hi : Reg} {f c : Nat} {v : Bool} (hlo : lo.isFree = true := by rfl) (hhi : hi.isFree = true := by rfl) :
    Walk F s (t.setCbit lo hi f c v) := by
  refine h.setRbit ?_
  unfold coreBit
  split
  · exact hlo
  · exact hhi

end

/-- Bytes stored one run after another. -/
theorem Memory.wf_foldl_writeBytes {α : Type} (a : α → Nat) (bs : α → List Byte) (l : List α) {m : SMap Byte}
    (h : Memory.wf m = true) : Memory.wf (l.foldl (fun m x => Sparse.writeBytes m (a x) (bs x)) m) = true := by
  induction l generalizing m with
  | nil => exact h
  | cons x l ih => exact ih (Memory.wf_writeBytes _ _ h)

theorem Walk.ite {c : Prop} [Decidable c] (h : Walk F s t) (h' : Walk F s u) : Walk F s (if c then t else u) := by
  split
  · exact h
  · exact h'

theorem Walk.ite_fst {α : Type} {c : Prop} [Decidable c] {x y : State × α} (h : Walk F s x.1) (h' : Walk F s y.1) :
    Walk F s (if c then x else y).1 := by
  split
  · exact h
  · exact h'

theorem Walk.foldl {α : Type} {g : State → α → State} {l : List α} (h : Walk F s t)
    (hg : ∀ t x, Walk F s t → Walk F s (g t x)) : Walk F s (l.foldl g t) := by
  induction l generalizing t with
  | nil => exact h
  | cons x l ih => exact ih (hg t x h)

/-- The state that a call answers with, named by a match on the answer. -/
theorem Walk.of_eq {α : Type} {x : State × α} {a : α} (h : Walk F s x.1) (heq : x = (t, a)) : Walk F s t := by
  rw [heq] at h; exact h

theorem Walk.setFlock (h : Walk F s t) {f : Nat} {k : Flock} : Walk F s (t.setFlock f k) := h.congr

theorem Walk.modFlock (h : Walk F s t) {f : Nat} {g : Flock → Flock} : Walk F s (t.modFlock f g) := h.setFlock

theorem Walk.bump (h : Walk F s t) : Walk F s (t.bump) := h.congr

theorem Walk.emit (h : Walk F s t) {o : Output} : Walk F s (t.emit o) := h.congr

theorem Walk.record (h : Walk F s t) {e : Evt} : Walk F s (t.record e) := by
  unfold State.record
  dsimp only
  have hemit (c : Prop) [Decidable c] (e : Evt) : Walk F s (if c then
      { t with eseq := (t.eseq + 1) % 2 ^ 16 }.emit (.event e) else { t with eseq := (t.eseq + 1) % 2 ^ 16 }) :=
    .ite (h.congr (u := { t with eseq := (t.eseq + 1) % 2 ^ 16 })).emit h.congr
  refine (apply_ite (Walk F s) _ _ _).mpr ?_
  by_cases hroom : (if t.evtRecv = true then { t with eseq := (t.eseq + 1) % 2 ^ 16 }.emit (.event { e with eseq := t.eseq })
      else { t with eseq := (t.eseq + 1) % 2 ^ 16 }).evt.length < 256
  · rw [if_pos hroom]
    exact (hemit _ _).withEvt fun _ => by simpa using hroom
  · rw [if_neg hroom]
    exact (hemit _ _).incFld

theorem Walk.event (h : Walk F s t) {source kind loc detail addr : Nat} : Walk F s (t.event source kind loc detail addr) :=
  .ite h.congr h.record

theorem Walk.log (h : Walk F s t) {r : Reg} {i j v : Nat} {cnt : Option (Nat × Nat)} {addr : Option (Reg × Nat)} {source loc : Nat}
    (hr : r.isFree = true := by rfl) (ha : ∀ x, addr = some x → x.1.isFree = true := by rintro _ ⟨⟩ <;> rfl) :
    Walk F s (t.log r i j v cnt addr source loc) := by
  unfold State.log
  dsimp only
  split
  · exact h.setReg hr
  · refine Walk.event ?_
    split
    · exact (h.setReg hr).setReg (ha _ rfl)
    · exact h.setReg hr

theorem Walk.sigLog (h : Walk F s t) {f cause source : Nat} {inScratch : Bool} {core off : Nat} :
    Walk F s (t.sigLog f cause source inScratch core off) :=
  .ite h.setRbit h.setReg

theorem Walk.haltCore (h : Walk F s t) {f c : Nat} : Walk F s (t.haltCore f c) := by
  unfold State.haltCore
  exact (h.setCbit.modCore (by exact fun _ hk => hk.of_le (Nat.zero_le _) (Nat.le_refl _) (Nat.le_refl _))).modFlock

theorem Walk.coreFault (h : Walk F s t) {f c cls status dropped pc op seq : Nat} {imprecise : Bool} :
    Walk F s (t.coreFault f c cls status dropped pc op seq imprecise) :=
  (Walk.ite h.setRbit h.event.setReg).haltCore

theorem Walk.wrStoreAt (h : Walk F s t) {a : Nat} {bs : List Byte} : Walk F s (t.wrStoreAt a bs) :=
  (h.withStore (Memory.wf_writeBytes _ _)).notify

theorem Walk.wrScratchAt (h : Walk F s t) {a : Nat} {bs : List Byte} : Walk F s (t.wrScratchAt a bs) :=
  (h.withScratch (Memory.wf_writeBytes _ _)).notify

theorem Walk.wrStore (h : Walk F s t) {f off : Nat} {bs : List Byte} : Walk F s (t.wrStore f off bs) := h.wrStoreAt

theorem Walk.wrScratch (h : Walk F s t) {f c off : Nat} {bs : List Byte} : Walk F s (t.wrScratch f c off bs) :=
  h.wrScratchAt

theorem Walk.setSigWord (h : Walk F s t) {p : SigPlace} {v : Nat} : Walk F s (t.setSigWord p v) := by
  unfold State.setSigWord
  split
  · exact h.wrStore
  · exact h.wrScratch

theorem Walk.addSignal (h : Walk F s t) {p : SigPlace} {i : Int} {source : Nat} {issuer : Option Nat} :
    Walk F s (t.addSignal p i source issuer).1 := by
  unfold State.addSignal
  split
  · exact h.setSigWord
  · exact h.sigLog

theorem Walk.resetLog (h : Walk F s t) {addr scope target source core : Nat} :
    Walk F s (t.resetLog addr scope target source core) :=
  h.log

theorem Walk.setBale (h : Walk F s t) {b : Nat} {m : Meta} : Walk F s (t.setBale b m) := h.congr

theorem Walk.rewritten (h : Walk F s t) {k : Nat} : Walk F s (t.rewritten k) := h.congr

theorem Walk.mendBale (h : Walk F s t) {b : Nat} : Walk F s (t.mendBale b) := h.congr

theorem Walk.ecc (h : Walk F s t) {key : Nat} {x1 : Ecc} : Walk F s (t.ecc key x1) := by
  unfold State.ecc
  split
  · exact h
  · exact .ite h h.congr
  · exact h.congr

theorem Walk.eccs (h : Walk F s t) {a n : Nat} {errs : Errs} : Walk F s (t.eccs a n errs) :=
  h.foldl fun _ _ h => .ite h.ecc h

theorem Walk.setStk (h : Walk F s t) {i : Nat} {k : Stk} : Walk F s (t.setStk i k) := h.congr

theorem Walk.modStk (h : Walk F s t) {i : Nat} {g : Stk → Stk} : Walk F s (t.modStk i g) := h.setStk

theorem Walk.stkLog (h : Walk F s t) {i addr status source type core : Nat} : Walk F s (t.stkLog i addr status source type core) :=
  h.log

theorem Walk.stkRefuse (h : Walk F s t) {i addr source core : Nat} : Walk F s (t.stkRefuse i addr source core) :=
  h.stkLog.resetLog

theorem Walk.uncorrected (h : Walk F s t) {i addr n source type core : Nat} : Walk F s (t.uncorrected i addr n source type core) :=
  h.addFld.stkLog

theorem Walk.corrected (h : Walk F s t) {i n : Nat} : Walk F s (t.corrected i n) := .ite h h.addFld

theorem Walk.readSector (h : Walk F s t) {source core a : Nat} : Walk F s (t.readSector source core a).1 := by
  unfold State.readSector
  dsimp only
  split
  · exact h.stkRefuse
  · exact .ite_fst h.uncorrected h.corrected

theorem Walk.writeSector (h : Walk F s t) {source core a : Nat} {runs : List (Nat × List Byte)} :
    Walk F s (t.writeSector source core a runs).1 := by
  unfold State.writeSector
  dsimp only
  split
  · exact h.stkRefuse
  · split
    · exact h.uncorrected
    · exact h.corrected.rewritten.withDram fun hm => Memory.wf_foldl_writeBytes _ _ runs hm

theorem Walk.readStack (h : Walk F s t) {source : Nat} {core : Nat} {n : Nat} {x3 : Nat} {x4 : Nat} :
    Walk F s (t.readStack source core n x3 x4).1 := by
  induction n generalizing t source core x3 x4 with
  | zero => exact h
  | succ n ih =>
    unfold State.readStack
    dsimp only
    split
    · exact h
    · split
      · exact ih (h.readSector.of_eq ‹_›)
      · exact h.readSector.of_eq ‹_›

theorem Walk.writeStack (h : Walk F s t) {source core n x3 : Nat} {x4 : List Byte} :
    Walk F s (t.writeStack source core n x3 x4).1 := by
  induction n generalizing t source core x3 x4 with
  | zero => exact h
  | succ n ih =>
    unfold State.writeStack
    split
    · exact h
    · dsimp only
      split
      · exact ih (h.writeSector.of_eq ‹_›)
      · exact h.writeSector

theorem Walk.readBale (h : Walk F s t) {source core a : Nat} : Walk F s (t.readBale source core a).1 := by
  unfold State.readBale
  dsimp only
  split
  · exact h.stkRefuse
  · split
    · exact h.corrected
    · exact h.corrected.uncorrected

theorem Walk.writeTagged (h : Walk F s t) {source core a : Nat} {data : List Byte} {tag crc : Nat} :
    Walk F s (t.writeTagged source core a data tag crc).1 := by
  unfold State.writeTagged
  dsimp only
  split
  · exact h.stkRefuse
  · split
    · exact h.stkLog
    · exact (h.withDram (Memory.wf_writeBytes _ _)).setBale.mendBale

theorem Walk.writeUntagged (h : Walk F s t) {source core a : Nat} {data : List Byte} :
    Walk F s (t.writeUntagged source core a data).1 := by
  unfold State.writeUntagged
  dsimp only
  split
  · exact h.stkRefuse
  · exact (h.withDram (Memory.wf_writeBytes _ _)).setBale.mendBale

theorem Walk.cxlLog (h : Walk F s t) {addr status path queue core : Nat} : Walk F s (t.cxlLog addr status path queue core) :=
  .ite h.log.emit h.log

theorem Walk.setSnoops (h : Walk F s t) {xs : List Snoop} : Walk F s (t.setSnoops xs) := h.congr

theorem Walk.leaveSnoops (h : Walk F s t) {at' : Snoop → Bool} {sel : StackReq → Bool} : Walk F s (t.leaveSnoops at' sel) :=
  h.setSnoops

theorem Walk.sendSnoop (h : Walk F s t) {line : Nat} {inv : Bool} {reqs : List StackReq} : Walk F s (t.sendSnoop line inv reqs) :=
  .ite h.setSnoops.incFld.emit h.setSnoops

theorem Walk.trackLine (h : Walk F s t) {r : StackReq} {write : Bool} {line : Nat} : Walk F s (t.trackLine r write line).1 := by
  unfold State.trackLine
  split
  · exact h
  · split
    · exact .ite_fst h.sendSnoop h
    · split
      · exact h.setSnoops
      · exact h
      · exact h.leaveSnoops.cxlLog

theorem Walk.useSnoops (h : Walk F s t) {r : StackReq} {line : Nat} : Walk F s (t.useSnoops r line) := h.leaveSnoops

theorem Walk.setLine (h : Walk F s t) {line : Nat} {x : LineSt} : Walk F s (t.setLine line x) := h.congr

theorem Walk.niAsk (h : Walk F s t) {r : NiReq} : Walk F s (t.niAsk r) := h.congr

theorem Walk.askMember (h : Walk F s t) {rank op line w4 : Nat} {pay : PaySrc} {owner : TagOwner} :
    Walk F s (t.askMember rank op line w4 pay owner) :=
  h.niAsk

theorem Walk.takeBrought (h : Walk F s t) {r : StackReq} : Walk F s (t.takeBrought r) := h.congr

theorem Walk.bring (h : Walk F s t) {line st : Nat} {data : List Byte} {ws : List FillWait} : Walk F s (t.bring line st data ws) :=
  h.congr

theorem Walk.filled (h : Walk F s t) {line st : Nat} : Walk F s (t.filled line st) := by
  unfold State.filled
  split
  · exact .ite h.setLine h.bring.setLine
  · exact (Walk.ite h h.bring).setLine
  · exact h

theorem Walk.cohRead (h : Walk F s t) {r : StackReq} {reads : Bool} {line : Nat} : Walk F s (t.cohRead r reads line).1 := by
  unfold State.cohRead
  dsimp only
  split
  · exact h
  · split
    · exact h
    · split
      · exact h
      · exact h.askMember.setLine
      · exact h.setLine
      · exact h.setLine
      · exact h

theorem Walk.invalidate (h : Walk F s t) {w : Window} {line mask : Nat} : Walk F s (t.invalidate w line mask) :=
  (h.foldl fun _ _ h => h.askMember).setLine

theorem Walk.cohHomeWrite (h : Walk F s t) {line : Nat} : Walk F s (t.cohHomeWrite line).1 := by
  unfold State.cohHomeWrite
  split
  · exact h.invalidate
  · exact h
  · exact h

theorem Walk.setCohw (h : Walk F s t) {xs : List CohWrite} : Walk F s (t.setCohw xs) := h.congr

theorem Walk.cohRemoteWrite (h : Walk F s t) {r : StackReq} {home a : Nat} {bs : List Byte} {add : Bool} :
    Walk F s (t.cohRemoteWrite r home a bs add).1 := by
  unfold State.cohRemoteWrite
  dsimp only
  split
  · exact h
  · exact h
  · exact h.setLine
  · exact h.setLine
  · exact .ite_fst h.setLine.setCohw.askMember h.setLine.setCohw.askMember

theorem Walk.takeCohWrite (h : Walk F s t) {r : StackReq} {a : Nat} : Walk F s (t.takeCohWrite r a).1 := by
  unfold State.takeCohWrite
  split
  · exact h.setCohw
  · exact h

theorem Walk.mirrorRec (h : Walk F s t) {a : Nat} {bs : List Byte} : Walk F s (t.mirrorRec a bs) :=
  .ite h (.ite h.setFld.event h.niAsk)

theorem Walk.mirrorWrite (h : Walk F s t) {n : Nat} {x1 : Nat} {x2 : List Byte} : Walk F s (t.mirrorWrite n x1 x2) := by
  induction n generalizing t x1 x2 with
  | zero => exact h
  | succ n ih => exact .ite h (ih (.ite h h.mirrorRec))

theorem Walk.mirrored (h : Walk F s t) {a : Nat} {bs : List Byte} : Walk F s (t.mirrored a bs) := h.mirrorWrite

theorem Walk.outcome (h : Walk F s t) {core kind ordinal status result : Nat} :
    Walk F s (t.outcome core kind ordinal status result) :=
  .ite h (h.mirrorRec.congr)

theorem Walk.prepRead (h : Walk F s t) {host : Bool} {r : StackReq} {reads : Bool} {l : List Nat} :
    Walk F s (t.prepRead host r reads l).1 := by
  induction l generalizing t host r reads with
  | nil => exact h
  | cons x l ih =>
    unfold State.prepRead
    refine ih ?_
    split
    · exact h
    · refine Walk.cohRead ?_
      split
      · exact h
      · exact h.trackLine

theorem Walk.prepLine (h : Walk F s t) {host : Bool} {r : StackReq} {a : Nat} {bs : List Byte} :
    Walk F s (t.prepLine host r a bs).1 := by
  unfold State.prepLine
  split
  · split
    · split
      · exact ((Walk.ite_fst h h.trackLine).of_eq ‹_›).cohRemoteWrite
      · exact (Walk.ite_fst h h.trackLine).of_eq ‹_›
    · exact ((Walk.ite_fst h h.trackLine).of_eq ‹_›).cohHomeWrite

theorem Walk.prepLines (h : Walk F s t) {host : Bool} {r : StackReq} {l : List (Nat × List Byte)} :
    Walk F s (t.prepLines host r l).1 := by
  induction l generalizing t host r with
  | nil => exact h
  | cons x l ih => exact ih (.ite_fst h.prepLine h)

theorem Walk.useLines (h : Walk F s t) {r : StackReq} {ls : List Nat} : Walk F s (t.useLines r ls) :=
  h.foldl fun _ _ h => h.useSnoops

theorem Walk.readLine (h : Walk F s t) {r : StackReq} {a m : Nat} : Walk F s (t.readLine r a m).1 := by
  unfold State.readLine
  split
  · exact h
  · exact h.readStack

theorem Walk.readLines (h : Walk F s t) {r : StackReq} {n x2 x3 : Nat} : Walk F s (t.readLines r n x2 x3).1 := by
  induction n generalizing t r x2 x3 with
  | zero => exact h
  | succ n ih =>
    unfold State.readLines
    split
    · exact h
    · dsimp only
      split
      · exact h.readLine
      · exact ih h.readLine

theorem Walk.writeWhole (h : Walk F s t) {source core a : Nat} {bs : List Byte} : Walk F s (t.writeWhole source core a bs).1 := by
  unfold State.writeWhole
  split
  · exact h.writeSector
  · exact h.writeStack

theorem Walk.writeRmw (h : Walk F s t) {r : StackReq} {op x y : Nat} : Walk F s (t.writeRmw r op x y).1 := h.writeSector

theorem Walk.writeLine (h : Walk F s t) {r : StackReq} {mask : Nat} {bs : List Byte} : Walk F s (t.writeLine r mask bs).1 := by
  unfold State.writeLine
  dsimp only
  split
  · exact h.writeSector.writeSector
  · exact h.writeSector.foldl fun _ _ h => h.writeSector

theorem Walk.takeCohWrites (h : Walk F s t) {r : StackReq} {l : List (Nat × List Byte)} : Walk F s (t.takeCohWrites r l).1 := by
  induction l generalizing t r with
  | nil => exact h
  | cons x l ih => exact ih h.takeCohWrite

theorem Walk.writeHere (h : Walk F s t) {e : StkEnt} : Walk F s (t.writeHere e).1 := by
  unfold State.writeHere
  dsimp only
  split
  · exact h.writeTagged
  · exact h.writeUntagged
  · exact h.ecc.writeSector
  · exact .ite (h.eccs.writeLine.foldl fun _ _ h => h.mirrored) h.eccs.writeLine
  · exact .ite_fst h.writeWhole h.writeStack
  · exact h.writeRmw
  · exact h.rewritten
  · exact h

theorem Walk.perfEnt (h : Walk F s t) {e : StkEnt} : Walk F s (t.perfEnt e).1 := by
  unfold State.perfEnt
  dsimp only
  split
  · split
    · exact h.useLines.takeCohWrites
    · exact h.useLines.writeHere
  · split
    · exact h.eccs.readBale.useLines
    · refine Walk.takeBrought (Walk.useLines (Walk.readLines ?_))
      split
      · exact h.ecc
      · exact h.eccs
      · exact h

theorem Walk.entReady (h : Walk F s t) {i : Nat} {e : StkEnt} : Walk F s (t.entReady i e).1 := by
  unfold State.entReady
  dsimp only
  split
  · exact h
  · split
    · exact .ite_fst h (.ite_fst h.trackLine h.prepLines)
    · split <;> exact h.prepRead

theorem Walk.grantLine (h : Walk F s t) {line : Nat} : Walk F s (t.grantLine line).1 := by
  unfold State.grantLine
  dsimp only
  split
  · exact h
  · split
    · exact h.congr
    · split
      · exact h
      · exact .ite_fst h h.sendSnoop

theorem Walk.putResult (h : Walk F s t) {i : Nat} {x : StkRes} : Walk F s (t.putResult i x) := h.modStk

theorem Walk.answer (h : Walk F s t) {i : Nat} {e : StkEnt} {v : Served} : Walk F s (t.answer i e v) := by
  unfold State.answer
  dsimp only
  split
  · exact h.putResult
  · exact h.late
  · exact h.emit
  · exact h.filled
  · exact h
  · exact .ite (.ite h h.cxlLog.emit) (.ite (Walk.ite h h.cxlLog.emit).emit (Walk.ite h h.cxlLog.emit).emit)

theorem Walk.grantFor (h : Walk F s t) {e : StkEnt} {r : Ready} : Walk F s (t.grantFor e r).1 := by
  unfold State.grantFor
  split
  · exact h.grantLine
  · exact h

theorem Walk.endEnt (h : Walk F s t) {i : Nat} {e : StkEnt} {r : Ready} : Walk F s (t.endEnt i e r) := by
  unfold State.endEnt
  refine Walk.answer (Walk.modStk ?_)
  split
  · exact h.takeBrought.leaveSnoops
  · exact h.perfEnt

theorem Walk.serveEnt (h : Walk F s t) {i : Nat} {e : StkEnt} : Walk F s (t.serveEnt i e) := by
  unfold State.serveEnt
  dsimp only
  split
  · exact h
  · split
    · exact h.entReady.of_eq ‹_›
    · split
      · exact ((h.entReady.of_eq ‹_›).grantFor.of_eq ‹_›).endEnt
      · exact (h.entReady.of_eq ‹_›).grantFor.of_eq ‹_›

theorem Walk.serve (h : Walk F s t) {i : Nat} : Walk F s (t.serve i) := h.foldl fun _ _ h => h.serveEnt

theorem Walk.serveAll (h : Walk F s t) : Walk F s (t.serveAll) := h.foldl fun _ _ h => h.serve

theorem Walk.grantOne (h : Walk F s t) {i : Nat} (hu : t.grantOne i = some u) : Walk F s u := by
  unfold State.grantOne at hu
  split at hu
  · cases hu
  · split at hu
    · cases hu
    · cases hu; exact h.modStk

theorem Walk.grants (h : Walk F s t) {i n : Nat} : Walk F s (t.grants i n) := by
  induction n generalizing t i with
  | zero => exact h
  | succ n ih =>
    unfold State.grants
    split
    · exact ih (h.grantOne ‹_›).serve
    · exact h

theorem Walk.grantAll (h : Walk F s t) {i : Nat} : Walk F s (t.grantAll i) := h.grants

theorem Walk.arrive (h : Walk F s t) {i : Nat} {r : StackReq} {acc : StkAcc} {owner : StkOwner} :
    Walk F s (t.arrive i r acc owner) := by
  unfold State.arrive
  dsimp only
  split
  · exact h.stkRefuse.answer
  · split
    · exact h.grantAll.modStk.serve
    · exact .ite h.grantAll.answer h.grantAll.modStk

theorem Walk.refuseAll (h : Walk F s t) {i : Nat} : Walk F s (t.refuseAll i) :=
  h.modStk.foldl fun _ _ h => h.stkRefuse.answer

theorem Walk.dropUnits (h : Walk F s t) {sel : StackReq → Bool} {owner : StkOwner} : Walk F s (t.dropUnits sel owner) := by
  unfold State.dropUnits
  dsimp only
  refine Walk.withNi ?_
  exact h.leaveSnoops.foldl fun _ _ h => h.modStk

theorem Walk.unitQueue (h : Walk F s t) {i : Nat} {r : StackReq} {acc : StkAcc} : Walk F s (t.unitQueue i r acc) := by
  unfold State.unitQueue
  exact h.modStk

theorem Walk.unitRoom (h : Walk F s t) {i : Nat} {r : StackReq} : Walk F s (t.unitRoom i r).1 := by
  unfold State.unitRoom
  dsimp only
  split
  · exact h
  · split
    · exact h.grantAll
    · split
      · exact h.grantAll
      · split
        · exact h.grantAll
        · exact h.grantAll.unitQueue

theorem Walk.unitLeave (h : Walk F s t) {i : Nat} {r : StackReq} : Walk F s (t.unitLeave i r) := .ite h.modStk h

theorem Walk.unitRooms (h : Walk F s t) {r : StackReq} {l : List Nat} : Walk F s (t.unitRooms r l).1 := by
  induction l generalizing t r with
  | nil => exact h
  | cons x l ih => exact ih h.unitRoom

theorem Walk.unitRead (h : Walk F s t) {r : StackReq} {reads : Bool} {ls : List Nat} : Walk F s (t.unitRead r reads ls).1 := by
  unfold State.unitRead
  split
  · split
    · exact h.prepRead.of_eq ‹_›
    · split <;> exact (h.prepRead.of_eq ‹_›).unitRooms.of_eq ‹_›
  · exact h.prepRead

theorem Walk.unitDone (h : Walk F s t) {r : StackReq} {ls : List Nat} : Walk F s (t.unitDone r ls) :=
  h.useLines.takeBrought.foldl fun _ _ h => h.unitLeave

theorem Walk.tryRead (h : Walk F s t) {r : StackReq} {n : Nat} : Walk F s (t.tryRead r n).1 := by
  unfold State.tryRead
  dsimp only
  split
  · exact h.unitRead.of_eq ‹_›
  · exact (h.unitRead.of_eq ‹_›).dropUnits
  · exact (h.unitRead.of_eq ‹_›).readLines.unitDone

theorem Walk.takeResult (h : Walk F s t) {i : Nat} {r : StackReq} : Walk F s (t.takeResult i r) := h.modStk

theorem Walk.reissue (h : Walk F s t) {i : Nat} {r : StackReq} : Walk F s (t.reissue i r) := by
  unfold State.reissue
  split
  · exact .ite h.takeResult h
  · exact h

theorem Walk.hold (h : Walk F s t) {i : Nat} {r : StackReq} {acc : StkAcc} : Walk F s (t.hold i r acc) := by
  unfold State.hold
  dsimp only
  split
  · exact h.unitLeave.grantAll.modStk
  · exact h.unitLeave.grantAll.unitQueue

theorem Walk.prepHere (h : Walk F s t) {i : Nat} {r : StackReq} {acc : StkAcc} : Walk F s (t.prepHere i r acc).1 := by
  unfold State.prepHere
  split
  · exact h.hold
  · split
    · exact h
    · split
      · exact .ite_fst (h.prepLines.of_eq ‹_›).unitRoom (h.prepLines.of_eq ‹_›).unitRoom
      · exact h.prepLines

theorem Walk.prepAway (h : Walk F s t) {home : Nat} {r : StackReq} {acc : StkAcc} : Walk F s (t.prepAway home r acc).1 := by
  unfold State.prepAway
  split
  · split
    · exact (h.trackLine.of_eq ‹_›).cohRemoteWrite
    · exact (h.trackLine.of_eq ‹_›).cohRemoteWrite
    · exact h.trackLine.of_eq ‹_›

theorem Walk.prepPart (h : Walk F s t) {u : StackReq} {p : Nat × StkAcc} : Walk F s (t.prepPart u p).1 := by
  unfold State.prepPart
  dsimp only
  split
  · exact h.prepAway
  · exact .ite_fst h.reissue (.ite_fst h.reissue h.reissue.prepHere)

theorem Walk.prepParts (h : Walk F s t) {u : StackReq} {l : List (Nat × StkAcc)} : Walk F s (t.prepParts u l).1 := by
  induction l generalizing t u with
  | nil => exact h
  | cons x l ih => exact ih h.prepPart

theorem Walk.commitPart (h : Walk F s t) {u : StackReq} {p : Nat × StkAcc} : Walk F s (t.commitPart u p).1 := by
  unfold State.commitPart
  dsimp only
  split
  · exact h.takeResult
  · exact h.useSnoops.takeCohWrite
  · exact h.perfEnt.unitLeave

theorem Walk.commitParts (h : Walk F s t) {u : StackReq} {n : Nat} {l : List (Nat × StkAcc)} :
    Walk F s (t.commitParts u n l).1 := by
  induction l generalizing t u n with
  | nil => exact h
  | cons x l ih => exact .ite_fst (ih h.commitPart) h.commitPart.dropUnits

theorem Walk.prepWrites (h : Walk F s t) {u : StackReq} {ws : List UnitWrite} : Walk F s (t.prepWrites u ws).1 := by
  unfold State.prepWrites
  dsimp only
  split
  · exact (h.prepParts.of_eq ‹_›).dropUnits
  · exact h.prepParts

theorem Walk.commitUnit (h : Walk F s t) {u : StackReq} {w : UnitWrite} : Walk F s (t.commitUnit u w).1 :=
  h.commitParts

theorem Walk.tryUnit (h : Walk F s t) {u : StackReq} {w : UnitWrite} : Walk F s (t.tryUnit u w).1 := by
  unfold State.tryUnit
  split
  · exact h.prepWrites.of_eq ‹_›
  · exact h.prepWrites.of_eq ‹_›
  · exact (h.prepWrites.of_eq ‹_›).commitUnit

theorem Walk.tryWrite (h : Walk F s t) {r : StackReq} {bs : List Byte} : Walk F s (t.tryWrite r bs).1 := h.tryUnit

theorem Walk.flockRefuses (h : Walk F s t) {r : StackReq} {rs f : Nat} : Walk F s (t.flockRefuses r rs f) := h.resetLog

theorem Walk.tryReadMem (h : Walk F s t) {r : StackReq} {rs n : Nat} : Walk F s (t.tryReadMem r rs n).1 := by
  unfold State.tryReadMem
  split
  · exact h
  · exact h.tryRead
  · split
    · exact h.flockRefuses
    · exact h

theorem Walk.tryWriteMem (h : Walk F s t) {r : StackReq} {rs : Nat} {bs : List Byte} : Walk F s (t.tryWriteMem r rs bs).1 := by
  unfold State.tryWriteMem
  split
  · exact h
  · exact h.tryWrite
  · split
    · exact h.flockRefuses
    · exact .ite h.wrStoreAt h.wrScratchAt

theorem Walk.niFatalEvent (h : Walk F s t) {cause device : Nat} : Walk F s (t.niFatalEvent cause device) :=
  (Walk.ite h.setRbit h.setReg).event

theorem Walk.dropDma (h : Walk F s t) {f c seq : Nat} : Walk F s (t.dropDma f c seq) := by
  unfold State.dropDma
  exact (h.modCore (by exact fun _ hk => hk.of_le (Nat.le_refl _) (List.length_filter_le ..) (Nat.le_refl _))).dropUnits

theorem Walk.dmaOutcome (h : Walk F s t) {f c : Nat} {d : Dma} {st : Nat} : Walk F s (t.dmaOutcome f c d st) :=
  .ite h.outcome h

theorem Walk.dmaFail (h : Walk F s t) {f c : Nat} {d : Dma} {st : Nat} : Walk F s (t.dmaFail f c d st) := by
  unfold State.dmaFail
  exact (h.dmaOutcome.dropDma.modCore
    (by exact fun _ hk => hk.of_le (Nat.le_refl _) (List.length_filter_le ..) (Nat.le_refl _))).coreFault

theorem Walk.setKiln (h : Walk F s t) {k : Kiln} : Walk F s (t.setKiln k) := h.congr

theorem Walk.setGroup (h : Walk F s t) {g : Nat} {k : KGroup} : Walk F s (t.setGroup g k) := h.setKiln

theorem Walk.modGroup (h : Walk F s t) {g : Nat} {f : KGroup → KGroup} : Walk F s (t.modGroup g f) := h.setGroup

theorem Walk.kilnReady (h : Walk F s t) {u : StackReq} {l : List (Nat × Nat)} : Walk F s (t.kilnReady u l).1 := by
  induction l generalizing t u with
  | nil => exact h
  | cons x l ih => exact ih (.ite_fst h.unitRead h)

theorem Walk.kilnTake (h : Walk F s t) {u : StackReq} {l : List (Nat × Nat)} : Walk F s (t.kilnTake u l).1 := by
  induction l generalizing t u with
  | nil => exact h
  | cons x l ih =>
    unfold State.kilnTake
    split
    · split
      · exact (ih h).of_eq ‹_›
      · exact ih h
    · split
      · exact h.tryReadMem.of_eq ‹_›
      · have hread := h.tryReadMem.of_eq ‹_›
        split
        · exact hread.dropUnits
        · split
          · exact (ih hread).of_eq ‹_›
          · exact ih hread

theorem Walk.kilnReads (h : Walk F s t) {u : StackReq} {rs : List (Nat × Nat)} : Walk F s (t.kilnReads u rs).1 := by
  unfold State.kilnReads
  split
  · exact h.kilnReady.of_eq ‹_›
  · exact (h.kilnReady.of_eq ‹_›).dropUnits
  · exact (h.kilnReady.of_eq ‹_›).kilnTake

theorem Walk.kilnRead (h : Walk F s t) {u : StackReq} {n : Nat} : Walk F s (t.kilnRead u n).1 := by
  unfold State.kilnRead
  split <;> exact h.kilnReads.of_eq ‹_›

theorem Walk.scatter (h : Walk F s t) {a n : Nat} : Walk F s (t.scatter a n) := by
  unfold State.scatter
  dsimp only
  have hfresh : Walk F s { t with fresh := t.fresh + n } := h.congr
  split
  · refine hfresh.withDram fun hm => ?_
    exact Memory.wf_foldl_writeBytes _ _ _ hm
  · exact .ite hfresh hfresh.wrStoreAt
  · exact .ite hfresh hfresh.wrScratchAt
  · exact hfresh

theorem Walk.klnLog (h : Walk F s t) {status : Nat} {ab : KAbort} {g seq kind addr : Nat} :
    Walk F s (t.klnLog status ab g seq kind addr) := by
  unfold State.klnLog
  exact (Walk.ite h h.setReg).log

theorem Walk.klnEvent (h : Walk F s t) {status kind : Nat} {group seq : Option Nat} {addr : Nat} :
    Walk F s (t.klnEvent status kind group seq addr) := by
  unfold State.klnEvent
  exact h.bump.klnLog

theorem Walk.kilnPut (h : Walk F s t) {a : Nat} {bs : List Byte} : Walk F s (t.kilnPut a bs) := by
  unfold State.kilnPut
  split
  · exact (h.tryWriteMem.of_eq ‹_›).mirrored
  · exact h.tryWriteMem.of_eq ‹_›

theorem Walk.kilnSignal (h : Walk F s t) {a : Nat} : Walk F s (t.kilnSignal a).1 := by
  unfold State.kilnSignal
  split
  · exact h
  · exact .ite_fst h.flockRefuses (.ite h.addSignal.mirrored h.addSignal)

theorem Walk.kilnComplete (h : Walk F s t) {a g seq addr : Nat} : Walk F s (t.kilnComplete a g seq addr) :=
  .ite h (.ite h.kilnSignal.klnEvent h.kilnSignal)

theorem Walk.dropRows (h : Walk F s t) {b : KBucket} : Walk F s (t.dropRows b) := by
  unfold State.dropRows
  refine h.foldl fun t x h => ?_
  split
  · refine h.modCore fun k hk => ?_
    split
    · split <;> exact hk
    · exact hk
  · exact h

theorem Walk.writeEnd (h : Walk F s t) {e : KEnd} {sealed : Bool} : Walk F s (t.writeEnd e sealed) := by
  unfold State.writeEnd
  dsimp only
  refine Walk.kilnComplete ?_
  split <;> exact (Walk.ite h h.scatter).kilnPut

theorem Walk.endKJob (h : Walk F s t) {e : KEnd} {sealed : Bool} : Walk F s (t.endKJob e sealed) := by
  unfold State.endKJob
  exact (Walk.ite h.dropUnits.setKiln h.dropUnits.writeEnd).modGroup

theorem Walk.tell (h : Walk F s t) {c : Machine.Group} {digest : Nat} {ab : KAbort} : Walk F s (t.tell c digest ab) :=
  .ite h h.modGroup.setKiln

theorem Walk.dropContribs (h : Walk F s t) {g seq : Nat} : Walk F s (t.dropContribs g seq) := h.setNi

theorem Walk.endAborted (h : Walk F s t) {c : Machine.Group} {j : KJob} {ab : KAbort} {addr : Nat} :
    Walk F s (t.endAborted c j ab addr) := by
  unfold State.endAborted
  dsimp only
  refine Walk.endKJob (Walk.bump ?_)
  split
  · exact h.incFld.klnLog.dropRows
  · exact h.incFld.klnLog

theorem Walk.abortKJob (h : Walk F s t) {c : Machine.Group} {j : KJob} {ab : KAbort} {addr : Nat} :
    Walk F s (t.abortKJob c j ab addr) := by
  unfold State.abortKJob
  exact (Walk.ite h.dropContribs.tell h.dropContribs).endAborted.modGroup

theorem Walk.enqueueKJob (h : Walk F s t) {c : Machine.Group} {j : KJob} : Walk F s (t.enqueueKJob c j) := by
  unfold State.enqueueKJob
  dsimp only
  split
  · exact h.modGroup.setKiln.abortKJob
  · exact h.modGroup.setKiln

theorem Walk.submitColl (h : Walk F s t) {a : Nat} : Walk F s (t.submitColl a).1 := by
  unfold State.submitColl
  dsimp only
  split
  · exact h.kilnRead.of_eq ‹_›
  · split
    · exact h.kilnRead.of_eq ‹_›
    · split
      · exact h.kilnRead.of_eq ‹_›
      · exact .ite_fst (h.kilnRead.of_eq ‹_›) (.ite_fst (h.kilnRead.of_eq ‹_›) (.ite_fst (h.kilnRead.of_eq ‹_›) (.ite_fst (h.kilnRead.of_eq ‹_›) (h.kilnRead.of_eq ‹_›).enqueueKJob)))

theorem Walk.submitResult (h : Walk F s t) {a st : Nat} {group : Option Nat} : Walk F s (t.submitResult a st group) :=
  .ite h.setReg h.setReg.klnEvent

theorem Walk.abortOwn (h : Walk F s t) {g cause : Nat} : Walk F s (t.abortOwn g cause) := by
  unfold State.abortOwn
  split
  · exact h.abortKJob
  · exact h

theorem Walk.quiesceKiln (h : Walk F s t) {slice : Nat} : Walk F s (t.quiesceKiln slice) :=
  h.foldl fun _ _ h => h.abortOwn

theorem Walk.kilnDead (h : Walk F s t) {device : Nat} : Walk F s (t.kilnDead device) := by
  unfold State.kilnDead
  refine h.foldl fun t x h => ?_
  split
  · split
    · exact h.abortKJob
    · exact h
  · exact h

theorem Walk.submitBucket (h : Walk F s t) {a : Nat} : Walk F s (t.submitBucket a).1 := by
  unfold State.submitBucket
  dsimp only
  split
  · exact h.kilnReads.of_eq ‹_›
  · split
    · exact h.kilnReads.of_eq ‹_›
    · split
      · exact (h.kilnReads.of_eq ‹_›).kilnRead.of_eq ‹_›
      · split
        · exact (h.kilnReads.of_eq ‹_›).kilnRead.of_eq ‹_›
        · split
          · exact .ite_fst ((h.kilnReads.of_eq ‹_›).kilnRead.of_eq ‹_›) (.ite_fst ((h.kilnReads.of_eq ‹_›).kilnRead.of_eq ‹_›) (.ite_fst ((h.kilnReads.of_eq ‹_›).kilnRead.of_eq ‹_›) (.ite_fst ((h.kilnReads.of_eq ‹_›).kilnRead.of_eq ‹_›) ((h.kilnReads.of_eq ‹_›).kilnRead.of_eq ‹_›).enqueueKJob)))
          · exact (h.kilnReads.of_eq ‹_›).kilnRead.of_eq ‹_›

theorem Walk.submitRedel (h : Walk F s t) {a : Nat} : Walk F s (t.submitRedel a).1 := by
  unfold State.submitRedel
  dsimp only
  split
  · exact h.kilnRead.of_eq ‹_›
  · split
    · exact h.kilnRead.of_eq ‹_›
    · split
      · exact (h.kilnRead.of_eq ‹_›).kilnRead.of_eq ‹_›
      · split
        · exact (h.kilnRead.of_eq ‹_›).kilnRead.of_eq ‹_›
        · split
          · exact (h.kilnRead.of_eq ‹_›).kilnRead.of_eq ‹_›
          · exact .ite_fst ((h.kilnRead.of_eq ‹_›).kilnRead.of_eq ‹_›) (.ite_fst ((h.kilnRead.of_eq ‹_›).kilnRead.of_eq ‹_›) ((h.kilnRead.of_eq ‹_›).kilnRead.of_eq ‹_›).setKiln)

theorem Walk.submitGrad (h : Walk F s t) {a : Nat} : Walk F s (t.submitGrad a).1 := by
  unfold State.submitGrad
  split
  · exact h.kilnRead.of_eq ‹_›
  · exact .ite_fst (h.kilnRead.of_eq ‹_›) (.ite_fst (h.kilnRead.of_eq ‹_›).submitRedel (h.kilnRead.of_eq ‹_›).submitBucket)

theorem Walk.submit (h : Walk F s t) {x : KSub} : Walk F s (t.submit x).1 := by
  unfold State.submit
  split
  · exact h.submitGrad
  · exact h.submitColl

theorem Walk.answerSubs (h : Walk F s t) {n : Nat} : Walk F s (t.answerSubs n) := by
  induction n generalizing t  with
  | zero => exact h
  | succ n ih =>
    unfold State.answerSubs
    dsimp only
    split
    · exact h
    · split
      · exact h.submit.of_eq ‹_›
      · exact ih (h.submit.of_eq ‹_›).setKiln.submitResult

theorem Walk.feedLost (h : Walk F s t) {lost : Nat → Nat → Bool} : Walk F s (t.feedLost lost) := by
  unfold State.feedLost
  refine h.foldl fun t x h => ?_
  split
  · split
    · exact .ite h.abortOwn h
    · exact h
  · exact h

theorem Walk.setPeat (h : Walk F s t) {js : List PeatJob} : Walk F s (t.setPeat js) := h.congr

theorem Walk.putJob (h : Walk F s t) {j : PeatJob} : Walk F s (t.putJob j) := h.setPeat

theorem Walk.dropJob (h : Walk F s t) {j : PeatJob} : Walk F s (t.dropJob j) := h.setPeat

theorem Walk.peatLog (h : Walk F s t) {f c op status rows addr : Nat} : Walk F s (t.peatLog f c op status rows addr) :=
  h.log

theorem Walk.setServe (h : Walk F s t) {i : Nat} {u : PeatServe} : Walk F s (t.setServe i u) := h.congr

theorem Walk.writeNext (h : Walk F s t) {j : PeatJob} : Walk F s (t.writeNext j) := by
  unfold State.writeNext
  dsimp only
  split
  · exact h
  · split
    · exact (Walk.ite_fst h.prepWrites h.prepWrites).of_eq ‹_›
    · exact ((Walk.ite_fst h.prepWrites h.prepWrites).of_eq ‹_›).putJob
    · exact .ite ((Walk.ite_fst h.prepWrites h.prepWrites).of_eq ‹_›).commitUnit.dropUnits.putJob (.ite (.ite ((Walk.ite_fst h.prepWrites h.prepWrites).of_eq ‹_›).commitUnit.putJob ((Walk.ite_fst h.prepWrites h.prepWrites).of_eq ‹_›).commitUnit.putJob) ((Walk.ite_fst h.prepWrites h.prepWrites).of_eq ‹_›).commitUnit.putJob)

theorem Walk.flushRow (h : Walk F s t) {j : PeatJob} : Walk F s (t.flushRow j).1 := by
  unfold State.flushRow
  dsimp only
  split
  · exact h
  · exact h.foldl fun _ _ h => h.arrive

theorem Walk.stopPeat (h : Walk F s t) {f c : Nat} {d : Dma} {st : Nat} : Walk F s (t.stopPeat f c d st) := by
  unfold State.stopPeat
  split
  · exact .ite h.peatLog h
  · exact (Walk.ite_fst h.flushRow h).dropJob.peatLog

theorem Walk.finishRows (h : Walk F s t) {i : Nat} : Walk F s (t.finishRows i) := by
  unfold State.finishRows
  refine h.foldl fun t x h => ?_
  split
  · refine h.foldl fun t x h => ?_
    split
    · exact h.writeNext
    · exact h
  · exact h

theorem Walk.setPort (h : Walk F s t) {q : Nat} {p : Port} : Walk F s (t.setPort q p) := h.congr

theorem Walk.modPort (h : Walk F s t) {q : Nat} {f : Port → Port} : Walk F s (t.modPort q f) := h.setPort

theorem Walk.sendCodeword (h : Walk F s t) {q : Nat} {data : List Byte} : Walk F s (t.sendCodeword q data) :=
  h.modPort.emit

theorem Walk.sendDue (h : Walk F s t) {q : Nat} {lane : LaneMsg} {muster : Option MusterFrame} :
    Walk F s (t.sendDue q lane muster) :=
  h.modPort.sendCodeword

theorem Walk.sendFlitWord (h : Walk F s t) {q : Nat} : Walk F s (t.sendFlitWord q) := h.modPort.sendCodeword

theorem Walk.sendControl (h : Walk F s t) {q : Nat} {lane : LaneMsg} {muster : Option MusterFrame} :
    Walk F s (t.sendControl q lane muster) :=
  (h.foldl fun _ _ h => h.sendFlitWord).sendDue

theorem Walk.setRtr (h : Walk F s t) {r : Rtr} : Walk F s (t.setRtr r) := h.congr

theorem Walk.setPortState (h : Walk F s t) {q v : Nat} : Walk F s (t.setPortState q v) := h.setFld.setRbit

theorem Walk.hthLog (h : Walk F s t) {q : Nat} {rx : Bool} {wl kind : Nat} : Walk F s (t.hthLog q rx wl kind) := h.log

theorem Walk.setLane (h : Walk F s t) {q : Nat} {rx : Bool} {hi lo v : Nat} : Walk F s (t.setLane q rx hi lo v) := h.setFld (by cases rx <;> rfl)

theorem Walk.setHealth (h : Walk F s t) {q : Nat} {rx : Bool} {k v : Nat} : Walk F s (t.setHealth q rx k v) := h.setLane

theorem Walk.setSpare (h : Walk F s t) {q : Nat} {rx : Bool} {k : Nat} : Walk F s (t.setSpare q rx k) := h.setLane

theorem Walk.setSpareFor (h : Walk F s t) {q : Nat} {rx : Bool} {j : Nat} : Walk F s (t.setSpareFor q rx j) := h.setLane

theorem Walk.dropCredits (h : Walk F s t) {q : Nat} : Walk F s (t.dropCredits q) := h.setRtr

theorem Walk.dropPart (h : Walk F s t) {q : Nat} : Walk F s (t.dropPart q) := .ite h h.incFld

theorem Walk.portOff (h : Walk F s t) {q v : Nat} : Walk F s (t.portOff q v) :=
  h.dropPart.setPortState.dropCredits.modPort

theorem Walk.startRetrain (h : Walk F s t) {q : Nat} : Walk F s (t.startRetrain q) := h.portOff.incFld

theorem Walk.askSwap (h : Walk F s t) {q slot wl : Nat} {urgent : Bool} : Walk F s (t.askSwap q slot wl urgent) :=
  h.bump.modPort.sendControl

theorem Walk.dropLane (h : Walk F s t) {q wl : Nat} : Walk F s (t.dropLane q wl) := h.hthLog.sendControl.startRetrain

theorem Walk.claimSpare (h : Walk F s t) {q slot level : Nat} : Walk F s (t.claimSpare q slot level) := by
  unfold State.claimSpare
  dsimp only
  split
  · exact h.dropLane
  · split
    · exact .ite h.setSpareFor.askSwap (.ite (Walk.ite h.setHealth.hthLog h).modPort.setSpareFor.askSwap h.dropLane)
    · exact .ite h.dropLane (.ite h.modPort.hthLog h.modPort.askSwap)

theorem Walk.laterFail (h : Walk F s t) {q k kind : Nat} : Walk F s (t.laterFail q k kind) := h.congr

theorem Walk.failWl (h : Walk F s t) {q k kind : Nat} : Walk F s (t.failWl q k kind) := by
  unfold State.failWl
  dsimp only
  split
  · exact h
  · split
    · exact h.laterFail
    · split
      · exact .ite (Walk.ite h.setHealth.hthLog.setSpare.setSpareFor h.setHealth.hthLog).modPort (.ite h.setHealth.hthLog.setSpare.setSpareFor h.setHealth.hthLog)
      · exact .ite (Walk.ite (Walk.ite h.setHealth.hthLog.setSpare.setSpareFor h.setHealth.hthLog).modPort (.ite h.setHealth.hthLog.setSpare.setSpareFor h.setHealth.hthLog)).askSwap (Walk.ite (Walk.ite h.setHealth.hthLog.setSpare.setSpareFor h.setHealth.hthLog).modPort (.ite h.setHealth.hthLog.setSpare.setSpareFor h.setHealth.hthLog)).claimSpare
      · exact (Walk.ite (Walk.ite h.setHealth.hthLog.setSpare.setSpareFor h.setHealth.hthLog).modPort (.ite h.setHealth.hthLog.setSpare.setSpareFor h.setHealth.hthLog)).claimSpare

theorem Walk.takeSwapReq (h : Walk F s t) {q : Nat} {rx : Bool} {slot wl bound : Nat} :
    Walk F s (t.takeSwapReq q rx slot wl bound) :=
  .ite h h.modPort.sendControl

theorem Walk.takeSwapAck (h : Walk F s t) {q : Nat} {rx : Bool} {slot wl bound : Nat} :
    Walk F s (t.takeSwapAck q rx slot wl bound) :=
  .ite h h.modPort

theorem Walk.takeLaserOut (h : Walk F s t) {q wl : Nat} : Walk F s (t.takeLaserOut q wl) := .ite h.failWl h

theorem Walk.takeRetrain (h : Walk F s t) {q : Nat} : Walk F s (t.takeRetrain q) := .ite h.startRetrain h

theorem Walk.takeLane (h : Walk F s t) {q : Nat} {m : LaneMsg} : Walk F s (t.takeLane q m) := by
  unfold State.takeLane
  split
  · exact h
  · exact h.takeSwapReq
  · exact h.takeSwapAck
  · exact h.takeLaserOut
  · exact h.takeRetrain

theorem Walk.resetPort (h : Walk F s t) {q : Nat} : Walk F s (t.resetPort q) :=
  .ite h.sendControl.startRetrain (.ite h.startRetrain h)

theorem Walk.refuseAsks (h : Walk F s t) {i : Nat} : Walk F s (t.refuseAsks i) := by
  unfold State.refuseAsks
  dsimp only
  refine h.setServe.foldl fun t x h => ?_
  split
  · exact .ite h h.putJob
  · exact h

/-! ### What every command keeps -/

/-- `t` still has the commands that wait in `s`, and every bound and canonical form that `s` has. -/
structure Kept (s t : State) : Prop where
  pending : t.pending = s.pending
  mem     : s.memOk → t.memOk
  records : s.recordsOk → t.recordsOk
  cores   : s.coresOk → t.coresOk

theorem Kept.trans (h : Kept s t) (h' : Kept t u) : Kept s u :=
  ⟨h'.pending.trans h.pending, h'.mem ∘ h.mem, h'.records ∘ h.records, h'.cores ∘ h.cores⟩

/-- A change of any other field. -/
theorem Kept.congr (hu : (t.pending, t.dram, t.store, t.scratch, t.evt, t.nor, t.cores) =
    (s.pending, s.dram, s.store, s.scratch, s.evt, s.nor, s.cores) := by rfl) : Kept s t := by
  simp only [Prod.mk.injEq] at hu
  obtain ⟨hpending, hdram, hstore, hscratch, hevt, hnor, hcores⟩ := hu
  refine ⟨hpending, fun hm => ?_, fun hr => ?_, fun hc => ?_⟩
  · rwa [State.memOk, hdram, hstore, hscratch]
  · rwa [State.recordsOk, hevt, hnor]
  · intro f c; rw [State.core, hcores]; exact hc f c

theorem Kept.congr_walked (h : t.walked = s.walked) : Kept s t := by
  simp only [State.walked, Prod.mk.injEq] at h
  obtain ⟨hpending, hdram, hstore, hscratch, hevt, hnor, hcores, -⟩ := h
  exact .congr (by rw [hpending, hdram, hstore, hscratch, hevt, hnor, hcores])

theorem Kept.setCore {f c : Nat} {k : Core} (hk : (s.core f c).Bounded → k.Bounded) : Kept s (s.setCore f c k) := by
  refine ⟨rfl, id, id, fun hok f' c' => ?_⟩
  by_cases hfc : coreIdx f' c' = coreIdx f c
  · have hcore : (s.setCore f c k).core f' c' = k := by simp [State.core, State.setCore, hfc]
    rw [hcore]; exact hk (hok f c)
  · rw [State.core_setCore_ne _ _ _ _ _ _ hfc]; exact hok f' c'

/-- The invariants as a relation that the single changes respect. -/
def keptFrame : Frame where
  rel := Kept
  trans := Kept.trans
  congr := Kept.congr_walked
  setReg _ _ _ _ _ _ := .congr
  late _ := .congr
  dram _ _ hm := ⟨rfl, fun hok => ⟨hm hok.1, hok.2⟩, id, id⟩
  store _ _ hm := ⟨rfl, fun hok => ⟨hok.1, hm hok.2.1, hok.2.2⟩, id, id⟩
  scratch _ _ hm := ⟨rfl, fun hok => ⟨hok.1, hok.2.1, hm hok.2.2⟩, id, id⟩
  evt _ _ hl := ⟨rfl, id, fun hok => ⟨hl hok.1, hok.2⟩, id⟩
  core _ _ _ _ hk := .setCore hk
  notify _ _ _ _ := ⟨rfl, id, id, fun hok f c => by rw [State.core_notify]; exact hok f c⟩

/-- A walk that keeps the invariants. -/
abbrev Keeps : State → State → Prop := Walk keptFrame

/-- A command goes on to a state that keeps all this. -/
def Completes (s : State) (o : Out) : Prop := ∃ t, o = .next t ∧ Keeps s t

theorem Walk.kept (h : Keeps s t) : Kept s t := h

theorem Walk.pending (h : Keeps s t) : t.pending = s.pending := h.kept.pending

/-- A change of any other field, the registers among them. -/
theorem Walk.others (h : Keeps s t) (hu : (u.pending, u.dram, u.store, u.scratch, u.evt, u.nor, u.cores) =
    (t.pending, t.dram, t.store, t.scratch, t.evt, t.nor, t.cores) := by rfl) : Keeps s u := h.kept.trans (.congr hu)

/-! ### Single changes -/

theorem Keeps.withNi (h : Keeps s t) {n : Ni} : Keeps s { t with ni := n } := h.others

theorem Walk.withFold (h : Keeps s t) {i : Option Fold} : Keeps s { t with fold := i } := h.congr

theorem Walk.withReturns (h : Keeps s t) {l : List (Nat × Nat × Nat)} : Keeps s { t with returns := l } := h.congr

theorem Walk.withInter (h : Keeps s t) {b : Bool} : Keeps s { t with inter := b } := h.congr

theorem Walk.withNor (h : Keeps s t) {l : List (Nat × Nat)} (hl : t.nor.length ≤ 4096 → l.length ≤ 4096) :
    Keeps s { t with nor := l } :=
  h.trans ⟨rfl, id, fun hok => ⟨hok.1, hl hok.2⟩, id⟩

/-! ### Commands -/

theorem Completes.next (h : Keeps s t) : Completes s (.next t) := ⟨t, rfl, h⟩

theorem Completes.ite {c : Prop} [Decidable c] {o o' : Out} (h : Completes s o) (h' : Completes s o') :
    Completes s (if c then o else o') := by
  split
  · exact h
  · exact h'

theorem onCore_completes {f c : Nat} {k : State → State} (hk : Keeps t (k t)) : Completes t (onCore f c t k) :=
  .next (.ite hk .self)

theorem inRange_completes {i n : Nat} {k : State → State} (hk : Keeps t (k t)) : Completes t (inRange i n t k) :=
  .next (.ite hk .self)

theorem Keeps.setReg (h : Keeps s t) {r : Reg} {i j v : Nat} : Keeps s (t.setReg r i j v) := h.others

theorem Keeps.setFld (h : Keeps s t) {r : Reg} {i j hi lo v : Nat} : Keeps s (t.setFld r i j hi lo v) := h.setReg

theorem Keeps.setRbit (h : Keeps s t) {r : Reg} {i j b : Nat} {v : Bool} : Keeps s (t.setRbit r i j b v) := h.setFld

theorem Keeps.incFld (h : Keeps s t) {r : Reg} {i j hi lo : Nat} : Keeps s (t.incFld r i j hi lo) := h.setFld

theorem Keeps.addFld (h : Keeps s t) {r : Reg} {i j hi lo n : Nat} : Keeps s (t.addFld r i j hi lo n) := h.setFld

theorem Walk.resetReg (h : Keeps s t) {r : Reg} {i j : Nat} : Keeps s (t.resetReg r i j) := h.setReg

theorem Keeps.setCbit (h : Keeps s t) {lo hi : Reg} {f c : Nat} {v : Bool} : Keeps s (t.setCbit lo hi f c v) :=
  h.setRbit

theorem Walk.flagInexact (h : Keeps s t) {f c : Nat} {b : Bool} : Keeps s (t.flagInexact f c b) :=
  .ite h.setCbit h

theorem Keeps.log (h : Keeps s t) {r : Reg} {i j v : Nat} {cnt : Option (Nat × Nat)} {addr : Option (Reg × Nat)} {source loc : Nat} :
    Keeps s (t.log r i j v cnt addr source loc) := by
  unfold State.log
  dsimp only
  split
  · exact h.setReg
  · refine Walk.event ?_
    split
    · exact h.setReg.setReg
    · exact h.setReg

theorem Walk.flkLog (h : Keeps s t) {f addr status source core : Nat} : Keeps s (t.flkLog f addr status source core) :=
  h.log

theorem Walk.retire (h : Keeps s t) {f n kind : Nat} : Keeps s (t.retire f n kind) := by
  unfold State.retire
  dsimp only
  split
  · exact h
  · refine Walk.event ?_
    split
    · rename_i hroom
      exact h.setCbit.withNor fun _ => List.length_append.trans_le (of_decide_eq_true hroom)
    · exact h.setCbit

theorem Walk.setInPort (h : Keeps s t) {f q : Nat} {x : InPort} : Keeps s (t.setInPort f q x) := h.modFlock

theorem Walk.setOutPort (h : Keeps s t) {f p : Nat} {x : OutPort} : Keeps s (t.setOutPort f p x) := h.modFlock

theorem Walk.roadSend (h : Keeps s t) {f p : Nat} {data : List Byte} : Keeps s (t.roadSend f p data) :=
  h.setOutPort.setInPort

theorem Walk.roadSendAll (h : Keeps s t) {f : Nat} {p : Nat} {n : Nat} {x3 : List Byte} : Keeps s (t.roadSendAll f p n x3) := by
  induction n generalizing t f p x3 with
  | zero => exact h
  | succ n ih => exact .ite h (ih h.roadSend)

theorem Walk.roadTake (h : Keeps s t) {f q : Nat} : Keeps s (t.roadTake f q) := by
  unfold State.roadTake
  dsimp only
  split
  · exact h.setInPort.setOutPort
  · exact h.setInPort

theorem Walk.reviveRoad (h : Keeps s t) {f p : Nat} : Keeps s (t.reviveRoad f p) := .ite h.setInPort h

theorem Walk.reviveRoads (h : Keeps s t) {f : Nat} : Keeps s (t.reviveRoads f) := h.foldl fun _ _ h => h.reviveRoad

theorem onPort_completes {f p : Nat} {k : State → State} (hk : Keeps t (k t)) : Completes t (onPort f p t k) :=
  .next (.ite hk .self)

theorem execRoadRowArrival_completes {f q : Nat} {parityOk : Bool} : Completes t (execRoadRowArrival f q parityOk t) := by
  unfold execRoadRowArrival
  dsimp only
  refine onPort_completes ?_
  split
  · exact .ite .self Walk.self.setInPort
  · exact .self

theorem execRoadCreditReturn_completes {f p : Nat} : Completes t (execRoadCreditReturn f p t) :=
  onPort_completes (.ite .self Walk.self.setOutPort)

theorem Walk.wrPlace (h : Keeps s t) {f c : Nat} {p : Place} {bs : List Byte} : Keeps s (t.wrPlace f c p bs) :=
  .ite h.wrStore h.wrScratch

theorem Walk.advance (h : Keeps s t) {f c : Nat} : Keeps s (t.advance f c) := h.modCore

theorem Walk.precise (h : Keeps s t) {f c cls status op : Nat} : Keeps s (t.precise f c cls status op) :=
  h.bump.coreFault

theorem Walk.memFault (h : Keeps s t) {f c op status addr : Nat} : Keeps s (t.memFault f c op status addr) :=
  h.flkLog.precise

theorem Walk.arrayLog (h : Keeps s t) {f c cause status fmt set done req : Nat} :
    Keeps s (t.arrayLog f c cause status fmt set done req) :=
  .ite h.setRbit h.setReg

theorem Walk.fmtFault (h : Keeps s t) {f c op code : Nat} : Keeps s (t.fmtFault f c op code) := h.arrayLog.precise

theorem Walk.fetchFault (h : Keeps s t) {f c : Nat} : Keeps s (t.fetchFault f c) := h.bump.precise

theorem issue_completes {op f c : Nat} {w : Word64} {k : State → State} (hk : Keeps t (k t)) : Completes t (issue op f c w t k) :=
  .ite (.next .self) (onCore_completes (.ite .self (.ite Walk.self.fetchFault (.ite .self (.ite Walk.self.precise hk)))))

theorem Walk.retS (h : Keeps s t) {f c r v : Nat} : Keeps s (t.retS f c r v) := (h.modCore fun _ hk => hk.setS).advance

theorem execAlu_completes {f c : Nat} {w : Word64} : Completes t (execAlu f c w t) := issue_completes Walk.self.retS

theorem execAlui_completes {f c : Nat} {w : Word64} : Completes t (execAlui f c w t) := issue_completes Walk.self.retS

theorem execLi_completes {f c : Nat} {w : Word64} : Completes t (execLi f c w t) := issue_completes Walk.self.retS

theorem execLd_completes {f c : Nat} {w : Word64} : Completes t (execLd f c w t) := by
  unfold execLd
  dsimp only
  refine issue_completes ?_
  split
  · exact Walk.self.memFault
  · exact Walk.self.retS

theorem execSt_completes {f c : Nat} {w : Word64} : Completes t (execSt f c w t) := by
  unfold execSt
  dsimp only
  refine issue_completes ?_
  split
  · exact Walk.self.memFault
  · exact Walk.self.wrPlace.advance

theorem Walk.jump (h : Keeps s t) {f c op : Nat} {target : Int} {link : Core → Core} (hlink : ∀ k : Core, k.Bounded → (link k).Bounded) :
    Keeps s (t.jump f c op target link) :=
  .ite (h.modCore fun k hk => hlink k hk) h.precise

theorem execBr_completes {f c : Nat} {w : Word64} : Completes t (execBr f c w t) :=
  issue_completes (.ite (Walk.self.jump fun _ hk => hk) Walk.self.advance)

theorem execJal_completes {f c : Nat} {w : Word64} : Completes t (execJal f c w t) :=
  issue_completes (Walk.self.jump fun _ hk => hk.setS)

theorem execJr_completes {f c : Nat} {w : Word64} : Completes t (execJr f c w t) :=
  issue_completes (Walk.self.jump fun _ hk => hk.setS)

theorem execTixr_completes {f c : Nat} {w : Word64} : Completes t (execTixr f c w t) :=
  issue_completes (.ite Walk.self.retS.setCbit Walk.self.retS)

theorem Walk.release (h : Keeps s t) {f c : Nat} : Keeps s (t.release f c) := by
  unfold State.release
  dsimp only
  split
  · exact .ite h.modCore h
  · exact .ite h.modCore h
  · exact .ite h.modCore.setCbit h
  · exact h

theorem Walk.holdIssue (h : Keeps s t) {f c : Nat} {h' : Hold} : Keeps s (t.holdIssue f c h') :=
  h.advance.modCore.release

theorem execQwait_completes {f c : Nat} {w : Word64} : Completes t (execQwait f c w t) :=
  issue_completes Walk.self.holdIssue

theorem execQwaitRelease_completes {f c : Nat} : Completes t (execQwaitRelease f c t) :=
  onCore_completes Walk.self.release

theorem execStop_completes {f c : Nat} {w : Word64} : Completes t (execStop f c w t) :=
  issue_completes Walk.self.holdIssue

theorem execRfence_completes {f c : Nat} {w : Word64} : Completes t (execRfence f c w t) :=
  issue_completes Walk.self.holdIssue

theorem execNop_completes {f c : Nat} {w : Word64} : Completes t (execNop f c w t) :=
  issue_completes Walk.self.advance

theorem execSread_completes {f c : Nat} {w : Word64} : Completes t (execSread f c w t) := by
  unfold execSread
  dsimp only
  refine issue_completes ?_
  split
  · exact Walk.self.retS
  · exact Walk.self.retS
  · exact Walk.self.retS
  · exact Walk.self.retS
  · exact Walk.self.bump.modCore.retS
  · exact Walk.self.retS
  · exact Walk.self.retS

theorem execMovt_completes {f c : Nat} {w : Word64} : Completes t (execMovt f c w t) :=
  issue_completes (Walk.self.modCore fun _ hk => hk.setT).advance

theorem execMft_completes {f c : Nat} {w : Word64} : Completes t (execMft f c w t) := issue_completes Walk.self.retS

theorem execTaddi_completes {f c : Nat} {w : Word64} : Completes t (execTaddi f c w t) :=
  issue_completes (Walk.self.modCore fun _ hk => hk.setT).advance

theorem Walk.enqueue (h : Keeps s t) {f c : Nat} {w : Word64} {bad : Option Nat} : Keeps s (t.enqueue f c w bad) := by
  unfold State.enqueue
  dsimp only
  split
  · exact h
  · rename_i hroom
    split
    · exact h.fmtFault
    · have hk (e : ArrayEntry) (hk : (t.core f c).Bounded) : { t.core f c with queue := (t.core f c).queue ++ [e] }.Bounded :=
        ⟨by simp only [List.length_append, List.length_singleton]; omega, hk.2⟩
      exact (h.setCore (hk _)).advance

theorem execWload_completes {f c : Nat} {w : Word64} : Completes t (execWload f c w t) :=
  issue_completes Walk.self.enqueue

theorem execWswap_completes {f c : Nat} {w : Word64} : Completes t (execWswap f c w t) :=
  issue_completes Walk.self.enqueue

theorem execStream_completes {f c : Nat} {w : Word64} : Completes t (execStream f c w t) :=
  issue_completes Walk.self.enqueue

theorem execDrain_completes {f c : Nat} {w : Word64} : Completes t (execDrain f c w t) :=
  issue_completes Walk.self.enqueue

theorem execTclr_completes {f c : Nat} {w : Word64} : Completes t (execTclr f c w t) :=
  issue_completes Walk.self.enqueue

theorem execAccview_completes {f c : Nat} {w : Word64} : Completes t (execAccview f c w t) :=
  issue_completes Walk.self.enqueue

theorem execGdrain_completes {f c : Nat} {w : Word64} : Completes t (execGdrain f c w t) :=
  issue_completes Walk.self.enqueue

theorem Walk.arrayFault (h : Keeps s t) {f c : Nat} {e : ArrayEntry} {cause status done : Nat} {atRow : Bool} :
    Keeps s (t.arrayFault f c e cause status done atRow) :=
  h.bump.arrayLog.coreFault

theorem execArrayStart_completes {f c : Nat} : Completes t (execArrayStart f c t) := by
  unfold execArrayStart
  refine onCore_completes ?_
  dsimp only
  split
  · exact .self
  · rename_i e rest hqueue
    split
    · exact .self
    · have htaken : Keeps t (t.modCore f c fun k => { k with queue := rest }) :=
        Walk.self.setCore fun hk => ⟨by have := hk.1; rw [hqueue] at this; exact Nat.le_of_succ_le this, hk.2⟩
      split
      · exact htaken.arrayFault
      · split
        · exact htaken.modCore
        · exact htaken.modCore fun _ hk => hk.clearRows
        · exact htaken.modCore
        · exact htaken.modCore
        · exact htaken.modCore

theorem Walk.writeSink (h : Keeps s t) {f c : Nat} {t' : Word64} {r : Nat} {bs : List Byte} :
    Keeps s (t.writeSink f c t' r bs) := by
  unfold State.writeSink
  dsimp only
  split
  · exact h.roadSendAll
  · exact h.wrStore
  · exact h.wrScratch

theorem Walk.rowFault (h : Keeps s t) {f c i : Nat} {r : ArrayRun} {cause status : Nat} :
    Keeps s (t.rowFault f c i r cause status) :=
  (Walk.ite h.modCore.bump.resetLog h.modCore).arrayFault

theorem Walk.residueFault (h : Keeps s t) {f c i : Nat} : Keeps s (t.residueFault f c i) := h.modCore.haltCore.retire

theorem streamRow_keeps (h : Keeps s t) {f c i : Nat} {r : ArrayRun} {residueFails : Bool} :
    Keeps s (streamRow f c i r residueFails t) := by
  unfold streamRow
  dsimp only
  split
  · exact h
  · split
    · exact h
    · exact (Walk.ite h.roadTake h).rowFault
    · refine .ite h ?_
      have htaken {c : Prop} [Decidable c] {q : Nat} : Keeps s (if c then t.roadTake f q else t) := .ite h.roadTake h
      generalize (if passMode r.e.w r.e.count = true then _ else Sink.ready) = sink
      split
      · exact htaken.rowFault
      · exact .ite htaken.residueFault (.ite (htaken.writeSink.flagInexact.modCore fun _ hk => hk.rowDone)
          (htaken.setCore fun hk => hk.accumulate.rowDone).flagInexact)

theorem Walk.afterDrain (h : Keeps s t) {f c row : Nat} {fab clear : Bool} {g : Int} :
    Keeps s (t.afterDrain f c row fab clear g) := by
  unfold State.afterDrain
  dsimp only
  have hflags {b b' : Prop} [Decidable b] [Decidable b'] {x : Bool} : Keeps s (if b then if b' then
      (t.flagInexact f c x).setCbit .flkArithOverflowLo .flkArithOverflowHi f c true else t.flagInexact f c x else t) :=
    .ite (.ite h.flagInexact.setCbit h.flagInexact) h
  refine hflags.modCore fun k hk => ?_
  split
  · exact hk.clearRows
  · split
    · exact hk.foldl fun _ _ hk => hk.setTly
    · exact hk

theorem drainRow_keeps (h : Keeps s t) {f c i : Nat} {r : ArrayRun} : Keeps s (drainRow f c i r t) := by
  unfold drainRow
  dsimp only
  split
  · exact h
  · exact h.rowFault
  · exact h.writeSink.afterDrain.modCore fun _ hk => hk.rowDone

theorem gdrainRow_keeps (h : Keeps s t) {f c i : Nat} {r : ArrayRun} : Keeps s (gdrainRow f c i r t) :=
  .ite h h.afterDrain.modCore

theorem wloadRow_keeps (h : Keeps s t) {f c i : Nat} {r : ArrayRun} : Keeps s (wloadRow f c i r t) := by
  unfold wloadRow
  dsimp only
  split
  · exact h.modCore.rowFault
  · refine h.modCore fun k hk => ?_
    split
    · exact hk.rowDone
    · exact hk

theorem execArrayRowFetch_completes {f c k : Nat} {residueFails : Bool} :
    Completes t (execArrayRowFetch f c k residueFails t) := by
  unfold execArrayRowFetch
  refine onCore_completes ?_
  split
  · exact .self
  · split
    · exact .self
    · split
      · exact wloadRow_keeps .self
      · exact streamRow_keeps .self
      · exact drainRow_keeps .self
      · exact gdrainRow_keeps .self

theorem execRoadTimeout_completes {f c : Nat} : Completes t (execRoadTimeout f c t) := by
  unfold execRoadTimeout
  dsimp only
  refine onCore_completes ?_
  split
  · exact .self
  · split
    · exact .self
    · split
      · exact Walk.self.rowFault
      · exact .self

theorem Walk.clearStack (h : Keeps s t) {i : Nat} : Keeps s (t.clearStack i) :=
  h.trans ⟨rfl, fun hm => ⟨Memory.wf_drop (fun k => k / 2 ^ 37 == i) hm.1, hm.2⟩, id, id⟩

theorem Walk.tryReadBale (h : Keeps s t) {r : StackReq} {errs : Errs} : Keeps s (t.tryReadBale r errs).1 := by
  unfold State.tryReadBale
  dsimp only
  split
  · exact h.unitRead.of_eq ‹_›
  · exact (h.unitRead.of_eq ‹_›).dropUnits
  · exact (h.unitRead.of_eq ‹_›).eccs.readBale.unitDone

theorem Walk.tryWriteBale (h : Keeps s t) {r : StackReq} {tag : Option Nat} {bs : List Byte} :
    Keeps s (t.tryWriteBale r tag bs).1 :=
  h.tryUnit

theorem Walk.tryRmw (h : Keeps s t) {r : StackReq} {op x y : Nat} : Keeps s (t.tryRmw r op x y).1 := by
  unfold State.tryRmw
  dsimp only
  split
  · exact h.prepPart.of_eq ‹_›
  · exact (h.prepPart.of_eq ‹_›).dropUnits
  · exact (h.prepPart.of_eq ‹_›).commitPart

theorem Keeps.setNi (h : Keeps s t) {n : Ni} : Keeps s (t.setNi n) := h.others

theorem Walk.setQueue (h : Keeps s t) {slice q : Nat} {ps : List Packet} : Keeps s (t.setQueue slice q ps) :=
  h.congr

theorem Walk.pushQueue (h : Keeps s t) {slice q : Nat} {p : Packet} : Keeps s (t.pushQueue slice q p) := h.setQueue

theorem Walk.inject (h : Keeps s t) {share : Nat} {p : Packet} : Keeps s (t.inject share p) := h.pushQueue.setNi

theorem Walk.niLog (h : Keeps s t) {status : Nat} {dir : Bool} {space cls op peer share addr : Nat} :
    Keeps s (t.niLog status dir space cls op peer share addr) :=
  h.log

theorem Walk.dropTag (h : Keeps s t) {num : Nat} : Keeps s (t.dropTag num) := h.setNi

theorem Walk.setTag (h : Keeps s t) {t' : Tag} : Keeps s (t.setTag t') := h.setNi

theorem Walk.modDma (h : Keeps s t) {f c seq : Nat} {g : Dma → Dma} : Keeps s (t.modDma f c seq g) := by
  unfold State.modDma
  exact h.modCore (by exact fun _ hk => hk.of_le (Nat.le_refl _) (List.length_map ..).le (Nat.le_refl _))

theorem Walk.payload (h : Keeps s t) {r : NiReq} : Keeps s (t.payload r).1 := by
  unfold State.payload
  split
  · exact h
  · exact h.tryReadMem

theorem Walk.unask (h : Keeps s t) {r : NiReq} : Keeps s (t.unask r) := h.setNi

theorem Walk.sendReq (h : Keeps s t) {r : NiReq} : Keeps s (t.sendReq r).1 := by
  unfold State.sendReq
  dsimp only
  split
  · exact h.unask
  · split
    · exact h.unask
    · split
      · exact h
      · split
        · exact h
        · split
          · exact h
          · split
            · exact h.payload.of_eq ‹_›
            · exact .ite_fst (h.payload.of_eq ‹_›).unask (Walk.ite (h.payload.of_eq ‹_›).unask.setNi.incFld (h.payload.of_eq ‹_›).unask.setNi).inject

theorem Walk.sendFirst (h : Keeps s t) {x0 : List NiReq} {l : List NiReq} : Keeps s (t.sendFirst x0 l).1 := by
  induction l generalizing t x0 with
  | nil => exact h
  | cons x l ih =>
    unfold State.sendFirst
    dsimp only
    split
    · exact ih h
    · split
      · exact (h.sendReq.of_eq ‹_›).setNi
      · exact ih (h.sendReq.of_eq ‹_›)
      · exact h.sendReq.of_eq ‹_›

theorem Walk.push (h : Keeps s t) {f c : Nat} {p : Place} (hroom : (t.core f c).dma.length < 16) : Keeps s (t.push f c p) := by
  unfold State.push
  have hk (d : Dma) (n : Nat) (hk : (t.core f c).Bounded) :
      { t.core f c with dma := (t.core f c).dma ++ [d], pushes := n }.Bounded :=
    ⟨hk.1, by simpa using Nat.succ_le_of_lt hroom, hk.2.2⟩
  exact (h.setCore (hk _ _)).advance

theorem State.dmaRoom_lt {f c : Nat} (h : t.dmaRoom f c = true) : (t.core f c).dma.length < 16 := by
  unfold State.dmaRoom at h
  rw [Bool.and_eq_true] at h
  exact of_decide_eq_true h.1

theorem execDma_completes {f c : Nat} {w : Word64} : Completes t (execDma f c w t) := by
  unfold execDma
  refine issue_completes ?_
  split
  · exact Walk.self.memFault
  · split
    · exact Walk.self.push (State.dmaRoom_lt ‹_›)
    · exact Walk.self.modCore.modFlock

theorem execDmaPushAdmit_completes {f : Nat} : Completes t (execDmaPushAdmit f t) := by
  unfold execDmaPushAdmit
  refine inRange_completes ?_
  dsimp only
  split
  · exact .self
  · split
    · split
      · rename_i hroom
        rw [Bool.and_eq_true, Bool.and_eq_true] at hroom
        refine Walk.self.modFlock.modCore.push ?_
        rw [State.core_modCore_same]
        exact State.dmaRoom_lt (t := t) hroom.1.1
      · exact .self
    · exact Walk.self.modFlock

theorem Walk.dmaOk (h : Keeps s t) {f c : Nat} {d : Dma} : Keeps s (t.dmaOk f c d) := by
  unfold State.dmaOk
  split
  · exact h.dmaOutcome.dropDma
  · exact .ite h.addSignal.dmaOutcome.dropDma h.addSignal.dmaFail

theorem Walk.dmaEnd (h : Keeps s t) {f c : Nat} {d : Dma} {st : Nat} : Keeps s (t.dmaEnd f c d st) :=
  .ite h.dmaOk h.dmaFail

theorem Walk.dmaViolation (h : Keeps s t) {f c : Nat} {d : Dma} {st addr : Nat} : Keeps s (t.dmaViolation f c d st addr) :=
  h.flkLog.dmaFail

theorem Walk.startRemote (h : Keeps s t) {f c : Nat} {d : Dma} : Keeps s (t.startRemote f c d) :=
  h.modDma.foldl fun _ _ h => h.niAsk

theorem Walk.setFar (h : Keeps s t) {xs : List FarReq} : Keeps s (t.setFar xs) := h.congr

theorem Walk.farSend (h : Keeps s t) {f c seq : Nat} {write : Bool} {addr off : Nat} {bs : List Byte} :
    Keeps s (t.farSend f c seq write addr off bs) :=
  .ite h.setFar h.setFar.emit

theorem Walk.farIssue (h : Keeps s t) {f c seq n : Nat} : Keeps s (t.farIssue f c seq n) := by
  induction n generalizing t with
  | zero => exact h
  | succ n ih =>
    unfold State.farIssue
    split
    · exact h
    · refine .ite h (.ite (ih h.modDma.cxlLog.modDma) (.ite (ih h.modDma.farSend) ?_))
      split
      · exact h.tryReadMem.of_eq ‹_›
      · have hread := h.tryReadMem.of_eq ‹_›
        exact .ite (ih hread.modDma.farSend) (ih hread.modDma.modDma)

theorem Walk.startFar (h : Keeps s t) {f c : Nat} {d : Dma} {addr : Nat} : Keeps s (t.startFar f c d addr) := by
  unfold State.startFar
  dsimp only
  split
  · exact h.cxlLog.dmaFail
  · exact .ite h.cxlLog.dmaFail h.modDma.farIssue

theorem execDmaDescriptorStart_completes {f c : Nat} : Completes t (execDmaDescriptorStart f c t) := by
  unfold execDmaDescriptorStart
  dsimp only
  refine onCore_completes ?_
  split
  · exact .self
  · split
    · exact .self
    · split
      · exact Walk.self.dmaViolation
      · split
        · exact (Walk.ite Walk.self.cxlLog .self).dmaViolation
        · split
          · exact Walk.self.startRemote
          · exact Walk.self.startRemote
          · split
            · exact Walk.self.startFar
            · exact Walk.self.modDma
          · exact Walk.self.modDma

theorem Walk.copyOut (h : Keeps s t) {f c : Nat} {d : Dma} {bs : List Byte} : Keeps s (t.copyOut f c d bs) := by
  unfold State.copyOut
  split
  · exact h.tryWriteMem.of_eq ‹_›
  · exact (h.tryWriteMem.of_eq ‹_›).dmaEnd

theorem Walk.doCopy (h : Keeps s t) {f c : Nat} {d : Dma} : Keeps s (t.doCopy f c d) := by
  unfold State.doCopy
  dsimp only
  split
  · exact h.copyOut
  · split
    · exact h.tryReadMem.of_eq ‹_›
    · exact .ite (h.tryReadMem.of_eq ‹_›).dmaFail (Walk.ite ((h.tryReadMem.of_eq ‹_›).congr) (h.tryReadMem.of_eq ‹_›)).modDma.copyOut

theorem Walk.doBaleOut (h : Keeps s t) {f : Nat} {c : Nat} {d : Dma} {n : Nat} : Keeps s (t.doBaleOut f c d n) := by
  induction n generalizing t f c d with
  | zero => exact h.dmaEnd
  | succ n ih =>
    unfold State.doBaleOut
    dsimp only
    split
    · exact h.dmaEnd
    · split
      · exact h.tryWriteBale.of_eq ‹_›
      · exact .ite (h.tryWriteBale.of_eq ‹_›).dmaFail (ih (h.tryWriteBale.of_eq ‹_›).modDma)

theorem execBaleReadComplete_completes {f c n : Nat} {errs : Errs} : Completes t (execBaleReadComplete f c n errs t) := by
  unfold execBaleReadComplete
  dsimp only
  refine onCore_completes ?_
  split
  · exact .self
  · split
    · exact .self
    · split
      · exact Walk.self.tryReadBale.of_eq ‹_›
      · exact .ite (Walk.self.tryReadBale.of_eq ‹_›).dmaFail (.ite (Walk.self.tryReadBale.of_eq ‹_›).wrStore.modDma (.ite (Walk.self.tryReadBale.of_eq ‹_›).dmaViolation (Walk.self.tryReadBale.of_eq ‹_›).modDma))

theorem Walk.landAll (h : Keeps s t) {f : Nat} {c : Nat} {d : Dma} {l : List (Nat × Nat × List Byte)} :
    Keeps s (t.landAll f c d l) := by
  induction l generalizing t f c d with
  | nil => exact h
  | cons x l ih =>
    unfold State.landAll
    dsimp only
    split
    · exact ih (h.tryWriteMem.of_eq ‹_›)
    · exact ih (.ite (h.tryWriteMem.of_eq ‹_›).modDma.mirrored (h.tryWriteMem.of_eq ‹_›).modDma)

theorem Walk.settle (h : Keeps s t) {f c : Nat} {d : Dma} : Keeps s (t.settle f c d) := by
  unfold State.settle
  dsimp only
  split
  · exact .ite h.landAll.dmaEnd h.landAll
  · exact h.landAll

theorem execDmaComplete_completes {f c n : Nat} : Completes t (execDmaComplete f c n t) := by
  unfold execDmaComplete
  refine onCore_completes ?_
  split
  · exact .self
  · split
    · exact .self
    · split
      · split
        · exact Walk.self.farIssue.settle
        · exact Walk.self.doCopy
      · exact .ite Walk.self.dmaOk .self
      · exact Walk.self.doBaleOut
      · exact .self
      · exact Walk.self.settle

theorem Core.Bounded.remoteDone {k : Core} (h : k.Bounded) {id st v : Nat} : (k.remoteDone id st v).Bounded := by
  unfold Core.remoteDone
  dsimp only
  split
  · exact h
  · have hk : { k with remotes := k.remotes.filter fun m => m.id != id }.Bounded :=
      h.of_le (Nat.le_refl _) (Nat.le_refl _) (List.length_filter_le ..)
    split
    · exact hk.setPair.setS
    · exact hk.setS

theorem Walk.remoteDone (h : Keeps s t) {f c id st v : Nat} : Keeps s (t.remoteDone f c id st v) :=
  .ite (h.modCore fun _ hk => hk.remoteDone).outcome h

theorem Walk.issueRemote (h : Keeps s t) {f c a : Nat} {m : Remote} {r : NiReq} : Keeps s (t.issueRemote f c a m r) := by
  unfold State.issueRemote
  dsimp only
  split
  · exact h
  · rename_i hroom
    have hk (n : Nat) (hk : (t.core f c).Bounded) : { t.core f c with remotes := (t.core f c).remotes ++ [m], nextId := n }.Bounded :=
      ⟨hk.1, hk.2.1, by simp only [List.length_append, List.length_singleton]; omega⟩
    have hissued := (h.setCore (hk ((t.core f c).nextId + 1))).advance (f := f) (c := c)
    exact .ite hissued.remoteDone hissued.niAsk

theorem execRatom_completes {f c : Nat} {w : Word64} : Completes t (execRatom f c w t) :=
  issue_completes Walk.self.issueRemote

theorem execRsig_completes {f c : Nat} {w : Word64} : Completes t (execRsig f c w t) :=
  issue_completes Walk.self.issueRemote

theorem Walk.restartBit (h : Keeps s t) {lo hi : Reg} {f c : Nat} : Keeps s (t.restartBit lo hi f c) :=
  .ite h.setCbit.modCore h

theorem execFlkCoreHaltWrite_completes {f c : Nat} : Completes t (execFlkCoreHaltWrite f c t) :=
  onCore_completes Walk.self.restartBit

theorem execFlkCoreDoneWrite_completes {f c : Nat} : Completes t (execFlkCoreDoneWrite f c t) :=
  onCore_completes Walk.self.restartBit

theorem Walk.forgetCore (h : Keeps s t) {f c : Nat} : Keeps s (t.forgetCore f c) := h.setNi.setFar

theorem Core.bounded_started {k : Core} {entry : Nat} : (k.started entry).Bounded :=
  ⟨Nat.zero_le _, Nat.zero_le _, Nat.zero_le _⟩

theorem execCoreRestart_completes {f c : Nat} : Completes t (execCoreRestart f c t) :=
  onCore_completes (.ite (Walk.self.forgetCore.modCore fun _ _ => Core.bounded_started) .self)

theorem Walk.putKJob (h : Keeps s t) {g : Nat} {j : KJob} : Keeps s (t.putKJob g j) := h.modGroup

theorem Walk.kilnPrep (h : Keeps s t) {u : StackReq} {l : List (Nat × List Byte)} : Keeps s (t.kilnPrep u l).1 := by
  induction l generalizing t u with
  | nil => exact h
  | cons x l ih => exact ih (.ite_fst h.prepParts h)

theorem Walk.kilnCommit (h : Keeps s t) {u : StackReq} {l : List (Nat × List Byte)} : Keeps s (t.kilnCommit u l).1 := by
  induction l generalizing t u with
  | nil => exact h
  | cons x l ih =>
    unfold State.kilnCommit
    generalize hy : (if memOf x.1 x.2.length = some .stacked then _ else _ : State × Nat) = y
    have hkeeps : Keeps s y.1 := by
      rw [← hy]
      split
      · exact h.commitUnit
      · exact h.tryWriteMem
    dsimp only
    split
    · exact ih hkeeps.mirrored
    · exact hkeeps.dropUnits

theorem Walk.kilnStore (h : Keeps s t) {u : StackReq} {ws : List (Nat × List Byte)} : Keeps s (t.kilnStore u ws).1 := by
  unfold State.kilnStore
  split
  · exact h.kilnPrep.of_eq ‹_›
  · exact (h.kilnPrep.of_eq ‹_›).dropUnits
  · exact (h.kilnPrep.of_eq ‹_›).kilnCommit

theorem Walk.kilnEccs (h : Keeps s t) {errs : Errs} {x1 : Nat} {l : List (Nat × Nat)} : Keeps s (t.kilnEccs errs x1 l) := by
  induction l generalizing t errs x1 with
  | nil => exact h
  | cons x l ih => exact ih (.ite h.eccs h)

theorem Walk.writeEnds (h : Keeps s t) {g : Nat} : Keeps s (t.writeEnds g) := h.foldl fun _ _ h => h.setKiln.writeEnd

theorem Walk.pendAbort (h : Keeps s t) {g seq : Nat} {ab : KAbort} {ahead : Bool} : Keeps s (t.pendAbort g seq ab ahead) :=
  h.modGroup

theorem Walk.abortGroup (h : Keeps s t) {c : Machine.Group} {ab : KAbort} : Keeps s (t.abortGroup c ab) := by
  unfold State.abortGroup
  split
  · exact h.abortKJob
  · exact h.pendAbort

theorem execCollectiveStart_completes {g : Nat} : Completes t (execCollectiveStart g t) := by
  unfold execCollectiveStart
  dsimp only
  refine inRange_completes ?_
  split
  · split
    · exact .ite .self Walk.self.abortKJob
    · exact .ite .self Walk.self.modGroup
  · exact .self

theorem Walk.startChunk (h : Keeps s t) {c : Machine.Group} {j : KJob} : Keeps s (t.startChunk c j) := by
  unfold State.startChunk
  dsimp only
  split
  · exact h.putKJob
  · exact .ite h h.putKJob

theorem execChunkStart_completes {g : Nat} : Completes t (execChunkStart g t) := by
  unfold execChunkStart
  refine inRange_completes ?_
  split
  · exact .ite Walk.self.startChunk .self
  · exact .self

theorem Walk.loadChunk (h : Keeps s t) {c : Machine.Group} {j : KJob} {k : KChunk} : Keeps s (t.loadChunk c j k) := by
  unfold State.loadChunk
  dsimp only
  split
  · exact h.kilnReads.of_eq ‹_›
  · exact .ite (h.kilnReads.of_eq ‹_›).abortKJob (h.kilnReads.of_eq ‹_›).putKJob

theorem Walk.countOverflow (h : Keeps s t) {g seq n : Nat} : Keeps s (t.countOverflow g seq n) :=
  .ite h h.addFld.setReg

theorem Walk.storeChunk (h : Keeps s t) {c : Machine.Group} {j : KJob} {k : KChunk} : Keeps s (t.storeChunk c j k) := by
  unfold State.storeChunk
  dsimp only
  split
  · exact h.kilnStore.of_eq ‹_›
  · exact .ite (h.kilnStore.of_eq ‹_›).abortKJob (h.kilnStore.of_eq ‹_›).countOverflow.putKJob

theorem execKilnMemoryComplete_completes {g chunk : Nat} {errs : Errs} : Completes t (execKilnMemoryComplete g chunk errs t) := by
  unfold execKilnMemoryComplete
  dsimp only
  refine inRange_completes ?_
  split
  · split
    · exact .self
    · exact .ite .self (.ite Walk.self.kilnEccs.loadChunk (.ite Walk.self.kilnEccs.storeChunk .self))
  · exact .self

theorem execCollectiveEnd_completes {g : Nat} : Completes t (execCollectiveEnd g t) := by
  unfold execCollectiveEnd
  dsimp only
  refine inRange_completes ?_
  split
  · exact .ite Walk.self.writeEnds.endKJob Walk.self.writeEnds
  · exact Walk.self.writeEnds

theorem Walk.sendContrib (h : Keeps s t) {c : Machine.Group} {slice : Nat} {j : KJob} {k : KChunk} :
    Keeps s (t.sendContrib c slice j k) := by
  unfold State.sendContrib
  dsimp only
  split
  · exact h
  · exact h.niAsk.putKJob.modGroup

theorem Walk.drr (h : Keeps s t) {slice : Nat} {gs : List Nat} {n : Nat} : Keeps s (t.drr slice gs n) := by
  induction n generalizing t slice gs with
  | zero => exact h
  | succ n ih =>
    unfold State.drr
    dsimp only
    split
    · split
      · refine .ite h.sendContrib (ih ?_)
        split
        · exact h.setKiln.modGroup
        · exact h.setKiln
      · refine ih ?_
        split
        · exact h.modGroup.setKiln.modGroup
        · exact h.modGroup.setKiln
    · refine ih ?_
      split
      · exact h.modGroup.setKiln.modGroup
      · exact h.modGroup.setKiln

theorem execKilnPacketInject_completes {slice : Nat} : Completes t (execKilnPacketInject slice t) := by
  unfold execKilnPacketInject
  dsimp only
  refine inRange_completes ?_
  split
  · exact .self
  · split
    · split
      · exact Walk.self.setKiln.niAsk
      · exact .self
    · exact .ite Walk.self.drr .self

theorem Walk.takeNotice (h : Keeps s t) {c : Machine.Group} {p : Packet} : Keeps s (t.takeNotice c p) := by
  unfold State.takeNotice
  dsimp only
  refine Walk.tell ?_
  split
  · exact h.abortGroup
  · split
    · exact h.abortKJob
    · exact h.pendAbort
  · exact h

theorem Walk.kilnAnswer (h : Keeps s t) {p : Packet} : Keeps s (t.kilnAnswer p).1 := by
  unfold State.kilnAnswer
  dsimp only
  split
  · exact h
  · split
    · exact h
    · split
      · exact h
      · split
        · exact h.takeNotice
        · split
          · exact .ite_fst h h.abortGroup
          · split
            · exact h.abortGroup
            · split
              · exact h.putKJob
              · exact h.abortGroup
              · exact h.incFld
          · exact h.incFld

theorem Walk.contribFinal (h : Keeps s t) {g seq peer st payload : Nat} {notice : Bool} :
    Keeps s (t.contribFinal g seq peer st payload notice) := by
  unfold State.contribFinal
  dsimp only
  split
  · exact h
  · split
    · exact .ite h h.abortKJob
    · exact h

theorem execKlnCtrlAbort_completes {v : Word64} : Completes t (execKlnCtrlAbort v t) :=
  .next Walk.self.abortOwn

theorem execKlnCtrlReset_completes {v : Word64} : Completes t (execKlnCtrlReset v t) := by
  unfold execKlnCtrlReset
  dsimp only
  refine .next ?_
  split
  · exact Walk.self.abortOwn
  · exact (Walk.self.abortOwn.foldl fun _ _ h => h.endAborted).modGroup

theorem execKilnStallExpiry_completes {g : Nat} : Completes t (execKilnStallExpiry g t) :=
  inRange_completes (.ite .self Walk.self.abortOwn)

theorem Walk.clearKiln (h : Keeps s t) : Keeps s (t.clearKiln) := h.dropUnits.setKiln

theorem Walk.submitBy (h : Keeps s t) {o : Origin} {x : KSub} : Keeps s (t.submitBy o x) :=
  .ite h.submit h.setKiln.answerSubs

theorem execKlnSubmit_completes {o : Origin} {v : Word64} : Completes t (execKlnSubmit o v t) :=
  .next Walk.self.submitBy

theorem execBucketSubmit_completes {o : Origin} {v : Word64} : Completes t (execBucketSubmit o v t) :=
  .next Walk.self.submitBy

theorem execRedeliverSubmit_completes {o : Origin} {v : Word64} : Completes t (execRedeliverSubmit o v t) :=
  .next Walk.self.submitBy

theorem execChannelRowAccept_completes {ch : Nat} : Completes t (execChannelRowAccept ch t) := by
  unfold execChannelRowAccept
  dsimp only
  refine inRange_completes ?_
  split
  · exact .self
  · split
    · exact .self
    · split
      · exact .self
      · split
        · exact .self
        · exact .ite .self (.ite Walk.self.modCore.abortOwn Walk.self.modCore.putKJob)

theorem Walk.completeChunk (h : Keeps s t) {c : Machine.Group} {j : KJob} {k : KChunk} : Keeps s (t.completeChunk c j k) := by
  unfold State.completeChunk
  dsimp only
  split
  · exact h.bump.kilnStore.of_eq ‹_›
  · exact .ite (h.bump.kilnStore.of_eq ‹_›).abortKJob (h.bump.kilnStore.of_eq ‹_›).countOverflow.putKJob

theorem execChunkComplete_completes {g chunk : Nat} : Completes t (execChunkComplete g chunk t) := by
  unfold execChunkComplete
  refine inRange_completes ?_
  split
  · split
    · exact .ite Walk.self.completeChunk .self
    · exact .self
  · exact .self

theorem execVerifyCompare_completes {g chunk : Nat} : Completes t (execVerifyCompare g chunk t) := by
  unfold execVerifyCompare
  dsimp only
  refine inRange_completes ?_
  split
  · split
    · split
      · exact .ite .self Walk.self.putKJob
      · exact .self
    · exact .self
  · exact .self

theorem execSealExchangeStart_completes {g : Nat} : Completes t (execSealExchangeStart g t) := by
  unfold execSealExchangeStart
  dsimp only
  refine inRange_completes ?_
  split
  · split
    · exact .self
    · split
      · exact .self
      · split
        · exact Walk.self.kilnReads.of_eq ‹_›
        · exact .ite (Walk.self.kilnReads.of_eq ‹_›).abortKJob (Walk.self.kilnReads.of_eq ‹_›).putKJob
  · exact .self

theorem execBucketSeal_completes {g : Nat} : Completes t (execBucketSeal g t) := by
  unfold execBucketSeal
  dsimp only
  refine inRange_completes ?_
  split
  · split
    · exact .ite .self Walk.self.endKJob
    · exact .self
  · exact .self

theorem Walk.putRedel (h : Keeps s t) {r : Redel} : Keeps s (t.putRedel r) := h.setKiln

theorem Walk.dropRedel (h : Keeps s t) {id : Nat} : Keeps s (t.dropRedel id) := h.setKiln

theorem Walk.rewrite (h : Keeps s t) {r : Redel} {bs : List Byte} : Keeps s (t.rewrite r bs).1 := by
  unfold State.rewrite
  dsimp only
  split
  · split
    · exact h.tryWriteBale.of_eq ‹_›
    · exact .ite_fst (h.tryWriteBale.of_eq ‹_›).putRedel (h.tryWriteBale.of_eq ‹_›).mirrored.incFld.putRedel
  · split
    · exact h.tryReadMem.of_eq ‹_›
    · split
      · exact (h.tryReadMem.of_eq ‹_›).putRedel
      · split
        · exact (h.tryReadMem.of_eq ‹_›).tryWriteBale.of_eq ‹_›
        · exact .ite_fst ((h.tryReadMem.of_eq ‹_›).tryWriteBale.of_eq ‹_›).putRedel ((h.tryReadMem.of_eq ‹_›).tryWriteBale.of_eq ‹_›).mirrored.incFld.putRedel

theorem Walk.askBale (h : Keeps s t) {c : Machine.Group} {r : Redel} : Keeps s (t.askBale c r) :=
  (h.foldl fun _ _ h => h.niAsk).putRedel

theorem Walk.redelStep (h : Keeps s t) {c : Machine.Group} {r : Redel} : Keeps s (t.redelStep c r).1 := by
  unfold State.redelStep
  dsimp only
  split
  · split
    · exact h.rewrite
    · exact h.putRedel
  · split
    · exact h.putRedel
    · split
      · exact h.askBale
      · split
        · exact h
        · split
          · exact h.putRedel
          · split
            · exact h.tryReadMem.of_eq ‹_›
            · exact .ite_fst (h.tryReadMem.of_eq ‹_›).putRedel (.ite_fst (h.tryReadMem.of_eq ‹_›).rewrite (h.tryReadMem.of_eq ‹_›).putRedel)

theorem Walk.endRedel (h : Keeps s t) {c : Machine.Group} {r : Redel} : Keeps s (t.endRedel c r) :=
  (Walk.ite h.kilnPut.kilnComplete h.kilnPut.kilnComplete.incFld).dropRedel

theorem Walk.redeliver (h : Keeps s t) {c : Machine.Group} {id : Nat} {n : Nat} : Keeps s (t.redeliver c id n) := by
  induction n generalizing t c id with
  | zero => exact h
  | succ n ih =>
    unfold State.redeliver
    split
    · exact h
    · split
      · exact h.endRedel
      · split
        · exact ih (h.redelStep.of_eq ‹_›)
        · exact h.redelStep.of_eq ‹_›

theorem execRedeliveryEnd_completes {n : Nat} : Completes t (execRedeliveryEnd n t) := by
  unfold execRedeliveryEnd
  refine .next ?_
  split
  · exact .self
  · split
    · exact Walk.self.dropRedel
    · exact Walk.self.redeliver

theorem Walk.redelPiece (h : Keeps s t) {id off st : Nat} {bs : List Byte} : Keeps s (t.redelPiece id off st bs) :=
  h.setKiln

theorem onJob_completes {f c n : Nat} {k : PeatJob → State → State} (hk : ∀ j, Keeps t (k j t)) : Completes t (onJob f c n t k) := by
  unfold onJob
  refine onCore_completes ?_
  split
  · exact .self
  · split
    · exact hk _
    · exact .self

theorem onPeatOp_completes {op f c n : Nat} {k : PeatJob → State → State} (hk : ∀ j, Keeps t (k j t)) :
    Completes t (onPeatOp op f c n t k) :=
  onJob_completes fun j => .ite (hk j) .self

theorem execPeatDescriptorAdmit_completes {f c n : Nat} : Completes t (execPeatDescriptorAdmit f c n t) := by
  unfold execPeatDescriptorAdmit
  dsimp only
  refine onCore_completes ?_
  split
  · exact .self
  · split
    · exact .self
    · split
      · exact Walk.self.peatLog.dmaFail
      · split
        · exact .self
        · split
          · exact .self
          · split
            · exact Walk.self.peatLog.dmaFail
            · exact Walk.self.setPeat

theorem execPeatRowRequest_completes {stack : Nat} : Completes t (execPeatRowRequest stack t) := by
  unfold execPeatRowRequest
  dsimp only
  refine inRange_completes ?_
  split
  · exact .self
  · exact .ite Walk.self.putJob.setServe Walk.self.putJob.setServe

theorem execPeatRowData_completes {stack : Nat} {errs : Errs} : Completes t (execPeatRowData stack errs t) := by
  unfold execPeatRowData
  refine inRange_completes ?_
  dsimp only
  split
  · exact .self
  · split
    · exact Walk.self.setServe
    · rename_i j _
      generalize (if pkKindling j.raw = true then pkStride j.raw else pkRowBytes j.raw) = n
      split
      · refine .ite Walk.self.eccs ?_
        split
        · exact Walk.self.eccs.tryRead.of_eq ‹_›
        · exact (Walk.self.eccs.tryRead.of_eq ‹_›).putJob.setServe
      · exact .ite Walk.self.eccs.putJob.setServe Walk.self.eccs.stkRefuse.putJob.setServe

theorem Walk.formLookup (h : Keeps s t) {j : PeatJob} : Keeps s (t.formLookup j) := by
  unfold State.formLookup
  dsimp only
  split
  · exact h
  · split <;> exact h.putJob

theorem execGather_completes {f c n : Nat} : Completes t (execGather f c n t) := by
  unfold execGather
  exact onPeatOp_completes (fun _ => Walk.self.formLookup)

theorem execSegsum_completes {f c n : Nat} : Completes t (execSegsum f c n t) := by
  unfold execSegsum
  exact onPeatOp_completes (fun _ => Walk.self.formLookup)

theorem execWpool_completes {f c n : Nat} : Completes t (execWpool f c n t) := by
  unfold execWpool
  exact onPeatOp_completes (fun _ => Walk.self.formLookup)

theorem Walk.readsReady (h : Keeps s t) {j : PeatJob} {reads : Bool} {l : List (Nat × Nat)} :
    Keeps s (t.readsReady j reads l).1 := by
  induction l generalizing t j reads with
  | nil => exact h
  | cons x l ih => exact ih h.unitRead

theorem Walk.readMany (h : Keeps s t) {j : PeatJob} {l : List (Nat × Nat)} : Keeps s (t.readMany j l).1 := by
  induction l generalizing t j with
  | nil => exact h
  | cons x l ih =>
    unfold State.readMany
    split
    · exact h.tryRead.of_eq ‹_›
    · exact .ite_fst (h.tryRead.of_eq ‹_›) (ih (h.tryRead.of_eq ‹_›))

theorem Walk.skipRow (h : Keeps s t) {a : Nat} : Keeps s (t.skipRow a) := h.incFld

theorem Walk.updateNext (h : Keeps s t) {j : PeatJob} : Keeps s (t.updateNext j) := by
  unfold State.updateNext
  dsimp only
  split
  · exact h
  · split
    · exact h.putJob
    · split
      · exact h.skipRow.putJob
      · split
        · exact h
        · split
          · exact h.readsReady.of_eq ‹_›
          · exact (h.readsReady.of_eq ‹_›).putJob
          · exact .ite (h.readsReady.of_eq ‹_›).readMany.putJob (h.readsReady.of_eq ‹_›).readMany.putJob.writeNext

theorem Walk.denseRead (h : Keeps s t) {j : PeatJob} {b tag : Nat} : Keeps s (t.denseRead j b tag).1 := by
  unfold State.denseRead
  dsimp only
  split
  · split
    · exact h.tryReadBale
    · split <;> exact h.tryReadBale.tryReadBale
  · exact h.tryReadBale
  · exact h.tryReadBale

theorem Walk.denseReads (h : Keeps s t) {j : PeatJob} {l : List (Nat × Nat)} : Keeps s (t.denseReads j l).1 := by
  induction l generalizing t j with
  | nil => exact h
  | cons x l ih => exact ih h.denseRead

theorem Walk.partReads (h : Keeps s t) {j : PeatJob} {l : List (Nat × Nat)} : Keeps s (t.partReads j l).1 := by
  induction l generalizing t j with
  | nil => exact h
  | cons x l ih => exact ih h.tryRead

theorem Walk.denseForm (h : Keeps s t) {j : PeatJob} {bales : List DenseBale} {parts : List (Nat × Nat × List Byte)} :
    Keeps s (t.denseForm j bales parts) :=
  (h.foldl fun _ _ h => h.skipRow).putJob.writeNext

theorem Walk.denseStart (h : Keeps s t) {j : PeatJob} : Keeps s (t.denseStart j) := by
  unfold State.denseStart
  dsimp only
  split
  · exact h
  · split
    · exact h
    · split
      · split
        · exact (h.readsReady.of_eq ‹_›).readsReady.of_eq ‹_›
        · exact ((h.readsReady.of_eq ‹_›).readsReady.of_eq ‹_›).denseReads.partReads.denseForm
      · exact h.readsReady.of_eq ‹_›
      · exact (h.readsReady.of_eq ‹_›).putJob

theorem execOptupd_completes {f c n : Nat} : Completes t (execOptupd f c n t) := by
  unfold execOptupd
  exact onPeatOp_completes (fun _ => .ite Walk.self.writeNext (.ite .self (.ite Walk.self.denseStart Walk.self.updateNext)))

theorem Walk.kindled (h : Keeps s t) {j : PeatJob} {i st : Nat} {res : List Byte} : Keeps s (t.kindled j i st res) :=
  (Walk.ite (Walk.ite h h.peatLog).wrStore (Walk.ite h h.peatLog).wrStore.wrStore).putJob

theorem Walk.kindle (h : Keeps s t) {j : PeatJob} {i : Nat} : Keeps s (t.kindle j i).1 := by
  unfold State.kindle
  dsimp only
  split
  · exact h
  · split
    · exact h.tryRead
    · split <;> exact h.tryWrite.of_eq ‹_›
    · exact h.tryRmw

theorem Walk.kindleAll (h : Keeps s t) {f : Nat} {c : Nat} {seq : Nat} {n : Nat} : Keeps s (t.kindleAll f c seq n) := by
  induction n generalizing t f c seq with
  | zero => exact h
  | succ n ih =>
    unfold State.kindleAll
    split
    · exact h
    · split
      · exact h
      · split
        · exact ih h.kindled
        · split
          · exact h
          · split
            · exact ih h.kindled
            · split
              · exact h.kindle.of_eq ‹_›
              · exact ih (h.kindle.of_eq ‹_›).kindled

theorem execKread_completes {f c n : Nat} : Completes t (execKread f c n t) := by
  unfold execKread
  exact onPeatOp_completes (fun _ => Walk.self.kindleAll)

theorem execKwrite_completes {f c n : Nat} : Completes t (execKwrite f c n t) := by
  unfold execKwrite
  exact onPeatOp_completes (fun _ => Walk.self.kindleAll)

theorem execKadd_completes {f c n : Nat} : Completes t (execKadd f c n t) := by
  unfold execKadd
  exact onPeatOp_completes (fun _ => Walk.self.kindleAll)

theorem execDeliveryBlock_completes {f c n : Nat} {damage : List (Nat × Byte)} : Completes t (execDeliveryBlock f c n damage t) := by
  unfold execDeliveryBlock
  exact onJob_completes (fun _ => .ite .self (.ite Walk.self.wrStore.putJob (.ite Walk.self.putJob Walk.self.putJob)))

theorem execPeatComplete_completes {f c n : Nat} : Completes t (execPeatComplete f c n t) := by
  unfold execPeatComplete
  dsimp only
  refine onJob_completes (fun _ => ?_)
  split
  · exact .self
  · exact .ite .self (Walk.ite Walk.self.dropJob Walk.self.dropJob.peatLog).dmaEnd

theorem execDmaTimeout_completes {f c n : Nat} : Completes t (execDmaTimeout f c n t) := by
  unfold execDmaTimeout
  refine onCore_completes ?_
  split
  · exact .self
  · exact .ite Walk.self.stopPeat.dmaFail .self

theorem Walk.readReg (h : Keeps s t) {r : Reg} {i j : Nat} : Keeps s (t.readReg r i j).1 := h.setReg

theorem Walk.ownerLog (h : Keeps s t) {o : Origin} {a st : Nat} : Keeps s (t.ownerLog o a st) := by
  unfold State.ownerLog
  split
  · exact .ite h.flkLog h
  · exact h.stkLog
  · exact h

theorem Walk.setShadow (h : Keeps s t) {x : Shadow} : Keeps s (t.setShadow x) := h.congr

theorem Walk.setShadowState (h : Keeps s t) {v : Nat} : Keeps s (t.setShadowState v) := h.setFld

theorem Walk.stepMark (h : Keeps s t) : Keeps s (t.stepMark) := h.setShadow.setRbit

theorem execStepMark_completes : Completes t (execStepMark t) := .next Walk.self.stepMark

theorem Walk.compareDigests (h : Keeps s t) : Keeps s (t.compareDigests) := by
  unfold State.compareDigests
  dsimp only
  refine h.foldl fun t x h => ?_
  split
  · exact h
  · exact .ite h.setShadow.incFld h.setShadow.setShadowState.event

theorem execDigestComplete_completes : Completes t (execDigestComplete t) :=
  .next (.ite .self (.ite Walk.self.setShadow.setFld.setFld.setRbit.outcome.setShadow.compareDigests Walk.self.setShadow.setFld.setFld.setRbit.outcome))

theorem Walk.shadowWrite (h : Keeps s t) {v : Nat} : Keeps s (t.shadowWrite v) :=
  .ite (.ite (Walk.ite h.stepMark h).setFld (.ite h.stepMark h)) (.ite (.ite (Walk.ite h.stepMark h).setReg.setShadow.setShadowState (.ite (Walk.ite h.stepMark h).setReg (Walk.ite h.stepMark h).setReg.setShadow.setShadowState)) (Walk.ite h.stepMark h).setReg.setShadowState)

theorem execShadowEnable_completes {v : Word64} : Completes t (execShadowEnable v t) :=
  .next Walk.self.shadowWrite

theorem execShadowDisable_completes {v : Word64} : Completes t (execShadowDisable v t) :=
  .next Walk.self.shadowWrite

theorem Walk.freeSlot (h : Keeps s t) {i : Nat} : Keeps s (t.freeSlot i) := h.setShadow

theorem Walk.endShadowed (h : Keeps s t) {r : NiReq} {st v : Nat} : Keeps s (t.endShadowed r st v) := by
  unfold State.endShadowed
  dsimp only
  split
  · exact h.remoteDone
  · exact h.modDma
  · exact h.modDma
  · exact h

theorem Walk.matchSlot (h : Keeps s t) {i : Nat} : Keeps s (t.matchSlot i) := by
  unfold State.matchSlot
  dsimp only
  split
  · exact h.freeSlot
  · split
    · exact (Walk.ite h.setNi.niLog h.setNi).endShadowed.freeSlot
    · exact .ite h.freeSlot h

theorem Walk.matchSlots (h : Keeps s t) : Keeps s (t.matchSlots) := .ite (h.foldl fun _ _ h => h.matchSlot) h

theorem Walk.takeOutcome (h : Keeps s t) {i : Nat} : Keeps s (t.takeOutcome i) :=
  .ite h.setShadow.compareDigests h.setShadow.matchSlot

theorem stackReq_completes {r : StackReq} {align : Nat} {bytesOk : Bool} {acc : StkAcc} :
    Completes t (stackReq r align bytesOk t acc) :=
  .ite (.next Walk.self.arrive) (.next .self)

theorem execStackWholeBaleRead_completes {r : StackReq} {errs : Errs} : Completes t (execStackWholeBaleRead r errs t) :=
  stackReq_completes

theorem execStackTaggedWrite_completes {r : StackReq} {data : List Byte} {tag crc : Word32} :
    Completes t (execStackTaggedWrite r data tag crc t) :=
  stackReq_completes

theorem execStackUntaggedWrite_completes {r : StackReq} {data : List Byte} : Completes t (execStackUntaggedWrite r data t) :=
  stackReq_completes

theorem execStackSectorRead_completes {r : StackReq} {ecc : Ecc} : Completes t (execStackSectorRead r ecc t) :=
  stackReq_completes

theorem execStackSectorWrite_completes {r : StackReq} {mask : BitVec 32} {data : List Byte} {ecc : Ecc} :
    Completes t (execStackSectorWrite r mask data ecc t) :=
  stackReq_completes

theorem execRefresh_completes {stack subBank : Nat} : Completes t (execRefresh stack subBank t) :=
  inRange_completes (.ite Walk.self.modStk .self)

theorem Walk.scrubBack (h : Keeps s t) {i q k : Nat} : Keeps s (t.scrubBack i q k) := h.corrected.arrive

theorem Walk.scrubBad (h : Keeps s t) {i q k : Nat} : Keeps s (t.scrubBad i q k) := h.uncorrected

theorem execScrub_completes {stack q : Nat} {errs : Errs} : Completes t (execScrub stack q errs t) :=
  inRange_completes (.ite ((Walk.self.eccs.foldl fun _ _ h => h.scrubBad).foldl fun _ _ h => h.scrubBack) .self)

theorem Walk.stackUp (h : Keeps s t) {i : Nat} : Keeps s (t.stackUp i) :=
  .ite h.setRbit.setRbit.setRbit h.setRbit.setRbit

theorem execZeroFill_completes {stack : Nat} : Completes t (execZeroFill stack t) :=
  inRange_completes (.ite Walk.self.clearStack.modStk.stackUp .self)

theorem execWipe_completes {stack : Nat} : Completes t (execWipe stack t) :=
  inRange_completes (.ite Walk.self.setRbit (.ite .self Walk.self.setRbit.modStk.refuseAll))

theorem execWipeComplete_completes {stack : Nat} : Completes t (execWipeComplete stack t) :=
  inRange_completes (.ite Walk.self.clearStack.modStk.setRbit .self)

theorem execHeldWriteExpiry_completes {stack n : Nat} : Completes t (execHeldWriteExpiry stack n t) := by
  unfold execHeldWriteExpiry
  dsimp only
  refine inRange_completes ?_
  split
  · exact .self
  · exact .ite .self (.ite Walk.self.stkLog.modStk.modStk Walk.self.stkLog.modStk.answer)

theorem Walk.hostFail (h : Keeps s t) {x st : Nat} {write : Bool} : Keeps s (t.hostFail x st write) :=
  .ite h.cxlLog.emit.emit h.cxlLog.emit.emit

theorem Walk.hostReq (h : Keeps s t) {x : Nat} {acc : StkAcc} : Keeps s (t.hostReq x acc) :=
  .ite h.hostFail (.ite h.hostFail h.arrive)

theorem execCxlMemRead_completes {x : Nat} {grant : Bool} {errs : Errs} : Completes t (execCxlMemRead x grant errs t) :=
  .ite (.next .self) (.next (.ite Walk.self.hostReq .self))

theorem execCxlMemWrite_completes {x : Nat} {mask : Word64} {data : List Byte} {poison : Bool} {errs : Errs} :
    Completes t (execCxlMemWrite x mask data poison errs t) :=
  .ite (.next .self) (.next (.ite .self (.ite Walk.self.hostFail Walk.self.hostReq)))

theorem Walk.untrack (h : Keeps s t) {line : Nat} : Keeps s (t.untrack line) := h.congr

theorem Walk.setRx (h : Keeps s t) {src : Nat} {r : RxRec} : Keeps s (t.setRx src r) := h.setNi

theorem Walk.takeAck (h : Keeps s t) {p : Packet} : Keeps s (t.takeAck p) := .ite h.setRx.setNi h

theorem Walk.takeReplay (h : Keeps s t) {src seq share : Nat} {pool : Bool} : Keeps s (t.takeReplay src seq share pool) :=
  h.setNi.setFld

theorem Walk.freeReplay (h : Keeps s t) {src seq : Nat} : Keeps s (t.freeReplay src seq) := h.setNi

theorem Walk.storeReplay (h : Keeps s t) {src seq st v : Nat} : Keeps s (t.storeReplay src seq st v) := h.setNi

theorem Walk.pktFail (h : Keeps s t) {a st : Nat} {data : List Byte} : Keeps s (t.pktFail a st data).1 := by
  unfold State.pktFail
  split
  · exact h.flkLog
  · exact h.flkLog
  · exact h

theorem Walk.pktWrite (h : Keeps s t) {again : Bool} {p : Packet} : Keeps s (t.pktWrite again p).1 := by
  unfold State.pktWrite
  dsimp only
  split
  · exact h.pktFail
  · split
    · exact h
    · split
      · exact h
      · split
        · exact h.writeSector
        · split
          · exact h.tryWriteMem.of_eq ‹_›
          · exact .ite (h.tryWriteMem.of_eq ‹_›).mirrored (h.tryWriteMem.of_eq ‹_›)

theorem Walk.addSharer (h : Keeps s t) {a src : Nat} : Keeps s (t.addSharer a src) := by
  unfold State.addSharer
  split
  · exact h
  · split
    · exact h
    · split
      · exact h
      · split
        · exact h.setLine
        · exact h.setLine
        · exact h

theorem Walk.pktRead (h : Keeps s t) {again : Bool} {p : Packet} : Keeps s (t.pktRead again p).1 := by
  unfold State.pktRead
  dsimp only
  split
  · exact h.pktFail
  · split
    · exact h
    · split
      · exact h.dropUnits
      · split
        · exact h.tryReadMem.of_eq ‹_›
        · exact .ite_fst (h.tryReadMem.of_eq ‹_›) (.ite (h.tryReadMem.of_eq ‹_›).addSharer (h.tryReadMem.of_eq ‹_›))

theorem Walk.pktAtomic (h : Keeps s t) {again : Bool} {p : Packet} : Keeps s (t.pktAtomic again p).1 := by
  unfold State.pktAtomic
  dsimp only
  split
  · exact h.pktFail
  · split
    · exact h.pktFail
    · split
      · exact h.pktFail
      · split
        · split
          · exact h
          · split
            · exact h
            · split
              · exact h.tryRmw.of_eq ‹_›
              · exact .ite_fst (h.tryRmw.of_eq ‹_›).mirrored (h.tryRmw.of_eq ‹_›)
        · split
          · exact h.tryReadMem.tryWriteMem.mirrored
          · exact h.tryReadMem
          · exact h.tryReadMem

theorem Walk.pktSignal (h : Keeps s t) {p : Packet} : Keeps s (t.pktSignal p).1 := by
  unfold State.pktSignal
  dsimp only
  split
  · exact h.pktFail
  · split
    · exact h.pktFail
    · exact .ite_fst h.resetLog (.ite_fst h.addSignal.mirrored h.addSignal.flkLog)

theorem Walk.pktRegFail (h : Keeps s t) {a st : Nat} : Keeps s (t.pktRegFail a st).1 := h.ownerLog

theorem Walk.pktSubmit (h : Keeps s t) {x : KSub} : Keeps s (t.pktSubmit x).1 := by
  unfold State.pktSubmit
  split
  · exact h
  · split <;> exact h.submit.of_eq ‹_›

theorem Walk.pktRegWrite (h : Keeps s t) {p : Packet} : Keeps s (t.pktRegWrite p).1 := by
  unfold State.pktRegWrite
  dsimp only
  split
  · exact h.pktRegFail
  · split
    · exact h.pktRegFail
    · split
      · exact h.pktSubmit
      · exact h.pktSubmit
      · exact .ite h.stepMark h
      · exact h.pktRegFail

theorem Walk.pktRegRead (h : Keeps s t) {p : Packet} : Keeps s (t.pktRegRead p).1 := by
  unfold State.pktRegRead
  split
  · exact h.pktRegFail
  · exact h.readReg

theorem Walk.pktWriteOp (h : Keeps s t) {again : Bool} {p : Packet} : Keeps s (t.pktWriteOp again p).1 := by
  unfold State.pktWriteOp
  split
  · split
    · split
      · exact h
      · split
        · exact (h.pktWrite.of_eq ‹_›).takeOutcome
        · exact h.pktWrite
    · exact h.pktWrite
  · exact h.pktRegWrite
  · exact h.pktFail

theorem Walk.pktReadOp (h : Keeps s t) {again : Bool} {p : Packet} : Keeps s (t.pktReadOp again p).1 := by
  unfold State.pktReadOp
  split
  · exact h.pktRead
  · exact .ite_fst h.pktRead h.pktFail
  · exact h.pktRegRead
  · exact h.pktFail

theorem Walk.pktInvalidate (h : Keeps s t) {line : Nat} : Keeps s (t.pktInvalidate line) := by
  unfold State.pktInvalidate
  split
  · exact h.setLine
  · exact h.setLine
  · exact h

theorem Walk.perform (h : Keeps s t) {again : Bool} {p : Packet} : Keeps s (t.perform again p).1 := by
  unfold State.perform
  dsimp only
  split
  · exact h
  · split
    · exact h
    · split
      · exact h.pktWriteOp
      · exact h.pktReadOp
      · exact h.pktAtomic
      · exact h.pktSignal
      · exact h.pktInvalidate
      · exact .ite_fst h.kilnAnswer h.kilnAnswer

theorem Walk.respond (h : Keeps s t) {p : Packet} {st : Nat} {data : List Byte} : Keeps s (t.respond p st data) :=
  .ite h h.inject

theorem Walk.logSent (h : Keeps s t) {p : Packet} {st : Nat} : Keeps s (t.logSent p st) := .ite h h.niLog

theorem Walk.finishPkt (h : Keeps s t) {p : Packet} {st : Nat} {data : List Byte} : Keeps s (t.finishPkt p st data) :=
  h.setRx.storeReplay.logSent.respond

theorem Walk.deferPkt (h : Keeps s t) {p : Packet} : Keeps s (t.deferPkt p) := h.setRx.freeReplay.respond

theorem Walk.answerDup (h : Keeps s t) {p : Packet} {st : Nat} {data : List Byte} : Keeps s (t.answerDup p st data) :=
  h.logSent.respond

theorem Walk.runPkt (h : Keeps s t) {share : Nat} {dup : Bool} {p : Packet} : Keeps s (t.runPkt share dup p) := by
  unfold State.runPkt
  dsimp only
  split
  · exact .ite (h.perform.of_eq ‹_›).answerDup (h.perform.of_eq ‹_›).finishPkt
  · exact .ite (h.perform.of_eq ‹_›).answerDup (h.perform.of_eq ‹_›).deferPkt
  · exact .ite (.ite (h.perform.of_eq ‹_›).dropUnits.answerDup (h.perform.of_eq ‹_›).dropUnits.deferPkt) (Keeps.setNi (h.perform.of_eq ‹_›))

theorem Walk.retryProc (h : Keeps s t) : Keeps s (t.retryProc) := by
  unfold State.retryProc
  dsimp only
  refine h.foldl fun t x h => ?_
  split
  · exact h.perform.of_eq ‹_›
  · exact .ite (Keeps.setNi (h.perform.of_eq ‹_›)) (.ite (Keeps.setNi (h.perform.of_eq ‹_›)).answerDup (Keeps.setNi (h.perform.of_eq ‹_›)).deferPkt)
  · exact .ite (Keeps.setNi (h.perform.of_eq ‹_›)) (.ite (Keeps.setNi (h.perform.of_eq ‹_›)).answerDup (Keeps.setNi (h.perform.of_eq ‹_›)).finishPkt)

theorem Walk.serveWaiting (h : Keeps s t) : Keeps s (t.serveWaiting) := h.serveAll.retryProc.answerSubs

theorem Walk.takeNew (h : Keeps s t) {p : Packet} : Keeps s (t.takeNew p) := by
  unfold State.takeNew
  dsimp only
  split
  · exact h.incFld.setRx.respond
  · split
    · split
      · exact h.setRx.respond
      · exact (Walk.ite h.setRx h.setRx.takeReplay).setNi
    · exact (Walk.ite h.setRx h.setRx.takeReplay).takeAck.runPkt

theorem Walk.answerAgain (h : Keeps s t) {p : Packet} : Keeps s (t.answerAgain p) := by
  unfold State.answerAgain
  split
  · exact h.runPkt
  · split
    · exact h.logSent.respond
    · exact h.incFld

theorem Walk.classifyPkt (h : Keeps s t) {p : Packet} : Keeps s (t.classifyPkt p) := by
  unfold State.classifyPkt
  split
  · exact h.takeNew.takeAck
  · exact h.incFld.takeAck
  · exact h.answerAgain.takeAck
  · exact h.incFld.takeAck
  · exact h.logSent.respond

theorem Walk.takeEject (h : Keeps s t) {p : Packet} : Keeps s (t.takeEject p) := h.setQueue

theorem Walk.arrivePkt (h : Keeps s t) {p : Packet} : Keeps s (t.arrivePkt p) :=
  .ite h (.ite h.takeEject (.ite h (.ite h.takeEject.incFld (.ite (.ite h.takeEject.logSent h.takeEject.logSent.inject) (.ite h.takeEject h.takeEject.classifyPkt.retryProc)))))

theorem Walk.arriveOdd (h : Keeps s t) {p : Packet} : Keeps s (t.arriveOdd p) :=
  .ite h (.ite h.takeEject (.ite h.takeEject.incFld h.takeEject.niLog))

theorem onPacket_completes {op : Nat} {p : Packet} {k : State → State} (hk : Keeps t (k t)) : Completes t (onPacket op p t k) :=
  .next (.ite .self (.ite hk (.ite .self Walk.self.arriveOdd)))

theorem execWrite_completes {p : Packet} : Completes t (execWrite p t) := onPacket_completes Walk.self.arrivePkt

theorem execRead_completes {p : Packet} : Completes t (execRead p t) := onPacket_completes Walk.self.arrivePkt

theorem execAtomic_completes {p : Packet} : Completes t (execAtomic p t) := onPacket_completes Walk.self.arrivePkt

theorem execSignal_completes {p : Packet} : Completes t (execSignal p t) := onPacket_completes Walk.self.arrivePkt

theorem execCohFwd_completes {p : Packet} : Completes t (execCohFwd p t) := onPacket_completes Walk.self.arrivePkt

theorem execContrib_completes {p : Packet} : Completes t (execContrib p t) := onPacket_completes Walk.self.arrivePkt

theorem Walk.releaseFlags (h : Keeps s t) {src : Nat} {n : Nat} : Keeps s (t.releaseFlags src n) := by
  induction n generalizing t src with
  | zero => exact h
  | succ n ih =>
    unfold State.releaseFlags
    dsimp only
    split
    · exact h
    · exact .ite h (ih h.setNi.runPkt)

theorem execFlagHoldRelease_completes {src : Nat} : Completes t (execFlagHoldRelease src t) :=
  .next Walk.self.releaseFlags

theorem Walk.fillDone (h : Keeps s t) {line st : Nat} {bs : List Byte} : Keeps s (t.fillDone line st bs) := by
  unfold State.fillDone
  dsimp only
  split
  · exact .ite h.bring.setLine.arrive h.bring.setLine
  · exact h.bring.setLine
  · exact h

theorem Walk.unshare (h : Keeps s t) {line member : Nat} : Keeps s (t.unshare line member) := by
  unfold State.unshare
  split
  · exact h.setLine
  · exact h

theorem Walk.completeOwner (h : Keeps s t) {o : TagOwner} {dest st : Nat} {bs : List Byte} :
    Keeps s (t.completeOwner o dest st bs) := by
  unfold State.completeOwner
  split
  · exact h.remoteDone
  · exact h.modDma
  · exact h.modDma
  · exact h.fillDone.serveAll
  · exact h.setCohw.serveAll
  · next line m =>
    have hs : Keeps s (if st = stTimeout then (t.unshare line m).niFatalEvent 3 dest else t) := .ite h.unshare.niFatalEvent h
    refine .ite hs ?_
    split
    · exact hs.setLine.serveAll
    · exact hs
  · exact h.contribFinal
  · exact h.redelPiece
  · exact h
  · exact h
  · exact h.incFld

theorem Walk.retireAs (h : Keeps s t) {t' : Tag} {logged st : Nat} {bs : List Byte} : Keeps s (t.retireAs t' logged st bs) :=
  (Walk.ite h.dropTag h.dropTag.niLog).completeOwner

theorem Walk.retireTag (h : Keeps s t) {t' : Tag} {st : Nat} {bs : List Byte} : Keeps s (t.retireTag t' st bs) :=
  h.retireAs

theorem Walk.sendNext (h : Keeps s t) {share : Nat} : Keeps s (t.sendNext share) := by
  unfold State.sendNext
  dsimp only
  split
  · exact h.matchSlots.sendFirst.of_eq ‹_›
  · exact (h.matchSlots.sendFirst.of_eq ‹_›).completeOwner

theorem Walk.resend (h : Keeps s t) {t' : Tag} : Keeps s (t.resend t') := by
  unfold State.resend
  split
  · exact h
  · split
    · exact h.payload.of_eq ‹_›
    · exact .ite (h.payload.of_eq ‹_›).setTag (h.payload.of_eq ‹_›).setTag.incFld.inject

theorem Walk.resendExpiry (h : Keeps s t) {tag : Nat} : Keeps s (t.resendExpiry tag) := by
  unfold State.resendExpiry
  split
  · exact h
  · exact .ite h (.ite h.niFatalEvent.retireTag h.resend)

theorem Walk.backoffExpiry (h : Keeps s t) {tag : Nat} : Keeps s (t.backoffExpiry tag) := by
  unfold State.backoffExpiry
  split
  · exact h
  · exact .ite h.resend h

theorem Walk.tagDeadline (h : Keeps s t) {tag : Nat} : Keeps s (t.tagDeadline tag) := by
  unfold State.tagDeadline
  split
  · exact h
  · exact h.retireTag

theorem Walk.takeResponse (h : Keeps s t) {p : Packet} : Keeps s (t.takeResponse p) := by
  unfold State.takeResponse
  split
  · exact h.incFld
  · exact .ite h.incFld (.ite h.retireAs (.ite h.niLog (.ite h.setTag h.retireTag)))

theorem Walk.arriveRsp (h : Keeps s t) {p : Packet} {take : State → State} (hk : ∀ u, Keeps s u → Keeps s (take u)) :
    Keeps s (t.arriveRsp p take) := by
  unfold State.arriveRsp
  exact .ite h (.ite h.takeEject (.ite h.takeEject.incFld (.ite h.takeEject.niLog (.ite h.takeEject.niLog (hk _ h.takeEject.takeAck)))))

theorem execAck_completes {p : Packet} : Completes t (execAck p t) := onPacket_completes (Walk.self.arriveRsp fun _ h => h)

theorem execAckTimerExpiry_completes {dst : Nat} : Completes t (execAckTimerExpiry dst t) :=
  .next (.ite .self Walk.self.inject)

theorem Walk.retireAllTo (h : Keeps s t) {device : Nat} : Keeps s (t.retireAllTo device) :=
  h.foldl fun _ _ h => h.retireTag

theorem Walk.dropHeldFrom (h : Keeps s t) {device : Nat} : Keeps s (t.dropHeldFrom device) := h.setNi

theorem Walk.orphan (h : Keeps s t) {device : Nat} : Keeps s (t.orphan device) := h.setNi

theorem Walk.pairReset (h : Keeps s t) {v : Nat} : Keeps s (t.pairReset v) := h.retireAllTo.dropHeldFrom.orphan.setNi

theorem Walk.dropSharer (h : Keeps s t) {device : Nat} : Keeps s (t.dropSharer device) := h.setNi

theorem Walk.niDead (h : Keeps s t) {device : Nat} : Keeps s (t.niDead device) :=
  h.setNi.niFatalEvent.retireAllTo.dropHeldFrom.orphan.setNi.dropSharer

theorem Walk.sendFlits (h : Keeps s t) {q : Nat} {bs : List Byte} : Keeps s (t.sendFlits q bs) :=
  h.modPort.foldl fun _ _ h => (Walk.ite h.sendDue h).sendFlitWord

theorem Walk.sendPacket (h : Keeps s t) {q : Nat} {p : Packet} : Keeps s (t.sendPacket q p) := h.sendFlits

theorem Walk.spend (h : Keeps s t) {q : Nat} {esc : Bool} {cls : Nat} : Keeps s (t.spend q esc cls) := h.setRtr

theorem Walk.freed (h : Keeps s t) {q : Nat} {esc : Bool} {cls : Nat} : Keeps s (t.freed q esc cls) := h.setRtr

theorem Walk.discard (h : Keeps s t) {slice cause port : Nat} {mesh inject : Bool} {p : Packet} :
    Keeps s (t.discard slice cause port mesh inject p) := by
  unfold State.discard
  dsimp only
  refine Keeps.log ?_
  split <;> exact h.incFld

theorem Walk.enterSlice (h : Keeps s t) {slice port : Nat} {mesh : Bool} {q cap : Nat} {p : Packet} {poisoned : Bool} :
    Keeps s (t.enterSlice slice port mesh q cap p poisoned).1 := by
  unfold State.enterSlice
  refine .ite_fst (h.discard (cause := 1)) (.ite_fst (h.discard (cause := 2)) (.ite_fst (h.discard (cause := 3)) ?_))
  exact .ite_fst h.pushQueue h

theorem Walk.portArrival (h : Keeps s t) {q : Nat} {p : Packet} {poisoned : Bool} : Keeps s (t.portArrival q p poisoned) := by
  unfold State.portArrival
  exact .ite h (.ite h.discard (.ite h.enterSlice.freed h.enterSlice))

theorem Walk.meshArrival (h : Keeps s t) {slice dir : Nat} {p : Packet} {poisoned : Bool} :
    Keeps s (t.meshArrival slice dir p poisoned) := by
  unfold State.meshArrival
  exact .ite h.enterSlice h

theorem execRouterPacketArrival_completes {slice port : Nat} {mesh : Bool} {p : Packet} {poisoned : Bool} :
    Completes t (execRouterPacketArrival slice port mesh p poisoned t) :=
  .next (.ite .self (.ite (.ite .self Walk.self.meshArrival) (.ite .self Walk.self.portArrival)))

theorem Walk.popQueue (h : Keeps s t) {slice n : Nat} {k : QKind} : Keeps s (t.popQueue slice n k) := by
  unfold State.popQueue
  dsimp only
  split
  · exact h.setQueue.freed
  · exact h.setQueue

theorem Walk.sendPort (h : Keeps s t) {q : Nat} {p : Packet} : Keeps s (t.sendPort q p) := h.spend.sendPacket

theorem Walk.turned (h : Keeps s t) {slice output : Nat} {r : Rival} : Keeps s (t.turned slice output r) := h.setRtr

theorem Walk.moveTo (h : Keeps s t) {slice q : Nat} {p : Packet} {ring : Option Nat} {entering : Bool}
    (hu : t.moveTo slice q p ring entering = some u) : Keeps s u := by
  unfold State.moveTo at hu
  simp only [ite_eq_iff, Option.some.injEq, reduceCtorEq, and_false, or_false] at hu
  obtain ⟨-, -, rfl⟩ | ⟨-, -, rfl⟩ := hu
  · exact h.sendPort
  · exact h.enterSlice

theorem Walk.escape (h : Keeps s t) {slice : Nat} {p : Packet} {r : Route} {came : Option Nat}
    (hu : t.escape slice p r came = some u) : Keeps s u := by
  obtain ⟨v, hmove, rfl⟩ := Option.map_eq_some_iff.mp hu
  exact .ite (h.moveTo hmove).incFld (h.moveTo hmove)

/-- What can become of the head of a queue keeps all this. -/
def Onward.Fine (s : State) : Onward → Prop
  | .stays => True
  | .drops t => Keeps s t
  | .leaves _ t => Keeps s t

theorem Onward.fine_ite {c : Prop} [Decidable c] {x y : Onward} (hx : x.Fine s) (hy : y.Fine s) : (if c then x else y).Fine s := by
  split
  · exact hx
  · exact hy

theorem Walk.onward (h : Keeps s t) {slice n : Nat} {k : QKind} {p : Packet} : (t.onward slice n k p).Fine s := by
  have hpop : Keeps s (t.popQueue slice n k) := h.popQueue
  unfold State.onward
  dsimp only
  refine Onward.fine_ite hpop.discard (Onward.fine_ite (Onward.fine_ite hpop.pushQueue trivial) ?_)
  split
  · exact hpop.discard
  · refine Onward.fine_ite hpop.discard (Onward.fine_ite ?_ ?_)
    · split
      · exact hpop.escape ‹_›
      · trivial
    · split
      · split
        · exact hpop.moveTo ‹_›
        · trivial
      · split
        · exact hpop.escape ‹_›
        · trivial

theorem execPacketForward_completes {slice queue : Nat} : Completes t (execPacketForward slice queue t) := by
  unfold execPacketForward
  split
  · exact .next .self
  · refine inRange_completes (.ite .self ?_)
    split
    · exact .self
    · next k _ _ p _ _ =>
      have hgo : (t.onward slice queue k p).Fine t := Walk.self.onward
      revert hgo
      cases t.onward slice queue k p with
      | stays => exact fun _ => .self
      | drops u => exact id
      | leaves o u => exact fun hgo => .ite (Walk.turned hgo) .self

theorem Walk.setMuster (h : Keeps s t) {m : Muster} : Keeps s (t.setMuster m) := h.others

theorem Walk.musterEvent (h : Keeps s t) {kind subject detail : Nat} : Keeps s (t.musterEvent kind subject detail) :=
  h.event

theorem Walk.sendFrame (h : Keeps s t) {q : Nat} {es : List MusterEntry} : Keeps s (t.sendFrame q es) :=
  h.setMuster.sendControl

theorem Walk.sendFrames (h : Keeps s t) {q : Nat} {es : List MusterEntry} : Keeps s (t.sendFrames q es) :=
  h.foldl fun _ _ h => h.sendFrame

theorem Walk.spread (h : Keeps s t) {e : MusterEntry} {but : Option Nat} : Keeps s (t.spread e but) :=
  h.foldl fun _ _ h => .ite h.sendFrames h

theorem execMusterPeriodicFrame_completes {port : Nat} : Completes t (execMusterPeriodicFrame port t) :=
  inRange_completes (.ite Walk.self.sendFrames .self)

theorem Walk.learnDead (h : Keeps s t) {x kind : Nat} {e : MusterEntry} {but : Option Nat} :
    Keeps s (t.learnDead x kind e but) :=
  .ite h h.setMuster.niDead.kilnDead.serveWaiting.incFld.setFld.musterEvent.spread

theorem Walk.declareDead (h : Keeps s t) {x : Nat} : Keeps s (t.declareDead x) := h.bump.learnDead

theorem Walk.fence (h : Keeps s t) {cause kind detail : Nat} : Keeps s (t.fence cause kind detail) :=
  .ite h h.setFld.musterEvent

theorem Walk.weigh (h : Keeps s t) {x : Nat} : Keeps s (t.weigh x) :=
  .ite h.setMuster (.ite (.ite h h.declareDead) (.ite h h.setMuster.musterEvent))

theorem Walk.review (h : Keeps s t) : Keeps s (t.review) :=
  (h.setMuster.foldl fun _ _ h => h.weigh).foldl fun _ _ h => .ite h h.setMuster.incFld.musterEvent.spread.weigh

theorem execMusterSilenceExpiry_completes {port : Nat} : Completes t (execMusterSilenceExpiry port t) :=
  inRange_completes (.ite .self Walk.self.setMuster.review)

theorem execVoteExpiry_completes {subject reporter : Nat} : Completes t (execVoteExpiry subject reporter t) :=
  .next Walk.self.setMuster.weigh

theorem Walk.learn (h : Keeps s t) {q sender : Nat} : Keeps s (t.learn q sender) := h.setMuster.review

theorem Walk.takeEntry (h : Keeps s t) {q : Nat} {own : Bool} {e : MusterEntry} : Keeps s (t.takeEntry q own e) := by
  unfold State.takeEntry
  dsimp only
  split
  · exact (Walk.ite (Walk.ite h h.setMuster).spread (.ite h h.setMuster)).weigh
  · exact .ite h (.ite h.fence h.learnDead)
  · exact h

theorem Walk.takeFrame (h : Keeps s t) {q sender : Nat} {f : MusterFrame} : Keeps s (t.takeFrame q sender f) :=
  .ite h ((Walk.ite h.learn h).foldl fun _ _ h => h.takeEntry)

theorem execDrvDeclare_completes {v : Word32} : Completes t (execDrvDeclare v t) :=
  .next (.ite Walk.self.fence Walk.self.declareDead)

theorem execStateArrayError_completes : Completes t (execStateArrayError t) :=
  .next Walk.self.fence.declareDead

theorem execEventPop_completes : Completes t (execEventPop t) :=
  .next (Walk.self.withEvt fun hl => (List.length_drop ▸ Nat.sub_le _ _ : (t.evt.drop 1).length ≤ t.evt.length).trans hl)

theorem execDrvRetire_completes {v : Word32} : Completes t (execDrvRetire v t) :=
  .next (.ite Walk.self.retire .self)

theorem execSpareSelfTest_completes {f phys : Nat} {passed : Bool} : Completes t (execSpareSelfTest f phys passed t) := by
  unfold execSpareSelfTest
  exact inRange_completes (.ite .self Walk.self.retire)

theorem Walk.setSlot (h : Keeps s t) {q : Nat} {rx : Bool} {j k : Nat} : Keeps s (t.setSlot q rx j k) := h.setLane

theorem Walk.offerCredits (h : Keeps s t) {q : Nat} : Keeps s (t.offerCredits q) := h.setRtr

theorem Walk.goodWl (h : Keeps s t) {q : Nat} {rx : Bool} {k : Nat} : Keeps s (t.goodWl q rx k) := by
  unfold State.goodWl
  dsimp only
  split
  · exact h.setHealth
  · split
    · exact .ite h.setHealth.askSwap h.setHealth
    · exact .ite h.setHealth.setSpare h.setHealth

theorem Walk.switchRx (h : Keeps s t) {q : Nat} {x : Swap} : Keeps s (t.switchRx q x) := by
  unfold State.switchRx
  dsimp only
  split
  · exact .ite h.modPort.setSlot.setSpare.setSpareFor h.modPort.setSlot.modPort
  · split
    · exact h.modPort.setSlot.setSpareFor.modPort.dropLane
    · split
      · exact h.modPort.setSlot.setSpareFor.modPort
      · exact h.modPort.setSlot.setSpareFor.modPort.modPort.claimSpare

theorem execSwapSwitch_completes {port : Nat} {rx : Bool} : Completes t (execSwapSwitch port rx t) := by
  unfold execSwapSwitch
  dsimp only
  refine inRange_completes ?_
  split
  · exact .self
  · split
    · split
      · exact .self
      · exact .ite Walk.self.switchRx Walk.self.modPort.askSwap
    · split
      · exact .self
      · exact .ite Walk.self.modPort.setSlot.setSpare.setSpareFor Walk.self.modPort.setSlot.setSpareFor

theorem execSwapReq_completes {port : Nat} {rx : Bool} {slot wavelength boundary : Nat} :
    Completes t (execSwapReq port rx slot wavelength boundary t) :=
  inRange_completes Walk.self.takeSwapReq

theorem execSwapAck_completes {port : Nat} {rx : Bool} {slot wavelength boundary : Nat} :
    Completes t (execSwapAck port rx slot wavelength boundary t) :=
  inRange_completes Walk.self.takeSwapAck

theorem execLaserOut_completes {port wavelength : Nat} : Completes t (execLaserOut port wavelength t) :=
  inRange_completes Walk.self.takeLaserOut

theorem execRetrain_completes {port : Nat} : Completes t (execRetrain port t) :=
  inRange_completes Walk.self.takeRetrain

theorem Walk.comparePeer (h : Keeps s t) {q device farPort : Nat} : Keeps s (t.comparePeer q device farPort) :=
  .ite h h.setFld.setFld.hthLog

theorem Walk.takeCredits (h : Keeps s t) {q : Nat} {cs : List Nat} : Keeps s (t.takeCredits q cs) := h.setRtr

theorem Walk.takeControl (h : Keeps s t) {q : Nat} {w : ControlWord} : Keeps s (t.takeControl q w) := by
  unfold State.takeControl
  dsimp only
  split
  · exact h.modPort.takeCredits.comparePeer.takeLane.takeFrame
  · exact h.modPort.takeCredits.comparePeer.takeLane

theorem Walk.rxStep (h : Keeps s t) {q pos : Nat} : Keeps s (t.rxStep q pos) := h.modPort

theorem execControlCodeword_completes {port : Nat} {w : ControlWord} : Completes t (execControlCodeword port w t) :=
  .ite (.next .self) (inRange_completes (.ite .self (.ite Walk.self.rxStep Walk.self.rxStep.takeControl)))

theorem Walk.beginTraining (h : Keeps s t) {q : Nat} : Keeps s (t.beginTraining q) := .ite h.setPortState h

theorem Walk.mapLanes (h : Keeps s t) {q : Nat} {rx : Bool} {good : Nat} : Keeps s (t.mapLanes q rx good) :=
  (h.setSpare.setSpareFor.foldl fun _ _ h => h.setHealth).foldl fun _ _ h => h.setSlot

theorem execPortTrain_completes {port : Nat} {goodTx goodRx : BitVec 9} {answered : Bool} :
    Completes t (execPortTrain port goodTx goodRx answered t) :=
  inRange_completes (.ite .self (.ite Walk.self.setPortState (.ite (Walk.ite (Walk.ite Walk.self.hthLog .self).hthLog (.ite Walk.self.hthLog .self)).portOff Walk.self.portOff.mapLanes.mapLanes.setFld.setFld.offerCredits.sendControl)))

theorem execTrainingFrame_completes {port device farPort : Nat} : Completes t (execTrainingFrame port device farPort t) :=
  inRange_completes (.ite Walk.self.comparePeer .self)

theorem execTrainingRetryExpiry_completes {port : Nat} : Completes t (execTrainingRetryExpiry port t) :=
  inRange_completes (.ite Walk.self.beginTraining .self)

theorem execPortRetrainWrite_completes {port : Nat} : Completes t (execPortRetrainWrite port t) :=
  inRange_completes (.ite Walk.self.sendControl.startRetrain (.ite Walk.self.startRetrain .self))

theorem execPortDisable_completes {port : Nat} : Completes t (execPortDisable port t) :=
  inRange_completes Walk.self.setRbit.portOff

theorem execPortEnable_completes {port : Nat} : Completes t (execPortEnable port t) :=
  inRange_completes (.ite Walk.self.setRbit.setPortState.beginTraining Walk.self.setRbit)

theorem execLevel1Calibration_completes {port : Nat} {rx : Bool} : Completes t (execLevel1Calibration port rx t) := by
  unfold execLevel1Calibration
  dsimp only
  refine inRange_completes (.ite .self (.ite Walk.self.modPort ?_))
  split
  · exact Walk.self.setHealth.modPort
  · exact .ite Walk.self.modPort (.ite .self Walk.self.setHealth.setSpareFor.askSwap.modPort)

theorem execRingSweepComplete_completes {port : Nat} {rx : Bool} {k : Nat} {confirmed : Bool} :
    Completes t (execRingSweepComplete port rx k confirmed t) :=
  .ite (.next .self) (inRange_completes (.ite .self (.ite Walk.self.modPort.goodWl (.ite (.ite Walk.self.modPort.failWl Walk.self.modPort.setHealth.hthLog) (.ite Walk.self.modPort.setHealth.hthLog Walk.self.modPort)))))

theorem execPilotToneCheck_completes {port k : Nat} {tone : Option Nat} : Completes t (execPilotToneCheck port k tone t) := by
  unfold execPilotToneCheck
  dsimp only
  split
  · exact .next .self
  · refine inRange_completes ?_
    split
    · exact .self
    · split
      · exact Walk.self.failWl
      · split
        · exact Walk.self.modPort
        · split
          · exact .self
          · split
            · exact Walk.self.modPort
            · split
              · exact Walk.self.modPort.setHealth.hthLog.claimSpare
              · exact Walk.self.modPort.setHealth.hthLog

theorem execSerWindowExpiry_completes {port : Nat} : Completes t (execSerWindowExpiry port t) :=
  inRange_completes (Walk.self.modPort.foldl fun _ _ h => h.failWl)

theorem Walk.laserFail (h : Keeps s t) {hearth k : Nat} : Keeps s (t.laserFail hearth k) :=
  .ite h (.ite h.laterFail (h.setRbit.hthLog.foldl fun _ _ h => .ite (Walk.ite h.setHealth.setSpare.setSpareFor h.setHealth).sendControl (.ite h.setHealth.setSpare.setSpareFor h.setHealth)))

theorem execLaserFailure_completes {hearth k : Nat} : Completes t (execLaserFailure hearth k t) :=
  .ite (.next .self) (inRange_completes Walk.self.laserFail)

theorem Walk.runFails (h : Keeps s t) : Keeps s (t.runFails) :=
  h.congr.foldl fun _ _ h => .ite h.laserFail h.failWl

theorem execRingSetpointReturn_completes {port : Nat} {rx : Bool} : Completes t (execRingSetpointReturn port rx t) := by
  unfold execRingSetpointReturn
  refine inRange_completes ?_
  split
  · exact .self
  · split
    · exact .ite Walk.self.setHealth.askSwap .self
    · exact .self

theorem execHearthLasersStable_completes {h' : Nat} {ok : BitVec 9} : Completes t (execHearthLasersStable h' ok t) :=
  inRange_completes (.ite .self (Walk.self.setFld.setRbit.foldl fun _ _ h => .ite h.beginTraining h))

theorem execStileChangeComplete_completes {hearth pair : Nat} : Completes t (execStileChangeComplete hearth pair t) :=
  .ite (.next .self) (inRange_completes (Walk.self.setRbit.foldl fun _ _ h => .ite h.beginTraining h))

theorem Walk.setTherm (h : Keeps s t) {t' : Therm} : Keeps s (t.setTherm t') := h.congr

theorem Walk.thmLog (h : Keeps s t) {kind site temp rate : Nat} : Keeps s (t.thmLog kind site temp rate) := h.log

theorem Walk.siteLog (h : Keeps s t) {kind i : Nat} : Keeps s (t.siteLog kind i) := .ite h.thmLog h.thmLog

theorem Walk.packageLog (h : Keeps s t) {kind : Nat} : Keeps s (t.packageLog kind) := h.bump.thmLog

theorem Walk.tripStack (h : Keeps s t) {i : Nat} : Keeps s (t.tripStack i) := h.setRbit.setRbit.setRbit

theorem Walk.trip (h : Keeps s t) {i : Nat} : Keeps s (t.trip i) :=
  .ite h ((Walk.ite h.siteLog h.packageLog).setFld.setFld.foldl fun _ _ h => h.tripStack)

theorem execSensorTrip_completes {site : Nat} : Completes t (execSensorTrip site t) :=
  inRange_completes Walk.self.setTherm.trip

theorem execPowerMeasurement_completes {rails : List Nat} : Completes t (execPowerMeasurement rails t) :=
  .ite (.next .self) (.next Walk.self.setTherm)

theorem execPackagePowerMeasurement_completes {watts10 : Nat} : Completes t (execPackagePowerMeasurement watts10 t) :=
  .next Walk.self.setTherm.setFld.setFld.setFld

theorem execSensorReading_completes {readings : List Int} : Completes t (execSensorReading readings t) :=
  .ite (.next .self) (.next Walk.self.setTherm)

theorem Walk.publishStack (h : Keeps s t) {nodes now : List Int} {t' : Therm} {i : Nat} :
    Keeps s (t.publishStack nodes now t' i) :=
  h.setRbit.setReg

theorem Walk.publishPasture (h : Keeps s t) {now : List Int} {t' : Therm} {p : Nat} : Keeps s (t.publishPasture now t' p) :=
  h.setRbit.setReg

theorem Walk.siteEvents (h : Keeps s t) {kind : Nat} {sites : List Nat} : Keeps s (t.siteEvents kind sites) :=
  h.foldl fun _ _ h => h.siteLog

theorem Walk.powerState (h : Keeps s t) : Keeps s (t.powerState) := .ite h h.setFld

theorem Walk.modelUpdate (h : Keeps s t) {nodes : List Int} : Keeps s (t.modelUpdate nodes) := by
  unfold State.modelUpdate
  extract_lets first t0 drift t1 t1' now rate t2 trips wasTripped s1 s2 s3 s4 s5 s6 s7 sites fresh hard gate e1 e2 e3 e4 e5 e6 e7 e8
  clear_value trips
  have h1 : Keeps s s1 := by
    cases trips with
    | some i => exact .ite h h.setFld
    | none => exact h.powerState
  have h3 : Keeps s s3 := (h1.foldl fun _ _ h => h.publishStack).foldl fun _ _ h => h.publishPasture
  have h6 : Keeps s s6 := h3.setRbit.setFld.setFld.setTherm.setRbit
  have h7 : Keeps s s7 := .ite (h6.foldl fun _ _ h => h.tripStack) h6
  have he5 : Keeps s e5 := h7.siteEvents.siteEvents.siteEvents.siteEvents.siteEvents
  have he6 : Keeps s e6 := .ite he5.packageLog he5
  have he8 : Keeps s e8 := he6.siteEvents.siteEvents
  refine .ite he8 ?_
  split
  · exact .ite he8.siteLog he8.packageLog
  · exact he8

theorem execThermalModelUpdate_completes {nodes : List Int} : Completes t (execThermalModelUpdate nodes t) :=
  .ite (.next .self) (.ite (.next .self) (.next Walk.self.modelUpdate))

theorem execFractionApply_completes {p : Nat} : Completes t (execFractionApply p t) :=
  inRange_completes (.ite .self Walk.self.setTherm)

theorem execFractionWatchdog_completes {p : Nat} : Completes t (execFractionWatchdog p t) :=
  inRange_completes Walk.self.setTherm

theorem execGateDecisionWatchdog_completes {i : Nat} : Completes t (execGateDecisionWatchdog i t) :=
  inRange_completes Walk.self.setTherm.setRbit.setRbit.setRbit

theorem Walk.writeThmCfg (h : Keeps s t) {v : Nat} : Keeps s (t.writeThmCfg v) := .ite h.setReg.setFld h.setReg

theorem execHoldWrite_completes {v : Word32} : Completes t (execHoldWrite v t) :=
  .next Walk.self.writeThmCfg

theorem execSlewGovernorTick_completes {p : Nat} : Completes t (execSlewGovernorTick p t) := by
  unfold execSlewGovernorTick
  dsimp only
  refine inRange_completes ?_
  split
  · exact .self
  · split
    · exact .self
    · exact Walk.self.setTherm

theorem Walk.quiesceFlock (h : Keeps s t) {f : Nat} : Keeps s (t.quiesceFlock f) :=
  (h.foldl fun _ _ h => h.foldl fun _ _ h => h.stopPeat.dmaFail).feedLost.retryProc

theorem Walk.lateFlock (h : Keeps s t) {f : Nat} : Keeps s (t.lateFlock f) :=
  h.setNi.setFar.dropUnits.foldl fun _ _ h => h.modStk

theorem Walk.dropFamily (h : Keeps s t) {r : Reg} {i n : Nat} : Keeps s (t.dropFamily r i n) := h.others

theorem Walk.clearFlkRegs (h : Keeps s t) {f : Nat} : Keeps s (t.clearFlkRegs f) :=
  h.dropFamily.dropFamily.foldl fun _ _ h => h.resetReg

/-- Cores dropped from the map are fresh again. -/
theorem Walk.dropCores (h : Keeps s t) {p : Nat → Bool} : Keeps s { t with cores := Sparse.drop p t.cores } := by
  refine h.trans ⟨rfl, id, id, fun hok f c => ?_⟩
  rw [State.core, Sparse.get_drop]
  split
  · exact Core.Bounded.fresh
  · exact hok f c

theorem Walk.clearFlock (h : Keeps s t) {f : Nat} : Keeps s (t.clearFlock f) := by
  unfold State.clearFlock
  refine (Walk.modFlock ?_).reviveRoads.clearFlkRegs
  exact (h.lateFlock (f := f)).setPeat.dropCores.congr

theorem Walk.roadAck (h : Keeps s t) {g f : Nat} : Keeps s (t.roadAck g f) := h.modFlock

theorem Walk.zeroScratch (h : Keeps s t) {f c : Nat} : Keeps s (t.zeroScratch f c) := h.withScratch (Memory.wf_drop _)

theorem Walk.applyMap (h : Keeps s t) {f : Nat} {m : Nat → Nat} : Keeps s (t.applyMap f m) := by
  unfold State.applyMap
  exact (h.foldl fun _ _ h => h.zeroScratch).modFlock

theorem Walk.preset (h : Keeps s t) {a v : Nat} : Keeps s (t.preset a v).1 := by
  unfold State.preset
  split
  · exact .ite_fst h (.ite_fst h.writeThmCfg h.setReg)
  · exact h

theorem Walk.bindFlock (h : Keeps s t) {f : Nat} {conf : List Byte} : Keeps s (t.bindFlock f conf) := by
  unfold State.bindFlock
  exact (h.modFlock.foldl fun _ _ h => h.setCbit).modFlock

theorem Walk.setFoldState (h : Keeps s t) {f v : Nat} : Keeps s (t.setFoldState f v) := h.setFld

theorem Walk.reconfigure (h : Keeps s t) {f : Nat} : Keeps s (t.reconfigure f) :=
  .ite (h.applyMap.foldl fun _ _ h => h.preset).bindFlock h

theorem Walk.startPipeline (h : Keeps s t) {f : Nat} : Keeps s (t.startPipeline f) := by
  unfold State.startPipeline
  refine .ite h ?_
  split
  · exact h
  · exact h.modFlock.foldl fun _ _ h => h.modCore fun _ _ => Core.Bounded.started

theorem Walk.setRst (h : Keeps s t) {rs : List ResetOp} : Keeps s (t.setRst rs) := h.others

theorem Walk.showReset (h : Keeps s t) {r : ResetOp} : Keeps s (t.showReset r) :=
  .ite h.setFld.setFld.setFld h

theorem Walk.putReset (h : Keeps s t) {old new : ResetOp} : Keeps s (t.putReset old new) := h.setRst.showReset

theorem Walk.scopeReady (h : Keeps s t) {r : ResetOp} {b : Bool} : Keeps s (t.scopeReady r b) := by
  unfold State.scopeReady
  dsimp only
  split
  · exact .ite (.ite h.setRbit.stackUp h.setRbit) h.setRbit.setRbit
  · exact h.setRbit.setRbit
  · exact h

theorem Walk.quiesce (h : Keeps s t) {r : ResetOp} : Keeps s (t.quiesce r) := by
  unfold State.quiesce
  dsimp only
  split
  · exact ((Walk.ite h.finishRows h).setRst.showReset.foldl fun _ _ h => h.quiesceFlock).refuseAsks.refuseAll.scopeReady
  · exact ((Walk.ite h.finishRows h).setRst.showReset.foldl fun _ _ h => h.quiesceFlock).quiesceKiln.scopeReady
  · exact (Walk.ite h.finishRows h).setRst.showReset.foldl fun _ _ h => h.quiesceFlock

theorem Walk.clearScope (h : Keeps s t) {r : ResetOp} : Keeps s (t.clearScope r) := by
  unfold State.clearScope
  dsimp only
  split
  · exact ((h.others.foldl fun _ _ h => h.clearFlock).foldl fun _ _ h => h.resetReg).setServe
  · exact (h.others.foldl fun _ _ h => h.clearFlock).setRtr.foldl fun _ _ h => h.resetPort
  · exact (h.others.foldl fun _ _ h => h.clearFlock).resetPort
  · exact (h.others.foldl fun _ _ h => h.clearFlock).foldl fun _ _ h => h.resetPort
  · exact h.others.foldl fun _ _ h => h.clearFlock

theorem Walk.afterReset (h : Keeps s t) {resume : State → State} {r : ResetOp} (hk : ∀ u, Keeps s u → Keeps s (resume u)) :
    Keeps s (State.afterReset resume t r) := by
  unfold State.afterReset
  have hmade : Keeps s (if r.requested = true then r.flocks.foldl State.reconfigure t else t) :=
    .ite (h.foldl fun _ _ h => h.reconfigure) h
  exact .ite (hk _ hmade) hmade

theorem Walk.tryFinish (h : Keeps s t) {resume : State → State} {r : ResetOp} (hk : ∀ u, Keeps s u → Keeps s (resume u)) :
    Keeps s (State.tryFinish resume t r) :=
  .ite (.ite (h.putReset.setRst.scopeReady.afterReset hk).setRbit.setRbit (h.putReset.setRst.scopeReady.afterReset hk)) h

theorem Walk.enterReinit (h : Keeps s t) {resume : State → State} {r : ResetOp} {forced : Bool}
    (hk : ∀ u, Keeps s u → Keeps s (resume u)) : Keeps s (State.enterReinit resume t r forced) :=
  h.setRbit.clearScope.putReset.tryFinish hk

theorem Walk.startReset (h : Keeps s t) {scope target : Nat} {requested lockWait : Bool} :
    Keeps s (t.startReset scope target requested lockWait) :=
  .ite h.setRst.setRst.showReset.clearScope h.setRst.quiesce

theorem Walk.requestReset (h : Keeps s t) {scope target : Nat} : Keeps s (t.requestReset scope target) :=
  .ite h.setRbit h.setRbit.startReset

theorem keeps_reset_of (s : State) (u : State) (hp : u.pending = s.pending) (hd : u.dram = s.dram) (hs : u.store = [])
    (hc : u.scratch = []) (he : u.evt = []) (hn : u.nor = s.nor) (hk : u.cores = []) : Keeps s u where
  pending := hp
  mem hm := by rw [State.memOk, hd, hs, hc]; exact ⟨hm.1, rfl, rfl⟩
  records hr := by rw [State.recordsOk, he, hn]; exact ⟨Nat.zero_le _, hr.2⟩
  cores _ f c := by rw [State.core, hk]; exact ⟨Nat.zero_le _, Nat.zero_le _, Nat.zero_le _⟩

theorem Walk.deviceReset (h : Keeps s t) : Keeps s (t.deviceReset) := by
  refine h.trans ?_
  unfold State.deviceReset
  refine Walk.ite (Walk.foldl (Keeps.setFld (Keeps.setRbit ?_)) fun _ _ h => h.tripStack) (Keeps.setRbit ?_)
  · exact keeps_reset_of t _ rfl rfl rfl rfl rfl rfl rfl
  · exact keeps_reset_of t _ rfl rfl rfl rfl rfl rfl rfl

theorem Walk.awaitPll (h : Keeps s t) {b : Nat} : Keeps s (t.awaitPll b) := h.setRst

theorem Walk.resetCtrl (h : Keeps s t) {v : Nat} : Keeps s (t.resetCtrl v) := h.setReg

theorem Walk.writeResetCtrl (h : Keeps s t) {v : Nat} : Keeps s (t.writeResetCtrl v) :=
  .ite h.resetCtrl (.ite h.deviceReset h.resetCtrl.requestReset)

theorem execResetFlock_completes {v : Word32} : Completes t (execResetFlock v t) :=
  .next Walk.self.writeResetCtrl

theorem execResetPasture_completes {v : Word32} : Completes t (execResetPasture v t) :=
  .next Walk.self.writeResetCtrl

theorem execResetRouterSlice_completes {v : Word32} : Completes t (execResetRouterSlice v t) :=
  .next Walk.self.writeResetCtrl

theorem execResetPort_completes {v : Word32} : Completes t (execResetPort v t) :=
  .next Walk.self.writeResetCtrl

theorem execResetHearth_completes {v : Word32} : Completes t (execResetHearth v t) :=
  .next Walk.self.writeResetCtrl

theorem execResetDevice_completes {v : Word32} : Completes t (execResetDevice v t) :=
  .next Walk.self.writeResetCtrl

theorem execCreditReturnMessage_completes {peer resource count : Nat} :
    Completes t (execCreditReturnMessage peer resource count t) :=
  .next (Walk.self.congr)

theorem Walk.leaveReset (h : Keeps s t) {p : Nat} : Keeps s (t.leaveReset p) :=
  .ite (.ite h.setRbit.setRbit.setRbit h.setRbit) h

theorem Walk.cxlUp (h : Keeps s t) : Keeps s (t.cxlUp) := .ite h.setRbit h

theorem Walk.pllUp (h : Keeps s t) {b : Nat} : Keeps s (t.pllUp b) :=
  .ite h (.ite (.ite (h.foldl fun _ _ h => h.leaveReset).setRbit h) (.ite h.cxlUp (.ite h.leaveReset h)))

theorem Walk.wake (h : Keeps s t) : Keeps s (t.wake) := h.pllUp.pllUp

theorem execPowerOn_completes : Completes t (execPowerOn t) := .next (Walk.self.congr).wake

theorem Walk.loseStacks (h : Keeps s t) : Keeps s (t.loseStacks) := (h.withDram fun _ => rfl).congr

theorem execPowerLoss_completes : Completes t (execPowerLoss t) :=
  .next ((Keeps.setFld .self).setTherm.deviceReset.loseStacks.congr)

theorem execRailOutOfRange_completes : Completes t (execRailOutOfRange t) :=
  .next (Walk.self.deviceReset.congr)

theorem execResetPin_completes : Completes t (execResetPin t) := by
  unfold execResetPin
  have hreset : Keeps t (t.setFld .thmStatus 0 0 63 61 0).deviceReset := Walk.self.setFld.deviceReset
  dsimp only
  split
  · exact .next (hreset.trip.congr)
  · exact .next (hreset.congr)

theorem execResetPinRelease_completes : Completes t (execResetPinRelease t) :=
  .next (Walk.self.congr).wake

theorem execPastureRelease_completes {p : Nat} : Completes t (execPastureRelease p t) :=
  inRange_completes (.ite .self (Walk.self.congr).leaveReset)

theorem execStackTrainingComplete_completes {i : Nat} : Completes t (execStackTrainingComplete i t) :=
  inRange_completes (.ite .self (.ite (Keeps.setRbit Walk.self.modStk).setRbit (Keeps.setRbit Walk.self.modStk).stackUp))

theorem execPllLockLoss_completes {b : Nat} : Completes t (execPllLockLoss b t) := by
  unfold execPllLockLoss
  split
  · exact .next .self
  · exact .ite (.next .self) (.ite (.next (.ite Walk.self.awaitPll .self)) (.ite (.next Walk.self.deviceReset.awaitPll)
      (.next (Keeps.setRbit .self).startReset)))

theorem Walk.drainEnd (h : Keeps s t) {resume : State → State} (hk : ∀ u, Keeps s u → Keeps s (resume u)) :
    Keeps s (State.drainEnd resume t) := by
  unfold State.drainEnd
  split
  · exact .ite (h.enterReinit hk) h
  · exact h

theorem Walk.drainLimit (h : Keeps s t) {resume : State → State} (hk : ∀ u, Keeps s u → Keeps s (resume u)) :
    Keeps s (State.drainLimit resume t) := by
  unfold State.drainLimit
  split
  · exact h.enterReinit hk
  · exact h

theorem Walk.reinitAck (h : Keeps s t) {resume : State → State} {peer : Nat} (hk : ∀ u, Keeps s u → Keeps s (resume u)) :
    Keeps s (State.reinitAck resume peer t) := by
  unfold State.reinitAck
  split
  · exact h
  · exact .ite h ((Walk.ite h.roadAck h).putReset.tryFinish hk)

theorem Walk.pllLock (h : Keeps s t) {resume : State → State} {b : Nat} (hk : ∀ u, Keeps s u → Keeps s (resume u)) :
    Keeps s (State.pllLock resume b t) := by
  unfold State.pllLock
  dsimp only
  split
  · exact h.setRbit.pllUp
  · exact .ite h.setRbit.setRst.wake (.ite (h.setRbit.putReset.tryFinish hk) h.setRbit.putReset)

theorem Walk.foldEnd (h : Keeps s t) {code sec off : Nat} : Keeps s (t.foldEnd code sec off) := h.congr.setReg

theorem Walk.foldBusy (h : Keeps s t) {phase : Nat} : Keeps s (t.foldBusy phase) := h.setRbit.setFld

theorem Walk.foldErr (h : Keeps s t) {e : FErr} : Keeps s (t.foldErr e) := h.foldEnd

theorem Walk.foldWait (h : Keeps s t) {op : FoldOp} {phase : Nat} : Keeps s (t.foldWait op phase) :=
  h.congr.foldBusy

theorem Walk.readImage (h : Keeps s t) {mode : Bool} {a n : Nat} : Keeps s (t.readImage mode a n).1 := by
  exact (h.withInter.tryRead (r := foldReq a)).withInter

theorem Walk.resetFlocks (h : Keeps s t) : Keeps s (t.resetFlocks) :=
  h.foldl fun _ _ h => h.quiesceFlock.clearFlock.modFlock.resetReg

theorem Walk.resetSlices (h : Keeps s t) : Keeps s (t.resetSlices) :=
  (h.setRtr.foldl fun _ _ h => h.others).foldl fun _ _ h => .ite h.resetPort h

theorem Walk.endNi (h : Keeps s t) : Keeps s (t.endNi) := Keeps.setNi h.dropUnits

theorem Walk.endShadow (h : Keeps s t) : Keeps s (t.endShadow) := h.resetReg.resetReg.setShadow

theorem Walk.endJob (h : Keeps s t) : Keeps s (t.endJob) := by
  unfold State.endJob
  exact h.resetReg.clearKiln.endNi.resetFlocks.withReturns.resetSlices.endShadow.withFold.resetReg

theorem Walk.dataWrite (h : Keeps s t) {x : FoldSec} {n : Nat} {x2 : Nat} : Keeps s (t.dataWrite x n x2).1 := by
  induction n generalizing t x2 with
  | zero => exact h
  | succ n ih =>
    unfold State.dataWrite
    refine .ite_fst h ?_
    split
    · split
      · exact h.tryWriteBale.of_eq ‹_›
      · exact .ite_fst (ih (h.tryWriteBale.of_eq ‹_›)) (h.tryWriteBale.of_eq ‹_›)
    · exact h.tryWriteMem

theorem Walk.writePresets (h : Keeps s t) {x : FoldSec} {x1 : Nat} {l : List (Nat × Nat)} :
    Keeps s (t.writePresets x x1 l).1 := by
  induction l generalizing t x x1 with
  | nil => exact h
  | cons x l ih =>
    unfold State.writePresets
    split
    · exact ih (h.preset.of_eq ‹_›)
    · exact h.preset.of_eq ‹_›

theorem Walk.takeFold (h : Keeps s t) {x : Fold} : Keeps s (t.takeFold x) :=
  (Keeps.setNi h.others).bump.setFld.setMuster.setFld

theorem Walk.setIdentity (h : Keeps s t) {x : Fold} {serial : Nat} : Keeps s (t.setIdentity x serial) :=
  h.setReg.setReg

theorem Walk.flockRuns (h : Keeps s t) {f serial : Nat} : Keeps s (t.flockRuns f serial) := h.setReg

theorem Walk.foldStart (h : Keeps s t) {f : Option Nat} : Keeps s (t.foldStart f) := .ite h.foldEnd h.foldWait

theorem Walk.applyFail (h : Keeps s t) {j : FoldJob} {e : FErr} : Keeps s (t.applyFail j e) := by
  unfold State.applyFail
  split
  · exact h.setFoldState.foldErr
  · exact h.endJob.foldErr

theorem Walk.readSection (h : Keeps s t) {j : FoldJob} {x : FoldSec} : Keeps s (t.readSection j x).1 := by
  unfold State.readSection
  split
  · exact h.readImage.of_eq ‹_›
  · exact h.readImage.of_eq ‹_›
  · exact .ite_fst (h.readImage.of_eq ‹_›) (h.readImage.of_eq ‹_›)

theorem Walk.readSections (h : Keeps s t) {j : FoldJob} {l : List FoldSec} : Keeps s (t.readSections j l).1 := by
  induction l generalizing t j with
  | nil => exact h
  | cons x l ih =>
    unfold State.readSections
    split
    · exact h.readSection.of_eq ‹_›
    · split <;> exact (ih (h.readSection.of_eq ‹_›)).of_eq ‹_›

theorem Walk.applyBegin (h : Keeps s t) {mode : Bool} : Keeps s (t.applyBegin mode) := by
  unfold State.applyBegin
  exact h.endJob.withInter

theorem Walk.applyPresets (h : Keeps s t) {x : FoldSec} : Keeps s (t.applyPresets x).1 := by
  unfold State.applyPresets
  dsimp only
  have hw := h.writePresets (x := x) (x1 := 0) (l := presetEntries x.body)
  generalize List.range 672 = fs
  split
  · exact hw.of_eq ‹_›
  · refine (hw.of_eq ‹_›).foldl fun t f h => ?_
    split
    · exact h
    · exact h.modFlock

theorem applied_of_keeps {α : Type} {j : FoldJob} {x : State × Except (Option FErr) α} {k : State → α → State × Applied}
    (h : Keeps s x.1) (hk : ∀ u y, Keeps s u → Keeps s (k u y).1) : Keeps s (Applied.of j x k).1 := by
  unfold Applied.of
  split
  · exact h
  · exact h
  · exact hk _ _ h

theorem Walk.applyStep (h : Keeps s t) {j : FoldJob} : Keeps s (t.applyStep j).1 := by
  unfold State.applyStep
  dsimp only
  split
  · exact applied_of_keeps h.readSections fun _ _ h => h
  · exact applied_of_keeps h.readSections fun _ _ h => h.foldl fun _ _ h => h.applyMap
  · have hpresets : Keeps s (match j.flock with
        | some f => t.modFlock f fun k => { k with presets := [] }
        | none => t) := by
      split
      · exact h.modFlock
      · exact h
    split
    · exact hpresets
    · refine applied_of_keeps hpresets.readSection fun _ _ h => ?_
      split
      · exact h.applyPresets.of_eq ‹_›
      · exact h.applyPresets.of_eq ‹_›
  · split
    · exact h
    · refine applied_of_keeps h.readSection fun _ _ h => ?_
      split
      · exact h.dataWrite.of_eq ‹_›
      · exact .ite_fst (h.dataWrite.of_eq ‹_›) (h.dataWrite.of_eq ‹_›)
  · exact applied_of_keeps h.readSections fun _ _ h => h.foldl fun _ _ h => h.bindFlock.flockRuns

theorem Walk.runApply (h : Keeps s t) {j : FoldJob} {n : Nat} : Keeps s (t.runApply j n) := by
  induction n generalizing t j with
  | zero => exact h.foldWait
  | succ n ih =>
    unfold State.runApply
    split
    · exact (h.applyStep.of_eq ‹_›).foldWait
    · exact (h.applyStep.of_eq ‹_›).applyFail
    · exact ih (h.applyStep.of_eq ‹_›)
    · split
      · exact (h.applyStep.of_eq ‹_›).takeFold.setIdentity.foldStart
      · exact (h.applyStep.of_eq ‹_›).foldStart

theorem Walk.resumeFold (h : Keeps s t) : Keeps s (t.resumeFold) := by
  unfold State.resumeFold
  dsimp only
  split
  · exact .ite h (h.applyMap.foldl fun _ _ h => h.preset).bindFlock.setFoldState.foldStart
  · split
    · exact .ite h h.runApply
    · exact h.runApply
  · exact h.foldStart
  · exact h

theorem Walk.startApply (h : Keeps s t) {img : List Byte} {src : Nat} : Keeps s (t.startApply img src) :=
  .ite h.applyBegin.runApply h.setFoldState.foldWait.startReset

theorem Walk.runLoad (h : Keeps s t) {src : Nat} {got : List Byte} {n : Nat} : Keeps s (t.runLoad src got n) := by
  induction n generalizing t src got with
  | zero => exact h
  | succ n ih =>
    unfold State.runLoad
    refine .ite ?_ (.ite ?_ ?_)
    · split
      · exact (h.readImage.of_eq ‹_›).foldWait
      · exact (h.readImage.of_eq ‹_›).foldErr
      · next heq =>
        have hread := h.readImage.of_eq heq
        split
        · exact hread.foldErr
        · exact ih hread
    · split
      · exact (h.readImage.of_eq ‹_›).foldWait
      · exact (h.readImage.of_eq ‹_›).foldErr
      · next heq =>
        have hread := h.readImage.of_eq heq
        split
        · exact hread.foldErr
        · exact ih hread
    · split
      · exact (h.readImage.of_eq ‹_›).foldWait
      · exact (h.readImage.of_eq ‹_›).foldErr
      · next heq =>
        have hread := h.readImage.of_eq heq
        dsimp only
        split
        · exact hread.foldErr
        · exact hread.startApply

theorem Walk.runEnrol (h : Keeps s t) {a : Nat} : Keeps s (t.runEnrol a) := by
  unfold State.runEnrol
  dsimp only
  split
  · exact (h.tryReadMem.of_eq ‹_›).congr
  · exact .ite (((h.tryReadMem.of_eq ‹_›).congr).congr).setRbit ((h.tryReadMem.of_eq ‹_›).congr).setRbit

theorem Walk.kickFold (h : Keeps s t) : Keeps s (t.kickFold) := by
  unfold State.kickFold
  dsimp only
  split
  · refine Walk.runLoad ?_
    split
    · exact h.runEnrol
    · exact h
  · refine Walk.resumeFold ?_
    split
    · exact h.runEnrol
    · exact h
  · split
    · exact h.runEnrol
    · exact h

theorem Walk.runRemap (h : Keeps s t) {f l p : Nat} : Keeps s (t.runRemap f l p) :=
  .ite h.foldEnd (.ite h.foldEnd (.ite h.foldEnd (.ite h.foldEnd h.setFoldState.foldWait.startReset)))

theorem Walk.runUnload (h : Keeps s t) : Keeps s (t.runUnload) := h.endJob.foldEnd

theorem Walk.writeFoldCtrl (h : Keeps s t) {v : Nat} : Keeps s (t.writeFoldCtrl v) := by
  unfold State.writeFoldCtrl
  dsimp only
  split
  · exact h.setRbit
  · split
    · exact h.setRbit
    · split
      · exact h.setReg.runLoad
      · exact h.setReg.runRemap
      · exact h.setReg.runUnload
      · exact h.setReg

theorem execFoldLoad_completes {v : Word64} : Completes t (execFoldLoad v t) :=
  .next Walk.self.writeFoldCtrl

theorem execRemap_completes {v : Word64} : Completes t (execRemap v t) := .next Walk.self.writeFoldCtrl

theorem execUnload_completes {v : Word64} : Completes t (execUnload v t) := .next Walk.self.writeFoldCtrl

theorem Walk.writeRank (h : Keeps s t) {v : Nat} : Keeps s (t.writeRank v) := by
  unfold State.writeRank
  dsimp only
  split
  · exact h.setRbit
  · split
    · exact h.setRbit
    · exact .ite h.congr h.setRbit

theorem execDrvRankWrite_completes {v : Word64} : Completes t (execDrvRankWrite v t) :=
  .next Walk.self.writeRank

theorem execPipelineStart_completes {f : Nat} : Completes t (execPipelineStart f t) := by
  unfold execPipelineStart
  dsimp only
  refine inRange_completes ?_
  split
  · exact Walk.self.startPipeline.foldStart
  · exact Walk.self.startPipeline

theorem execDrainEnd_completes : Completes t (execDrainEnd t) := .next (Walk.self.drainEnd fun _ h => h.resumeFold)

theorem execDrainLimitExpiry_completes : Completes t (execDrainLimitExpiry t) := .next (Walk.self.drainLimit fun _ h => h.resumeFold)

theorem execReinitAck_completes {peer : Nat} : Completes t (execReinitAck peer t) := .next (Walk.self.reinitAck fun _ h => h.resumeFold)

theorem execPllLock_completes {b : Nat} : Completes t (execPllLock b t) :=
  .ite (.next (Walk.self.pllLock fun _ h => h.resumeFold)) (.next .self)

theorem Walk.goOn (h : Keeps s t) : Keeps s (t.goOn) := h.serveWaiting.kickFold

theorem execCxlHostEvict_completes {line : Nat} : Completes t (execCxlHostEvict line t) :=
  .next Walk.self.untrack.goOn

theorem Walk.snoopAnswered (h : Keeps s t) {line : Nat} : Keeps s (t.snoopAnswered line) := by
  unfold State.snoopAnswered
  split
  · exact h
  · exact .ite h.setSnoops h.setSnoops

theorem execBirsp_completes {line : Nat} {stillValid : Bool} : Completes t (execBirsp line stillValid t) :=
  .next (Walk.ite .self Walk.self.untrack).snoopAnswered.goOn

theorem execBiTimeout_completes {n : Nat} : Completes t (execBiTimeout n t) := by
  unfold execBiTimeout
  refine .next ?_
  split
  · exact .ite Walk.self.setSnoops.goOn .self
  · exact .self

theorem execWriteGateChange_completes {stack : Nat} {closed : Bool} : Completes t (execWriteGateChange stack closed t) :=
  inRange_completes (.ite .self (.ite Walk.self.setRbit.setRbit Walk.self.setRbit.setRbit.goOn))

theorem execStackEntryGrant_completes {stack : Nat} : Completes t (execStackEntryGrant stack t) := by
  unfold execStackEntryGrant
  refine inRange_completes ?_
  split
  · exact (Walk.self.grantOne ‹_›).goOn
  · exact .self

theorem Walk.setQue (h : Keeps s t) {q : Nat} {k : CmdQueue} : Keeps s (t.setQue q k) := h.congr

theorem Walk.queLog (h : Keeps s t) {q st addr : Nat} : Keeps s (t.queLog q st addr) := h.cxlLog

theorem Walk.queStopped (h : Keeps s t) {q : Nat} : Keeps s (t.queStopped q) := .ite h.setFld h

theorem Walk.queError (h : Keeps s t) {q cause : Nat} : Keeps s (t.queError q cause) := h.setFld.setFld

theorem onQueue_completes {q : Nat} {k : State → State} (hk : Keeps t (k t)) : Completes t (onQueue q t k) := inRange_completes hk

theorem Walk.writeQctrl (h : Keeps s t) {q v : Nat} : Keeps s (t.writeQctrl q v) :=
  .ite h.setRbit.setRbit.setFld h.setRbit.setRbit

theorem Walk.enableQue (h : Keeps s t) {q v : Nat} : Keeps s (t.enableQue q v) :=
  .ite h.writeQctrl (.ite h.writeQctrl.setFld.setFld.setFld.setQue h.writeQctrl.queError)

theorem Walk.disableQue (h : Keeps s t) {q v : Nat} : Keeps s (t.disableQue q v) :=
  .ite h.writeQctrl.setFld.queStopped (.ite h.writeQctrl.setFld.setFld h.writeQctrl)

theorem Walk.writeQueue (h : Keeps s t) {q v : Nat} : Keeps s (t.writeQueue q v) :=
  .ite h.enableQue h.disableQue

theorem execQueueEnable_completes {q : Nat} {v : Word64} : Completes t (execQueueEnable q v t) :=
  onQueue_completes Walk.self.writeQueue

theorem execQueueDisable_completes {q : Nat} {v : Word64} : Completes t (execQueueDisable q v t) :=
  onQueue_completes Walk.self.writeQueue

theorem Walk.doorbell (h : Keeps s t) {q v : Nat} {set : CmdQueue → Nat → CmdQueue} : Keeps s (t.doorbell q v set) :=
  .ite h.queError h.setQue

theorem Walk.ringSq (h : Keeps s t) {q v : Nat} : Keeps s (t.ringSq q v) := h.doorbell

theorem Walk.ringCq (h : Keeps s t) {q v : Nat} : Keeps s (t.ringCq q v) := h.doorbell

theorem execCxlQsqDb_completes {q : Nat} {v : Word32} : Completes t (execCxlQsqDb q v t) :=
  onQueue_completes Walk.self.ringSq

theorem execCxlQcqDb_completes {q : Nat} {v : Word32} : Completes t (execCxlQcqDb q v t) :=
  onQueue_completes Walk.self.ringCq

theorem Walk.queDone (h : Keeps s t) {q : Nat} {k : QCmd} {st n : Nat} : Keeps s (t.queDone q k st n) :=
  h.setQue.queStopped

theorem execSqFetch_completes {q : Nat} {entry : List Byte} : Completes t (execSqFetch q entry t) :=
  .ite (.next .self) (onQueue_completes (.ite .self (.ite Walk.self.setFld.setQue.queLog.queDone Walk.self.setFld.setQue)))

theorem execSqReadError_completes {q : Nat} : Completes t (execSqReadError q t) :=
  onQueue_completes (.ite Walk.self.queError .self)

theorem execQueueNop_completes {q n : Nat} : Completes t (execQueueNop q n t) := by
  unfold execQueueNop
  refine onQueue_completes ?_
  split
  · exact Walk.self.queDone
  · exact .self

theorem execQueueFence_completes {q n : Nat} : Completes t (execQueueFence q n t) := by
  unfold execQueueFence
  refine onQueue_completes ?_
  split
  · exact Walk.self.queDone
  · exact .self

theorem Walk.queFail (h : Keeps s t) {q : Nat} {k : QCmd} {st addr n : Nat} : Keeps s (t.queFail q k st addr n) :=
  h.queLog.queDone

theorem Walk.queSignal (h : Keeps s t) {q : Nat} {k : QCmd} : Keeps s (t.queSignal q k) := by
  unfold State.queSignal
  dsimp only
  split
  · exact h.queFail
  · split
    · exact .ite h.resetLog.queFail (.ite h.addSignal.queDone h.addSignal.queFail)
    · exact .ite h.resetLog.queFail (.ite h.addSignal.queDone h.addSignal.queFail)
    · exact h.queFail

theorem execQueueSignal_completes {q n : Nat} : Completes t (execQueueSignal q n t) := by
  unfold execQueueSignal
  refine onQueue_completes ?_
  split
  · exact Walk.self.queSignal
  · exact .self

theorem Walk.queCommit (h : Keeps s t) {u : StackReq} {n : Nat} {l : List UnitWrite} : Keeps s (t.queCommit u n l).1 := by
  induction l generalizing t u n with
  | nil => exact h
  | cons x l ih => exact .ite_fst (ih h.commitUnit.mirrored) h.commitUnit.mirrored.dropUnits

theorem Walk.queWrite (h : Keeps s t) {u : StackReq} {bs : List Byte} : Keeps s (t.queWrite u bs).1 := by
  unfold State.queWrite
  split
  · split
    · exact h.prepWrites.of_eq ‹_›
    · exact h.prepWrites.of_eq ‹_›
    · exact (h.prepWrites.of_eq ‹_›).queCommit
  · split
    · exact h.tryWriteMem.of_eq ‹_›
    · exact .ite_fst (h.tryWriteMem.of_eq ‹_›).mirrored (h.tryWriteMem.of_eq ‹_›)

theorem Walk.queCopyTo (h : Keeps s t) {q : Nat} {k : QCmd} : Keeps s (t.queCopyTo q k) := by
  unfold State.queCopyTo
  split
  · exact h.emit.queDone
  · split
    · exact h.queWrite.of_eq ‹_›
    · exact .ite (h.queWrite.of_eq ‹_›).queDone (h.queWrite.of_eq ‹_›).queFail

theorem Walk.queCopyFrom (h : Keeps s t) {q : Nat} {k : QCmd} {bs : List Byte} : Keeps s (t.queCopyFrom q k bs) :=
  h.setQue.queCopyTo

theorem Walk.queCopyLocal (h : Keeps s t) {q : Nat} {k : QCmd} {bs : List Byte} : Keeps s (t.queCopyLocal q k bs) :=
  (Walk.ite h.congr h).queCopyFrom

theorem execQueueCopy_completes {q n : Nat} {host : List Byte} : Completes t (execQueueCopy q n host t) := by
  unfold execQueueCopy
  refine onQueue_completes ?_
  split
  · exact .self
  · split
    · exact Walk.self.queFail
    · split
      · exact .self
      · split
        · exact Walk.self.queCopyTo
        · split
          · exact .ite Walk.self.queCopyFrom .self
          · split
            · exact Walk.self.tryReadMem.of_eq ‹_›
            · exact .ite (Walk.self.tryReadMem.of_eq ‹_›).queFail (.ite (Walk.self.tryReadMem.of_eq ‹_›).queCopyFrom (Walk.self.tryReadMem.of_eq ‹_›).queCopyLocal)

theorem execCqPost_completes {q : Nat} : Completes t (execCqPost q t) := by
  unfold execCqPost
  dsimp only
  refine onQueue_completes ?_
  split
  · exact .self
  · exact .ite .self (Walk.ite Walk.self.emit.emit Walk.self.emit).setFld.setQue.queStopped

theorem execCqWriteError_completes {q : Nat} : Completes t (execCqWriteError q t) := by
  unfold execCqWriteError
  dsimp only
  refine onQueue_completes ?_
  split
  · exact .self
  · exact .ite .self (Walk.ite Walk.self.setQue.queError Walk.self.setQue).queStopped

theorem Walk.farFail (h : Keeps s t) {r : FarReq} {st : Nat} : Keeps s (t.farFail r st) := h.cxlLog.modDma

theorem Walk.farData (h : Keeps s t) {r : FarReq} {bs : List Byte} : Keeps s (t.farData r bs) := by
  unfold State.farData
  dsimp only
  split
  · exact h
  · exact .ite (.ite h.farSend h.farFail) h.modDma

theorem Walk.farAnswer (h : Keeps s t) {n : Nat} {k : FarReq → State → State} (hk : ∀ r u, Keeps s u → Keeps s (k r u)) :
    Keeps s (t.farAnswer n k) := by
  unfold State.farAnswer
  split
  · exact h
  · exact .ite h.setFar.incFld (.ite h.setFar (hk _ _ h.setFar))

theorem execFarTierResponse_completes {n : Nat} {r : FarEnd} : Completes t (execFarTierResponse n r t) := by
  unfold execFarTierResponse
  refine .next ?_
  split
  · exact .ite (Walk.self.farAnswer fun _ _ h => h.modDma) (.ite (Walk.self.farAnswer fun _ _ h => h.farData) .self)
  · exact Walk.self.farAnswer fun _ _ h => h.farFail
  · exact Walk.self.farAnswer fun _ _ h => h.farFail
  · exact .self

theorem execFarTierTimeout_completes {n : Nat} : Completes t (execFarTierTimeout n t) :=
  .next (.ite .self (Walk.self.farAnswer fun _ _ h => h.farFail))

theorem execLinkUp_completes {full : Bool} {width rate : Nat} : Completes t (execLinkUp full width rate t) :=
  .ite (.next (.ite .self Walk.self.setRbit.setFld.setFld.setFld)) (.next .self)

theorem Walk.cutQueue (h : Keeps s t) {q : Nat} : Keeps s (t.cutQueue q) := h.setQue.setRbit.setFld.setFld

theorem Walk.cutHost (h : Keeps s t) : Keeps s (t.cutHost) := h.foldl fun _ _ h => h.modStk

/-- What the host link leaves. -/
theorem Walk.withHostGone (h : Keeps s t) {a : List Nat} {b : List Snoop} {c : List Byte} {d : Firmware} :
    Keeps s { t with trk := a, snoops := b, ideKeys := c, fw := d } := h.congr

theorem Walk.withIdeStop (h : Keeps s t) {b : Bool} : Keeps s { t with ideStop := b } := h.congr

theorem Walk.withIdeStopRange (h : Keeps s t) {b : Bool} {r : Nat} : Keeps s { t with ideStop := b, range := r } := h.congr

theorem Walk.cutLink (h : Keeps s t) : Keeps s (t.cutLink) := by
  unfold State.cutLink
  exact ((h.foldl fun _ _ h => h.cutQueue).cutHost.setFar.foldl fun _ _ h => .ite h.late h.farFail).setRbit.withHostGone

theorem execLinkDown_completes : Completes t (execLinkDown t) :=
  .next (.ite Walk.self.cutLink.withIdeStopRange.setRbit.setFld.setFld.setFld.goOn .self)

theorem execCxlReset_completes : Completes t (execCxlReset t) :=
  .next (.ite Walk.self.cutLink.goOn .self)

theorem execIdeFail_completes : Completes t (execIdeFail t) :=
  .next (.ite Walk.self.bump.setRbit.withIdeStop.cxlLog .self)

theorem execHostSnoop_completes {line : Nat} : Completes t (execHostSnoop line t) :=
  .next (.ite Walk.self.emit .self)

theorem Walk.setBankState (h : Keeps s t) {b v : Nat} : Keeps s (t.setBankState b v) := h.setFld

theorem Walk.setFw (h : Keeps s t) {w : Firmware} : Keeps s (t.setFw w) := h.congr

theorem Walk.setImage (h : Keeps s t) {b : Nat} {img : List Byte} : Keeps s (t.setImage b img) := h.setFw

theorem Walk.fwEnd (h : Keeps s t) {err : Nat} : Keeps s (t.fwEnd err) := h.setRbit.setRbit.setFld.setFld

theorem Walk.stageStart (h : Keeps s t) {b : Nat} {relay : Option (Nat × Nat)} : Keeps s (t.stageStart b relay) :=
  h.setFw.setImage.setBankState.setRbit.setFld

theorem Walk.stageEnd (h : Keeps s t) {b err : Nat} : Keeps s (t.stageEnd b err) := h.setFw.setBankState.fwEnd

theorem Walk.stageBytes (h : Keeps s t) {g : Staging} {off : Nat} {bs : List Byte} : Keeps s (t.stageBytes g off bs).1 := by
  unfold State.stageBytes
  dsimp only
  split
  · exact h
  · exact .ite_fst h (.ite_fst h h.setFw)

theorem Walk.stageFinish (h : Keeps s t) {g : Staging} : Keeps s (t.stageFinish g).1 :=
  (Walk.ite h.setImage h).stageEnd

theorem Walk.mbDone (h : Keeps s t) {opcode : Nat} {r : MbRet} {data : List Byte} : Keeps s (t.mbDone opcode r data) :=
  h.emit.emit

theorem mailbox_completes {opcode : Nat} {firmware : Bool} {k : State → State} (hk : Keeps t (k t)) :
    Completes t (t.mailbox opcode firmware k) :=
  .next (.ite .self (.ite Walk.self.mbDone (.ite Walk.self.mbDone hk)))

theorem Walk.transferStart (h : Keeps s t) {b : Nat} {full : Bool} {bs : List Byte} : Keeps s (t.transferStart b full bs) := by
  unfold State.transferStart
  dsimp only
  split
  · exact h.stageStart.stageEnd.mbDone
  · split
    · exact (h.stageStart.stageBytes.of_eq ‹_›).stageEnd.mbDone
    · exact .ite (h.stageStart.stageBytes.of_eq ‹_›).stageFinish.mbDone (h.stageStart.stageBytes.of_eq ‹_›).mbDone

theorem Walk.transferMore (h : Keeps s t) {b : Nat} {last : Bool} {off : Nat} {bs : List Byte} :
    Keeps s (t.transferMore b last off bs) := by
  unfold State.transferMore
  split
  · exact h.mbDone
  · split
    · exact h.mbDone
    · split
      · exact (h.stageBytes.of_eq ‹_›).stageEnd.mbDone
      · exact .ite (h.stageBytes.of_eq ‹_›).stageFinish.mbDone (h.stageBytes.of_eq ‹_›).mbDone

theorem Walk.transfer (h : Keeps s t) {slot action off : Nat} {bs : List Byte} : Keeps s (t.transfer slot action off bs) := by
  unfold State.transfer
  dsimp only
  split
  · exact h.mbDone
  · split
    · exact h.transferMore
    · exact h.transferMore
    · split
      · exact .ite h.stageEnd.mbDone h.mbDone
      · exact h.mbDone
    · exact .ite h.mbDone (.ite h.mbDone (.ite h.mbDone (.ite h.mbDone h.transferStart)))

theorem execTransferFw_completes {slot action off : Nat} {data : List Byte} :
    Completes t (execTransferFw slot action off data t) :=
  .ite (.next .self) (mailbox_completes Walk.self.transfer)

theorem Walk.relayAck (h : Keeps s t) {q session next : Nat} : Keeps s (t.relayAck q session next) := h.sendPacket

theorem Walk.relayResult (h : Keeps s t) {q session err : Nat} : Keeps s (t.relayResult q session err) := h.sendPacket

theorem Walk.relayNo (h : Keeps s t) {q : Nat} {p : Packet} : Keeps s (t.relayNo q p) := h.relayAck.relayResult

theorem Walk.relayFree (h : Keeps s t) {q : Nat} : Keeps s (t.relayFree q) := h.modPort

theorem Walk.relayPump (h : Keeps s t) {n : Nat} : Keeps s (t.relayPump n) := by
  induction n generalizing t  with
  | zero => exact h
  | succ n ih =>
    unfold State.relayPump
    dsimp only
    split
    · exact h
    · exact .ite h (ih h.sendPacket.modPort.setFw)

theorem Walk.relayStart (h : Keeps s t) : Keeps s (t.relayStart) := .ite h h.setFw.setRbit.relayPump

theorem Walk.writeRelayCfg (h : Keeps s t) {v : Nat} : Keeps s (t.writeRelayCfg v) :=
  .ite h.setReg.relayStart h.setReg

theorem execRelaySend_completes {v : Word32} : Completes t (execRelaySend v t) :=
  .next Walk.self.writeRelayCfg

theorem Walk.relayDone (h : Keeps s t) {q session err : Nat} : Keeps s (t.relayDone q session err) :=
  h.setFw.setRbit.setRbit.setFld.relayResult

theorem Walk.setNext (h : Keeps s t) {n : Nat} : Keeps s (t.setNext n) := h.setFld

theorem Walk.relayTake (h : Keeps s t) {q : Nat} {p : Packet} {g : Staging} : Keeps s (t.relayTake q p g) := by
  unfold State.relayTake
  dsimp only
  split
  · exact h.relayAck
  · split
    · exact (h.stageBytes.of_eq ‹_›).stageEnd.relayAck.relayDone
    · exact .ite (h.stageBytes.of_eq ‹_›).setNext.stageEnd.relayAck.relayDone (.ite (.ite (h.stageBytes.of_eq ‹_›).setNext.stageFinish.relayAck.relayDone.relayStart (h.stageBytes.of_eq ‹_›).setNext.stageFinish.relayAck.relayDone) (h.stageBytes.of_eq ‹_›).setNext.relayAck)

theorem Walk.relayData (h : Keeps s t) {q : Nat} {p : Packet} : Keeps s (t.relayData q p) := by
  unfold State.relayData
  dsimp only
  split
  · exact .ite h.relayTake (.ite h.relayAck (.ite (.ite h.stageEnd.relayNo h.stageEnd.stageStart.setNext.setRbit.setFld.relayTake) h.relayNo))
  · exact .ite h.relayAck (.ite (.ite h.relayNo h.stageStart.setNext.setRbit.setFld.relayTake) h.relayAck)

theorem Walk.relayDataIn (h : Keeps s t) {port : Nat} {p : Packet} : Keeps s (t.relayDataIn port p) :=
  .ite h.relayFree.relayData h.relayFree.relayNo

theorem Walk.relayAckIn (h : Keeps s t) {port : Nat} {p : Packet} : Keeps s (t.relayAckIn port p) := by
  unfold State.relayAckIn
  dsimp only
  split
  · exact .ite h.modPort.setFw.relayPump h.modPort.relayPump
  · exact h.modPort

theorem Walk.relayResultIn (h : Keeps s t) {port : Nat} {p : Packet} : Keeps s (t.relayResultIn port p) := by
  unfold State.relayResultIn
  dsimp only
  split
  · exact .ite h.setFw.setRbit.setRbit.setFld h
  · exact h

theorem Walk.relayAbortIn (h : Keeps s t) {port : Nat} {p : Packet} : Keeps s (t.relayAbortIn port p) := by
  unfold State.relayAbortIn
  dsimp only
  split
  · exact .ite h.relayFree.stageEnd.setRbit.setFw.setRbit.setFld h.relayFree
  · exact h.relayFree

theorem execRelayAckTimeout_completes : Completes t (execRelayAckTimeout t) := by
  unfold execRelayAckTimeout
  dsimp only
  refine .next ?_
  split
  · exact Walk.self.modPort.setFw.relayPump
  · exact .self

theorem Walk.actResult (h : Keeps s t) {asker session err : Nat} : Keeps s (t.actResult asker session err) :=
  .ite h.mbDone (.ite h.relayResult h)

theorem Walk.actStart (h : Keeps s t) {b asker session : Nat} : Keeps s (t.actStart b asker session) :=
  h.setFw.setRbit.setFld.setFld

theorem Walk.actRefuse (h : Keeps s t) {asker session err : Nat} : Keeps s (t.actRefuse asker session err) :=
  (Walk.ite h.setRbit.setFld h).actResult

theorem Walk.activate (h : Keeps s t) {b : Nat} {atReset : Bool} {asker session : Nat} :
    Keeps s (t.activate b atReset asker session) :=
  .ite h.actRefuse (.ite h.setFw.actResult (.ite h.actRefuse (.ite h.actRefuse (.ite h.actRefuse (.ite h.actRefuse h.actStart)))))

theorem execActivateFw_completes {slot : Nat} {atReset : Bool} : Completes t (execActivateFw slot atReset t) :=
  mailbox_completes (.ite Walk.self.mbDone Walk.self.activate)

theorem Walk.relayActivateIn (h : Keeps s t) {port : Nat} {p : Packet} : Keeps s (t.relayActivateIn port p) :=
  .ite h.relayFree.relayResult h.relayFree.activate

theorem Walk.linkLocal (h : Keeps s t) {port : Nat} {p : Packet} : Keeps s (t.linkLocal port p) := by
  unfold State.linkLocal
  dsimp only
  split
  · exact h
  · split
    · exact h.incFld
    · split
      · exact h.niLog
      · split
        · exact h.relayDataIn
        · exact h.relayAckIn
        · exact h.relayResultIn
        · exact h.relayActivateIn
        · exact h.relayAbortIn
        · exact h.niLog

theorem relayIn_completes {port msg : Nat} {p : Packet} : Completes t (relayIn port msg p t) :=
  .ite (inRange_completes Walk.self.linkLocal) (.next .self)

theorem execRelayData_completes {port : Nat} {p : Packet} : Completes t (execRelayData port p t) := relayIn_completes

theorem execRelayAck_completes {port : Nat} {p : Packet} : Completes t (execRelayAck port p t) := relayIn_completes

theorem execRelayResult_completes {port : Nat} {p : Packet} : Completes t (execRelayResult port p t) :=
  relayIn_completes

theorem execRelayAbort_completes {port : Nat} {p : Packet} : Completes t (execRelayAbort port p t) := relayIn_completes

theorem execRelayActivate_completes {port : Nat} {p : Packet} : Completes t (execRelayActivate port p t) :=
  relayIn_completes

theorem Walk.commitFw (h : Keeps s t) : Keeps s (t.commitFw) := .ite h (.ite h.setRbit.setFld h.setRbit)

theorem Walk.writeFwCtrl (h : Keeps s t) {v : Nat} : Keeps s (t.writeFwCtrl v) :=
  .ite (Walk.ite h.setReg.commitFw h.setReg).activate (.ite h.setReg.commitFw h.setReg)

theorem execFwCommit_completes : Completes t (execFwCommit t) := .next Walk.self.writeFwCtrl

theorem execFwActivateOnline_completes {v : Word32} : Completes t (execFwActivateOnline v t) :=
  .next Walk.self.writeFwCtrl

theorem execFwActivateAtReset_completes {v : Word32} : Completes t (execFwActivateAtReset v t) :=
  .next Walk.self.writeFwCtrl

theorem Walk.leaveUnit (h : Keeps s t) {step : Nat} : Keeps s (t.leaveUnit step) :=
  .ite (h.setFw.foldl fun _ _ h => h.record) (.ite h.runFails h)

theorem Walk.toUnit (h : Keeps s t) {old : Nat} {x : Nat × Nat} : Keeps s (t.toUnit old x) := h.setFld.setFld.leaveUnit

theorem Walk.actEnd (h : Keeps s t) {m : Moving} {old err : Nat} : Keeps s (t.actEnd m old err) :=
  (Walk.ite h.setFw.toUnit.fwEnd.setFw.setRbit.setFld.setFld h.setFw.toUnit.fwEnd.setRbit).actResult

theorem execUnitRestartComplete_completes {passed : Bool} : Completes t (execUnitRestartComplete passed t) := by
  unfold execUnitRestartComplete
  dsimp only
  refine .next ?_
  split
  · exact .self
  · split
    · exact .self
    · split
      · split
        · exact Walk.self.toUnit
        · exact Walk.self.actEnd
      · split
        · split
          · exact Walk.self.toUnit
          · exact Walk.self.actEnd
        · exact Walk.self.setFw

theorem Walk.dropStaged (h : Keeps s t) : Keeps s (t.dropStaged) := h.foldl fun _ _ h => .ite h.setBankState h

theorem Walk.setLms (h : Keeps s t) {n : Nat} : Keeps s (t.setLms n) := h.setFld.setRbit.setRbit

theorem Walk.bootFrom (h : Keeps s t) {b : Nat} : Keeps s (t.bootFrom b) :=
  ((h.setFld.setFld.foldl fun _ _ h => h.setCbit).foldl fun _ _ h => h.applyMap).setLms.setRbit.cxlUp

theorem execDroverBoot_completes : Completes t (execDroverBoot t) :=
  .next (.ite .self (.ite (Walk.ite Walk.self.dropStaged.setFw.setRbit Walk.self.dropStaged).bootFrom (.ite (Walk.ite Walk.self.dropStaged.setFw.setRbit Walk.self.dropStaged).bootFrom (Walk.ite Walk.self.dropStaged.setFw.setRbit Walk.self.dropStaged).setFw.cxlUp)))

theorem Walk.fwRefuse (h : Keeps s t) : Keeps s (t.fwRefuse) := h.setRbit

theorem Walk.writeFoldKey (h : Keeps s t) {v : Nat} : Keeps s (t.writeFoldKey v) :=
  .ite h.setFld (.ite h.setFld.fwRefuse (.ite (.ite (Walk.ite h.setFld.setFw.setRbit h.setFld).runEnrol (Walk.ite h.setFld.setFw.setRbit h.setFld).fwRefuse) (.ite h.setFld.setFw.setRbit h.setFld)))

theorem execFoldKeyEnrol_completes {v : Word64} : Completes t (execFoldKeyEnrol v t) :=
  .next Walk.self.writeFoldKey

theorem execFoldKeyClear_completes {v : Word64} : Completes t (execFoldKeyClear v t) :=
  .next Walk.self.writeFoldKey

theorem Walk.writePolicy (h : Keeps s t) {v : Nat} : Keeps s (t.writePolicy v) :=
  .ite (Walk.ite h (.ite h.setRbit h.fwRefuse)).setRbit (.ite h (.ite h.setRbit h.fwRefuse))

theorem execPolicyWrite_completes {v : Word32} : Completes t (execPolicyWrite v t) :=
  .next Walk.self.writePolicy

theorem Walk.takePackets (h : Keeps s t) {q : Nat} {ps : List (Packet × Bool)} : Keeps s (t.takePackets q ps) :=
  h.foldl fun _ _ h => .ite h.linkLocal h.portArrival

theorem Walk.takeFlitWord (h : Keeps s t) {q : Nat} {bs : List Byte} {bad : Bool} : Keeps s (t.takeFlitWord q bs bad) :=
  h.modPort.takePackets

theorem Walk.countCorrected (h : Keeps s t) {q : Nat} {js errs : List Nat} : Keeps s (t.countCorrected q js errs) := by
  unfold State.countCorrected
  exact h.addFld.modPort

theorem execCodewordDecode_completes {port : Nat} {slots : List Nat} {lanes : List (List (BitVec 10))} :
    Completes t (execCodewordDecode port slots lanes t) := by
  unfold execCodewordDecode
  dsimp only
  refine inRange_completes ?_
  split
  · exact .self
  · split
    · exact .ite Walk.self.rxStep.incFld Walk.self.rxStep.incFld.takeFlitWord
    · exact .ite Walk.self.rxStep.countCorrected.takeFlitWord (.ite Walk.self.rxStep.countCorrected.takeControl Walk.self.rxStep.countCorrected)

theorem execGetEventRecords_completes : Completes t (execGetEventRecords t) := mailbox_completes Walk.self.mbDone

theorem execClearEventRecords_completes : Completes t (execClearEventRecords t) :=
  mailbox_completes Walk.self.setRbit.setRbit.mbDone

theorem execGetEventInterruptPolicy_completes : Completes t (execGetEventInterruptPolicy t) :=
  mailbox_completes Walk.self.mbDone

theorem execSetEventInterruptPolicy_completes {v : Byte} : Completes t (execSetEventInterruptPolicy v t) :=
  mailbox_completes (Walk.self.congr).mbDone

theorem execGetFwInfo_completes : Completes t (execGetFwInfo t) := mailbox_completes Walk.self.mbDone

theorem execGetSupportedLogs_completes : Completes t (execGetSupportedLogs t) := mailbox_completes Walk.self.mbDone

theorem execGetLog_completes {req : List Byte} : Completes t (execGetLog req t) :=
  mailbox_completes (.ite Walk.self.mbDone Walk.self.mbDone)

theorem execMailboxUnsupported_completes {opcode : Nat} : Completes t (execMailboxUnsupported opcode t) :=
  .ite (.next .self) (mailbox_completes Walk.self.mbDone)

theorem execMctpSetEndpointId_completes {eid : Byte} : Completes t (execMctpSetEndpointId eid t) :=
  .next (.ite (Walk.self.congr).emit .self)

theorem execPldmRequest_completes {req : List Byte} : Completes t (execPldmRequest req t) :=
  .next (.ite .self (Walk.ite (Walk.self.congr) .self).emit)

theorem execNiPacketSend_completes {share : Nat} : Completes t (execNiPacketSend share t) :=
  inRange_completes (.ite Walk.self.sendNext.goOn .self)

theorem execResponse_completes {p : Packet} : Completes t (execResponse p t) :=
  onPacket_completes (Walk.self.arriveRsp fun _ h => h.takeResponse).goOn

theorem execResendIntervalExpiry_completes {tag : Nat} : Completes t (execResendIntervalExpiry tag t) :=
  .next Walk.self.resendExpiry.goOn

theorem execDeferredBackoffExpiry_completes {tag : Nat} : Completes t (execDeferredBackoffExpiry tag t) :=
  .next Walk.self.backoffExpiry.goOn

theorem execTagDeadlineExpiry_completes {tag : Nat} : Completes t (execTagDeadlineExpiry tag t) :=
  .next Walk.self.tagDeadline.goOn

theorem execNiPairReset_completes {v : Word64} : Completes t (execNiPairReset v t) :=
  .next Walk.self.pairReset.goOn

theorem Walk.setConn (h : Keeps s t) {t' : Transport} {k : Conn} : Keeps s (t.setConn t' k) := h.congr

theorem spdm_completes {k : State → State} (hk : Keeps t (k t)) : Completes t (t.spdm k) := .next (.ite hk .self)

theorem Walk.reply (h : Keeps s t) {t' : Transport} {name : String} {bs : List Byte} : Keeps s (t.reply t' name bs) :=
  h.emit

theorem execGetVersion_completes {t' : Transport} {req : List Byte} : Completes t (execGetVersion t' req t) :=
  spdm_completes Walk.self.reply

theorem execGetCapabilities_completes {t' : Transport} {req : List Byte} : Completes t (execGetCapabilities t' req t) :=
  spdm_completes Walk.self.reply

theorem execNegotiateAlgorithms_completes {t' : Transport} {req : List Byte} : Completes t (execNegotiateAlgorithms t' req t) :=
  spdm_completes Walk.self.reply

theorem execGetDigests_completes {t' : Transport} {req : List Byte} : Completes t (execGetDigests t' req t) :=
  spdm_completes Walk.self.reply

theorem execGetCertificate_completes {t' : Transport} {req : List Byte} : Completes t (execGetCertificate t' req t) :=
  spdm_completes Walk.self.reply

theorem Walk.signed (h : Keeps s t) {t' : Transport} {name : String} {bs : List Byte} : Keeps s (t.signed t' name bs) :=
  h.bump.setConn.reply

theorem execChallenge_completes {t' : Transport} {req : List Byte} : Completes t (execChallenge t' req t) :=
  spdm_completes Walk.self.signed

theorem execGetMeasurements_completes {t' : Transport} {signed : Bool} {req : List Byte} :
    Completes t (execGetMeasurements t' signed req t) :=
  spdm_completes (.ite Walk.self.signed Walk.self.reply)

theorem execKeyExchange_completes {t' : Transport} {req : List Byte} : Completes t (execKeyExchange t' req t) :=
  spdm_completes Walk.self.setConn.reply

theorem Walk.programIde (h : Keeps s t) {keys : List Byte} : Keeps s (t.programIde keys) :=
  .ite h h.congr.setRbit

theorem execFinish_completes {t' : Transport} {req : FinishReq} : Completes t (execFinish t' req t) :=
  spdm_completes (.ite Walk.self.setConn.programIde.reply Walk.self.reply)

theorem execEndSession_completes {t' : Transport} {req : List Byte} : Completes t (execEndSession t' req t) :=
  spdm_completes (.ite Walk.self.reply Walk.self.setConn.reply)

theorem execGetLmsCert_completes {t' : Transport} {off : Nat} : Completes t (execGetLmsCert t' off t) :=
  spdm_completes Walk.self.reply

theorem Walk.lmsSign (h : Keeps s t) {t' : Transport} {script : List Byte} : Keeps s (t.lmsSign t' script) :=
  (Walk.ite h.setFw h).setConn.setLms

theorem Walk.lmsAnswer (h : Keeps s t) {t' : Transport} : Keeps s (t.lmsAnswer t') := by
  unfold State.lmsAnswer
  split
  · exact h.reply
  · exact h

theorem execGetLmsSig_completes {t' : Transport} : Completes t (execGetLmsSig t' t) := by
  unfold execGetLmsSig
  refine spdm_completes ?_
  split
  · exact Walk.self.reply
  · exact .ite Walk.self.lmsAnswer (.ite Walk.self.reply Walk.self.lmsSign.lmsAnswer)

theorem Walk.after (h : Keeps s t) {o : Out} (ho : Completes t o) : Keeps s (t.after o) := by
  obtain ⟨u, rfl, hu⟩ := ho
  exact h.trans hu

theorem Walk.plainWrite (h : Keeps s t) {r : Reg} {i j v : Nat} : Keeps s (t.plainWrite r i j v) := h.setReg

theorem Walk.coreBits (h : Keeps s t) {lo hi : Reg} {f base n v : Nat} : Keeps s (t.coreBits lo hi f base n v) :=
  h.foldl fun _ _ h => h.restartBit

theorem Walk.writeKlnCtrl (h : Keeps s t) {v : Nat} : Keeps s (t.writeKlnCtrl v) := by
  unfold State.writeKlnCtrl
  dsimp only
  split
  · exact h.after execKlnCtrlAbort_completes
  · exact h.after execKlnCtrlReset_completes
  · exact h

theorem Walk.writePortCtrl (h : Keeps s t) {q v : Nat} : Keeps s (t.writePortCtrl q v) := by
  unfold State.writePortCtrl
  have hopened : Keeps s (if t.rbit .hthPortCtrl (q / 4) (q % 4) 1 = true then t.after (execPortEnable q t) else t) :=
    .ite (h.after execPortEnable_completes) h
  exact .ite (.ite h (h.after execPortDisable_completes)) (.ite (hopened.after execPortRetrainWrite_completes) hopened)

theorem Walk.writeBase (h : Keeps s t) {r : Reg} {q v : Nat} : Keeps s (t.writeBase r q v) :=
  .ite h.plainWrite h

theorem Walk.writeReg (h : Keeps s t) {o : Origin} {r : Reg} {i j v : Nat} : Keeps s (t.writeReg o r i j v) := by
  unfold State.writeReg
  split
  · exact h.writeFoldCtrl
  · exact h.writeRank
  · exact h.writeResetCtrl
  · exact .ite (h.after execEventPop_completes) h
  · exact h.after execDrvRetire_completes
  · exact h.after execDrvDeclare_completes
  · exact h.shadowWrite
  · exact h.writeThmCfg
  · exact h.writeFwCtrl
  · exact h.writePolicy
  · exact h.writeFoldKey
  · exact h.writeRelayCfg
  · exact .ite h h.plainWrite
  · exact h.writeBase
  · exact h.writeBase
  · exact h.writeQueue
  · exact h.ringSq
  · exact h.ringCq
  · exact h.after execNiPairReset_completes
  · exact h.after execKlnSubmit_completes
  · exact h.submitBy
  · exact h.writeKlnCtrl
  · exact h.writePortCtrl
  · exact h.coreBits
  · exact h.coreBits
  · exact h.coreBits
  · exact h.coreBits
  · exact .ite (h.after execWipe_completes) h
  · exact h.plainWrite

theorem Walk.pathLog (h : Keeps s t) {o : Origin} {a st : Nat} : Keeps s (t.pathLog o a st) := .ite h.cxlLog h

theorem Walk.regFault (h : Keeps s t) {o : Origin} {a : Nat} : Keeps s (t.regFault o a) := h.pathLog.ownerLog

theorem Walk.writeFailed (h : Keeps s t) {o : Origin} {a st : Nat} : Keeps s (t.writeFailed o a st) :=
  .ite h.emit h

theorem Walk.access (h : Keeps s t) {o : Origin} {a width : Nat} {wr : Option Nat} : Keeps s (t.access o a width wr) := by
  unfold State.access
  split
  · exact .ite h.ownerLog h.writeReg
  · exact h.regFault.writeFailed
  · exact h.readReg.emit
  · exact h.regFault.emit

theorem execRegisterWrite_completes {o : Origin} {addr width : Nat} {v : Word64} :
    Completes t (execRegisterWrite o addr width v t) :=
  .next (.ite Walk.self.access .self)

theorem execRcRead_completes {o : Origin} {addr width : Nat} : Completes t (execRcRead o addr width t) :=
  .next (.ite Walk.self.access .self)

theorem execBar0Access_completes {off width : Nat} {wr : Option Word64} : Completes t (execBar0Access off width wr t) :=
  .next (.ite Walk.self.access .self)

theorem execSigadd_completes {f c : Nat} {w : Word64} : Completes t (execSigadd f c w t) := by
  unfold execSigadd
  dsimp only
  refine issue_completes ?_
  split
  · exact Walk.self.memFault
  · exact .ite Walk.self.addSignal.retS Walk.self.addSignal.precise

theorem execSigrd_completes {f c : Nat} {w : Word64} : Completes t (execSigrd f c w t) := by
  unfold execSigrd
  refine issue_completes ?_
  split
  · exact Walk.self.memFault
  · exact (Walk.self.modCore fun _ hk => hk.setPair).advance

theorem execSiginit_completes {f c : Nat} {w : Word64} : Completes t (execSiginit f c w t) := by
  unfold execSiginit
  dsimp only
  refine issue_completes ?_
  split
  · exact Walk.self.memFault
  · exact Walk.self.setSigWord.advance

theorem execWait_completes {f c : Nat} {w : Word64} : Completes t (execWait f c w t) := by
  unfold execWait
  dsimp only
  refine issue_completes ?_
  split
  · exact Walk.self.memFault
  · exact .ite Walk.self.sigLog.precise Walk.self.advance.modCore

theorem execWaitPoll_completes {f c : Nat} : Completes t (execWaitPoll f c t) := by
  unfold execWaitPoll
  refine onCore_completes ?_
  split
  · exact .ite Walk.self.modCore .self
  · exact .self

theorem Walk.endWait (h : Keeps s t) {f c : Nat} {w : Wait} {status : Nat} : Keeps s (t.endWait f c w status) :=
  h.modCore fun _ hk => (hk.setS : Core.Bounded _)

theorem execWaitSatisfied_completes {f c : Nat} : Completes t (execWaitSatisfied f c t) := by
  unfold execWaitSatisfied
  refine onCore_completes ?_
  split
  · exact .ite Walk.self.endWait .self
  · exact .self

theorem execWaitExpiry_completes {f c : Nat} : Completes t (execWaitExpiry f c t) := by
  unfold execWaitExpiry
  refine onCore_completes ?_
  split
  · exact .ite .self Walk.self.endWait
  · exact .self

theorem Core.Bounded.setLanes {k : Core} (h : k.Bounded) {v : Nat} {xs : List Nat} : (k.setLanes v xs).Bounded :=
  h.foldl fun _ _ hk => hk

theorem Walk.retV (h : Keeps s t) {f c v : Nat} {ls : List Nat} : Keeps s (t.retV f c v ls) :=
  (h.modCore fun _ hk => hk.setLanes).advance

theorem execVop_completes {f c : Nat} {w : Word64} : Completes t (execVop f c w t) := issue_completes Walk.self.retV

theorem execVops_completes {f c : Nat} {w : Word64} : Completes t (execVops f c w t) := issue_completes Walk.self.retV

theorem execVfma_completes {f c : Nat} {w : Word64} : Completes t (execVfma f c w t) := issue_completes Walk.self.retV

theorem execVld_completes {f c : Nat} {w : Word64} : Completes t (execVld f c w t) := by
  unfold execVld
  dsimp only
  refine issue_completes ?_
  split
  · exact Walk.self.fmtFault
  · split
    · exact Walk.self.memFault
    · exact Walk.self.retV

theorem execVst_completes {f c : Nat} {w : Word64} : Completes t (execVst f c w t) := by
  unfold execVst
  dsimp only
  refine issue_completes ?_
  split
  · exact Walk.self.fmtFault
  · split
    · exact Walk.self.memFault
    · exact Walk.self.wrPlace.advance

theorem execVred_completes {f c : Nat} {w : Word64} : Completes t (execVred f c w t) := issue_completes Walk.self.retS

theorem execVlane_completes {f c : Nat} {w : Word64} : Completes t (execVlane f c w t) := by
  unfold execVlane
  dsimp only
  refine issue_completes ?_
  split
  · exact Walk.self.modCore.advance
  · exact Walk.self.retS
  · exact Walk.self.retV

theorem execVmxq_completes {f c : Nat} {w : Word64} : Completes t (execVmxq f c w t) := by
  unfold execVmxq
  dsimp only
  refine issue_completes ?_
  split
  · exact Walk.self.fmtFault
  · split
    · exact Walk.self.memFault
    · split
      · exact Walk.self.memFault
      · exact Walk.self.wrPlace.wrPlace.advance

/-- Every command completes and keeps all this. -/
theorem exec_completes : ∀ i : Instr, Completes t (exec i t)
  | .alu .. => execAlu_completes
  | .alui .. => execAlui_completes
  | .li .. => execLi_completes
  | .ld .. => execLd_completes
  | .st .. => execSt_completes
  | .br .. => execBr_completes
  | .jal .. => execJal_completes
  | .jr .. => execJr_completes
  | .tixr .. => execTixr_completes
  | .qwait .. => execQwait_completes
  | .qwaitRelease .. => execQwaitRelease_completes
  | .stop .. => execStop_completes
  | .nop .. => execNop_completes
  | .sread .. => execSread_completes
  | .movt .. => execMovt_completes
  | .mft .. => execMft_completes
  | .taddi .. => execTaddi_completes
  | .vop .. => execVop_completes
  | .vops .. => execVops_completes
  | .vfma .. => execVfma_completes
  | .vld .. => execVld_completes
  | .vst .. => execVst_completes
  | .vred .. => execVred_completes
  | .vlane .. => execVlane_completes
  | .vmxq .. => execVmxq_completes
  | .wload .. => execWload_completes
  | .wswap .. => execWswap_completes
  | .stream .. => execStream_completes
  | .drain .. => execDrain_completes
  | .tclr .. => execTclr_completes
  | .accview .. => execAccview_completes
  | .gdrain .. => execGdrain_completes
  | .dma .. => execDma_completes
  | .ratom .. => execRatom_completes
  | .rsig .. => execRsig_completes
  | .rfence .. => execRfence_completes
  | .sigadd .. => execSigadd_completes
  | .sigrd .. => execSigrd_completes
  | .siginit .. => execSiginit_completes
  | .wait .. => execWait_completes
  | .arrayStart .. => execArrayStart_completes
  | .arrayRowFetch .. => execArrayRowFetch_completes
  | .roadRowArrival .. => execRoadRowArrival_completes
  | .roadCreditReturn .. => execRoadCreditReturn_completes
  | .roadTimeout .. => execRoadTimeout_completes
  | .waitPoll .. => execWaitPoll_completes
  | .waitSatisfied .. => execWaitSatisfied_completes
  | .waitExpiry .. => execWaitExpiry_completes
  | .flkCoreHaltWrite .. => execFlkCoreHaltWrite_completes
  | .flkCoreDoneWrite .. => execFlkCoreDoneWrite_completes
  | .coreRestart .. => execCoreRestart_completes
  | .dmaDescriptorStart .. => execDmaDescriptorStart_completes
  | .dmaComplete .. => execDmaComplete_completes
  | .dmaTimeout .. => execDmaTimeout_completes
  | .dmaPushAdmit .. => execDmaPushAdmit_completes
  | .baleReadComplete .. => execBaleReadComplete_completes
  | .foldLoad .. => execFoldLoad_completes
  | .remap .. => execRemap_completes
  | .unload .. => execUnload_completes
  | .pipelineStart .. => execPipelineStart_completes
  | .drvRankWrite .. => execDrvRankWrite_completes
  | .stackWholeBaleRead .. => execStackWholeBaleRead_completes
  | .stackTaggedWrite .. => execStackTaggedWrite_completes
  | .stackUntaggedWrite .. => execStackUntaggedWrite_completes
  | .stackSectorRead .. => execStackSectorRead_completes
  | .stackSectorWrite .. => execStackSectorWrite_completes
  | .stackEntryGrant .. => execStackEntryGrant_completes
  | .refresh .. => execRefresh_completes
  | .scrub .. => execScrub_completes
  | .zeroFill .. => execZeroFill_completes
  | .wipe .. => execWipe_completes
  | .wipeComplete .. => execWipeComplete_completes
  | .writeGateChange .. => execWriteGateChange_completes
  | .heldWriteExpiry .. => execHeldWriteExpiry_completes
  | .peatDescriptorAdmit .. => execPeatDescriptorAdmit_completes
  | .gather .. => execGather_completes
  | .segsum .. => execSegsum_completes
  | .wpool .. => execWpool_completes
  | .optupd .. => execOptupd_completes
  | .kread .. => execKread_completes
  | .kwrite .. => execKwrite_completes
  | .kadd .. => execKadd_completes
  | .peatRowRequest .. => execPeatRowRequest_completes
  | .peatRowData .. => execPeatRowData_completes
  | .deliveryBlock .. => execDeliveryBlock_completes
  | .peatComplete .. => execPeatComplete_completes
  | .cxlMemRead .. => execCxlMemRead_completes
  | .cxlMemWrite .. => execCxlMemWrite_completes
  | .cxlHostEvict .. => execCxlHostEvict_completes
  | .birsp .. => execBirsp_completes
  | .biTimeout .. => execBiTimeout_completes
  | .bar0Access .. => execBar0Access_completes
  | .cxlQsqDb .. => execCxlQsqDb_completes
  | .cxlQcqDb .. => execCxlQcqDb_completes
  | .queueEnable .. => execQueueEnable_completes
  | .queueDisable .. => execQueueDisable_completes
  | .sqFetch .. => execSqFetch_completes
  | .queueNop .. => execQueueNop_completes
  | .queueCopy .. => execQueueCopy_completes
  | .queueSignal .. => execQueueSignal_completes
  | .queueFence .. => execQueueFence_completes
  | .cqPost .. => execCqPost_completes
  | .farTierResponse .. => execFarTierResponse_completes
  | .farTierTimeout .. => execFarTierTimeout_completes
  | .linkUp .. => execLinkUp_completes
  | .linkDown => execLinkDown_completes
  | .cxlReset => execCxlReset_completes
  | .ideFail => execIdeFail_completes
  | .getEventRecords => execGetEventRecords_completes
  | .clearEventRecords => execClearEventRecords_completes
  | .getEventInterruptPolicy => execGetEventInterruptPolicy_completes
  | .setEventInterruptPolicy .. => execSetEventInterruptPolicy_completes
  | .getFwInfo => execGetFwInfo_completes
  | .transferFw .. => execTransferFw_completes
  | .activateFw .. => execActivateFw_completes
  | .getSupportedLogs => execGetSupportedLogs_completes
  | .getLog .. => execGetLog_completes
  | .mailboxUnsupported .. => execMailboxUnsupported_completes
  | .mctpSetEndpointId .. => execMctpSetEndpointId_completes
  | .pldmRequest .. => execPldmRequest_completes
  | .getVersion .. => execGetVersion_completes
  | .getCapabilities .. => execGetCapabilities_completes
  | .negotiateAlgorithms .. => execNegotiateAlgorithms_completes
  | .getDigests .. => execGetDigests_completes
  | .getCertificate .. => execGetCertificate_completes
  | .challenge .. => execChallenge_completes
  | .getMeasurements .. => execGetMeasurements_completes
  | .keyExchange .. => execKeyExchange_completes
  | .finish .. => execFinish_completes
  | .endSession .. => execEndSession_completes
  | .getLmsCert .. => execGetLmsCert_completes
  | .getLmsSig .. => execGetLmsSig_completes
  | .routerPacketArrival .. => execRouterPacketArrival_completes
  | .packetForward .. => execPacketForward_completes
  | .niPacketSend .. => execNiPacketSend_completes
  | .write .. => execWrite_completes
  | .read .. => execRead_completes
  | .atomic .. => execAtomic_completes
  | .signal .. => execSignal_completes
  | .cohFwd .. => execCohFwd_completes
  | .response .. => execResponse_completes
  | .ack .. => execAck_completes
  | .contrib .. => execContrib_completes
  | .relayData .. => execRelayData_completes
  | .relayAck .. => execRelayAck_completes
  | .relayResult .. => execRelayResult_completes
  | .relayActivate .. => execRelayActivate_completes
  | .relayAbort .. => execRelayAbort_completes
  | .relayAckTimeout => execRelayAckTimeout_completes
  | .flagHoldRelease .. => execFlagHoldRelease_completes
  | .resendIntervalExpiry .. => execResendIntervalExpiry_completes
  | .deferredBackoffExpiry .. => execDeferredBackoffExpiry_completes
  | .tagDeadlineExpiry .. => execTagDeadlineExpiry_completes
  | .ackTimerExpiry .. => execAckTimerExpiry_completes
  | .niPairReset .. => execNiPairReset_completes
  | .klnSubmit .. => execKlnSubmit_completes
  | .bucketSubmit .. => execBucketSubmit_completes
  | .redeliverSubmit .. => execRedeliverSubmit_completes
  | .klnCtrlAbort .. => execKlnCtrlAbort_completes
  | .klnCtrlReset .. => execKlnCtrlReset_completes
  | .collectiveStart .. => execCollectiveStart_completes
  | .chunkStart .. => execChunkStart_completes
  | .kilnPacketInject .. => execKilnPacketInject_completes
  | .kilnStallExpiry .. => execKilnStallExpiry_completes
  | .kilnMemoryComplete .. => execKilnMemoryComplete_completes
  | .collectiveEnd .. => execCollectiveEnd_completes
  | .channelRowAccept .. => execChannelRowAccept_completes
  | .chunkComplete .. => execChunkComplete_completes
  | .verifyCompare .. => execVerifyCompare_completes
  | .sealExchangeStart .. => execSealExchangeStart_completes
  | .bucketSeal .. => execBucketSeal_completes
  | .redeliveryEnd .. => execRedeliveryEnd_completes
  | .codewordDecode .. => execCodewordDecode_completes
  | .controlCodeword .. => execControlCodeword_completes
  | .swapReq .. => execSwapReq_completes
  | .swapAck .. => execSwapAck_completes
  | .laserOut .. => execLaserOut_completes
  | .retrain .. => execRetrain_completes
  | .swapSwitch .. => execSwapSwitch_completes
  | .portTrain .. => execPortTrain_completes
  | .trainingFrame .. => execTrainingFrame_completes
  | .trainingRetryExpiry .. => execTrainingRetryExpiry_completes
  | .level1Calibration .. => execLevel1Calibration_completes
  | .ringSweepComplete .. => execRingSweepComplete_completes
  | .pilotToneCheck .. => execPilotToneCheck_completes
  | .serWindowExpiry .. => execSerWindowExpiry_completes
  | .laserFailure .. => execLaserFailure_completes
  | .portRetrainWrite .. => execPortRetrainWrite_completes
  | .portDisable .. => execPortDisable_completes
  | .portEnable .. => execPortEnable_completes
  | .stileChangeComplete .. => execStileChangeComplete_completes
  | .slewGovernorTick .. => execSlewGovernorTick_completes
  | .resetFlock .. => execResetFlock_completes
  | .resetPasture .. => execResetPasture_completes
  | .resetRouterSlice .. => execResetRouterSlice_completes
  | .resetPort .. => execResetPort_completes
  | .resetHearth .. => execResetHearth_completes
  | .resetDevice .. => execResetDevice_completes
  | .drainEnd => execDrainEnd_completes
  | .drainLimitExpiry => execDrainLimitExpiry_completes
  | .creditReturnMessage .. => execCreditReturnMessage_completes
  | .reinitAck .. => execReinitAck_completes
  | .resetPin => execResetPin_completes
  | .powerOn => execPowerOn_completes
  | .powerLoss => execPowerLoss_completes
  | .pllLockLoss .. => execPllLockLoss_completes
  | .pllLock .. => execPllLock_completes
  | .droverBoot => execDroverBoot_completes
  | .pastureRelease .. => execPastureRelease_completes
  | .stackTrainingComplete .. => execStackTrainingComplete_completes
  | .thermalModelUpdate .. => execThermalModelUpdate_completes
  | .sensorReading .. => execSensorReading_completes
  | .powerMeasurement .. => execPowerMeasurement_completes
  | .packagePowerMeasurement .. => execPackagePowerMeasurement_completes
  | .fractionApply .. => execFractionApply_completes
  | .fractionWatchdog .. => execFractionWatchdog_completes
  | .gateDecisionWatchdog .. => execGateDecisionWatchdog_completes
  | .holdWrite .. => execHoldWrite_completes
  | .sensorTrip .. => execSensorTrip_completes
  | .eventPop => execEventPop_completes
  | .drvRetire .. => execDrvRetire_completes
  | .spareSelfTest .. => execSpareSelfTest_completes
  | .musterPeriodicFrame .. => execMusterPeriodicFrame_completes
  | .musterSilenceExpiry .. => execMusterSilenceExpiry_completes
  | .voteExpiry .. => execVoteExpiry_completes
  | .drvDeclare .. => execDrvDeclare_completes
  | .stateArrayError => execStateArrayError_completes
  | .shadowEnable .. => execShadowEnable_completes
  | .shadowDisable .. => execShadowDisable_completes
  | .stepMark => execStepMark_completes
  | .digestComplete => execDigestComplete_completes
  | .fwCommit => execFwCommit_completes
  | .fwActivateOnline .. => execFwActivateOnline_completes
  | .fwActivateAtReset .. => execFwActivateAtReset_completes
  | .unitRestartComplete .. => execUnitRestartComplete_completes
  | .foldKeyEnrol .. => execFoldKeyEnrol_completes
  | .foldKeyClear .. => execFoldKeyClear_completes
  | .policyWrite .. => execPolicyWrite_completes
  | .relaySend .. => execRelaySend_completes
  | .rcRead .. => execRcRead_completes
  | .registerWrite .. => execRegisterWrite_completes
  | .resetPinRelease => execResetPinRelease_completes
  | .railOutOfRange => execRailOutOfRange_completes
  | .hearthLasersStable .. => execHearthLasersStable_completes
  | .ringSetpointReturn .. => execRingSetpointReturn_completes
  | .sqReadError .. => execSqReadError_completes
  | .cqWriteError .. => execCqWriteError_completes
  | .hostSnoop .. => execHostSnoop_completes

/-! ### Commands that name no event of the part (log entry 14) -/

section
variable {s : State} {f c i n : Nat}

theorem onCore_unknown {k : State → State} (h : wfCore f c = false) : onCore f c s k = .next s := by
  rw [onCore, if_neg]
  simpa [wfCore] using h

theorem inRange_unknown {k : State → State} (h : decide (i < n) = false) : inRange i n s k = .next s := by
  rw [inRange, if_neg (of_decide_eq_false h)]

theorem issue_unknown {op : Nat} {w : Word64} {k : State → State} (h : wfInstr op f c w = false) :
    issue op f c w s k = .next s := by
  unfold issue
  split
  · rfl
  · next hop =>
    simp only [ne_eq, not_not] at hop
    exact onCore_unknown (by simpa [wfInstr, hop] using h)

theorem onPort_unknown {q : Nat} {k : State → State} (h : (decide (f < 672) && decide (q < 8)) = false) :
    onPort f q s k = .next s := by
  rw [onPort, if_neg]
  simpa using h

theorem stackReq_unknown {r : StackReq} {align : Nat} {bytesOk : Bool} {acc : StkAcc}
    (h : (wfStack r align && bytesOk) = false) : stackReq r align bytesOk s acc = .next s := by
  rw [stackReq, if_neg]
  simpa [wfStack, and_assoc] using h

theorem onPacket_unknown {op : Nat} {p : Packet} {k : State → State} (h : wfArrives op p = false) :
    onPacket op p s k = .next s := by
  unfold onPacket
  congr 1
  split
  · rfl
  · split
    · simp_all [wfArrives]
    · simp_all [wfArrives]

theorem onPeatOp_unknown {op m : Nat} {k : PeatJob → State → State} (h : wfCore f c = false) : onPeatOp op f c m s k = .next s := by
  unfold onPeatOp onJob
  exact onCore_unknown h

theorem relayIn_unknown {port msg : Nat} {p : Packet} (h : wfRelay msg port p = false) : relayIn port msg p s = .next s := by
  unfold relayIn
  split
  · exact inRange_unknown (by simp_all [wfRelay])
  · rfl

theorem execAlu_unknown {w : Word64} (h : (((opRow (iOp w)).isNone || iOp w == 0x01) && wfCore f c) = false) :
    execAlu f c w s = .next s := by
  refine issue_unknown ?_
  split
  · simp_all [wfInstr]
  · simp_all [wfInstr]

theorem execRefresh_unknown {stack b : Nat} (h : (decide (stack < 12) && decide (b < 2 ^ 14)) = false) :
    execRefresh stack b s = .next s := by
  simp only [Bool.and_eq_false_iff, decide_eq_false_iff_not] at h
  simp only [execRefresh, inRange]
  grind

theorem execScrub_unknown {stack q : Nat} {errs : Errs} (h : (decide (stack < 12) && decide (q < 2 ^ 25)) = false) :
    execScrub stack q errs s = .next s := by
  unfold execScrub inRange
  by_cases hs : stack < 12
  · simp_all
  · rw [if_neg hs]

theorem execCxlMemRead_unknown {x : Nat} {grant : Bool} {errs : Errs} (h : (x % 64 == 0) = false) :
    execCxlMemRead x grant errs s = .next s := if_pos (by simpa using h)

theorem execCxlMemWrite_unknown {x : Nat} {mask : Word64} {data : List Byte} {poison : Bool} {errs : Errs}
    (h : (x % 64 == 0 && data.length == 64) = false) : execCxlMemWrite x mask data poison errs s = .next s :=
  if_pos (by simpa [Decidable.imp_iff_not_or] using h)

theorem execBar0Access_unknown {off width : Nat} {wr : Option Word64} (h : decide (off < 2 ^ 30) = false) :
    execBar0Access off width wr s = .next s := by
  rw [execBar0Access, if_neg fun ho => of_decide_eq_false h ho.1]

theorem execSqFetch_unknown {q : Nat} {entry : List Byte} (h : (entry.length == 64 && decide (q < 16)) = false) :
    execSqFetch q entry s = .next s := by
  unfold execSqFetch
  split
  · rfl
  · exact inRange_unknown (by simp_all)

theorem execLinkUp_unknown {full : Bool} {width rate : Nat}
    (h : ([1, 2, 4, 8].contains width && decide (1 ≤ rate) && decide (rate ≤ 4)) = false) :
    execLinkUp full width rate s = .next s := if_neg (by simpa [and_assoc] using h)

theorem execTransferFw_unknown {slot action off : Nat} {data : List Byte} (h : decide (data.length ≤ 2 ^ 20) = false) :
    execTransferFw slot action off data s = .next s := if_pos (Nat.lt_of_not_le (of_decide_eq_false h))

theorem execMailboxUnsupported_unknown {opcode : Nat} (h : (!mailboxOpcodes.contains opcode) = false) :
    execMailboxUnsupported opcode s = .next s := if_pos (by simpa using h)

theorem execRouterPacketArrival_unknown {slice port : Nat} {mesh : Bool} {p : Packet} {poisoned : Bool}
    (h : wfArrival slice port mesh p = false) : execRouterPacketArrival slice port mesh p poisoned s = .next s := by
  unfold execRouterPacketArrival
  congr 1
  unfold wfArrival at h
  grind

theorem execPacketForward_unknown {slice queue : Nat} (h : ((queueKind queue).isSome && decide (slice < 12)) = false) :
    execPacketForward slice queue s = .next s := by
  unfold execPacketForward
  split
  · rfl
  · exact inRange_unknown (by simp_all)

theorem execControlCodeword_unknown {port : Nat} {w : ControlWord} (h : (w.credits.length == 8 && decide (port < 64)) = false) :
    execControlCodeword port w s = .next s := by
  unfold execControlCodeword
  split
  · rfl
  · exact inRange_unknown (by simp_all)

/-- A command about wavelength or pair `k` of a unit, of which each unit has `m`. -/
theorem guarded_unknown {k m : Nat} {g : State → State} (h : (decide (k < m) && decide (i < n)) = false) :
    (if m ≤ k then .next s else inRange i n s g) = (.next s : Out) := by
  split
  · rfl
  · next hk => exact inRange_unknown (by simpa [Nat.lt_of_not_le hk] using h)

theorem execPllLockLoss_unknown {b : Nat} (h : (pllScope b).isSome = false) : execPllLockLoss b s = .next s := by
  unfold execPllLockLoss
  split
  · rfl
  · simp_all

theorem execPllLock_unknown {b : Nat} (h : (pllScope b).isSome = false) : execPllLock b s = .next s :=
  if_neg (by simp [h])

theorem execThermalModelUpdate_unknown {nodes : List Int} (h : (nodes.length == 233) = false) :
    execThermalModelUpdate nodes s = .next s := if_pos (by simpa using h)

theorem execSensorReading_unknown {readings : List Int} (h : (readings.length == 24) = false) :
    execSensorReading readings s = .next s := if_pos (by simpa using h)

theorem execPowerMeasurement_unknown {rails : List Nat} (h : (rails.length == 712) = false) :
    execPowerMeasurement rails s = .next s := if_pos (by simpa using h)

theorem execSpareSelfTest_unknown {phys : Nat} {passed : Bool} (h : (decide (f < 672) && decide (phys < 128)) = false) :
    execSpareSelfTest f phys passed s = .next s := by
  unfold execSpareSelfTest inRange
  grind

/-- A command that names no event of the part changes nothing. -/
theorem exec_of_unknown (i : Instr) (h : i.known = false) : exec i s = .next s := by
  cases i with
  | alu => exact execAlu_unknown h
  | alui => exact issue_unknown h
  | li => exact issue_unknown h
  | ld => exact issue_unknown h
  | st => exact issue_unknown h
  | br => exact issue_unknown h
  | jal => exact issue_unknown h
  | jr => exact issue_unknown h
  | tixr => exact issue_unknown h
  | qwait => exact issue_unknown h
  | qwaitRelease => unfold exec execQwaitRelease; exact onCore_unknown h
  | stop => exact issue_unknown h
  | nop => exact issue_unknown h
  | sread => exact issue_unknown h
  | movt => exact issue_unknown h
  | mft => exact issue_unknown h
  | taddi => exact issue_unknown h
  | vop => exact issue_unknown h
  | vops => exact issue_unknown h
  | vfma => exact issue_unknown h
  | vld => exact issue_unknown h
  | vst => exact issue_unknown h
  | vred => exact issue_unknown h
  | vlane => exact issue_unknown h
  | vmxq => exact issue_unknown h
  | wload => exact issue_unknown h
  | wswap => exact issue_unknown h
  | stream => exact issue_unknown h
  | drain => exact issue_unknown h
  | tclr => exact issue_unknown h
  | accview => exact issue_unknown h
  | gdrain => exact issue_unknown h
  | dma => exact issue_unknown h
  | ratom => exact issue_unknown h
  | rsig => exact issue_unknown h
  | rfence => exact issue_unknown h
  | sigadd => exact issue_unknown h
  | sigrd => exact issue_unknown h
  | siginit => exact issue_unknown h
  | wait => exact issue_unknown h
  | arrayStart => unfold exec execArrayStart; exact onCore_unknown h
  | arrayRowFetch => unfold exec execArrayRowFetch; exact onCore_unknown h
  | roadRowArrival => unfold exec execRoadRowArrival; exact onPort_unknown h
  | roadCreditReturn => unfold exec execRoadCreditReturn; exact onPort_unknown h
  | roadTimeout => unfold exec execRoadTimeout; exact onCore_unknown h
  | waitPoll => unfold exec execWaitPoll; exact onCore_unknown h
  | waitSatisfied => unfold exec execWaitSatisfied; exact onCore_unknown h
  | waitExpiry => unfold exec execWaitExpiry; exact onCore_unknown h
  | flkCoreHaltWrite => exact onCore_unknown h
  | flkCoreDoneWrite => exact onCore_unknown h
  | coreRestart => exact onCore_unknown h
  | dmaDescriptorStart => unfold exec execDmaDescriptorStart; exact onCore_unknown h
  | dmaComplete => unfold exec execDmaComplete; exact onCore_unknown h
  | dmaTimeout => unfold exec execDmaTimeout; exact onCore_unknown h
  | dmaPushAdmit => unfold exec execDmaPushAdmit; exact inRange_unknown h
  | baleReadComplete => unfold exec execBaleReadComplete; exact onCore_unknown h
  | foldLoad => cases h
  | remap => cases h
  | unload => cases h
  | pipelineStart => unfold exec execPipelineStart; exact inRange_unknown h
  | drvRankWrite => cases h
  | stackWholeBaleRead => exact stackReq_unknown (by rw [Bool.and_true]; exact h)
  | stackTaggedWrite => exact stackReq_unknown h
  | stackUntaggedWrite => exact stackReq_unknown h
  | stackSectorRead => exact stackReq_unknown (by rw [Bool.and_true]; exact h)
  | stackSectorWrite => exact stackReq_unknown h
  | stackEntryGrant => unfold exec execStackEntryGrant; exact inRange_unknown h
  | refresh => exact execRefresh_unknown h
  | scrub => exact execScrub_unknown h
  | zeroFill => exact inRange_unknown h
  | wipe => unfold exec execWipe; exact inRange_unknown h
  | wipeComplete => exact inRange_unknown h
  | writeGateChange => unfold exec execWriteGateChange; exact inRange_unknown h
  | heldWriteExpiry => unfold exec execHeldWriteExpiry; exact inRange_unknown h
  | peatDescriptorAdmit => unfold exec execPeatDescriptorAdmit; exact onCore_unknown h
  | gather => unfold exec execGather; exact onPeatOp_unknown h
  | segsum => unfold exec execSegsum; exact onPeatOp_unknown h
  | wpool => unfold exec execWpool; exact onPeatOp_unknown h
  | optupd => unfold exec execOptupd; exact onPeatOp_unknown h
  | kread => unfold exec execKread; exact onPeatOp_unknown h
  | kwrite => unfold exec execKwrite; exact onPeatOp_unknown h
  | kadd => unfold exec execKadd; exact onPeatOp_unknown h
  | peatRowRequest => unfold exec execPeatRowRequest; exact inRange_unknown h
  | peatRowData => unfold exec execPeatRowData; exact inRange_unknown h
  | deliveryBlock => unfold exec execDeliveryBlock; exact onCore_unknown h
  | peatComplete => unfold exec execPeatComplete; exact onCore_unknown h
  | cxlMemRead => exact execCxlMemRead_unknown h
  | cxlMemWrite => exact execCxlMemWrite_unknown h
  | cxlHostEvict => cases h
  | birsp => cases h
  | biTimeout => cases h
  | bar0Access => exact execBar0Access_unknown h
  | cxlQsqDb => unfold exec execCxlQsqDb; exact inRange_unknown h
  | cxlQcqDb => unfold exec execCxlQcqDb; exact inRange_unknown h
  | queueEnable => unfold exec execQueueEnable; exact inRange_unknown h
  | queueDisable => unfold exec execQueueDisable; exact inRange_unknown h
  | sqFetch => exact execSqFetch_unknown h
  | queueNop => unfold exec execQueueNop; exact inRange_unknown h
  | queueCopy => unfold exec execQueueCopy; exact inRange_unknown h
  | queueSignal => unfold exec execQueueSignal; exact inRange_unknown h
  | queueFence => unfold exec execQueueFence; exact inRange_unknown h
  | cqPost => unfold exec execCqPost; exact inRange_unknown h
  | farTierResponse => cases h
  | farTierTimeout => cases h
  | linkUp => exact execLinkUp_unknown h
  | linkDown => cases h
  | cxlReset => cases h
  | ideFail => cases h
  | getEventRecords => cases h
  | clearEventRecords => cases h
  | getEventInterruptPolicy => cases h
  | setEventInterruptPolicy => cases h
  | getFwInfo => cases h
  | transferFw => exact execTransferFw_unknown h
  | activateFw => cases h
  | getSupportedLogs => cases h
  | getLog => cases h
  | mailboxUnsupported => exact execMailboxUnsupported_unknown h
  | mctpSetEndpointId => cases h
  | pldmRequest => cases h
  | getVersion => cases h
  | getCapabilities => cases h
  | negotiateAlgorithms => cases h
  | getDigests => cases h
  | getCertificate => cases h
  | challenge => cases h
  | getMeasurements => cases h
  | keyExchange => cases h
  | finish => cases h
  | endSession => cases h
  | getLmsCert => cases h
  | getLmsSig => cases h
  | routerPacketArrival => exact execRouterPacketArrival_unknown h
  | packetForward => exact execPacketForward_unknown h
  | niPacketSend => exact inRange_unknown h
  | write => unfold exec execWrite; exact onPacket_unknown h
  | read => unfold exec execRead; exact onPacket_unknown h
  | atomic => unfold exec execAtomic; exact onPacket_unknown h
  | signal => unfold exec execSignal; exact onPacket_unknown h
  | cohFwd => unfold exec execCohFwd; exact onPacket_unknown h
  | response => unfold exec execResponse; exact onPacket_unknown h
  | ack => unfold exec execAck; exact onPacket_unknown h
  | contrib => unfold exec execContrib; exact onPacket_unknown h
  | relayData => exact relayIn_unknown h
  | relayAck => exact relayIn_unknown h
  | relayResult => exact relayIn_unknown h
  | relayActivate => exact relayIn_unknown h
  | relayAbort => exact relayIn_unknown h
  | relayAckTimeout => cases h
  | flagHoldRelease => cases h
  | resendIntervalExpiry => cases h
  | deferredBackoffExpiry => cases h
  | tagDeadlineExpiry => cases h
  | ackTimerExpiry => cases h
  | niPairReset => cases h
  | klnSubmit => cases h
  | bucketSubmit => cases h
  | redeliverSubmit => cases h
  | klnCtrlAbort => cases h
  | klnCtrlReset => cases h
  | collectiveStart => unfold exec execCollectiveStart; exact inRange_unknown h
  | chunkStart => unfold exec execChunkStart; exact inRange_unknown h
  | kilnPacketInject => unfold exec execKilnPacketInject; exact inRange_unknown h
  | kilnStallExpiry => unfold exec execKilnStallExpiry; exact inRange_unknown h
  | kilnMemoryComplete => unfold exec execKilnMemoryComplete; exact inRange_unknown h
  | collectiveEnd => unfold exec execCollectiveEnd; exact inRange_unknown h
  | channelRowAccept => unfold exec execChannelRowAccept; exact inRange_unknown h
  | chunkComplete => unfold exec execChunkComplete; exact inRange_unknown h
  | verifyCompare => unfold exec execVerifyCompare; exact inRange_unknown h
  | sealExchangeStart => unfold exec execSealExchangeStart; exact inRange_unknown h
  | bucketSeal => unfold exec execBucketSeal; exact inRange_unknown h
  | redeliveryEnd => cases h
  | codewordDecode => unfold exec execCodewordDecode; exact inRange_unknown h
  | controlCodeword => exact execControlCodeword_unknown h
  | swapReq => unfold exec execSwapReq; exact inRange_unknown h
  | swapAck => unfold exec execSwapAck; exact inRange_unknown h
  | laserOut => unfold exec execLaserOut; exact inRange_unknown h
  | retrain => exact inRange_unknown h
  | swapSwitch => unfold exec execSwapSwitch; exact inRange_unknown h
  | portTrain => unfold exec execPortTrain; exact inRange_unknown h
  | trainingFrame => exact inRange_unknown h
  | trainingRetryExpiry => exact inRange_unknown h
  | level1Calibration => unfold exec execLevel1Calibration; exact inRange_unknown h
  | ringSweepComplete => exact guarded_unknown h
  | pilotToneCheck => exact guarded_unknown h
  | serWindowExpiry => unfold exec execSerWindowExpiry; exact inRange_unknown h
  | laserFailure => exact guarded_unknown h
  | portRetrainWrite => unfold exec execPortRetrainWrite; exact inRange_unknown h
  | portDisable => unfold exec execPortDisable; exact inRange_unknown h
  | portEnable => unfold exec execPortEnable; exact inRange_unknown h
  | stileChangeComplete => exact guarded_unknown h
  | slewGovernorTick => unfold exec execSlewGovernorTick; exact inRange_unknown h
  | resetFlock => cases h
  | resetPasture => cases h
  | resetRouterSlice => cases h
  | resetPort => cases h
  | resetHearth => cases h
  | resetDevice => cases h
  | drainEnd => cases h
  | drainLimitExpiry => cases h
  | creditReturnMessage => cases h
  | reinitAck => cases h
  | resetPin => cases h
  | powerOn => cases h
  | powerLoss => cases h
  | pllLockLoss => exact execPllLockLoss_unknown h
  | pllLock => exact execPllLock_unknown h
  | droverBoot => cases h
  | pastureRelease => unfold exec execPastureRelease; exact inRange_unknown h
  | stackTrainingComplete => unfold exec execStackTrainingComplete; exact inRange_unknown h
  | thermalModelUpdate => exact execThermalModelUpdate_unknown h
  | sensorReading => exact execSensorReading_unknown h
  | powerMeasurement => exact execPowerMeasurement_unknown h
  | packagePowerMeasurement => cases h
  | fractionApply => unfold exec execFractionApply; exact inRange_unknown h
  | fractionWatchdog => unfold exec execFractionWatchdog; exact inRange_unknown h
  | gateDecisionWatchdog => unfold exec execGateDecisionWatchdog; exact inRange_unknown h
  | holdWrite => cases h
  | sensorTrip => unfold exec execSensorTrip; exact inRange_unknown h
  | eventPop => cases h
  | drvRetire => cases h
  | spareSelfTest => exact execSpareSelfTest_unknown h
  | musterPeriodicFrame => exact inRange_unknown h
  | musterSilenceExpiry => unfold exec execMusterSilenceExpiry; exact inRange_unknown h
  | voteExpiry => cases h
  | drvDeclare => cases h
  | stateArrayError => cases h
  | shadowEnable => cases h
  | shadowDisable => cases h
  | stepMark => cases h
  | digestComplete => cases h
  | fwCommit => cases h
  | fwActivateOnline => cases h
  | fwActivateAtReset => cases h
  | unitRestartComplete => cases h
  | foldKeyEnrol => cases h
  | foldKeyClear => cases h
  | policyWrite => cases h
  | relaySend => cases h
  | rcRead => cases h
  | registerWrite => cases h
  | resetPinRelease => cases h
  | railOutOfRange => cases h
  | hearthLasersStable => unfold exec execHearthLasersStable; exact inRange_unknown h
  | ringSetpointReturn => unfold exec execRingSetpointReturn; exact inRange_unknown h
  | sqReadError => exact inRange_unknown h
  | cqWriteError => unfold exec execCqWriteError; exact inRange_unknown h
  | hostSnoop => cases h

end

/-! ### What every step keeps -/

theorem step_of_empty {s : State} (h : s.pending = []) : step s = .next s := by rw [step, h]

theorem step_of_cons {s : State} {c : Instr} {rest : List Instr} (h : s.pending = c :: rest) :
    step s = exec c { s with pending := rest } := by rw [step, h]

/-- A step goes on to a state that keeps the rest of the queue, and all else. -/
theorem step_keeps (s : State) : ∃ t, step s = .next t ∧ Keeps { s with pending := s.pending.drop 1 } t := by
  cases hs : s.pending with
  | nil => exact ⟨s, step_of_empty hs, Walk.self.trans ⟨hs, id, id, id⟩⟩
  | cons c rest => exact step_of_cons hs ▸ exec_completes c

theorem keeps_of_step {s t : State} (h : step s = .next t) : Keeps { s with pending := s.pending.drop 1 } t := by
  obtain ⟨u, hu, hkeeps⟩ := step_keeps s
  rw [h] at hu
  cases hu
  exact hkeeps

/-- Settles O2: each command's effect goes on by `exec_completes`; one that names no event does nothing by `exec_of_unknown`. -/
theorem everyWellFormedCommandCompletes : Obligations.EveryWellFormedCommandCompletes := by
  intro i s
  obtain ⟨t, ht, hkeeps⟩ := exec_completes (t := s) i
  exact ⟨⟨t, ht, hkeeps.pending⟩, exec_of_unknown i⟩

/-- Settles O4, by `step_keeps`: no command changes the commands that wait. -/
theorem stepKeepsTheQueue : Obligations.StepKeepsTheQueue := by
  intro s
  obtain ⟨t, ht, hkeeps⟩ := step_keeps s
  refine ⟨t, ht, hkeeps.pending, fun hs c hc => hs c ?_⟩
  rw [hkeeps.pending] at hc
  exact List.mem_of_mem_drop hc

/-- Settles O5: every change of a memory keeps it canonical. -/
theorem stepKeepsMemoryCanonical : Obligations.StepKeepsMemoryCanonical :=
  fun _ _ hmem h => (keeps_of_step h).mem hmem

/-- Settles O6: what joins a bounded record or queue finds room, and nothing else lengthens one. -/
theorem stepKeepsTheBounds : Obligations.StepKeepsTheBounds :=
  fun _ _ hrecords hcores h => ⟨(keeps_of_step h).records hrecords, (keeps_of_step h).cores hcores⟩

/-- Settles O1: the step rule of `step`; the decoder spells no command. -/
theorem stepTakesFrontCommand : Obligations.StepTakesFrontCommand :=
  fun _ _ _ _ _ => ⟨step_of_cons, step_of_empty, rfl, rfl⟩

end Sys2Proof.Machine

/-! SUPPORT. The registers of a core read back what was written (O9). -/

namespace Sys2Proof.Machine

section
variable {k : Core} {r r' v l l' x : Nat}

theorem Core.setS_vreg : (k.setS r x).vreg = k.vreg := by unfold Core.setS; split <;> rfl

theorem Core.setS_treg : (k.setS r x).treg = k.treg := by unfold Core.setS; split <;> rfl

theorem Core.s_setPair_high : (k.setPair r x).s (r + 1) = x / 2 ^ 32 % 2 ^ 32 := by
  rw [Core.setPair, Core.s_setS_same _ _ _ (Nat.succ_ne_zero r)]
  simp [bits, Nat.shiftRight_eq_div_pow]

theorem Core.pair_setPair (h : r ≠ 0) : (k.setPair r x).pair r = x % 2 ^ 64 := by
  have hlow : (k.setPair r x).s r = x % 2 ^ 32 := by
    rw [Core.setPair, Core.s_setS_ne _ _ _ _ (Nat.succ_ne_self r).symm, Core.s_setS_same _ _ _ h, bits_low, Nat.mod_mod]
  rw [Core.pair, hlow, Core.s_setPair_high]
  omega

theorem Core.t_setT_same : (k.setT r x).t r = bits x 63 48 * 2 ^ 48 + bits x 42 40 * 2 ^ 40 + bits x 21 0 := by
  have h1 := bits_lt x 63 48
  have h2 := bits_lt x 42 40
  have h3 := bits_lt x 21 0
  simp only [Core.t, Core.setT, Sparse.get_set_same, BitVec.toNat_ofNat]
  omega

theorem Core.t_setT_ne (h : r' ≠ r) : (k.setT r x).t r' = k.t r' := congrArg BitVec.toNat (Sparse.get_set_ne h)

theorem Core.lane_setLane_same : (k.setLane v l x).lane v l = x % 2 ^ 32 := by
  simp [Core.lane, Core.setLane]

theorem Core.lane_setLane_ne (h : 16 * r' + l' ≠ 16 * v + l) : (k.setLane v l x).lane r' l' = k.lane r' l' :=
  congrArg BitVec.toNat (Sparse.get_set_ne h)

/-! ### The lanes of a vector register, one after another -/

/-- Lanes of `v` from `n` on, written from a list. -/
theorem Core.lane_foldl_setLane (xs : List Nat) (n : Nat) : ∀ k : Core,
    ((xs.zipIdx n).foldl (fun k p => k.setLane v p.2 p.1) k).lane r l =
      if 16 * v + n ≤ 16 * r + l ∧ 16 * r + l < 16 * v + n + xs.length then xs.getD (16 * r + l - (16 * v + n)) 0 % 2 ^ 32 else k.lane r l := by
  induction xs generalizing n with
  | nil => intro k; rw [if_neg (by simp only [List.length_nil]; omega)]; rfl
  | cons y ys ih =>
    intro k
    rw [List.zipIdx_cons, List.foldl_cons, ih]
    by_cases hhere : 16 * r + l = 16 * v + n
    · rw [if_neg (by omega), if_pos (by simp; omega), hhere, Nat.sub_self]
      have hlane : ∀ k : Core, k.lane r l = k.lane v n := fun k => by rw [Core.lane, Core.lane, hhere]
      rw [hlane, Core.lane_setLane_same]
      rfl
    · rw [Core.lane_setLane_ne hhere]
      by_cases hin : 16 * v + (n + 1) ≤ 16 * r + l ∧ 16 * r + l < 16 * v + (n + 1) + ys.length
      · rw [if_pos hin, if_pos (by simp; omega)]
        obtain ⟨i, hi⟩ : ∃ i, 16 * r + l - (16 * v + n) = i + 1 := ⟨16 * r + l - (16 * v + n) - 1, by omega⟩
        rw [hi, List.getD_cons_succ]
        congr 2
        omega
      · rw [if_neg hin, if_neg (by simp; omega)]

theorem Core.lane_setLanes_same {xs : List Nat} (hlen : xs.length = 16) (hl : l < 16) :
    (k.setLanes v xs).lane v l = xs.getD l 0 % 2 ^ 32 := by
  rw [Core.setLanes, Core.lane_foldl_setLane, if_pos (by omega)]
  congr 2
  omega

theorem Core.lane_setLanes_ne {xs : List Nat} (hlen : xs.length = 16) (hl : l < 16) (h : r' ≠ v) :
    (k.setLanes v xs).lane r' l = k.lane r' l := by
  rw [Core.setLanes, Core.lane_foldl_setLane, if_neg (by omega)]

theorem Core.setLanes_sreg {xs : List Nat} : (k.setLanes v xs).sreg = k.sreg := by
  unfold Core.setLanes
  induction xs.zipIdx generalizing k with
  | nil => rfl
  | cons p ps ih => exact ih

end

/-- Settles O9: each kind of register by the law of the map that holds it. -/
theorem coreRegistersReadBack : Obligations.CoreRegistersReadBack := by
  intro k r r' v l l' x
  refine ⟨Core.s_zero k, Core.setS_zero k x, Core.s_setS_same k r x, Core.s_setS_ne k r r' x, Core.setS_vreg, Core.setS_treg, Nat.zero_add _,
    Core.s_setPair_high, fun hr => Core.pair_setPair (by omega), Core.t_setT_same, Core.t_setT_ne, Core.lane_setLane_same,
    fun hl hl' h => Core.lane_setLane_ne (by omega), fun xs hlen hl => ⟨?_, ?_, ?_⟩⟩
  · exact Core.lane_setLanes_same hlen hl
  · exact Core.lane_setLanes_ne hlen hl
  · exact Core.setLanes_sreg

end Sys2Proof.Machine

/-! SUPPORT. What a fault log holds after an entry: the word that it takes first, the count, OVERRUN and the address (R172 and its
kin). -/

namespace Sys2Proof.Machine

/-! ### Single bits of a replaced field -/

theorem bit_setBits_ne {w hi lo b : Nat} (v : Nat) (h : b < lo ∨ hi < b) : bit (setBits w hi lo v) b = bit w b := by
  rw [bit, setBits_testBit, if_neg (by omega), bit]

theorem bit_setBit_same (w b : Nat) (v : Bool) : bit (setBit w b v) b = v := by
  rw [bit, setBit, setBits_testBit, if_pos (by omega), Nat.sub_self]
  cases v <;> rfl

theorem bit_setBit_ne {w b b' : Nat} (v : Bool) (h : b' ≠ b) : bit (setBit w b v) b' = bit w b' :=
  bit_setBits_ne _ (by omega)

theorem bits_setBit_ne {w b hi lo : Nat} (v : Bool) (h : hi < b ∨ b < lo) : bits (setBit w b v) hi lo = bits w hi lo :=
  bits_setBits_ne _ _ _ _ _ _ h

theorem setBit_lt {w b n : Nat} (v : Bool) (hw : w < 2 ^ n) (hb : b < n) : setBit w b v < 2 ^ n := setBits_lt _ _ _ _ _ hw hb

/-! ### The word of a log -/

/-- A first entry: VALID is set and OVERRUN stays. -/
def firstEntry (old v : Nat) : Nat := setBit (setBit v 63 true) 62 (bit old 62)

theorem bit_firstEntry_valid (old v : Nat) : bit (firstEntry old v) 63 = true := by
  rw [firstEntry, bit_setBit_ne _ (by decide), bit_setBit_same]

theorem bit_firstEntry_overrun (old v : Nat) : bit (firstEntry old v) 62 = bit old 62 := bit_setBit_same ..

theorem bits_firstEntry {old v hi lo : Nat} (h : hi < 62) : bits (firstEntry old v) hi lo = bits v hi lo := by
  rw [firstEntry, bits_setBit_ne _ (.inl h), bits_setBit_ne _ (.inl (by omega))]

theorem firstEntry_lt {old v : Nat} (h : v < 2 ^ 64) : firstEntry old v < 2 ^ 64 :=
  setBit_lt _ (setBit_lt _ h (by decide)) (by decide)

/-- The word of a log after an entry `v`, before its count. -/
def logEntry (old v : Nat) : Nat := if bit old 63 then setBit old 62 true else firstEntry old v

theorem logEntry_first {old v : Nat} (h : bit old 63 = false) : logEntry old v = firstEntry old v := by simp [logEntry, h]

theorem logEntry_again {old v : Nat} (h : bit old 63 = true) : logEntry old v = setBit old 62 true := by simp [logEntry, h]

theorem logEntry_lt {old v : Nat} (hold : old < 2 ^ 64) (h : v < 2 ^ 64) : logEntry old v < 2 ^ 64 := by
  unfold logEntry
  split
  · exact setBit_lt _ hold (by decide)
  · exact firstEntry_lt h

theorem bit_logEntry_valid (old v : Nat) : bit (logEntry old v) 63 = true := by
  unfold logEntry
  split
  · rwa [bit_setBit_ne _ (by decide)]
  · exact bit_firstEntry_valid old v

section
variable (s : State) {r : Reg} {i j v hi lo src loc : Nat} {addr : Option (Reg × Nat)}

/-- An event record leaves every register but DRV_EVT_STATUS. -/
theorem reg_event {r : Reg} (h : r ≠ .drvEvtStatus) (i j source kind loc detail addr : Nat) :
    (s.event source kind loc detail addr).reg r i j = s.reg r i j :=
  (event_outside (w := {Reg.drvEvtStatus.addr 0 0}) rfl s source kind loc detail addr).reg r i j
    (Reg.addr_ne_of_drv rfl h.symm 0 0 i j).symm

/-- The register of a log with a count, after an entry. -/
theorem reg_log (hr : r ≠ .drvEvtStatus) (haddr : ∀ x ∈ addr, r.addr i j ≠ x.1.addr i 0) :
    (s.log r i j v (some (hi, lo)) addr src loc).reg r i j =
      setBits (logEntry (s.reg r i j) v) hi lo (satInc (hi + 1 - lo) (bits (s.reg r i j) hi lo)) % 2 ^ 64 := by
  unfold State.log logEntry
  dsimp only
  split
  · rw [State.reg_setReg_same]
  · rw [reg_event _ hr]
    cases addr with
    | none => exact State.reg_setReg_same ..
    | some x => exact (State.reg_setReg_ne _ _ _ _ _ _ _ _ (haddr x rfl)).trans (State.reg_setReg_same ..)

/-- The register of a log without a count, after an entry. -/
theorem reg_log_uncounted (hr : r ≠ .drvEvtStatus) (haddr : ∀ x ∈ addr, r.addr i j ≠ x.1.addr i 0) :
    (s.log r i j v none addr src loc).reg r i j = logEntry (s.reg r i j) v % 2 ^ 64 := by
  unfold State.log logEntry
  dsimp only
  split
  · rw [State.reg_setReg_same]
  · rw [reg_event _ hr]
    cases addr with
    | none => exact State.reg_setReg_same ..
    | some x => exact (State.reg_setReg_ne _ _ _ _ _ _ _ _ (haddr x rfl)).trans (State.reg_setReg_same ..)

/-- The address register of a log takes the first entry's address. -/
theorem addr_log_first {ar : Reg} {a : Nat} {cnt : Option (Nat × Nat)} (hr : ar ≠ .drvEvtStatus) (h : bit (s.reg r i j) 63 = false) :
    (s.log r i j v cnt (some (ar, a)) src loc).reg ar i 0 = a % 2 ^ 48 := by
  unfold State.log
  dsimp only
  rw [if_neg (Bool.eq_false_iff.mp h), reg_event _ hr, State.reg_setReg_same]
  omega

/-- The address register of a log keeps the first entry's address. -/
theorem addr_log_again {ar : Reg} {a : Nat} {cnt : Option (Nat × Nat)} (har : ar.addr i 0 ≠ r.addr i j) (h : bit (s.reg r i j) 63 = true) :
    (s.log r i j v cnt (some (ar, a)) src loc).reg ar i 0 = s.reg ar i 0 := by
  unfold State.log
  dsimp only
  rw [if_pos h, State.reg_setReg_ne _ _ _ _ _ _ _ _ har]

end

/-! ### The flock fault log -/

section
variable (s : State) {f a st src core : Nat}

theorem flkFaultInfo_addr_ne (f : Nat) : Reg.flkFaultInfo.addr f 0 ≠ Reg.flkFaultAddr.addr f 0 := by
  simp [Reg.addr, Reg.row, Block.base]

theorem reg_flkLog (hst : st < 16) (hsrc : src < 16) (hcore : core < 2 ^ 17) :
    (s.flkLog f a st src core).reg .flkFaultInfo f 0 =
      setBits (logEntry (s.reg .flkFaultInfo f 0) (st * 2 ^ 28 + src * 2 ^ 24 + core)) 47 32
        (min (bits (s.reg .flkFaultInfo f 0) 47 32 + 1) 0xFFFF) := by
  rw [State.flkLog, reg_log _ (by decide)]
  · exact Nat.mod_eq_of_lt (setBits_lt _ _ _ _ _ (logEntry_lt (s.reg_lt ..) (by omega)) (by decide))
  · rintro x ⟨⟩
    exact flkFaultInfo_addr_ne f

/-- The fields of the first entry of a flock's log. -/
theorem bits_flkEntry (hst : st < 16) (hsrc : src < 16) (hcore : core < 2 ^ 17) :
    bits (st * 2 ^ 28 + src * 2 ^ 24 + core) 31 28 = st ∧ bits (st * 2 ^ 28 + src * 2 ^ 24 + core) 27 24 = src ∧
      bits (st * 2 ^ 28 + src * 2 ^ 24 + core) 16 0 = core := by
  simp only [bits, Nat.shiftRight_eq_div_pow]
  omega

end

/-- Settles O35: the word of the log is the first entry or the old word with OVERRUN, with its count raised. -/
theorem faultLogKeepsTheFirstViolation : Obligations.FaultLogKeepsTheFirstViolation := by
  intro s f a st src core _ hst hsrc hcore
  dsimp only
  rw [reg_flkLog s hst hsrc hcore]
  obtain ⟨hstatus, hsource, hc⟩ := bits_flkEntry hst hsrc hcore
  refine ⟨?_, ?_, fun hfirst => ?_, fun hagain => ?_⟩
  · rw [bits_setBits_same, Nat.mod_eq_of_lt (by omega)]
  · rw [bit_setBits_ne _ (.inr (by decide)), bit_logEntry_valid]
  · rw [logEntry_first hfirst]
    refine ⟨?_, ?_, ?_, ?_, addr_log_first s (by decide) hfirst⟩
    · rw [bit_setBits_ne _ (.inr (by decide)), bit_firstEntry_overrun]
    · rw [bits_setBits_ne _ _ _ _ _ _ (.inl (by decide)), bits_firstEntry (by decide), hstatus]
    · rw [bits_setBits_ne _ _ _ _ _ _ (.inl (by decide)), bits_firstEntry (by decide), hsource]
    · rw [bits_setBits_ne _ _ _ _ _ _ (.inl (by decide)), bits_firstEntry (by decide), hc]
  · rw [logEntry_again hagain]
    refine ⟨?_, ?_, addr_log_again s (flkFaultInfo_addr_ne f).symm hagain⟩
    · rw [bit_setBits_ne _ (.inr (by decide)), bit_setBit_same]
    · rw [bits_setBits_ne _ _ _ _ _ _ (.inl (by decide)), bits_setBit_ne _ (.inl (by decide))]

end Sys2Proof.Machine

/-! SUPPORT. The state after reset (O3). -/

namespace Sys2Proof.Machine

theorem reg_reset {r : Reg} {i j : Nat} (h : r.addr i j ≠ Reg.secBank.addr 0 0) : State.reset.reg r i j = r.resetVal % 2 ^ 64 := by
  have hget : Sparse.get (BitVec.ofNat 64 r.resetVal) State.reset.regs (r.addr i j) = BitVec.ofNat 64 r.resetVal := if_neg h
  rw [State.reg, hget, BitVec.toNat_ofNat]

theorem core_reset (f c : Nat) : State.reset.core f c = Core.fresh := rfl

/-- A core of the state after reset is idle. -/
theorem canIssue_reset (f c : Nat) : State.reset.canIssue f c = false := by
  have hrun : ((State.reset.core f c).run == .running) = false := rfl
  simp [State.canIssue, hrun]

/-- Settles O3: the reset state is a literal, in which every map is empty but for bank A. -/
theorem resetStateHoldsResetValues : Obligations.ResetStateHoldsResetValues := by
  refine ⟨fun _ _ _ => reg_reset, fun _ => ⟨rfl, rfl, rfl⟩, fun f c => ⟨core_reset f c, canIssue_reset f c⟩, rfl, rfl, rfl, rfl,
    fun c hc => absurd hc List.not_mem_nil, State.memOk_reset, ⟨Nat.zero_le _, Nat.zero_le _⟩, fun f c => ?_⟩
  rw [core_reset]
  exact ⟨Nat.zero_le _, Nat.zero_le _, Nat.zero_le _⟩

end Sys2Proof.Machine

/-! SUPPORT. QWAIT, RFENCE and STOP: what releases each, and what the release leaves (O14). -/

namespace Sys2Proof.Machine

section
variable {k : Core} {m : Nat}

theorem Core.arrayIdle_iff : k.arrayIdle = true ↔ k.queue = [] ∧ k.runs = [] := by
  simp [Core.arrayIdle]

theorem Core.qwaitDone_iff : k.qwaitDone m = true ↔
    (bit m 0 = true → k.queue = [] ∧ k.runs = []) ∧ (bit m 1 = true → k.dma = []) := by
  simp only [Core.qwaitDone, Bool.and_eq_true, Bool.or_eq_true, Bool.not_eq_true', Core.arrayIdle_iff, List.isEmpty_iff,
    ← Bool.not_eq_true, ← imp_iff_not_or]

theorem Core.fenceDone_iff : k.fenceDone = true ↔
    k.remotes = [] ∧ ∀ d ∈ k.dma, d.op = 0x08 ∨ d.op = 0x09 → d.started = true ∧ d.left = 0 ∧ d.land = [] := by
  simp [Core.fenceDone, and_assoc]

theorem Core.stopDone_iff : k.stopDone = true ↔ (k.queue = [] ∧ k.runs = []) ∧ k.dma = [] ∧ k.remotes = [] := by
  have h0 : bit 7 0 = true := rfl
  have h1 : bit 7 1 = true := rfl
  simp only [Core.stopDone, Bool.and_eq_true, Core.qwaitDone_iff, h0, h1, true_imp_iff, List.isEmpty_iff, and_assoc]

end

section
variable {s : State} {f c m : Nat} {h : Hold} {w : Word64}

/-- The core with its issue held. -/
theorem held_becomes : CoreBecomes f c s { s.core f c with hold := h, pc := (s.core f c).pc + 1 }
    ((s.advance f c).modCore f c fun k => { k with hold := h }) :=
  ⟨(onlyCore_advance f c s).trans (onlyCore_modCore ..), by simp⟩

/-- Issue resumes. -/
theorem free_becomes : CoreBecomes f c s { s.core f c with hold := .free } (s.modCore f c fun k => { k with hold := .free }) :=
  ⟨onlyCore_modCore .., by simp⟩

theorem release_qwait (hk : (s.core f c).hold = .qwait m) : s.release f c =
    if (s.core f c).qwaitDone m then s.modCore f c fun k => { k with hold := .free } else s := by
  unfold State.release
  dsimp only
  rw [hk]

theorem release_rfence (hk : (s.core f c).hold = .rfence) : s.release f c =
    if (s.core f c).fenceDone then s.modCore f c fun k => { k with hold := .free } else s := by
  unfold State.release
  dsimp only
  rw [hk]

theorem release_stop (hk : (s.core f c).hold = .stop) : s.release f c =
    if (s.core f c).stopDone then
      (s.modCore f c fun k => { k with hold := .free }).setCbit .flkCoreDoneLo .flkCoreDoneHi f c true
    else s := by
  unfold State.release
  dsimp only
  rw [hk]

/-- Issue that was held with `h` resumes in `t`, `k` being the core with issue held. -/
theorem CoreBecomes.freed {t : State} {k : Core} (hb : CoreBecomes f c s k t) :
    CoreBecomes f c s { k with hold := .free } (t.modCore f c fun k => { k with hold := .free }) :=
  ⟨hb.1.trans (onlyCore_modCore ..), by simp [hb.2]⟩

theorem qwait_becomes {t : State} {k : Core} (hb : CoreBecomes f c s k t) (hk : k.hold = .qwait m) :
    (k.qwaitDone m = true → CoreBecomes f c s { k with hold := .free } (t.release f c)) ∧
    (k.qwaitDone m = false → CoreBecomes f c s k (t.release f c)) := by
  rw [release_qwait (hb.2 ▸ hk), hb.2]
  exact ⟨fun hd => if_pos hd ▸ hb.freed, fun hd => if_neg (Bool.eq_false_iff.mp hd) ▸ hb⟩

theorem rfence_becomes {t : State} {k : Core} (hb : CoreBecomes f c s k t) (hk : k.hold = .rfence) :
    (k.fenceDone = true → CoreBecomes f c s { k with hold := .free } (t.release f c)) ∧
    (k.fenceDone = false → CoreBecomes f c s k (t.release f c)) := by
  rw [release_rfence (hb.2 ▸ hk), hb.2]
  exact ⟨fun hd => if_pos hd ▸ hb.freed, fun hd => if_neg (Bool.eq_false_iff.mp hd) ▸ hb⟩

/-- The core stops: its done bit is set, and beside the cores only registers change. -/
def Stops (f c : Nat) (s : State) (k : Core) (t : State) : Prop :=
  t.doneBit f c = true ∧ t.core f c = k ∧ t = { s with cores := t.cores, regs := t.regs }

theorem stop_becomes {t : State} {k : Core} (hb : CoreBecomes f c s k t) (hc : c < 120) (hk : k.hold = .stop) :
    (k.stopDone = true → Stops f c s { k with hold := .free } (t.release f c)) ∧
    (k.stopDone = false → CoreBecomes f c s k (t.release f c)) := by
  rw [release_stop (hb.2 ▸ hk), hb.2]
  refine ⟨fun hd => ?_, fun hd => if_neg (Bool.eq_false_iff.mp hd) ▸ hb⟩
  rw [if_pos hd]
  obtain ⟨⟨hrest, -⟩, hcore⟩ := hb.freed
  refine ⟨((t.modCore f c _).setCbit_spec _ _ f true hc).1, hcore, ?_⟩
  generalize t.modCore f c (fun k => { k with hold := .free }) = u at hrest
  rw [hrest]
  rfl

end

section
variable {s : State} {f c : Nat} {w : Word64}

theorem exec_qwait (h : s.Issues f c 0x0C w) : exec (.qwait f c w) s = .next (s.holdIssue f c (.qwait (iFn w))) := issue_next h

theorem exec_rfence (h : s.Issues f c 0x63 w) : exec (.rfence f c w) s = .next (s.holdIssue f c .rfence) := issue_next h

theorem exec_stop (h : s.Issues f c 0x0D w) : exec (.stop f c w) s = .next (s.holdIssue f c .stop) := issue_next h

theorem exec_qwaitRelease (hf : f < 672) (hc : c < 120) : exec (.qwaitRelease f c) s = .next (s.release f c) :=
  congrArg Host.Outcome.next (if_pos ⟨hf, hc⟩)

/-- A core as it is. -/
theorem CoreBecomes.self {h : Hold} (hk : (s.core f c).hold = h) : CoreBecomes f c s { s.core f c with hold := h } s :=
  ⟨.refl _ _ _, by rw [← hk]⟩

end

/-- Settles O14: each form holds its condition at issue (`held_becomes`), and `State.release` decides it then and later alike. -/
theorem waitsHoldIssueUntilDone : Obligations.WaitsHoldIssueUntilDone := by
  intro s f c w
  dsimp only
  have hq := qwait_becomes (s := s) (f := f) (c := c) (held_becomes (h := .qwait (iFn w))) rfl
  have hf := rfence_becomes (s := s) (f := f) (c := c) (held_becomes (h := .rfence)) rfl
  refine ⟨fun h hd => ?_, fun h hd => ?_, fun h hd => ?_, fun h hd => ?_, fun h hd => ?_, fun h hd => ?_,
    fun hF hC m hk hd => ?_, fun hF hC hk hd => ?_, fun hF hC hk hd => ?_⟩
  · exact ⟨_, exec_qwait h, hq.1 (Core.qwaitDone_iff.mpr hd)⟩
  · exact ⟨_, exec_qwait h, hq.2 (Bool.eq_false_iff.mpr fun hc => hd (Core.qwaitDone_iff.mp hc))⟩
  · exact ⟨_, exec_rfence h, hf.1 (Core.fenceDone_iff.mpr hd)⟩
  · exact ⟨_, exec_rfence h, hf.2 (Bool.eq_false_iff.mpr fun hc => hd (Core.fenceDone_iff.mp hc))⟩
  · exact ⟨_, exec_stop h, (stop_becomes held_becomes h.2.1 rfl).1 (Core.stopDone_iff.mpr hd)⟩
  · exact ⟨_, exec_stop h, (stop_becomes held_becomes h.2.1 rfl).2 (Bool.eq_false_iff.mpr fun hc => hd (Core.stopDone_iff.mp hc))⟩
  · exact ⟨_, exec_qwaitRelease hF hC, (qwait_becomes (.self hk) rfl).1 (Core.qwaitDone_iff.mpr hd)⟩
  · exact ⟨_, exec_qwaitRelease hF hC, (rfence_becomes (.self hk) rfl).1 (Core.fenceDone_iff.mpr hd)⟩
  · exact ⟨_, exec_qwaitRelease hF hC, (stop_becomes (.self hk) hC rfl).1 (Core.stopDone_iff.mpr hd)⟩

end Sys2Proof.Machine

/-! SUPPORT. LD, ST, VST and SREAD (R190, R199, R200, R207; O12). -/

namespace Sys2Proof.Machine

/-- A sign extension, in the model's arithmetic. -/
theorem wrap_sext (n m v : Nat) : wrap n (sext m v) = ((BitVec.ofNat m v).signExtend n).toNat := by
  rw [sext_eq_toInt, wrap_eq_toNat_ofInt, BitVec.signExtend]

theorem packElems_length (code : Nat) (es : List Nat) : (packElems code es).length = packedLen code es.length := leBytes_length ..

/-- The 16 elements of a vector register occupy the bytes that VLD and VST move (R207). -/
theorem packedLen_of_vecBytes {code m : Nat} (h : vecBytes code = some m) : packedLen code 16 = m := by
  unfold vecBytes at h
  split at h
  all_goals cases h
  all_goals rfl

section
variable {s : State} {f c : Nat} {w : Word64} {p : Place}

theorem exec_ld (h : s.Issues f c 0x04 w)
    (hp : effAddr f c (s.core f c) (iSpace w) (iB w) (iImm w) (2 ^ bits (iFn w) 1 0) (2 ^ bits (iFn w) 1 0) false = .ok p) :
    exec (.ld f c w) s = .next (s.retS f c (iA w) (
      let v := ofLE (s.rdPlace f c p (2 ^ bits (iFn w) 1 0))
      if bit (iFn w) 2 then ((BitVec.ofNat (8 * 2 ^ bits (iFn w) 1 0) v).signExtend 32).toNat else v)) := by
  refine (issue_next h).trans ?_
  simp only [hp, wrap_sext]

theorem exec_st (h : s.Issues f c 0x05 w)
    (hp : effAddr f c (s.core f c) (iSpace w) (iB w) (iImm w) (2 ^ bits (iFn w) 1 0) (2 ^ bits (iFn w) 1 0) false = .ok p) :
    exec (.st f c w) s =
      .next ((s.wrPlace f c p (leBytes (2 ^ bits (iFn w) 1 0) ((s.core f c).s (iA w)))).advance f c) := by
  refine (issue_next h).trans ?_
  simp only [hp]

theorem exec_vst {m : Nat} (h : s.Issues f c 0x24 w) (hm : vecBytes (bits (iFn w) 4 0) = some m)
    (hp : effAddr f c (s.core f c) (iSpace w) (iB w) (iImm w) m m false = .ok p) :
    exec (.vst f c w) s = .next ((s.wrPlace f c p
      (packElems (bits (iFn w) 4 0) (((s.core f c).lanes (iA w)).map (narrow (bits (iFn w) 4 0))))).advance f c) := by
  refine (issue_next h).trans ?_
  simp only [hm, hp]

/-! ### SREAD -/

/-- What SREAD gives of each selector but CYCLE_LO (Table 5.7). -/
def State.selected (s : State) (f c sel : Nat) : Nat :=
  match sel with
  | 0 => coreId f c
  | 1 => s.fld .drvSelf 0 0 29 16
  | 2 => s.fld .drvSelf 0 0 46 32
  | 3 => s.fld .drvSelf 0 0 13 0
  | 5 => (s.core f c).cycleHi.toNat
  | _ => (s.flock f).regionLen c

theorem exec_sread (h : s.Issues f c 0x0F w) (hsel : iFn w ≠ 4) :
    exec (.sread f c w) s = .next (s.retS f c (iA w) (s.selected f c (iFn w))) := by
  refine (issue_next h).trans (congrArg Host.Outcome.next ?_)
  unfold State.selected
  dsimp only
  generalize iFn w = sel at hsel
  match sel with
  | 0 | 1 | 2 | 3 | 5 | _ + 6 => rfl
  | 4 => exact absurd rfl hsel

theorem exec_sread_cycle (h : s.Issues f c 0x0F w) (hsel : iFn w = 4) :
    exec (.sread f c w) s = .next (
      (s.bump.modCore f c fun k => { k with cycles := s.cycleNow f c, cycleHi := BitVec.ofNat 32 (bits (s.cycleNow f c) 63 32) }).retS
        f c (iA w) (bits (s.cycleNow f c) 31 0)) := by
  refine (issue_next h).trans ?_
  simp only [hsel]

end

theorem Core.setS_cycles (k : Core) (r v n : Nat) (h : Word32) :
    { k with cycles := n, cycleHi := h }.setS r v = { k.setS r v with cycles := n, cycleHi := h } := by
  unfold Core.setS
  split <;> rfl

theorem cycleHi_eq (n : Nat) : BitVec.ofNat 32 (bits n 63 32) = BitVec.ofNat 32 (n / 2 ^ 32) := by
  simp [bits, Nat.shiftRight_eq_div_pow, ← BitVec.toNat_inj]

/-- A write of a place and an advance leave the memory that the place does not name. -/
theorem other_memory_stays {s : State} {f c : Nat} {p : Place} {bs : List Byte} :
    if p.inStore then ((s.wrPlace f c p bs).advance f c).scratch = s.scratch
    else ((s.wrPlace f c p bs).advance f c).store = s.store := by
  split
  · next hin => exact (wrPlace_scratch ..).trans (if_pos hin)
  · next hin => exact (wrPlace_store ..).trans (if_neg hin)

/-- The bytes `bs` stand at the place, PC has moved on, and beside it no byte of memory, no register and no core changes, but that a
monitored WAIT may be satisfied (R507). -/
def Stores (f c : Nat) (p : Place) (n : Nat) (bs : List Byte) (s t : State) : Prop :=
  t = { s with cores := t.cores, store := t.store, scratch := t.scratch } ∧
    (if p.inStore then t.scratch = s.scratch else t.store = s.store) ∧ t.rdPlace f c p n = bs ∧
    (∀ a, ¬(p.inStore = true ∧ f * storeSize + p.off ≤ a ∧ a < f * storeSize + p.off + n) →
      Sparse.get 0 t.store a = Sparse.get 0 s.store a) ∧
    (∀ a, ¬(p.inStore = false ∧ coreIdx f c * scratchSize + p.off ≤ a ∧ a < coreIdx f c * scratchSize + p.off + n) →
      Sparse.get 0 t.scratch a = Sparse.get 0 s.scratch a) ∧
    t.core f c = { s.core f c with pc := (s.core f c).pc + 1 } ∧
    ∀ f' c', coreIdx f' c' ≠ coreIdx f c → ∃ h, t.core f' c' = { s.core f' c' with hold := h }

theorem stores_advance {s : State} {f c op n : Nat} {w : Word64} {i : Instr} {p : Place} {bs : List Byte} (h : s.Issues f c op w)
    (hn : bs.length = n) (he : exec i s = .next ((s.wrPlace f c p bs).advance f c)) :
    ∃ t, exec i s = .next t ∧ Stores f c p n bs s t := by
  subst hn
  obtain ⟨hread, hcore, hrest, hcores, hstore, hscratch⟩ := advance_writesPlace (p := p) h bs
  exact ⟨_, he, hrest, other_memory_stays, hread, hstore, hscratch, hcore, hcores⟩

/-- Settles O12: the loads by `retS_becomes`, the stores by `advance_writesPlace`. -/
theorem loadsStoresAndSread : Obligations.LoadsStoresAndSread := by
  refine ⟨fun s f c w p h hp => ⟨_, exec_ld h hp, retS_becomes ..⟩, fun s f c w => ?_, fun s f c w h => ⟨fun hsel => ?_, fun hsel => ?_⟩⟩
  · refine ⟨fun p h hp => stores_advance h (leBytes_length ..) (exec_st h hp), fun m hm p h hp => stores_advance h ?_ (exec_vst h hm hp),
      fun p h hp => stores_advance h (leBytes_length ..) (exec_siginit hp h)⟩
    rw [packElems_length, List.length_map, Core.lanes, List.length_map, List.length_range, packedLen_of_vecBytes hm]
  · exact ⟨_, exec_sread h hsel, retS_becomes ..⟩
  · refine ⟨_, exec_sread_cycle h hsel, rfl, ?_, ?_⟩
    · rw [(retS_becomes f c _ _ _).2, State.core_modCore_same, Core.setS_cycles, bits_low, cycleHi_eq]
      rfl
    · intro f' c' hne
      exact ((retS_becomes f c _ _ _).1.2 f' c' hne).trans ((onlyCore_modCore f c s.bump _).2 f' c' hne)

end Sys2Proof.Machine

/-! SUPPORT. The vector instructions (R204 to R210; O15). -/

namespace Sys2Proof.Machine

/-! ### The vector functions on one lane (Table 5.8) -/

/-- Flipping bit 31 of a 31-bit number adds it. -/
theorem xor_two_pow_31 {a : Nat} (h : a < 2 ^ 31) : a ^^^ 2 ^ 31 = a + 2 ^ 31 := by
  refine Nat.eq_of_testBit_eq fun i => ?_
  rw [Nat.testBit_xor, Nat.testBit_two_pow, Nat.add_comm, ← Nat.mul_one (2 ^ 31), Nat.testBit_two_pow_mul_add 1 h]
  by_cases hi : i < 31
  · rw [if_pos hi, decide_eq_false (by omega), Bool.xor_false]
  · rw [if_neg hi, Nat.testBit_lt_two_pow (Nat.lt_of_lt_of_le h (Nat.pow_le_pow_right (by decide) (by omega))), Bool.false_xor,
      show Nat.testBit 1 (i - 31) = decide (0 = i - 31) from Nat.testBit_two_pow (n := 0)]
    exact decide_eq_decide.mpr (by omega)

/-- NEG flips the sign bit (R205). -/
theorem fNeg_eq {a : Nat} (h : a < 2 ^ 32) : fNeg a = if a < 2 ^ 31 then a + 2 ^ 31 else a - 2 ^ 31 := by
  rw [fNeg, Nat.mod_eq_of_lt h]
  split
  · next hlow => exact xor_two_pow_31 hlow
  · next hhigh =>
    have hlow : a - 2 ^ 31 < 2 ^ 31 := by omega
    have ha : a = (a - 2 ^ 31) ^^^ 2 ^ 31 := by rw [xor_two_pow_31 hlow]; omega
    rw [ha, Nat.xor_assoc, Nat.xor_self, Nat.xor_zero, ← ha]

/-- A NaN rounded to FP32 is a NaN. -/
theorem isNan_toF32 {v : FVal} (h : v.isNan = true) : (f32 (toF32 v)).isNan = true := by
  cases v with
  | nan neg => cases neg <;> rfl
  | inf neg => cases h
  | fin neg m e => cases h

/-- A NaN operand of MIN or MAX gives a NaN. -/
theorem isNan_nanOf {a b x : Nat} (h : (f32 a).isNan = true ∨ (f32 b).isNan = true) : (f32 ((nanOf a b).getD x)).isNan = true := by
  unfold nanOf
  split
  · next ha => exact isNan_toF32 ha
  · next ha =>
    have hb := h.resolve_left ha
    rw [if_pos hb]
    exact isNan_toF32 hb

/-- A NaN orders neither below nor above. -/
theorem lt_nan {u v : FVal} (h : u.isNan = true ∨ v.isNan = true) : u.lt v = false := by
  cases u <;> cases v <;> simp_all [FVal.isNan, FVal.lt]

theorem fGt_nan {a b : Nat} (h : (f32 a).isNan = true ∨ (f32 b).isNan = true) : fGt a b = 0 :=
  if_neg (ne_true_of_eq_false (lt_nan h.symm))

/-! ### The instructions -/

section
variable {s : State} {f c : Nat} {w : Word64}

theorem exec_vop_binary (h : s.Issues f c 0x20 w) (hfn : iFn w < 0x10) :
    exec (.vop f c w) s = .next (s.retV f c (iA w)
      ((List.range 16).map fun l => vBinary (iFn w) ((s.core f c).lane (iB w) l) ((s.core f c).lane (iC w) l))) := by
  refine (issue_next h).trans ?_
  simp only [if_pos hfn, Core.lanes, List.zipWith_map, List.zipWith_self]

theorem exec_vop_unary (h : s.Issues f c 0x20 w) (hfn : 0x10 ≤ iFn w) :
    exec (.vop f c w) s = .next (s.retV f c (iA w)
      ((List.range 16).map fun l => vUnary (iFn w) ((s.core f c).lane (iB w) l))) := by
  refine (issue_next h).trans ?_
  simp only [if_neg (Nat.not_lt.mpr hfn), Core.lanes, List.map_map, Function.comp_def]

theorem exec_vops (h : s.Issues f c 0x21 w) :
    exec (.vops f c w) s = .next (s.retV f c (iA w)
      ((List.range 16).map fun l => vBinary (iFn w) ((s.core f c).lane (iB w) l) ((s.core f c).s (iC w)))) := by
  refine (issue_next h).trans ?_
  simp only [Core.lanes, List.map_map, Function.comp_def]

theorem exec_vfma (h : s.Issues f c 0x22 w) :
    exec (.vfma f c w) s = .next (s.retV f c (iA w)
      ((List.range 16).map fun l => fFma ((s.core f c).lane (iB w) l) ((s.core f c).lane (iC w) l) ((s.core f c).lane (iA w) l))) := by
  refine (issue_next h).trans ?_
  simp only [Core.lanes, List.zip_map', List.zipWith_map, List.zipWith_self]

theorem exec_vred (h : s.Issues f c 0x25 w) :
    exec (.vred f c w) s = .next (s.retS f c (iA w) (vReduce (iFn w) ((List.range 16).map ((s.core f c).lane (iB w))))) :=
  issue_next h

theorem exec_vlane_insert (h : s.Issues f c 0x26 w) (hfn : bits (iFn w) 8 7 = 0) :
    exec (.vlane f c w) s = .next
      ((s.modCore f c fun k => k.setLane (iA w) (bits (iFn w) 3 0) ((s.core f c).s (iC w))).advance f c) := by
  refine (issue_next h).trans ?_
  simp only [hfn]

theorem exec_vlane_extract (h : s.Issues f c 0x26 w) (hfn : bits (iFn w) 8 7 = 1) :
    exec (.vlane f c w) s = .next (s.retS f c (iA w) ((s.core f c).lane (iB w) (bits (iFn w) 3 0))) := by
  refine (issue_next h).trans ?_
  simp only [hfn]

theorem exec_vlane_broadcast (h : s.Issues f c 0x26 w) (hfn : bits (iFn w) 8 7 = 2) :
    exec (.vlane f c w) s = .next (s.retV f c (iA w) (List.replicate 16 ((s.core f c).s (iC w)))) := by
  refine (issue_next h).trans ?_
  simp only [hfn]

theorem exec_vld {n : Nat} {p : Place} (h : s.Issues f c 0x23 w) (hn : vecBytes (bits (iFn w) 4 0) = some n)
    (hp : effAddr f c (s.core f c) (iSpace w) (iB w) (iImm w) n n false = .ok p) :
    exec (.vld f c w) s = .next (s.retV f c (iA w)
      ((List.range 16).map fun l => widen (bits (iFn w) 4 0) (packedElem (bits (iFn w) 4 0) (s.rdPlace f c p n) l))) := by
  refine (issue_next h).trans ?_
  simp only [hn, hp]

end

/-! ### VMXQ (R210) -/

theorem mxQuantise_length (code : Nat) (ws : List Nat) : (mxQuantise code ws).2.length = ws.length := by
  unfold mxQuantise
  dsimp only
  split <;> simp

theorem exec_vmxq {s : State} {f c : Nat} {w : Word64} {pe ps : Place} (h : s.Issues f c 0x27 w)
    (hmx : fmtMx (bits (iFn w) 4 0) = true)
    (hpe : effAddr f c (s.core f c) (iSpace w) (iA w) 0 8 (packedLen (bits (iFn w) 4 0) 32) false = .ok pe)
    (hps : effAddr f c (s.core f c) (iSpace w) (iC w) 0 1 1 false = .ok ps) :
    let q := mxQuantise (bits (iFn w) 4 0) ((s.core f c).lanes (iB w) ++ (s.core f c).lanes (iB w + 1))
    exec (.vmxq f c w) s =
      .next (((s.wrPlace f c pe (packElems (bits (iFn w) 4 0) q.2)).wrPlace f c ps (leBytes 1 q.1)).advance f c) := by
  refine (issue_next h).trans ?_
  simp only [hmx, hpe, hps, Bool.not_true, Bool.false_eq_true, if_false]

theorem Sparse.readBytes_congr {m m' : SMap Byte} {n : Nat} : ∀ {a : Nat},
    (∀ x, a ≤ x → x < a + n → Sparse.get 0 m x = Sparse.get 0 m' x) → Sparse.readBytes m a n = Sparse.readBytes m' a n := by
  induction n with
  | zero => exact fun _ => rfl
  | succ n ih =>
    intro a h
    exact congrArg₂ List.cons (h a (Nat.le_refl a) (by omega)) (ih fun x hx hx' => h x (by omega) (by omega))

/-- Bytes read beside those written. -/
theorem Sparse.readBytes_writeBytes_apart {m : SMap Byte} {a b n : Nat} {bs : List Byte} (h : b + bs.length ≤ a ∨ a + n ≤ b) :
    Sparse.readBytes (Sparse.writeBytes m b bs) a n = Sparse.readBytes m a n :=
  Sparse.readBytes_congr fun _ _ _ => Sparse.get_writeBytes_outside (by omega)

/-- Bytes at a place that a later write of another place does not touch. -/
theorem rdPlace_wrPlace_apart {s : State} {f c : Nat} {pe ps : Place} {be bs : List Byte}
    (h : pe.inStore ≠ ps.inStore ∨ ps.off + bs.length ≤ pe.off ∨ pe.off + be.length ≤ ps.off) :
    ((s.wrPlace f c pe be).wrPlace f c ps bs).rdPlace f c pe be.length = be := by
  unfold State.rdPlace State.rdStore State.rdScratch
  rw [wrPlace_store, wrPlace_scratch, wrPlace_store, wrPlace_scratch]
  cases hpe : pe.inStore <;> cases hps : ps.inStore
  case false.true | true.false => exact Sparse.readBytes_writeBytes ..
  all_goals
    have hapart : ps.off + bs.length ≤ pe.off ∨ pe.off + be.length ≤ ps.off := h.resolve_left (by simp [hpe, hps])
    simp only [Bool.false_eq_true, if_false, if_true]
    exact (Sparse.readBytes_writeBytes_apart (by omega)).trans (Sparse.readBytes_writeBytes ..)

/-- An advance leaves the memories. -/
theorem rdPlace_advance (s : State) (f c : Nat) (p : Place) (n : Nat) : (s.advance f c).rdPlace f c p n = s.rdPlace f c p n := rfl

/-- Two places written one after the other: cores are as after one write. -/
theorem wrPlace_wrPlace_core (s : State) (f c f' c' : Nat) (pe ps : Place) (be bs : List Byte) :
    ∃ h, ((s.wrPlace f c pe be).wrPlace f c ps bs).core f' c' = { s.core f' c' with hold := h } := by
  obtain ⟨h, hcore, -⟩ := wrPlace_core s f c f' c' pe be
  obtain ⟨h', hcore', -⟩ := wrPlace_core (s.wrPlace f c pe be) f c f' c' ps bs
  exact ⟨h', by rw [hcore', hcore]⟩

section
variable {s : State} {f c : Nat} {w : Word64} {pe ps : Place} {be : List Byte} {b : Byte}

/-- VMXQ's two writes leave every byte of the stores that neither place holds. -/
theorem twoPlaces_store {a : Nat} (he : ¬(pe.inStore = true ∧ f * storeSize + pe.off ≤ a ∧ a < f * storeSize + pe.off + be.length))
    (hs : ¬(ps.inStore = true ∧ a = f * storeSize + ps.off)) :
    Sparse.get 0 ((s.wrPlace f c pe be).wrPlace f c ps [b]).store a = Sparse.get 0 s.store a := by
  rw [wrPlace_store, wrPlace_store]
  have hfirst : Sparse.get 0 (if pe.inStore then Sparse.writeBytes s.store (f * storeSize + pe.off) be else s.store) a =
      Sparse.get 0 s.store a := by
    split
    · next hin =>
      have hout : ¬_ := fun hr => he ⟨hin, hr⟩
      exact Sparse.get_writeBytes_outside (by omega)
    · rfl
  split
  · next hin =>
    have hout : ¬_ := fun hr => hs ⟨hin, hr⟩
    rw [Sparse.get_writeBytes_outside (by rw [List.length_singleton]; omega), hfirst]
  · exact hfirst

/-- The same of the core scratches. -/
theorem twoPlaces_scratch {a : Nat}
    (he : ¬(pe.inStore = false ∧ coreIdx f c * scratchSize + pe.off ≤ a ∧ a < coreIdx f c * scratchSize + pe.off + be.length))
    (hs : ¬(ps.inStore = false ∧ a = coreIdx f c * scratchSize + ps.off)) :
    Sparse.get 0 ((s.wrPlace f c pe be).wrPlace f c ps [b]).scratch a = Sparse.get 0 s.scratch a := by
  rw [wrPlace_scratch, wrPlace_scratch]
  have hfirst : Sparse.get 0 (if pe.inStore then s.scratch else Sparse.writeBytes s.scratch (coreIdx f c * scratchSize + pe.off) be) a =
      Sparse.get 0 s.scratch a := by
    split
    · rfl
    · next hin =>
      have hout : ¬_ := fun hr => he ⟨Bool.eq_false_of_not_eq_true hin, hr⟩
      exact Sparse.get_writeBytes_outside (by omega)
  split
  · exact hfirst
  · next hin =>
    have hout : ¬_ := fun hr => hs ⟨Bool.eq_false_of_not_eq_true hin, hr⟩
    rw [Sparse.get_writeBytes_outside (by rw [List.length_singleton]; omega), hfirst]

end

/-- Settles O15: each instruction by its equation and the rule of its destination; VMXQ is two writes of places. -/
theorem vectorInstructions : Obligations.VectorInstructions := by
  refine ⟨fun s f c w => ?_, fun a b ha hb => ?_, fun s f c w pe ps => ?_⟩
  · refine ⟨fun h hfn => ⟨_, exec_vop_binary h hfn, retV_becomes ..⟩, fun h hfn => ⟨_, exec_vop_unary h hfn, retV_becomes ..⟩,
      fun h => ⟨_, exec_vops h, retV_becomes ..⟩, fun h => ⟨_, exec_vfma h, retV_becomes ..⟩, fun h => ⟨_, exec_vred h, retS_becomes ..⟩,
      fun h hfn => ⟨_, exec_vlane_insert h hfn, modCore_advance_becomes ..⟩,
      fun h hfn => ⟨_, exec_vlane_extract h hfn, retS_becomes ..⟩, fun h hfn => ⟨_, exec_vlane_broadcast h hfn, retV_becomes ..⟩,
      fun n p h hn hp => ⟨_, exec_vld h hn hp, retV_becomes ..⟩⟩
  · exact ⟨rfl, fNeg_eq ha, rfl, rfl, rfl, rfl, fun h => ⟨isNan_nanOf h, isNan_nanOf h, fGt_nan h⟩, rfl, rfl, rfl, rfl, rfl, rfl, rfl⟩
  · intro k code q h hmx hpe hps
    have hlen : (packElems code q.2).length = packedLen code 32 := by
      rw [packElems_length, mxQuantise_length, List.length_append]
      rfl
    obtain ⟨hread, -, hrest, -⟩ := CoreBecomes.writesPlace (s := s.wrPlace f c pe (packElems code q.2)) (p := ps) (bs := leBytes 1 q.1)
      ⟨onlyCore_advance f c _, rfl⟩
    refine ⟨_, exec_vmxq h hmx hpe hps, ?_, ?_, ?_, fun f' c' hne => ?_, fun a he hs => ?_, fun a he hs => ?_, fun hapart => ?_⟩
    · rw [State.core_advance, wrPlace_core_free ((congrArg Core.hold (wrPlace_core_free h.hold)).trans h.hold), wrPlace_core_free h.hold]
    · exact hread
    · rw [hrest, wrPlace_rest s f c pe]
    · obtain ⟨hold, hcore⟩ := wrPlace_wrPlace_core s f c f' c' pe ps (packElems code q.2) (leBytes 1 q.1)
      exact ⟨hold, ((onlyCore_advance f c _).2 f' c' hne).trans hcore⟩
    · exact twoPlaces_store (hlen ▸ he) hs
    · exact twoPlaces_scratch (hlen ▸ he) hs
    · rw [rdPlace_advance, ← hlen]
      exact rdPlace_wrPlace_apart (by rw [hlen]; exact hapart)

end Sys2Proof.Machine

/-! SUPPORT. What ends an instruction at issue, and what a core fault leaves (R128, R129, R164 to R168, R176, R180; O16). -/

namespace Sys2Proof.Machine

/-! ### The issue of a word -/

section
variable {s : State} {f c op : Nat} {w : Word64} {k : State → State}

theorem issue_eq (hf : f < 672) (hc : c < 120) (hop : iOp w = op) :
    issue op f c w s k = .next (
      if !s.canIssue f c then s
      else if (s.flock f).regionLen c ≤ (s.core f c).pc then s.fetchFault f c
      else if (scalarsUsed w).any (s.core f c).awaits then s
      else if illegal w then s.precise f c 0x2 0 op
      else k s) := by
  rw [issue, if_neg (not_not.mpr hop), onCore_next hf hc]

theorem issue_held (hf : f < 672) (hc : c < 120) (hop : iOp w = op) (h : s.canIssue f c = false) :
    issue op f c w s k = .next s := by
  rw [issue_eq hf hc hop, if_pos (by simp [h])]

theorem issue_fetch (hf : f < 672) (hc : c < 120) (hop : iOp w = op) (h : s.canIssue f c = true)
    (hpc : (s.flock f).regionLen c ≤ (s.core f c).pc) : issue op f c w s k = .next (s.fetchFault f c) := by
  rw [issue_eq hf hc hop, if_neg (by simp [h]), if_pos hpc]

theorem issue_awaits (hf : f < 672) (hc : c < 120) (hop : iOp w = op) (h : s.canIssue f c = true)
    (hpc : (s.core f c).pc < (s.flock f).regionLen c) (hw : (scalarsUsed w).any (s.core f c).awaits = true) :
    issue op f c w s k = .next s := by
  rw [issue_eq hf hc hop, if_neg (by simp [h]), if_neg (Nat.not_le.mpr hpc), if_pos hw]

theorem issue_illegal (hf : f < 672) (hc : c < 120) (hop : iOp w = op) (h : s.canIssue f c = true)
    (hpc : (s.core f c).pc < (s.flock f).regionLen c) (hw : (scalarsUsed w).any (s.core f c).awaits = false)
    (hill : illegal w = true) : issue op f c w s k = .next (s.precise f c 0x2 0 op) := by
  rw [issue_eq hf hc hop, if_neg (by simp [h]), if_neg (Nat.not_le.mpr hpc), if_neg (Bool.eq_false_iff.mp hw), if_pos hill]

/-- A word of no row is ILLEGAL. -/
theorem illegal_of_no_row (h : opRow (iOp w) = none) : illegal w = true := by
  unfold illegal
  rw [h]

theorem issue_goes_on : ∃ t, issue op f c w s k = .next t := by
  unfold issue
  split
  · exact ⟨s, rfl⟩
  · exact ⟨_, rfl⟩

theorem exec_ld_bad {st a : Nat} (h : s.Issues f c 0x04 w)
    (hp : effAddr f c (s.core f c) (iSpace w) (iB w) (iImm w) (2 ^ bits (iFn w) 1 0) (2 ^ bits (iFn w) 1 0) false = .bad st a) :
    exec (.ld f c w) s = .next ((s.flkLog f a st 0 (coreId f c)).precise f c 0x3 st 0x04) := by
  refine (issue_next h).trans ?_
  simp only [hp]
  rfl

end

/-! ### A core fault -/

/-- The word that FLK_CORE_FAULT takes of a first fault (Table 4.5), but for VALID and OVERRUN. -/
def faultWord (cls st dropped pc op seq : Nat) (im : Bool) : Nat :=
  im.toNat * 2 ^ 61 + cls * 2 ^ 56 + st * 2 ^ 52 + dropped * 2 ^ 47 + pc * 2 ^ 24 + op * 2 ^ 16 + seq

theorem bits_faultWord {cls st dropped pc op seq : Nat} {im : Bool} (hcls : cls < 16) (hst : st < 16) (hdropped : dropped < 32)
    (hpc : pc < 2 ^ 20) (hop : op < 256) (hseq : seq < 2 ^ 16) :
    let v := faultWord cls st dropped pc op seq im
    v < 2 ^ 64 ∧ bits v 61 61 = im.toNat ∧ bits v 59 56 = cls ∧ bits v 55 52 = st ∧ bits v 51 47 = dropped ∧ bits v 43 24 = pc ∧
      bits v 23 16 = op ∧ bits v 15 0 = seq := by
  have him : im.toNat < 2 := Bool.toNat_lt im
  simp only [faultWord, bits, Nat.shiftRight_eq_div_pow]
  omega

/-- The fault is recorded; the core does not halt yet. -/
def State.recordCoreFault (s : State) (f c v : Nat) : State :=
  if bit (s.reg .flkCoreFault f c) 63 then s.setRbit .flkCoreFault f c 62 true
  else (s.event 0x01 0 (coreId f c) (firstEntry (s.reg .flkCoreFault f c) v) (s.reg .flkFaultAddr f 0)).setReg .flkCoreFault f c
    (firstEntry (s.reg .flkCoreFault f c) v)

section
variable (s : State) (f c : Nat)

theorem coreFault_eq (cls st dropped pc op seq : Nat) (im : Bool) :
    s.coreFault f c cls st dropped pc op seq im = (s.recordCoreFault f c (faultWord cls st dropped pc op seq im)).haltCore f c := rfl

theorem recordCoreFault_logOnly (v : Nat) : LogOnly s (s.recordCoreFault f c v) :=
  ite_logOnly (setRbit_logOnly ..) ((event_logOnly ..).trans (setReg_logOnly ..))

theorem recordCoreFault_outside (v : Nat) :
    RegsOutside {Reg.flkCoreFault.addr f c, Reg.drvEvtStatus.addr 0 0} s (s.recordCoreFault f c v) :=
  .ite (setRbit_outside (.inl rfl) ..) ((event_outside (.inr rfl) ..).trans (setReg_outside (.inl rfl) ..))

theorem reg_recordCoreFault {v : Nat} (hv : v < 2 ^ 64) :
    (s.recordCoreFault f c v).reg .flkCoreFault f c = logEntry (s.reg .flkCoreFault f c) v := by
  unfold State.recordCoreFault logEntry
  split
  · exact (State.reg_setReg_same ..).trans (Nat.mod_eq_of_lt (setBit_lt _ (s.reg_lt ..) (by decide)))
  · exact (State.reg_setReg_same ..).trans (Nat.mod_eq_of_lt (firstEntry_lt hv))

theorem haltCore_halted (hc : c < 120) : (s.haltCore f c).halted f c = true := (s.setCbit_spec _ _ f true hc).1

theorem core_haltCore : (s.haltCore f c).core f c = { s.core f c with queue := [], hold := .free } :=
  (s.setCbit .flkCoreHaltLo .flkCoreHaltHi f c true).core_modCore_same f c fun k => { k with queue := [], hold := .free }

theorem core_haltCore_ne {f' c' : Nat} (h : coreIdx f' c' ≠ coreIdx f c) : (s.haltCore f c).core f' c' = s.core f' c' :=
  (s.setCbit .flkCoreHaltLo .flkCoreHaltHi f c true).core_setCore_ne f c f' c' _ h

theorem haltCore_outside : RegsOutside {(coreBit .flkCoreHaltLo .flkCoreHaltHi c).1.addr f 0} s (s.haltCore f c) :=
  (setRbit_outside_self ..).trans (.of_regs rfl)

end

/-- The halt and done bits of a flock stand apart from the fault registers of its cores. -/
theorem coreFault_addr_ne_halt {f c : Nat} (hc : c < 120) :
    Reg.flkCoreFault.addr f c ≠ (coreBit .flkCoreHaltLo .flkCoreHaltHi c).1.addr f 0 := by
  unfold coreBit
  split
  · simp [Reg.addr, Reg.row, Block.base]; omega
  · simp [Reg.addr, Reg.row, Block.base]; omega

theorem done_addr_ne {f c : Nat} (hc : c < 120) :
    (coreBit .flkCoreDoneLo .flkCoreDoneHi c).1.addr f 0 ∉
      ({Reg.flkCoreFault.addr f c, Reg.drvEvtStatus.addr 0 0} : Set Nat) ∪ {(coreBit .flkCoreHaltLo .flkCoreHaltHi c).1.addr f 0} := by
  unfold coreBit
  split
  · simp [Reg.addr, Reg.row, Block.base]; omega
  · simp [Reg.addr, Reg.row, Block.base]; omega

/-- The fault register after a core fault. -/
theorem reg_coreFault {s : State} {f c cls st dropped pc op seq : Nat} {im : Bool} (hc : c < 120)
    (hv : faultWord cls st dropped pc op seq im < 2 ^ 64) :
    (s.coreFault f c cls st dropped pc op seq im).reg .flkCoreFault f c =
      logEntry (s.reg .flkCoreFault f c) (faultWord cls st dropped pc op seq im) :=
  ((haltCore_outside _ f c).reg _ _ _ (coreFault_addr_ne_halt hc)).trans (reg_recordCoreFault s f c hv)

/-- Settles O16: the issue by the branches of `issue`, the fault as an entry of a log and a halt. -/
theorem faultsAtIssueHaltTheCore : Obligations.FaultsAtIssueHaltTheCore := by
  refine ⟨fun s f c op w k hf hc hop => ⟨issue_held hf hc hop, issue_fetch hf hc hop, issue_awaits hf hc hop, issue_illegal hf hc hop,
    fun hrow => ⟨illegal_of_no_row (hop ▸ hrow), issue_goes_on⟩, fun st a => exec_ld_bad⟩, ?_⟩
  intro s f c cls st dropped pc op seq im hf hc hcls hst hdropped hpc hop hseq
  obtain ⟨hv, him, hcls', hst', hdropped', hpc', hop', hseq'⟩ := bits_faultWord (im := im) hcls hst hdropped hpc hop hseq
  have hlog := recordCoreFault_logOnly s f c (faultWord cls st dropped pc op seq im)
  dsimp only
  rw [reg_coreFault hc hv, coreFault_eq]
  refine ⟨haltCore_halted _ f c hc, ?done, ?core, fun f' c' hne => ?others, hlog.store, hlog.scratch, hlog.dram, logEntry_again, fun hfirst => ?first⟩
  case done => exact ((recordCoreFault_outside s f c _).mono Set.subset_union_left |>.trans
    ((haltCore_outside _ f c).mono Set.subset_union_right)).rbit (done_addr_ne hc) _
  case core => rw [core_haltCore, hlog.core]
  case others => rw [core_haltCore_ne _ f c hne, hlog.core]
  case first =>
    rw [logEntry_first hfirst]
    refine ⟨bit_firstEntry_valid .., bit_firstEntry_overrun .., ?_, ?_, ?_, ?_, ?_, ?_, ?_⟩
    · rw [bit_eq_testBit_bits, bits_firstEntry (by decide), him]
      cases im <;> rfl
    all_goals rw [bits_firstEntry (by decide)]; assumption

end Sys2Proof.Machine

/-! SUPPORT. Array faults: the array's fault register, and the core that halts (R119 to R123). -/

namespace Sys2Proof.Machine

section
variable (s : State) {f c cause status fmt set done req : Nat}

/-- The fields CAUSE and STATUS of a first entry of FLK_ARRAY_FAULT (Table 3.9). -/
theorem bits_arrayEntry (old : Nat) (hcause : cause < 16) (hstatus : status < 16) (hfmt : fmt < 32) (hset : set < 4) :
    let v := setBit (2 ^ 63 + cause * 2 ^ 56 + status * 2 ^ 52 + fmt * 2 ^ 47 + set * 2 ^ 45 + (done % 2 ^ 21) * 2 ^ 21
      + req % 2 ^ 21) 62 (bit old 62)
    v < 2 ^ 64 ∧ bits v 59 56 = cause ∧ bits v 55 52 = status := by
  dsimp only
  rw [bits_setBit_ne _ (.inl (by decide)), bits_setBit_ne _ (.inl (by decide))]
  refine ⟨setBit_lt _ (by omega) (by decide), ?_, ?_⟩
  all_goals
    simp only [bits, Nat.shiftRight_eq_div_pow]
    omega

theorem bits_arrayLog (hcause : cause < 16) (hstatus : status < 16) (hfmt : fmt < 32) (hset : set < 4)
    (h : bit (s.reg .flkArrayFault f c) 63 = false) :
    bits ((s.arrayLog f c cause status fmt set done req).reg .flkArrayFault f c) 59 56 = cause ∧
      bits ((s.arrayLog f c cause status fmt set done req).reg .flkArrayFault f c) 55 52 = status := by
  obtain ⟨hlt, hc, hs⟩ := bits_arrayEntry (done := done) (req := req) (s.reg .flkArrayFault f c) hcause hstatus hfmt hset
  unfold State.arrayLog
  rw [if_neg (Bool.eq_false_iff.mp h), State.reg_setReg_same, Nat.mod_eq_of_lt hlt]
  exact ⟨hc, hs⟩

theorem arrayLog_logOnly : LogOnly s (s.arrayLog f c cause status fmt set done req) :=
  ite_logOnly (setRbit_logOnly ..) (setReg_logOnly ..)

theorem arrayLog_outside : RegsOutside {Reg.flkArrayFault.addr f c} s (s.arrayLog f c cause status fmt set done req) :=
  .ite (setRbit_outside_self ..) (setReg_outside (Set.mem_singleton _) ..)

end

theorem arrayFault_addr_ne (f c : Nat) : Reg.flkCoreFault.addr f c ≠ Reg.flkArrayFault.addr f c := by
  simp [Reg.addr, Reg.row, Block.base]

theorem arrayFault_addr_notMem {f c : Nat} (hc : c < 120) : Reg.flkArrayFault.addr f c ∉
    ({Reg.flkCoreFault.addr f c, Reg.drvEvtStatus.addr 0 0} : Set Nat) ∪ {(coreBit .flkCoreHaltLo .flkCoreHaltHi c).1.addr f 0} := by
  unfold coreBit
  split
  · simp [Reg.addr, Reg.row, Block.base]; omega
  · simp [Reg.addr, Reg.row, Block.base]; omega

/-- A core fault leaves the registers but its own, the halt bits and the count of dropped events. -/
theorem coreFault_outside (s : State) (f c cls st dropped pc op seq : Nat) (im : Bool) :
    RegsOutside ({Reg.flkCoreFault.addr f c, Reg.drvEvtStatus.addr 0 0} ∪ {(coreBit .flkCoreHaltLo .flkCoreHaltHi c).1.addr f 0}) s
      (s.coreFault f c cls st dropped pc op seq im) :=
  ((recordCoreFault_outside s f c _).mono Set.subset_union_left).trans ((haltCore_outside _ f c).mono Set.subset_union_right)

theorem core_coreFault (s : State) (f c cls st dropped pc op seq : Nat) (im : Bool) :
    (s.coreFault f c cls st dropped pc op seq im).core f c = { s.core f c with queue := [], hold := .free } := by
  rw [coreFault_eq, core_haltCore, (recordCoreFault_logOnly s f c _).core]

theorem coreFault_halted (s : State) {f c : Nat} (cls st dropped pc op seq : Nat) (im : Bool) (hc : c < 120) :
    (s.coreFault f c cls st dropped pc op seq im).halted f c = true := haltCore_halted _ f c hc

section
variable (s : State) {f c : Nat} (e : ArrayEntry) {cause status done : Nat} {atRow : Bool}

theorem ArrayEntry.fmt_lt (x : Nat) : e.fmt cause (bits x 4 0) < 32 := by
  unfold ArrayEntry.fmt
  split
  · exact bits_lt ..
  · split <;> exact bits_lt ..
  · exact bits_lt ..
  · exact bits_lt ..

theorem ArrayEntry.set_lt (x : Nat) : e.set (bits x 6 5) < 4 := by
  unfold ArrayEntry.set
  split
  · exact bits_lt ..
  · exact bits_lt (iFn e.w) 6 5

/-- An array fault halts the core; its queue is discarded (R120). -/
theorem arrayFault_halts (hc : c < 120) : (s.arrayFault f c e cause status done atRow).halted f c = true ∧
    (s.arrayFault f c e cause status done atRow).core f c = { s.core f c with queue := [], hold := .free } := by
  refine ⟨coreFault_halted _ _ _ _ _ _ _ _ hc, (core_coreFault ..).trans ?_⟩
  rw [(arrayLog_logOnly s.bump).core]
  rfl

/-- The array's fault register takes cause and status of the first fault. -/
theorem bits_arrayFault (hc : c < 120) (hcause : cause < 16) (hstatus : status < 16)
    (h : bit (s.reg .flkArrayFault f c) 63 = false) :
    bits ((s.arrayFault f c e cause status done atRow).reg .flkArrayFault f c) 59 56 = cause ∧
      bits ((s.arrayFault f c e cause status done atRow).reg .flkArrayFault f c) 55 52 = status := by
  unfold State.arrayFault
  dsimp only
  rw [(coreFault_outside ..).reg _ _ _ (arrayFault_addr_notMem hc)]
  exact bits_arrayLog s.bump hcause hstatus (e.fmt_lt _) (e.set_lt _) h

theorem iOp_lt (w : Word64) : iOp w < 256 := bits_lt w.toNat 63 56

/-- The core's fault register takes class ARRAY, and a fault at the start the entry's own index (R122). -/
theorem bits_arrayFault_core (hc : c < 120) (hpc : e.pc < 2 ^ 20) (h : bit (s.reg .flkCoreFault f c) 63 = false) :
    bits ((s.arrayFault f c e cause 0 done false).reg .flkCoreFault f c) 59 56 = 1 ∧
      bits ((s.arrayFault f c e cause 0 done false).reg .flkCoreFault f c) 43 24 = e.pc ∧
      bit ((s.arrayFault f c e cause 0 done false).reg .flkCoreFault f c) 61 = false := by
  have hseq : bits s.freeVal.toNat 43 28 < 2 ^ 16 := bits_lt ..
  obtain ⟨hv, him, hcls, -, -, hpc', -, -⟩ := bits_faultWord (cls := 0x1) (st := 0) (dropped := 0) (im := false) (by decide) (by decide)
    (by decide) hpc (iOp_lt e.w) hseq
  unfold State.arrayFault
  simp only [Bool.false_eq_true, if_false]
  rw [reg_coreFault hc hv, (arrayLog_outside s.bump).reg _ _ _ (arrayFault_addr_ne f c),
    show s.bump.reg .flkCoreFault f c = s.reg .flkCoreFault f c from rfl, logEntry_first h]
  refine ⟨?_, ?_, ?_⟩
  · rw [bits_firstEntry (by decide), hcls]
  · rw [bits_firstEntry (by decide), hpc']
  · rw [bit_eq_testBit_bits, bits_firstEntry (by decide), him]
    rfl

end

end Sys2Proof.Machine

/-! SUPPORT. The roads (R147, R148, R150; O19). -/

namespace Sys2Proof.Machine

section
variable (s : State) {f q q' f' : Nat}

theorem inPort_setInPort_same (x : InPort) : (s.setInPort f q x).inPort f q = x := by
  simp [State.inPort, State.setInPort]

theorem inPort_setInPort_ne (x : InPort) (h : q' ≠ q) : (s.setInPort f q x).inPort f q' = s.inPort f q' := by
  simp only [State.inPort, State.setInPort, State.flock_modFlock_same, Sparse.get_set_ne h]

theorem outPort_setOutPort_same (x : OutPort) : (s.setOutPort f q x).outPort f q = x := by
  simp [State.outPort, State.setOutPort]

theorem outPort_setOutPort_ne (x : OutPort) (h : q' ≠ q) : (s.setOutPort f q x).outPort f q' = s.outPort f q' := by
  simp only [State.outPort, State.setOutPort, State.flock_modFlock_same, Sparse.get_set_ne h]

theorem flock_modFlock_ne (g : Flock → Flock) (h : f' ≠ f) : (s.modFlock f g).flock f' = s.flock f' := s.flock_setFlock_ne f f' _ h

theorem exec_roadRowArrival {r : RoadRow} {rest : List RoadRow} {ok : Bool} (hf : f < 672) (hq : q < 8)
    (htransit : (s.inPort f q).transit = r :: rest) (hdead : (s.inPort f q).dead = false) :
    exec (.roadRowArrival f q ok) s = .next (s.setInPort f q
      { transit := rest, buf := (s.inPort f q).buf ++ [{ r with ok := ok }], dead := !ok }) := by
  unfold exec execRoadRowArrival onPort
  dsimp only
  rw [if_pos ⟨hf, hq⟩, htransit]
  simp only [hdead, Bool.false_eq_true, if_false]

theorem exec_roadCreditReturn (hf : f < 672) (hq : q < 8) (h : (s.outPort f q).returning ≠ 0) :
    exec (.roadCreditReturn f q) s = .next (s.setOutPort f q
      { used := (s.outPort f q).used - 1, returning := (s.outPort f q).returning - 1 }) := by
  unfold exec execRoadCreditReturn onPort
  dsimp only
  rw [if_pos ⟨hf, hq⟩, if_neg h]

/-- A row that never comes ends the only instruction that runs (R150). -/
theorem exec_roadTimeout {c : Nat} {r : ArrayRun} (hf : f < 672) (hc : c < 120) (htime : s.fld .flkTimeouts f 0 15 0 ≠ 0)
    (hruns : (s.core f c).runs = [r]) (hop : iOp r.e.w = 0x42) (hkind : tKind r.e.ta = 2)
    (hbuf : (s.inPort f (tRoad r.e.ta)).buf = []) :
    exec (.roadTimeout f c) s = .next (s.rowFault f c 0 r 4 stTimeout) := by
  unfold exec execRoadTimeout
  dsimp only
  rw [onCore_next hf hc, if_neg htime, hruns]
  simp [hop, hkind, hbuf]

/-- A fault at a row, but TARGET_RESET: the instruction is gone, then the array faults. -/
theorem rowFault_eq {c i cause status : Nat} {r : ArrayRun} (h : status ≠ stTargetReset) :
    s.rowFault f c i r cause status =
      (s.modCore f c fun k => { k with runs := k.runs.eraseIdx i }).arrayFault f c r.e cause status r.done true := by
  unfold State.rowFault
  dsimp only
  rw [if_neg h]

end

/-- Settles O19: the two port events by their equations, the timeout as a fault at a row. -/
theorem roadsDeliverRowsAndCredits : Obligations.RoadsDeliverRowsAndCredits := by
  refine fun s f q hf => ⟨fun r rest ok hq htransit hdead => ?row, fun hq h => ?credit, fun c r hc htime hruns hop hkind hbuf => ?timeout⟩
  case row =>
    exact ⟨_, exec_roadRowArrival s hf hq htransit hdead, rfl, inPort_setInPort_same .., fun q' hne => inPort_setInPort_ne _ _ hne,
      fun f' hne => flock_modFlock_ne _ _ hne⟩
  case credit =>
    exact ⟨_, exec_roadCreditReturn s hf hq h, rfl, outPort_setOutPort_same .., fun q' hne => outPort_setOutPort_ne _ _ hne,
      fun f' hne => flock_modFlock_ne _ _ hne⟩
  case timeout =>
    refine ⟨_, exec_roadTimeout s hf hc htime hruns hop hkind hbuf, ?_⟩
    rw [rowFault_eq s (by decide)]
    obtain ⟨hhalt, hcore⟩ := arrayFault_halts (s.modCore f c fun k => { k with runs := k.runs.eraseIdx 0 }) r.e (cause := 4)
      (status := stTimeout) (done := r.done) (atRow := true) hc
    refine ⟨hhalt, ?_, fun h => bits_arrayFault _ r.e hc (by decide) (by decide) h⟩
    rw [hcore, State.core_modCore_same, hruns]
    rfl

end Sys2Proof.Machine

/-! SUPPORT. Array instructions enter their queue and start (R112, R113, R119 to R122, R177; O17). -/

namespace Sys2Proof.Machine

/-! ### Entering the queue -/

/-- The entry of an array instruction, with the operands that it reads at issue (R130, R182). -/
def Core.entryOf (k : Core) (w : Word64) : ArrayEntry :=
  { w := w, pc := k.pc, ta := BitVec.ofNat 64 (k.t (iA w % 8)), ta1 := BitVec.ofNat 64 (k.t ((iA w + 1) % 8)),
    tb := BitVec.ofNat 64 (k.t (iB w % 8)), sb := BitVec.ofNat 32 (k.s (iB w)), sc := BitVec.ofNat 32 (k.s (iC w)) }

section
variable {s : State} {f c : Nat} {w : Word64}

theorem enqueue_full {bad : Option Nat} (h : 4 ≤ (s.core f c).queue.length) : s.enqueue f c w bad = s := if_pos h

theorem enqueue_bad {code : Nat} (h : (s.core f c).queue.length < 4) : s.enqueue f c w (some code) = s.fmtFault f c (iOp w) code :=
  if_neg (Nat.not_le.mpr h)

theorem enqueue_becomes (h : (s.core f c).queue.length < 4) :
    CoreBecomes f c s { s.core f c with queue := (s.core f c).queue ++ [(s.core f c).entryOf w], pc := (s.core f c).pc + 1 }
      (s.enqueue f c w none) := by
  rw [State.enqueue, if_neg (Nat.not_le.mpr h)]
  exact modCore_advance_becomes f c s fun k => { k with queue := k.queue ++ [(s.core f c).entryOf w] }

/-- An instruction that goes into the queue where its format code is accepted. -/
theorem enters_queue {op : Nat} {i : Instr} {bad : Option Nat} {ok : Prop} (he : s.Issues f c op w → exec i s = .next (s.enqueue f c w bad))
    (hok : ok → bad = none) (hbad : ¬ok → bad = some (bits (iFn w) 4 0)) :
    (s.Issues f c op w → (s.core f c).queue.length < 4 → ok → ∃ t, exec i s = .next t ∧
      CoreBecomes f c s { s.core f c with queue := (s.core f c).queue ++ [(s.core f c).entryOf w], pc := (s.core f c).pc + 1 } t) ∧
    (s.Issues f c op w → (s.core f c).queue.length < 4 → ¬ok →
      exec i s = .next ((s.arrayLog f c 0x1 0 (bits (iFn w) 4 0) 0 0 0).precise f c 0x1 0 op)) ∧
    (s.Issues f c op w → 4 ≤ (s.core f c).queue.length → exec i s = .next s) := by
  refine ⟨fun h hroom hyes => ?_, fun h hroom hno => ?_, fun h hfull => ?_⟩
  · rw [he h, hok hyes]
    exact ⟨_, rfl, enqueue_becomes hroom⟩
  · rw [he h, hbad hno, enqueue_bad hroom, h.opcode]
    rfl
  · rw [he h, enqueue_full hfull]

theorem badFmt_accepted {accepts : Nat → Bool} (h : accepts (bits (iFn w) 4 0) = true) : badFmt w accepts = none := if_pos h

theorem badFmt_refused {accepts : Nat → Bool} (h : ¬accepts (bits (iFn w) 4 0) = true) :
    badFmt w accepts = some (bits (iFn w) 4 0) := if_neg h

/-- An instruction whose format code is checked. -/
theorem enters_checked {op : Nat} {i : Instr} {accepts : Nat → Bool} {ok : Prop}
    (he : s.Issues f c op w → exec i s = .next (s.enqueue f c w (badFmt w accepts))) (hok : ok ↔ accepts (bits (iFn w) 4 0) = true) :
    (s.Issues f c op w → (s.core f c).queue.length < 4 → ok → ∃ t, exec i s = .next t ∧
      CoreBecomes f c s { s.core f c with queue := (s.core f c).queue ++ [(s.core f c).entryOf w], pc := (s.core f c).pc + 1 } t) ∧
    (s.Issues f c op w → (s.core f c).queue.length < 4 → ¬ok →
      exec i s = .next ((s.arrayLog f c 0x1 0 (bits (iFn w) 4 0) 0 0 0).precise f c 0x1 0 op)) ∧
    (s.Issues f c op w → 4 ≤ (s.core f c).queue.length → exec i s = .next s) :=
  enters_queue he (fun h => badFmt_accepted (hok.mp h)) (fun h => badFmt_refused (mt hok.mpr h))

theorem exec_wload (h : s.Issues f c 0x40 w) : exec (.wload f c w) s = .next (s.enqueue f c w (badFmt w arrayFmt)) :=
  issue_next h

theorem exec_wswap (h : s.Issues f c 0x41 w) : exec (.wswap f c w) s = .next (s.enqueue f c w none) :=
  issue_next h

theorem exec_stream (h : s.Issues f c 0x42 w) : exec (.stream f c w) s = .next (s.enqueue f c w (badFmt w fun code => arrayFmt code && (!passMode w (if iNreg w then (s.core f c).s (iC w) else bits (iImm w) 20 0) || passFmt (bits (iImm w) 31 27)))) :=
  issue_next h

theorem exec_drain (h : s.Issues f c 0x43 w) : exec (.drain f c w) s = .next (s.enqueue f c w (badFmt w drainFmt)) :=
  issue_next h

theorem exec_tclr (h : s.Issues f c 0x44 w) : exec (.tclr f c w) s = .next (s.enqueue f c w none) :=
  issue_next h

theorem exec_accview (h : s.Issues f c 0x45 w) : exec (.accview f c w) s = .next (s.enqueue f c w none) :=
  issue_next h

theorem exec_gdrain (h : s.Issues f c 0x46 w) : exec (.gdrain f c w) s = .next (s.enqueue f c w none) :=
  issue_next h

theorem arrayFmt_iff {code : Nat} : code ∈ [1, 2, 3, 4, 5, 6, 8, 10, 11, 12, 13] ↔ arrayFmt code = true := List.contains_iff_mem.symm

theorem passFmt_iff {code : Nat} : code ∈ [0, 1, 2, 3, 4, 5, 16] ↔ passFmt code = true := List.contains_iff_mem.symm

theorem drainFmt_iff {code : Nat} : code ∈ [0, 1, 2, 3, 4, 5, 16, 17, 18] ↔ drainFmt code = true := by
  simp only [drainFmt, Bool.or_eq_true, ← passFmt_iff, beq_iff_eq, List.mem_cons, List.not_mem_nil, or_false, or_assoc]

theorem streamFmt_iff {code out n : Nat} :
    (code ∈ [1, 2, 3, 4, 5, 6, 8, 10, 11, 12, 13] ∧ (128 < n ∨ bit (iFn w) 7 = true → out ∈ [0, 1, 2, 3, 4, 5, 16])) ↔
      (arrayFmt code && (!passMode w n || passFmt out)) = true := by
  rw [arrayFmt_iff, passFmt_iff]
  simp only [passMode, Bool.and_eq_true, Bool.or_eq_true, Bool.not_eq_true', Bool.or_eq_false_iff, decide_eq_false_iff_not,
    imp_iff_not_or, not_or, Bool.not_eq_true]

end

/-! ### The start of the queue's head -/

/-- A cause that the field CAUSE holds. -/
def SmallCause (x : Option Nat) : Prop := ∀ cause, x = some cause → cause < 16

theorem SmallCause.none : SmallCause .none := nofun

theorem SmallCause.some {n : Nat} (h : n < 16) : SmallCause (.some n) := by
  rintro _ ⟨⟩
  exact h

theorem SmallCause.ite {p : Prop} [Decidable p] {x y : Option Nat} (hx : SmallCause x) (hy : SmallCause y) :
    SmallCause (if p then x else y) := by
  split
  · exact hx
  · exact hy

/-- The causes at a start are 1 to 3 (Table 3.8, R119). -/
theorem startCause_small (s : State) (f c : Nat) (e : ArrayEntry) : SmallCause (startCause s f c e) := by
  have hrange : SmallCause (some 2) := .some (by decide)
  have hoper (b : Bool) : SmallCause (if b then some 3 else none) := .ite (.some (by decide)) .none
  unfold startCause
  dsimp only
  split
  · exact hoper _
  · exact hoper _
  · exact hoper _
  · exact .ite hrange .none
  · exact .ite hrange (hoper _)
  · exact .ite hrange (hoper _)
  · exact .ite (.some (by decide)) (.ite hrange (hoper _))

section
variable {s : State} {f c : Nat} {e : ArrayEntry} {rest : List ArrayEntry}

/-- The head `e` of a core's queue is to start now. -/
structure StartsHead (s : State) (f c : Nat) (e : ArrayEntry) (rest : List ArrayEntry) : Prop where
  flock  : f < 672
  core   : c < 120
  queue  : (s.core f c).queue = e :: rest
  free   : (s.core f c).canStart e = true
  issues : s.withheld f = false
  up     : s.flockQuiet f = false

/-- The state without the head of the queue. -/
def State.unqueued (s : State) (f c : Nat) (rest : List ArrayEntry) : State := s.setCore f c { s.core f c with queue := rest }

theorem core_unqueued : (s.unqueued f c rest).core f c = { s.core f c with queue := rest } := State.core_setCore_same ..

theorem unqueued_onlyCore : OnlyCore f c s (s.unqueued f c rest) := onlyCore_modCore f c s fun k => { k with queue := rest }

/-- A change of the core whose queue has lost its head. -/
theorem unqueued_becomes {g : Core → Core} :
    CoreBecomes f c s (g { s.core f c with queue := rest }) ((s.unqueued f c rest).modCore f c g) :=
  ⟨unqueued_onlyCore.trans (onlyCore_modCore ..), by rw [State.core_modCore_same, core_unqueued]⟩

theorem exec_arrayStart_fault {cause : Nat} (h : StartsHead s f c e rest) (hcause : startCause (s.unqueued f c rest) f c e = some cause) :
    exec (.arrayStart f c) s = .next ((s.unqueued f c rest).arrayFault f c e cause 0 0 false) := by
  unfold State.unqueued at hcause
  unfold exec execArrayStart State.modCore
  dsimp only
  rw [onCore_next h.flock h.core, h.queue]
  simp only [h.free, h.issues, h.up, Bool.not_true, Bool.or_false, Bool.false_eq_true, if_false, hcause]
  rfl

/-- What the head of the queue does as it starts (R89, R90, R217, R218). -/
def State.startEntry (s : State) (f c : Nat) (e : ArrayEntry) : State :=
  let v := iView e.w
  let run : ArrayRun := { e := e, done := 0, total := e.req, segs := [], scales := [] }
  match iOp e.w with
  | 0x41 => s.modCore f c fun k => { k with active := k.standby, standby := k.active, loaded := false }
  | 0x44 => s.modCore f c fun k => k.clearRows (k.viewBase v) e.count
  | 0x45 => s.modCore f c fun k => { k with view := Sparse.set (viewReset v) k.view v (BitVec.ofNat 32 (iImm e.w)) }
  | 0x40 => s.modCore f c fun k => { k with standby := none, loaded := false, runs := k.runs ++ [run] }
  | _ => s.modCore f c fun k => { k with runs := k.runs ++ [run] }

theorem exec_arrayStart (h : StartsHead s f c e rest) (hcause : startCause (s.unqueued f c rest) f c e = none) :
    exec (.arrayStart f c) s = .next ((s.unqueued f c rest).startEntry f c e) := by
  unfold State.unqueued at hcause
  unfold exec execArrayStart State.modCore
  dsimp only
  rw [onCore_next h.flock h.core, h.queue]
  simp only [h.free, h.issues, h.up, Bool.not_true, Bool.or_false, Bool.false_eq_true, if_false, hcause]
  rfl

theorem startEntry_wswap (hop : iOp e.w = 0x41) : s.startEntry f c e =
    s.modCore f c fun k => { k with active := k.standby, standby := k.active, loaded := false } := by
  simp only [State.startEntry, hop]

theorem startEntry_tclr (hop : iOp e.w = 0x44) : s.startEntry f c e =
    s.modCore f c fun k => k.clearRows (k.viewBase (iView e.w)) e.count := by
  simp only [State.startEntry, hop]

theorem startEntry_accview (hop : iOp e.w = 0x45) : s.startEntry f c e =
    s.modCore f c fun k =>
      { k with view := Sparse.set (viewReset (iView e.w)) k.view (iView e.w) (BitVec.ofNat 32 (iImm e.w)) } := by
  simp only [State.startEntry, hop]

theorem startEntry_wload (hop : iOp e.w = 0x40) : s.startEntry f c e =
    s.modCore f c fun k => { k with
      standby := none, loaded := false, runs := k.runs ++ [{ e := e, done := 0, total := 16, segs := [], scales := [] }] } := by
  simp only [State.startEntry, hop, ArrayEntry.req]

/-- STREAM, DRAIN and GDRAIN run from their start on. -/
theorem startEntry_rows (hop : iOp e.w = 0x42 ∨ iOp e.w = 0x43 ∨ iOp e.w = 0x46) : s.startEntry f c e =
    s.modCore f c fun k => { k with
      runs := k.runs ++ [{ e := e, done := 0, total := e.count, segs := [], scales := [] }] } := by
  obtain hop | hop | hop := hop
  all_goals simp only [State.startEntry, hop, ArrayEntry.req]

theorem Core.tly_clearRows {k : Core} {base n r i : Nat} (hi : i < 16) :
    (k.clearRows base n).tly r i = if base ≤ r ∧ r < base + n then Tally.empty else k.tly r i := by
  rw [Core.tly, Core.clearRows, Sparse.get_drop]
  by_cases h : base ≤ r ∧ r < base + n
  · rw [if_pos (by simp; omega), if_pos h]
  · rw [if_neg (by simp; omega), if_neg h, Core.tly]

/-- Settles O17: issue by `State.enqueue`, the start by `State.startEntry` or as an array fault. -/
theorem arrayQueueTakesAndStarts : Obligations.ArrayQueueTakesAndStarts := by
  refine ⟨fun s f c w => ?_, fun s f c e rest hf hc => ?_⟩
  · have htrue {op : Nat} {i : Instr} (he : s.Issues f c op w → exec i s = .next (s.enqueue f c w none)) :=
      enters_queue (ok := True) he (fun _ => rfl) (absurd trivial)
    exact ⟨enters_checked exec_wload arrayFmt_iff, htrue exec_wswap, enters_checked exec_stream streamFmt_iff,
      enters_checked exec_drain drainFmt_iff, htrue exec_tclr, htrue exec_accview, htrue exec_gdrain⟩
  · intro k s' v hqueue hfree hissues hup becomes
    have hstart : StartsHead s f c e rest := ⟨hf, hc, hqueue, hfree, hissues, hup⟩
    refine ⟨fun hcause => ?_, fun cause hcause hpc => ?_⟩
    · have hexec := exec_arrayStart hstart hcause
      refine ⟨fun hop => ⟨_, startEntry_wswap hop ▸ hexec, unqueued_becomes⟩, fun hop => ⟨_, startEntry_accview hop ▸ hexec, unqueued_becomes⟩,
        fun hop => ⟨_, startEntry_tclr hop ▸ hexec, ?_⟩, fun hop => ⟨_, startEntry_wload hop ▸ hexec, unqueued_becomes⟩,
        fun hop => ⟨_, startEntry_rows hop ▸ hexec, unqueued_becomes⟩⟩
      obtain ⟨honly, hcore⟩ := unqueued_becomes (s := s) (f := f) (c := c) (rest := rest)
        (g := fun k => k.clearRows (k.viewBase (iView e.w)) e.count)
      rw [hcore]
      refine ⟨honly, rfl, fun r i hi hlow hhigh => ?_, fun r i hi hout => ?_⟩
      · exact (Core.tly_clearRows hi).trans (if_pos ⟨hlow, hhigh⟩)
      · exact (Core.tly_clearRows hi).trans (if_neg fun hin => hout.elim (Nat.not_lt.mpr hin.1) (Nat.not_le.mpr hin.2))
    · obtain ⟨hhalt, hcore⟩ := arrayFault_halts (s.unqueued f c rest) e (cause := cause) (status := 0) (done := 0) (atRow := false) hc
      refine ⟨_, exec_arrayStart_fault hstart hcause, hhalt, ?_, fun h => ?_, fun h => bits_arrayFault_core (s.unqueued f c rest) e hc hpc h⟩
      · rw [hcore, core_unqueued]
      · exact (bits_arrayFault (s.unqueued f c rest) e hc (startCause_small _ f c e cause hcause) (by decide) h).1

end

end Sys2Proof.Machine

/-! SUPPORT. The rows of running array instructions (R85 to R111, R120, R216, R685; O18). -/

namespace Sys2Proof.Machine

/-! ### Sinks and sources -/

section
variable (s : State) (f c : Nat)

/-- Road rows change flocks alone. -/
theorem roadSendAll_eq (p n : Nat) (bs : List Byte) :
    s.roadSendAll f p n bs = { s with flocks := (s.roadSendAll f p n bs).flocks } := by
  induction n generalizing s bs with
  | zero => rfl
  | succ n ih =>
    unfold State.roadSendAll
    split
    · rfl
    · rw [ih]
      rfl

theorem roadTake_eq (q : Nat) : s.roadTake f q = { s with flocks := (s.roadTake f q).flocks } := by
  unfold State.roadTake
  dsimp only
  split <;> rfl

/-- The state after the row has left the source: a road port gives its credit back. -/
def State.rowTaken (s : State) (f : Nat) (ta : Word64) : State := if tKind ta = 2 then s.roadTake f (tRoad ta) else s

theorem rowTaken_eq (ta : Word64) : s.rowTaken f ta = { s with flocks := (s.rowTaken f ta).flocks } := by
  unfold State.rowTaken
  split
  · exact roadTake_eq s f _
  · rfl

theorem core_rowTaken (ta : Word64) (f' c' : Nat) : (s.rowTaken f ta).core f' c' = s.core f' c' := by
  rw [State.core, rowTaken_eq, State.core]

theorem reg_rowTaken (ta : Word64) (r : Reg) (i j : Nat) : (s.rowTaken f ta).reg r i j = s.reg r i j := by
  rw [State.reg, rowTaken_eq, State.reg]

/-- A row that reaches its sink leaves of a core all but what its WAIT waits for. -/
theorem core_writeSink (t : Word64) (r : Nat) (bs : List Byte) :
    ∃ h, (s.writeSink f c t r bs).core f c = { s.core f c with hold := h } := by
  unfold State.writeSink
  split
  · rw [roadSendAll_eq]
    exact ⟨_, rfl⟩
  · exact ⟨_, State.core_notify ..⟩
  · exact ⟨_, State.core_notify ..⟩

theorem regs_writeSink (t : Word64) (r : Nat) (bs : List Byte) : (s.writeSink f c t r bs).regs = s.regs := by
  unfold State.writeSink
  split
  · rw [roadSendAll_eq]
  · rfl
  · rfl

theorem writeSink_road {t : Word64} (h : tKind t = 2) (r : Nat) (bs : List Byte) :
    s.writeSink f c t r bs = s.roadSendAll f (tRoad t) 4 bs := by
  simp only [State.writeSink, h]

theorem writeSink_store {t : Word64} (h : tKind t = 1) (r : Nat) (bs : List Byte) :
    s.writeSink f c t r bs = s.wrStore f (tOff t + r * tStride t) bs := by
  simp only [State.writeSink, h]

theorem writeSink_scratch {t : Word64} (h : tKind t = 0) (r : Nat) (bs : List Byte) :
    s.writeSink f c t r bs = s.wrScratch f c (tOff t + r * tStride t) bs := by
  simp only [State.writeSink, h]

theorem rdStore_wrStore (a : Nat) (bs : List Byte) : (s.wrStore f a bs).rdStore f a bs.length = bs :=
  Sparse.readBytes_writeBytes ..

theorem rdScratch_wrScratch (a : Nat) (bs : List Byte) : (s.wrScratch f c a bs).rdScratch f c a bs.length = bs :=
  Sparse.readBytes_writeBytes ..

theorem inexactFlag_flagInexact {c : Nat} (hc : c < 120) (b : Bool) :
    (s.flagInexact f c b).inexactFlag f c = (s.inexactFlag f c || b) := by
  unfold State.flagInexact
  split
  · next hb => rw [hb, Bool.or_true]; exact (s.setCbit_spec _ _ f true hc).1
  · next hb => rw [Bool.eq_false_of_not_eq_true hb, Bool.or_false]

theorem flagInexact_eq (b : Bool) : s.flagInexact f c b = { s with regs := (s.flagInexact f c b).regs } := by
  unfold State.flagInexact
  split <;> rfl

theorem core_flagInexact (b : Bool) (f' c' : Nat) : (s.flagInexact f c b).core f' c' = s.core f' c' := by
  rw [State.core, flagInexact_eq, State.core]

end

theorem inexactFlag_congr {s t : State} (h : t.regs = s.regs) (f c : Nat) : t.inexactFlag f c = s.inexactFlag f c := by
  unfold State.inexactFlag State.cbit State.rbit State.reg
  rw [h]

/-! ### The end of a row -/

section
variable {k : Core} {i : Nat} {r : ArrayRun}

theorem Core.rowDone_last (h : k.runs[i]? = some r) (hlast : r.done + 1 = r.total) : k.rowDone i = { k with runs := k.runs.eraseIdx i } := by
  simp only [Core.rowDone, h, if_pos hlast]

/-- What a row's end makes of the running instructions depends on them alone. -/
theorem Core.rowDone_runs {k' : Core} (h : k'.runs = k.runs) : (k'.rowDone i).runs = (k.rowDone i).runs := by
  unfold Core.rowDone
  rw [h]
  split
  · split <;> rfl
  · exact h

theorem Core.rowDone_tally : (k.rowDone i).tally = k.tally := by
  unfold Core.rowDone
  split
  · split <;> rfl
  · rfl

/-- What a conversion leaves of the core: CLEAR empties the row; the conversion to fabric integers may set INEXACT in it. -/
def Core.afterDrain (k : Core) (row : Nat) (fab clear : Bool) (g : Int) : Core :=
  if clear then k.clearRows row 1
  else if fab then
    (List.range 16).foldl (fun k i =>
      let t := k.tly row i
      k.setTly row i { t with inexact := t.inexact || (t.fabric g).2.1 }) k
  else k

theorem Core.tly_setTly_ne {r j i' : Nat} {t : Tally} (h : 16 * r + j ≠ 16 * i' + i) : (k.setTly i' i t).tly r j = k.tly r j :=
  Sparse.get_set_ne h

/-- Tallies of a row, replaced one after another. -/
theorem Core.foldl_setTly {l : List Nat} {row : Nat} {u : Core → Nat → Tally} : ∀ {k : Core}, (∀ i ∈ l, i < 16) →
    (∀ r j, j < 16 → r ≠ row → (l.foldl (fun k i => k.setTly row i (u k i)) k).tly r j = k.tly r j) ∧
      l.foldl (fun k i => k.setTly row i (u k i)) k = { k with tally := (l.foldl (fun k i => k.setTly row i (u k i)) k).tally } := by
  induction l with
  | nil => exact fun _ => ⟨fun _ _ _ _ => rfl, rfl⟩
  | cons x l ih =>
    intro k hl
    obtain ⟨htly, heq⟩ := ih (k := k.setTly row x (u k x)) fun i hi => hl i (List.mem_cons_of_mem _ hi)
    have hx := hl x List.mem_cons_self
    refine ⟨fun r j hj hr => (htly r j hj hr).trans (Core.tly_setTly_ne (by omega)), ?_⟩
    rw [List.foldl_cons, heq]
    rfl

variable {row : Nat} {fab clear : Bool} {g : Int}

theorem Core.afterDrain_eq : k.afterDrain row fab clear g = { k with tally := (k.afterDrain row fab clear g).tally } := by
  unfold Core.afterDrain
  split
  · rfl
  · split
    · exact (Core.foldl_setTly fun i hi => List.mem_range.mp hi).2
    · rfl

theorem Core.afterDrain_clear (hclear : clear = true) {i : Nat} (hi : i < 16) : (k.afterDrain row fab clear g).tly row i = Tally.empty := by
  rw [Core.afterDrain, if_pos hclear]
  exact (Core.tly_clearRows hi).trans (if_pos ⟨Nat.le_refl _, Nat.lt_succ_self _⟩)

theorem Core.afterDrain_others {r j : Nat} (hj : j < 16) (hr : r ≠ row) : (k.afterDrain row fab clear g).tly r j = k.tly r j := by
  unfold Core.afterDrain
  split
  · exact (Core.tly_clearRows hj).trans (if_neg (by omega))
  · split
    · exact (Core.foldl_setTly fun i hi => List.mem_range.mp hi).1 r j hj hr
    · rfl

theorem Core.afterDrain_kept (hclear : clear = false) (hfab : fab = false) : k.afterDrain row fab clear g = k := by
  rw [Core.afterDrain, if_neg (Bool.eq_false_iff.mp hclear), if_neg (Bool.eq_false_iff.mp hfab)]

end

section
variable (s : State) (f c row : Nat) (fab clear : Bool) (g : Int)

/-- A conversion changes the core and the arithmetic flags alone. -/
theorem afterDrain_eq : s.afterDrain f c row fab clear g =
    { s with cores := (s.afterDrain f c row fab clear g).cores, regs := (s.afterDrain f c row fab clear g).regs } := by
  unfold State.afterDrain
  dsimp only
  split
  · split
    · rw [flagInexact_eq]; rfl
    · rw [flagInexact_eq]; rfl
  · rfl

theorem core_afterDrain : (s.afterDrain f c row fab clear g).core f c = (s.core f c).afterDrain row fab clear g := by
  unfold State.afterDrain
  dsimp only
  rw [State.core_modCore_same]
  have hcore {p : Prop} [Decidable p] {q : Prop} [Decidable q] {b : Bool} {x y : Reg} :
      (if p then (if q then (s.flagInexact f c b).setCbit x y f c true else s.flagInexact f c b) else s).core f c = s.core f c := by
    split
    · split
      · exact core_flagInexact s f c b f c
      · exact core_flagInexact s f c b f c
    · rfl
  rw [hcore]
  rfl

end

end Sys2Proof.Machine

namespace Sys2Proof.Machine

/-! ### The next row -/

/-- The instruction at place `n` of a core can take its next row. -/
structure TakesRow (s : State) (f c n : Nat) (r : ArrayRun) : Prop where
  flock  : f < 672
  core   : c < 120
  issues : s.withheld f = false
  up     : s.flockQuiet f = false
  run    : (s.core f c).runs[n]? = some r

section
variable {s : State} {f c n : Nat} {r : ArrayRun} {rf : Bool}

theorem exec_arrayRowFetch (h : TakesRow s f c n r) :
    exec (.arrayRowFetch f c n rf) s = .next (
      if iOp r.e.w = 0x40 then wloadRow f c n r s
      else if iOp r.e.w = 0x42 then streamRow f c n r rf s
      else if iOp r.e.w = 0x43 then drainRow f c n r s
      else gdrainRow f c n r s) := by
  unfold exec execArrayRowFetch
  dsimp only
  rw [onCore_next h.flock h.core, h.issues, h.up, h.run]
  simp only [Bool.or_false, Bool.false_eq_true, if_false]
  congr 1
  split
  · next hop => rw [if_pos hop]
  · next hop => rw [if_neg (by rw [hop]; decide), if_pos hop]
  · next hop => rw [if_neg (by rw [hop]; decide), if_neg (by rw [hop]; decide), if_pos hop]
  · next h1 h2 h3 => rw [if_neg h1, if_neg h2, if_neg h3]

theorem exec_row_wload (h : TakesRow s f c n r) (hop : iOp r.e.w = 0x40) :
    exec (.arrayRowFetch f c n rf) s = .next (wloadRow f c n r s) := by
  rw [exec_arrayRowFetch h, if_pos hop]

theorem exec_row_stream (h : TakesRow s f c n r) (hop : iOp r.e.w = 0x42) :
    exec (.arrayRowFetch f c n rf) s = .next (streamRow f c n r rf s) := by
  rw [exec_arrayRowFetch h, if_neg (by rw [hop]; decide), if_pos hop]

theorem exec_row_drain (h : TakesRow s f c n r) (hop : iOp r.e.w = 0x43) :
    exec (.arrayRowFetch f c n rf) s = .next (drainRow f c n r s) := by
  rw [exec_arrayRowFetch h, if_neg (by rw [hop]; decide), if_neg (by rw [hop]; decide), if_pos hop]

theorem exec_row_gdrain (h : TakesRow s f c n r) (hop : iOp r.e.w = 0x46) :
    exec (.arrayRowFetch f c n rf) s = .next (gdrainRow f c n r s) := by
  rw [exec_arrayRowFetch h, if_neg (by rw [hop]; decide), if_neg (by rw [hop]; decide), if_neg (by rw [hop]; decide)]

/-! ### WLOAD -/

/-- The segments and the scale bytes of a WLOAD with the next row's. -/
def State.nextSegs (s : State) (f c : Nat) (r : ArrayRun) : List (List Byte) :=
  r.segs ++ [s.rdKind f c (tKind r.e.ta) (tOff r.e.ta + r.done * tStride r.e.ta)
    (packedLen (bits (iFn r.e.w) 4 0) (tileK (bits (iFn r.e.w) 4 0)))]

def State.nextScales (s : State) (f c : Nat) (r : ArrayRun) : List Nat :=
  r.scales ++ [if fmtMx (bits (iFn r.e.w) 4 0) then
    ofLE (s.rdKind f c (tKind r.e.ta) (r.e.sb.toNat + r.done * r.e.sc.toNat) 1) else 0x7F]

/-- The segment and the scale byte of a WLOAD's row lie in its memory. -/
def ArrayRun.Inside (r : ArrayRun) : Prop :=
  tOff r.e.ta + r.done * tStride r.e.ta + packedLen (bits (iFn r.e.w) 4 0) (tileK (bits (iFn r.e.w) 4 0)) ≤ kindSize (tKind r.e.ta) ∧
    (fmtMx (bits (iFn r.e.w) 4 0) = true → r.e.sb.toNat + r.done * r.e.sc.toNat < kindSize (tKind r.e.ta))

theorem wload_inside_iff : r.Inside ↔
    ¬(kindSize (tKind r.e.ta) < tOff r.e.ta + r.done * tStride r.e.ta + packedLen (bits (iFn r.e.w) 4 0) (tileK (bits (iFn r.e.w) 4 0)) ∨
      (fmtMx (bits (iFn r.e.w) 4 0) = true ∧ kindSize (tKind r.e.ta) ≤ r.e.sb.toNat + r.done * r.e.sc.toNat)) := by
  rw [not_or, not_and, Nat.not_lt, Nat.not_le]
  rfl

theorem wloadRow_becomes (hin : r.Inside) (hmore : r.done + 1 ≠ r.total) :
    CoreBecomes f c s { s.core f c with
      runs := (s.core f c).runs.set n { r with done := r.done + 1, segs := s.nextSegs f c r, scales := s.nextScales f c r } } (wloadRow f c n r s) := by
  unfold wloadRow
  dsimp only
  rw [if_neg (wload_inside_iff.mp hin)]
  refine ⟨onlyCore_modCore .., (State.core_modCore_same ..).trans ?_⟩
  rw [if_neg hmore]
  rfl

theorem wloadRow_last_becomes (hrun : (s.core f c).runs[n]? = some r) (hin : r.Inside) (hlast : r.done + 1 = r.total) :
    CoreBecomes f c s { s.core f c with
      runs := (s.core f c).runs.eraseIdx n, loaded := true,
      standby := some { fmt := bits (iFn r.e.w) 4 0, segs := s.nextSegs f c r, scales := s.nextScales f c r } } (wloadRow f c n r s) := by
  unfold wloadRow
  dsimp only
  rw [if_neg (wload_inside_iff.mp hin)]
  refine ⟨onlyCore_modCore .., (State.core_modCore_same ..).trans ?_⟩
  rw [if_pos hlast, Core.rowDone_last hrun hlast]
  rfl

theorem wloadRow_outside (hc : c < 120) (hout : ¬r.Inside) : (wloadRow f c n r s).halted f c = true ∧
    (wloadRow f c n r s).core f c =
      { s.core f c with runs := (s.core f c).runs.eraseIdx n, loaded := false, standby := none, queue := [], hold := .free } := by
  unfold wloadRow
  dsimp only
  rw [if_pos (not_not.mp (mt wload_inside_iff.mpr hout)), rowFault_eq _ (by decide)]
  obtain ⟨hhalt, hcore⟩ := arrayFault_halts ((s.modCore f c fun k => { k with standby := none, loaded := false }).modCore f c
    fun k => { k with runs := k.runs.eraseIdx n }) r.e (cause := 4) (status := stAddressFault) (done := r.done) (atRow := true) hc
  refine ⟨hhalt, hcore.trans ?_⟩
  rw [State.core_modCore_same, State.core_modCore_same]

/-! ### STREAM -/

/-- A row of a STREAM that is there, and its tile. -/
structure StreamsRow (s : State) (f c : Nat) (r : ArrayRun) (tile : Tile) (x : List Byte) (xs pair : Nat) : Prop where
  active  : (s.core f c).active = some tile
  code    : pairCode tile.fmt (bits (iFn r.e.w) 4 0) = some pair
  fetched : s.fetchRow f c r.e r.done (inRowBytes tile (bits (iFn r.e.w) 4 0) (bit (iFn r.e.w) 8)) (fmtMx (bits (iFn r.e.w) 4 0)) = .row x xs

variable {tile : Tile} {x : List Byte} {xs pair : Nat}

/-- The first tally row that a STREAM's row adds to. -/
def Core.streamBase (k : Core) (r : ArrayRun) (tile : Tile) : Nat :=
  k.viewBase (bits (iFn r.e.w) 6 5) + (if wideRows r.e.w tile then 2 * r.done else r.done)

theorem streamRow_accumulates (h : StreamsRow s f c r tile x xs pair) (hres : rf = false ∨ pair = 0xC)
    (hpass : passMode r.e.w r.e.count = false) :
    let acc := (s.core f c).accumulate pair ((s.core f c).streamBase r tile) 0
      (rowProducts tile (bits (iFn r.e.w) 4 0) (bit (iFn r.e.w) 8) x xs)
    streamRow f c n r rf s = ((s.rowTaken f r.e.ta).setCore f c (acc.1.rowDone n)).flagInexact f c acc.2 := by
  have hfails : (rf && pair != 0xC) = false := by
    obtain h | h := hres <;> simp [h]
  unfold streamRow
  simp only [h.active, h.code, h.fetched, hpass, Option.getD_some, hfails, Bool.false_eq_true, if_false, reduceCtorEq]
  have hcore : (if tKind r.e.ta = 2 then s.roadTake f (tRoad r.e.ta) else s).core f c = s.core f c := core_rowTaken s f r.e.ta f c
  rw [hcore]
  rfl

theorem streamRow_passes (h : StreamsRow s f c r tile x xs pair) (hres : rf = false ∨ pair = 0xC)
    (hpass : passMode r.e.w r.e.count = true)
    (hsink : s.sinkFor f r.e.tb r.done ((if bit (iFn r.e.w) 8 then tileK tile.fmt else 16) * (fmtBits (bits (iImm r.e.w) 31 27) / 8)) = .ready) :
    let res := passRow pair (bits (iImm r.e.w) 31 27) (rowProducts tile (bits (iFn r.e.w) 4 0) (bit (iFn r.e.w) 8) x xs)
    streamRow f c n r rf s = (((s.rowTaken f r.e.ta).writeSink f c r.e.tb r.done res.1).flagInexact f c res.2).modCore f c
      fun k => k.rowDone n := by
  have hfails : (rf && pair != 0xC) = false := by
    obtain h | h := hres <;> simp [h]
  unfold streamRow
  simp only [h.active, h.code, h.fetched, hpass, Option.getD_some, hfails, Bool.false_eq_true, if_false, if_true, hsink, reduceCtorEq]
  rfl

theorem streamRow_residue (h : StreamsRow s f c r tile x xs pair) (hpair : pair ≠ 0xC) (hpass : passMode r.e.w r.e.count = false) :
    streamRow f c n r true s = (s.rowTaken f r.e.ta).residueFault f c n := by
  unfold streamRow
  simp [h.active, h.code, h.fetched, hpass, hpair]
  rfl

end

end Sys2Proof.Machine

/-! SUPPORT. What the next row of an array instruction leaves (R120, R216, R562, R685; O18). -/

namespace Sys2Proof.Machine

/-! ### Residue checks -/

section
variable (s : State) (f n kind : Nat)

theorem retire_outside : RegsOutside {(coreBit .flkPhysGoodLo .flkPhysGoodHi n).1.addr f 0, Reg.drvEvtStatus.addr 0 0} s (s.retire f n kind) := by
  unfold State.retire
  split
  · exact .refl s
  · dsimp only
    refine RegsOutside.trans ?_ (event_outside (.inr rfl) _ _ _ _ _ _)
    refine (setRbit_outside (.inl rfl) s (coreBit .flkPhysGoodLo .flkPhysGoodHi n).2 false).trans ?_
    split
    · exact .of_regs rfl
    · exact .refl _

theorem core_retire (f' c' : Nat) : (s.retire f n kind).core f' c' = s.core f' c' := by
  unfold State.retire
  split
  · rfl
  · dsimp only
    rw [(event_logOnly ..).core]
    have hcores {p : Prop} [Decidable p] (u v : State) (hu : u.core f' c' = s.core f' c') (hv : v.core f' c' = s.core f' c') :
        (if p then u else v).core f' c' = s.core f' c' := by
      split
      · exact hu
      · exact hv
    exact hcores _ _ rfl rfl

theorem halt_addr_notMem_retire {c : Nat} : (coreBit .flkCoreHaltLo .flkCoreHaltHi c).1.addr f 0 ∉
    ({(coreBit .flkPhysGoodLo .flkPhysGoodHi n).1.addr f 0, Reg.drvEvtStatus.addr 0 0} : Set Nat) := by
  unfold coreBit
  split
  · split
    · simp [Reg.addr, Reg.row, Block.base]; omega
    · simp [Reg.addr, Reg.row, Block.base]; omega
  · split
    · simp [Reg.addr, Reg.row, Block.base]; omega
    · simp [Reg.addr, Reg.row, Block.base]; omega

theorem coreFault_addr_notMem_retire {c : Nat} (hc : c < 120) : Reg.flkCoreFault.addr f c ∉
    ({(coreBit .flkPhysGoodLo .flkPhysGoodHi n).1.addr f 0, Reg.drvEvtStatus.addr 0 0} : Set Nat) := by
  unfold coreBit
  split
  · simp [Reg.addr, Reg.row, Block.base]; omega
  · simp [Reg.addr, Reg.row, Block.base]; omega

theorem halted_retire {c : Nat} : (s.retire f n kind).halted f c = s.halted f c := by
  unfold State.halted State.cbit
  exact (retire_outside s f n kind).rbit (halt_addr_notMem_retire f n) _

theorem coreFault_retire {c : Nat} (hc : c < 120) : (s.retire f n kind).reg .flkCoreFault f c = s.reg .flkCoreFault f c :=
  (retire_outside s f n kind).reg _ _ _ (coreFault_addr_notMem_retire f n hc)

end

/-- A failed residue check ends the instruction and halts the core; it is no core fault (R685). -/
theorem residueFault_halts (s : State) {f c : Nat} (n : Nat) (hc : c < 120) :
    (s.residueFault f c n).halted f c = true ∧
      (s.residueFault f c n).core f c =
        { s.core f c with runs := (s.core f c).runs.eraseIdx n, queue := [], hold := .free } ∧
      (s.residueFault f c n).reg .flkCoreFault f c = s.reg .flkCoreFault f c := by
  refine ⟨?_, ?_, ?_⟩
  · exact (halted_retire ..).trans (haltCore_halted _ _ _ hc)
  · refine (core_retire ..).trans (core_haltCore .. |>.trans ?_)
    rw [State.core_modCore_same]
  · refine (coreFault_retire _ _ _ _ hc).trans ((haltCore_outside _ f c).reg _ _ _ (coreFault_addr_ne_halt hc))

section
variable {s : State} {f c n : Nat} {r : ArrayRun} {rf : Bool}

/-! ### STREAM -/

section
variable {tile : Tile} {x : List Byte} {xs pair : Nat}

theorem streamRow_accumulated (hc : c < 120) (h : StreamsRow s f c r tile x xs pair) (hres : rf = false ∨ pair = 0xC)
    (hpass : passMode r.e.w r.e.count = false) :
    let acc := (s.core f c).accumulate pair ((s.core f c).streamBase r tile) 0
      (rowProducts tile (bits (iFn r.e.w) 4 0) (bit (iFn r.e.w) 8) x xs)
    let t := streamRow f c n r rf s
    t.core f c = acc.1.rowDone n ∧ t = { s.rowTaken f r.e.ta with cores := t.cores, regs := t.regs } ∧
      t.inexactFlag f c = (s.inexactFlag f c || acc.2) ∧
      ∀ f' c', coreIdx f' c' ≠ coreIdx f c → t.core f' c' = s.core f' c' := by
  dsimp only
  rw [streamRow_accumulates h hres hpass]
  generalize (s.core f c).accumulate pair ((s.core f c).streamBase r tile) 0
      (rowProducts tile (bits (iFn r.e.w) 4 0) (bit (iFn r.e.w) 8) x xs) = acc
  refine ⟨?_, ?_, ?_, fun f' c' hne => ?_⟩
  · rw [core_flagInexact, State.core_setCore_same]
  · rw [flagInexact_eq]
    rfl
  · rw [inexactFlag_flagInexact _ _ hc, inexactFlag_congr (s := s) (by rw [rowTaken_eq]; rfl)]
  · rw [core_flagInexact, State.core_setCore_ne _ _ _ _ _ _ hne, core_rowTaken]

theorem streamRow_passed (hc : c < 120) (h : StreamsRow s f c r tile x xs pair) (hres : rf = false ∨ pair = 0xC)
    (hpass : passMode r.e.w r.e.count = true)
    (hsink : s.sinkFor f r.e.tb r.done ((if bit (iFn r.e.w) 8 then tileK tile.fmt else 16) * (fmtBits (bits (iImm r.e.w) 31 27) / 8)) = .ready) :
    let res := passRow pair (bits (iImm r.e.w) 31 27) (rowProducts tile (bits (iFn r.e.w) 4 0) (bit (iFn r.e.w) 8) x xs)
    let u := ((s.rowTaken f r.e.ta).writeSink f c r.e.tb r.done res.1).core f c
    let t := streamRow f c n r rf s
    t.core f c = u.rowDone n ∧ u.tally = (s.core f c).tally ∧ t.inexactFlag f c = (s.inexactFlag f c || res.2) ∧
      (tKind r.e.tb = 2 → t = { (s.rowTaken f r.e.ta).roadSendAll f (tRoad r.e.tb) 4 res.1 with cores := t.cores, regs := t.regs }) := by
  dsimp only
  rw [streamRow_passes h hres hpass hsink]
  generalize passRow pair (bits (iImm r.e.w) 31 27) (rowProducts tile (bits (iFn r.e.w) 4 0) (bit (iFn r.e.w) 8) x xs) = res
  obtain ⟨hold, hu⟩ := core_writeSink (s.rowTaken f r.e.ta) f c r.e.tb r.done res.1
  refine ⟨?_, ?_, ?_, fun hroad => ?_⟩
  · rw [State.core_modCore_same, core_flagInexact]
  · rw [hu, core_rowTaken]
  · refine (inexactFlag_congr rfl f c).trans ((inexactFlag_flagInexact _ _ hc _).trans ?_)
    rw [inexactFlag_congr (s := s) ((regs_writeSink ..).trans (by rw [rowTaken_eq]))]
  · rw [flagInexact_eq, writeSink_road _ _ _ hroad]
    rfl

theorem streamRow_residueHalts (hc : c < 120) (h : StreamsRow s f c r tile x xs pair) (hpair : pair ≠ 0xC)
    (hpass : passMode r.e.w r.e.count = false) :
    let t := streamRow f c n r true s
    t.halted f c = true ∧ t.core f c = { s.core f c with runs := (s.core f c).runs.eraseIdx n, queue := [], hold := .free } ∧
      t.reg .flkCoreFault f c = s.reg .flkCoreFault f c := by
  dsimp only
  rw [streamRow_residue h hpair hpass]
  obtain ⟨hhalt, hcore, hreg⟩ := residueFault_halts (s.rowTaken f r.e.ta) n hc
  rw [core_rowTaken] at hcore
  rw [reg_rowTaken] at hreg
  exact ⟨hhalt, hcore, hreg⟩

end

/-! ### DRAIN and GDRAIN -/

theorem Core.afterDrain_runs {k : Core} {row : Nat} {fab clear : Bool} {g : Int} : (k.afterDrain row fab clear g).runs = k.runs := by
  have heq : k.afterDrain row fab clear g = { k with tally := (k.afterDrain row fab clear g).tally } := Core.afterDrain_eq
  rw [heq]

/-- The bytes of a DRAIN's next row (R104, R105). -/
def ArrayRun.drainBytes (r : ArrayRun) (k : Core) : List Byte :=
  ((k.tallyRow (k.viewBase (bits (iFn r.e.w) 6 5) + r.done)).map fun y =>
    if bits (iFn r.e.w) 4 0 = 0x12 then y.raw
    else if bits (iFn r.e.w) 4 0 = 0x11 then leBytes 8 (y.fabric r.e.scale).1
    else outElem (bits (iFn r.e.w) 4 0) y.value).flatten

theorem drainRow_ready (h : s.sinkFor f r.e.ta r.done (r.drainBytes (s.core f c)).length = .ready) :
    drainRow f c n r s = ((s.writeSink f c r.e.ta r.done (r.drainBytes (s.core f c))).afterDrain f c
      ((s.core f c).viewBase (bits (iFn r.e.w) 6 5) + r.done) (bits (iFn r.e.w) 4 0 == 0x11) (bit (iFn r.e.w) 8) r.e.scale).modCore f c
        fun k => k.rowDone n := by
  have hready : drainRow f c n r s = match s.sinkFor f r.e.ta r.done (r.drainBytes (s.core f c)).length with
      | .stall => s
      | .fail st => s.rowFault f c n r 5 st
      | .ready => ((s.writeSink f c r.e.ta r.done (r.drainBytes (s.core f c))).afterDrain f c
          ((s.core f c).viewBase (bits (iFn r.e.w) 6 5) + r.done) (bits (iFn r.e.w) 4 0 == 0x11) (bit (iFn r.e.w) 8) r.e.scale).modCore f c
            fun k => k.rowDone n := rfl
  rw [hready, h]

theorem drainRow_drained (h : s.sinkFor f r.e.ta r.done (r.drainBytes (s.core f c)).length = .ready) :
    let row := (s.core f c).viewBase (bits (iFn r.e.w) 6 5) + r.done
    let a := tOff r.e.ta + r.done * tStride r.e.ta
    let bs := r.drainBytes (s.core f c)
    let t := drainRow f c n r s
    (t.core f c).runs = ((s.core f c).rowDone n).runs ∧
      (bit (iFn r.e.w) 8 = true → ∀ i, i < 16 → (t.core f c).tly row i = Tally.empty) ∧
      (∀ r' i, i < 16 → r' ≠ row → (t.core f c).tly r' i = (s.core f c).tly r' i) ∧
      (bit (iFn r.e.w) 8 = false → bits (iFn r.e.w) 4 0 ≠ 0x11 → (t.core f c).tally = (s.core f c).tally) ∧
      (tKind r.e.ta = 1 → t.rdStore f a bs.length = bs ∧ t.scratch = s.scratch) ∧
      (tKind r.e.ta = 0 → t.rdScratch f c a bs.length = bs ∧ t.store = s.store) ∧
      (tKind r.e.ta = 2 → t.flocks = (s.roadSendAll f (tRoad r.e.ta) 4 bs).flocks) := by
  dsimp only
  rw [drainRow_ready h]
  generalize r.drainBytes (s.core f c) = bs
  generalize (s.core f c).viewBase (bits (iFn r.e.w) 6 5) + r.done = row
  generalize hu : s.writeSink f c r.e.ta r.done bs = u
  obtain ⟨hold, hcore⟩ : ∃ h, u.core f c = { s.core f c with hold := h } := hu ▸ core_writeSink s f c r.e.ta r.done bs
  have htly : (u.core f c).tly = (s.core f c).tly := by rw [hcore]; rfl
  have hdone (k : Core) (r' i : Nat) : (k.rowDone n).tly r' i = k.tly r' i := by rw [Core.tly, Core.rowDone_tally, Core.tly]
  rw [State.core_modCore_same, core_afterDrain]
  refine ⟨?_, fun hclear i hi => ?_, fun r' i hi hr => ?_, fun hclear hfab => ?_, fun hk => ?_, fun hk => ?_, fun hk => ?_⟩
  · exact Core.rowDone_runs (Core.afterDrain_runs.trans (by rw [hcore]))
  · rw [hdone]
    exact Core.afterDrain_clear hclear hi
  · rw [hdone, Core.afterDrain_others hi hr, htly]
  · rw [Core.rowDone_tally, Core.afterDrain_kept hclear (by simpa using hfab), hcore]
  · have hstore := hu.symm.trans (writeSink_store s f c hk r.done bs)
    refine ⟨?_, ?_⟩
    · rw [State.rdStore, State.modCore, State.setCore, afterDrain_eq, hstore]
      exact rdStore_wrStore ..
    · rw [State.modCore, State.setCore, afterDrain_eq, hstore]
      rfl
  · have hscratch := hu.symm.trans (writeSink_scratch s f c hk r.done bs)
    refine ⟨?_, ?_⟩
    · rw [State.rdScratch, State.modCore, State.setCore, afterDrain_eq, hscratch]
      exact rdScratch_wrScratch ..
    · rw [State.modCore, State.setCore, afterDrain_eq, hscratch]
      rfl
  · rw [State.modCore, State.setCore, afterDrain_eq, ← hu, writeSink_road s f c hk]

theorem gdrainRow_drained (hgrad : (s.core f c).grad = none) (hdone : r.done ≠ r.total) :
    let row := (s.core f c).viewBase (bits (iFn r.e.w) 6 5) + r.done
    let t := gdrainRow f c n r s
    ∃ g, (t.core f c).grad = some g ∧ g.ch = bits (iFn r.e.w) 3 0 ∧
      g.vals = ((s.core f c).tallyRow row).map (fun y => (y.fabric r.e.scale).1) ∧ g.g = r.e.scale ∧
      (t.core f c).runs = (s.core f c).runs.set n { r with done := r.done + 1 } ∧
      (bit (iFn r.e.w) 8 = true → ∀ i, i < 16 → (t.core f c).tly row i = Tally.empty) ∧
      ∀ r' i, i < 16 → r' ≠ row → (t.core f c).tly r' i = (s.core f c).tly r' i := by
  unfold gdrainRow
  dsimp only
  rw [if_neg (by simp [hgrad, hdone]), State.core_modCore_same, core_afterDrain]
  refine ⟨_, rfl, rfl, rfl, rfl, ?_, fun hclear i hi => Core.afterDrain_clear hclear hi, fun r' i hi hr => Core.afterDrain_others hi hr⟩
  rw [Core.afterDrain_runs]

end

/-- Settles O18, instruction by instruction. -/
theorem arrayRowAdvancesTheRun : Obligations.ArrayRowAdvancesTheRun := by
  unfold Obligations.ArrayRowAdvancesTheRun
  intro s f c n r rf hf hc hwithheld hquiet
  dsimp only
  intro hrun
  have h : TakesRow s f c n r := ⟨hf, hc, hwithheld, hquiet, hrun⟩
  refine ⟨fun hop hin hmore => ⟨_, exec_row_wload h hop, wloadRow_becomes hin hmore⟩,
    fun hop hin hlast => ⟨_, exec_row_wload h hop, wloadRow_last_becomes hrun hin hlast⟩,
    fun hop hout => ⟨_, exec_row_wload h hop, wloadRow_outside hc hout⟩,
    fun tile x xs pair hop hact hpair hres hrow => ⟨fun hpass => ?_, fun hpass hsink => ?_⟩,
    fun tile x xs pair hop hact hpair hrf hne hpass hrow => ?_, fun hop hsink => ?_, fun hop hgrad hdone => ?_⟩
  · exact ⟨_, exec_row_stream h hop, streamRow_accumulated hc ⟨hact, hpair, hrow⟩ hres hpass⟩
  · exact ⟨_, exec_row_stream h hop, streamRow_passed hc ⟨hact, hpair, hrow⟩ hres hpass hsink⟩
  · subst hrf
    exact ⟨_, exec_row_stream h hop, streamRow_residueHalts hc ⟨hact, hpair, hrow⟩ hne hpass⟩
  · exact ⟨_, exec_row_drain h hop, drainRow_drained hsink⟩
  · obtain ⟨g, hg⟩ := gdrainRow_drained (n := n) hgrad hdone
    exact ⟨_, g, exec_row_gdrain h hop, hg⟩

end Sys2Proof.Machine

/-! SUPPORT. A unit's change leaves the units of another kind; a log and an outcome record leave the registers of other units. -/

namespace Sys2Proof.Machine

section
variable (s : State) (f c f' c' : Nat)

@[simp] theorem core_modFlock (g : Flock → Flock) : (s.modFlock f g).core f' c' = s.core f' c' := rfl

@[simp] theorem flock_modCore (g : Core → Core) : (s.modCore f c g).flock f' = s.flock f' := rfl

@[simp] theorem flock_advance : (s.advance f c).flock f' = s.flock f' := rfl

theorem core_modDma (seq : Nat) (g : Dma → Dma) : (s.modDma f c seq g).core f c =
    { s.core f c with dma := (s.core f c).dma.map fun x => if x.seq = seq then g x else x } := s.core_modCore_same f c _

end

theorem core_congr {s t : State} (h : t.cores = s.cores) (f c : Nat) : t.core f c = s.core f c := by rw [State.core, h, State.core]

theorem reg_congr {s t : State} (h : t.regs = s.regs) (r : Reg) (i j : Nat) : t.reg r i j = s.reg r i j := by
  rw [State.reg, h, State.reg]

/-- A log with an address register changes the two, and the count of dropped events. -/
theorem log_outside (s : State) (r : Reg) (i j v : Nat) (cnt : Option (Nat × Nat)) (ar : Reg) (a source loc : Nat) :
    RegsOutside {r.addr i j, ar.addr i 0, Reg.drvEvtStatus.addr 0 0} s (s.log r i j v cnt (some (ar, a)) source loc) :=
  .ite (setReg_outside (.inl rfl) ..)
    (((setReg_outside (.inl rfl) ..).trans (setReg_outside (.inr (.inl rfl)) ..)).trans (event_outside (.inr (.inr rfl)) ..))

/-! ### Outcome records (R706) -/

section
variable (s : State) (core kind ordinal status result : Nat)

theorem outcome_cores : (s.outcome core kind ordinal status result).cores = s.cores := by
  unfold State.outcome
  split
  · rfl
  · exact (mirrorRec_memOnly ..).cores

theorem outcome_droverOnly : DroverOnly s (s.outcome core kind ordinal status result) := by
  unfold State.outcome
  split
  · exact .refl s
  · exact (mirrorRec_droverOnly ..).trans (.same rfl rfl)

end

end Sys2Proof.Machine

/-! SUPPORT. Restarts of cores (R169, R227, R233, R234; O24). -/

namespace Sys2Proof.Machine

section
variable {s : State} {f c : Nat} {lo hi : Reg}

/-- A bit of a pair of registers stays where another core's bit of the pair is written. -/
theorem cbit_setCbit_ne {c' : Nat} {v : Bool} (hpair : lo.addr f 0 ≠ hi.addr f 0) (hc : c < 120) (h : c' ≠ c) :
    (s.setCbit lo hi f c v).cbit lo hi f c' = s.cbit lo hi f c' := by
  obtain ⟨-, hregs, hbits⟩ := s.setCbit_spec lo hi f v hc
  unfold State.cbit
  by_cases hhalf : (c' < 64 ↔ c < 64)
  · have hreg : (coreBit lo hi c').1 = (coreBit lo hi c).1 := by simp only [coreBit, hhalf, apply_ite Prod.fst]
    have hbit : (coreBit lo hi c').2 ≠ (coreBit lo hi c).2 := by
      unfold coreBit
      split <;> split <;> simp <;> omega
    rw [hreg]
    exact hbits _ hbit
  · refine congrArg (bit · _) (hregs _ _ _ ?_)
    unfold coreBit
    split
    · rw [if_neg (by tauto)]; exact hpair
    · rw [if_pos (by tauto)]; exact hpair.symm

theorem halt_addr_ne : Reg.flkCoreHaltLo.addr f 0 ≠ Reg.flkCoreHaltHi.addr f 0 := by simp [Reg.addr, Reg.row, Block.base]

theorem doneLo_addr_ne : Reg.flkCoreDoneLo.addr f 0 ≠ Reg.flkCoreDoneHi.addr f 0 := by simp [Reg.addr, Reg.row, Block.base]

theorem halt_done_addr_ne (c c' : Nat) : (coreBit .flkCoreHaltLo .flkCoreHaltHi c).1.addr f 0 ≠ (coreBit .flkCoreDoneLo .flkCoreDoneHi c').1.addr f 0 := by
  unfold coreBit
  split
  · split
    · simp [Reg.addr, Reg.row, Block.base]
    · simp [Reg.addr, Reg.row, Block.base]
  · split
    · simp [Reg.addr, Reg.row, Block.base]
    · simp [Reg.addr, Reg.row, Block.base]

/-! ### Writes to halt and done bits -/

theorem restartBit_set (hbit : s.cbit lo hi f c = true) (hgood : s.coreRetired f c = false) :
    s.restartBit lo hi f c = (s.setCbit lo hi f c false).modCore f c fun k => { k with run := .restarting } := by
  rw [State.restartBit, hbit, hgood]
  rfl

theorem restartBit_kept (h : s.cbit lo hi f c = false ∨ s.coreRetired f c = true) : s.restartBit lo hi f c = s := by
  rw [State.restartBit, if_neg]
  obtain h | h := h <;> simp [h]

theorem exec_haltWrite (hf : f < 672) (hc : c < 120) :
    exec (.flkCoreHaltWrite f c) s = .next (s.restartBit .flkCoreHaltLo .flkCoreHaltHi f c) := onCore_next hf hc

theorem exec_doneWrite (hf : f < 672) (hc : c < 120) :
    exec (.flkCoreDoneWrite f c) s = .next (s.restartBit .flkCoreDoneLo .flkCoreDoneHi f c) := onCore_next hf hc

/-- A restart bit that is set clears, and its core alone waits to restart. -/
theorem restartBit_spec (hpair : lo.addr f 0 ≠ hi.addr f 0) (hc : c < 120) (hbit : s.cbit lo hi f c = true)
    (hgood : s.coreRetired f c = false) :
    let t := s.restartBit lo hi f c
    t = { s with regs := t.regs, cores := t.cores } ∧ t.cbit lo hi f c = false ∧
      t.core f c = { s.core f c with run := .restarting } ∧
      (∀ c', c' ≠ c → t.cbit lo hi f c' = s.cbit lo hi f c' ∧ t.core f c' = s.core f c') ∧
      ∀ r i j, r.addr i j ≠ (coreBit lo hi c).1.addr f 0 → t.reg r i j = s.reg r i j := by
  dsimp only
  rw [restartBit_set hbit hgood]
  obtain ⟨hclear, hregs, -⟩ := s.setCbit_spec lo hi f false hc
  refine ⟨rfl, hclear, ?_, fun c' hne => ⟨cbit_setCbit_ne hpair hc hne, ?_⟩, hregs⟩
  · rw [State.core_modCore_same]
    rfl
  · refine ((s.setCbit lo hi f c false).core_setCore_ne f c f c' _ ?_).trans rfl
    unfold coreIdx
    omega

/-! ### The restart -/

theorem exec_coreRestart (hf : f < 672) (hc : c < 120) : exec (.coreRestart f c) s = .next (
    if (s.core f c).run == .restarting && (s.core f c).dma.isEmpty && (s.core f c).runs.isEmpty && (s.core f c).remotes.isEmpty &&
      !s.halted f c && !s.doneBit f c then (s.forgetCore f c).modCore f c fun k => k.started ((s.flock f).entry c)
    else s) := onCore_next hf hc

/-- A request of another core waits on as it was (R513). -/
theorem mem_waiting_forgetCore {r : NiReq} (hr : r ∈ s.ni.waiting) (hne : r.owner.core ≠ some (f, c)) :
    r ∈ (s.forgetCore f c).ni.waiting := by
  refine List.mem_map.mpr ⟨r, hr, ?_⟩
  dsimp only
  rw [if_neg hne]

theorem mem_far_forgetCore {r : FarReq} (hr : r ∈ s.far) (hne : r.f ≠ f ∨ r.c ≠ c) : r ∈ (s.forgetCore f c).far :=
  List.mem_map.mpr ⟨r, hr, if_neg (by tauto)⟩

/-- Settles O24: both bits clear through `restartBit`, and CORE_RESTART is `started` on its one core. -/
theorem haltedCoresRestart : Obligations.HaltedCoresRestart := by
  unfold Obligations.HaltedCoresRestart
  intro s f c hf hc
  dsimp only
  refine ⟨fun hbit hgood => ?_, fun h => ?_, fun hbit hgood => ?_, fun h => ?_, fun hrun hdma hruns hrem hhalt hdone => ?_, fun h => ?_⟩
  · obtain ⟨hrest, hclear, hcore, hothers, hregs⟩ := restartBit_spec halt_addr_ne hc hbit hgood
    exact ⟨_, exec_haltWrite hf hc, hrest, hclear, congrArg (bit · _) (hregs _ _ _ (halt_done_addr_ne c c).symm), hcore,
      fun c' hne _ => hothers c' hne⟩
  · rw [exec_haltWrite hf hc, restartBit_kept h]
  · obtain ⟨hrest, hclear, hcore, hothers, hregs⟩ := restartBit_spec doneLo_addr_ne hc hbit hgood
    exact ⟨_, exec_doneWrite hf hc, hrest, hclear, congrArg (bit · _) (hregs _ _ _ (halt_done_addr_ne c c)), hcore,
      fun c' hne _ => hothers c' hne⟩
  · rw [exec_doneWrite hf hc, restartBit_kept h]
  · refine ⟨_, exec_coreRestart hf hc, ?_⟩
    rw [if_pos (by simp [hrun, hdma, hruns, hrem, hhalt, hdone])]
    refine ⟨rfl, fun f' c' hne => State.core_setCore_ne _ _ _ _ _ _ hne, fun r hr hne => mem_waiting_forgetCore hr hne,
      fun r hr hne => mem_far_forgetCore hr hne, ?_⟩
    rw [State.core_modCore_same]
    refine ⟨fun r => ?_, fun _ _ => rfl, fun _ => rfl, fun _ => rfl, rfl, rfl, rfl, rfl, rfl, rfl, rfl⟩
    simp [Core.s, Core.started, Core.fresh, Sparse.get]
  · rw [exec_coreRestart hf hc, if_neg]
    obtain h | h | h | h := h <;> simp [h]

end

end Sys2Proof.Machine

/-! SUPPORT. Remote operations and pushes (R157, R219 to R225; O23). -/

namespace Sys2Proof.Machine

section
variable {s : State} {f c : Nat} {w : Word64}

/-! ### RATOM and RSIG -/

theorem fabDest_eq {a : Nat} (h : a < 2 ^ 64) : fabDest a = a / 2 ^ 50 := by
  rw [fabDest, bits, Nat.shiftRight_eq_div_pow]
  omega

theorem fabOff_eq (a : Nat) : fabOff a = a % 2 ^ 48 := bits_low ..

theorem Core.pair_lt (k : Core) (r : Nat) : k.pair r < 2 ^ 64 := by
  have hlow := k.s_lt r
  have hhigh := k.s_lt (r + 1)
  unfold Core.pair
  omega

theorem issueRemote_full {a : Nat} {m : Remote} {r : NiReq} (h : 8 ≤ (s.core f c).remotes.length) :
    s.issueRemote f c a m r = s := if_pos h

theorem issueRemote_asks {a : Nat} {m : Remote} {r : NiReq} (hroom : (s.core f c).remotes.length < 8) (ha : a % 8 = 0)
    (hdev : (s.deviceOf (fabDest a)).isSome = true) :
    s.issueRemote f c a m r =
      ((s.modCore f c fun k => { k with remotes := k.remotes ++ [m], nextId := k.nextId + 1 }).advance f c).niAsk r := by
  have hdev' : ¬(a % 8 ≠ 0 ∨
      (State.deviceOf ((s.modCore f c fun k => { k with remotes := k.remotes ++ [m], nextId := k.nextId + 1 }).advance f c)
        (fabDest a)).isNone = true) := by
    rw [not_or, not_not]
    refine ⟨ha, ?_⟩
    have heq : State.deviceOf ((s.modCore f c fun k => { k with remotes := k.remotes ++ [m], nextId := k.nextId + 1 }).advance f c)
        (fabDest a) = s.deviceOf (fabDest a) := rfl
    rw [heq]
    cases hd : s.deviceOf (fabDest a) with
    | none => rw [hd] at hdev; cases hdev
    | some _ => exact Bool.false_ne_true
  unfold State.issueRemote
  rw [if_neg (Nat.not_le.mpr hroom), if_neg hdev']

/-- The operation of a remote instruction waits at the NI share, and the core takes it as outstanding. -/
theorem issueRemote_spec {a : Nat} {m : Remote} {r : NiReq} (hroom : (s.core f c).remotes.length < 8) (ha : a % 8 = 0)
    (hdev : (s.deviceOf (fabDest a)).isSome = true) :
    let t := s.issueRemote f c a m r
    t.ni = { s.ni with waiting := s.ni.waiting ++ [r] } ∧
      t.core f c = { s.core f c with
        pc := (s.core f c).pc + 1, nextId := (s.core f c).nextId + 1, remotes := (s.core f c).remotes ++ [m] } ∧
      t = { s with cores := t.cores, ni := t.ni } := by
  dsimp only
  rw [issueRemote_asks hroom ha hdev]
  exact ⟨rfl, (modCore_advance_becomes f c s _).2, rfl⟩

/-- The request of a RATOM. -/
def Core.ratomReq (k : Core) (f c : Nat) (w : Word64) : NiReq :=
  { share := f / 56, dest := fabDest (k.pair (iB w)), byRank := true, op := 0x03, flag := false, space := fabSpace (k.pair (iB w)),
    offset := fabOff (k.pair (iB w)), w4 := BitVec.ofNat 64 (k.pair (iC w)),
    w5 := if bits (iFn w) 3 0 = 2 then BitVec.ofNat 64 (k.pair (iC w + 2)) else 0, w6 := BitVec.ofNat 64 (bits (iFn w) 3 0),
    pay := .bytes [], owner := .remote f c k.nextId, after := k.pushes }

/-- The request of an RSIG. -/
def Core.rsigReq (k : Core) (f c : Nat) (w : Word64) : NiReq :=
  { share := f / 56, dest := fabDest (k.pair (iB w)), byRank := true, op := 0x04, flag := bit (iFn w) 0,
    space := fabSpace (k.pair (iB w)), offset := fabOff (k.pair (iB w)), w4 := 0, w5 := 0, w6 := 0,
    pay := .bytes (signalPayload (sext 32 (k.s (iC w)))), owner := .remote f c k.nextId, after := k.pushes }

theorem exec_ratom (h : s.Issues f c 0x61 w) : exec (.ratom f c w) s = .next (s.issueRemote f c ((s.core f c).pair (iB w))
    { id := (s.core f c).nextId, atom := true, res := iA w, sreg := bits (iFn w) 8 4 } ((s.core f c).ratomReq f c w)) :=
  issue_next (k := fun s => s.issueRemote f c ((s.core f c).pair (iB w))
    { id := (s.core f c).nextId, atom := true, res := iA w, sreg := bits (iFn w) 8 4 } ((s.core f c).ratomReq f c w)) h

theorem exec_rsig (h : s.Issues f c 0x62 w) : exec (.rsig f c w) s = .next (s.issueRemote f c ((s.core f c).pair (iB w))
    { id := (s.core f c).nextId, atom := false, res := 0, sreg := bits (iFn w) 8 4 } ((s.core f c).rsigReq f c w)) :=
  issue_next (k := fun s => s.issueRemote f c ((s.core f c).pair (iB w))
    { id := (s.core f c).nextId, atom := false, res := 0, sreg := bits (iFn w) 8 4 } ((s.core f c).rsigReq f c w)) h

/-! ### Pushes -/

/-- A core with a descriptor of these bytes pushed. -/
def Core.pushed (k : Core) (raw : List Byte) : Core :=
  { k with
    dma := k.dma ++ [{ seq := k.pushes, raw := raw, started := false, left := 0, status := stOk, failOff := 0, land := [],
                       done := 0, again := false }]
    pushes := k.pushes + 1, pc := k.pc + 1 }

theorem push_becomes (s : State) (f c : Nat) (p : Place) :
    CoreBecomes f c s ((s.core f c).pushed (s.rdPlace f c p 32)) (s.push f c p) := modCore_advance_becomes f c s _

/-- The effect of a DMA instruction once it issues. -/
def State.dmaIssued (s : State) (f c : Nat) (w : Word64) : State :=
  match effAddr f c (s.core f c) (iSpace w) (iB w) (iImm w) 32 32 true with
  | .bad st a => s.memFault f c 0x60 st a
  | .ok p =>
    if s.dmaRoom f c then s.push f c p
    else
      (s.modCore f c fun k => { k with hold := .push p.inStore p.off }).modFlock f fun k =>
        { k with stalled := k.stalled ++ [c] }

theorem exec_dma (h : s.Issues f c 0x60 w) : exec (.dma f c w) s = .next (s.dmaIssued f c w) :=
  issue_next (k := fun s => s.dmaIssued f c w) h

variable {p : Place}

theorem dmaIssued_pushes (hp : effAddr f c (s.core f c) (iSpace w) (iB w) (iImm w) 32 32 true = .ok p) (hroom : s.dmaRoom f c = true) :
    s.dmaIssued f c w = s.push f c p := by
  rw [State.dmaIssued, hp]
  exact if_pos hroom

theorem dmaIssued_stalls (hp : effAddr f c (s.core f c) (iSpace w) (iB w) (iImm w) 32 32 true = .ok p) (hroom : s.dmaRoom f c = false) :
    s.dmaIssued f c w = (s.modCore f c fun k => { k with hold := .push p.inStore p.off }).modFlock f fun k =>
      { k with stalled := k.stalled ++ [c] } := by
  rw [State.dmaIssued, hp]
  exact if_neg (Bool.eq_false_iff.mp hroom)

theorem exec_dmaPushAdmit {rest : List Nat} (hf : f < 672) (hstalled : (s.flock f).stalled = c :: rest)
    (hhold : (s.core f c).hold = .push p.inStore p.off) (hroom : s.dmaRoom f c = true) (hquiet : s.flockQuiet f = false)
    (hwithheld : s.withheld f = false) :
    exec (.dmaPushAdmit f) s = .next (((s.modFlock f fun k => { k with stalled := rest }).modCore f c
      fun k => { k with hold := .free }).push f c p) := by
  show execDmaPushAdmit f s = _
  unfold execDmaPushAdmit
  rw [inRange_next hf]
  simp only [hstalled, hhold, hroom, hquiet, hwithheld, Bool.not_false, Bool.and_true, if_true]

end

/-- Settles O23: RATOM and RSIG through `issueRemote`, DMA and DMA_PUSH_ADMIT through `push`. -/
theorem remoteOperationsAndPushes : Obligations.RemoteOperationsAndPushes := by
  unfold Obligations.RemoteOperationsAndPushes
  intro s f c w
  dsimp only
  have hpair := (s.core f c).pair_lt (iB w)
  refine ⟨fun h hroom ha hdev => ?_, fun h hroom ha hdev => ?_, fun h hfull => ?_, fun h hfull => ?_, fun p h hp => ⟨fun hroom => ?_, fun hroom => ?_⟩,
    fun p rest hf hstalled hhold hroom hquiet hwithheld => ?_⟩
  · obtain ⟨hni, hcore, hrest⟩ := issueRemote_spec (m := { id := (s.core f c).nextId, atom := true, res := iA w, sreg := bits (iFn w) 8 4 })
      (r := (s.core f c).ratomReq f c w) hroom ha (by rwa [fabDest_eq hpair])
    exact ⟨_, _, exec_ratom h, hni, hcore, hrest, rfl, rfl, fabDest_eq hpair, rfl, rfl, fabOff_eq _, rfl, rfl, rfl, rfl⟩
  · obtain ⟨hni, hcore, hrest⟩ := issueRemote_spec (m := { id := (s.core f c).nextId, atom := false, res := 0, sreg := bits (iFn w) 8 4 })
      (r := (s.core f c).rsigReq f c w) hroom ha (by rwa [fabDest_eq hpair])
    exact ⟨_, _, exec_rsig h, hni, hcore, hrest, rfl, rfl, fabDest_eq hpair, rfl, rfl, fabOff_eq _, rfl,
      congrArg (fun v => PaySrc.bytes (leBytes 8 v)) (wrap_sext 48 32 _)⟩
  · rw [exec_ratom h, issueRemote_full hfull]
  · rw [exec_rsig h, issueRemote_full hfull]
  · exact ⟨_, exec_dma h, dmaIssued_pushes hp hroom ▸ push_becomes s f c p⟩
  · refine ⟨_, exec_dma h, ?_⟩
    rw [dmaIssued_stalls hp hroom]
    refine ⟨rfl, ?_, ?_⟩
    · rw [core_modFlock, State.core_modCore_same]
    · rw [State.flock_modFlock_same, flock_modCore]
  · refine ⟨_, exec_dmaPushAdmit hf hstalled hhold hroom hquiet hwithheld, rfl, ?_, ?_⟩
    · rw [(push_becomes ..).2, State.core_modCore_same]
      rfl
    · rw [State.push, flock_advance, flock_modCore, flock_modCore, State.flock_modFlock_same]

end Sys2Proof.Machine

/-! SUPPORT. The start of a COPY with a far side where two descriptors of a core have one push number (O25). -/

namespace Sys2Proof.Machine

open Sys2Proof.Tests

/-- A core with two far-tier COPYs of one push number, one line and two lines long. -/
def farTwins : State :=
  { farMapped linked with cores := [(0, { kern with dma := [farDma, dmaOf 1 0x040000000000 0x020000000000 128 0] })] }

/-- The lines that each descriptor of core 0 still waits for. -/
def linesLeft (s : State) : List Nat := (s.core 0 0).dma.map (·.left)

/-- The model counts the lines of each of the two by its own length. -/
theorem farTwins_started : gives (.dmaDescriptorStart 0 0) farTwins (fun t => linesLeft t == [1, 2]) = true := by decide +kernel

/-- The statement counts the lines of both by the length of the first. -/
theorem farTwins_stated : linesLeft ((farTwins.modDma 0 0 farDma.seq fun x => { x with
    started := true, left := farDma.len / 64 }).farIssue 0 0 farDma.seq 896) = [1, 1] := by decide +kernel

theorem farTwins_starts : (farTwins.core 0 0).dma.find? (fun x => !x.started) = some farDma ∧ farTwins.flockQuiet 0 = false ∧
    (farTwins.core 0 0).dma.head? = some farDma ∧ farDma.refused = false ∧ farTwins.dmaBad 0 farDma = none ∧ farDma.op = 0x01 ∧
    farDma.farSide = some 0x040000000000 ∧ farTwins.farUnmapped farDma.src farDma.len = none ∧
    inFar farDma.dst farDma.len = false ∧ farTwins.farMode = stOk := by decide +kernel

/-- Refutes O25: of a state in which two descriptors of a core have one push number, the statement takes the lines left of both
from the length of the one that starts, and the model takes each from its own length. -/
theorem not_dmaDescriptorsStart : ¬ Obligations.DmaDescriptorsStart := by
  unfold Obligations.DmaDescriptorsStart
  intro h
  obtain ⟨hnext, hquiet, hfirst, hok, hgood, hop, hside, hmapped, hdst, hmode⟩ := farTwins_starts
  obtain ⟨-, hstarts⟩ := h.1 farTwins 0 0 farDma (by decide) (by decide) hnext hquiet
  obtain ⟨-, -, hgo⟩ := hstarts fun _ => hfirst
  obtain ⟨-, -, -, -, hfar⟩ := hgo hok hgood
  have hstart := hfar _ hop hside (by dsimp only; rw [hmapped, ite_self]) (by dsimp only; rw [hdst]; rfl) hmode
  have hleft := farTwins_started
  rw [gives, hstart] at hleft
  dsimp only at hleft
  rw [farTwins_stated] at hleft
  exact absurd hleft (by decide)

end Sys2Proof.Machine

/-! SUPPORT. The placing of addresses (R284, R285; O32). -/

namespace Sys2Proof.Machine

/-- A stack and a stack-internal address: the first a stack of the part, the second an address of 37 bits, in the same place of
its bale as the local address. -/
theorem stackPlace_range (inter : Bool) {a : Nat} (h : a < 0x018000000000) :
    (stackPlace inter a).1 < 12 ∧ (stackPlace inter a).2 < 2 ^ 37 ∧ (stackPlace inter a).2 % 4096 = a % 4096 := by
  cases inter with
  | true =>
    refine ⟨Nat.mod_lt _ (by decide), ?_, ?_⟩
    · show a / 4096 / 12 * 4096 + a % 4096 < 2 ^ 37
      omega
    · show (a / 4096 / 12 * 4096 + a % 4096) % 4096 = a % 4096
      omega
  | false =>
    refine ⟨?_, ?_, ?_⟩
    · show a / 2 ^ 37 < 12
      omega
    · exact Nat.mod_lt _ (by decide)
    · show a % 2 ^ 37 % 4096 = a % 4096
      omega

/-- The rotation of the stacks by the sum of a bale index's nibbles keeps them apart. -/
theorem rotate_injective {x y n : Nat} (hx : x < 12) (hy : y < 12) (h : (x + n) % 12 = (y + n) % 12) : x = y := by omega

theorem stackPlace_injective {inter : Bool} {a b : Nat} (h : stackPlace inter a = stackPlace inter b) : a = b := by
  cases inter with
  | true =>
    obtain ⟨hstack, haddr⟩ := Prod.mk.inj h
    have hindex : a / 4096 / 12 = b / 4096 / 12 := by omega
    rw [hindex] at hstack
    have hrot := rotate_injective (Nat.mod_lt _ (by decide)) (Nat.mod_lt _ (by decide)) hstack
    omega
  | false =>
    obtain ⟨hstack, haddr⟩ := Prod.mk.inj h
    omega

theorem stackPlace_bale {inter : Bool} {a b : Nat} (h : a / 4096 = b / 4096) :
    (stackPlace inter a).1 = (stackPlace inter b).1 ∧ (stackPlace inter a).2 / 4096 = (stackPlace inter b).2 / 4096 := by
  cases inter with
  | true =>
    refine ⟨?_, ?_⟩
    · show (a / 4096 % 12 + nibbleSum (a / 4096 / 12)) % 12 = (b / 4096 % 12 + nibbleSum (b / 4096 / 12)) % 12
      rw [h]
    · show (a / 4096 / 12 * 4096 + a % 4096) / 4096 = (b / 4096 / 12 * 4096 + b % 4096) / 4096
      omega
  | false =>
    refine ⟨?_, ?_⟩
    · show a / 2 ^ 37 = b / 2 ^ 37
      omega
    · show a % 2 ^ 37 / 4096 = b % 2 ^ 37 / 4096
      omega

/-- Settles O32: the placing splits an address without loss in both modes. -/
theorem addressesPlaceOnStacksOnce : Obligations.AddressesPlaceOnStacksOnce := by
  unfold Obligations.AddressesPlaceOnStacksOnce
  intro inter a b ha hb
  obtain ⟨hstack, haddr, hbale⟩ := stackPlace_range inter ha
  exact ⟨hstack, haddr, stackPlace_injective, stackPlace_bale, hbale⟩

end Sys2Proof.Machine

/-! SUPPORT. The end of DMA descriptors (R152, R155, R159 to R162, R395, R475; O26). -/

namespace Sys2Proof.Machine

/-! ### A descriptor leaves its core -/

/-- `t` has the content of every memory of `s`. -/
structure KeepsMemory (s t : State) : Prop where
  dram    : t.dram = s.dram
  bales   : t.bales = s.bales
  store   : t.store = s.store
  scratch : t.scratch = s.scratch

theorem KeepsMemory.refl (s : State) : KeepsMemory s s := ⟨rfl, rfl, rfl, rfl⟩

theorem KeepsMemory.trans {s t u : State} (h : KeepsMemory s t) (h' : KeepsMemory t u) : KeepsMemory s u :=
  ⟨h'.dram.trans h.dram, h'.bales.trans h.bales, h'.store.trans h.store, h'.scratch.trans h.scratch⟩

theorem LogOnly.keepsMemory {s t : State} (h : LogOnly s t) : KeepsMemory s t := ⟨h.dram, h.bales, h.store, h.scratch⟩

theorem setNi_keepsMemory (s : State) (n : Ni) : KeepsMemory s (s.setNi n) := ⟨rfl, rfl, rfl, rfl⟩

theorem modCore_keepsMemory (s : State) (f c : Nat) (g : Core → Core) : KeepsMemory s (s.modCore f c g) := ⟨rfl, rfl, rfl, rfl⟩

theorem haltCore_keepsMemory (s : State) (f c : Nat) : KeepsMemory s (s.haltCore f c) := ⟨rfl, rfl, rfl, rfl⟩

theorem coreFault_keepsMemory (s : State) (f c cls st dropped pc op seq : Nat) (im : Bool) :
    KeepsMemory s (s.coreFault f c cls st dropped pc op seq im) :=
  (recordCoreFault_logOnly s f c _).keepsMemory.trans (haltCore_keepsMemory ..)

theorem leaveSnoops_keepsMemory (s : State) (at' : Snoop → Bool) (sel : StackReq → Bool) : KeepsMemory s (s.leaveSnoops at' sel) :=
  ⟨rfl, rfl, rfl, rfl⟩

theorem foldl_modStk_keepsMemory (g : Stk → Stk) (is : List Nat) (s : State) : KeepsMemory s (is.foldl (fun s i => s.modStk i g) s) :=
  List.foldlRecOn (motive := fun t : State => KeepsMemory s t) is _ (.refl s) fun _ h _ _ => h.trans ⟨rfl, rfl, rfl, rfl⟩

theorem dropUnits_keepsMemory (s : State) (sel : StackReq → Bool) (owner : StkOwner) : KeepsMemory s (s.dropUnits sel owner) := by
  unfold State.dropUnits
  dsimp only
  refine KeepsMemory.trans ?_ (setNi_keepsMemory ..)
  exact (leaveSnoops_keepsMemory ..).trans (foldl_modStk_keepsMemory ..)

section
variable (s : State) (f c seq : Nat)

theorem core_dropDma : (s.dropDma f c seq).core f c =
    { s.core f c with dma := (s.core f c).dma.filter fun x => x.seq != seq } := by
  unfold State.dropDma
  rw [core_congr (dropUnits_memOnly (s.modCore f c fun k => { k with dma := k.dma.filter fun x => x.seq != seq }) _ _).cores,
    State.core_modCore_same]

theorem regs_dropDma : (s.dropDma f c seq).regs = s.regs := by
  unfold State.dropDma
  rw [(dropUnits_noNewEntries ..).regs]
  exact rfl

theorem dropDma_keepsMemory : KeepsMemory s (s.dropDma f c seq) :=
  (modCore_keepsMemory s f c fun k => { k with dma := k.dma.filter fun x => x.seq != seq }).trans (dropUnits_keepsMemory ..)

end

/-! ### A descriptor ends with OK -/

section
variable {s : State} {f c : Nat} {d : Dma}

theorem dmaOutcome_local (hop : d.op ≠ 0x08 ∧ d.op ≠ 0x09) (st : Nat) : s.dmaOutcome f c d st = s := by
  rw [State.dmaOutcome, if_neg (by tauto)]

theorem dmaOk_silent (hword : d.word f c = none) (hop : d.op ≠ 0x08 ∧ d.op ≠ 0x09) : s.dmaOk f c d = s.dropDma f c d.seq := by
  rw [State.dmaOk, hword]
  exact congrArg (State.dropDma · f c d.seq) (dmaOutcome_local hop stOk)

theorem dmaOk_signals {p : SigPlace} {s1 : State} (hword : d.word f c = some p) (hop : d.op ≠ 0x08 ∧ d.op ≠ 0x09)
    (hadd : s.addSignal p 1 0x4 (some (coreId f c)) = (s1, stOk)) : s.dmaOk f c d = s1.dropDma f c d.seq := by
  rw [State.dmaOk, hword]
  simp only [hadd, if_true]
  exact congrArg (State.dropDma · f c d.seq) (dmaOutcome_local hop stOk)

/-! ### A descriptor fails -/

theorem dmaOutcome_cores (st : Nat) : (s.dmaOutcome f c d st).cores = s.cores := by
  unfold State.dmaOutcome
  split
  · exact outcome_cores ..
  · rfl

theorem dmaOutcome_droverOnly (st : Nat) : DroverOnly s (s.dmaOutcome f c d st) := .ite (outcome_droverOnly ..) (.refl s)

/-- The fault that a descriptor's failure leaves: its core halts with its status, and its started descriptors alone stay. -/
def FailsDma (s : State) (f c : Nat) (d : Dma) (t : State) (st : Nat) : Prop :=
  t.halted f c = true ∧
    (t.core f c).dma = ((s.core f c).dma.filter fun x => x.seq != d.seq).filter (fun x => x.started) ∧
    (bit (s.reg .flkCoreFault f c) 63 = false →
      let v := t.reg .flkCoreFault f c
      bits v 59 56 = 5 ∧ bits v 55 52 = st ∧ bit v 61 = true ∧ bits v 15 0 = d.seq % 2 ^ 16 ∧
        bits v 51 47 = (((s.core f c).dma.filter fun x => x.seq != d.seq).filter fun x => !x.started).length)

/-- The state in which a failing descriptor's fault is taken. -/
def State.beforeDmaFault (s : State) (f c : Nat) (d : Dma) (st : Nat) : State :=
  ((s.dmaOutcome f c d st).dropDma f c d.seq).modCore f c fun k => { k with dma := k.dma.filter fun x => x.started }

theorem core_beforeDmaFault (st : Nat) : (s.beforeDmaFault f c d st).core f c =
    { s.core f c with dma := ((s.core f c).dma.filter fun x => x.seq != d.seq).filter fun x => x.started } := by
  rw [State.beforeDmaFault, State.core_modCore_same, core_dropDma, core_congr (dmaOutcome_cores st)]

theorem regs_beforeDmaFault (st : Nat) : (s.beforeDmaFault f c d st).regs = (s.dmaOutcome f c d st).regs := by
  rw [State.beforeDmaFault, State.modCore, State.setCore, regs_dropDma]

theorem coreFault_beforeDmaFault (st : Nat) : (s.beforeDmaFault f c d st).reg .flkCoreFault f c = s.reg .flkCoreFault f c :=
  (reg_congr (regs_beforeDmaFault st) .flkCoreFault f c).trans ((dmaOutcome_droverOnly st).reg .flkCoreFault f c (by decide))

theorem dmaFail_eq (st : Nat) : s.dmaFail f c d st = (s.beforeDmaFault f c d st).coreFault f c 0x5 st
    (((s.core f c).dma.filter fun x => x.seq != d.seq).filter fun x => !x.started).length (s.core f c).pc 0 (d.seq % 2 ^ 16) true := by
  have hcore := core_dropDma (s.dmaOutcome f c d st) f c d.seq
  rw [core_congr (dmaOutcome_cores st)] at hcore
  have heq : s.dmaFail f c d st = (s.beforeDmaFault f c d st).coreFault f c 0x5 st
      ((((s.dmaOutcome f c d st).dropDma f c d.seq).core f c).dma.filter fun x => !x.started).length
      (((s.dmaOutcome f c d st).dropDma f c d.seq).core f c).pc 0 (d.seq % 2 ^ 16) true := rfl
  rw [heq, hcore]

theorem dmaFail_halted (st : Nat) (hc : c < 120) : (s.dmaFail f c d st).halted f c = true := by
  rw [dmaFail_eq]
  exact coreFault_halted _ _ _ _ _ _ _ _ hc

theorem core_dmaFail (st : Nat) : (s.dmaFail f c d st).core f c = { s.core f c with
    dma := ((s.core f c).dma.filter fun x => x.seq != d.seq).filter fun x => x.started, queue := [], hold := .free } := by
  rw [dmaFail_eq, core_coreFault, core_beforeDmaFault]

theorem dmaFail_fails {st : Nat} (hc : c < 120) (hst : st < 16) (hlen : (s.core f c).dma.length ≤ 16) (hpc : (s.core f c).pc < 2 ^ 20) :
    FailsDma s f c d (s.dmaFail f c d st) st := by
  have hdropped : (((s.core f c).dma.filter fun x => x.seq != d.seq).filter fun x => !x.started).length < 32 :=
    lt_of_le_of_lt ((List.length_filter_le ..).trans ((List.length_filter_le ..).trans hlen)) (by decide)
  obtain ⟨hv, him, hcls, hst', hdrop, -, -, hseq⟩ :=
    bits_faultWord (im := true) (cls := 5) (op := 0) (by decide) hst hdropped hpc (by decide) (Nat.mod_lt d.seq (Nat.two_pow_pos 16))
  refine ⟨dmaFail_halted st hc, by rw [core_dmaFail], fun hfirst => ?_⟩
  dsimp only
  rw [dmaFail_eq, reg_coreFault hc hv, coreFault_beforeDmaFault, logEntry_first hfirst, bit_eq_testBit_bits, bits_firstEntry (by decide),
    bits_firstEntry (by decide), bits_firstEntry (by decide), bits_firstEntry (by decide), bits_firstEntry (by decide)]
  exact ⟨hcls, hst', by rw [him]; rfl, hseq, hdrop⟩

/-- What a log of another unit adds before the failure is none of its concern. -/
theorem FailsDma.of_log {t u : State} {st : Nat} (hlog : LogOnly s t) (hreg : t.reg .flkCoreFault f c = s.reg .flkCoreFault f c)
    (h : FailsDma t f c d u st) : FailsDma s f c d u st := by
  unfold FailsDma at *
  rwa [hlog.core, hreg] at h

theorem coreFault_addr_notMem_peatLog {f c : Nat} (hc : c < 120) (p : Nat) : Reg.flkCoreFault.addr f c ∉
    ({Reg.peatFaultInfo.addr p 0, Reg.peatFaultAddr.addr p 0, Reg.drvEvtStatus.addr 0 0} : Set Nat) := by
  simp [Reg.addr, Reg.row, Block.base]
  omega

/-- A descriptor that no peat unit serves leaves at most an entry in the peat unit's log. -/
theorem stopPeat_unserved {st : Nat} (hc : c < 120) (hjob : s.job f c d.seq = none) :
    LogOnly s (s.stopPeat f c d st) ∧ (s.stopPeat f c d st).reg .flkCoreFault f c = s.reg .flkCoreFault f c := by
  unfold State.stopPeat
  rw [hjob]
  dsimp only
  split
  · exact ⟨peatLog_logOnly .., (log_outside ..).reg _ _ _ (coreFault_addr_notMem_peatLog hc (f / 56))⟩
  · exact ⟨.refl s, rfl⟩

/-! ### DMA_COMPLETE -/

/-- Descriptor `n` of a core has started. -/
structure RunsDma (s : State) (f c n : Nat) (d : Dma) : Prop where
  flock   : f < 672
  core    : c < 120
  dma     : (s.core f c).dma[n]? = some d
  started : d.started = true

/-- What DMA_COMPLETE does for a started descriptor. -/
def State.advanceDma (s : State) (f c : Nat) (d : Dma) : State :=
  match d.op with
  | 0x01 => match d.farSide with
    | some _ => (s.farIssue f c d.seq 896).settle f c d
    | none => s.doCopy f c d
  | 0x02 => if d.len ≤ d.done then s.dmaOk f c d else s
  | 0x03 => s.doBaleOut f c d (d.len / 4096 + 1)
  | 0x04 => s
  | _ => s.settle f c d

variable {n : Nat}

theorem exec_dmaComplete (h : RunsDma s f c n d) : exec (.dmaComplete f c n) s = .next (s.advanceDma f c d) := by
  show execDmaComplete f c n s = _
  unfold execDmaComplete
  rw [onCore_next h.flock h.core]
  simp only [h.dma, h.started, Bool.not_true, Bool.false_eq_true, if_false]
  rfl

theorem advanceDma_copy (hop : d.op = 0x01) (hside : d.farSide = none) : s.advanceDma f c d = s.doCopy f c d := by
  simp only [State.advanceDma, hop, hside]

theorem advanceDma_bales (hop : d.op = 0x02 ∨ d.op = 0x03) (hdone : d.len ≤ d.done) : s.advanceDma f c d = s.dmaOk f c d := by
  obtain hop | hop := hop
  · simp only [State.advanceDma, hop, if_pos hdone]
  · simp only [State.advanceDma, hop, State.doBaleOut, if_pos hdone]
    exact if_pos rfl

theorem advanceDma_baleIn (hop : d.op = 0x02) (hmore : d.done < d.len) : s.advanceDma f c d = s := by
  simp only [State.advanceDma, hop, if_neg (Nat.not_le.mpr hmore)]

/-- A descriptor whose answers have come and been written ends with its status. -/
theorem settle_settled (hland : d.land = []) (hleft : d.left = 0) (hfind : (s.core f c).dma.find? (fun x => x.seq == d.seq) = some d) :
    s.settle f c d = s.dmaEnd f c d d.status := by
  unfold State.settle
  rw [hland]
  simp only [State.landAll, hfind, hland, hleft, and_self, if_true]

/-- Every line of a COPY with a far side has been asked for. -/
theorem farIssue_done (hdone : d.len ≤ d.done) (hfind : (s.core f c).dma.find? (fun x => x.seq == d.seq) = some d) (n : Nat) :
    s.farIssue f c d.seq (n + 1) = s := by
  unfold State.farIssue
  rw [hfind]
  exact if_pos (.inl hdone)

theorem advanceDma_settles (hop : d.op = 0x08 ∨ d.op = 0x09 ∨ (d.op = 0x01 ∧ d.farSide.isSome = true ∧ d.len ≤ d.done))
    (hland : d.land = []) (hleft : d.left = 0) (hfind : (s.core f c).dma.find? (fun x => x.seq == d.seq) = some d) :
    s.advanceDma f c d = s.dmaEnd f c d d.status := by
  rw [← settle_settled hland hleft hfind]
  obtain hop | hop | ⟨hop, hside, hdone⟩ := hop
  · simp only [State.advanceDma, hop]
  · simp only [State.advanceDma, hop]
  · obtain ⟨w, hw⟩ := Option.isSome_iff_exists.mp hside
    simp only [State.advanceDma, hop, hw]
    rw [farIssue_done hdone hfind 895]

/-! ### COPY between local memories (R155) -/

/-- The state in which a COPY that does not overlap has kept what it read. -/
def State.keepsCopy (s : State) (f c : Nat) (d : Dma) (bs : List Byte) : State :=
  s.modDma f c d.seq fun _ => { d with land := [(0, d.dst, bs)] }

theorem doCopy_writes {s1 s2 : State} {bs : List Byte} (hop : d.op = 0x01) (hland : d.land = []) (hapart : overlaps d.src d.dst d.len = false)
    (hread : s.tryReadMem (s.dmaReq f c d.seq d.src) 0x1 d.len = (s1, some (stOk, bs)))
    (hwrite : (s1.keepsCopy f c d bs).tryWriteMem ((s1.keepsCopy f c d bs).dmaReq f c d.seq d.dst) 0x1 bs = (s2, some stOk))
    (hword : d.word f c = none) : s.doCopy f c d = s2.dropDma f c d.seq := by
  have hcopied : s1.copied d.src d.dst d.len bs = bs := by simp [State.copied, hapart]
  have hout : (s1.keepsCopy f c d bs).copyOut f c { d with land := [(0, d.dst, bs)] } bs = s2.dropDma f c d.seq := by
    unfold State.copyOut
    have hwrite' : (s1.keepsCopy f c d bs).tryWriteMem ((s1.keepsCopy f c d bs).dmaReq f c
      ({ d with land := [(0, d.dst, bs)] } : Dma).seq ({ d with land := [(0, d.dst, bs)] } : Dma).dst) 0x1 bs = (s2, some stOk) := hwrite
    rw [hwrite']
    exact dmaOk_silent (d := { d with land := [(0, d.dst, bs)] }) hword
      (by have hop' : ({ d with land := [(0, d.dst, bs)] } : Dma).op = 0x01 := hop
          rw [hop']; decide)
  unfold State.doCopy
  rw [hland]
  simp only [hread, ne_eq, not_true_eq_false, if_false, hcopied, hapart, Bool.false_eq_true]
  exact hout

/-- The state after a COPY between flock stores. -/
theorem doCopy_stores (hop : d.op = 0x01) (hland : d.land = []) (hapart : overlaps d.src d.dst d.len = false)
    (hword : d.word f c = none) (hsrc : memOf d.src d.len = some .store) (hdst : memOf d.dst d.len = some .store)
    (hsrcUp : (flocksOf .store d.src d.len).find? s.flockQuiet = none) (hdstUp : (flocksOf .store d.dst d.len).find? s.flockQuiet = none) :
    let bs := Sparse.readBytes s.store (d.src - storeBase) d.len
    s.doCopy f c d = ((s.keepsCopy f c d bs).wrStoreAt (d.dst - storeBase) bs).dropDma f c d.seq := by
  dsimp only
  have hlen : (Sparse.readBytes s.store (d.src - storeBase) d.len).length = d.len := Sparse.readBytes_length ..
  have hread : s.tryReadMem (s.dmaReq f c d.seq d.src) 0x1 d.len = (s, some (stOk, Sparse.readBytes s.store (d.src - storeBase) d.len)) :=
    State.tryReadMem_store hsrc hsrcUp
  have hdst' := hlen.symm ▸ hdst
  have hdstUp' := hlen.symm ▸ hdstUp
  generalize Sparse.readBytes s.store (d.src - storeBase) d.len = bs at hread hdst' hdstUp'
  refine doCopy_writes hop hland hapart hread (State.tryWriteMem_store 0x1 hdst' hdstUp') hword

theorem seq_ne_of_mem_dropDma {x : Dma} (hx : x ∈ ((s.dropDma f c d.seq).core f c).dma) : x.seq ≠ d.seq := by
  rw [core_dropDma] at hx
  exact bne_iff_ne.mp (List.mem_filter.mp hx).2

end

/-- Settles O26: the completions by the descriptor's operation, the failures by `dmaFail_fails`. -/
theorem dmaDescriptorsEnd : Obligations.DmaDescriptorsEnd := by
  unfold Obligations.DmaDescriptorsEnd
  refine ⟨fun s f c n d hf hc => ?_, fun s f c n st d hf hc hst hne => ?_⟩
  · dsimp only
    intro hdma hstarted
    have h : RunsDma s f c n d := ⟨hf, hc, hdma, hstarted⟩
    rw [exec_dmaComplete h]
    refine ⟨fun s1 s2 bs hop hside hland hapart hread hwrite hword => ?copy, fun hop hside hland hapart hword hsrc hdst hsrcUp hdstUp => ?stores,
      fun p s1 hop hdone hword hadd => ?signals, fun hop hdone hword => ?bales, fun hop hmore => ?waits,
      fun hop hland hleft hfind => ?settles, core_dropDma s f c d.seq⟩
    case copy => rw [advanceDma_copy hop hside, doCopy_writes hop hland hapart hread hwrite hword]
    case stores =>
      rw [advanceDma_copy hop hside, doCopy_stores hop hland hapart hword hsrc hdst hsrcUp hdstUp]
      have hlen : (Sparse.readBytes s.store (d.src - storeBase) d.len).length = d.len := Sparse.readBytes_length ..
      refine ⟨_, rfl, fun x hx => seq_ne_of_mem_dropDma hx, ?_, (dropDma_keepsMemory ..).scratch, (dropDma_keepsMemory ..).dram, fun a ha => ?_⟩
      · rw [(dropDma_keepsMemory ..).store, State.wrStoreAt_store]
        have hread := Sparse.readBytes_writeBytes s.store (d.dst - storeBase) (Sparse.readBytes s.store (d.src - storeBase) d.len)
        rw [hlen] at hread
        exact hread
      · rw [(dropDma_keepsMemory ..).store, State.wrStoreAt_store, Sparse.get_writeBytes_outside (by rw [hlen]; exact ha)]
        rfl
    case signals => rw [advanceDma_bales (.inl hop) hdone, dmaOk_signals hword (by rw [hop]; decide) hadd]
    case bales =>
      rw [advanceDma_bales hop hdone, dmaOk_silent hword (by obtain hop | hop := hop <;> rw [hop] <;> decide)]
    case waits => rw [advanceDma_baleIn hop hmore]
    case settles => rw [advanceDma_settles hop hland hleft hfind]
  · dsimp only
    intro hlen hpc
    refine ⟨dmaFail_fails hc hst hlen hpc, fun hdma hstarted htime hjob => ?_⟩
    show ∃ t, execDmaTimeout f c n s = .next t ∧ _
    unfold execDmaTimeout
    rw [onCore_next hf hc]
    simp only [hdma, hstarted, Bool.true_and, bne_iff_ne.mpr htime, if_true]
    obtain ⟨hlog, hfault⟩ := stopPeat_unserved (d := d) (st := stTimeout) hc hjob
    refine ⟨_, rfl, FailsDma.of_log hlog hfault (dmaFail_fails hc (by decide) ?_ ?_)⟩
    · rwa [hlog.core]
    · rwa [hlog.core]

end Sys2Proof.Machine

/-! SUPPORT. Reads of units at a stack at rest, and the bales of a BALE_IN (R152, R153, R294, R295, R298; O27). -/

namespace Sys2Proof.Machine

/-! ### A unit's read at a stack at rest (R281) -/

section
variable {s : State} {i : Nat}

theorem State.Plain.unitRoom (h : s.Plain i) (r : StackReq) : s.unitRoom i r = (s, true) := by
  obtain ⟨pool, hpool⟩ := h.room r
  have hroom : s.arrivalRoom i r .ticket = some pool := by
    simp [State.arrivalRoom, State.roomFor, StkAcc.isWrite, StkAcc.entries, hpool, Stk.contended, h.waiting]
  simp [State.unitRoom, h.isOpen, h.grantAll, State.unitEnt, h.ents, State.unitWaits, h.waiting, hroom]

theorem State.unitRooms_free {r : StackReq} {is : List Nat} (h : ∀ i ∈ is, s.unitRoom i r = (s, true)) :
    s.unitRooms r is = (s, true) := by
  induction is with
  | nil => rfl
  | cons i is ih =>
    simp only [State.unitRooms, h i List.mem_cons_self, ih fun j hj => h j (List.mem_cons_of_mem _ hj), Bool.and_self]

variable {ls : List Nat} (hls : ∀ l ∈ ls, s.stackOf l = i)
include hls

theorem State.eq_of_mem_stacksOf {j : Nat} (hj : j ∈ s.stacksOf ls) : j = i := by
  obtain ⟨-, hany⟩ := List.mem_filter.mp hj
  obtain ⟨l, hl, heq⟩ := List.any_eq_true.mp hany
  rw [← eq_of_beq heq, hls l hl]

/-- A read of one stack at rest can be made at once. -/
theorem State.Plain.unitRead (h : s.Plain i) (r : StackReq) (reads : Bool) : s.unitRead r reads ls = (s, .go) := by
  have hbehind : (ls.any fun l => s.stkOpen (s.stackOf l) && s.behind l) = false := by
    rw [List.any_eq_false]
    intro l hl
    simp [State.behind, hls l hl, h.ents]
  have hrooms : s.unitRooms r (s.stacksOf ls) = (s, true) :=
    State.unitRooms_free fun j hj => State.eq_of_mem_stacksOf hls hj ▸ h.unitRoom r
  simp [State.unitRead, h.unshared.prepRead, hbehind, hrooms]

/-- A read that found its entry at once leaves nothing behind. -/
theorem State.unitDone_free (hs : s.Unshared) (hents : (s.stk i).ents = []) (r : StackReq) : s.unitDone r ls = s := by
  unfold State.unitDone
  rw [hs.useLines, hs.takeBrought]
  refine List.foldlRecOn (motive := fun t : State => t = s) _ _ rfl fun t ht j hj => ?_
  rw [ht, State.eq_of_mem_stacksOf hls hj, State.unitLeave, State.unitEnt, hents]
  rfl

end

/-- The lines of a bale lie in its stack. -/
theorem stackOf_linesOf_bale {s : State} {a l : Nat} (ha : a % 4096 = 0) (hl : l ∈ linesOf a 4096) : s.stackOf l = s.stackOf a := by
  rw [linesOf, if_neg (by decide)] at hl
  obtain ⟨j, hj, rfl⟩ := List.mem_map.mp hl
  have hj := List.mem_range.mp hj
  exact (stackPlace_bale (by omega)).1

/-- A whole bale of a stack at rest is read at once. -/
theorem State.Plain.tryReadBale {s : State} {r : StackReq} (h : s.Plain (s.stackOf r.addr)) (ha : r.addr % 4096 = 0) (errs : Errs) :
    let x := (s.eccs r.addr 128 errs).readBale r.source r.core r.addr
    s.tryReadBale r errs = (x.1, some x.2) := by
  have hlog := readBale_logOnly (s.eccs r.addr 128 errs) r.source r.core r.addr
  have hecc := eccs_readsOnly s r.addr 128 errs
  have hinter : ((s.eccs r.addr 128 errs).readBale r.source r.core r.addr).1.stackOf = s.stackOf := by
    unfold State.stackOf
    rw [hlog.inter, hecc.inter]
  have hents : ((((s.eccs r.addr 128 errs).readBale r.source r.core r.addr).1).stk (s.stackOf r.addr)).ents = [] := by
    rw [State.stk, hlog.stks, hecc.stks]
    exact h.ents
  have hdone := State.unitDone_free (s := ((s.eccs r.addr 128 errs).readBale r.source r.core r.addr).1) (i := s.stackOf r.addr)
    (ls := linesOf r.addr 4096) (fun l hl => hinter ▸ stackOf_linesOf_bale ha hl) (hlog.unshared (hecc.unshared h.unshared)) hents r
  dsimp only
  simp only [State.tryReadBale, h.unitRead (fun l hl => stackOf_linesOf_bale ha hl) r false]
  rw [hdone]

/-! ### BALE_READ_COMPLETE -/

section
variable {s : State} {f c n : Nat} {d : Dma} {errs : Errs}

/-- A started BALE_IN waits for its next bale, in a stack at rest. -/
structure ReadsBale (s : State) (f c n : Nat) (d : Dma) : Prop where
  runs  : RunsDma s f c n d
  op    : d.op = 0x02
  more  : d.done < d.len
  whole : (d.src + d.done) % 4096 = 0
  plain : s.Plain (s.stackOf (d.src + d.done))

/-- The state once the bale has been read. -/
def State.baleRead (s : State) (f c : Nat) (d : Dma) (errs : Errs) : State × Nat × List Byte × Nat × Nat :=
  (s.eccs (d.src + d.done) 128 errs).readBale (s.portSource f (d.src + d.done)) (coreId f c) (d.src + d.done)

/-- What the bale engine makes of a bale that has been read. -/
def State.takeBale (s : State) (f c : Nat) (d : Dma) : Nat × List Byte × Nat × Nat → State
  | (st, bs, tag, crc) =>
    if st ≠ stOk then s.dmaFail f c d st
    else if baleCrc bs tag (baleOf (s.phys (d.src + d.done))) = crc ∧ (d.tag = 0 ∨ d.tag = tag) then
      (s.wrStore f (d.dst + d.done - storeAddr f 0) bs).modDma f c d.seq fun d => { d with done := d.done + 4096, again := false }
    else if d.again then s.dmaViolation f c d stChecksumFault (d.src + d.done)
    else s.modDma f c d.seq fun d => { d with again := true }

theorem exec_baleReadComplete (h : ReadsBale s f c n d) :
    exec (.baleReadComplete f c n errs) s = .next ((s.baleRead f c d errs).1.takeBale f c d (s.baleRead f c d errs).2) := by
  have hread : s.tryReadBale (s.dmaReq f c d.seq (d.src + d.done)) errs = ((s.baleRead f c d errs).1, some (s.baleRead f c d errs).2) :=
    h.plain.tryReadBale h.whole errs
  show execBaleReadComplete f c n errs s = _
  unfold execBaleReadComplete
  rw [onCore_next h.runs.flock h.runs.core]
  simp only [h.runs.dma, h.runs.started, h.op, Nat.not_le.mpr h.more, hread, decide_false, Bool.not_true, bne_self_eq_false,
    Bool.or_self, Bool.false_eq_true, if_false]
  rfl

/-- Reading a bale changes errors, counters and logs alone. -/
theorem baleRead_spec (s : State) (f c : Nat) (d : Dma) (errs : Errs) :
    let t := (s.baleRead f c d errs).1
    KeepsMemory s t ∧ t.cores = s.cores ∧ t.inter = s.inter := by
  have hecc := eccs_readsOnly s (d.src + d.done) 128 errs
  have hlog := readBale_logOnly (s.eccs (d.src + d.done) 128 errs) (s.portSource f (d.src + d.done)) (coreId f c) (d.src + d.done)
  refine ⟨⟨hlog.dram.trans hecc.dram, hlog.bales.trans hecc.bales, ?_, ?_⟩, ?_, hlog.inter.trans hecc.inter⟩
  · exact hlog.store.trans ((congrArg State.store hecc).trans rfl)
  · exact hlog.scratch.trans ((congrArg State.scratch hecc).trans rfl)
  · exact hlog.cores.trans ((congrArg State.cores hecc).trans rfl)

/-- The part of the metadata that decides whether a bale is taken (R153). -/
def State.GoodBale (s : State) (d : Dma) : Prop :=
  (s.bale (baleOf (s.phys (d.src + d.done)))).crcErr = 0 ∧
    (d.tag = 0 ∨ d.tag = (s.bale (baleOf (s.phys (d.src + d.done)))).tag.toNat)

/-- A stored CRC is right when it has no defect. -/
theorem storedCrc_right_iff (s : State) (b : Nat) :
    baleCrc (s.baleData b) (s.bale b).tag.toNat b = s.storedCrc b ↔ (s.bale b).crcErr = 0 := by
  rw [State.storedCrc]
  constructor
  · intro h
    have hzero : (s.bale b).crcErr.toNat = 0 := by
      have hx := congrArg (baleCrc (s.baleData b) (s.bale b).tag.toNat b ^^^ ·) h
      simpa [← Nat.xor_assoc] using hx.symm
    exact BitVec.eq_of_toNat_eq hzero
  · intro h
    rw [h]
    exact (Nat.xor_zero _).symm

theorem ReadsBale.opened (h : ReadsBale s f c n d) (errs : Errs) :
    (s.eccs (d.src + d.done) 128 errs).stkOpen ((s.eccs (d.src + d.done) 128 errs).stackOf (d.src + d.done)) = true := by
  have hecc := eccs_eccOnly s (d.src + d.done) 128 errs
  rw [hecc.reads.stackOf, ← h.plain.isOpen]
  simp only [State.stkOpen, State.stkReady, State.initBusy, State.rbit, State.reg, hecc.regs, hecc.reads.rst]

theorem baleRead_good (h : ReadsBale s f c n d)
    (hclean : sectorsIn (s.eccs (d.src + d.done) 128 errs).bad (baleOf (s.phys (d.src + d.done))) = []) :
    (s.baleRead f c d errs).2 = (stOk, s.baleData (baleOf (s.phys (d.src + d.done))),
      (s.bale (baleOf (s.phys (d.src + d.done)))).tag.toNat, s.storedCrc (baleOf (s.phys (d.src + d.done)))) := by
  have hecc := eccs_eccOnly s (d.src + d.done) 128 errs
  have hread := readBale_ok (source := s.portSource f (d.src + d.done)) (core := coreId f c) (h.opened errs) (by rw [hecc.reads.phys]; exact hclean)
  rw [State.baleRead, hread, hecc.reads.phys, hecc.reads.sameContent.baleData, hecc.reads.sameContent.bale,
    hecc.reads.sameContent.storedCrc]
  rfl

theorem baleRead_bad (h : ReadsBale s f c n d)
    (hbad : sectorsIn (s.eccs (d.src + d.done) 128 errs).bad (baleOf (s.phys (d.src + d.done))) ≠ []) :
    (s.baleRead f c d errs).2 = (stChecksumFault, [], 0, 0) := by
  have hecc := eccs_eccOnly s (d.src + d.done) 128 errs
  obtain ⟨t, hread⟩ := readBale_bad (source := s.portSource f (d.src + d.done)) (core := coreId f c) (h.opened errs)
    (by rw [hecc.reads.phys]; exact hbad)
  rw [State.baleRead, hread]

/-! ### What a bale that has been read becomes -/

theorem marks_modDma (s : State) (g : Dma → Dma) : ((s.modDma f c d.seq g).core f c).dma =
    (s.core f c).dma.map fun x => if x.seq = d.seq then g x else x := congrArg Core.dma (core_modDma s f c d.seq g)

theorem wrStore_keepsDma (s : State) (off : Nat) (bs : List Byte) : ((s.wrStore f off bs).core f c).dma = (s.core f c).dma := by
  rw [State.wrStore, State.wrStoreAt, State.core_notify]
  rfl

theorem takeBale_good {b : Nat} (hb : baleOf (s.phys (d.src + d.done)) = b) (hgood : s.GoodBale d) :
    s.takeBale f c d (stOk, s.baleData b, (s.bale b).tag.toNat, s.storedCrc b) =
      (s.wrStore f (d.dst + d.done - storeAddr f 0) (s.baleData b)).modDma f c d.seq
        fun x => { x with done := x.done + 4096, again := false } := by
  obtain ⟨hcrc, htag⟩ := hgood
  rw [hb] at hcrc htag
  have hright := (storedCrc_right_iff s b).mpr hcrc
  simp only [State.takeBale, hb, ne_eq, not_true_eq_false, if_false]
  rw [if_pos ⟨hright, htag⟩]

theorem takeBale_wrong {b : Nat} (hb : baleOf (s.phys (d.src + d.done)) = b) (hwrong : ¬s.GoodBale d) :
    s.takeBale f c d (stOk, s.baleData b, (s.bale b).tag.toNat, s.storedCrc b) =
      if d.again then s.dmaViolation f c d stChecksumFault (d.src + d.done)
      else s.modDma f c d.seq fun x => { x with again := true } := by
  have hno : ¬(baleCrc (s.baleData b) (s.bale b).tag.toNat b = s.storedCrc b ∧ (d.tag = 0 ∨ d.tag = (s.bale b).tag.toNat)) := by
    rw [storedCrc_right_iff]
    subst hb
    exact hwrong
  simp only [State.takeBale, hb, ne_eq, not_true_eq_false, if_false]
  rw [if_neg hno]

theorem takeBale_failed (x : List Byte × Nat × Nat) : s.takeBale f c d (stChecksumFault, x) = s.dmaFail f c d stChecksumFault := by
  obtain ⟨bs, tag, crc⟩ := x
  rw [State.takeBale]
  exact if_pos (by decide)

/-- The descriptor ends with CHECKSUM_FAULT, with an entry in its flock's log or without one. -/
def EndsWithChecksumFault (s : State) (f c : Nat) (d : Dma) (t : State) : Prop :=
  KeepsMemory s t ∧ t.halted f c = true ∧ (∀ x ∈ (t.core f c).dma, x.seq ≠ d.seq) ∧
    (bit (s.reg .flkCoreFault f c) 63 = false → (s.core f c).dma.length ≤ 16 → (s.core f c).pc < 2 ^ 20 →
      bits (t.reg .flkCoreFault f c) 59 56 = 5 ∧ bits (t.reg .flkCoreFault f c) 55 52 = stChecksumFault)

theorem dmaFail_keepsMemory (s : State) (hop : d.op ≠ 0x08 ∧ d.op ≠ 0x09) (st : Nat) : KeepsMemory s (s.dmaFail f c d st) := by
  rw [dmaFail_eq, State.beforeDmaFault, dmaOutcome_local hop]
  exact ((dropDma_keepsMemory ..).trans (modCore_keepsMemory ..)).trans (coreFault_keepsMemory ..)

theorem dmaFail_endsWithChecksumFault (s : State) (hc : c < 120) (hop : d.op = 0x02) :
    EndsWithChecksumFault s f c d (s.dmaFail f c d stChecksumFault) := by
  refine ⟨dmaFail_keepsMemory s (by rw [hop]; decide) _, dmaFail_halted _ hc, fun x hx => ?_, fun hfirst hlen hpc => ?_⟩
  · rw [core_dmaFail] at hx
    exact bne_iff_ne.mp (List.mem_filter.mp (List.mem_filter.mp hx).1).2
  · obtain ⟨-, -, hbits⟩ := dmaFail_fails (d := d) (st := stChecksumFault) hc (by decide) hlen hpc
    obtain ⟨hcls, hst, -⟩ := hbits hfirst
    exact ⟨hcls, hst⟩

theorem EndsWithChecksumFault.of_kept {s t u : State} (hkeeps : KeepsMemory s t) (hcores : t.cores = s.cores)
    (hreg : t.reg .flkCoreFault f c = s.reg .flkCoreFault f c) (h : EndsWithChecksumFault t f c d u) : EndsWithChecksumFault s f c d u := by
  obtain ⟨hmem, hhalt, hgone, hbits⟩ := h
  rw [hreg, core_congr hcores] at hbits
  exact ⟨hkeeps.trans hmem, hhalt, hgone, hbits⟩

theorem coreFault_addr_notMem_flkLog (hc : c < 120) : Reg.flkCoreFault.addr f c ∉
    ({Reg.flkFaultInfo.addr f 0, Reg.flkFaultAddr.addr f 0, Reg.drvEvtStatus.addr 0 0} : Set Nat) := by
  simp [Reg.addr, Reg.row, Block.base]
  omega

theorem dmaViolation_endsWithChecksumFault (s : State) (hc : c < 120) (hop : d.op = 0x02) (a : Nat) :
    EndsWithChecksumFault s f c d (s.dmaViolation f c d stChecksumFault a) := by
  have hlog := flkLog_logOnly s f a stChecksumFault (if d.op = 0x02 ∨ d.op = 0x03 then 0x1 else 0x2) (coreId f c)
  exact .of_kept hlog.keepsMemory hlog.cores ((log_outside ..).reg _ _ _ (coreFault_addr_notMem_flkLog hc))
    (dmaFail_endsWithChecksumFault _ hc hop)

/-! ### The registers of a stack that a bale read changes -/

/-- The counters and the log of stack `i`, and the count of dropped events. -/
def bankRegs (i : Nat) : Set Nat :=
  {Reg.stkEcc.addr i 0, Reg.stkFaultInfo.addr i 0, Reg.stkFaultAddr.addr i 0, Reg.drvEvtStatus.addr 0 0}

theorem stkLog_outside (s : State) (i addr status source type core : Nat) :
    RegsOutside (bankRegs i) s (s.stkLog i addr status source type core) :=
  (log_outside ..).mono (Set.subset_insert ..)

theorem corrected_outside (s : State) (i n : Nat) : RegsOutside (bankRegs i) s (s.corrected i n) :=
  .ite (.refl s) (setReg_outside (.inl rfl) ..)

theorem uncorrected_outside (s : State) (i a n source type core : Nat) : RegsOutside (bankRegs i) s (s.uncorrected i a n source type core) :=
  (setReg_outside (.inl rfl) ..).trans (stkLog_outside ..)

theorem readBale_outside {source core a : Nat} (hopen : s.stkOpen (s.stackOf a) = true) :
    RegsOutside (bankRegs (s.stackOf a)) s (s.readBale source core a).1 := by
  unfold State.readBale
  simp only [hopen, Bool.not_true, Bool.false_eq_true, if_false]
  split
  · exact corrected_outside ..
  · exact (corrected_outside ..).trans (uncorrected_outside ..)

theorem coreFault_addr_notMem_bankRegs (hc : c < 120) (i : Nat) : Reg.flkCoreFault.addr f c ∉ bankRegs i := by
  simp [bankRegs, Reg.addr, Reg.row, Block.base]
  omega

theorem coreFault_baleRead (h : ReadsBale s f c n d) : (s.baleRead f c d errs).1.reg .flkCoreFault f c = s.reg .flkCoreFault f c :=
  ((readBale_outside (h.opened errs)).reg _ _ _ (coreFault_addr_notMem_bankRegs h.runs.core _)).trans
    (reg_congr (eccs_regs ..) ..)

end

/-- Settles O27: the bale is read as `tryReadBale` reads at a stack at rest, and each of its four outcomes is one equation. -/
theorem baleReadChecksCrcAndTag : Obligations.BaleReadChecksCrcAndTag := by
  unfold Obligations.BaleReadChecksCrcAndTag
  intro s f c n d errs hf hc
  dsimp only
  intro hdma hstarted hop hmore hwhole _ hplain
  have h : ReadsBale s f c n d := ⟨⟨hf, hc, hdma, hstarted⟩, hop, hmore, hwhole, hplain⟩
  obtain ⟨hmem, hcores, hinter⟩ := baleRead_spec s f c d errs
  have hsame : s.SameContent (s.baleRead f c d errs).1 := ⟨hmem.dram, hmem.bales⟩
  have hphys : (s.baleRead f c d errs).1.phys = s.phys := by unfold State.phys; rw [hinter]
  have hbale : baleOf ((s.baleRead f c d errs).1.phys (d.src + d.done)) = baleOf (s.phys (d.src + d.done)) := by rw [hphys]
  have hgoodIff : (s.baleRead f c d errs).1.GoodBale d ↔ s.GoodBale d := by
    simp only [State.GoodBale, hphys, hsame.bale]
  have hdmas : ((s.baleRead f c d errs).1.core f c).dma = (s.core f c).dma := by rw [core_congr hcores]
  have hreg := coreFault_baleRead (errs := errs) h
  rw [exec_baleReadComplete h]
  refine ⟨fun hclean hgood => ?_, fun hclean hwrong hagain => ?_, fun hends => ?_⟩
  · rw [baleRead_good h hclean, ← hsame.baleData, ← hsame.bale, ← hsame.storedCrc, takeBale_good hbale (hgoodIff.mpr hgood)]
    generalize (s.baleRead f c d errs).1 = t at *
    have hlen : (t.baleData (baleOf (s.phys (d.src + d.done)))).length = 4096 := Sparse.readBytes_length ..
    generalize t.baleData (baleOf (s.phys (d.src + d.done))) = bs at hlen
    refine ⟨_, rfl, ⟨hmem.dram, hmem.bales, hmem.scratch⟩, ?_, ?_, fun x hx => ?_⟩
    · rw [marks_modDma, wrStore_keepsDma, hdmas]
    · have hread := rdStore_wrStore t f (d.dst + d.done - storeAddr f 0) bs
      rw [hlen] at hread
      exact hread
    · refine (Sparse.get_writeBytes_outside (by rw [hlen]; exact hx)).trans ?_
      rw [hmem.store]
  · rw [baleRead_good h hclean, ← hsame.baleData, ← hsame.bale, ← hsame.storedCrc,
      takeBale_wrong hbale (mt hgoodIff.mp hwrong), if_neg (Bool.eq_false_iff.mp hagain)]
    refine ⟨_, rfl, ⟨hmem.dram, hmem.bales, hmem.scratch⟩, ?_, hmem.store⟩
    rw [marks_modDma, hdmas]
  · have hend : EndsWithChecksumFault s f c d ((s.baleRead f c d errs).1.takeBale f c d (s.baleRead f c d errs).2) := by
      by_cases hclean : sectorsIn (s.eccs (d.src + d.done) 128 errs).bad (baleOf (s.phys (d.src + d.done))) = []
      · obtain hbad | ⟨hwrong, hagain⟩ := hends
        · exact absurd hclean hbad
        · rw [baleRead_good h hclean, ← hsame.baleData, ← hsame.bale, ← hsame.storedCrc,
            takeBale_wrong hbale (mt hgoodIff.mp hwrong), if_pos hagain]
          exact .of_kept hmem hcores hreg (dmaViolation_endsWithChecksumFault _ hc hop _)
      · rw [baleRead_bad h hclean, takeBale_failed]
        exact .of_kept hmem hcores hreg (dmaFail_endsWithChecksumFault _ hc hop)
    obtain ⟨hkeeps, hhalt, hgone, hbits⟩ := hend
    exact ⟨_, rfl, ⟨hkeeps.dram, hkeeps.bales, hkeeps.scratch⟩, hhalt, hgone, hkeeps.store, hbits⟩

end Sys2Proof.Machine

/-! SUPPORT. Descriptors in a peat unit: which one a command names, and what replaces it (O28 to O31). -/

namespace Sys2Proof.Machine

section
variable {s : State} {f c n : Nat} {d : Dma} {j : PeatJob}

/-- Descriptor `n` of a core is a started peat descriptor. -/
structure NamesPeat (s : State) (f c n : Nat) (d : Dma) : Prop where
  flock : f < 672
  core  : c < 120
  dma   : s.peatDma f c n = some d

/-- It has been admitted as `j`. -/
structure NamesJob (s : State) (f c n : Nat) (d : Dma) (j : PeatJob) : Prop extends NamesPeat s f c n d where
  job     : s.job f c d.seq = some j
  jobF    : j.f = f
  jobC    : j.c = c
  jobSeq  : j.seq = d.seq

theorem onJob_next {k : PeatJob → State → State} (h : NamesJob s f c n d j) : onJob f c n s k = .next (k j s) := by
  unfold onJob
  rw [onCore_next h.flock h.core]
  simp only [h.dma, h.job]

theorem onPeatOp_next {op : Nat} {k : PeatJob → State → State} (h : NamesJob s f c n d j) (hop : pkOp j.raw = op) (hok : j.status = stOk) :
    onPeatOp op f c n s k = .next (k j s) := by
  unfold onPeatOp
  rw [onJob_next h, if_pos ⟨hop, hok⟩]

theorem PeatJob.is_self (j : PeatJob) : j.is j.f j.c j.seq = true := by simp [PeatJob.is]

/-- A descriptor's place in a list takes its new state. -/
theorem find?_map_replace {js : List PeatJob} {p : PeatJob → Bool} {j j' : PeatJob} (h : js.find? p = some j) (hp : p j' = true) :
    (js.map fun x => if p x then j' else x).find? p = some j' := by
  induction js with
  | nil => cases h
  | cons x xs ih =>
    rw [List.map_cons]
    cases hx : p x with
    | true => rw [if_pos rfl, List.find?_cons_of_pos hp]
    | false =>
      have hx' : ¬p x = true := by simp [hx]
      rw [if_neg Bool.false_ne_true, List.find?_cons_of_neg hx']
      rw [List.find?_cons_of_neg hx'] at h
      exact ih h

/-- A replaced descriptor is found again. -/
theorem job_putJob {seq : Nat} {j j' : PeatJob} (h : s.job f c seq = some j) (hf : j'.f = f) (hc : j'.c = c) (hseq : j'.seq = seq) :
    (s.putJob j').job f c seq = some j' := by
  subst hf hc hseq
  exact find?_map_replace h (PeatJob.is_self j')

theorem putJob_eq (s : State) (j : PeatJob) : s.putJob j = { s with peat := (s.putJob j).peat } := rfl

/-- Where the peat entries are as before, so is the descriptor that a core's push number names. -/
theorem job_congr {t : State} (h : t.peat = s.peat) (f c seq : Nat) : t.job f c seq = s.job f c seq := by
  rw [State.job, h, State.job]

end

end Sys2Proof.Machine

/-! SUPPORT. Lookups of the peat units (R335 to R338; O29). -/

namespace Sys2Proof.Machine

section
variable {s : State} {f c n : Nat} {d : Dma} {j : PeatJob}

/-- No position failed. -/
theorem firstFail_none (h : ∀ x ∈ j.got, x.2.1 = stOk) : j.firstFail = none := by
  unfold PeatJob.firstFail
  exact List.foldlRecOn (motive := fun m : Option (Nat × Nat) => m = none) _ _ rfl fun m hm x hx => by rw [if_pos (h x hx), hm]

/-- The output of a lookup. -/
def State.lookupOut (s : State) (j : PeatJob) : List Byte := ((List.range (outRows j.raw)).map fun r => s.outRow j r).flatten

/-- Every row of a lookup has come back with OK. -/
structure RowsBack (j : PeatJob) : Prop where
  status : j.status = stOk
  formed : j.formed = false
  all    : pkCount j.raw ≤ j.got.length
  ok     : ∀ x ∈ j.got, x.2.1 = stOk

theorem formLookup_forms (h : RowsBack j) : s.formLookup j = s.putJob { j with formed := true, out := s.lookupOut j } := by
  unfold State.formLookup
  rw [h.formed, Bool.false_or, if_neg (by simpa using h.all)]
  simp only [firstFail_none h.ok]
  rfl

/-- The descriptor's output is formed, and nothing else changes. -/
theorem putJob_formed (h : NamesJob s f c n d j) (out : List Byte) :
    (s.putJob { j with formed := true, out := out }).job f c d.seq = some { j with formed := true, out := out } :=
  job_putJob h.job h.jobF h.jobC h.jobSeq

/-- The positions of a segment, in list order. -/
def State.positions (s : State) (j : PeatJob) (r : Nat) : List Nat :=
  (List.range ((s.segment j r).2 - (s.segment j r).1)).map fun i => (s.segment j r).1 + i

theorem lookupOut_gather (hop : pkOp j.raw = 0x01) : s.lookupOut j = ((List.range (pkCount j.raw)).map fun r =>
    ((List.range (pkElems j.raw)).map fun e => outElem (pkOutFmt j.raw) (j.elem r e)).flatten).flatten := by
  have hrows : outRows j.raw = pkCount j.raw := by simp [outRows, pkPools, hop]
  simp only [State.lookupOut, hrows, State.outRow, hop, if_true]

theorem lookupOut_pools (hop : pkOp j.raw = 0x02 ∨ pkOp j.raw = 0x03) :
    s.lookupOut j = ((List.range (pkSegs j.raw)).map fun r => ((List.range (pkElems j.raw)).map fun e =>
      outElem (pkOutFmt j.raw) (s.pooled j (s.positions j r) e)).flatten).flatten := by
  have hrows : outRows j.raw = pkSegs j.raw := by
    obtain hop | hop := hop
    · simp [outRows, pkPools, hop]
    · simp [outRows, pkPools, hop]
  have hne : pkOp j.raw ≠ 0x01 := by
    obtain hop | hop := hop
    · rw [hop]; decide
    · rw [hop]; decide
  simp only [State.lookupOut, hrows, State.outRow, if_neg hne]
  rfl

theorem pooled_exact (hexact : pkExact j.raw = true) (ps : List Nat) (e : Nat) : s.pooled j ps e =
    (ps.foldl (fun y i => (y.contribute (exactPair j.raw) (s.weight j i) (j.elem i e) 0 false).1) Tally.empty).value := by
  rw [State.pooled, if_pos hexact]

theorem pooled_segsum (hop : pkOp j.raw = 0x02) (hexact : pkExact j.raw = false) (ps : List Nat) (e : Nat) : s.pooled j ps e =
    f32 (ps.foldl (fun a i => fAdd a (toF32 (j.elem i e))) 0) := by
  simp only [State.pooled, hexact, hop, Bool.false_eq_true, if_false, if_true]

theorem pooled_wpool (hop : pkOp j.raw = 0x03) (hexact : pkExact j.raw = false) (ps : List Nat) (e : Nat) : s.pooled j ps e =
    f32 (ps.foldl (fun a i => fFma (toF32 (s.weight j i)) (toF32 (j.elem i e)) a) 0) := by
  have hne : pkOp j.raw ≠ 0x02 := by rw [hop]; decide
  simp only [State.pooled, hexact, if_neg hne, Bool.false_eq_true, if_false]

theorem exec_gather (h : NamesJob s f c n d j) (hop : pkOp j.raw = 0x01) (hback : RowsBack j) :
    exec (.gather f c n) s = .next (s.putJob { j with formed := true, out := s.lookupOut j }) :=
  formLookup_forms (s := s) hback ▸ onPeatOp_next (k := fun j s => s.formLookup j) h hop hback.status

theorem exec_segsum (h : NamesJob s f c n d j) (hop : pkOp j.raw = 0x02) (hback : RowsBack j) :
    exec (.segsum f c n) s = .next (s.putJob { j with formed := true, out := s.lookupOut j }) :=
  formLookup_forms (s := s) hback ▸ onPeatOp_next (k := fun j s => s.formLookup j) h hop hback.status

theorem exec_wpool (h : NamesJob s f c n d j) (hop : pkOp j.raw = 0x03) (hback : RowsBack j) :
    exec (.wpool f c n) s = .next (s.putJob { j with formed := true, out := s.lookupOut j }) :=
  formLookup_forms (s := s) hback ▸ onPeatOp_next (k := fun j s => s.formLookup j) h hop hback.status

end

/-- Settles O29: each lookup forms `lookupOut`, whose elements are those of its operation. -/
theorem peatLookupsFormTheirOutput : Obligations.PeatLookupsFormTheirOutput := by
  unfold Obligations.PeatLookupsFormTheirOutput
  intro s f c n d j hf hc hdma hjob hjf hjc hjseq hok hformed hall hback
  have h : NamesJob s f c n d j := ⟨⟨hf, hc, hdma⟩, hjob, hjf, hjc, hjseq⟩
  have hrows : RowsBack j := ⟨hok, hformed, hall, hback⟩
  dsimp only
  refine ⟨fun hop => ?_, fun hop hexact => ?_, fun hop hexact => ?_, fun hop hexact => ?_, fun hop hexact => ?_⟩
  · rw [← lookupOut_gather (s := s) hop]
    exact ⟨_, exec_gather h hop hrows, putJob_formed h _, rfl⟩
  · simp only [← pooled_exact (s := s) hexact]
    rw [exec_segsum h hop hrows, lookupOut_pools (.inl hop)]
    exact ⟨_, rfl, putJob_formed h _, rfl⟩
  · simp only [← pooled_segsum (s := s) hop hexact]
    rw [exec_segsum h hop hrows, lookupOut_pools (.inl hop)]
    exact ⟨_, rfl, putJob_formed h _, rfl⟩
  · simp only [← pooled_exact (s := s) hexact]
    rw [exec_wpool h hop hrows, lookupOut_pools (.inr hop)]
    exact ⟨_, rfl, putJob_formed h _, rfl⟩
  · simp only [← pooled_wpool (s := s) hop hexact]
    rw [exec_wpool h hop hrows, lookupOut_pools (.inr hop)]
    exact ⟨_, rfl, putJob_formed h _, rfl⟩

end Sys2Proof.Machine

/-! SUPPORT. Optimizer updates (R340 to R345, Table 8.6; O30). -/

namespace Sys2Proof.Machine

section
variable {s : State} {f c n : Nat} {d : Dma} {j : PeatJob}

/-- What OPTUPD does with an admitted update. -/
def State.update (s : State) (j : PeatJob) : State :=
  if j.todo ≠ [] then s.writeNext j
  else if pkCount j.raw ≤ j.done then s
  else if pkDense j.raw then s.denseStart j
  else s.updateNext j

theorem exec_optupd (h : NamesJob s f c n d j) (hop : pkOp j.raw = 0x08) (hok : j.status = stOk) :
    exec (.optupd f c n) s = .next (s.update j) := onPeatOp_next (k := fun j s => s.update j) h hop hok

theorem update_over (htodo : j.todo = []) (hdone : pkCount j.raw ≤ j.done) : s.update j = s := by
  rw [State.update, if_neg (not_not.mpr htodo), if_pos hdone]

theorem update_sparse (htodo : j.todo = []) (hmore : j.done < pkCount j.raw) (hsparse : pkDense j.raw = false) :
    s.update j = s.updateNext j := by
  rw [State.update, if_neg (not_not.mpr htodo), if_neg (Nat.not_le.mpr hmore), if_neg (Bool.eq_false_iff.mp hsparse)]

/-- A DENSE update waits until every row can be reached. -/
theorem update_dense_waits (htodo : j.todo = []) (hmore : j.done < pkCount j.raw) (hdense : pkDense j.raw = true)
    (hwait : j.got.length < pkCount j.raw) : s.update j = s := by
  rw [State.update, if_neg (not_not.mpr htodo), if_neg (Nat.not_le.mpr hmore), if_pos hdense]
  exact if_pos hwait

/-! ### The next row of a sparse update -/

theorem updateNext_skips (hgot : (j.got.find? fun x => x.1 == j.done) = some (j.done, stOk, []))
    (hbad : (s.gradients j j.done).all f32Finite = false) :
    s.updateNext j = (s.skipRow (pkTable j.raw + s.pkRow j.f j.raw j.done * pkStride j.raw)).putJob { j with done := j.done + 1 } := by
  simp [State.updateNext, hgot, hbad]

/-- The descriptor with the writes of its next row formed from what was read of it. -/
def State.rowFormed (s : State) (j : PeatJob) (bss : List (List Byte)) : PeatJob :=
  let r := s.pkRow j.f j.raw j.done
  let a := pkTable j.raw + r * pkStride j.raw
  let ps := ((s.rowRanges j.f j.raw j.done).map (·.1)).zip bss
  let of (p : Nat × Nat) : List Byte := pick ps p.1 p.2
  { j with todo := bySectors (updateRow j.raw r (of (a, pkRowBytes j.raw)) (of (mRow j.raw r)) (of (vRow j.raw r)) (s.gradients j j.done)) }

theorem updateNext_forms {s1 s2 : State} {bss : List (List Byte)} (hgot : (j.got.find? fun x => x.1 == j.done) = some (j.done, stOk, []))
    (hfinite : (s.gradients j j.done).all f32Finite = true) (hfree : s.rowLocked j (s.rowRanges j.f j.raw j.done) = false)
    (hready : s.readsReady j true (s.rowRanges j.f j.raw j.done) = (s1, .go))
    (hread : s1.readMany j (s.rowRanges j.f j.raw j.done) = (s2, stOk, 0, bss)) :
    s.updateNext j = (s2.putJob (s.rowFormed j bss)).writeNext (s.rowFormed j bss) := by
  simp only [State.updateNext, hgot, hfinite, hfree, hready, hread, ne_eq, not_true_eq_false, if_false, Bool.not_true, Bool.false_eq_true]
  rfl

/-! ### The next write of a row -/

theorem writeNext_writes {w : UnitWrite} {rest : List UnitWrite} {s1 s2 : State} {m : Nat} (htodo : j.todo = w :: rest)
    (hready : s.prepWrites (j.reqAt 0) (if j.formed then [w] else w :: rest) = (s1, .go))
    (hwrite : s1.commitUnit (j.reqAt 0) w = (s2, stOk, m)) :
    s.writeNext j = if rest.isEmpty then
      if pkDense j.raw then s2.putJob { j with todo := [], formed := false, status := j.low }
      else s2.putJob { j with todo := [], formed := false, done := j.done + 1 }
      else s2.putJob { j with todo := rest, formed := true } := by
  have hready' : (if j.formed = true then s.prepWrites (j.reqAt 0) [w] else s.prepWrites (j.reqAt 0) (w :: rest)) = (s1, .go) := by
    rw [← hready]
    split
    · rfl
    · rfl
  unfold State.writeNext
  rw [htodo]
  simp only [hready', hwrite, ne_eq, not_true_eq_false, if_false]

theorem update_writes (htodo : j.todo ≠ []) : s.update j = s.writeNext j := if_pos htodo

end

/-! ### Table 8.6 -/

section
variable {d : List Byte} {p m v g : Nat}

theorem updateElem_sgd (h : pkAlg d = 1) :
    updateElem d p m v g = (fSub p (fMul (pkLr d) (fAdd g (fMul (pkWd d) p))), m, v) := by simp only [updateElem, h]

theorem updateElem_momentum (h : pkAlg d = 2) : updateElem d p m v g =
    (fSub p (fMul (pkLr d) (fAdd (fAdd (fMul (pkBeta1 d) m) g) (fMul (pkWd d) p))), fAdd (fMul (pkBeta1 d) m) g, v) := by
  simp only [updateElem, h]

/-- The new M and V of Adam. -/
def adamM (d : List Byte) (m g : Nat) : Nat := fAdd (fMul (pkBeta1 d) m) (fMul (fSub 0x3F800000 (pkBeta1 d)) g)
def adamV (d : List Byte) (v g : Nat) : Nat := fAdd (fMul (pkBeta2 d) v) (fMul (fSub 0x3F800000 (pkBeta2 d)) (fMul g g))

theorem updateElem_adam (h : pkAlg d = 3) : updateElem d p m v g =
    (fSub p (fMul (pkLr d) (fAdd (fDiv (fMul (adamM d m g) (pkC1 d)) (fAdd (fSqrt (fMul (adamV d v g) (pkC2 d))) (pkEps d)))
      (fMul (pkWd d) p))), adamM d m g, adamV d v g) := by
  simp only [updateElem, h]
  rfl

theorem updateElem_adagrad (h : pkAlg d = 4) :
    updateElem d p m v g = (fSub p (fMul (pkLr d) (fDiv g (fAdd (fSqrt v) (pkEps d)))), m, v) := by simp only [updateElem, h]

end

/-- Settles O30: each state of an update has one equation, and so has each ALG of Table 8.6. -/
theorem optupdUpdatesRows : Obligations.OptupdUpdatesRows := by
  unfold Obligations.OptupdUpdatesRows
  refine ⟨fun s f c n d j hf hc hdma hjob hjf hjc hjseq hok hop => ?_, fun d p m v g => ?_⟩
  · have h : NamesJob s f c n d j := ⟨⟨hf, hc, hdma⟩, hjob, hjf, hjc, hjseq⟩
    subst hjf
    dsimp only
    rw [exec_optupd h hop hok]
    refine ⟨fun htodo hdone => ?_, fun htodo hmore hsparse hgot => ⟨fun hbad => ?_, fun s1 s2 bss hfinite hfree hready hread => ?_⟩,
      fun htodo hmore hdense hwait => ?_, fun w rest s1 s2 m htodo hready hwrite => ⟨fun hrest => ?_, fun hrest => ?_⟩⟩
    · rw [update_over htodo hdone]
    · rw [update_sparse htodo hmore hsparse, updateNext_skips hgot hbad]
      exact ⟨_, rfl, job_putJob h.job rfl h.jobC h.jobSeq, rfl, State.fld_incFld_same _ _ _ _ (by decide)⟩
    · rw [update_sparse htodo hmore hsparse, updateNext_forms hgot hfinite hfree hready hread]
      rfl
    · rw [update_dense_waits htodo hmore hdense hwait]
    · rw [update_writes (by rw [htodo]; exact List.cons_ne_nil _ _), writeNext_writes htodo hready hwrite,
        if_neg (by simpa using hrest)]
    · rw [update_writes (by rw [htodo]; exact List.cons_ne_nil _ _), writeNext_writes htodo hready hwrite,
        if_pos (by simpa using hrest)]
      exact congrArg Host.Outcome.next (apply_ite s2.putJob _ _ _).symm
  · dsimp only
    exact ⟨updateElem_sgd, fun halg => ⟨_, rfl, updateElem_momentum halg⟩, fun halg => ⟨_, _, rfl, rfl, updateElem_adam halg⟩,
      updateElem_adagrad⟩

end Sys2Proof.Machine

/-! SUPPORT. Kindling accesses (R346 to R350; O31). -/

namespace Sys2Proof.Machine

section
variable {s : State} {f c n : Nat} {d : Dma} {j : PeatJob} {st : Nat} {res : List Byte}

/-! ### The end of an access -/

/-- A descriptor once access `i` of address `a` has ended (R350). -/
def PeatJob.accessed (j : PeatJob) (i st a : Nat) : PeatJob :=
  let first := st ≠ stOk ∧ (j.formed = false ∨ i < j.low)
  { j with
    done := j.done + 1, got := j.got.filter fun x => x.1 != i,
    formed := j.formed || st != stOk, low := if first then i else j.low,
    sent := if first then st else j.sent, addr := if first then a else j.addr,
    status := if st = stTargetReset then stTargetReset else j.status }

/-- What the end of an access writes: the log, the status byte and the result slot. -/
def State.accessWrites (s : State) (j : PeatJob) (i st : Nat) (res : List Byte) : State :=
  let s := if st = stOk then s else s.peatLog j.f j.c (pkOp j.raw) st 0 (s.pkAddr j.f j.raw i)
  let s := s.wrStore j.f (pkSegOff j.raw + i) (leBytes 1 st)
  if pkOp j.raw = 0x11 then s
  else s.wrStore j.f (pkDestOff j.raw + i * pkStride j.raw) (if st = stOk then res else List.replicate (pkStride j.raw) 0)

theorem kindled_eq (s : State) (j : PeatJob) (i st : Nat) (res : List Byte) :
    s.kindled j i st res = (s.accessWrites j i st res).putJob (j.accessed i st (s.pkAddr j.f j.raw i)) := rfl

theorem accessWrites_peat (s : State) (j : PeatJob) (i st : Nat) (res : List Byte) : (s.accessWrites j i st res).peat = s.peat := by
  have hlog : (if st = stOk then s else s.peatLog j.f j.c (pkOp j.raw) st 0 (s.pkAddr j.f j.raw i)).peat = s.peat := by
    split
    · rfl
    · exact (peatLog_logOnly ..).peat
  unfold State.accessWrites
  dsimp only
  split
  · exact hlog
  · exact hlog

theorem job_kindled {seq i : Nat} (hjob : s.job f c seq = some j) (hf : j.f = f) (hc : j.c = c) (hseq : j.seq = seq) :
    (s.kindled j i st res).job f c seq = some (j.accessed i st (s.pkAddr j.f j.raw i)) := by
  rw [kindled_eq]
  exact job_putJob ((job_congr (accessWrites_peat ..) ..).trans hjob) hf hc hseq

/-! ### A descriptor of one access -/

/-- Its access waits for no other descriptor, and none but it is left. -/
structure OneAccess (j : PeatJob) : Prop where
  status : j.status = stOk
  count  : pkCount j.raw = 1
  asked  : j.asked = 1
  got    : j.got = [(0, stOk, [])]
  done   : j.done = 0

theorem OneAccess.none_bad (h : OneAccess j) (s : State) :
    lowest (pkCount j.raw) (fun i => !bit j.asked i && s.kindleBad j i != stOk) = none := by
  rw [h.count, h.asked]
  rfl

theorem accessed_ok (h : OneAccess j) (a : Nat) : j.accessed 0 stOk a = { j with done := 1, got := [] } := by
  simp [PeatJob.accessed, h.done, h.got, stOk, stTargetReset]

/-- A descriptor with no access left makes none. -/
theorem kindleAll_over {seq m a : Nat} (h : OneAccess j) (hjob : s.job f c seq = some (j.accessed 0 st a)) :
    s.kindleAll f c seq m = s := by
  cases m with
  | zero => rfl
  | succ m =>
    unfold State.kindleAll
    rw [hjob]
    dsimp only
    split
    · rfl
    · have hnone : lowest (pkCount (j.accessed 0 st a).raw)
          (fun i => !bit (j.accessed 0 st a).asked i && s.kindleBad (j.accessed 0 st a) i != stOk) = none := by
        show lowest (pkCount j.raw) (fun i => !bit j.asked i && s.kindleBad (j.accessed 0 st a) i != stOk) = none
        rw [h.count, h.asked]
        rfl
      have hgot : (j.accessed 0 st a).got = [] := by simp [PeatJob.accessed, h.got]
      rw [hnone]
      dsimp only
      rw [hgot]

theorem kindle_memOnly (s : State) (j : PeatJob) (i : Nat) : MemOnly s (s.kindle j i).1 := by
  unfold State.kindle
  dsimp only
  split
  · exact .refl s
  · split
    · exact tryRead_memOnly ..
    · have hwrite := tryWrite_memOnly s (j.reqAt (s.pkAddr j.f j.raw i)) (s.rdStore j.f (pkWgtOff j.raw + i * pkStride j.raw) (pkStride j.raw))
      split
      · next heq => rw [heq] at hwrite; exact hwrite
      · next heq => rw [heq] at hwrite; exact hwrite
    · exact tryRmw_memOnly ..

/-- The one access of a descriptor is made once it can be. -/
theorem kindleAll_one (h : OneAccess j) (hjob : s.job f c j.seq = some j) (hf : j.f = f) (hc : j.c = c)
    (hmade : (s.kindle j 0).2 = some (st, res)) :
    s.kindleAll f c j.seq (pkCount j.raw + 1) = (s.kindle j 0).1.kindled j 0 st res := by
  have hjob' : (s.kindle j 0).1.job f c j.seq = some j := (job_congr (kindle_memOnly s j 0).peat ..).trans hjob
  have hkindle : s.kindle j 0 = ((s.kindle j 0).1, some (st, res)) := by rw [← hmade]
  unfold State.kindleAll
  rw [hjob]
  dsimp only
  rw [if_neg (not_not.mpr h.status), h.none_bad]
  dsimp only
  rw [h.got]
  dsimp only
  rw [if_neg (not_not.mpr rfl), hkindle]
  exact kindleAll_over h (job_kindled hjob' hf hc rfl)

/-- A command of a descriptor of one access makes it. -/
theorem access_made {i : Instr} (h : NamesJob s f c n d j) (hone : OneAccess j)
    (hexec : exec i s = .next (s.kindleAll f c j.seq (pkCount j.raw + 1))) (hmade : (s.kindle j 0).2 = some (st, res)) :
    ∃ t, exec i s = .next t ∧ t = (s.kindle j 0).1.kindled j 0 st res ∧
      (st = stOk → (s.kindle j 0).1.job f c d.seq = some j → t.job f c d.seq = some { j with done := 1, got := [] }) := by
  have hjob : s.job f c j.seq = some j := h.jobSeq ▸ h.job
  rw [kindleAll_one hone hjob h.jobF h.jobC hmade] at hexec
  refine ⟨_, hexec, rfl, fun hok hjob' => ?_⟩
  subst hok
  rw [job_kindled hjob' h.jobF h.jobC h.jobSeq, accessed_ok hone]

/-! ### The three operations -/

variable (hfree : s.rowLocked j [(s.pkAddr j.f j.raw 0, pkStride j.raw)] = false)
include hfree

theorem kindle_kread (hop : pkOp j.raw = 0x10) : s.kindle j 0 = s.tryRead (j.reqAt (s.pkAddr j.f j.raw 0)) (pkStride j.raw) := by
  simp only [State.kindle, hfree, hop, Bool.false_eq_true, if_false]

theorem kindle_kwrite (hop : pkOp j.raw = 0x11) : ((s.kindle j 0).1, (s.kindle j 0).2.map Prod.fst) =
    s.tryWrite (j.reqAt (s.pkAddr j.f j.raw 0)) (s.rdStore j.f (pkWgtOff j.raw) (pkStride j.raw)) := by
  simp only [State.kindle, hfree, hop, Bool.false_eq_true, if_false, Nat.zero_mul, Nat.add_zero]
  split
  · next heq => rw [heq]; rfl
  · next heq => rw [heq]; rfl

theorem kindle_kadd (hop : pkOp j.raw = 0x12) : s.kindle j 0 =
    s.tryRmw (j.reqAt (s.pkAddr j.f j.raw 0)) 0 (ofLE (s.rdStore j.f (pkWgtOff j.raw) (pkStride j.raw))) 0 := by
  simp only [State.kindle, hfree, hop, Bool.false_eq_true, if_false, Nat.zero_mul, Nat.add_zero]

end

/-- The status byte and the result slot of an access that ended with OK. -/
theorem kindled_read {s : State} {j : PeatJob} {res : List Byte} (hop : pkOp j.raw ≠ 0x11)
    (hapart : pkSegOff j.raw + 1 ≤ pkDestOff j.raw ∨ pkDestOff j.raw + res.length ≤ pkSegOff j.raw) :
    (s.kindled j 0 stOk res).rdStore j.f (pkSegOff j.raw) 1 = [0] ∧
      (s.kindled j 0 stOk res).rdStore j.f (pkDestOff j.raw) res.length = res := by
  have hstore : (s.kindled j 0 stOk res).store = Sparse.writeBytes (Sparse.writeBytes s.store (j.f * storeSize + pkSegOff j.raw) [0])
      (j.f * storeSize + pkDestOff j.raw) res := by
    rw [kindled_eq]
    simp only [State.accessWrites, if_neg hop, Nat.zero_mul, Nat.add_zero]
    rfl
  unfold State.rdStore
  rw [hstore]
  refine ⟨(Sparse.readBytes_writeBytes_apart (by omega)).trans (Sparse.readBytes_writeBytes s.store _ [0]), Sparse.readBytes_writeBytes ..⟩

/-- Settles O31: the three commands make their one access by `kindleAll_one`, and `kindled` writes what it brought. -/
theorem kindlingAccessesMemory : Obligations.KindlingAccessesMemory := by
  unfold Obligations.KindlingAccessesMemory
  intro s f c n st d j res hf hc hdma hjob hjf hjc hjseq hok hcount hasked hgot hdone
  have h : NamesJob s f c n d j := ⟨⟨hf, hc, hdma⟩, hjob, hjf, hjc, hjseq⟩
  have hone : OneAccess j := ⟨hok, hcount, hasked, hgot, hdone⟩
  subst hjf
  dsimp only
  intro hfree
  refine ⟨fun hop => ⟨kindle_kread hfree hop, access_made h hone ?_⟩, fun hop => ⟨kindle_kwrite hfree hop, access_made h hone ?_⟩,
    fun hop => ⟨kindle_kadd hfree hop, access_made h hone ?_⟩, fun hst hop hlen hapart => ?_⟩
  · exact onPeatOp_next (k := fun k s => s.kindleAll j.f c k.seq (pkCount k.raw + 1)) h hop hok
  · exact onPeatOp_next (k := fun k s => s.kindleAll j.f c k.seq (pkCount k.raw + 1)) h hop hok
  · exact onPeatOp_next (k := fun k s => s.kindleAll j.f c k.seq (pkCount k.raw + 1)) h hop hok
  · subst hst
    exact kindled_read hop hapart

end Sys2Proof.Machine

/-! SUPPORT. Admission, serving, delivery and completion of peat descriptors (R162, R326 to R332, R339, R350, R354, R356, R361; O28). -/

namespace Sys2Proof.Machine

/-! ### Admission (R327, R328, R332) -/

section
variable {s : State} {f c n : Nat} {d : Dma}

/-- The bytes of a forwarded descriptor. -/
def State.peatRaw (s : State) (f : Nat) (d : Dma) : List Byte := s.rdStore f (d.src - storeAddr f 0) d.len

/-- A descriptor as it enters its peat unit. -/
def admitted (f c : Nat) (d : Dma) (raw : List Byte) (pool : Bool) : PeatJob :=
  { f := f, c := c, seq := d.seq, raw := raw, pool := pool, asked := 0, got := [], done := 0, todo := [], formed := false,
    out := [], sent := 0, again := false, status := stOk, addr := d.src, low := 0 }

/-- The peat unit of a forwarded descriptor takes descriptors. -/
structure Forwarded (s : State) (f c n : Nat) (d : Dma) : Prop extends NamesPeat s f c n d where
  new   : s.job f c d.seq = none
  up    : s.flockQuiet f = false
  ready : s.stkReady (f / 56) = true
  takes : s.peatHeld (f / 56) = false

theorem exec_admit (h : Forwarded s f c n d) : exec (.peatDescriptorAdmit f c n) s = .next (
    match s.peatEntry f with
    | none => s
    | some pool => match s.peatCheck f (d.src - storeAddr f 0) d.len (s.peatRaw f d) with
      | some (st, a) => (s.peatLog f c (leAt (s.peatRaw f d) 0 1) st 0 a).dmaFail f c d st
      | none => { s with peat := s.peat ++ [admitted f c d (s.peatRaw f d) pool] }) := by
  show execPeatDescriptorAdmit f c n s = _
  unfold execPeatDescriptorAdmit
  rw [onCore_next h.flock h.core]
  simp only [h.dma, h.new, h.up, h.ready, h.takes, Option.isSome_none, Bool.or_self, Bool.not_true, Bool.false_eq_true, if_false]
  rfl

end

/-! ### Serving units (R326, R329) -/

section
variable {s : State} {stack : Nat} {j : PeatJob} {pos : Nat}

theorem serveUnit_setServe (s : State) (i : Nat) (u : PeatServe) : (s.setServe i u).serveUnit i = u := Sparse.get_set_same

/-- The serving unit's next request in its round of the executing units. -/
theorem exec_rowRequest (hstack : stack < 12)
    (hask : s.firstAsk (((s.serveUnit stack).last + 1) % 12) stack = some (j, pos)) (hready : s.stkReady stack = true) :
    exec (.peatRowRequest stack) s = .next ((s.putJob { j with asked := setBit j.asked pos true }).setServe stack
      { last := ((s.serveUnit stack).last + 1) % 12,
        asks := (s.serveUnit stack).asks ++ [{ f := j.f, c := j.c, seq := j.seq, pos := pos }] }) := by
  show execPeatRowRequest stack s = _
  unfold execPeatRowRequest
  rw [inRange_next hstack]
  have hfirst : ((List.range 12).findSome? fun k =>
      (s.firstAsk (((s.serveUnit stack).last + 1 + k) % 12) stack).map fun x => ((((s.serveUnit stack).last + 1 + k) % 12), x)) =
        some (((s.serveUnit stack).last + 1) % 12, j, pos) := by
    have hrange : List.range 12 = 0 :: (List.range 11).map (· + 1) := by decide
    rw [hrange, List.findSome?_cons, Nat.add_zero, hask]
    rfl
  dsimp only
  rw [hfirst]
  simp only [hready, if_true]

/-- The oldest request of a serving unit, and the state in which it is carried to its row. -/
structure Serves (s : State) (stack : Nat) (q : PeatAsk) (rest : List PeatAsk) (j : PeatJob) : Prop where
  unit  : stack < 12
  asks  : (s.serveUnit stack).asks = q :: rest
  job   : s.job q.f q.c q.seq = some j

/-- The address and bytes of the row of a request. -/
def State.askAddr (s : State) (j : PeatJob) (q : PeatAsk) : Nat := s.pkAddr j.f j.raw q.pos
def PeatJob.askSize (j : PeatJob) : Nat := if pkKindling j.raw then pkStride j.raw else pkRowBytes j.raw

/-- The state in which a request meets its row, after the findings of the ECC. -/
def State.atRow (s : State) (j : PeatJob) (q : PeatAsk) (errs : Errs) : State :=
  s.eccs (s.askAddr j q) ((s.askAddr j q % 32 + j.askSize + 31) / 32) errs

/-- A request goes back to its descriptor with a status and the bytes of its row. -/
def State.rowBack (s t : State) (stack : Nat) (q : PeatAsk) (rest : List PeatAsk) (j : PeatJob) (st : Nat) (bs : List Byte) : State :=
  (t.putJob { j with got := j.got ++ [(q.pos, st, bs)] }).setServe stack { s.serveUnit stack with asks := rest }

variable {q : PeatAsk} {rest : List PeatAsk} {errs : Errs}

theorem exec_rowData_lookup {v : State} {st : Nat} {bs : List Byte} (h : Serves s stack q rest j) (hlookup : pkLookup j.raw = true)
    (hfree : (s.atRow j q errs).rowLocked j [(s.askAddr j q, j.askSize)] = false)
    (hread : (s.atRow j q errs).tryRead (j.reqAt (s.askAddr j q)) j.askSize = (v, some (st, bs))) :
    exec (.peatRowData stack errs) s = .next (s.rowBack v stack q rest j st bs) := by
  unfold State.atRow State.askAddr PeatJob.askSize at hfree hread
  show execPeatRowData stack errs s = _
  unfold execPeatRowData
  rw [inRange_next h.unit]
  simp only [h.asks, h.job, hlookup, if_true, hfree, Bool.false_eq_true, if_false, hread]
  rfl

theorem exec_rowData_reached (h : Serves s stack q rest j) (hother : pkLookup j.raw = false) (hopen : s.stkOpen stack = true) :
    exec (.peatRowData stack errs) s = .next (s.rowBack (s.atRow j q errs) stack q rest j stOk []) := by
  have hopen' : (s.atRow j q errs).stkOpen stack = true := by
    have hecc := eccs_eccOnly s (s.askAddr j q) ((s.askAddr j q % 32 + j.askSize + 31) / 32) errs
    rw [State.atRow, ← hopen]
    simp only [State.stkOpen, State.stkReady, State.initBusy, State.rbit, State.reg, hecc.regs, hecc.reads.rst]
  unfold State.atRow State.askAddr PeatJob.askSize at hopen'
  show execPeatRowData stack errs s = _
  unfold execPeatRowData
  rw [inRange_next h.unit]
  simp only [h.asks, h.job, hother, hopen', if_true, Bool.false_eq_true, if_false]
  rfl

theorem rowBack_spec (s v : State) (stack : Nat) (q : PeatAsk) (rest : List PeatAsk) (j : PeatJob) (st : Nat) (bs : List Byte) :
    let t := s.rowBack v stack q rest j st bs
    (t.serveUnit stack).asks = rest ∧
      t.peat = v.peat.map fun x => if x.is j.f j.c j.seq then { j with got := j.got ++ [(q.pos, st, bs)] } else x :=
  ⟨congrArg PeatServe.asks (serveUnit_setServe ..), rfl⟩

end

/-! ### Delivery (R339) -/

section
variable {s : State} {f c n : Nat} {d : Dma} {j : PeatJob} {damage : List (Nat × Byte)}

theorem damaged_length (bs : List Byte) (xs : List (Nat × Byte)) : (damaged bs xs).length = bs.length := by
  unfold damaged
  refine List.foldlRecOn (motive := fun ys : List Byte => ys.length = bs.length) _ _ rfl fun ys h x _ => ?_
  split
  · rw [List.length_set, h]
  · exact h

theorem ofLE_leBytes (n v : Nat) : ofLE (leBytes n v) = v % 256 ^ n := by
  induction n generalizing v with
  | zero => simp [leBytes, ofLE, Nat.mod_one]
  | succ n ih =>
    have hbyte : (BitVec.ofNat 8 v).toNat = v % 256 := BitVec.toNat_ofNat ..
    rw [leBytes, ofLE, ih, hbyte, Nat.pow_succ, Nat.mul_comm (256 ^ n), Nat.mod_mul]

/-- The next block of a descriptor's output, and what arrives of it with its CRC. -/
def PeatJob.block (j : PeatJob) : List Byte := (j.out.drop j.sent).take 4096
def PeatJob.arrives (j : PeatJob) (damage : List (Nat × Byte)) : List Byte :=
  damaged (j.block ++ leBytes 4 (blockCrc j.block (pkOutTag j.raw))) damage

/-- The CRC over what arrived and OUT_TAG is the one that came with it. -/
abbrev PeatJob.ArrivesWhole (j : PeatJob) (damage : List (Nat × Byte)) : Prop :=
  blockCrc ((j.arrives damage).take j.block.length) (pkOutTag j.raw) = ofLE ((j.arrives damage).drop j.block.length)

theorem arrives_take_length (j : PeatJob) (damage : List (Nat × Byte)) :
    ((j.arrives damage).take j.block.length).length = j.block.length := by
  rw [List.length_take, PeatJob.arrives, damaged_length, List.length_append]
  omega

/-- A block that nothing damages arrives whole. -/
theorem arrives_undamaged (j : PeatJob) : j.ArrivesWhole [] ∧ (j.arrives []).take j.block.length = j.block := by
  have htake : (j.arrives []).take j.block.length = j.block := List.take_left
  have hdrop : (j.arrives []).drop j.block.length = leBytes 4 (blockCrc j.block (pkOutTag j.raw)) := List.drop_left
  refine ⟨?_, htake⟩
  rw [PeatJob.ArrivesWhole, htake, hdrop, ofLE_leBytes]
  exact (Nat.mod_eq_of_lt (crc32c_lt _)).symm

theorem exec_deliveryBlock (h : NamesJob s f c n d j) (hlookup : pkLookup j.raw = true) (hformed : j.formed = true)
    (hmore : j.sent < j.out.length) : exec (.deliveryBlock f c n damage) s = .next (
      if j.ArrivesWhole damage then
        (s.wrStore f (pkDestOff j.raw + j.sent) ((j.arrives damage).take j.block.length)).putJob
          { j with sent := j.sent + j.block.length, again := false }
      else if j.again then
        s.putJob { j with
          out := j.out.take j.sent, again := false, status := stChecksumFault, addr := storeAddr f (pkDestOff j.raw + j.sent) }
      else s.putJob { j with again := true }) := by
  show execDeliveryBlock f c n damage s = _
  unfold execDeliveryBlock
  rw [onJob_next h]
  simp only [hlookup, hformed, Nat.not_le.mpr hmore, Bool.not_true, Bool.or_self, decide_false, Bool.false_eq_true, if_false]
  rfl

/-! ### Completion (R162, R350, R354, R356) -/

/-- The state in which a descriptor has left its peat unit. -/
def State.leavesPeat (s : State) (f c : Nat) (d : Dma) : State := { s with peat := s.peat.filter fun x => !x.is f c d.seq }

theorem exec_peatComplete (h : NamesJob s f c n d j) : exec (.peatComplete f c n) s = .next (
    if j.over = false then s
    else
      let u := s.leavesPeat f c d
      let st := u.peatStatus f c d j.final
      (if st = stOk then u else u.peatLog f c (pkOp j.raw) st j.rowsDone (if j.final = stOk then d.src else j.addr)).dmaEnd f c d j.final) := by
  have hdrop : s.dropJob j = s.leavesPeat f c d := by rw [State.dropJob, h.jobF, h.jobC, h.jobSeq]; rfl
  show execPeatComplete f c n s = _
  unfold execPeatComplete
  rw [onJob_next h]
  simp only [h.dma, hdrop, Bool.not_eq_true']

theorem job_leavesPeat (s : State) (f c : Nat) (d : Dma) : (s.leavesPeat f c d).job f c d.seq = none := by
  unfold State.job State.leavesPeat
  rw [List.find?_eq_none]
  intro x hx
  simpa using (List.mem_filter.mp hx).2

theorem outcome_peat (s : State) (core kind ordinal status result : Nat) : (s.outcome core kind ordinal status result).peat = s.peat := by
  unfold State.outcome
  split
  · rfl
  · exact (mirrorRec_memOnly ..).peat

theorem dmaFail_peat (s : State) (f c : Nat) (d : Dma) (st : Nat) : (s.dmaFail f c d st).peat = s.peat := by
  have houtcome : (s.dmaOutcome f c d st).peat = s.peat := by
    unfold State.dmaOutcome
    split
    · exact outcome_peat ..
    · rfl
  have hdrop : ((s.dmaOutcome f c d st).dropDma f c d.seq).peat = (s.dmaOutcome f c d st).peat := by
    unfold State.dropDma
    rw [(dropUnits_memOnly ..).peat]
    exact rfl
  have hfault (t : State) (cls a b x op seq : Nat) (im : Bool) : (t.coreFault f c cls a b x op seq im).peat = t.peat :=
    (recordCoreFault_logOnly t f c _).peat
  have hbefore : (s.beforeDmaFault f c d st).peat = ((s.dmaOutcome f c d st).dropDma f c d.seq).peat := by
    rw [State.beforeDmaFault, State.modCore, State.setCore]
  rw [dmaFail_eq, hfault, hbefore, hdrop, houtcome]

/-- The final status of a descriptor that ends with another status than OK is not changed by its completion word. -/
theorem peatStatus_failed (s : State) (f c : Nat) (d : Dma) {st : Nat} (h : st ≠ stOk) : s.peatStatus f c d st = st := by
  unfold State.peatStatus
  split
  · exact if_neg h
  · rfl

end

/-- Settles O28: admission, serving, delivery and completion, each by the equation of its command. -/
theorem peatDescriptorsAreServedAndDelivered : Obligations.PeatDescriptorsAreServedAndDelivered := by
  unfold Obligations.PeatDescriptorsAreServedAndDelivered
  refine ⟨fun s f c n d hf hc => ⟨?admitted, fun stack e pos j hstack _ => ⟨?request, fun q rest errs hasks hjob => ?data⟩⟩,
    fun s f c n d j damage hf hc hdma hjob hjf hjc hjseq => ?_⟩
  case admitted =>
    dsimp only
    intro hdma hnew hup hready htakes
    have h : Forwarded s f c n d := ⟨⟨hf, hc, hdma⟩, hnew, hup, hready, htakes⟩
    rw [exec_admit h]
    refine ⟨fun pool hentry hcheck => ?_, fun hentry => ?_, fun pool st a hentry hcheck => ?_⟩
    · simp only [hentry, State.peatRaw, hcheck]
      rfl
    · rw [hentry]
    · simp only [hentry, State.peatRaw, hcheck]
  case request =>
    rintro rfl hask hready
    exact ⟨_, exec_rowRequest hstack hask hready, rfl, serveUnit_setServe .., rfl⟩
  case data =>
    dsimp only
    have h : Serves s stack q rest j := ⟨hstack, hasks, hjob⟩
    refine ⟨fun v st bs hlookup hfree hread => ⟨_, exec_rowData_lookup h hlookup hfree hread, rowBack_spec ..⟩,
      fun hother hopen => ⟨_, exec_rowData_reached h hother hopen, rowBack_spec ..⟩⟩
  · have h : NamesJob s f c n d j := ⟨⟨hf, hc, hdma⟩, hjob, hjf, hjc, hjseq⟩
    dsimp only
    refine ⟨fun hlookup hformed hmore => ?_, fun hover hfinal hstatus => ?_, fun hover hfinal => ?_, fun hnot => ?_⟩
    · rw [exec_deliveryBlock h hlookup hformed hmore]
      have hlen := arrives_take_length j damage
      refine ⟨fun hright => ?_, fun hnone => ?_, fun hwrong hfirst => ?_, fun hwrong hagain => ?_⟩
      · have hwhole : j.ArrivesWhole damage := hright
        rw [if_pos hwhole]
        have hread := rdStore_wrStore s f (pkDestOff j.raw + j.sent) ((j.arrives damage).take j.block.length)
        rw [hlen] at hread
        refine ⟨_, rfl, hread, job_putJob h.job hjf hjc hjseq, rfl, fun b hb => ?_⟩
        exact Sparse.get_writeBytes_outside (by rw [hlen]; exact hb)
      · subst hnone
        exact arrives_undamaged j
      · have hdamaged : ¬ j.ArrivesWhole damage := hwrong
        rw [if_neg hdamaged, if_neg (Bool.eq_false_iff.mp hfirst)]
        exact ⟨_, rfl, job_putJob h.job hjf hjc hjseq, rfl⟩
      · have hdamaged : ¬ j.ArrivesWhole damage := hwrong
        rw [if_neg hdamaged, if_pos hagain]
        exact ⟨_, rfl, rfl, job_putJob h.job hjf hjc hjseq⟩
    · rw [exec_peatComplete h, if_neg (by rw [hover]; decide)]
      dsimp only
      have hst : (s.leavesPeat f c d).peatStatus f c d stOk = stOk := hstatus
      rw [hfinal, hst, if_pos rfl]
      exact congrArg Host.Outcome.next (if_pos rfl)
    · rw [exec_peatComplete h, if_neg (by rw [hover]; decide)]
      dsimp only
      rw [peatStatus_failed _ _ _ _ hfinal, if_neg hfinal, State.dmaEnd, if_neg hfinal]
      refine ⟨_, rfl, ?_, dmaFail_halted _ hc⟩
      rw [job_congr (dmaFail_peat ..), job_congr (peatLog_logOnly ..).peat, job_leavesPeat]
    · rw [exec_peatComplete h, if_pos hnot]

end Sys2Proof.Machine

/-! SUPPORT. Updates of registers alone, chains of field writes, the CXL fault log, and what the host's command queues keep
(R381 to R390, R404). -/

namespace Sys2Proof.Machine

/-! ### Updates of registers alone -/

/-- `t` is `s` but for its registers. -/
def RegsOnly (s t : State) : Prop := t = { s with regs := t.regs }

section
variable {s t u : State}

theorem RegsOnly.eq (h : RegsOnly s t) : t = { s with regs := t.regs } := h

theorem RegsOnly.refl (s : State) : RegsOnly s s := rfl

theorem RegsOnly.trans (h : RegsOnly s t) (h' : RegsOnly t u) : RegsOnly s u := by
  unfold RegsOnly at *
  rw [h', h]

theorem RegsOnly.setReg (h : RegsOnly s t) (r : Reg) (i j v : Nat) : RegsOnly s (t.setReg r i j v) := h.trans rfl
theorem RegsOnly.setFld (h : RegsOnly s t) (r : Reg) (i j hi lo v : Nat) : RegsOnly s (t.setFld r i j hi lo v) := h.setReg ..
theorem RegsOnly.setRbit (h : RegsOnly s t) (r : Reg) (i j b : Nat) (v : Bool) : RegsOnly s (t.setRbit r i j b v) := h.setReg ..

theorem RegsOnly.ite {p : Prop} [Decidable p] (h : RegsOnly s t) (h' : RegsOnly s u) : RegsOnly s (if p then t else u) := by
  split
  · exact h
  · exact h'

end

theorem emit_outside {w : Set Nat} (s : State) (o : Output) : RegsOutside w s (s.emit o) := .of_regs rfl

/-! ### The CXL fault log (R404) -/

section
variable (s : State) (addr status path queue core : Nat)

theorem cxlLog_outside : RegsOutside {Reg.cxlFaultInfo.addr 0 0, Reg.cxlFaultAddr.addr 0 0, Reg.drvEvtStatus.addr 0 0} s
    (s.cxlLog addr status path queue core) := by
  unfold State.cxlLog
  dsimp only
  split
  · exact (log_outside ..).trans (emit_outside ..)
  · exact log_outside ..

end

/-- The registers of a queue pair are no fault log. -/
theorem qctrl_addr_ne_log (q : Nat) :
    Reg.cxlQctrl.addr 0 q ∉ ({Reg.cxlFaultInfo.addr 0 0, Reg.cxlFaultAddr.addr 0 0, Reg.drvEvtStatus.addr 0 0} : Set Nat) := by
  simp [Reg.addr, Reg.row, Block.base]
  omega

/-! ### The queues -/

section
variable {s t : State} {q : Nat}

@[simp] theorem que_setQue_same (s : State) (q : Nat) (k : CmdQueue) : (s.setQue q k).que q = k := Sparse.get_set_same

@[simp] theorem queState_setQue (s : State) (q q' : Nat) (k : CmdQueue) : (s.setQue q k).queState q' = s.queState q' := rfl

theorem queStopped_of_ne (h : s.queState q ≠ 3) : s.queStopped q = s := if_neg fun hs => h hs.1

/-- The only command of a running queue is done. -/
theorem queDone_only {k : QCmd} (hcmds : (s.que q).cmds = [k]) (hmute : k.mute = false) (hrun : s.queState q = 1) (st n : Nat) :
    s.queDone q k st n = s.setQue q { s.que q with cmds := [{ k with res := some (st, n) }] } := by
  unfold State.queDone
  simp only [hcmds, hmute, List.erase_cons_head, List.filter_nil, List.nil_append, List.append_nil, Bool.false_eq_true, if_false]
  exact queStopped_of_ne (by rw [queState_setQue, hrun]; decide)

theorem queLog_outside (s : State) (q st addr : Nat) :
    RegsOutside {Reg.cxlFaultInfo.addr 0 0, Reg.cxlFaultAddr.addr 0 0, Reg.drvEvtStatus.addr 0 0} s (s.queLog q st addr) := cxlLog_outside ..

theorem queLog_logOnly (s : State) (q st addr : Nat) : LogOnly s (s.queLog q st addr) := cxlLog_logOnly ..

theorem queState_queLog (s : State) (q st addr q' : Nat) : (s.queLog q st addr).queState q' = s.queState q' :=
  (queLog_outside ..).fld (qctrl_addr_ne_log q') ..

theorem que_congr (h : t.queues = s.queues) (q : Nat) : t.que q = s.que q := by rw [State.que, h, ← State.que]

theorem que_queLog (s : State) (q st addr q' : Nat) : (s.queLog q st addr).que q' = s.que q' := que_congr (queLog_logOnly ..).queues q'

end

end Sys2Proof.Machine

/-! SUPPORT. The event record of a malformed queue entry (R404, R681; O37). -/

namespace Sys2Proof.Machine

open Sys2Proof.Tests

/-- What a command leaves is a state of which a check of the test states speaks. -/
theorem of_gives {i : Instr} {s t : State} {p : State → Bool} (hp : gives i s p = true) (h : exec i s = .next t) : p t = true := by
  rwa [gives, h] at hp

/-- A malformed entry is logged in the CXL fault log, and its first entry forms an event record. -/
theorem malformed_recorded :
    gives (.sqFetch 15 (sqe 9 0 0 0 0 0)) (queueing (ring [])) (fun t => t.evt.length == 1) = true ∧ (queueing (ring [])).evt = [] := by
  decide +kernel

theorem malformed_fetched : (sqe 9 0 0 0 0 0).length = 64 ∧ (queueing (ring [])).mayFetch 15 = true ∧ ((queueing (ring [])).que 15).cmds = [] ∧
    QCmd.malformed { raw := sqe 9 0 0 0 0 0, num := (queueing (ring [])).fld .cxlQctrl 0 15 31 16, data := [], res := none, mute := false } =
      true := by decide +kernel

/-- Refutes O37: the fetch of a malformed entry is logged, and the event record of the log's first entry joins the ring of event
records, which the statement leaves as it was. -/
theorem not_queuesFetchAndPost : ¬ Obligations.QueuesFetchAndPost := by
  unfold Obligations.QueuesFetchAndPost
  intro h
  obtain ⟨hlen, hmay, hnone, hbad⟩ := malformed_fetched
  obtain ⟨hrecorded, hbefore⟩ := malformed_recorded
  obtain ⟨hfetch, -⟩ := h.2 (queueing (ring [])) 15 (by decide)
  obtain ⟨t, hexec, -, -, hframe⟩ := (hfetch _ hlen hmay).2 hbad hnone
  have hevt : t.evt = (queueing (ring [])).evt := (congrArg State.evt hframe).trans rfl
  have hone := of_gives hrecorded hexec
  rw [hevt, hbefore] at hone
  exact absurd hone (by decide)

end Sys2Proof.Machine

/-! SUPPORT. The event record of an IDE failure (R399, R404, R681; O39). -/

namespace Sys2Proof.Machine

open Sys2Proof.Tests

/-! ### A log's first entry forms an event record -/

theorem eseq_record (s : State) (e : Evt) : (s.record e).eseq = (s.eseq + 1) % 2 ^ 16 := by
  unfold State.record
  dsimp only
  split <;> split <;> rfl

theorem eseq_emit (s : State) (o : Output) : (s.emit o).eseq = s.eseq := rfl

/-- The first entry of the CXL fault log takes the next number of the event records. -/
theorem eseq_cxlLog_first {s : State} (hfirst : s.rbit .cxlFaultInfo 0 0 63 = false) (hfw : s.fwStep ≠ 1) (addr status path queue core : Nat) :
    (s.cxlLog addr status path queue core).eseq = (s.eseq + 1) % 2 ^ 16 := by
  have hstep (v w : Nat) : ((s.setReg .cxlFaultInfo 0 0 v).setReg .cxlFaultAddr 0 0 w).fwStep = s.fwStep := by
    rw [State.fwStep, State.fld, State.reg_setReg_ne _ _ _ _ _ _ _ _ (by decide), State.reg_setReg_ne _ _ _ _ _ _ _ _ (by decide), State.fwStep, State.fld]
  have hbit : bit (s.reg .cxlFaultInfo 0 0) 63 ≠ true := by rw [← State.rbit, hfirst]; decide
  have hlog (v : Nat) (cnt : Option (Nat × Nat)) :
      (s.log .cxlFaultInfo 0 0 v cnt (some (.cxlFaultAddr, addr)) 0x05 0).eseq = (s.eseq + 1) % 2 ^ 16 := by
    unfold State.log
    dsimp only
    rw [if_neg hbit, State.event, if_neg (by rw [hstep]; exact hfw), eseq_record]
    rfl
  unfold State.cxlLog
  dsimp only
  split
  · rw [eseq_emit, hlog]
  · rw [hlog]

/-! ### The refutation -/

/-- The state in which the failure is logged. -/
def State.ideFailed (s : State) : State := { s.bump.setRbit .cxlStatus 0 0 58 true with ideStop := true }

theorem shielded_fails : shielded.ideFailed.rbit .cxlFaultInfo 0 0 63 = false ∧ shielded.ideFailed.fwStep ≠ 1 ∧
    shielded.ideFailed.eseq = 0 ∧ shielded.eseq = 0 ∧ shielded.rbit .cxlStatus 0 0 59 = true := by decide +kernel

/-- Refutes O39: an IDE failure is logged, and the first entry of the log forms an event record with the next number, where the
statement leaves the ring of event records and its numbers as they were. -/
theorem not_farTierAndHostLink : ¬ Obligations.FarTierAndHostLink := by
  unfold Obligations.FarTierAndHostLink
  intro h
  obtain ⟨hfirst, hstep, hfailed, hbefore, hide⟩ := shielded_fails
  obtain ⟨-, -, -, hfail, -⟩ := h.2 shielded
  obtain ⟨t, hexec, -, -, -, hframe, -⟩ := hfail hide
  have hsame : t.eseq = shielded.eseq := (congrArg State.eseq hframe).trans rfl
  have hmodel : exec .ideFail shielded = .next (shielded.ideFailed.cxlLog (shielded.freeVal.toNat % 2 ^ 48) (bits shielded.freeVal.toNat 51 48) 0x5 0 0) := by
    show execIdeFail shielded = _
    rw [execIdeFail, if_pos hide]
    rfl
  rw [hmodel] at hexec
  have hrecorded := congrArg State.eseq (Host.Outcome.next.inj hexec)
  rw [eseq_cxlLog_first hfirst hstep, hsame, hfailed, hbefore] at hrecorded
  exact absurd hrecorded (by decide)

end Sys2Proof.Machine

/-! SUPPORT. The event record of a poisoned host write (R374, R404, R681; O36). -/

namespace Sys2Proof.Machine

open Sys2Proof.Tests

/-- A poisoned host write is logged in the CXL fault log, and its first entry forms an event record. -/
theorem poisonedWrite_recorded :
    gives (.cxlMemWrite 128 3#64 (List.replicate 64 1) true []) linked (fun t => t.evt.length == 1) = true ∧ linked.evt = [] ∧
      linked.hostTraffic = true := by decide +kernel

/-- Refutes O36: a poisoned host write is logged, and the event record of the log's first entry joins the ring of event records, which
the statement leaves as it was. -/
theorem not_hostMemoryAndTracker : ¬ Obligations.HostMemoryAndTracker := by
  unfold Obligations.HostMemoryAndTracker
  intro h
  obtain ⟨hrecorded, hbefore, htraffic⟩ := poisonedWrite_recorded
  obtain ⟨t, hexec, hframe, -⟩ := h.2.1 linked 128 3#64 (List.replicate 64 1) [] (by decide) (by decide) htraffic
  have hevt : t.evt = linked.evt := (congrArg State.evt hframe).trans rfl
  have hone := of_gives hrecorded hexec
  rw [hevt, hbefore] at hone
  exact absurd hone (by decide)

end Sys2Proof.Machine

/-! SUPPORT. Shadow mode, step marks and digests (R705, R706, R709 to R711; O56). -/

namespace Sys2Proof.Machine

/-! ### Writes of DRV_SHADOW_CTRL (R705, R711) -/

section
variable {s : State}

theorem bits_mod_word (w : Nat) {hi lo : Nat} (h : hi < 64) : bits (w % 2 ^ 64) hi lo = bits w hi lo := by
  apply Nat.eq_of_testBit_eq
  intro i
  rw [bits_testBit, bits_testBit, Nat.testBit_mod_two_pow]
  by_cases hi' : i < hi + 1 - lo
  · simp [hi', show lo + i < 64 by omega]
  · simp [hi']

/-- ENABLE of DRV_SHADOW_CTRL after a write. -/
theorem enable_setReg_written (old v : Nat) :
    (s.setReg .drvShadowCtrl 0 0 (Reg.written .drvShadowCtrl old v)).rbit .drvShadowCtrl 0 0 63 = bit v 63 ∧
      (s.setReg .drvShadowCtrl 0 0 (Reg.written .drvShadowCtrl old v)).rbit .drvShadowCtrl 0 0 62 = bit v 62 := by
  have henable : (⟨63, 63, .rw, 0x0⟩ : Field) ∈ Reg.drvShadowCtrl.row.fields := by decide
  have hrole : (⟨62, 62, .rw, 0x0⟩ : Field) ∈ Reg.drvShadowCtrl.row.fields := by decide
  rw [State.rbit_eq_fld, State.rbit_eq_fld, State.fld, State.fld, State.reg_setReg_same, bits_mod_word _ (by decide),
    bits_mod_word _ (by decide), Reg.bits_written henable, Reg.bits_written hrole, bit_eq_testBit_bits, bit_eq_testBit_bits]
  exact ⟨rfl, rfl⟩

/-- The mark of a write, before its other bits. -/
def State.marked (s : State) (v : Nat) : State := if bit v 61 then s.stepMark else s

theorem stepMark_keeps : s.stepMark.isShadow = s.isShadow ∧ s.stepMark.rbit .drvShadowCtrl 0 0 63 = s.rbit .drvShadowCtrl 0 0 63 := by
  have hstate : s.stepMark.fld .drvShadowStatus 0 0 63 61 = s.fld .drvShadowStatus 0 0 63 61 :=
    State.fld_setRbit_ne _ _ _ _ _ (by decide) (.inr (by decide))
  have hctrl (b : Nat) : s.stepMark.rbit .drvShadowCtrl 0 0 b = s.rbit .drvShadowCtrl 0 0 b := by
    have hreg : s.stepMark.reg .drvShadowCtrl 0 0 = s.reg .drvShadowCtrl 0 0 := State.reg_setReg_ne _ _ _ _ _ _ _ _ (by decide)
    rw [State.rbit, hreg, ← State.rbit]
  rw [State.isShadow, hstate, hctrl, hctrl, ← State.isShadow]
  exact ⟨rfl, rfl⟩

theorem marked_keeps (v : Nat) :
    (s.marked v).isShadow = s.isShadow ∧ (s.marked v).rbit .drvShadowCtrl 0 0 63 = s.rbit .drvShadowCtrl 0 0 63 := by
  unfold State.marked
  split
  · exact stepMark_keeps
  · exact ⟨rfl, rfl⟩

/-- DRV_SHADOW_CTRL of a device that is no shadow takes the write. -/
def State.shadowWritten (s : State) (v : Nat) : State :=
  (s.marked v).setReg .drvShadowCtrl 0 0 (Reg.written .drvShadowCtrl ((s.marked v).reg .drvShadowCtrl 0 0) v)

theorem enable_shadowWritten (v : Nat) : (s.shadowWritten v).rbit .drvShadowCtrl 0 0 63 = bit v 63 := (enable_setReg_written ..).1

/-- What a write does after its mark, as a shadow and otherwise. -/
theorem shadowWrite_eq (v : Nat) : s.shadowWrite v =
    if (s.marked v).isShadow then (if bit v 63 then (s.marked v).setFld .drvShadowCtrl 0 0 13 0 (bits v 13 0) else s.marked v)
    else if bit v 63 then
      if bit v 62 then ((s.shadowWritten v).setShadow { (s.shadowWritten v).shadow with full := [], own := [], prim := [] }).setShadowState 2
      else if (s.marked v).rbit .drvShadowCtrl 0 0 63 then s.shadowWritten v
      else ((s.shadowWritten v).setShadow { (s.shadowWritten v).shadow with ring := 0 }).setShadowState 1
    else (s.shadowWritten v).setShadowState 0 := by
  have hmark : (if bit v 61 then s.stepMark else s) = s.marked v := rfl
  unfold State.shadowWrite
  rw [hmark]
  unfold State.shadowWritten
  rfl

theorem marked_setBit (v : Nat) (b : Bool) : s.marked (setBit v 63 b) = s.marked v := by
  rw [State.marked, bit_setBit_ne b (by decide), ← State.marked]

@[simp] theorem shadow_setShadow (s : State) (x : Shadow) : (s.setShadow x).shadow = x := rfl

@[simp] theorem rbit_setShadow (s : State) (x : Shadow) (r : Reg) (i j b : Nat) : (s.setShadow x).rbit r i j b = s.rbit r i j b := rfl

@[simp] theorem fld_setShadow (s : State) (x : Shadow) (r : Reg) (i j hi lo : Nat) : (s.setShadow x).fld r i j hi lo = s.fld r i j hi lo := rfl

/-- STATE after it is set, and what else a reader of the control sees. -/
theorem setShadowState_spec (s : State) {v : Nat} (h : v < 8) : (s.setShadowState v).fld .drvShadowStatus 0 0 63 61 = v ∧
    (s.setShadowState v).shadow = s.shadow ∧ (s.setShadowState v).rbit .drvShadowCtrl 0 0 63 = s.rbit .drvShadowCtrl 0 0 63 := by
  refine ⟨(State.fld_setFld_same _ _ _ _ _ _ _ (by decide)).trans (Nat.mod_eq_of_lt h), State.setFld_shadow .., ?_⟩
  rw [State.rbit, State.setShadowState, State.reg_setFld_ne _ _ _ _ _ _ _ _ _ _ (by decide), ← State.rbit]

end

/-! ### Digests (R706, R709, R710) -/

/-- What publishing a digest sets, and what the record and the comparison that follow leave. -/
structure KeepsDigest (s t : State) : Prop where
  step   : t.fld .drvShadowStatus 0 0 47 32 = s.fld .drvShadowStatus 0 0 47 32
  digest : t.fld .drvShadowStatus 0 0 31 0 = s.fld .drvShadowStatus 0 0 31 0
  due    : t.shadow.due = s.shadow.due

section
variable {s t u : State}

theorem KeepsDigest.refl (s : State) : KeepsDigest s s := ⟨rfl, rfl, rfl⟩

theorem KeepsDigest.trans (h : KeepsDigest s t) (h' : KeepsDigest t u) : KeepsDigest s u :=
  ⟨h'.step.trans h.step, h'.digest.trans h.digest, h'.due.trans h.due⟩

theorem KeepsDigest.of_regs (h : t.regs = s.regs) (hdue : t.shadow.due = s.shadow.due) : KeepsDigest s t :=
  ⟨by rw [State.fld, reg_congr h, ← State.fld], by rw [State.fld, reg_congr h, ← State.fld], hdue⟩

theorem setShadow_keepsDigest (s : State) (x : Shadow) (h : x.due = s.shadow.due) : KeepsDigest s (s.setShadow x) := .of_regs rfl h

theorem setFld_keepsDigest (s : State) {hi lo : Nat} (v : Nat) (hhi : hi < 64) (hlo : 47 < lo) :
    KeepsDigest s (s.setFld .drvShadowStatus 0 0 hi lo v) :=
  ⟨State.fld_setFld_ne _ _ _ _ _ _ _ _ _ hhi (.inl hlo), State.fld_setFld_ne _ _ _ _ _ _ _ _ _ hhi (.inl (by omega)), rfl⟩

theorem event_keepsDigest (s : State) (source kind loc detail addr : Nat) : KeepsDigest s (s.event source kind loc detail addr) := by
  have hout := event_outside (w := {Reg.drvEvtStatus.addr 0 0}) rfl s source kind loc detail addr
  exact ⟨hout.fld (by decide) .., hout.fld (by decide) .., congrArg Shadow.due (event_logOnly ..).shadow⟩

theorem mirrorRec_keepsDigest (s : State) (a : Nat) (bs : List Byte) : KeepsDigest s (s.mirrorRec a bs) := by
  unfold State.mirrorRec
  split
  · exact .refl s
  · dsimp only
    split
    · exact (setFld_keepsDigest s 3 (by decide) (by decide)).trans (event_keepsDigest ..)
    · exact .of_regs rfl rfl

theorem outcome_keepsDigest (s : State) (core kind ordinal status result : Nat) : KeepsDigest s (s.outcome core kind ordinal status result) := by
  unfold State.outcome
  split
  · exact .refl s
  · exact (mirrorRec_keepsDigest ..).trans (.of_regs rfl rfl)

theorem outcome_of_ne {core kind ordinal status result : Nat} (h : s.fld .drvShadowStatus 0 0 63 61 ≠ 1) :
    s.outcome core kind ordinal status result = s := if_pos h

theorem compareDigests_keepsDigest (s : State) : KeepsDigest s s.compareDigests := by
  unfold State.compareDigests
  refine List.foldlRecOn (motive := fun t => KeepsDigest s t) _ _ (.refl s) fun t h x _ => ?_
  split
  · exact h
  · next y _ =>
    have hboth := h.trans (setShadow_keepsDigest t { t.shadow with own := t.shadow.own.erase x, prim := t.shadow.prim.erase y } rfl)
    dsimp only
    split
    · exact hboth.trans (setFld_keepsDigest _ _ (by decide) (by decide))
    · exact (hboth.trans (setFld_keepsDigest _ _ (by decide) (by decide))).trans (event_keepsDigest ..)

/-- A shadow that has one digest of its own and the primary's of the same step compares the two. -/
theorem compareDigests_one {step d e : Nat} (hown : s.shadow.own = [(step, d)]) (hprim : s.shadow.prim = [(step, e)]) :
    let u := s.setShadow { s.shadow with own := [], prim := [] }
    s.compareDigests = if d = e then u.incFld .drvShadowStatus 0 0 59 48
      else (u.setShadowState 4).event 0x0F 0x2 u.shadowPeer (e * 2 ^ 32 + d) step := by
  unfold State.compareDigests
  simp only [hown, hprim, List.foldl_cons, List.foldl_nil, List.find?_cons_of_pos, beq_self_eq_true, List.erase_cons_head]

/-- STEP and DIGEST of the next mark are published. -/
def State.digestPublished (s : State) : State :=
  let step := (s.fld .drvShadowStatus 0 0 47 32 + 1) % 2 ^ 16
  let t := s.setShadow { s.shadow with due := s.shadow.due - 1 }
  ((t.setFld .drvShadowStatus 0 0 47 32 step).setFld .drvShadowStatus 0 0 31 0 s.windowDigest).setRbit .drvShadowStatus 0 0 60
    (decide (0 < s.shadow.due - 1))

theorem digestPublished_spec : s.digestPublished.fld .drvShadowStatus 0 0 47 32 = (s.fld .drvShadowStatus 0 0 47 32 + 1) % 2 ^ 16 ∧
    s.digestPublished.fld .drvShadowStatus 0 0 31 0 = s.windowDigest % 2 ^ 32 ∧ s.digestPublished.shadow = { s.shadow with due := s.shadow.due - 1 } ∧
    s.digestPublished.fld .drvShadowStatus 0 0 63 61 = s.fld .drvShadowStatus 0 0 63 61 ∧
    s.digestPublished.fld .drvShadowStatus 0 0 59 48 = s.fld .drvShadowStatus 0 0 59 48 := by
  unfold State.digestPublished
  dsimp only
  refine ⟨?_, ?_, rfl, ?_, ?_⟩
  · rw [State.fld_setRbit_ne _ _ _ _ _ (by decide) (by decide), State.fld_setFld_ne _ _ _ _ _ _ _ _ _ (by decide) (by decide),
      State.fld_setFld_same _ _ _ _ _ _ _ (by decide), Nat.mod_mod]
  · rw [State.fld_setRbit_ne _ _ _ _ _ (by decide) (by decide), State.fld_setFld_same _ _ _ _ _ _ _ (by decide)]
  all_goals
    rw [State.fld_setRbit_ne _ _ _ _ _ (by decide) (by decide), State.fld_setFld_ne _ _ _ _ _ _ _ _ _ (by decide) (by decide),
      State.fld_setFld_ne _ _ _ _ _ _ _ _ _ (by decide) (by decide)]
    rfl

/-- The state in which the digest's outcome record has been formed. -/
def State.digestTold (s : State) : State :=
  s.digestPublished.outcome 0 3 ((s.fld .drvShadowStatus 0 0 47 32 + 1) % 2 ^ 16) 0 s.windowDigest

theorem exec_digestComplete (h : s.shadow.due ≠ 0) : exec .digestComplete s = .next (
    if s.digestTold.isShadow then
      (s.digestTold.setShadow { s.digestTold.shadow with own := s.digestTold.shadow.own ++
        [((s.fld .drvShadowStatus 0 0 47 32 + 1) % 2 ^ 16, s.windowDigest)] }).compareDigests
    else s.digestTold) := by
  show execDigestComplete s = _
  unfold execDigestComplete
  rw [if_neg h]
  rfl

end

/-- Settles O56: the writes by `shadowWrite_eq`, the digests by `KeepsDigest` and `compareDigests_one`. -/
theorem shadowModeAndDigests : Obligations.ShadowModeAndDigests := by
  unfold Obligations.ShadowModeAndDigests
  intro s
  have henable (v : Word64) : exec (.shadowEnable v) s = .next (s.shadowWrite (setBit v.toNat 63 true)) := rfl
  have hdisable (v : Word64) : exec (.shadowDisable v) s = .next (s.shadowWrite (setBit v.toNat 63 false)) := rfl
  refine ⟨fun v hnot => ⟨fun hrole hoff => ?primary, fun hrole => ?shadow, ?disabled⟩, fun v hshadow => ?_, ?mark, fun hnone => ?none,
    fun hdue => ?digest⟩
  case primary =>
    obtain ⟨hstate, hsame, hctrl⟩ := setShadowState_spec ((s.shadowWritten (setBit v.toNat 63 true)).setShadow
      { (s.shadowWritten (setBit v.toNat 63 true)).shadow with ring := 0 }) (v := 1) (by decide)
    refine ⟨_, henable v, ?_⟩
    rw [shadowWrite_eq, (marked_keeps _).1, hnot, if_neg (by decide), if_pos (bit_setBit_same ..), bit_setBit_ne _ (by decide), hrole,
      if_neg (by decide), (marked_keeps _).2, hoff, if_neg (by decide)]
    exact ⟨hstate, by rw [hsame, shadow_setShadow], by rw [hctrl, rbit_setShadow, enable_shadowWritten, bit_setBit_same]⟩
  case shadow =>
    obtain ⟨hstate, hsame, hctrl⟩ := setShadowState_spec ((s.shadowWritten (setBit v.toNat 63 true)).setShadow
      { (s.shadowWritten (setBit v.toNat 63 true)).shadow with full := [], own := [], prim := [] }) (v := 2) (by decide)
    refine ⟨_, henable v, ?_⟩
    rw [shadowWrite_eq, (marked_keeps _).1, hnot, if_neg (by decide), if_pos (bit_setBit_same ..), bit_setBit_ne _ (by decide), hrole,
      if_pos rfl]
    exact ⟨hstate, by rw [State.isShadow, hstate]; rfl, by rw [hsame, shadow_setShadow]⟩
  case disabled =>
    obtain ⟨hstate, -, hctrl⟩ := setShadowState_spec (s.shadowWritten (setBit v.toNat 63 false)) (v := 0) (by decide)
    refine ⟨_, hdisable v, ?_⟩
    rw [shadowWrite_eq, (marked_keeps _).1, hnot, if_neg (by decide), if_neg (by rw [bit_setBit_same]; decide)]
    exact ⟨hstate, by rw [hctrl, enable_shadowWritten, bit_setBit_same]⟩
  case mark =>
    refine ⟨s.stepMark, rfl, rfl, State.rbit_setRbit_same _ _ _ _ _ _ (by decide), ?_⟩
    rw [State.stepMark, State.setShadow, State.setRbit, State.setFld, State.setReg]
  case none =>
    show execDigestComplete s = _
    rw [execDigestComplete, if_pos hnone]
  case digest =>
    dsimp only
    obtain ⟨hstep, hdigest, hshadow, hstate, hcount⟩ := digestPublished_spec (s := s)
    have htold : KeepsDigest s.digestPublished s.digestTold := outcome_keepsDigest ..
    have hkept (t : State) (h : KeepsDigest s.digestPublished t) : t.shadow.due = s.shadow.due - 1 ∧
        t.fld .drvShadowStatus 0 0 47 32 = (s.fld .drvShadowStatus 0 0 47 32 + 1) % 2 ^ 16 ∧
        t.fld .drvShadowStatus 0 0 31 0 = s.windowDigest % 2 ^ 32 :=
      ⟨h.due.trans (congrArg Shadow.due hshadow), h.step.trans hstep, h.digest.trans hdigest⟩
    refine ⟨_, exec_digestComplete hdue, ?_⟩
    by_cases his : s.digestTold.isShadow = true
    · rw [if_pos his]
      obtain ⟨hd, hs, hg⟩ := hkept _ ((htold.trans (setShadow_keepsDigest s.digestTold { s.digestTold.shadow with
        own := s.digestTold.shadow.own ++ [((s.fld .drvShadowStatus 0 0 47 32 + 1) % 2 ^ 16, s.windowDigest)] } rfl)).trans
          (compareDigests_keepsDigest ..))
      refine ⟨hd, hs, hg, fun hshadowing hown d hprim => ?_⟩
      have hsame : s.digestTold = s.digestPublished := outcome_of_ne (by rw [hstate, hshadowing]; decide)
      rw [hsame, compareDigests_one (d := s.windowDigest) (e := d) (by rw [shadow_setShadow, hshadow, hown]; rfl)
        (by rw [shadow_setShadow, hshadow, hprim])]
      refine ⟨fun heq => ?_, fun hne => ?_⟩
      · rw [if_pos heq.symm, State.fld_incFld_same _ _ _ _ (by decide), State.incFld, State.fld_setFld_ne _ _ _ _ _ _ _ _ _ (by decide) (by decide)]
        simp only [fld_setShadow, hstate, hcount, hshadowing, true_and]
      · rw [if_neg fun heq => hne heq.symm, (event_outside (w := {Reg.drvEvtStatus.addr 0 0}) rfl ..).fld (by decide)]
        exact (setShadowState_spec _ (by decide)).1
    · rw [if_neg his]
      obtain ⟨hd, hs, hg⟩ := hkept _ htold
      refine ⟨hd, hs, hg, fun hshadowing => absurd ?_ his⟩
      rw [State.digestTold, outcome_of_ne (by rw [hstate, hshadowing]; decide), State.isShadow, hstate, hshadowing]
      rfl
  · have hwrite (b : Bool) := shadowWrite_eq (s := s) (setBit v.toNat 63 b)
    simp only [(marked_keeps _).1, hshadow, if_true, bit_setBit_same, marked_setBit, bits_setBit_ne _ (.inl (show 13 < 63 by decide))] at hwrite
    exact ⟨(henable v).trans (congrArg _ (hwrite true)), (hdisable v).trans (congrArg _ (hwrite false))⟩

end Sys2Proof.Machine

/-! SUPPORT. The commands of a queue that has one (R381 to R385, R502; O38). -/

namespace Sys2Proof.Machine

/-! ### A queue with one command -/

/-- Queue pair `q` runs, and its only command, `k`, has not completed. -/
structure OnlyCommand (s : State) (q : Nat) (k : QCmd) : Prop where
  queue : q < 16
  heard : k.mute = false
  empty : k.data = []
  cmds  : (s.que q).cmds = [k]
  open' : k.res = none
  runs  : s.queState q = 1

/-- The only command is done with a status, a count and the bytes that it has read. -/
def CommandDone (t : State) (q : Nat) (k : QCmd) (st m : Nat) (data : List Byte) : Prop :=
  (t.que q).cmds = [{ k with data := data, res := some (st, m) }]

section
variable {s t : State} {q : Nat} {k : QCmd}

theorem runnable_only (h : OnlyCommand s q k) {op : Nat} (hop : k.op = op) : s.runnable q 0 op = some k := by
  unfold State.runnable
  simp [h.cmds, hop, h.open']

theorem queDone_done (hcmds : (t.que q).cmds = [k]) (hmute : k.mute = false) (hrun : t.queState q = 1) (st m : Nat) :
    CommandDone (t.queDone q k st m) q k st m k.data := by
  rw [CommandDone, queDone_only hcmds hmute hrun, que_setQue_same]

theorem queFail_done (hcmds : (t.que q).cmds = [k]) (hmute : k.mute = false) (hrun : t.queState q = 1) (st a m : Nat) :
    CommandDone (t.queFail q k st a m) q k st m k.data :=
  queDone_done ((que_queLog t q st a q).symm ▸ hcmds) hmute ((queState_queLog ..).trans hrun) st m

theorem queFail_memory (hcmds : (t.que q).cmds = [k]) (hmute : k.mute = false) (hrun : t.queState q = 1) (st a m : Nat) :
    (t.queFail q k st a m).store = t.store ∧ (t.queFail q k st a m).dram = t.dram := by
  rw [State.queFail, queDone_only (by rw [que_queLog, hcmds]) hmute ((queState_queLog ..).trans hrun)]
  exact ⟨(queLog_logOnly t q st a).store, (queLog_logOnly t q st a).dram⟩

/-- Nothing is mirrored where the device is no primary. -/
theorem mirrored_of_ne (h : s.fld .drvShadowStatus 0 0 63 61 ≠ 1) (a : Nat) (bs : List Byte) : s.mirrored a bs = s := if_pos (.inr h)

/-! ### NOP, FENCE and SIGNAL -/

theorem exec_queueNop (h : OnlyCommand s q k) (hop : k.op = 0) : exec (.queueNop q 0) s = .next (s.queDone q k stOk 0) := by
  show execQueueNop q 0 s = _
  rw [execQueueNop, onQueue, inRange_next h.queue]
  rw [runnable_only h hop]

theorem exec_queueFence (h : OnlyCommand s q k) (hop : k.op = 3) : exec (.queueFence q 0) s = .next (s.queDone q k stOk 0) := by
  show execQueueFence q 0 s = _
  rw [execQueueFence, onQueue, inRange_next h.queue]
  rw [runnable_only h hop]

theorem exec_queueSignal (h : OnlyCommand s q k) (hop : k.op = 2) {f off : Nat} (haligned : k.dst % 8 = 0) (hloc : locOf k.dst = .store f off)
    (hup : s.flockQuiet f = false) : exec (.queueSignal q 0) s = .next (
      let r := s.addSignal (.store f off) k.increment 0x3 none
      if r.2 = stOk then r.1.queDone q k stOk 0 else r.1.queFail q k r.2 (k.dst % 2 ^ 48) 0) := by
  show execQueueSignal q 0 s = _
  rw [execQueueSignal, onQueue, inRange_next h.queue]
  dsimp only
  rw [runnable_only h hop]
  dsimp only
  rw [State.queSignal]
  simp only [haligned, hloc, hup, ne_eq, not_true_eq_false, Bool.false_eq_true, if_false]

/-- A counter fault changes the signal fault register alone. -/
theorem sigLog_keepsQueue (s : State) (f : Nat) {q : Nat} (hq : q < 16) (cause source : Nat) (inScratch : Bool) (core off : Nat) :
    (s.sigLog f cause source inScratch core off).que q = s.que q ∧ (s.sigLog f cause source inScratch core off).queState q = s.queState q := by
  have houtside : RegsOutside {Reg.flkSigFault.addr f 0} s (s.sigLog f cause source inScratch core off) := by
    unfold State.sigLog
    exact .ite (setRbit_outside_self ..) (setReg_outside (Set.mem_singleton _) ..)
  refine ⟨que_congr (sigLog_logOnly ..).queues q, houtside.fld ?_ ..⟩
  simp [Reg.addr, Reg.row, Block.base]
  omega

/-! ### COPY (R382, R383) -/

/-- A COPY with its source bytes at hand writes a range of the flock stores. -/
theorem queCopyTo_store (hdst : k.dstHost = false) (hmem : memOf k.dst k.data.length = some .store)
    (hcalm : (flocksOf .store k.dst k.data.length).find? s.flockQuiet = none) (hshadow : s.fld .drvShadowStatus 0 0 63 61 ≠ 1) :
    s.queCopyTo q k = (s.wrStoreAt (k.dst - storeBase) k.data).queDone q k stOk k.data.length := by
  have hwrite : s.queWrite (k.reqAt q k.dst) k.data = (s.wrStoreAt (k.dst - storeBase) k.data, some (k.data.length, stOk)) := by
    have haddr : (k.reqAt q k.dst).addr = k.dst := rfl
    rw [State.queWrite, haddr, hmem, if_neg (by decide), State.tryWriteMem_store _ (by rw [haddr, hmem]) (by rw [haddr]; exact hcalm)]
    dsimp only
    rw [if_pos rfl, haddr, mirrored_of_ne (s := s.wrStoreAt (k.dst - storeBase) k.data) hshadow]
  rw [State.queCopyTo, hdst, if_neg (by decide), hwrite]
  rfl

theorem queCopyTo_host (hdst : k.dstHost = true) :
    s.queCopyTo q k = (s.emit (.hostWrite k.dst k.data)).queDone q k stOk k.len := by
  rw [State.queCopyTo, hdst, if_pos rfl]

/-- The state in which a COPY keeps what it has read. -/
def State.queKeeps (s : State) (q : Nat) (k : QCmd) (bs : List Byte) : State :=
  s.setQue q { s.que q with cmds := [{ k with data := bs }] }

theorem queCopyFrom_only (hcmds : (s.que q).cmds = [k]) (bs : List Byte) :
    s.queCopyFrom q k bs = (s.queKeeps q k bs).queCopyTo q { k with data := bs } := by
  rw [State.queCopyFrom, hcmds]
  simp [State.queKeeps]

theorem que_wrStoreAt (s : State) (a : Nat) (bs : List Byte) (q : Nat) : (s.wrStoreAt a bs).que q = s.que q := rfl

/-- A COPY whose source has been read writes a range of the flock stores, and is done. -/
theorem queCopyFrom_store (h : OnlyCommand s q k) {bs : List Byte} (hdst : k.dstHost = false) (hmem : memOf k.dst bs.length = some .store)
    (hcalm : (flocksOf .store k.dst bs.length).find? s.flockQuiet = none) (hshadow : s.fld .drvShadowStatus 0 0 63 61 ≠ 1) :
    CommandDone (s.queCopyFrom q k bs) q k stOk bs.length bs ∧
      (s.queCopyFrom q k bs).store = Sparse.writeBytes s.store (k.dst - storeBase) bs ∧ (s.queCopyFrom q k bs).out = s.out := by
  have hto : s.queCopyFrom q k bs =
      ((s.queKeeps q k bs).wrStoreAt (k.dst - storeBase) bs).queDone q { k with data := bs } stOk bs.length :=
    (queCopyFrom_only h.cmds bs).trans (queCopyTo_store (s := s.queKeeps q k bs) (k := { k with data := bs }) hdst hmem hcalm hshadow)
  have hque : (((s.queKeeps q k bs).wrStoreAt (k.dst - storeBase) bs).que q).cmds = [{ k with data := bs }] := by
    rw [que_wrStoreAt, State.queKeeps, que_setQue_same]
  rw [hto]
  refine ⟨queDone_done (k := { k with data := bs }) hque h.heard h.runs stOk bs.length, ?_⟩
  rw [queDone_only hque h.heard h.runs]
  exact ⟨rfl, rfl⟩

/-- A COPY whose source has been read writes to the host, and is done. -/
theorem queCopyFrom_host (h : OnlyCommand s q k) {bs : List Byte} (hdst : k.dstHost = true) :
    CommandDone (s.queCopyFrom q k bs) q k stOk k.len bs ∧
      (s.queCopyFrom q k bs).store = s.store ∧ (s.queCopyFrom q k bs).out = s.out ++ [.hostWrite k.dst bs] := by
  have hto : s.queCopyFrom q k bs = ((s.queKeeps q k bs).emit (.hostWrite k.dst bs)).queDone q { k with data := bs } stOk k.len :=
    (queCopyFrom_only h.cmds bs).trans (queCopyTo_host hdst)
  have hque : (((s.queKeeps q k bs).emit (.hostWrite k.dst bs)).que q).cmds = [{ k with data := bs }] :=
    congrArg CmdQueue.cmds (que_setQue_same ..)
  rw [hto]
  refine ⟨queDone_done (k := { k with data := bs }) hque h.heard h.runs stOk k.len, ?_⟩
  rw [queDone_only hque h.heard h.runs]
  exact ⟨rfl, rfl⟩

theorem exec_queueCopy {n : Nat} {host : List Byte} (h : OnlyCommand s q k) (hop : k.op = 1) (hok : k.copyBad = none)
    (hcache : k.srcHost = false ∧ k.dstHost = false ∨ s.cacheStopped = false) (hn : n = 0) :
    exec (.queueCopy q n host) s = .next (
      if k.srcHost then (if host.length = k.len then s.queCopyFrom q k host else s)
      else match s.tryReadMem (k.reqAt q k.src) 0x4 k.len with
        | (s, none) => s
        | (s, some (st, bs)) =>
          if st ≠ stOk then s.queFail q k st (k.src % 2 ^ 48) 0
          else if k.dstHost then s.queCopyFrom q k bs
          else s.queCopyLocal q k bs) := by
  subst hn
  have hgo : (((k.srcHost && k.data == []) || k.dstHost) && s.cacheStopped) = false := by
    rcases hcache with ⟨hs, hd⟩ | hc
    · rw [hs, hd]; rfl
    · rw [hc, Bool.and_false]
  show execQueueCopy q 0 host s = _
  rw [execQueueCopy, onQueue, inRange_next h.queue]
  rw [runnable_only h hop]
  dsimp only
  rw [hok]
  dsimp only
  rw [hgo]
  simp only [Bool.false_eq_true, if_false, h.empty, ne_eq, not_true_eq_false] <;> rfl

end

/-- Settles O38: each command by the equation of its step, for a queue with one command. -/
theorem queueCommandsComplete : Obligations.QueueCommandsComplete := by
  unfold Obligations.QueueCommandsComplete
  intro s q n k hq hmute hdata hcmds hn hres hrun
  subst hn
  have h : OnlyCommand s q k := ⟨hq, hmute, hdata, hcmds, hres, hrun⟩
  dsimp only
  have hdone (st m : Nat) : CommandDone (s.queDone q k st m) q k st m [] := hdata ▸ queDone_done hcmds hmute hrun st m
  refine ⟨fun hop => ?nop, fun hop => ?fence, fun f off w hop haligned hloc hup hadd => ?signal, fun f off c hop haligned hloc hup hadd => ?faults,
    fun host hop hsrc hdst hok hcache hlen hlong hshadow hstore => ?fromHost, fun hop hsrc hdst hok hcache hstore => ?toHost,
    fun hop hsrc hdst hok hapart hshadow hfrom hto => ?stores, fun st a host hop hbad => ?bad⟩
  case nop => exact ⟨_, exec_queueNop h hop, hdone .., by rw [queDone_only hcmds hmute hrun]; rfl⟩
  case fence => exact ⟨_, exec_queueFence h hop, hdone .., by rw [queDone_only hcmds hmute hrun]; rfl⟩
  case signal =>
    refine ⟨_, exec_queueSignal h hop haligned hloc hup, ?_⟩
    rw [State.addSignal, State.sigWord, hadd]
    dsimp only
    rw [if_pos rfl]
    have hsame : (s.setSigWord (.store f off) w).que q = s.que q := rfl
    refine ⟨?_, ?_⟩
    · have hd := queDone_done (t := s.setSigWord (.store f off) w) (hsame ▸ hcmds) hmute hrun stOk 0
      rw [hdata] at hd
      exact hd
    · rw [queDone_only (s := s.setSigWord (.store f off) w) (hsame ▸ hcmds) hmute hrun]
      exact rdStore_wrStore s f off (leBytes 8 w)
  case faults =>
    refine ⟨_, exec_queueSignal h hop haligned hloc hup, ?_⟩
    rw [State.addSignal, State.sigWord, hadd]
    dsimp only [SigPlace.parts, Option.getD_none]
    rw [if_neg (by decide)]
    obtain ⟨hque, hstate⟩ := sigLog_keepsQueue s f hq c 0x3 false 0 off
    refine ⟨?_, ?_⟩
    · have hd := queFail_done (hque ▸ hcmds) hmute (hstate.trans hrun) stRefused (k.dst % 2 ^ 48) 0
      rw [hdata] at hd
      exact hd
    · exact ((queFail_memory (hque ▸ hcmds) hmute (hstate.trans hrun) ..).1).trans (sigLog_logOnly ..).store
  case fromHost =>
    obtain ⟨hmem, hcalm⟩ := hstore
    rw [← hlen] at hmem hcalm
    obtain ⟨hend, hwritten, hout⟩ := queCopyFrom_store h hdst hmem hcalm hshadow
    have hexec := exec_queueCopy (host := host) h hop hok (.inr hcache) rfl
    rw [hsrc, if_pos rfl, if_pos hlen] at hexec
    rw [← hlen]
    refine ⟨_, hexec, hend, ?_, hout, fun a ha => ?_⟩
    · rw [hwritten, Sparse.readBytes_writeBytes]
    · rw [hwritten, Sparse.get_writeBytes_outside ha]
  case toHost =>
    obtain ⟨hmem, hcalm⟩ := hstore
    have hexec := exec_queueCopy (host := []) h hop hok (.inr hcache) rfl
    rw [hsrc, if_neg (by decide), State.tryReadMem_store (r := k.reqAt q k.src) hmem hcalm] at hexec
    dsimp only at hexec
    rw [if_neg (not_not.mpr rfl), hdst, if_pos rfl] at hexec
    obtain ⟨hend, hstore, hout⟩ := queCopyFrom_host h (bs := Sparse.readBytes s.store (k.src - storeBase) k.len) hdst
    exact ⟨_, hexec, hend, hout, hstore⟩
  case stores =>
    obtain ⟨hmem, hcalm⟩ := hfrom
    have hlen : (Sparse.readBytes s.store (k.src - storeBase) k.len).length = k.len := Sparse.readBytes_length ..
    have hexec := exec_queueCopy (host := []) h hop hok (.inl ⟨hsrc, hdst⟩) rfl
    rw [hsrc, if_neg (by decide), State.tryReadMem_store (r := k.reqAt q k.src) hmem hcalm] at hexec
    dsimp only at hexec
    rw [if_neg (not_not.mpr rfl), hdst, if_neg (by decide), State.queCopyLocal, State.copied, hapart] at hexec
    obtain ⟨hmem', hcalm'⟩ := hto
    rw [← hlen] at hmem' hcalm'
    obtain ⟨hend, hwritten, -⟩ := queCopyFrom_store h hdst hmem' hcalm' hshadow
    rw [hlen] at hend
    refine ⟨_, hexec, hend, ?_, fun a ha => ?_⟩
    · have hread := Sparse.readBytes_writeBytes s.store (k.dst - storeBase) (Sparse.readBytes s.store (k.src - storeBase) k.len)
      rw [hlen] at hread
      exact (congrArg (fun m => Sparse.readBytes m (k.dst - storeBase) k.len) hwritten).trans hread
    · exact (congrArg (fun m => Sparse.get 0 m a) hwritten).trans (Sparse.get_writeBytes_outside (by rw [hlen]; exact ha))
  case bad =>
    refine ⟨s.queFail q k st a 0, ?_, ?_, queFail_memory hcmds hmute hrun ..⟩
    · show execQueueCopy q 0 host s = _
      rw [execQueueCopy, onQueue, inRange_next hq]
      rw [runnable_only h hop]
      dsimp only
      rw [hbad]
    · have hd := queFail_done hcmds hmute hrun st a 0
      rw [hdata] at hd
      exact hd

end Sys2Proof.Machine

/-! SUPPORT. Scrubs, fills, wipes and the write gate of a stack (R283, R286, R307 to R318; O34). -/

namespace Sys2Proof.Machine

/-! ### The addresses of a bale (R284, R285) -/

/-- The local address of a place of a stack is stored at that place. -/
theorem stackPlace_localOf {s : State} {i q off : Nat} (hi : i < 12) (hq : q < 2 ^ 25) (hoff : off < 4096) :
    stackPlace s.inter (s.localOf i q off) = (i, q * 4096 + off) := by
  unfold State.localOf stackPlace
  cases s.inter with
  | true =>
    generalize hh : nibbleSum q = h
    have hbale : ((q * 12 + (i + 12 - h % 12) % 12) * 4096 + off) / 4096 = q * 12 + (i + 12 - h % 12) % 12 := by omega
    have hindex : (q * 12 + (i + 12 - h % 12) % 12) / 12 = q := by omega
    simp only [if_true, hbale, hindex, hh, Prod.mk.injEq]
    omega
  | false =>
    simp only [Bool.false_eq_true, if_false, Prod.mk.injEq]
    omega

section
variable {s : State} {i q : Nat}

theorem stackOf_localOf {off : Nat} (hi : i < 12) (hq : q < 2 ^ 25) (hoff : off < 4096) : s.stackOf (s.localOf i q off) = i :=
  congrArg Prod.fst (stackPlace_localOf hi hq hoff)

theorem phys_localOf {off : Nat} (hi : i < 12) (hq : q < 2 ^ 25) (hoff : off < 4096) :
    s.phys (s.localOf i q off) = i * 2 ^ 37 + (q * 4096 + off) := by
  rw [State.phys, stackPlace_localOf hi hq hoff]

/-- The bale and the sectors of a scrubbed bale. -/
theorem baleOf_localOf (hi : i < 12) (hq : q < 2 ^ 25) : baleOf (s.phys (s.localOf i q 0)) = i * 2 ^ 25 + q := by
  rw [phys_localOf hi hq (by decide), baleOf]
  omega

theorem sectorOf_localOf {k : Nat} (hi : i < 12) (hq : q < 2 ^ 25) (hk : k < 128) :
    s.phys (s.localOf i q (k * 32)) / 32 = (i * 2 ^ 25 + q) * 128 + k := by
  rw [phys_localOf hi hq (by omega)]
  omega

end

/-! ### Sectors with errors -/

theorem sectorsIn_cons (e : Nat × Bool) (m : SMap Bool) (b : Nat) :
    sectorsIn (e :: m) b = (if e.2 && e.1 / 128 == b then [e.1] else []) ++ sectorsIn m b := by
  unfold sectorsIn
  rw [List.filter_cons]
  split <;> rfl

/-- A sector of a bale without errors has none. -/
theorem get_of_sectorsIn {m : SMap Bool} {b key : Nat} (h : sectorsIn m b = []) (hb : key / 128 = b) : Sparse.get false m key = false := by
  induction m with
  | nil => rfl
  | cons e m ih =>
    rw [sectorsIn_cons, List.append_eq_nil_iff] at h
    obtain ⟨he, hm⟩ := h
    rw [Sparse.get]
    split
    · next heq =>
      rw [← heq, hb, beq_self_eq_true, Bool.and_true] at he
      cases hv : e.2
      · rfl
      · rw [hv] at he; cases he
    · exact ih hm

/-- The only sector of a bale with an error. -/
theorem sectorsIn_set {m : SMap Bool} {b key : Nat} (h : sectorsIn m b = []) (hb : key / 128 = b) :
    sectorsIn (Sparse.set false m key true) b = [key] := by
  have hnew (m : SMap Bool) : sectorsIn ((key, true) :: m) b = key :: sectorsIn m b := by
    rw [sectorsIn_cons, if_pos (by simp [hb])]
    rfl
  have hinsert : Sparse.set false m key true = Sparse.insert m key true := if_neg (by decide)
  rw [hinsert]
  clear hinsert
  induction m with
  | nil => exact hnew []
  | cons e m ih =>
    have hall := h
    rw [sectorsIn_cons, List.append_eq_nil_iff] at h
    obtain ⟨he, hm⟩ := h
    rw [Sparse.insert]
    split
    · rw [hnew, hm]
    · split
      · rw [hnew, hall]
      · rw [sectorsIn_cons, he, ih hm]
        rfl

theorem sectorsIn_erase {m : SMap Bool} {b key : Nat} (h : sectorsIn m b = []) : sectorsIn (Sparse.erase m key) b = [] := by
  induction m with
  | nil => rfl
  | cons e m ih =>
    rw [sectorsIn_cons, List.append_eq_nil_iff] at h
    obtain ⟨he, hm⟩ := h
    rw [Sparse.erase]
    split
    · exact ih hm
    · rw [sectorsIn_cons, he, ih hm]
      rfl

/-! ### Scrubs (R309) -/

section
variable {s t : State} {i q : Nat}

/-- A stack stays at rest where a read has changed the errors that sectors hold and counters of the stack. -/
theorem State.Plain.of_reads (h : s.Plain i) (hreads : ReadsOnly s t) (hout : RegsOutside (bankRegs i) s t) : t.Plain i := by
  obtain ⟨hi, hopen, hgate, hents, hwaiting, hresults, htrk, hsnoops, hlines, hbrought, hwindows⟩ := h
  have hbit (b : Nat) : t.rbit .stkStatus i 0 b = s.rbit .stkStatus i 0 b := hout.rbit (by simp [bankRegs, Reg.addr, Reg.row, Block.base]; omega) b
  have hstk : t.stk i = s.stk i := by rw [State.stk, hreads.stks, ← State.stk]
  have hunshared := hreads.unshared (t := t) ⟨htrk, hsnoops, hbrought, hwindows⟩
  refine ⟨hi, ?_, ?_, by rw [hstk, hents], by rw [hstk, hwaiting], by rw [hstk, hresults], hunshared.trk, hunshared.snoops,
    (congrArg (fun u : State => u.ni.lines) hreads).trans hlines, hunshared.brought, hunshared.windows⟩
  · rw [← hopen, State.stkOpen, State.stkReady, State.initBusy, hbit, hbit, hreads.rst]
    rfl
  · rw [← hgate, State.gateClosed, hbit]
    rfl

/-- The interface's own write of a scrubbed sector is performed at once. -/
theorem State.Plain.arrive_scrub (h : s.Plain i) (r : StackReq) : ∃ stks, s.arrive i r .scrub .none =
    { s with weak := Sparse.erase s.weak (s.phys r.addr / 32), stks := stks } := by
  obtain ⟨pool, hpool⟩ := h.room r
  have harrival : s.arrivalRoom i r .scrub = some pool := by
    simp [State.arrivalRoom, State.roomFor, h.gate, StkAcc.entries, hpool, Stk.contended, h.waiting]
  have henter : (s.modStk i fun k => k.enter (stkEnt r .scrub .none pool)) = s.holding i (stkEnt r .scrub .none pool) := by
    simp [State.modStk, State.holding, Stk.enter, h.ents]
  generalize he : stkEnt r .scrub .none pool = e at henter
  obtain ⟨hacc, howner, hreq⟩ : e.acc = .scrub ∧ e.owner = .none ∧ e.req = r := he ▸ ⟨rfl, rfl, rfl⟩
  have hun := h.holding_unshared e
  have hready := hun.entReady (i := i) (e := e) h.gate (by rw [howner]; exact StkOwner.noConfusion)
  have hgrant : (s.holding i e).grantFor e .go = (s.holding i e, true) := by
    unfold State.grantFor
    rw [hacc]
  have hperf : (s.holding i e).perfEnt e = ((s.holding i e).rewritten (s.phys r.addr / 32), Served.of stOk) := by
    unfold State.perfEnt State.writeHere
    simp only [hacc, StkAcc.isWrite, if_true, hun.useLines, hun.away, Bool.false_eq_true, if_false, hreq]
    rfl
  have hend : (s.holding i e).endEnt i e .go = ((s.holding i e).rewritten (s.phys r.addr / 32)).modStk i fun k =>
      { k with ents := k.ents.erase e } := by
    unfold State.endEnt State.answer
    simp only [hperf, howner]
  simp only [State.arrive, h.isOpen, Bool.not_true, Bool.false_eq_true, if_false, h.grantAll, harrival, he, henter]
  rw [State.serve, State.holding_ents, List.foldl_cons, List.foldl_nil, State.serveEnt]
  simp [State.holding_ents, hready, hgrant, hacc, hend, State.modStk]
  exact ⟨_, rfl⟩

theorem exec_scrub {errs : Errs} (h : s.Plain i) (hq : q < 2 ^ 25) : exec (.scrub i q errs) s = .next (
    let t := s.eccs (s.localOf i q 0) 128 errs
    let u := (sectorsIn t.bad (i * 2 ^ 25 + q)).foldl (fun s k => s.scrubBad i q k) t
    (sectorsIn u.weak (baleOf (u.phys (s.localOf i q 0)))).foldl (fun s k => s.scrubBack i q k) u) := by
  have hi : i < 12 := h.1
  have hbehind : s.behind (s.localOf i q 0) = false := by
    rw [State.behind, stackOf_localOf hi hq (by decide), h.ents]
    rfl
  have hphys : (s.eccs (s.localOf i q 0) 128 errs).phys (s.localOf i q 0) = s.phys (s.localOf i q 0) := by
    rw [(eccs_eccOnly s (s.localOf i q 0) 128 errs).reads.phys]
  show execScrub i q errs s = _
  unfold execScrub
  rw [inRange_next hi]
  simp only [h.isOpen, hbehind, decide_eq_true hq, Bool.and_self, Bool.not_false, if_true, hphys, baleOf_localOf hi hq]

/-- What the ECC finds at one sector of a scrubbed bale. -/
theorem eccs_localOf {k : Nat} (hk : k < 128) (x : Ecc) :
    s.eccs (s.localOf i q 0) 128 [(k, x)] = s.ecc (s.phys (s.localOf i q (k * 32))) x := by
  have haddr : s.localOf i q 0 / 32 * 32 + 32 * k = s.localOf i q (k * 32) := by
    unfold State.localOf
    split <;> omega
  rw [State.eccs, List.foldl_cons, List.foldl_nil, if_pos hk, haddr]

/-- The state in which the ECC has found a single-bit error, or an uncorrectable one, at a sector. -/
def State.weakSectorAt (s : State) (n : Nat) : State := { s with weak := Sparse.set false s.weak n true }
def State.badSectorAt (s : State) (n : Nat) : State := { s with bad := Sparse.set false s.bad n true, weak := Sparse.erase s.weak n }

/-- A sector that the ECC corrects is counted and written back. -/
theorem exec_scrub_corrected (h : s.Plain i) (hq : q < 2 ^ 25) {k : Nat} (hk : k < 128) (hbad : sectorsIn s.bad (i * 2 ^ 25 + q) = [])
    (hweak : sectorsIn s.weak (i * 2 ^ 25 + q) = []) :
    exec (.scrub i q [(k, .corrected)]) s = .next ((s.weakSectorAt ((i * 2 ^ 25 + q) * 128 + k)).scrubBack i q ((i * 2 ^ 25 + q) * 128 + k)) := by
  have hkey : ((i * 2 ^ 25 + q) * 128 + k) / 128 = i * 2 ^ 25 + q := by omega
  have hgood : s.badSector ((i * 2 ^ 25 + q) * 128 + k) = false := get_of_sectorsIn hbad hkey
  have hecc : s.eccs (s.localOf i q 0) 128 [(k, .corrected)] =
      s.weakSectorAt ((i * 2 ^ 25 + q) * 128 + k) := by
    rw [eccs_localOf hk, State.ecc, sectorOf_localOf h.1 hq hk, hgood, if_neg (by decide)]
    rfl
  have hphys (n : Nat) : (s.weakSectorAt n).phys = s.phys := rfl
  have hmap (n : Nat) : (s.weakSectorAt n).bad = s.bad ∧ (s.weakSectorAt n).weak = Sparse.set false s.weak n true := ⟨rfl, rfl⟩
  rw [exec_scrub h hq, hecc]
  dsimp only
  rw [(hmap _).1, hbad, List.foldl_nil, hphys, (hmap _).2, baleOf_localOf h.1 hq, sectorsIn_set hweak hkey, List.foldl_cons, List.foldl_nil]

/-- A sector with an uncorrectable error is counted and logged. -/
theorem exec_scrub_uncorrectable (h : s.Plain i) (hq : q < 2 ^ 25) {k : Nat} (hk : k < 128) (hbad : sectorsIn s.bad (i * 2 ^ 25 + q) = [])
    (hweak : sectorsIn s.weak (i * 2 ^ 25 + q) = []) :
    exec (.scrub i q [(k, .uncorrectable)]) s = .next ((s.badSectorAt ((i * 2 ^ 25 + q) * 128 + k)).scrubBad i q ((i * 2 ^ 25 + q) * 128 + k)) := by
  have hkey : ((i * 2 ^ 25 + q) * 128 + k) / 128 = i * 2 ^ 25 + q := by omega
  have hecc : s.eccs (s.localOf i q 0) 128 [(k, .uncorrectable)] = s.badSectorAt ((i * 2 ^ 25 + q) * 128 + k) := by
    rw [eccs_localOf hk, State.ecc, sectorOf_localOf h.1 hq hk]
    rfl
  have hlog (t : State) (n : Nat) : LogOnly t (t.scrubBad i q n) := uncorrected_logOnly ..
  have hphys (t : State) (n : Nat) : (t.scrubBad i q n).phys = t.phys := by
    unfold State.phys
    rw [(hlog t n).inter]
  have hsame (n : Nat) : (s.badSectorAt n).phys = s.phys := rfl
  have hmap (n : Nat) : (s.badSectorAt n).bad = Sparse.set false s.bad n true ∧ (s.badSectorAt n).weak = Sparse.erase s.weak n := ⟨rfl, rfl⟩
  rw [exec_scrub h hq, hecc]
  dsimp only
  rw [(hmap _).1, sectorsIn_set hbad hkey, List.foldl_cons, List.foldl_nil, (hlog _ _).weak, (hmap _).2, hphys, hsame, baleOf_localOf h.1 hq,
    sectorsIn_erase hweak, List.foldl_nil]

/-- A scrubbed sector is written back after it has been counted. -/
theorem scrubBack_eq (h : s.Plain i) (hq : q < 2 ^ 25) {k : Nat} (hk : k < 128) : ∃ stks, s.scrubBack i q ((i * 2 ^ 25 + q) * 128 + k) =
    { s.corrected i 1 with weak := Sparse.erase s.weak ((i * 2 ^ 25 + q) * 128 + k), stks := stks } := by
  have hplain := h.of_reads (corrected_readsOnly s i 1) (corrected_outside s i 1)
  have hplace : ((i * 2 ^ 25 + q) * 128 + k) % 128 = k := by omega
  obtain ⟨stks, harrive⟩ := hplain.arrive_scrub { source := 6, core := 0, addr := s.localOf i q (k * 32) }
  have hphys : (s.corrected i 1).phys = s.phys := (corrected_readsOnly s i 1).phys
  rw [hphys, sectorOf_localOf h.1 hq hk, (corrected_logOnly s i 1).weak] at harrive
  refine ⟨stks, ?_⟩
  rw [State.scrubBack, hplace, harrive]

/-- What the write of a corrected sector leaves, and its count. -/
theorem scrubBack_spec (h : s.Plain i) (hq : q < 2 ^ 25) {k : Nat} (hk : k < 128) {t : State}
    (ht : s.scrubBack i q ((i * 2 ^ 25 + q) * 128 + k) = t) :
    t.dram = s.dram ∧ t.bad = s.bad ∧ t.weakSector ((i * 2 ^ 25 + q) * 128 + k) = false ∧
      t.fld .stkEcc i 0 63 32 = min (s.fld .stkEcc i 0 63 32 + 1) (2 ^ 32 - 1) := by
  obtain ⟨stks, hback⟩ := scrubBack_eq h hq hk
  rw [ht] at hback
  obtain ⟨hcount, -⟩ := corrected_counts s i 1
  refine ⟨?_, ?_, ?_, ?_⟩
  · rw [hback, ← (corrected_readsOnly s i 1).dram]
  · rw [hback, ← (corrected_logOnly s i 1).bad]
  · rw [State.weakSector, hback]
    exact Sparse.get_erase_same
  · have hregs : t.regs = (s.corrected i 1).regs := by rw [hback]
    rw [State.fld, reg_congr hregs, ← State.fld, hcount]

/-- The count of uncorrectable sectors, the bad sectors and the log after a scrub found one. -/
theorem scrubBad_spec (hi : i < 12) (n : Nat) :
    let t := s.scrubBad i q n
    t.dram = s.dram ∧ t.bad = s.bad ∧ t.fld .stkEcc i 0 31 0 = min (s.fld .stkEcc i 0 31 0 + 1) (2 ^ 32 - 1) ∧
      (bit (s.reg .stkFaultInfo i 0) 63 = false → bits (t.reg .stkFaultInfo i 0) 23 20 = 6) := by
  have hlog : LogOnly s (s.scrubBad i q n) := uncorrected_logOnly ..
  have hne : Reg.stkEcc.addr i 0 ≠ Reg.stkFaultInfo.addr i 0 ∧ Reg.stkEcc.addr i 0 ≠ Reg.stkFaultAddr.addr i 0 ∧
      Reg.stkEcc.addr i 0 ≠ Reg.drvEvtStatus.addr 0 0 ∧ Reg.stkFaultInfo.addr i 0 ≠ Reg.stkFaultAddr.addr i 0 := by
    simp [Reg.addr, Reg.row, Block.base]
    omega
  obtain ⟨hinfo, haddr, hevt, hapart⟩ := hne
  have hnot : Reg.stkEcc.addr i 0 ∉
      ({Reg.stkFaultInfo.addr i 0, Reg.stkFaultAddr.addr i 0, Reg.drvEvtStatus.addr 0 0} : Set Nat) := by
    rintro (h | h | h)
    exacts [hinfo h, haddr h, hevt h]
  refine ⟨hlog.dram, hlog.bad, ?_, fun hfirst => ?_⟩
  · rw [State.scrubBad, State.uncorrected, State.stkLog, (log_outside ..).fld hnot, State.addFld,
      State.fld_setFld_same _ _ _ _ _ _ _ (by decide)]
    have hlt : min (s.fld .stkEcc i 0 31 0 + 1) (2 ^ (31 + 1 - 0) - 1) < 2 ^ (31 + 1 - 0) := lt_of_le_of_lt (Nat.min_le_right ..) (by decide)
    rw [Nat.mod_eq_of_lt hlt]
  · have hold : (s.addFld .stkEcc i 0 31 0 1).reg .stkFaultInfo i 0 = s.reg .stkFaultInfo i 0 :=
      State.reg_setFld_ne _ _ _ _ _ _ _ _ _ _ hinfo.symm
    rw [State.scrubBad, State.uncorrected, State.stkLog, reg_log _ (by decide) (by rintro x ⟨⟩; exact hapart), hold, logEntry_first hfirst,
      bits_mod_word _ (by decide), bits_setBits_ne _ _ _ _ _ _ (.inl (by decide)), bits_firstEntry (by decide)]
    decide

end

/-! ### Requests that a closed stack refuses (R312) -/

/-- What a refusal leaves: the content of memory, the status of the stack, and its entries. -/
structure Refuses (i : Nat) (s t : State) : Prop where
  dram    : t.dram = s.dram
  status  : t.reg .stkStatus i 0 = s.reg .stkStatus i 0
  ents    : (t.stk i).ents = (s.stk i).ents
  waiting : (t.stk i).waiting = (s.stk i).waiting
  wiping  : (t.stk i).wiping = (s.stk i).wiping

section
variable {s t u : State} {i : Nat}

theorem Refuses.refl (s : State) : Refuses i s s := ⟨rfl, rfl, rfl, rfl, rfl⟩

theorem Refuses.trans (h : Refuses i s t) (h' : Refuses i t u) : Refuses i s u :=
  ⟨h'.dram.trans h.dram, h'.status.trans h.status, h'.ents.trans h.ents, h'.waiting.trans h.waiting, h'.wiping.trans h.wiping⟩

theorem stk_congr (h : t.stks = s.stks) (i : Nat) : t.stk i = s.stk i := by rw [State.stk, h, ← State.stk]

theorem RegsOnly.logOnly (h : RegsOnly s t) : LogOnly s t := by
  unfold RegsOnly at h
  unfold LogOnly
  rw [h]

theorem Refuses.of_stks (hdram : t.dram = s.dram) (hregs : t.reg .stkStatus i 0 = s.reg .stkStatus i 0) (h : t.stks = s.stks) :
    Refuses i s t := by
  have hstk := stk_congr h i
  exact ⟨hdram, hregs, congrArg Stk.ents hstk, congrArg Stk.waiting hstk, congrArg Stk.wiping hstk⟩

theorem emit_refuses (s : State) (o : Output) : Refuses i s (s.emit o) := .of_stks rfl rfl rfl

theorem putResult_refuses (s : State) (x : StkRes) : Refuses i s (s.putResult i x) := by
  have hstk : (s.putResult i x).stk i = { s.stk i with results := (s.stk i).results ++ [x] } := s.stk_modStk_same i _
  exact ⟨rfl, rfl, by rw [hstk], by rw [hstk], by rw [hstk]⟩

/-- A fill that is answered changes the state of its line at the NI alone. -/
theorem filled_ni (s : State) (line st : Nat) : ∃ n, s.filled line st = { s with ni := n } := by
  unfold State.filled
  split
  · split <;> exact ⟨_, rfl⟩
  · split <;> exact ⟨_, rfl⟩
  · exact ⟨_, rfl⟩

theorem cxlLog_refuses (s : State) (hi : i < 12) (addr status path queue core : Nat) : Refuses i s (s.cxlLog addr status path queue core) := by
  have hlog := cxlLog_logOnly s addr status path queue core
  refine .of_stks hlog.dram ((cxlLog_outside ..).reg _ _ _ ?_) hlog.stks
  simp [Reg.addr, Reg.row, Block.base]
  omega

theorem stkRefuse_refuses (s : State) (a source core : Nat) : Refuses i s (s.stkRefuse i a source core) := by
  have hlog := stkRefuse_logOnly s i a source core
  have hstatus : Reg.stkStatus.addr i 0 ∉ bankRegs i := by
    simp [bankRegs, Reg.addr, Reg.row, Block.base]
    omega
  refine .of_stks hlog.dram ?_ hlog.stks
  unfold State.stkRefuse
  exact ((resetLog_droverOnly ..).reg _ _ _ (by decide)).trans ((stkLog_outside ..).reg _ _ _ hstatus)

theorem answer_refuses (s : State) (hi : i < 12) (e : StkEnt) (v : Served) : Refuses i s (s.answer i e v) := by
  unfold State.answer
  split
  · exact putResult_refuses ..
  · exact .of_stks rfl ((setFld_droverOnly rfl ..).reg _ _ _ (by decide)) rfl
  · exact emit_refuses ..
  · obtain ⟨n, hn⟩ := filled_ni s e.req.addr v.status
    rw [hn]
    exact .of_stks rfl rfl rfl
  · exact .refl s
  · have hlogged : Refuses i s (if v.status = stOk then s else (s.cxlLog e.req.addr v.status 0x1 0 0).emit .aer) := by
      split
      · exact .refl s
      · exact (cxlLog_refuses s hi ..).trans (emit_refuses ..)
    have hsend (u : State) (hu : Refuses i s u) (w : Bool) (o o' : Output) :
        Refuses i s (if !u.hostTraffic then u else if w then u.emit o else u.emit o') := by
      split
      · exact hu
      · split
        · exact hu.trans (emit_refuses ..)
        · exact hu.trans (emit_refuses ..)
    exact hsend _ hlogged ..

/-- Every request of a stack is refused, and none stays. -/
theorem refuseAll_refuses (s : State) (hi : i < 12) : Refuses i (s.modStk i fun k => { k with ents := [], waiting := [] }) (s.refuseAll i) := by
  unfold State.refuseAll
  exact List.foldlRecOn (motive := fun t => Refuses i (s.modStk i fun k => { k with ents := [], waiting := [] }) t) _ _ (.refl _)
    fun t h e _ => h.trans ((stkRefuse_refuses ..).trans (answer_refuses _ hi ..))

end

/-! ### Fills and wipes (R310 to R312) -/

section
variable {s : State} {i : Nat}

/-- A cleared stack holds zero, and every other stack what it held. -/
theorem clearStack_dram (s : State) (i a : Nat) : Sparse.get 0 (s.clearStack i).dram a = if a / 2 ^ 37 = i then 0 else Sparse.get 0 s.dram a := by
  rw [State.clearStack, Sparse.get_drop]
  simp only [beq_iff_eq]

theorem clearStack_bale (s : State) {i b : Nat} (h : b / 2 ^ 25 = i) : (s.clearStack i).bale b = Meta.fresh := by
  rw [State.bale, State.clearStack, Sparse.get_drop, if_pos (beq_iff_eq.mpr h)]

/-- A stack that comes up is ready, and still to be wiped where a wipe was asked for; nothing but registers changes. -/
theorem stackUp_spec (s : State) (hi : i < 12) : (s.stackUp i).stkReady i = true ∧ (s.stackUp i).initBusy i = (s.stk i).wiping ∧
    RegsOnly s (s.stackUp i) := by
  have hcxl : Reg.stkStatus.addr i 0 ≠ Reg.cxlStatus.addr 0 0 := by
    simp [Reg.addr, Reg.row, Block.base]
    omega
  have hready : ((s.setRbit .stkStatus i 0 63 true).setRbit .stkStatus i 0 62 (s.stk i).wiping).stkReady i = true := by
    rw [State.stkReady, State.rbit_setRbit_ne _ _ _ _ _ _ _ (by decide) (by decide), State.rbit_setRbit_same _ _ _ _ _ _ (by decide)]
  have hbusy : ((s.setRbit .stkStatus i 0 63 true).setRbit .stkStatus i 0 62 (s.stk i).wiping).initBusy i = (s.stk i).wiping :=
    State.rbit_setRbit_same _ _ _ _ _ _ (by decide)
  have honly : RegsOnly s ((s.setRbit .stkStatus i 0 63 true).setRbit .stkStatus i 0 62 (s.stk i).wiping) :=
    ((RegsOnly.refl s).setRbit ..).setRbit ..
  have hother (t : State) (b : Nat) : (t.setRbit .cxlStatus 0 0 57 true).rbit .stkStatus i 0 b = t.rbit .stkStatus i 0 b := by
    rw [State.rbit, State.setRbit, State.reg_setFld_ne _ _ _ _ _ _ _ _ _ _ hcxl, ← State.rbit]
  unfold State.stackUp
  dsimp only
  split
  · refine ⟨?_, ?_, honly.setRbit ..⟩
    · rw [State.stkReady, hother]
      exact hready
    · rw [State.initBusy, hother]
      exact hbusy
  · exact ⟨hready, hbusy, honly⟩

theorem exec_zeroFill (hi : i < 12) (htrained : (s.stk i).trained = true) (howed : (s.stk i).owed = true) (hgate : s.gateClosed i = false) :
    exec (.zeroFill i) s = .next (((s.clearStack i).modStk i fun k => { k with owed := false }).stackUp i) := by
  show execZeroFill i s = _
  unfold execZeroFill
  rw [inRange_next hi]
  simp only [htrained, howed, hgate, Bool.and_self, Bool.not_false, if_true]

theorem exec_wipe (hi : i < 12) (hunloaded : s.rbit .drvSelf 0 0 30 = false) (hfree : s.initBusy i = false) :
    exec (.wipe i) s = .next (((s.setRbit .stkStatus i 0 62 true).modStk i fun k => { k with wiping := true }).refuseAll i) := by
  show execWipe i s = _
  unfold execWipe
  rw [inRange_next hi]
  simp only [hunloaded, hfree, Bool.false_eq_true, if_false]

theorem exec_wipeComplete (hi : i < 12) (hwiping : (s.stk i).wiping = true) (htrained : (s.stk i).trained = true)
    (hgate : s.gateClosed i = false) : exec (.wipeComplete i) s =
      .next (((s.clearStack i).modStk i fun k => { k with wiping := false }).setRbit .stkStatus i 0 62 false) := by
  show execWipeComplete i s = _
  unfold execWipeComplete
  rw [inRange_next hi]
  simp only [htrained, hwiping, hgate, Bool.and_self, Bool.not_false, if_true]

end

/-! ### Entries and the write gate (R283, R313 to R318) -/

section
variable {s : State} {i : Nat}

theorem exec_stackEntryGrant_waits (hi : i < 12) (h : (s.stk i).waiting = []) : exec (.stackEntryGrant i) s = .next s := by
  have hnone : s.nextWaiting i = none := by
    unfold State.nextWaiting
    simp only [h, List.filter_nil, List.foldl_nil]
  show execStackEntryGrant i s = _
  unfold execStackEntryGrant State.grantOne
  rw [inRange_next hi]
  simp only [hnone]

theorem exec_stackEntryGrant (hi : i < 12) {e : StkEnt} {pool : Nat} (hnext : s.nextWaiting i = some e) (hroom : s.roomFor i e.req e.acc = some pool) :
    exec (.stackEntryGrant i) s = .next (s.modStk i fun k => { (k.enter { e with pool := pool }) with
      waiting := k.waiting.erase e, rrClass := if 0 < pool then e.cls else k.rrClass,
      rrFlock := if e.cls = 0 then e.flock else k.rrFlock }).goOn := by
  show execStackEntryGrant i s = _
  unfold execStackEntryGrant State.grantOne
  rw [inRange_next hi]
  simp only [hnext, hroom]

theorem exec_writeGateChange (hi : i < 12) {closed : Bool} (h : s.rbit .thmStk 0 i 15 = closed) :
    exec (.writeGateChange i closed) s = .next (
      let t := (s.setRbit .stkStatus i 0 61 closed).setRbit .stkStatus i 0 59 (s.rbit .thmStk 0 i 14)
      if closed then t else t.goOn) := by
  have hthm : (s.setRbit .stkStatus i 0 61 closed).rbit .thmStk 0 i 14 = s.rbit .thmStk 0 i 14 := by
    rw [State.rbit, State.setRbit, State.reg_setFld_ne _ _ _ _ _ _ _ _ _ _ (by simp [Reg.addr, Reg.row, Block.base]; omega), ← State.rbit]
  show execWriteGateChange i closed s = _
  unfold execWriteGateChange
  rw [inRange_next hi, if_neg (not_not.mpr h), ← hthm]

theorem exec_heldWriteExpiry (hi : i < 12) {n : Nat} {e : StkEnt} (he : (s.heldWrites i)[n]? = some e) (hlimit : s.fld .stkGate i 0 15 0 ≠ 0)
    (howner : e.owner = .port ∨ e.owner = .unit) :
    exec (.heldWriteExpiry i n) s = .next (((s.stkLog i e.req.addr stDeferred e.req.source 0x4 e.req.core).modStk i fun k =>
      { k with ents := k.ents.erase e }).answer i e (Served.of stDeferred)) := by
  have hnot : ¬ (e.owner = .host ∨ e.owner = .fill ∨ e.owner = .none) := by
    rcases howner with h | h <;> rw [h] <;> decide
  show execHeldWriteExpiry i n s = _
  unfold execHeldWriteExpiry
  rw [inRange_next hi]
  simp only [he, hlimit, hnot, if_false]

end

/-- A wipe that starts refuses all that waits at its stack; `u` is the state with INIT_BUSY set (R311). -/
theorem wipeStarted_spec {s u : State} {i : Nat} (hi : i < 12) (hbusy : u.rbit .stkStatus i 0 62 = true) (hdram : u.dram = s.dram) :
    let t := (u.modStk i fun k => { k with wiping := true }).refuseAll i
    t.initBusy i = true ∧ (t.stk i).wiping = true ∧ (t.stk i).ents = [] ∧ (t.stk i).waiting = [] ∧ t.dram = s.dram := by
  have h := refuseAll_refuses (u.modStk i fun k => { k with wiping := true }) hi
  refine ⟨?_, ?_, ?_, ?_, h.dram.trans hdram⟩
  · rw [State.initBusy, State.rbit, h.status]
    exact hbusy
  · rw [h.wiping, State.stk_modStk_same, State.stk_modStk_same]
  · rw [h.ents, State.stk_modStk_same]
  · rw [h.waiting, State.stk_modStk_same]

/-- A held write that expires leaves its entry, is logged, and its requester is answered with DEFERRED (R317). -/
theorem heldWriteExpired_spec (s : State) (i : Nat) (e : StkEnt) (howner : e.owner = .port ∨ e.owner = .unit) :
    let t := ((s.stkLog i e.req.addr stDeferred e.req.source 0x4 e.req.core).modStk i fun k => { k with ents := k.ents.erase e }).answer i e
      (Served.of stDeferred)
    (t.stk i).ents = (s.stk i).ents.erase e ∧ t.dram = s.dram ∧ bit (t.reg .stkFaultInfo i 0) 63 = true ∧
      (e.owner = .port → Output.stack e.req stDeferred [] 0 0 ∈ t.out) ∧
      (e.owner = .unit → (t.stk i).results = (s.stk i).results ++ [{ req := e.req, status := stDeferred, data := [] }]) := by
  have hlog := stkLog_logOnly s i e.req.addr stDeferred e.req.source 0x4 e.req.core
  have hvalid : bit ((s.stkLog i e.req.addr stDeferred e.req.source 0x4 e.req.core).reg .stkFaultInfo i 0) 63 = true := by
    rw [State.stkLog, reg_log _ (by decide) (by rintro x ⟨⟩; simp [Reg.addr, Reg.row, Block.base]), bit_eq_testBit_bits,
      bits_mod_word _ (by decide), bits_setBits_ne _ _ _ _ _ _ (.inr (by decide)), ← bit_eq_testBit_bits, bit_logEntry_valid]
  generalize s.stkLog i e.req.addr stDeferred e.req.source 0x4 e.req.core = u at hlog hvalid
  have hu : u.stk i = s.stk i := stk_congr hlog.stks i
  rcases howner with hport | hunit
  · simp only [State.answer, hport]
    refine ⟨?_, hlog.dram, hvalid, fun _ => List.mem_append_right _ (.head _), nofun⟩
    rw [stk_congr (State.emit_stks ..), State.stk_modStk_same, hu]
  · simp only [State.answer, hunit, State.putResult]
    refine ⟨?_, hlog.dram, hvalid, nofun, fun _ => ?_⟩
    · rw [State.stk_modStk_same, State.stk_modStk_same, hu]
    · rw [State.stk_modStk_same, State.stk_modStk_same, hu]
      rfl

/-- Settles O34: each command by its equation; the requests at a closed stack by `refuseAll_refuses`. -/
theorem stackMaintenanceAndWriteGate : Obligations.StackMaintenanceAndWriteGate := by
  unfold Obligations.StackMaintenanceAndWriteGate
  refine ⟨fun s i hi => ⟨fun n hn => ?refresh, fun q k hplain hq hk hbad hweak => ?scrub, fun htrained howed hgate => ?fill, fun hloaded => ?ignored,
    fun hunloaded hfree => ?wipe, fun hwiping htrained hgate => ?wiped, fun e pool hnext hroom => ?grant, fun hnone => ?waits⟩,
    fun s i hi => ⟨fun hthm => ?closes, fun hthm => ?opens, fun n e he hlimit => ?expires⟩⟩
  case refresh =>
    have hplace : (channelOf n, subBankOf n) = (n % 64, n / 64) := by
      rw [channelOf, subBankOf, bits_low, bits, Nat.shiftRight_eq_div_pow]
      exact congrArg _ (Nat.mod_eq_of_lt (by omega))
    refine ⟨s.modStk i fun k => { k with lastRef := (n % 64, n / 64) }, ?_, rfl, s.stk_modStk_same i _, fun j hj => Sparse.get_set_ne hj⟩
    show execRefresh i n s = _
    unfold execRefresh
    rw [inRange_next hi, if_pos hn, hplace]
  case scrub =>
    have hweakPlain : (s.weakSectorAt ((i * 2 ^ 25 + q) * 128 + k)).Plain i := hplain.of_reads rfl (.of_regs rfl)
    refine ⟨?_, ?_, ?_⟩
    · rw [exec_scrub hplain hq]
      have hnone : s.eccs (s.localOf i q 0) 128 [] = s := rfl
      dsimp only
      rw [hnone, hbad, List.foldl_nil, baleOf_localOf hi hq, hweak, List.foldl_nil]
    · exact ⟨_, exec_scrub_corrected hplain hq hk hbad hweak, scrubBack_spec hweakPlain hq hk rfl⟩
    · obtain ⟨hdram, hbad', hcount, hlog⟩ := scrubBad_spec (s := s.badSectorAt ((i * 2 ^ 25 + q) * 128 + k)) (q := q) hi ((i * 2 ^ 25 + q) * 128 + k)
      refine ⟨_, exec_scrub_uncorrectable hplain hq hk hbad hweak, hdram, ?_, hcount, hlog⟩
      have hfound : Sparse.get false (Sparse.set false s.bad ((i * 2 ^ 25 + q) * 128 + k) true) ((i * 2 ^ 25 + q) * 128 + k) = true :=
        Sparse.get_set_same
      rw [State.badSector, hbad']
      exact hfound
  case fill =>
    obtain ⟨hready, hbusy, hregs⟩ := stackUp_spec ((s.clearStack i).modStk i fun k => { k with owed := false }) hi
    have honly := hregs.logOnly
    have hstk : ((s.clearStack i).modStk i fun k => { k with owed := false }).stk i = { s.stk i with owed := false } := State.stk_modStk_same ..
    refine ⟨_, exec_zeroFill hi htrained howed hgate, fun a => ?_, hready, hbusy.trans (by rw [hstk]), ?_, fun b hb => ?_, ?_, ?_⟩
    · rw [honly.dram]
      exact clearStack_dram s i a
    · have hsame : (((s.clearStack i).modStk i fun k => { k with owed := false }).stackUp i).stk i =
          ((s.clearStack i).modStk i fun k => { k with owed := false }).stk i := stk_congr honly.stks i
      rw [hsame, hstk]
    · rw [State.bale, honly.bales]
      exact clearStack_bale s hb
    · exact honly.store
    · exact honly.scratch
  case ignored =>
    show execWipe i s = _
    unfold execWipe
    rw [inRange_next hi, if_pos hloaded]
  case wipe =>
    have honly := ((RegsOnly.refl s).setRbit .stkStatus i 0 62 true).logOnly
    exact ⟨_, exec_wipe hi hunloaded hfree,
      wipeStarted_spec hi (State.rbit_setRbit_same s .stkStatus i 0 62 true (by decide)) honly.dram⟩
  case wiped =>
    refine ⟨_, exec_wipeComplete hi hwiping htrained hgate, fun a => ?_, State.rbit_setRbit_same _ _ _ _ _ _ (by decide), ?_⟩
    · have honly := ((RegsOnly.refl ((s.clearStack i).modStk i fun k => { k with wiping := false })).setRbit .stkStatus i 0 62 false).logOnly
      rw [honly.dram]
      exact clearStack_dram s i a
    · rw [stk_congr ((RegsOnly.refl ((s.clearStack i).modStk i fun k => { k with wiping := false })).setRbit .stkStatus i 0 62 false).logOnly.stks,
        State.stk_modStk_same]
  case grant => exact exec_stackEntryGrant hi hnext hroom
  case waits => exact exec_stackEntryGrant_waits hi hnone
  case closes =>
    refine ⟨_, exec_writeGateChange hi hthm, ?_⟩
    rw [if_pos rfl]
    refine ⟨?_, State.rbit_setRbit_same _ _ _ _ _ _ (by decide), ((RegsOnly.refl s).setRbit ..).setRbit ..⟩
    rw [State.gateClosed, State.rbit_setRbit_ne _ _ _ _ _ _ _ (by decide) (by decide), State.rbit_setRbit_same _ _ _ _ _ _ (by decide)]
  case opens => exact (exec_writeGateChange hi hthm).trans rfl
  case expires =>
    intro howner
    rw [exec_heldWriteExpiry hi he hlimit howner]
    exact ⟨_, rfl, heldWriteExpired_spec s i e howner⟩

end Sys2Proof.Machine

/-! SUPPORT. Staged images and the mailbox (R400, R401, R725 to R733; O57). -/

namespace Sys2Proof.Machine

variable {s : State}

/-! ### Staging (R730 to R732) -/

/-- The registers that a staging of bank `b` writes. -/
def stageRegs (b : Nat) : Set Nat := {Reg.secBank.addr 0 b, Reg.secFwStatus.addr 0 0}

section
variable (s : State) (b : Nat)

theorem stageStart_fw (relay : Option (Nat × Nat)) : (s.stageStart b relay).fw =
    { s.fw with staging := some { bank := b, relay := relay, total := 0, got := [] }, image := Sparse.set [] s.fw.image b [0] } := by
  rw [State.stageStart, State.setBankState, State.setImage, State.setFld_fw, State.setRbit_fw, State.setFld_fw, State.setFw_fw, State.setFw_fw]

theorem stageStart_out (relay : Option (Nat × Nat)) : (s.stageStart b relay).out = s.out := by
  rw [State.stageStart, State.setBankState, State.setImage, State.setFld_out, State.setRbit_out, State.setFld_out, State.setFw_out, State.setFw_out]

theorem stageStart_outside (relay : Option (Nat × Nat)) : RegsOutside (stageRegs b) s (s.stageStart b relay) := by
  unfold State.stageStart State.setBankState State.setImage
  exact (RegsOutside.of_regs (State.setFw_regs ..)).trans <| (RegsOutside.of_regs (State.setFw_regs ..)).trans <|
    (setFld_outside (.inl rfl) ..).trans <| (setRbit_outside (.inr rfl) ..).trans <| setFld_outside (.inr rfl) ..

theorem stageStart_fwVersion (relay : Option (Nat × Nat)) : (s.stageStart b relay).fwVersion = s.fwVersion := by
  unfold State.stageStart State.setBankState State.setImage State.fwVersion
  dsimp only
  rw [State.fld_setFld_ne _ _ _ _ _ _ _ _ _ (by decide) (.inl (by decide)), State.fld_setRbit_ne _ _ _ _ _ (by decide) (.inl (by decide)),
    RegsOutside.fld (setFld_outside_self ..) (by simp [Reg.addr, Reg.row, Block.base]; omega)]
  exact (RegsOutside.of_regs (w := ∅) ((State.setFw_regs ..).trans (State.setFw_regs ..))).fld (Set.notMem_empty _) ..

variable {b} in
theorem stageStart_svnFloor (hb : b < 2) (relay : Option (Nat × Nat)) : (s.stageStart b relay).svnFloor = s.svnFloor :=
  (stageStart_outside s b relay).fld (by simp [stageRegs, Reg.addr, Reg.row, Block.base]; omega) ..

theorem stageStart_runningSet (relay : Option (Nat × Nat)) : (s.stageStart b relay).runningSet = s.runningSet := by
  rw [State.runningSet, stageStart_fwVersion, stageStart_fw, State.runningSet]

/-! The end of a staging. -/

variable (err : Nat)

theorem fwEnd_outside : RegsOutside {Reg.secFwStatus.addr 0 0} s (s.fwEnd err) := by
  unfold State.fwEnd
  exact (setRbit_outside_self ..).trans <| (setRbit_outside_self ..).trans <| (setFld_outside_self ..).trans <| setFld_outside_self ..

theorem stageEnd_fw : (s.stageEnd b err).fw = { s.fw with staging := none } := by
  rw [State.stageEnd, State.fwEnd, State.setBankState, State.setFld_fw, State.setFld_fw, State.setRbit_fw, State.setRbit_fw, State.setFld_fw,
    State.setFw_fw]

theorem stageEnd_out : (s.stageEnd b err).out = s.out := by
  rw [State.stageEnd, State.fwEnd, State.setBankState, State.setFld_out, State.setFld_out, State.setRbit_out, State.setRbit_out, State.setFld_out,
    State.setFw_out]

theorem stageEnd_bankImage (b' : Nat) : (s.stageEnd b err).bankImage b' = s.bankImage b' :=
  bankImage_congr (by rw [stageEnd_fw]) b'

theorem stageEnd_outside : RegsOutside (stageRegs b) s (s.stageEnd b err) := by
  unfold State.stageEnd State.setBankState
  exact (RegsOutside.of_regs (State.setFw_regs ..)).trans <| (setFld_outside (Set.mem_insert ..) ..).trans <|
    (fwEnd_outside ..).mono (Set.subset_insert ..)

theorem stageEnd_bankState : (s.stageEnd b err).bankState b = if err = 0 then 1 else 3 := by
  unfold State.stageEnd State.bankState
  rw [(fwEnd_outside ..).fld (by simp [Reg.addr, Reg.row, Block.base]; omega), State.setBankState, State.fld_setFld_same _ _ _ _ _ _ _ (by decide)]
  split <;> rfl

theorem stageEnd_error (h : err < 2 ^ 8) : (s.stageEnd b err).fld .secFwStatus 0 0 47 40 = err := by
  unfold State.stageEnd State.fwEnd
  rw [State.fld_setFld_same _ _ _ _ _ _ _ (by decide)]
  exact Nat.mod_eq_of_lt h

theorem stageEnd_idle : (s.stageEnd b err).rbit .secFwStatus 0 0 63 = false := by
  unfold State.stageEnd State.fwEnd
  rw [State.rbit_setFld_ne _ _ _ _ _ (by decide) (.inr (by decide)), State.rbit_setFld_ne _ _ _ _ _ (by decide) (.inr (by decide)),
    State.rbit_setRbit_ne _ _ _ _ _ _ _ (by decide) (by decide), State.rbit_setRbit_same _ _ _ _ _ _ (by decide)]

end

/-! Bytes that join a staging. -/

section
variable {g : Staging} {off : Nat} {bs : List Byte}

/-- Bytes that complete a header that a check of R730 refuses. -/
theorem stageBytes_refused (hoff : off = g.got.length) (hshort : g.got.length < 4096) (hlong : 4096 ≤ (g.got ++ bs).length)
    (hcheck : fwCheck s.svnFloor s.runningSet (g.got ++ bs) ≠ 0) :
    s.stageBytes g off bs = (s, some (fwCheck s.svnFloor s.runningSet (g.got ++ bs))) := by
  unfold State.stageBytes
  simp only [hoff, hshort, hlong, hcheck, ne_eq, not_true_eq_false, if_false, decide_true, Bool.and_self, if_true, not_false_eq_true]

/-- Bytes that complete a good header, or that follow one, and stay within the image. -/
theorem stageBytes_joined (hoff : off = g.got.length) (hlong : 4096 ≤ (g.got ++ bs).length)
    (hcheck : g.got.length < 4096 → fwCheck s.svnFloor s.runningSet (g.got ++ bs) = 0) (hfits : (g.got ++ bs).length ≤ fwTotal (g.got ++ bs)) :
    s.stageBytes g off bs =
      (s.setFw { s.fw with staging := some { g with got := g.got ++ bs, total := fwTotal (g.got ++ bs) } }, none) := by
  unfold State.stageBytes
  by_cases hhead : g.got.length < 4096
  · simp only [hoff, hcheck hhead, hlong, not_lt.mpr hfits, ne_eq, not_true_eq_false, if_false, if_true, and_false, ite_self]
  · simp only [hoff, hhead, hlong, not_lt.mpr hfits, ne_eq, not_true_eq_false, if_false, if_true, and_false, decide_false, Bool.false_and,
      Bool.false_eq_true]

/-- Bytes before the end of the header. -/
theorem stageBytes_header (hoff : off = g.got.length) (hshort : (g.got ++ bs).length < 4096) :
    s.stageBytes g off bs = (s.setFw { s.fw with staging := some { g with got := g.got ++ bs } }, none) := by
  unfold State.stageBytes
  simp only [hoff, not_le.mpr hshort, ne_eq, not_true_eq_false, if_false, decide_false, Bool.and_false, false_and, Bool.false_eq_true]

/-- A whole image whose DIGEST and CRCs are right (R731). -/
theorem stageFinish_ok (hlen : g.got.length = fwTotal g.got) (hlong : 4096 ≤ g.got.length) (hbody : fwBodyOk g.got = true) :
    s.stageFinish g = ((s.setImage g.bank g.got).stageEnd g.bank 0, 0) := by
  unfold State.stageFinish
  simp only [← hlen, hlong, hbody, and_self, if_true]

/-- An image whose DIGEST or CRCs are wrong (R731). -/
theorem stageFinish_bad (hbody : fwBodyOk g.got = false) : s.stageFinish g = (s.stageEnd g.bank 7, 7) := by
  unfold State.stageFinish
  simp only [hbody, Bool.false_eq_true, and_false, if_false, OfNat.ofNat_ne_zero]

end

theorem fwCheck_lt (floor : Nat) (running : Option Nat) (img : List Byte) : fwCheck floor running img < 2 ^ 8 := by
  unfold fwCheck
  split_ifs <;> decide

/-- A bank holds the image that was written to it; an empty one reads as the factory's. -/
theorem bankImage_setImage (s : State) (b : Nat) {img : List Byte} (h : img ≠ []) : (s.setImage b img).bankImage b = img := by
  rw [State.bankImage, State.setImage, State.setFw_fw, Sparse.get_set_same]
  cases img with
  | nil => exact absurd rfl h
  | cons x xs => rfl

/-! ### The mailbox (R366, R397, R400) -/

/-- The mailbox takes a command and answers it. -/
structure State.MailboxAccepts (s : State) : Prop where
  link     : s.rbit .cxlStatus 0 0 62 = true
  answers  : s.rbit .cxlStatus 0 0 63 = true
  step     : s.fwStep ≠ 1
  still    : s.fw.moving = none
  recovery : s.fw.recovery = false

section
variable {op : Nat} {fw : Bool} {k : State → State}

theorem State.MailboxAccepts.mailbox (h : s.MailboxAccepts) : s.mailbox op fw k = .next (k s) := by
  unfold State.mailbox
  simp only [h.link, h.answers, h.step, h.still, h.recovery, Bool.not_true, Bool.or_self, Bool.false_eq_true, if_false, Option.any_none, or_self,
    Bool.false_and]

theorem mailbox_busy (hlink : s.rbit .cxlStatus 0 0 62 = true) (hanswers : s.rbit .cxlStatus 0 0 63 = true) (hstep : s.fwStep = 1) :
    s.mailbox op fw k = .next (s.mbDone op .busy []) := by
  unfold State.mailbox
  simp only [hlink, hanswers, hstep, Bool.not_true, Bool.or_self, Bool.false_eq_true, if_false, true_or, if_true]

theorem mailbox_down (hlink : s.rbit .cxlStatus 0 0 62 = false) : s.mailbox op fw k = .next s := by
  unfold State.mailbox
  simp only [hlink, Bool.not_false, Bool.true_or, if_true]

end

theorem mbDone_out (s : State) (op : Nat) (r : MbRet) (data : List Byte) : (s.mbDone op r data).out = s.out ++ [.mailbox op r data, .msix 16] := by
  simp only [State.mbDone, State.emit, List.append_assoc, List.cons_append, List.nil_append]

/-! A command that is answered changes no register and nothing of the firmware. -/

section
variable (s : State) (op : Nat) (ret : MbRet) (data : List Byte)

theorem mbDone_fw : (s.mbDone op ret data).fw = s.fw := rfl
theorem mbDone_policy : (s.mbDone op ret data).policy = s.policy := rfl
theorem mbDone_fld (r : Reg) (i j hi lo : Nat) : (s.mbDone op ret data).fld r i j hi lo = s.fld r i j hi lo := rfl
theorem mbDone_rbit (r : Reg) (i j b : Nat) : (s.mbDone op ret data).rbit r i j b = s.rbit r i j b := rfl
theorem mbDone_bankState (b : Nat) : (s.mbDone op ret data).bankState b = s.bankState b := rfl
theorem mbDone_bankImage (b : Nat) : (s.mbDone op ret data).bankImage b = s.bankImage b := rfl

end

/-! ### Transfer FW (R401, R733) -/

section
variable {slot : Nat} {img : List Byte}

theorem transfer_invalidSlot {a off : Nat} {d : List Byte} (h : slot = 0 ∨ 2 < slot) : s.transfer slot a off d = s.mbDone 0x0201 .invalidSlot [] := if_pos h

/-- A Full FW transfer to an inactive bank starts a staging. -/
theorem transfer_full (hslot : slot = 1 ∨ slot = 2) (hbank : s.inactive (slot - 1) = true) (hstaging : s.fw.staging = none)
    (hstill : s.fw.moving = none) : s.transfer slot 0 0 img = s.transferStart (slot - 1) true img := by
  have hvalid : ¬ (slot = 0 ∨ 2 < slot) := by omega
  unfold State.transfer
  dsimp only
  rw [if_neg hvalid]
  simp only [hbank, hstaging, hstill, Nat.not_lt_zero, if_false, Bool.not_true, Bool.false_eq_true, Option.isSome_none, or_self, ne_eq,
    not_true_eq_false, beq_self_eq_true]

variable {b : Nat}

/-- An image whose header is refused. -/
theorem transferStart_refused (hb : b < 2) (hlong : 4096 ≤ img.length) (hcheck : fwCheck s.svnFloor s.runningSet img ≠ 0) :
    s.transferStart b true img = ((s.stageStart b none).stageEnd b (fwCheck s.svnFloor s.runningSet img)).mbDone 0x0201
      (mbRet (fwCheck s.svnFloor s.runningSet img)) [] := by
  have hkept : fwCheck (s.stageStart b none).svnFloor (s.stageStart b none).runningSet img = fwCheck s.svnFloor s.runningSet img := by
    rw [stageStart_svnFloor s hb, stageStart_runningSet]
  have hbytes := stageBytes_refused (s := s.stageStart b none) (g := { bank := b, relay := none, total := 0, got := [] }) (off := 0) (bs := img)
    rfl (Nat.zero_lt_succ _) hlong (by rw [List.nil_append, hkept]; exact hcheck)
  rw [List.nil_append, hkept] at hbytes
  unfold State.transferStart
  simp only [not_lt.mpr hlong, if_false, hbytes]

/-- A whole image that passes every check. -/
theorem transferStart_valid (hb : b < 2) (hlong : 4096 ≤ img.length) (hcheck : fwCheck s.svnFloor s.runningSet img = 0) (hlen : img.length = fwTotal img)
    (hbody : fwBodyOk img = true) : ∃ u : State, s.transferStart b true img = ((u.setImage b img).stageEnd b 0).mbDone 0x0201 .success [] ∧
      u.out = s.out := by
  have hkept : fwCheck (s.stageStart b none).svnFloor (s.stageStart b none).runningSet img = 0 := by
    rw [stageStart_svnFloor s hb, stageStart_runningSet, hcheck]
  have hbytes := stageBytes_joined (s := s.stageStart b none) (g := { bank := b, relay := none, total := 0, got := [] }) (off := 0) (bs := img)
    rfl hlong (fun _ => hkept) (ge_of_eq hlen.symm |>.trans_eq rfl)
  have hfinish (u : State) := stageFinish_ok (s := u) (g := { bank := b, relay := none, got := img, total := fwTotal img }) hlen hlong hbody
  refine ⟨(s.stageStart b none).setFw { (s.stageStart b none).fw with staging := some { bank := b, relay := none, total := fwTotal img, got := img } }, ?_,
    (State.setFw_out ..).trans (stageStart_out ..)⟩
  unfold State.transferStart
  simp only [not_lt.mpr hlong, if_false, hbytes, hfinish, List.nil_append, if_true]
  rfl

end

/-! The commands of an accepting mailbox. -/

section
variable (h : s.MailboxAccepts)
include h

theorem exec_getEventRecords : ∃ d, exec .getEventRecords s = .next (s.mbDone 0x0100 .success d) := by
  have hexec : execGetEventRecords s = _ := h.mailbox
  exact ⟨_, hexec⟩

theorem exec_clearEventRecords : exec .clearEventRecords s =
    .next (((s.setRbit .cxlFaultInfo 0 0 63 false).setRbit .cxlFaultInfo 0 0 62 false).mbDone 0x0101 .success []) := by
  show execClearEventRecords s = _
  rw [execClearEventRecords, h.mailbox]

theorem exec_getEventInterruptPolicy : exec .getEventInterruptPolicy s = .next (s.mbDone 0x0102 .success [s.policy]) := by
  show execGetEventInterruptPolicy s = _
  rw [execGetEventInterruptPolicy, h.mailbox]

theorem exec_setEventInterruptPolicy (v : Byte) :
    exec (.setEventInterruptPolicy v) s = .next (State.mbDone { s with policy := v } 0x0103 .success []) := by
  show execSetEventInterruptPolicy v s = _
  rw [execSetEventInterruptPolicy, h.mailbox]

theorem exec_getFwInfo : ∃ d, exec .getFwInfo s = .next (s.mbDone 0x0200 .success d) := by
  have hexec : execGetFwInfo s = _ := h.mailbox
  exact ⟨_, hexec⟩

theorem exec_getSupportedLogs : ∃ d, exec .getSupportedLogs s = .next (s.mbDone 0x0400 .success d) := by
  have hexec : execGetSupportedLogs s = _ := h.mailbox
  exact ⟨_, hexec⟩

theorem exec_getLog (q : List Byte) : exec (.getLog q) s = .next (if q.take 16 = Config.effectsLogId then
    s.mbDone 0x0401 .success (Config.standardReply "Get Log" q) else s.mbDone 0x0401 .invalidInput []) := by
  show execGetLog q s = _
  rw [execGetLog, h.mailbox]

theorem exec_mailboxUnsupported {op : Nat} (hop : op ∉ mailboxOpcodes) :
    exec (.mailboxUnsupported op) s = .next (s.mbDone op .unsupported []) := by
  show execMailboxUnsupported op s = _
  rw [execMailboxUnsupported, if_neg (by simpa using hop), h.mailbox]

theorem exec_transferFw {slot a off : Nat} {d : List Byte} (hd : d.length ≤ 2 ^ 20) :
    exec (.transferFw slot a off d) s = .next (s.transfer slot a off d) := by
  show execTransferFw slot a off d s = _
  rw [execTransferFw, if_neg (not_lt.mpr hd), h.mailbox]

theorem exec_activateFw (slot : Nat) (atReset : Bool) : exec (.activateFw slot atReset) s =
    .next (if slot = 0 ∨ 2 < slot ∨ s.bankState (slot - 1) ≠ 1 then s.mbDone 0x0202 .invalidSlot [] else s.activate (slot - 1) atReset 1 0) := by
  show execActivateFw slot atReset s = _
  rw [execActivateFw, h.mailbox]

end

/-- Settles O57: each command by its equation in an accepting mailbox; a transfer by the checks of its header and its body. -/
theorem mailboxCommandsAnswer : Obligations.MailboxCommandsAnswer := by
  unfold Obligations.MailboxCommandsAnswer
  intro s
  refine ⟨fun ⟨hlink, hanswers, hstep, hstill, hrec⟩ => ?accepts, fun hlink hanswers hstep => ?busy, fun hlink => ?down⟩
  case busy =>
    constructor
    · show execGetFwInfo s = _
      rw [execGetFwInfo, mailbox_busy hlink hanswers hstep]
    · show execGetEventRecords s = _
      rw [execGetEventRecords, mailbox_busy hlink hanswers hstep]
  case down =>
    show execGetFwInfo s = _
    rw [execGetFwInfo, mailbox_down hlink]
  have hacc : s.MailboxAccepts := ⟨hlink, hanswers, hstep, hstill, hrec⟩
  have hset : s.runningSet = some s.fwVersion := by rw [State.runningSet, hrec, if_neg Bool.false_ne_true]
  refine ⟨exec_getEventRecords hacc, ⟨_, exec_clearEventRecords hacc, ?valid, ?overrun, ?cleared⟩,
    exec_getEventInterruptPolicy hacc, fun v => ?policy, exec_getFwInfo hacc,
    exec_getSupportedLogs hacc, fun q => ?log, fun op hop => exec_mailboxUnsupported hacc hop,
    fun slot img hslot hbank hstaging hlong hshort => ?transfer,
    fun slot a off d hd hslot => ?slot, fun slot hslot => ?activate⟩
  case valid =>
    rw [mbDone_rbit, State.rbit_setRbit_ne _ _ _ _ _ _ _ (by decide) (by decide), State.rbit_setRbit_same _ _ _ _ _ _ (by decide)]
  case overrun => rw [mbDone_rbit, State.rbit_setRbit_same _ _ _ _ _ _ (by decide)]
  case cleared => rw [mbDone_out, State.setRbit_out, State.setRbit_out]
  case policy =>
    have hpolicy := mbDone_policy { s with policy := v } 0x0103 .success []
    have hout := mbDone_out { s with policy := v } 0x0103 .success []
    exact ⟨_, exec_setEventInterruptPolicy hacc v, hpolicy, hout⟩
  case slot =>
    have hexec := exec_transferFw hacc (slot := slot) (a := a) (off := off) hd
    rwa [transfer_invalidSlot hslot] at hexec
  case log =>
    exact ⟨fun hq => ⟨_, (exec_getLog hacc q).trans (congrArg _ (if_pos hq))⟩, fun hq => (exec_getLog hacc q).trans (congrArg _ (if_neg hq))⟩
  case transfer =>
    have hexec := exec_transferFw hacc (slot := slot) (a := 0) (off := 0) hshort
    rw [transfer_full hslot hbank hstaging hstill] at hexec
    rw [← hset]
    have hb : slot - 1 < 2 := by omega
    refine ⟨fun hcheck hlen hbody => ?_, fun hcheck => ?_⟩
    · obtain ⟨u, hu, hout⟩ := transferStart_valid hb hlong hcheck hlen hbody
      rw [hu] at hexec
      refine ⟨_, hexec, ?_, ?_, ?_, ?_, ?_, ?_⟩
      · rw [mbDone_bankState, stageEnd_bankState, if_pos rfl]
      · rw [mbDone_bankImage, stageEnd_bankImage, bankImage_setImage _ _ (by rintro rfl; simp at hlong)]
      · rw [mbDone_fw, stageEnd_fw]
      · rw [mbDone_rbit, stageEnd_idle]
      · rw [mbDone_fld, stageEnd_error _ _ _ (by decide)]
      · rw [mbDone_out, stageEnd_out, State.setImage, State.setFw_out, hout]
    · rw [transferStart_refused hb hlong hcheck] at hexec
      refine ⟨_, hexec, ?_, ?_, ?_⟩
      · rw [mbDone_bankState, stageEnd_bankState, if_neg hcheck]
      · rw [mbDone_fw, stageEnd_fw]
      · rw [mbDone_fld, stageEnd_error _ _ _ (fwCheck_lt ..)]
  case activate =>
    have hvalid (hbank : s.bankState (slot - 1) = 1) : ¬ (slot = 0 ∨ 2 < slot ∨ s.bankState (slot - 1) ≠ 1) := by omega
    refine ⟨fun hbank hidle => ?_, fun hbank hidle hother hsvn hfloor hmatrix => ?_, fun hbank => ?_⟩
    · refine ⟨_, exec_activateFw hacc slot true, ?_⟩
      rw [if_neg (hvalid hbank), activate_atReset hidle]
      exact ⟨rfl, mbDone_out ..⟩
    · refine ⟨_, exec_activateFw hacc slot false, ?_⟩
      rw [if_neg (hvalid hbank), activate_online hidle hrec hother hsvn hfloor hmatrix]
      refine ⟨actStart_step .., actStart_unit .., ?_, ?_⟩
      · rw [State.actStart, State.setFld_out, State.setFld_out, State.setRbit_out, State.setFw_out]
      · rw [actStart_fw]
    · exact (exec_activateFw hacc slot false).trans (congrArg _ (if_pos (.inr (.inr hbank))))

end Sys2Proof.Machine

/-! SUPPORT. MCTP, PLDM and SPDM requests (R402, R717 to R724; O58). -/

namespace Sys2Proof.Machine

variable {s : State} {tr : Transport} {req : List Byte}

/-! ### A request that the management firmware takes -/

theorem spdm_managed (h : s.managed = true) (k : State → State) : s.spdm k = .next (k s) := by
  rw [State.spdm, if_pos h]

theorem spdm_unmanaged (h : s.managed = false) (k : State → State) : s.spdm k = .next s := by
  rw [State.spdm, h, if_neg Bool.false_ne_true]

@[simp] theorem conn_setConn_same (s : State) (tr : Transport) (k : Conn) : (s.setConn tr k).conn tr = k := Sparse.get_set_same

theorem conn_congr {s t : State} (h : t.conns = s.conns) (tr : Transport) : t.conn tr = s.conn tr := by
  rw [State.conn, h, ← State.conn]

section
variable (h : s.managed = true)
include h

theorem exec_mctpSetEndpointId (e : Byte) :
    exec (.mctpSetEndpointId e) s = .next (State.emit { s with eid := e } (.mctp (Config.standardReply "Set Endpoint ID" [e]))) := by
  show execMctpSetEndpointId e s = _
  rw [execMctpSetEndpointId, if_pos h]

/-- SetEventReceiver (R683). -/
theorem exec_setEventReceiver (htype : bits (leAt req 1 1) 5 0 = 2) (hcmd : leAt req 2 1 = 4) (hlen : 3 ≤ req.length) :
    exec (.pldmRequest req) s = .next (State.emit { s with evtRecv := leAt req 3 1 != 0 }
      (.mctp (Config.standardReply "PLDM" (req ++ State.sensorBytes { s with evtRecv := leAt req 3 1 != 0 })))) := by
  show execPldmRequest req s = _
  unfold execPldmRequest
  simp [h, htype, hcmd, not_lt.mpr hlen]

theorem exec_getVersion : exec (.getVersion tr req) s = .next (s.reply tr "VERSION" req) := by
  show execGetVersion tr req s = _
  rw [execGetVersion, spdm_managed h]

theorem exec_getCapabilities : exec (.getCapabilities tr req) s = .next (s.reply tr "CAPABILITIES" req) := by
  show execGetCapabilities tr req s = _
  rw [execGetCapabilities, spdm_managed h]

theorem exec_negotiateAlgorithms : exec (.negotiateAlgorithms tr req) s = .next (s.reply tr "ALGORITHMS" req) := by
  show execNegotiateAlgorithms tr req s = _
  rw [execNegotiateAlgorithms, spdm_managed h]

theorem exec_getDigests : exec (.getDigests tr req) s = .next (s.reply tr "DIGESTS" (req ++ digestBytes certificateChain)) := by
  show execGetDigests tr req s = _
  rw [execGetDigests, spdm_managed h]

theorem exec_getCertificate : exec (.getCertificate tr req) s = .next (s.reply tr "CERTIFICATE" (req ++ certificateChain)) := by
  show execGetCertificate tr req s = _
  rw [execGetCertificate, spdm_managed h]

theorem exec_getMeasurements : exec (.getMeasurements tr false req) s = .next (s.reply tr "MEASUREMENTS" (req ++ s.measurements)) := by
  show execGetMeasurements tr false req s = _
  rw [execGetMeasurements, spdm_managed h, if_neg Bool.false_ne_true]

theorem exec_getSignedMeasurements :
    exec (.getMeasurements tr true req) s = .next (s.signed tr "MEASUREMENTS" (req ++ s.measurements)) := by
  show execGetMeasurements tr true req s = _
  rw [execGetMeasurements, spdm_managed h, if_pos rfl]

theorem exec_challenge : exec (.challenge tr req) s = .next (s.signed tr "CHALLENGE_AUTH" req) := by
  show execChallenge tr req s = _
  rw [execChallenge, spdm_managed h]

theorem exec_keyExchange :
    exec (.keyExchange tr req) s = .next ((s.setConn tr { s.conn tr with session := 1 }).reply tr "KEY_EXCHANGE_RSP" req) := by
  show execKeyExchange tr req s = _
  rw [execKeyExchange, spdm_managed h]

theorem exec_getLmsCert (off : Nat) :
    exec (.getLmsCert tr off) s = .next (s.reply tr "VENDOR_DEFINED_RESPONSE" (0 :: (lmsCertificate.drop off).take 1024)) := by
  show execGetLmsCert tr off s = _
  rw [execGetLmsCert, spdm_managed h]

theorem exec_finish_opened {r : FinishReq} (hopen : (s.conn tr).session = 1) : exec (.finish tr r) s =
    .next (((s.setConn tr { s.conn tr with session := 2 }).programIde r.keys).reply tr "FINISH_RSP" r.bytes) := by
  show execFinish tr r s = _
  rw [execFinish, spdm_managed h, if_pos hopen]

theorem exec_finish_unopened {r : FinishReq} (hopen : (s.conn tr).session ≠ 1) : exec (.finish tr r) s = .next (s.reply tr "ERROR" r.bytes) := by
  show execFinish tr r s = _
  rw [execFinish, spdm_managed h, if_neg hopen]

theorem exec_endSession_none (hnone : (s.conn tr).session = 0) : exec (.endSession tr req) s = .next (s.reply tr "ERROR" req) := by
  show execEndSession tr req s = _
  rw [execEndSession, spdm_managed h, if_pos hnone]

theorem exec_endSession_open (hopen : (s.conn tr).session ≠ 0) :
    exec (.endSession tr req) s = .next ((s.setConn tr { s.conn tr with session := 0 }).reply tr "END_SESSION_ACK" req) := by
  show execEndSession tr req s = _
  rw [execEndSession, spdm_managed h, if_neg hopen]

theorem exec_getLmsSig_none (hnone : (s.conn tr).transcript = none) :
    exec (.getLmsSig tr) s = .next (s.reply tr "VENDOR_DEFINED_RESPONSE" [1]) := by
  show execGetLmsSig tr s = _
  unfold execGetLmsSig
  rw [spdm_managed h]
  simp only [hnone]

variable {script : List Byte} (hscript : (s.conn tr).transcript = some script)
include hscript

theorem exec_getLmsSig_stored {j : Nat} {sig : List Byte} (hsig : (s.conn tr).sig = some (j, sig)) :
    exec (.getLmsSig tr) s = .next (s.reply tr "VENDOR_DEFINED_RESPONSE" (0 :: leBytes 4 j ++ sig)) := by
  show execGetLmsSig tr s = _
  unfold execGetLmsSig
  rw [spdm_managed h]
  simp only [hscript, hsig, State.lmsAnswer, Option.isSome_some, if_true]

theorem exec_getLmsSig_exhausted (hsig : (s.conn tr).sig = none) (hn : 2 ^ 25 ≤ s.fld .secLms 0 0 25 0) :
    exec (.getLmsSig tr) s = .next (s.reply tr "VENDOR_DEFINED_RESPONSE" [2]) := by
  show execGetLmsSig tr s = _
  unfold execGetLmsSig
  rw [spdm_managed h]
  simp only [hscript, hsig, Option.isSome_none, Bool.false_eq_true, if_false, hn, if_true]

theorem exec_getLmsSig_new (hsig : (s.conn tr).sig = none) (hn : s.fld .secLms 0 0 25 0 < 2 ^ 25) :
    exec (.getLmsSig tr) s = .next ((s.lmsSign tr script).lmsAnswer tr) := by
  show execGetLmsSig tr s = _
  unfold execGetLmsSig
  rw [spdm_managed h]
  simp only [hscript, hsig, Option.isSome_none, Bool.false_eq_true, if_false, not_le.mpr hn]

end

/-! ### Signed responses and IDE keys -/

/-! A response changes the output alone. -/

section
variable (s : State) (tr tr' : Transport) (name : String) (bs : List Byte)

theorem reply_out : (s.reply tr name bs).out = s.out ++ [.spdm tr (Config.standardReply name bs)] := rfl
theorem reply_fw : (s.reply tr name bs).fw = s.fw := rfl
theorem reply_conn : (s.reply tr name bs).conn tr' = s.conn tr' := rfl
theorem reply_fld (r : Reg) (i j hi lo : Nat) : (s.reply tr name bs).fld r i j hi lo = s.fld r i j hi lo := rfl
theorem reply_rbit (r : Reg) (i j b : Nat) : (s.reply tr name bs).rbit r i j b = s.rbit r i j b := rfl

end

/-- A signed response replaces the transcript (R721, R722). -/
theorem signed_spec (s : State) (tr : Transport) (name : String) (bs : List Byte) :
    ∃ d script, s.signed tr name bs = { s with conns := (s.signed tr name bs).conns, fresh := s.fresh + 1, out := s.out ++ [.spdm tr d] } ∧
      (s.signed tr name bs).conn tr = { s.conn tr with transcript := some script, sig := none } :=
  ⟨_, Config.standardReply (name ++ " transcript") (bs ++ leBytes 8 s.freeVal.toNat), rfl, by
    unfold State.signed
    dsimp only
    rw [reply_conn, conn_setConn_same]⟩

theorem programIde_nil (s : State) : s.programIde [] = s := if_pos rfl

/-- IDE keys start IDE. -/
theorem programIde_cons (s : State) {keys : List Byte} (h : keys ≠ []) :
    ∃ rs, s.programIde keys = { s with ideKeys := keys, regs := rs } ∧ (s.programIde keys).rbit .cxlStatus 0 0 59 = true := by
  rw [State.programIde, if_neg h]
  exact ⟨_, rfl, State.rbit_setRbit_same _ _ _ _ _ _ (by decide)⟩

/-! ### The LMS key (R723, R724) -/

/-- The block of indices that holds NEXT is reserved. -/
def State.reserveLms (s : State) : State :=
  if s.fw.lmsEnd ≤ s.fld .secLms 0 0 25 0 then s.setFw { s.fw with lmsEnd := s.fld .secLms 0 0 25 0 + 1024 } else s

theorem reserveLms_end (s : State) : s.fld .secLms 0 0 25 0 < s.reserveLms.fw.lmsEnd := by
  unfold State.reserveLms
  split
  · exact Nat.lt_add_of_pos_right (by decide)
  · omega

theorem reserveLms_out (s : State) : s.reserveLms.out = s.out := by
  unfold State.reserveLms
  split <;> rfl

theorem reserveLms_conns (s : State) : s.reserveLms.conns = s.conns := by
  unfold State.reserveLms
  split <;> rfl

/-- The state in which index NEXT has signed a transcript. -/
theorem lmsSign_eq (s : State) (tr : Transport) (script : List Byte) : s.lmsSign tr script =
    (s.reserveLms.setConn tr { s.conn tr with sig := some (s.fld .secLms 0 0 25 0, Config.lmsSign (s.fld .secLms 0 0 25 0) script) }).setLms
      (s.fld .secLms 0 0 25 0 + 1) := by
  rw [← conn_congr (reserveLms_conns s) tr]
  rfl

theorem setLms_conn (s : State) (n : Nat) (tr : Transport) : (s.setLms n).conn tr = s.conn tr :=
  conn_congr (by rw [State.setLms, State.setRbit_conns, State.setRbit_conns, State.setFld_conns]) tr

theorem setLms_next (s : State) {n : Nat} (h : n < 2 ^ 26) : (s.setLms n).fld .secLms 0 0 25 0 = n := by
  rw [State.setLms, State.fld_setRbit_ne _ _ _ _ _ (by decide) (.inl (by decide)), State.fld_setRbit_ne _ _ _ _ _ (by decide) (.inl (by decide)),
    State.fld_setFld_same _ _ _ _ _ _ _ (by decide)]
  exact Nat.mod_eq_of_lt h

theorem setLms_exhausted (s : State) (n : Nat) : (s.setLms n).rbit .secLms 0 0 63 = decide (2 ^ 25 ≤ n) :=
  State.rbit_setRbit_same _ _ _ _ _ _ (by decide)

theorem setLms_out (s : State) (n : Nat) : (s.setLms n).out = s.out := by
  rw [State.setLms, State.setRbit_out, State.setRbit_out, State.setFld_out]

/-- A transcript that is signed and answered. -/
theorem lmsSigned_spec (s : State) (tr : Transport) (script : List Byte) (hn : s.fld .secLms 0 0 25 0 < 2 ^ 25) :
    let n := s.fld .secLms 0 0 25 0
    let sig := Config.lmsSign n script
    let t := (s.lmsSign tr script).lmsAnswer tr
    t.conn tr = { s.conn tr with sig := some (n, sig) } ∧
      t.out = s.out ++ [.spdm tr (Config.standardReply "VENDOR_DEFINED_RESPONSE" (0 :: leBytes 4 n ++ sig))] ∧ t.fld .secLms 0 0 25 0 = n + 1 ∧
      n < t.fw.lmsEnd ∧ t.rbit .secLms 0 0 63 = decide (n + 1 = 2 ^ 25) := by
  dsimp only
  have hkeep := reserveLms_end s
  rw [lmsSign_eq]
  generalize s.fld .secLms 0 0 25 0 = n at hn hkeep ⊢
  have hout := reserveLms_out s
  generalize s.reserveLms = u at hkeep hout ⊢
  generalize hk : ({ s.conn tr with sig := some (n, Config.lmsSign n script) } : Conn) = k
  have hsig : k.sig = some (n, Config.lmsSign n script) := by rw [← hk]
  have hconn : ((u.setConn tr k).setLms (n + 1)).conn tr = k := by rw [setLms_conn, conn_setConn_same]
  have hanswer : ((u.setConn tr k).setLms (n + 1)).lmsAnswer tr =
      ((u.setConn tr k).setLms (n + 1)).reply tr "VENDOR_DEFINED_RESPONSE" (0 :: leBytes 4 n ++ Config.lmsSign n script) := by
    unfold State.lmsAnswer
    rw [hconn, hsig]
  rw [hanswer, reply_conn, reply_out, reply_fld, reply_fw, reply_rbit]
  refine ⟨hconn, ?_, setLms_next _ (by omega), ?_, ?_⟩
  · rw [setLms_out, State.setConn, hout]
  · rw [State.setLms, State.setRbit_fw, State.setRbit_fw, State.setFld_fw]
    exact hkeep
  · rw [setLms_exhausted, decide_eq_decide]
    omega

/-- Settles O58: each request by its equation while the management firmware answers. -/
theorem managementAndAttestation : Obligations.ManagementAndAttestation := by
  unfold Obligations.ManagementAndAttestation
  intro s tr req
  refine ⟨fun h => ?managed, fun h => ⟨?unanswered, ?ignored⟩⟩
  case unanswered =>
    show execChallenge tr req s = _
    rw [execChallenge, spdm_unmanaged h]
  case ignored =>
    show execPldmRequest req s = _
    unfold execPldmRequest
    simp only [h, Bool.not_false, Bool.true_or, if_true]
  refine ⟨fun e => ⟨_, _, exec_mctpSetEndpointId h e, rfl⟩, fun htype hcmd hlen => ⟨_, _, exec_setEventReceiver h htype hcmd hlen, rfl⟩,
    ⟨_, exec_getVersion h⟩, ⟨_, exec_getCapabilities h⟩, ⟨_, exec_negotiateAlgorithms h⟩, ⟨_, exec_getDigests h⟩, ⟨_, exec_getCertificate h⟩,
    ⟨_, exec_getMeasurements h⟩, ?challenge, ?measured, ⟨_, _, exec_keyExchange h, rfl, conn_setConn_same ..⟩, fun keys => ?finish,
    fun hopen => ⟨_, _, exec_endSession_open h hopen, rfl, conn_setConn_same ..⟩, fun hnone => ⟨_, exec_endSession_none h hnone⟩,
    fun off => ⟨_, exec_getLmsCert h off⟩, fun hnone => ⟨_, exec_getLmsSig_none h hnone⟩,
    fun script j sig hscript hsig => exec_getLmsSig_stored h hscript hsig, fun script hscript hsig hn => ⟨_, exec_getLmsSig_exhausted h hscript hsig hn⟩,
    fun script hscript hsig hn => ?sign⟩
  case challenge =>
    obtain ⟨d, script, heq, hconn⟩ := signed_spec s tr "CHALLENGE_AUTH" req
    exact ⟨_, d, script, exec_challenge h, heq, hconn⟩
  case measured =>
    obtain ⟨d, script, heq, hconn⟩ := signed_spec s tr "MEASUREMENTS" (req ++ s.measurements)
    exact ⟨_, d, script, exec_getSignedMeasurements h, heq, hconn⟩
  case finish =>
    refine ⟨fun hopen => ?_, fun hopen => ⟨_, exec_finish_unopened h hopen⟩⟩
    have hexec := exec_finish_opened h (r := { bytes := req, keys := keys }) hopen
    by_cases hkeys : keys = []
    · subst hkeys
      rw [programIde_nil] at hexec
      exact ⟨_, _, hexec, rfl, conn_setConn_same .., fun _ => ⟨rfl, rfl⟩, fun hne => absurd rfl hne⟩
    · obtain ⟨rs, heq, hide⟩ := programIde_cons (s.setConn tr { s.conn tr with session := 2 }) hkeys
      rw [heq] at hide
      rw [heq] at hexec
      exact ⟨_, _, hexec, rfl, conn_setConn_same .., fun hnil => absurd hnil hkeys, fun _ => ⟨rfl, hide⟩⟩
  case sign => exact ⟨_, _, exec_getLmsSig_new h hscript hsig hn, lmsSigned_spec s tr script hn⟩

end Sys2Proof.Machine

/-! SUPPORT. What the sending of packets and control codewords changes (R599, R603). -/

namespace Sys2Proof.Machine

variable {s t u : State} {q : Nat}

/-! ### A port -/

@[simp] theorem port_setPort_same (s : State) (q : Nat) (p : Port) : (s.setPort q p).port q = p := Sparse.get_set_same

theorem port_setPort_ne {q' : Nat} (s : State) (p : Port) (h : q' ≠ q) : (s.setPort q p).port q' = s.port q' := Sparse.get_set_ne h

@[simp] theorem port_modPort_same (s : State) (q : Nat) (g : Port → Port) : (s.modPort q g).port q = g (s.port q) := port_setPort_same ..

theorem port_modPort_ne {q' : Nat} (s : State) (g : Port → Port) (h : q' ≠ q) : (s.modPort q g).port q' = s.port q' := port_setPort_ne _ _ h

@[simp] theorem port_emit (s : State) (o : Output) (q : Nat) : (s.emit o).port q = s.port q := rfl

/-- A port but for the place in the codeword sequence, the bytes that wait and the number of the next control codeword. -/
def Port.sentFrom (p : Port) (x : Port) : Port := { p with txPos := x.txPos, txBytes := x.txBytes, next := x.next }

/-- `t` is `s` but for what port `q` has sent. -/
structure Transmits (q : Nat) (s t : State) : Prop where
  frame : t = { s with ports := t.ports, out := t.out }
  port  : t.port q = (s.port q).sentFrom (t.port q)
  other : ∀ q', q' ≠ q → t.port q' = s.port q'

theorem Transmits.refl (s : State) : Transmits q s s := ⟨rfl, rfl, fun _ _ => rfl⟩

theorem Transmits.trans (h : Transmits q s t) (h' : Transmits q t u) : Transmits q s u where
  frame := by rw [h'.frame, h.frame]
  port := by rw [h'.port, h.port]; rfl
  other q' hq := (h'.other q' hq).trans (h.other q' hq)

theorem Transmits.ite {p : Prop} [Decidable p] (h : Transmits q s t) (h' : Transmits q s u) : Transmits q s (if p then t else u) := by
  split
  · exact h
  · exact h'

theorem Transmits.foldl {α : Type} {g : State → α → State} {l : List α} (hg : ∀ s, ∀ x ∈ l, Transmits q s (g s x)) (s : State) :
    Transmits q s (l.foldl g s) := by
  induction l generalizing s with
  | nil => exact .refl s
  | cons x l ih => exact (hg s x (.head _)).trans (ih (fun s y hy => hg s y (.tail _ hy)) _)

theorem Transmits.emit (s : State) (o : Output) : Transmits q s (s.emit o) := ⟨rfl, rfl, fun _ _ => rfl⟩

theorem Transmits.modPort (s : State) {g : Port → Port} (hg : ∀ p, g p = p.sentFrom (g p)) : Transmits q s (s.modPort q g) where
  frame := rfl
  port := by rw [port_modPort_same]; exact hg _
  other q' hq := port_modPort_ne _ _ hq

section
variable (s : State) (q : Nat)

theorem sendCodeword_transmits (data : List Byte) : Transmits q s (s.sendCodeword q data) :=
  (Transmits.modPort s fun _ => rfl).trans (.emit ..)

theorem sendDue_transmits (lane : LaneMsg) (muster : Option MusterFrame) : Transmits q s (s.sendDue q lane muster) :=
  (Transmits.modPort s fun _ => rfl).trans (sendCodeword_transmits ..)

theorem sendFlitWord_transmits : Transmits q s (s.sendFlitWord q) :=
  (Transmits.modPort s fun _ => rfl).trans (sendCodeword_transmits ..)

theorem sendFlits_transmits (bs : List Byte) : Transmits q s (s.sendFlits q bs) :=
  (Transmits.modPort s fun _ => rfl).trans <| .foldl (fun t _ _ => (Transmits.ite (sendDue_transmits ..) (.refl t)).trans (sendFlitWord_transmits ..)) _

theorem sendPacket_transmits (p : Packet) : Transmits q s (s.sendPacket q p) := sendFlits_transmits ..

theorem sendControl_transmits (lane : LaneMsg) (muster : Option MusterFrame) : Transmits q s (s.sendControl q lane muster) :=
  (Transmits.foldl (fun t _ _ => sendFlitWord_transmits t q) s).trans (sendDue_transmits ..)

end

/-! What stays. -/

namespace Transmits

variable (h : Transmits q s t)
include h

theorem regs : t.regs = s.regs := by rw [h.frame]
theorem fw : t.fw = s.fw := by rw [h.frame]
theorem muster : t.muster = s.muster := by rw [h.frame]
theorem fold : t.fold = s.fold := by rw [h.frame]
theorem rtr : t.rtr = s.rtr := by rw [h.frame]
theorem ni : t.ni = s.ni := by rw [h.frame]
theorem pads : t.pads = s.pads := by rw [h.frame]
theorem rst : t.rst = s.rst := by rw [h.frame]
theorem fld (r : Reg) (i j hi lo : Nat) : t.fld r i j hi lo = s.fld r i j hi lo := by rw [State.fld, reg_congr h.regs, State.fld]
theorem rbit (r : Reg) (i j b : Nat) : t.rbit r i j b = s.rbit r i j b := by rw [State.rbit, reg_congr h.regs, State.rbit]
theorem bankState (b : Nat) : t.bankState b = s.bankState b := h.fld ..
theorem bankImage (b : Nat) : t.bankImage b = s.bankImage b := bankImage_congr (by rw [h.fw]) b

/-- The relay credits of the port. -/
theorem relay : (t.port q).relFreed = (s.port q).relFreed ∧ (t.port q).relSeen = (s.port q).relSeen ∧ (t.port q).relSent = (s.port q).relSent := by
  rw [h.port]
  exact ⟨rfl, rfl, rfl⟩

end Transmits

end Sys2Proof.Machine

/-! SUPPORT. The relay of firmware images (R734, Table 19.10; O60). -/

namespace Sys2Proof.Machine

variable {s : State} {q : Nat} {p : Packet}

/-! ### The sender -/

/-- What sending from the relayed image changes: packets leave, and the place of the sender moves on. -/
structure Pumps (s t : State) : Prop where
  frame : t = { s with ports := t.ports, out := t.out, fw := { s.fw with tx := t.fw.tx } }
  tx    : ∀ x, s.fw.tx = some x → ∃ y, t.fw.tx = some y ∧ y.port = x.port ∧ y.session = x.session ∧ y.next = x.next ∧ x.sent ≤ y.sent
  seen  : ∀ q, (t.port q).relSeen = (s.port q).relSeen

theorem Pumps.refl (s : State) : Pumps s s := ⟨rfl, fun x hx => ⟨x, hx, rfl, rfl, rfl, Nat.le_refl _⟩, fun _ => rfl⟩

theorem Pumps.trans {t u : State} (h : Pumps s t) (h' : Pumps t u) : Pumps s u where
  frame := by rw [h'.frame, h.frame]
  tx x hx := by
    obtain ⟨y, hy, hport, hsession, hnext, hsent⟩ := h.tx x hx
    obtain ⟨z, hz, hport', hsession', hnext', hsent'⟩ := h'.tx y hy
    exact ⟨z, hz, hport'.trans hport, hsession'.trans hsession, hnext'.trans hnext, hsent.trans hsent'⟩
  seen q := (h'.seen q).trans (h.seen q)

/-- One packet of the sender. -/
def State.relayNext (s : State) (x : RelayTx) : State :=
  let img := s.bankImage (1 - s.activeBank)
  ((s.sendPacket x.port (relayPacket (relayW4 1 x.session (fwTotal img)) x.sent 0 (slice img x.sent 512))).modPort x.port fun p =>
    { p with relSent := (p.relSent + 1) % 256 }).setFw { s.fw with tx := some { x with sent := x.sent + 512 } }

theorem setFw_port (s : State) (w : Firmware) (q : Nat) : (s.setFw w).port q = s.port q := rfl

theorem relayNext_pumps {x : RelayTx} (hx : s.fw.tx = some x) : Pumps s (s.relayNext x) where
  frame := by
    unfold State.relayNext
    dsimp only
    rw [(sendPacket_transmits ..).frame]
    rfl
  tx y hy := by
    obtain rfl : x = y := Option.some.inj (hx.symm.trans hy)
    exact ⟨_, rfl, rfl, rfl, rfl, Nat.le_add_right ..⟩
  seen q := by
    unfold State.relayNext
    dsimp only
    generalize relayPacket _ _ _ _ = pkt
    have hsend := sendPacket_transmits s x.port pkt
    rw [setFw_port]
    by_cases hq : q = x.port
    · rw [hq, port_modPort_same]
      exact hsend.relay.2.1
    · rw [port_modPort_ne _ _ hq, hsend.other q hq]

theorem relayPump_none (h : s.fw.tx = none) (n : Nat) : s.relayPump n = s := by
  cases n with
  | zero => rfl
  | succ n => rw [State.relayPump, h]

theorem relayPump_succ {x : RelayTx} (hx : s.fw.tx = some x) (n : Nat) : s.relayPump (n + 1) =
    if fwTotal (s.bankImage (1 - s.activeBank)) ≤ x.sent ∨ 8 ≤ ((s.port x.port).relSent + 256 - (s.port x.port).relSeen) % 256 ∨
      s.portState x.port ≠ 2 then s else (s.relayNext x).relayPump n := by
  rw [State.relayPump, hx]
  dsimp only
  split
  · rfl
  · unfold State.relayNext
    dsimp only
    rw [State.modPort_fw, (sendPacket_transmits ..).fw]

theorem relayPump_pumps (n : Nat) (s : State) : Pumps s (s.relayPump n) := by
  induction n generalizing s with
  | zero => exact .refl s
  | succ n ih =>
    cases hx : s.fw.tx with
    | none => rw [relayPump_none hx]; exact .refl s
    | some x =>
      rw [relayPump_succ hx]
      split
      · exact .refl s
      · exact (relayNext_pumps hx).trans (ih _)

/-! What sending leaves as it is. -/

namespace Pumps

variable {t : State} (h : Pumps s t)
include h

theorem regs : t.regs = s.regs := by rw [h.frame]
theorem fld (r : Reg) (i j hi lo : Nat) : t.fld r i j hi lo = s.fld r i j hi lo := by rw [State.fld, reg_congr h.regs, State.fld]
theorem rbit (r : Reg) (i j b : Nat) : t.rbit r i j b = s.rbit r i j b := by rw [State.rbit, reg_congr h.regs, State.rbit]
theorem staging : t.fw.staging = s.fw.staging := by rw [h.frame]
theorem sessions : t.fw.sessions = s.fw.sessions := by rw [h.frame]
theorem image : t.fw.image = s.fw.image := by rw [h.frame]

end Pumps

/-! ### SEND (R734) -/

/-- The session that a SEND opens. -/
def State.nextSession (s : State) : Nat := (s.fw.sessions + 1) % 2 ^ 16

/-- The state in which the sender is set up. -/
def State.senderReady (s : State) : State :=
  (s.setFw { s.fw with
      sessions := s.nextSession, tx := some { port := s.fld .secRelayCfg 0 0 13 8, session := s.nextSession, next := 0, sent := 0 } }).setRbit
    .secRelayStatus 0 0 62 true

theorem senderReady_fw (s : State) : s.senderReady.fw = { s.fw with
    sessions := s.nextSession, tx := some { port := s.fld .secRelayCfg 0 0 13 8, session := s.nextSession, next := 0, sent := 0 } } := by
  rw [State.senderReady, State.setRbit_fw, State.setFw_fw]

theorem relayStart_sends (hbank : s.inactive (1 - s.activeBank) = true) (hvalid : s.bankState (1 - s.activeBank) = 1) (hnone : s.fw.tx = none) :
    s.relayStart = s.senderReady.relayPump 8 := by
  unfold State.relayStart
  simp only [hbank, hvalid, hnone, Bool.not_true, Bool.false_eq_true, ne_eq, not_true_eq_false, Option.isSome_none, or_self, if_false]
  rfl

/-- A SEND that is set up, or not, leaves the reception and the banks as they are. -/
structure KeepsReception (s t : State) : Prop where
  staging : t.fw.staging = s.fw.staging
  image   : t.fw.image = s.fw.image
  regs    : RegsOutside {Reg.secRelayStatus.addr 0 0} s t
  done    : t.rbit .secRelayStatus 0 0 61 = s.rbit .secRelayStatus 0 0 61
  result  : t.fld .secRelayStatus 0 0 55 48 = s.fld .secRelayStatus 0 0 55 48

theorem KeepsReception.refl (s : State) : KeepsReception s s := ⟨rfl, rfl, .refl s, rfl, rfl⟩

theorem relayStart_keeps (s : State) : KeepsReception s s.relayStart := by
  have hpump := relayPump_pumps 8 s.senderReady
  have hfw : s.senderReady.fw.staging = s.fw.staging ∧ s.senderReady.fw.image = s.fw.image := by
    rw [senderReady_fw]
    exact ⟨rfl, rfl⟩
  have hsent : KeepsReception s (s.senderReady.relayPump 8) := by
    refine ⟨hpump.staging.trans hfw.1, hpump.image.trans hfw.2, ?_, ?_, ?_⟩
    · exact (RegsOutside.of_regs (State.setFw_regs ..)).trans ((setRbit_outside_self ..).trans (.of_regs hpump.regs))
    · rw [hpump.rbit, State.senderReady, State.rbit_setRbit_ne _ _ _ _ _ _ _ (by decide) (by decide)]
      rfl
    · rw [hpump.fld, State.senderReady, State.fld_setRbit_ne _ _ _ _ _ (by decide) (.inl (by decide))]
      rfl
  by_cases h : !s.inactive (1 - s.activeBank) ∨ s.bankState (1 - s.activeBank) ≠ 1 ∨ s.fw.tx.isSome
  · have hstays : s.relayStart = s := if_pos h
    rw [hstays]
    exact .refl s
  · have hsends : s.relayStart = s.senderReady.relayPump 8 := if_neg h
    rw [hsends]
    exact hsent

/-- SEC_RELAY_CFG holds what its fields take of a written value. -/
def State.relayCfgWritten (s : State) (v : Nat) : State :=
  s.setReg .secRelayCfg 0 0 (Reg.secRelayCfg.written (s.reg .secRelayCfg 0 0) v)

theorem relayCfgWritten_outside (s : State) (v : Nat) : RegsOutside {Reg.secRelayCfg.addr 0 0} s (s.relayCfgWritten v) :=
  setReg_outside (Set.mem_singleton _) ..

theorem relayCfgWritten_fw (s : State) (v : Nat) : (s.relayCfgWritten v).fw = s.fw := State.setReg_fw ..

/-- OUT_PORT takes the written value. -/
theorem relayCfgWritten_port (s : State) (v : Nat) : (s.relayCfgWritten v).fld .secRelayCfg 0 0 13 8 = bits v 13 8 := by
  have hfield : (⟨13, 8, .rw, 0⟩ : Field) ∈ Reg.secRelayCfg.row.fields := by decide
  have hwritten := Reg.bits_written hfield (s.reg .secRelayCfg 0 0) v
  rw [State.relayCfgWritten, State.fld, State.reg_setReg_same, bits_mod_word _ (by decide)]
  exact hwritten

theorem exec_relaySend {v : Word32} (hsend : bit v.toNat 28 = true) : exec (.relaySend v) s = .next (s.relayCfgWritten v.toNat).relayStart := by
  show execRelaySend v s = _
  unfold execRelaySend State.writeRelayCfg
  rw [hsend]
  rfl

theorem relaySend_spec {v : Word32} (hsend : bit v.toNat 28 = true) (hbank : s.inactive (1 - s.activeBank) = true)
    (hvalid : s.bankState (1 - s.activeBank) = 1) (hnone : s.fw.tx = none) :
    ∃ t x, exec (.relaySend v) s = .next t ∧ t.fw.tx = some x ∧ x.session = (s.fw.sessions + 1) % 2 ^ 16 ∧ x.next = 0 ∧
      x.port = bits v.toNat 13 8 ∧ t.fw.sessions = x.session ∧ t.rbit .secRelayStatus 0 0 62 = true := by
  have hout := relayCfgWritten_outside s v.toNat
  have hfw := relayCfgWritten_fw s v.toNat
  have hport := relayCfgWritten_port s v.toNat
  rw [exec_relaySend hsend]
  generalize s.relayCfgWritten v.toNat = u at hout hfw hport ⊢
  have hactive : u.activeBank = s.activeBank := hout.fld (r := .secFwStatus) (i := 0) (j := 0) (by simp [Reg.addr, Reg.row, Block.base]) ..
  have hinactive : u.inactive (1 - u.activeBank) = true := by
    rw [State.inactive, State.trial, hout.rbit (r := .secFwStatus) (i := 0) (j := 0) (by simp [Reg.addr, Reg.row, Block.base]), hfw, hactive,
      ← State.trial, ← State.inactive, hbank]
  have hstate : u.bankState (1 - u.activeBank) = 1 := by
    rw [hactive]
    exact (hout.fld (r := .secBank) (i := 0) (j := 1 - s.activeBank) (by simp [Reg.addr, Reg.row, Block.base]; omega) ..).trans hvalid
  have hpump := relayPump_pumps 8 u.senderReady
  have htx : u.senderReady.fw.tx = some { port := u.fld .secRelayCfg 0 0 13 8, session := u.nextSession, next := 0, sent := 0 } := by
    rw [senderReady_fw]
  have hsessions : u.senderReady.fw.sessions = u.nextSession := by rw [senderReady_fw]
  have hnext : u.nextSession = (s.fw.sessions + 1) % 2 ^ 16 := by rw [State.nextSession, hfw]
  obtain ⟨y, hy, hyport, hysession, hynext, -⟩ := hpump.tx _ htx
  rw [relayStart_sends hinactive hstate (by rw [hfw, hnone])]
  refine ⟨_, y, rfl, hy, hysession.trans hnext, hynext, hyport.trans hport, ?_, ?_⟩
  · rw [hpump.sessions, hsessions, hysession]
  · rw [hpump.rbit, State.senderReady, State.rbit_setRbit_same _ _ _ _ _ _ (by decide)]

/-! ### Packets that arrive -/

/-- A well-formed RELAY packet arrives on an UP port while the drover answers. -/
structure RelayArrives (s : State) (q : Nat) (p : Packet) : Prop where
  port   : q < 64
  up     : s.portState q = 2
  awake  : s.inReset = false
  ready  : s.rbit .drvReady 0 0 62 = true
  step   : s.fwStep ≠ 1
  op     : p.op = 0x11
  ll     : p.ll = true
  len    : p.payload.length = p.len
  ok     : pktOk p = true
  formed : relayWellFormed p = true

section
variable (h : RelayArrives s q p)
include h

theorem RelayArrives.relayIn {msg : Nat} (hmsg : relayMsg p = msg) : relayIn q msg p s = .next (s.linkLocal q p) := by
  rw [Machine.relayIn, if_pos ⟨h.op, h.ll, hmsg, h.len⟩, inRange_next h.port]

theorem RelayArrives.linkLocal : s.linkLocal q p = match relayMsg p with
    | 1 => s.relayDataIn q p
    | 2 => s.relayAckIn q p
    | 3 => s.relayResultIn q p
    | 4 => s.relayActivateIn q p
    | 5 => s.relayAbortIn q p
    | _ => s.niLog stRefused false p.space p.cls p.op p.src 8 p.offset := by
  unfold State.linkLocal
  simp only [h.up, h.awake, h.ready, h.step, h.ok, h.op, h.formed, Bool.true_or, Bool.not_true, Bool.false_eq_true, ne_eq, not_true_eq_false,
    or_self, if_false] <;> rfl

theorem exec_relayData (hmsg : relayMsg p = 1) : exec (.relayData q p) s = .next (s.relayDataIn q p) := by
  show execRelayData q p s = _
  rw [execRelayData, h.relayIn hmsg, h.linkLocal, hmsg]
  rfl

theorem exec_relayAck (hmsg : relayMsg p = 2) : exec (.relayAck q p) s = .next (s.relayAckIn q p) := by
  show execRelayAck q p s = _
  rw [execRelayAck, h.relayIn hmsg, h.linkLocal, hmsg]
  rfl

theorem exec_relayResult (hmsg : relayMsg p = 3) : exec (.relayResult q p) s = .next (s.relayResultIn q p) := by
  show execRelayResult q p s = _
  rw [execRelayResult, h.relayIn hmsg, h.linkLocal, hmsg]
  rfl

theorem exec_relayActivate (hmsg : relayMsg p = 4) : exec (.relayActivate q p) s = .next (s.relayActivateIn q p) := by
  show execRelayActivate q p s = _
  rw [execRelayActivate, h.relayIn hmsg, h.linkLocal, hmsg]
  rfl

theorem exec_relayAbort (hmsg : relayMsg p = 5) : exec (.relayAbort q p) s = .next (s.relayAbortIn q p) := by
  show execRelayAbort q p s = _
  rw [execRelayAbort, h.relayIn hmsg, h.linkLocal, hmsg]
  rfl

end

/-! ### The receiver -/

@[simp] theorem relayFree_port (s : State) (q : Nat) : (s.relayFree q).port q = { s.port q with relFreed := ((s.port q).relFreed + 1) % 256 } :=
  port_modPort_same ..

theorem relayFree_eq (s : State) (q : Nat) : s.relayFree q = { s with ports := (s.relayFree q).ports } := rfl

@[simp] theorem relayFree_fw (s : State) (q : Nat) : (s.relayFree q).fw = s.fw := rfl
@[simp] theorem relayFree_rbit (s : State) (q : Nat) (r : Reg) (i j b : Nat) : (s.relayFree q).rbit r i j b = s.rbit r i j b := rfl
@[simp] theorem relayFree_fld (s : State) (q : Nat) (r : Reg) (i j hi lo : Nat) : (s.relayFree q).fld r i j hi lo = s.fld r i j hi lo := rfl

/-- A reception ends: the session, the end and the result are kept (R734). -/
theorem relayDone_spec (s : State) (q session : Nat) {err : Nat} (h : err < 2 ^ 8) :
    let t := s.relayDone q session err
    t.fw = { s.fw with rxLast := some (q, session) } ∧ RegsOutside {Reg.secRelayStatus.addr 0 0} s t ∧ t.rbit .secRelayStatus 0 0 61 = true ∧
      t.fld .secRelayStatus 0 0 55 48 = err := by
  unfold State.relayDone State.relayResult
  dsimp only
  generalize hu : ((s.setFw { s.fw with rxLast := some (q, session) }).setRbit .secRelayStatus 0 0 63 false) = u
  have hfw : u.fw = { s.fw with rxLast := some (q, session) } := by rw [← hu, State.setRbit_fw, State.setFw_fw]
  have hout : RegsOutside {Reg.secRelayStatus.addr 0 0} s u := by
    rw [← hu]
    exact (RegsOutside.of_regs (State.setFw_regs ..)).trans (setRbit_outside_self ..)
  have hsend := sendPacket_transmits ((u.setRbit .secRelayStatus 0 0 61 true).setFld .secRelayStatus 0 0 55 48 err) q
    (relayPacket (relayW4 3 session 0) 0 err [])
  refine ⟨?_, ?_, ?_, ?_⟩
  · rw [hsend.fw, State.setFld_fw, State.setRbit_fw, hfw]
  · exact hout.trans <| (setRbit_outside_self ..).trans <| (setFld_outside_self ..).trans <| .of_regs hsend.regs
  · rw [hsend.rbit, State.rbit_setFld_ne _ _ _ _ _ (by decide) (.inr (by decide)), State.rbit_setRbit_same _ _ _ _ _ _ (by decide)]
  · rw [hsend.fld, State.fld_setFld_same _ _ _ _ _ _ _ (by decide)]
    exact Nat.mod_eq_of_lt h

theorem secBank_notMem_relayStatus (b : Nat) (hb : b < 2) : Reg.secBank.addr 0 b ∉ ({Reg.secRelayStatus.addr 0 0} : Set Nat) := by
  simp [Reg.addr, Reg.row, Block.base]
  omega

section
variable {g : Staging}

/-- The receiver takes relayed images (Table 19.19), and `g` is what it has received in the packet's session. -/
structure Receives (s : State) (q : Nat) (p : Packet) (g : Staging) : Prop where
  accepts : s.rbit .secRelayCfg 0 0 31 = true
  staging : s.fw.staging = some g
  session : g.relay = some (q, relaySession p)

theorem Receives.relayDataIn (h : Receives s q p g) : s.relayDataIn q p = (s.relayFree q).relayTake q p g := by
  unfold State.relayDataIn
  dsimp only
  rw [relayFree_rbit, h.accepts, Bool.true_or, if_pos rfl]
  unfold State.relayData
  simp only [relayFree_fw, h.staging, h.session, if_true]

theorem relayTake_outOfOrder (hoff : p.w5.toNat ≠ g.got.length) : s.relayTake q p g = s.relayAck q (relaySession p) g.got.length := if_pos hoff

/-- DATA that follow in order, before the end of the header. -/
theorem relayTake_header (hoff : p.w5.toNat = g.got.length) (hshort : (g.got ++ p.payload).length < 4096) :
    s.relayTake q p g = ((s.setFw { s.fw with staging := some { g with got := g.got ++ p.payload } }).setNext (g.got ++ p.payload).length).relayAck
      q (relaySession p) (g.got ++ p.payload).length := by
  unfold State.relayTake
  simp only [hoff, ne_eq, not_true_eq_false, if_false, stageBytes_header rfl hshort, not_le.mpr hshort, false_and]

/-- The state in which the last DATA of an image has been taken. -/
def State.relayAll (s : State) (g : Staging) (got : List Byte) : State :=
  (s.setFw { s.fw with staging := some { g with got := got, total := fwTotal got } }).setNext got.length

/-- The last DATA: the checks of R731 decide, and a good image may be relayed on. -/
theorem relayTake_last (hoff : p.w5.toNat = g.got.length) (hlong : 4096 ≤ g.got.length) (hlen : (g.got ++ p.payload).length = fwTotal (g.got ++ p.payload))
    (htotal : fwTotal (g.got ++ p.payload) = relayTotal p) :
    let got := g.got ++ p.payload
    let x := (s.relayAll g got).stageFinish { g with got := got, total := fwTotal got }
    let t := (x.1.relayAck q (relaySession p) got.length).relayDone q (relaySession p) x.2
    s.relayTake q p g = if x.2 = 0 ∧ t.rbit .secRelayCfg 0 0 30 then t.relayStart else t := by
  have hlong' : 4096 ≤ (g.got ++ p.payload).length := by rw [List.length_append]; omega
  have hbytes := stageBytes_joined (s := s) rfl hlong' (fun h => absurd h (by omega)) hlen.le
  have hgood : ¬ (4096 ≤ (g.got ++ p.payload).length ∧ fwTotal (g.got ++ p.payload) ≠ relayTotal p) := fun h => h.2 htotal
  have hall : 4096 ≤ (g.got ++ p.payload).length ∧ (g.got ++ p.payload).length = fwTotal (g.got ++ p.payload) := ⟨hlong', hlen⟩
  unfold State.relayTake
  dsimp only
  rw [if_neg (not_not.mpr hoff), hoff, hbytes]
  dsimp only
  rw [if_neg hgood, if_pos hall]
  rfl

end

theorem setNext_spec (s : State) (n : Nat) : ∃ rs, s.setNext n = { s with regs := rs } ∧ (s.setNext n).fld .secRelayStatus 0 0 31 0 = n % 2 ^ 32 :=
  ⟨_, rfl, State.fld_setFld_same _ _ _ _ _ _ _ (by decide)⟩

/-- DATA in order, before the end of the header, join the reception and are acknowledged. -/
theorem relayData_joins {g : Staging} (ha : RelayArrives s q p) (hmsg : relayMsg p = 1) (h : Receives s q p g) (hoff : p.w5.toNat = g.got.length)
    (hshort : p.w5.toNat + p.len < 4096) :
    let f := ((s.port q).relFreed + 1) % 256
    ∃ u : State, exec (.relayData q p) s =
        .next (u.sendPacket q (relayPacket (relayW4 2 (relaySession p) 0) (p.w5.toNat + p.len) (f * 2 ^ 8) [])) ∧
      u = { s with fw := { s.fw with staging := some { g with got := g.got ++ p.payload } }, regs := u.regs, ports := u.ports } ∧
      u.port q = { s.port q with relFreed := f } ∧ u.fld .secRelayStatus 0 0 31 0 = p.w5.toNat + p.len := by
  have hlen : (g.got ++ p.payload).length = p.w5.toNat + p.len := by rw [List.length_append, ha.len, hoff]
  have htake := relayTake_header (s := s.relayFree q) (q := q) hoff (hlen.trans_lt hshort)
  obtain ⟨rs, heq, hnext⟩ := setNext_spec ((s.relayFree q).setFw { (s.relayFree q).fw with staging := some { g with got := g.got ++ p.payload } })
    (g.got ++ p.payload).length
  rw [← h.relayDataIn, hlen, State.relayAck] at htake
  rw [hlen] at heq hnext
  rw [exec_relayData ha hmsg, htake]
  generalize State.setNext _ _ = u at heq hnext ⊢
  have hport : u.port q = { s.port q with relFreed := ((s.port q).relFreed + 1) % 256 } := by rw [heq]; exact relayFree_port s q
  refine ⟨u, by rw [hport], ?_, hport, hnext.trans (Nat.mod_eq_of_lt (hshort.trans (by decide)))⟩
  rw [heq]
  rfl

/-- A reception has ended with a result, and bank `b` is as `v` has it. -/
structure ReceptionEnds (b err : Nat) (v t : State) : Prop where
  staging : t.fw.staging = none
  done    : t.rbit .secRelayStatus 0 0 61 = true
  state   : t.bankState b = v.bankState b
  image   : t.bankImage b = v.bankImage b
  result  : t.fld .secRelayStatus 0 0 55 48 = err

section
variable {b err : Nat} (hb : b < 2)
include hb

/-- A reception whose image has been checked ends with the result. -/
theorem relayEnded_ends (v : State) (q session n : Nat) (herr : err < 2 ^ 8) (hnone : v.fw.staging = none) :
    ReceptionEnds b err v ((v.relayAck q session n).relayDone q session err) := by
  have hack : Transmits q v (v.relayAck q session n) := sendPacket_transmits ..
  obtain ⟨hfw, hregs, hdone, herror⟩ := relayDone_spec (v.relayAck q session n) q session herr
  refine ⟨?_, hdone, ?_, ?_, herror⟩
  · rw [hfw, hack.fw, hnone]
  · exact (hregs.fld (secBank_notMem_relayStatus b hb) ..).trans (hack.bankState b)
  · exact (bankImage_congr (by rw [hfw]) b).trans (hack.bankImage b)

/-- Relaying the image on does not undo this. -/
theorem ReceptionEnds.ite_relayStart {v t : State} {c : Prop} [Decidable c] (h : ReceptionEnds b err v t) :
    ReceptionEnds b err v (if c then t.relayStart else t) := by
  have hkeep := relayStart_keeps t
  split
  · exact ⟨hkeep.staging.trans h.staging, hkeep.done.trans h.done, (hkeep.regs.fld (secBank_notMem_relayStatus b hb) ..).trans h.state,
      (bankImage_congr hkeep.image b).trans h.image, hkeep.result.trans h.result⟩
  · exact h

end

/-- The last DATA end the reception; the bank holds the image where DIGEST and CRCs are right. -/
theorem relayData_last {g : Staging} (ha : RelayArrives s q p) (hmsg : relayMsg p = 1) (h : Receives s q p g) (hoff : p.w5.toNat = g.got.length)
    (hlong : 4096 ≤ p.w5.toNat) (hlen : (g.got ++ p.payload).length = fwTotal (g.got ++ p.payload))
    (htotal : fwTotal (g.got ++ p.payload) = relayTotal p) (hb : g.bank < 2) :
    ∃ t, exec (.relayData q p) s = .next t ∧ t.fw.staging = none ∧ t.rbit .secRelayStatus 0 0 61 = true ∧
      (fwBodyOk (g.got ++ p.payload) = true →
        t.bankState g.bank = 1 ∧ t.bankImage g.bank = g.got ++ p.payload ∧ t.fld .secRelayStatus 0 0 55 48 = 0) ∧
      (fwBodyOk (g.got ++ p.payload) = false → t.bankState g.bank = 3 ∧ t.fld .secRelayStatus 0 0 55 48 = 7) := by
  have htake := relayTake_last (s := s.relayFree q) (q := q) hoff (hoff ▸ hlong) hlen htotal
  have hlong' : 4096 ≤ (g.got ++ p.payload).length := by rw [List.length_append]; omega
  rw [exec_relayData ha hmsg, h.relayDataIn, htake]
  generalize (s.relayFree q).relayAll g (g.got ++ p.payload) = u
  refine ⟨_, rfl, ?_⟩
  cases hbody : fwBodyOk (g.got ++ p.payload) with
  | true =>
    have hgood (t : State) (ht : ReceptionEnds g.bank 0 ((u.setImage g.bank (g.got ++ p.payload)).stageEnd g.bank 0) t) : t.fw.staging = none ∧
        t.rbit .secRelayStatus 0 0 61 = true ∧
        (true = true → t.bankState g.bank = 1 ∧ t.bankImage g.bank = g.got ++ p.payload ∧ t.fld .secRelayStatus 0 0 55 48 = 0) ∧
        (true = false → t.bankState g.bank = 3 ∧ t.fld .secRelayStatus 0 0 55 48 = 7) := by
      refine ⟨ht.staging, ht.done, fun _ => ⟨?_, ?_, ht.result⟩, nofun⟩
      · rw [ht.state, stageEnd_bankState, if_pos rfl]
      · rw [ht.image, stageEnd_bankImage, bankImage_setImage _ _ (by intro hnil; rw [hnil] at hlong'; simp at hlong')]
    rw [stageFinish_ok (g := { g with got := g.got ++ p.payload, total := fwTotal (g.got ++ p.payload) }) hlen hlong' hbody]
    exact hgood _ (.ite_relayStart hb (relayEnded_ends hb _ _ _ _ (by decide) (by rw [stageEnd_fw])))
  | false =>
    have hbad (t : State) (ht : ReceptionEnds g.bank 7 (u.stageEnd g.bank 7) t) : t.fw.staging = none ∧ t.rbit .secRelayStatus 0 0 61 = true ∧
        (false = true → t.bankState g.bank = 1 ∧ t.bankImage g.bank = g.got ++ p.payload ∧ t.fld .secRelayStatus 0 0 55 48 = 0) ∧
        (false = false → t.bankState g.bank = 3 ∧ t.fld .secRelayStatus 0 0 55 48 = 7) := by
      refine ⟨ht.staging, ht.done, nofun, fun _ => ⟨?_, ht.result⟩⟩
      rw [ht.state, stageEnd_bankState, if_neg (by decide)]
    rw [stageFinish_bad (g := { g with got := g.got ++ p.payload, total := fwTotal (g.got ++ p.payload) }) hbody]
    exact hbad _ (.ite_relayStart hb (relayEnded_ends hb _ _ _ _ (by decide) (by rw [stageEnd_fw])))

/-- An ACK of the sender's session moves it on. -/
theorem relayAck_spec {x : RelayTx} (hx : s.fw.tx = some x) (hport : x.port = q) (hsession : x.session = relaySession p) :
    ∃ y, (s.relayAckIn q p).fw.tx = some y ∧ y.next = p.w5.toNat ∧ max x.sent p.w5.toNat ≤ y.sent ∧
      ((s.relayAckIn q p).port q).relSeen = bits p.w6.toNat 15 8 := by
  unfold State.relayAckIn
  simp only [State.modPort_fw, hx, hport, hsession, and_self, if_true]
  generalize hu : (s.modPort q fun x => { x with relSeen := bits p.w6.toNat 15 8 }) = u
  have hseen : (u.port q).relSeen = bits p.w6.toNat 15 8 := by rw [← hu, port_modPort_same]
  have hpump := relayPump_pumps 8 (u.setFw { s.fw with tx := some { x with next := p.w5.toNat, sent := max x.sent p.w5.toNat } })
  obtain ⟨y, hy, -, -, hnext, hsent⟩ := hpump.tx _ rfl
  refine ⟨y, ?_, hnext, hsent, ?_⟩
  · rw [← hport, ← hsession] at *
    exact hy
  · rw [← hport, ← hsession] at *
    exact (hpump.seen _).trans hseen

/-- A RESULT of the sender's session ends the sending. -/
theorem relayResult_spec {x : RelayTx} (hx : s.fw.tx = some x) (hport : x.port = q) (hsession : x.session = relaySession p) :
    let t := s.relayResultIn q p
    t.fw.tx = none ∧ t.rbit .secRelayStatus 0 0 62 = false ∧ t.rbit .secRelayStatus 0 0 60 = true ∧
      t.fld .secRelayStatus 0 0 55 48 = bits p.w6.toNat 7 0 := by
  unfold State.relayResultIn
  simp only [hx, hport, hsession, and_self, if_true]
  refine ⟨?_, ?_, ?_, ?_⟩
  · rw [State.setFld_fw, State.setRbit_fw, State.setRbit_fw, State.setFw_fw]
  · rw [State.rbit_setFld_ne _ _ _ _ _ (by decide) (.inr (by decide)), State.rbit_setRbit_ne _ _ _ _ _ _ _ (by decide) (by decide),
      State.rbit_setRbit_same _ _ _ _ _ _ (by decide)]
  · rw [State.rbit_setFld_ne _ _ _ _ _ (by decide) (.inr (by decide)), State.rbit_setRbit_same _ _ _ _ _ _ (by decide)]
  · rw [State.fld_setFld_same _ _ _ _ _ _ _ (by decide)]
    exact Nat.mod_eq_of_lt (bits_lt ..)

/-- An ABORT of the receiver's session ends the reception. -/
theorem relayAbort_spec {g : Staging} (hstaging : s.fw.staging = some g) (hrelay : g.relay = some (q, relaySession p)) (hb : g.bank < 2) :
    let t := s.relayAbortIn q p
    t.fw.staging = none ∧ t.bankState g.bank = 3 ∧ t.rbit .secRelayStatus 0 0 61 = true := by
  unfold State.relayAbortIn
  simp only [relayFree_fw, hstaging, hrelay, if_true]
  refine ⟨?_, ?_, ?_⟩
  · rw [State.setFld_fw, State.setRbit_fw, State.setFw_fw, State.setRbit_fw, stageEnd_fw]
  · have hkept : RegsOutside {Reg.secRelayStatus.addr 0 0} ((s.relayFree q).stageEnd g.bank 9)
        ((((((s.relayFree q).stageEnd g.bank 9).setRbit .secRelayStatus 0 0 63 false).setFw
          { (((s.relayFree q).stageEnd g.bank 9).setRbit .secRelayStatus 0 0 63 false).fw with rxLast := some (q, relaySession p) }).setRbit
            .secRelayStatus 0 0 61 true).setFld .secRelayStatus 0 0 55 48 9) :=
      (setRbit_outside_self ..).trans <| (RegsOutside.of_regs (State.setFw_regs ..)).trans <| (setRbit_outside_self ..).trans (setFld_outside_self ..)
    exact (hkept.fld (secBank_notMem_relayStatus _ hb) ..).trans ((stageEnd_bankState ..).trans (if_neg (by decide)))
  · rw [State.rbit_setFld_ne _ _ _ _ _ (by decide) (.inr (by decide)), State.rbit_setRbit_same _ _ _ _ _ _ (by decide)]

/-- No ACK has come: the sender starts again from NEXT with all credits that it knows of. -/
def State.resending (s : State) (q : Nat) (x : RelayTx) : State :=
  (s.modPort q fun p => { p with relSent := p.relSeen }).setFw { s.fw with tx := some { x with sent := x.next } }

theorem resending_port (s : State) (q : Nat) (x : RelayTx) : (s.resending q x).port q = { s.port q with relSent := (s.port q).relSeen } := by
  rw [State.resending, setFw_port, port_modPort_same]

/-- Settles O60: each message by its rule; the sender by `Pumps`, the receiver by the rules of a staging. -/
theorem relaysCarryImages : Obligations.RelaysCarryImages := by
  unfold Obligations.RelaysCarryImages
  intro s q p hq hup hawake hready hstep hop hll hlen hok hformed
  have ha : RelayArrives s q p := ⟨hq, hup, hawake, hready, hstep, hop, hll, hlen, hok, hformed⟩
  refine ⟨fun v hsend hbank hvalid hnone => relaySend_spec hsend hbank hvalid hnone, fun g hmsg haccepts hstaging hrelay => ?data, fun hmsg hoff hrec => ?no,
    fun x hmsg hx hport hsession => ?ack, fun x hmsg hx hport hsession => ⟨_, exec_relayResult ha hmsg, relayResult_spec hx hport hsession⟩,
    fun hmsg hoff => ?refused, fun hmsg hon hrec hbank hvalid hidle hsvn hfloor hmatrix => ?activate,
    fun g hmsg hb hstaging hrelay => ⟨_, exec_relayAbort ha hmsg, relayAbort_spec hstaging hrelay hb⟩, fun x hx hport => ?timeout, fun hnone => ?idle⟩
  case data =>
    have hr : Receives s q p g := ⟨haccepts, hstaging, hrelay⟩
    refine ⟨fun hoff hshort => relayData_joins ha hmsg hr hoff hshort,
      fun hoff hlong hlen htotal hb => relayData_last ha hmsg hr hoff hlong hlen htotal hb, fun hoff => ?_⟩
    rw [exec_relayData ha hmsg, hr.relayDataIn, relayTake_outOfOrder hoff, State.relayAck, relayFree_port]
  case no =>
    have hno : s.relayDataIn q p = (s.relayFree q).relayNo q p := by
      unfold State.relayDataIn
      dsimp only
      rw [relayFree_rbit, relayFree_fw, hoff, hrec, Bool.or_self, if_neg Bool.false_ne_true]
    rw [exec_relayData ha hmsg, hno, State.relayNo, State.relayResult, State.relayAck, relayFree_port]
  case ack =>
    obtain ⟨y, hy, hnext, hsent, hseen⟩ := relayAck_spec (p := p) hx hport hsession
    exact ⟨_, y, exec_relayAck ha hmsg, hy, hnext, hsent, hseen⟩
  case refused =>
    rw [exec_relayActivate ha hmsg]
    unfold State.relayActivateIn
    dsimp only
    rw [relayFree_rbit, if_pos (.inl (by rw [hoff]; rfl))]
    rfl
  case activate =>
    have hbank' : (s.relayFree q).inactive (1 - (s.relayFree q).activeBank) = true := hbank
    have hvalid' : (s.relayFree q).bankState (1 - (s.relayFree q).activeBank) = 1 := hvalid
    have hactivate : s.relayActivateIn q p = (s.relayFree q).activate (1 - s.activeBank) s.fw.recovery (2 + q) (relaySession p) := by
      unfold State.relayActivateIn
      exact if_neg (by simp [hon, hbank', hvalid'])
    have hother : 1 - s.activeBank ≠ s.activeBank := by omega
    rw [exec_relayActivate ha hmsg, hactivate, hrec, activate_online (s := s.relayFree q) hidle hrec hother hsvn hfloor hmatrix]
    exact ⟨_, rfl, actStart_step .., by rw [actStart_fw]⟩
  case timeout =>
    have hexec : exec .relayAckTimeout s = .next ((s.resending q x).relayPump 8) := by
      show execRelayAckTimeout s = _
      unfold execRelayAckTimeout
      rw [hx, ← hport]
      rfl
    rw [hexec]
    have htx : (s.resending q x).fw.tx = some { x with sent := x.next } := rfl
    have hroom : ((s.resending q x).port x.port).relSent = ((s.resending q x).port x.port).relSeen := by
      rw [hport, resending_port]
    have hup' : (s.resending q x).portState x.port = 2 := by rw [hport]; exact hup
    refine ⟨fun hmore => ⟨_, rfl, congrArg _ ?_⟩, fun hend => congrArg _ ?_⟩
    · rw [relayPump_succ htx, if_neg]
      · rw [← hport]
        rfl
      · rintro (h | h | h)
        · exact absurd hmore (not_lt.mpr h)
        · simp only [hroom] at h
          omega
        · exact h hup'
    · rw [relayPump_succ htx, if_pos (.inl hend)]
      rfl
  case idle =>
    show execRelayAckTimeout s = _
    unfold execRelayAckTimeout
    rw [hnone]

end Sys2Proof.Machine

/-! SUPPORT. What no access and no ending of an operation touches: the resets, the muster, what the NI performs and whom it knows dead, and
the registers of the PLLs, of readiness and of the muster (O42, O43, O55). -/

namespace Sys2Proof.Machine

/-- `t` has the resets, the generations, the muster and the performed packets of `s`, and its held registers, but for the count of late
replies in DRV_RESET_STATUS. -/
structure Steady (s t : State) : Prop where
  rst    : t.rst = s.rst
  gen    : t.gen = s.gen
  muster : t.muster = s.muster
  proc   : t.ni.proc = s.ni.proc
  dead   : t.ni.dead = s.ni.dead
  held   : ∀ r ∈ heldRegs, r ≠ .drvResetStatus → t.reg r 0 0 = s.reg r 0 0
  status : ∀ hi lo, 32 ≤ lo → t.fld .drvResetStatus 0 0 hi lo = s.fld .drvResetStatus 0 0 hi lo

variable {s t u : State}

theorem Steady.trans (h : Steady s t) (h' : Steady t u) : Steady s u where
  rst := h'.rst.trans h.rst
  gen := h'.gen.trans h.gen
  muster := h'.muster.trans h.muster
  proc := h'.proc.trans h.proc
  dead := h'.dead.trans h.dead
  held r hr hne := (h'.held r hr hne).trans (h.held r hr hne)
  status hi lo hlo := (h'.status hi lo hlo).trans (h.status hi lo hlo)

theorem Steady.congr (h : (t.regs, t.rst, t.gen, t.muster, t.ni.proc, t.ni.dead) = (s.regs, s.rst, s.gen, s.muster, s.ni.proc, s.ni.dead) := by rfl) :
    Steady s t := by
  simp only [Prod.mk.injEq] at h
  obtain ⟨hregs, hrst, hgen, hmuster, hproc, hdead⟩ := h
  exact ⟨hrst, hgen, hmuster, hproc, hdead, fun r _ _ => reg_congr hregs r 0 0, fun hi lo _ => by rw [State.fld, State.fld, reg_congr hregs]⟩

theorem Steady.refl (s : State) : Steady s s := ⟨rfl, rfl, rfl, rfl, rfl, fun _ _ _ => rfl, fun _ _ _ => rfl⟩

theorem Steady.congr_walked (h : t.walked = s.walked) : Steady s t := by
  simp only [State.walked, Prod.mk.injEq] at h
  obtain ⟨-, -, -, -, -, -, -, hregs, hrst, hgen, hmuster, hproc, hdead⟩ := h
  exact .congr (by rw [hregs, hrst, hgen, hmuster, hproc, hdead])

theorem heldRegs_drv : ∀ r ∈ heldRegs, r.row.block = .drv := by decide

theorem Steady.setReg (s : State) {r : Reg} (i j v : Nat) (hr : r.isFree = true) : Steady s (s.setReg r i j v) := by
  have hreg (x : Reg) (hx : x ∈ heldRegs) : (s.setReg r i j v).reg x 0 0 = s.reg x 0 0 :=
    s.reg_drv_setReg (heldRegs_drv x hx) (by rintro rfl; simp [Reg.isFree, hx] at hr) ..
  exact ⟨rfl, rfl, rfl, rfl, rfl, fun x hx _ => hreg x hx, fun hi lo _ => by rw [State.fld, State.fld, hreg _ (by decide)]⟩

theorem Steady.late (s : State) : Steady s (s.incFld .drvResetStatus 0 0 31 0) := by
  refine ⟨rfl, rfl, rfl, rfl, rfl, fun x hx hne => ?_, fun hi lo hlo => State.fld_setFld_ne _ _ _ _ _ _ _ _ _ (by decide) (.inr (by omega))⟩
  exact s.reg_drv_setReg (heldRegs_drv x hx) hne ..

/-- Steadiness as a relation that the single changes respect. -/
def steadyFrame : Frame where
  rel := Steady
  trans := Steady.trans
  congr := Steady.congr_walked
  setReg s _ i j v hr := .setReg s i j v hr
  late := .late
  dram _ _ _ := .congr
  store _ _ _ := .congr
  scratch _ _ _ := .congr
  evt _ _ _ := .congr
  core _ _ _ _ _ := .congr
  notify _ _ _ _ := .congr

theorem Walk.steady (h : Walk steadyFrame s t) : Steady s t := h

end Sys2Proof.Machine

/-! SUPPORT. A requested reset starts: QUIESCE and the registers that show it (O42, O43). -/

namespace Sys2Proof.Machine

theorem retryProc_idle {s : State} (h : s.ni.proc = []) : s.retryProc = s := by rw [State.retryProc, h]; rfl

variable {s t u : State} {r : ResetOp}

theorem Walk.quiescing {F : Frame} (h : Walk F s t) {f : Nat} {cs : List Nat} : Walk F s ((cs.foldl (fun s c =>
    ((s.core f c).dma.filter fun d => d.started && d.op == 0x04).foldl (fun s d =>
      (s.stopPeat f c d stTargetReset).dmaFail f c d stTargetReset) s) t).feedLost fun f' _ => f' == f) :=
  (h.foldl fun _ _ h => h.foldl fun _ _ h => h.stopPeat.dmaFail).feedLost

theorem quiesceFlock_steady (h : s.ni.proc = []) (f : Nat) : Steady s (s.quiesceFlock f) := by
  unfold State.quiesceFlock
  have hwalk : Walk steadyFrame s _ := Walk.self.quiescing (f := f) (cs := s.cores.filterMap fun e => if e.1 / 120 = f then some (e.1 % 120) else none)
  dsimp only
  rw [retryProc_idle (hwalk.steady.proc.trans h)]
  exact hwalk.steady

theorem quiesceFlocks_steady (h : s.ni.proc = []) (fs : List Nat) : Steady s (fs.foldl State.quiesceFlock s) := by
  induction fs generalizing s with
  | nil => exact .refl s
  | cons f fs ih =>
    have hf := quiesceFlock_steady h f
    rw [List.foldl_cons]
    generalize s.quiesceFlock f = t at hf
    exact hf.trans (ih (hf.proc.trans h))

theorem Steady.rbit (h : Steady s t) {b : Nat} (hb : 32 ≤ b) : t.rbit .drvResetStatus 0 0 b = s.rbit .drvResetStatus 0 0 b := by
  rw [State.rbit_eq_fld, h.status b b hb, ← State.rbit_eq_fld]

theorem Steady.heldBit (h : Steady s t) {r : Reg} (hr : r ∈ heldRegs) (hne : r ≠ .drvResetStatus) (b : Nat) :
    t.rbit r 0 0 b = s.rbit r 0 0 b := by rw [State.rbit, h.held r hr hne, State.rbit]

theorem showReset_only (s : State) (r : ResetOp) : RegsOnly s (s.showReset r) :=
  .ite ((((RegsOnly.refl s).setFld ..).setFld ..).setFld ..) (.refl s)

/-- The registers that a reset shows itself in: all but DRV_RESET_STATUS stay. -/
theorem showReset_reg (s : State) (r : ResetOp) {x : Reg} (hx : x ≠ .drvResetStatus) (i j : Nat) :
    (s.showReset r).reg x i j = s.reg x i j := by
  unfold State.showReset
  split
  · simp only [State.setFld]
    rw [State.reg_setReg_drv _ rfl hx.symm, State.reg_setReg_drv _ rfl hx.symm, State.reg_setReg_drv _ rfl hx.symm]
  · rfl

theorem showReset_fields (s : State) (h : r.requested = true) :
    (s.showReset r).fld .drvResetStatus 0 0 58 56 = r.phase % 8 ∧ (s.showReset r).fld .drvResetStatus 0 0 52 50 = r.scope % 8 ∧
      (s.showReset r).fld .drvResetStatus 0 0 49 40 = r.target % 1024 := by
  rw [State.showReset, if_pos h]
  refine ⟨?_, ?_, State.fld_setFld_same _ _ _ _ _ _ _ (by decide)⟩
  · rw [State.fld_setFld_ne _ _ _ _ _ _ _ _ _ (by decide) (by omega), State.fld_setFld_ne _ _ _ _ _ _ _ _ _ (by decide) (by omega)]
    exact State.fld_setFld_same _ _ _ _ _ _ _ (by decide)
  · rw [State.fld_setFld_ne _ _ _ _ _ _ _ _ _ (by decide) (by omega)]
    exact State.fld_setFld_same _ _ _ _ _ _ _ (by decide)

theorem showReset_bit (s : State) (r : ResetOp) {b : Nat} (hb : 58 < b) : (s.showReset r).rbit .drvResetStatus 0 0 b =
    s.rbit .drvResetStatus 0 0 b := by
  unfold State.showReset
  split
  · rw [State.rbit_setFld_ne _ _ _ _ _ (by decide) (by omega), State.rbit_setFld_ne _ _ _ _ _ (by decide) (by omega),
      State.rbit_setFld_ne _ _ _ _ _ (by decide) (by omega)]
  · rfl

/-- Reset `r` stands in the list, in DRAIN, and is shown. -/
def State.begun (s : State) (r : ResetOp) : State := (s.setRst (s.rst ++ [r])).showReset r

theorem begun_rst (s : State) (r : ResetOp) : (s.begun r).rst = s.rst ++ [r] := by
  rw [State.begun, (showReset_only ..).eq]
  rfl

theorem begun_gen (s : State) (r : ResetOp) : (s.begun r).gen = s.gen := by
  rw [State.begun, (showReset_only ..).eq]
  rfl

theorem begun_proc (s : State) (r : ResetOp) : (s.begun r).ni = s.ni := by
  rw [State.begun, (showReset_only ..).eq]
  rfl

theorem scopeReady_only (s : State) (r : ResetOp) : RegsOnly s (s.scopeReady r false) := by
  unfold State.scopeReady
  split
  · exact ((RegsOnly.refl s).setRbit ..).setRbit ..
  · exact ((RegsOnly.refl s).setRbit ..).setRbit ..
  · exact .refl s

theorem setRbit_status (s : State) {r : Reg} (hr : r ≠ .drvResetStatus) (i j b : Nat) (v : Bool) :
    (s.setRbit r i j b v).reg .drvResetStatus 0 0 = s.reg .drvResetStatus 0 0 := s.reg_drv_setReg rfl hr.symm ..

theorem scopeReady_status (s : State) (r : ResetOp) : (s.scopeReady r false).reg .drvResetStatus 0 0 = s.reg .drvResetStatus 0 0 := by
  unfold State.scopeReady
  split
  · exact (setRbit_status _ (by decide) ..).trans (setRbit_status _ (by decide) ..)
  · exact (setRbit_status _ (by decide) ..).trans (setRbit_status _ (by decide) ..)
  · rfl

theorem setRbit_clk (s : State) {r : Reg} (hr : r ≠ .drvClkStatus) (i j b : Nat) (v : Bool) :
    (s.setRbit r i j b v).reg .drvClkStatus 0 0 = s.reg .drvClkStatus 0 0 := s.reg_drv_setReg rfl hr.symm ..

theorem scopeReady_clk (s : State) (r : ResetOp) : (s.scopeReady r false).reg .drvClkStatus 0 0 = s.reg .drvClkStatus 0 0 := by
  unfold State.scopeReady
  split
  · exact (setRbit_clk _ (by decide) ..).trans (setRbit_clk _ (by decide) ..)
  · exact (setRbit_clk _ (by decide) ..).trans (setRbit_clk _ (by decide) ..)
  · rfl

/-- What the part does before its reset is entered in the list: rows that are being updated are finished (R358). -/
def State.rowsEnded (s : State) (r : ResetOp) : State := if r.scope = 2 then s.finishRows r.target else s

theorem rowsEnded_steady (s : State) (r : ResetOp) : Steady s (s.rowsEnded r) :=
  Walk.steady (Walk.ite Walk.self.finishRows .self)

/-- QUIESCE: the reset is entered, what waits at the part ends, and then its ready bits fall. -/
theorem quiesce_spec (h : s.ni.proc = []) (r : ResetOp) : ∃ w, Steady ((s.rowsEnded r).begun r) w ∧ s.quiesce r = w.scopeReady r false := by
  have hproc : ((s.rowsEnded r).begun r).ni.proc = [] := by rw [begun_proc]; exact (rowsEnded_steady s r).proc.trans h
  have hflocks := quiesceFlocks_steady hproc r.flocks
  unfold State.quiesce
  dsimp only
  rw [← State.rowsEnded, ← State.begun]
  split
  case h_1 h2 => exact ⟨_, hflocks.trans (Walk.steady Walk.self.refuseAsks.refuseAll), rfl⟩
  case h_2 h3 => exact ⟨_, hflocks.trans (Walk.steady Walk.self.quiesceKiln), rfl⟩
  case h_3 h2 h3 =>
    refine ⟨_, hflocks, ?_⟩
    unfold State.scopeReady
    split
    · exact absurd ‹_› h2
    · exact absurd ‹_› h3
    · rfl

/-- What a reset that has just begun shows. -/
structure Draining (s t : State) (r : ResetOp) : Prop where
  rst    : t.rst = s.rst ++ [r]
  gen    : t.gen = s.gen
  clk    : t.reg .drvClkStatus 0 0 = s.reg .drvClkStatus 0 0
  busy   : t.rbit .drvResetStatus 0 0 63 = s.rbit .drvResetStatus 0 0 63
  fields : r.requested = true → t.fld .drvResetStatus 0 0 58 56 = r.phase % 8 ∧ t.fld .drvResetStatus 0 0 52 50 = r.scope % 8 ∧
    t.fld .drvResetStatus 0 0 49 40 = r.target % 1024

theorem quiesce_draining (h : s.ni.proc = []) (r : ResetOp) : Draining s (s.quiesce r) r := by
  obtain ⟨w, hw, heq⟩ := quiesce_spec h r
  have hrows := rowsEnded_steady s r
  have hstatus (hi lo : Nat) (hlo : 32 ≤ lo) : (s.quiesce r).fld .drvResetStatus 0 0 hi lo =
      ((s.rowsEnded r).begun r).fld .drvResetStatus 0 0 hi lo := by
    rw [heq, State.fld, scopeReady_status, ← State.fld, hw.status hi lo hlo]
  refine ⟨?_, ?_, ?_, ?_, fun hreq => ?_⟩
  · rw [heq, (scopeReady_only ..).eq]
    exact (hw.rst.trans (begun_rst ..)).trans (by rw [hrows.rst])
  · rw [heq, (scopeReady_only ..).eq]
    exact (hw.gen.trans (begun_gen ..)).trans hrows.gen
  · rw [heq, scopeReady_clk, hw.held _ (by decide) (by decide), State.begun, showReset_reg _ _ (by decide)]
    exact hrows.held _ (by decide) (by decide)
  · rw [State.rbit_eq_fld, hstatus _ _ (by decide), ← State.rbit_eq_fld, State.begun, showReset_bit _ _ (by decide)]
    exact hrows.rbit (by decide)
  · rw [hstatus _ _ (by decide), hstatus _ _ (by decide), hstatus _ _ (by decide)]
    exact showReset_fields _ hreq

theorem setRbit_false_ready (s : State) (p b : Nat) : (s.setRbit .stkStatus p 0 b false).pastureReady p = s.pastureReady p := by
  rw [State.pastureReady, State.rbit, State.setRbit, State.setFld, State.reg_drv_setReg _ rfl (by decide), ← State.rbit, State.pastureReady]

/-- A pasture in DRAIN is not ready, and neither is its stack. -/
theorem scopeReady_pasture (s : State) (h : r.scope = 2) (ht : r.target < 12) : (s.scopeReady r false).pastureReady r.target = false ∧
    (s.scopeReady r false).stkReady r.target = false := by
  unfold State.scopeReady
  rw [h]
  refine ⟨?_, State.rbit_setRbit_same _ _ _ _ _ _ (by decide)⟩
  exact (setRbit_false_ready ..).trans (State.rbit_setRbit_same _ _ _ _ _ _ (by omega))

/-! ### The GO write -/

theorem requestReset_starts (s : State) {scope target : Nat} (hbusy : s.rbit .drvResetStatus 0 0 63 = false)
    (hfold : s.rbit .drvFoldStatus 0 0 63 = false) (htarget : targetOk scope target = true) :
    s.requestReset scope target = (s.setRbit .drvResetStatus 0 0 63 true).startReset scope target true false := by
  rw [State.requestReset, hbusy, hfold, htarget]
  rfl

/-- A reset of a flock, a pasture or a slice starts with the drain, when no other runs. -/
theorem startReset_drains (s : State) {scope target : Nat} {requested lockWait : Bool} (hrst : s.rst = []) (hscope : scope < 4) :
    s.startReset scope target requested lockWait =
      (s.setRst []).quiesce { scope := scope, target := target, phase := 2, requested := requested, lockWait := lockWait, peers := [] } := by
  unfold State.startReset
  dsimp only
  rw [hrst, if_neg (by omega)]
  simp

/-- A reset of a port or a hearth is in REINIT at once. -/
theorem startReset_reinit (s : State) {scope target : Nat} {requested lockWait : Bool} (hrst : s.rst = []) (hscope : scope = 4 ∨ scope = 5) :
    s.startReset scope target requested lockWait =
      let r : ResetOp := { scope := scope, target := target, phase := 4, requested := requested, lockWait := lockWait
                           peers := (s.setRst []).peersOf { scope := scope, target := target, phase := 2, requested := requested, lockWait := lockWait, peers := [] } }
      ((s.setRst []).begun r).clearScope r := by
  unfold State.startReset
  dsimp only
  rw [hrst, if_pos hscope]
  simp
  rfl

end Sys2Proof.Machine

/-! SUPPORT. The GO writes, and the ends of a drain and of a reset (O42). -/

namespace Sys2Proof.Machine

variable {s t u : State} {r : ResetOp}

theorem writeResetCtrl_go {v : Nat} (h : bit v 31 = true) (h7 : bits v 26 24 ≠ 7) :
    s.writeResetCtrl v = (s.resetCtrl v).requestReset (bits v 26 24) (bits v 9 0) := by
  rw [State.writeResetCtrl, h, if_neg h7]
  rfl

/-- The write of DRV_RESET_CTRL itself changes no other register. -/
theorem resetCtrl_only (s : State) (v : Nat) : RegsOnly s (s.resetCtrl v) := (RegsOnly.refl s).setReg ..

theorem resetCtrl_reg (s : State) (v : Nat) {x : Reg} (hx : x ≠ .drvResetCtrl) (i j : Nat) : (s.resetCtrl v).reg x i j = s.reg x i j :=
  s.reg_setReg_drv rfl hx.symm ..

/-- No reset and no fold operation runs, and the NI performs no packet. -/
structure State.Idles (s : State) : Prop where
  rst   : s.rst = []
  busy  : s.rbit .drvResetStatus 0 0 63 = false
  fold  : s.rbit .drvFoldStatus 0 0 63 = false
  proc  : s.ni.proc = []

/-- The state in which a GO write starts its reset. -/
def State.asked (s : State) (v : Nat) : State := ((s.resetCtrl v).setRbit .drvResetStatus 0 0 63 true).setRst []

theorem setRst_rbit (s : State) (rs : List ResetOp) (r : Reg) (i j b : Nat) : (s.setRst rs).rbit r i j b = s.rbit r i j b := rfl

theorem asked_busy (s : State) (v : Nat) : (s.asked v).rbit .drvResetStatus 0 0 63 = true := by
  rw [State.asked, setRst_rbit]
  exact (s.resetCtrl v).rbit_setRbit_same _ _ _ _ _ (by decide)

theorem asked_rst (s : State) (v : Nat) : (s.asked v).rst = [] := rfl
theorem asked_gen (s : State) (v : Nat) : (s.asked v).gen = s.gen := by
  rw [State.asked, State.setRst_gen, State.setRbit_gen, State.resetCtrl, State.setReg_gen]
theorem asked_ni (s : State) (v : Nat) : (s.asked v).ni = s.ni := by
  rw [State.asked, State.setRst_ni, State.setRbit_ni, State.resetCtrl, State.setReg_ni]

theorem asked_from_rst (h : s.rst = []) (v : Nat) : ((s.resetCtrl v).setRbit .drvResetStatus 0 0 63 true).rst = [] := by
  rw [State.setRbit_rst, State.resetCtrl, State.setReg_rst, h]

section
variable {v : Nat} (h : s.Idles) (hgo : bit v 31 = true)
include h hgo

theorem State.Idles.writeResetCtrl {scope : Nat} (hscope : bits v 26 24 = scope) (htarget : targetOk scope (bits v 9 0) = true) :
    s.writeResetCtrl v = ((s.resetCtrl v).setRbit .drvResetStatus 0 0 63 true).startReset scope (bits v 9 0) true false := by
  have h7 : bits v 26 24 ≠ 7 := by
    rintro h7
    rw [← hscope, h7] at htarget
    cases htarget
  rw [writeResetCtrl_go hgo h7, requestReset_starts _ _ _ (by rwa [hscope]), hscope]
  · rw [State.rbit, resetCtrl_reg _ _ (by decide), ← State.rbit, h.busy]
  · rw [State.rbit, resetCtrl_reg _ _ (by decide), ← State.rbit, h.fold]

theorem State.Idles.drains {scope : Nat} (hscope : bits v 26 24 = scope) (hlt : scope < 4) (htarget : targetOk scope (bits v 9 0) = true) :
    s.writeResetCtrl v = (s.asked v).quiesce
      { scope := scope, target := bits v 9 0, phase := 2, requested := true, lockWait := false, peers := [] } := by
  rw [h.writeResetCtrl hgo hscope htarget, startReset_drains _ (asked_from_rst h.rst v) hlt, State.asked]

/-- What a requested reset of a flock, a pasture or a slice shows. -/
theorem State.Idles.draining {scope : Nat} (hscope : bits v 26 24 = scope) (hlt : scope < 4) (htarget : targetOk scope (bits v 9 0) = true) :
    (s.writeResetCtrl v).rbit .drvResetStatus 0 0 63 = true ∧
      (s.writeResetCtrl v).rst = [{ scope := scope, target := bits v 9 0, phase := 2, requested := true, lockWait := false, peers := [] }] ∧
      (s.writeResetCtrl v).gen = s.gen ∧ (s.writeResetCtrl v).fld .drvResetStatus 0 0 58 56 = 2 ∧
      (s.writeResetCtrl v).fld .drvResetStatus 0 0 52 50 = scope ∧ (s.writeResetCtrl v).fld .drvResetStatus 0 0 49 40 = bits v 9 0 := by
  have hd := quiesce_draining (s := s.asked v) (by rw [asked_ni, h.proc])
    { scope := scope, target := bits v 9 0, phase := 2, requested := true, lockWait := false, peers := [] }
  rw [← h.drains hgo hscope hlt htarget] at hd
  obtain ⟨hphase, hsc, htg⟩ := hd.fields rfl
  have hrst := hd.rst
  rw [asked_rst, List.nil_append] at hrst
  refine ⟨hd.busy.trans (asked_busy s v), hrst, hd.gen.trans (asked_gen s v), hphase, hsc.trans (Nat.mod_eq_of_lt (show scope < 8 by omega)), htg.trans ?_⟩
  exact Nat.mod_eq_of_lt (bits_lt ..)

end

theorem quiesce_flock_quiet (h : s.ni.proc = []) (hr : r.scope = 1) : (s.quiesce r).flockQuiet r.target = true := by
  have hmem : r ∈ (s.quiesce r).rst := by simp [(quiesce_draining h r).rst]
  rw [State.flockQuiet, List.any_eq_true.mpr ⟨r, hmem, by simp [ResetOp.hasFlock, hr]⟩, Bool.or_true]

theorem quiesce_pasture_unready (h : s.ni.proc = []) (hr : r.scope = 2) (ht : r.target < 12) :
    (s.quiesce r).pastureReady r.target = false ∧ (s.quiesce r).stkReady r.target = false := by
  obtain ⟨w, -, heq⟩ := quiesce_spec h r
  rw [heq]
  exact scopeReady_pasture w hr ht

/-! ### Ports and hearths -/

theorem clearScope_steady (s : State) (hr : r.scope = 4 ∨ r.scope = 5) :
    Steady { s with gen := Sparse.upd 0 s.gen (r.scope * 1024 + r.target) (· + 1) } (s.clearScope r) := by
  have hflocks : r.flocks = [] := by rw [ResetOp.flocks, if_neg (by omega), if_neg (by omega)]
  unfold State.clearScope
  rw [hflocks]
  rcases hr with hr | hr
  · rw [hr]
    exact Walk.steady Walk.self.resetPort
  · rw [hr]
    exact Walk.steady (Walk.self.foldl fun _ _ h => h.resetPort)

theorem gen_upd (m : SMap Nat) (k : Nat) : Sparse.get 0 (Sparse.upd 0 m k (· + 1)) k = Sparse.get 0 m k + 1 := by
  rw [Sparse.upd, Sparse.get_set_same]

/-- A requested reset of a port or a hearth. -/
theorem State.Idles.reinits {v scope : Nat} {peers : List Nat} (h : s.Idles) (hgo : bit v 31 = true) (hscope : bits v 26 24 = scope)
    (h45 : scope = 4 ∨ scope = 5) (htarget : targetOk scope (bits v 9 0) = true)
    (hpeers : ∀ t : State, t.peersOf { scope := scope, target := bits v 9 0, phase := 2, requested := true, lockWait := false, peers := [] } = peers) :
    (s.writeResetCtrl v).rbit .drvResetStatus 0 0 63 = true ∧
      (s.writeResetCtrl v).rst = [{ scope := scope, target := bits v 9 0, phase := 4, requested := true, lockWait := false, peers := peers }] ∧
      Sparse.get 0 (s.writeResetCtrl v).gen (scope * 1024 + bits v 9 0) = Sparse.get 0 s.gen (scope * 1024 + bits v 9 0) + 1 := by
  rw [h.writeResetCtrl hgo hscope htarget, startReset_reinit _ (asked_from_rst h.rst v) h45, hpeers, ← State.asked]
  dsimp only
  generalize hr : (⟨scope, bits v 9 0, 4, true, false, peers⟩ : ResetOp) = r
  have hscope' : r.scope = scope := by rw [← hr]
  have htarget' : r.target = bits v 9 0 := by rw [← hr]
  have hst := clearScope_steady (r := r) ((s.asked v).begun r) (hscope' ▸ h45)
  refine ⟨(hst.rbit (b := 63) (by decide)).trans ?_, hst.rst.trans ((begun_rst ..).trans (by rw [asked_rst, List.nil_append])), ?_⟩
  · show (State.begun _ _).rbit .drvResetStatus 0 0 63 = true
    rw [State.begun, showReset_bit _ _ (by decide), setRst_rbit, asked_busy]
  · rw [hst.gen, hscope', htarget', gen_upd, begun_gen, asked_gen]

/-! ### The last acknowledgement -/

theorem putReset_single (h : s.rst = [r]) (new : ResetOp) : s.putReset r new = (s.setRst [new]).showReset new := by
  rw [State.putReset, h]
  simp

theorem tryFinish_port {resume : State → State} (h : s.rst = [r]) (hr : r.scope = 4) (hpeers : r.peers = []) (hlock : r.lockWait = false)
    (hreq : r.requested = true) (hfold : s.folding = none) :
    s.tryFinish resume r = ((((s.putReset r { r with phase := 0 }).setRst []).setRbit .drvResetStatus 0 0 63 false).setRbit .drvResetStatus 0 0 62 true) := by
  have hflocks : r.flocks = [] := by rw [ResetOp.flocks, if_neg (by omega), if_neg (by omega)]
  have hready (t : State) : t.scopeReady r true = t := by
    rw [State.scopeReady, hr]
    rfl
  have hfolding : (((s.putReset r { r with phase := 0 }).setRst []).folding) = none := by
    rw [putReset_single h, (showReset_only ..).eq]
    exact hfold
  have hgone : (s.rst.filter fun x => x != r) = [] := by simp [h]
  rw [State.tryFinish, if_pos ⟨hpeers, by rw [hlock]; rfl⟩]
  dsimp only
  rw [hgone, hready, State.afterReset, hflocks]
  simp only [List.foldl_nil, ite_self]
  rw [if_pos hreq, hfolding, Option.isSome_none, if_neg Bool.false_ne_true]

section
variable {resume : State → State} (hr : r.scope = 4) (hphase : r.phase = 4) (hpeers : r.peers = [900 + r.target]) (hrst : s.rst = [r])
include hr hphase hpeers hrst

theorem reinitAck_last (h1 : s.portState r.target ≠ 1) (h3 : s.portState r.target ≠ 3) :
    s.reinitAck resume (900 + r.target) = (s.putReset r { r with peers := [] }).tryFinish resume { r with peers := [] } := by
  have hfind : (s.rst.find? fun x => x.phase == 4 && x.peers.contains (900 + r.target)) = some r := by
    rw [hrst]
    simp [hphase, hpeers]
  have hmay : s.mayAck (900 + r.target) = true := by
    rw [State.mayAck, if_neg (by omega), if_neg (by omega), if_pos (by omega), Nat.add_sub_cancel_left]
    simp [h1, h3]
  have hnone : r.peers.filter (· != 900 + r.target) = [] := by simp [hpeers]
  rw [State.reinitAck, hfind]
  dsimp only
  rw [hmay, hnone, if_neg (by decide), if_neg (by omega)]

theorem reinitAck_port (hreq : r.requested = true) (hlock : r.lockWait = false) (hfold : s.folding = none)
    (h1 : s.portState r.target ≠ 1) (h3 : s.portState r.target ≠ 3) :
    (s.reinitAck resume (900 + r.target)).rst = [] ∧ (s.reinitAck resume (900 + r.target)).rbit .drvResetStatus 0 0 63 = false ∧
      (s.reinitAck resume (900 + r.target)).rbit .drvResetStatus 0 0 62 = true ∧
      s.reinitAck resume (900 + r.target) = { s with rst := [], regs := (s.reinitAck resume (900 + r.target)).regs } := by
  have hput : (s.putReset r { r with peers := [] }).rst = [{ r with peers := [] }] := by
    rw [putReset_single hrst, (showReset_only ..).eq]
    rfl
  have hfolding : (s.putReset r { r with peers := [] }).folding = none := by
    rw [putReset_single hrst, (showReset_only ..).eq]
    exact hfold
  rw [reinitAck_last hr hphase hpeers hrst h1 h3, tryFinish_port (r := { r with peers := [] }) hput hr rfl hlock hreq hfolding]
  have hframe : (s.putReset r { r with peers := [] }).putReset { r with peers := [] } { r with peers := [], phase := 0 } =
      { s with rst := [{ r with peers := [], phase := 0 }]
               regs := ((s.putReset r { r with peers := [] }).putReset { r with peers := [] } { r with peers := [], phase := 0 }).regs } := by
    have hfirst := (showReset_only (s.setRst [{ r with peers := [] }]) { r with peers := [] }).eq
    rw [← putReset_single hrst] at hfirst
    rw [putReset_single hput, (showReset_only ..).eq, hfirst]
    rfl
  generalize (s.putReset r { r with peers := [] }).putReset { r with peers := [] } { r with peers := [], phase := 0 } = t at hframe
  refine ⟨by rw [State.setRbit_rst, State.setRbit_rst]; rfl, ?_, State.rbit_setRbit_same _ _ _ _ _ _ (by decide), ?_⟩
  · rw [State.rbit_setRbit_ne _ _ _ _ _ _ _ (by decide) (by decide), State.rbit_setRbit_same _ _ _ _ _ _ (by decide)]
  · have honly := (((RegsOnly.refl (t.setRst [])).setRbit .drvResetStatus 0 0 63 false).setRbit .drvResetStatus 0 0 62 true).eq
    rw [honly]
    generalize (((t.setRst []).setRbit .drvResetStatus 0 0 63 false).setRbit .drvResetStatus 0 0 62 true).regs = m
    rw [hframe]
    rfl

end

theorem reinitAck_unasked {resume : State → State} {peer : Nat} (h : ∀ x ∈ s.rst, peer ∉ x.peers) : s.reinitAck resume peer = s := by
  have hnone : (s.rst.find? fun x => x.phase == 4 && x.peers.contains peer) = none := by
    rw [List.find?_eq_none]
    intro x hx
    simp [h x hx]
  rw [State.reinitAck, hnone]

theorem drainEnd_of_draining {resume : State → State} (h : s.draining = some r) :
    s.drainEnd resume = if s.drained r then s.enterReinit resume r false else s := by rw [State.drainEnd, h]

/-- A GO write that finds BUSY, or a target outside Table 16.2, only sets REJECTED. -/
theorem writeResetCtrl_rejected {v : Nat} (hgo : bit v 31 = true) (hscope : bits v 26 24 = 1)
    (h : s.rbit .drvResetStatus 0 0 63 = true ∨ s.rbit .drvFoldStatus 0 0 63 = true ∨ 672 ≤ bits v 9 0) :
    RegsOnly s (s.writeResetCtrl v) ∧ (s.writeResetCtrl v).rbit .drvResetStatus 0 0 61 = true := by
  have hno : ((s.resetCtrl v).rbit .drvResetStatus 0 0 63 || (s.resetCtrl v).rbit .drvFoldStatus 0 0 63 || !targetOk 1 (bits v 9 0)) = true := by
    rw [show (s.resetCtrl v).rbit .drvResetStatus 0 0 63 = _ from congrArg (bit · 63) (resetCtrl_reg s v (by decide) 0 0),
      show (s.resetCtrl v).rbit .drvFoldStatus 0 0 63 = _ from congrArg (bit · 63) (resetCtrl_reg s v (by decide) 0 0), ← State.rbit, ← State.rbit]
    rcases h with h | h | h
    · rw [h]
      rfl
    · rw [h, Bool.or_true]
      rfl
    · rw [targetOk, decide_eq_false (by omega), Bool.not_false, Bool.or_true]
  rw [writeResetCtrl_go hgo (by omega), hscope, State.requestReset, if_pos hno]
  exact ⟨(resetCtrl_only s v).setRbit .., State.rbit_setRbit_same _ _ _ _ _ _ (by decide)⟩

/-- Settles O42: a GO write enters its reset in the list and shows it, and the ends are those of the drain and of the last peer. -/
theorem requestedResetsRun : Obligations.RequestedResetsRun := by
  refine ⟨fun s v => ?_, fun s r => ⟨fun hdrain => ⟨fun h => ?_, fun h => ?_, ?_⟩, fun hr _ hreq hlock hphase hpeers hrst hfold h1 h3 =>
    ⟨_, rfl, reinitAck_port hr hphase hpeers hrst hreq hlock hfold h1 h3⟩, fun peer h => ?_, fun peer res n => rfl⟩⟩
  · have idles (hidle : s.rst = [] ∧ s.rbit .drvResetStatus 0 0 63 = false ∧ s.rbit .drvFoldStatus 0 0 63 = false ∧ s.ni.proc = []) :
        s.Idles := ⟨hidle.1, hidle.2.1, hidle.2.2.1, hidle.2.2.2⟩
    refine ⟨fun hgo hidle ht => ?_, fun hgo hidle ht => ?_, fun hgo hidle ht => ?_, fun hgo hidle ht => ?_, fun hgo hidle ht => ?_,
      fun hgo h => ?_⟩
    · have hok := decide_eq_true ht
      refine ⟨⟨_, rfl, (idles hidle).draining hgo.1 hgo.2 (by decide) hok⟩, _, rfl, ?_⟩
      rw [(idles hidle).drains hgo.1 hgo.2 (by decide) hok]
      exact quiesce_flock_quiet (r := ⟨1, _, 2, true, false, []⟩) (by rw [asked_ni]; exact (idles hidle).proc) rfl
    · have hok := decide_eq_true ht
      refine ⟨⟨_, rfl, (idles hidle).draining hgo.1 hgo.2 (by decide) hok⟩, _, rfl, ?_⟩
      rw [(idles hidle).drains hgo.1 hgo.2 (by decide) hok]
      exact quiesce_pasture_unready (r := ⟨2, _, 2, true, false, []⟩) (by rw [asked_ni]; exact (idles hidle).proc) rfl ht
    · exact ⟨_, rfl, (idles hidle).draining hgo.1 hgo.2 (by decide) (decide_eq_true ht)⟩
    · exact ⟨_, rfl, (idles hidle).reinits hgo.1 hgo.2 (.inl rfl) (decide_eq_true ht) fun _ => rfl⟩
    · refine ⟨_, rfl, (idles hidle).reinits hgo.1 hgo.2 (.inr rfl) (decide_eq_true ht) fun _ => ?_⟩
      simp [State.peersOf, List.range_succ]
      omega
    · obtain ⟨honly, hbit⟩ := writeResetCtrl_rejected hgo.1 hgo.2 h
      exact ⟨_, rfl, honly.eq, hbit⟩
  · show execDrainEnd s = _
    rw [execDrainEnd, drainEnd_of_draining hdrain, if_pos h]
  · show execDrainEnd s = _
    rw [execDrainEnd, drainEnd_of_draining hdrain, h, if_neg (by decide)]
  · show execDrainLimitExpiry s = _
    rw [execDrainLimitExpiry, State.drainLimit, hdrain]
  · show execReinitAck peer s = _
    rw [execReinitAck, reinitAck_unasked h]

end Sys2Proof.Machine

/-! SUPPORT. The device reset: what it clears and what it keeps (O43). -/

namespace Sys2Proof.Machine

variable {s t u : State}

/-- The state after a device reset, but for the registers that a trip and a trial activation write again. -/
def State.cleared (s : State) : State := { State.reset with
  regs := s.keptRegs
  dram := s.dram
  bales := s.bales
  bad := s.bad
  weak := s.weak
  stks := (List.range 12).foldl (fun m i => Sparse.set Stk.fresh m i (s.stk i).afterReset) []
  therm := { Therm.fresh with hot := s.therm.hot }
  pads := { s.pads with released := 0 }
  fw := s.fw.afterReset
  nor := s.nor
  gen := s.gen
  fresh := s.fresh
  out := s.out
  rst := s.rst.filter fun r => r.scope == 7
  pending := s.pending }

/-- The trial bit of a device reset. -/
def State.clearedTrial (s : State) : State := s.cleared.setRbit .secFwStatus 0 0 59 (s.rbit .secFwStatus 0 0 59)

theorem deviceReset_eq (s : State) : s.deviceReset =
    if s.tripped then (s.clearedTrial.setFld .thmStatus 0 0 63 61 0b110).tripStacks else s.clearedTrial := rfl

theorem tripStacks_only (s : State) : RegsOnly s s.tripStacks :=
  List.foldlRecOn (motive := fun t => RegsOnly s t) _ _ (.refl s) fun _ h _ _ => ((h.setRbit ..).setRbit ..).setRbit ..

theorem deviceReset_only (s : State) : RegsOnly s.cleared s.deviceReset := by
  have htrial : RegsOnly s.cleared s.clearedTrial := (RegsOnly.refl _).setRbit ..
  rw [deviceReset_eq]
  exact .ite ((htrial.setFld ..).trans (tripStacks_only _)) htrial

theorem RegsOnly.fw (h : RegsOnly s t) : t.fw = s.fw := by rw [h.eq]
theorem RegsOnly.evt (h : RegsOnly s t) : t.evt = s.evt := by rw [h.eq]
theorem RegsOnly.out (h : RegsOnly s t) : t.out = s.out := by rw [h.eq]

/-- The registers that a device reset writes after it has cleared them all. -/
def resetWrites : Set Nat := stackRegs ∪ {Reg.thmStatus.addr 0 0, Reg.secFwStatus.addr 0 0}

theorem deviceReset_outside (s : State) : RegsOutside resetWrites s.cleared s.deviceReset := by
  have htrial : RegsOutside resetWrites s.cleared s.clearedTrial := setRbit_outside (.inr (.inr rfl)) ..
  rw [deviceReset_eq]
  exact .ite ((htrial.trans (setFld_outside (.inr (.inl rfl)) ..)).trans ((tripStacks_outside _).mono Set.subset_union_left)) htrial

/-- The registers that the NOR die and the fuses keep. -/
def keptAddr (a : Nat) : Bool :=
  a == 0x030000200010 || a == 0x030000200018 || a == 0x030000200020 || a == 0x030000200030

theorem cleared_regs (s : State) : s.cleared.regs = Sparse.drop (fun a => !keptAddr a) s.regs := by
  show s.regs.filter _ = s.regs.filter _
  congr 1
  funext e
  rw [Bool.not_not]
  rfl

theorem cleared_reg (s : State) (r : Reg) (i j : Nat) :
    s.cleared.reg r i j = if keptAddr (r.addr i j) then s.reg r i j else (BitVec.ofNat 64 r.resetVal).toNat := by
  rw [State.reg, cleared_regs, Sparse.get_drop]
  cases keptAddr (r.addr i j) <;> rfl

theorem deviceReset_reg (s : State) {r : Reg} {i j : Nat} (hw : r.addr i j ∉ resetWrites) (hk : keptAddr (r.addr i j) = false) :
    s.deviceReset.reg r i j = (BitVec.ofNat 64 r.resetVal).toNat := by
  rw [(deviceReset_outside s).reg _ _ _ hw, cleared_reg, hk, if_neg Bool.false_ne_true]

theorem not_mem_resetWrites {a : Nat} (hstk : a ∉ stackRegs) (hthm : a ≠ Reg.thmStatus.addr 0 0) (hfw : a ≠ Reg.secFwStatus.addr 0 0) :
    a ∉ resetWrites := by
  rintro (h | rfl | rfl)
  · exact hstk h
  · exact hthm rfl
  · exact hfw rfl

theorem deviceReset_drvStatus (s : State) : s.deviceReset.reg .drvResetStatus 0 0 = 0 :=
  deviceReset_reg s (not_mem_resetWrites (not_mem_stackRegs (by decide)) (by decide) (by decide)) (by decide)

theorem deviceReset_lms (s : State) : s.deviceReset.reg .secLms 0 0 = s.reg .secLms 0 0 := by
  have hstk : Reg.secLms.addr 0 0 ∉ stackRegs := by
    rintro ⟨i, hi, h | h⟩ <;> simp [Reg.addr, Reg.row, Block.base] at h <;> omega
  rw [(deviceReset_outside s).reg _ _ _ (not_mem_resetWrites hstk (by decide) (by decide)), cleared_reg, if_pos (by decide)]

section
variable {r : Reg} (hr : r.row.block = .flk) {f i : Nat} (hf : f < 672)
include hr

theorem flk_addr_bounds (hoff : r.row.off + i * r.row.step < 0x20000) : 0x030010000000 ≤ r.addr f i := by
  unfold Reg.addr
  rw [hr]
  simp only [Block.base]
  omega

include hf

theorem flk_not_reset (hoff : r.row.off + i * r.row.step < 0x20000) : r.addr f i ∉ resetWrites ∧ keptAddr (r.addr f i) = false := by
  have hlo := flk_addr_bounds hr (f := f) hoff
  have hhi : r.addr f i < 0x030020000000 := by
    unfold Reg.addr
    rw [hr]
    simp only [Block.base]
    omega
  refine ⟨not_mem_resetWrites ?_ ?_ ?_, ?_⟩
  · rintro ⟨k, hk, h | h⟩ <;> simp [Reg.addr, Reg.row, Block.base] at h hlo hhi <;> omega
  · have : Reg.thmStatus.addr 0 0 < 0x030010000000 := by decide
    omega
  · have : Reg.secFwStatus.addr 0 0 < 0x030010000000 := by decide
    omega
  · simp [keptAddr]
    omega

end

theorem deviceReset_coreFault (s : State) {f i : Nat} (hf : f < 672) (hi : i < 120) : s.deviceReset.reg .flkCoreFault f i = 0 := by
  obtain ⟨hw, hk⟩ := flk_not_reset (r := .flkCoreFault) rfl (i := i) hf (by simp [Reg.row]; omega)
  exact deviceReset_reg s hw hk

theorem deviceReset_timeouts (s : State) {f : Nat} (hf : f < 672) : s.deviceReset.reg .flkTimeouts f 0 = 0x40004000 := by
  obtain ⟨hw, hk⟩ := flk_not_reset (r := .flkTimeouts) rfl (i := 0) hf (by decide)
  exact deviceReset_reg s hw hk

/-! ### Leaving reset -/

theorem leaveReset_only (s : State) (p : Nat) : RegsOnly s (s.leaveReset p) := by
  unfold State.leaveReset
  exact .ite (.ite ((((RegsOnly.refl s).setRbit ..).setRbit ..).setRbit ..) ((RegsOnly.refl s).setRbit ..)) (.refl s)

theorem leaveResets_only (s : State) (ps : List Nat) : RegsOnly s (ps.foldl State.leaveReset s) :=
  List.foldlRecOn (motive := fun t => RegsOnly s t) _ _ (.refl s) fun t h p _ => h.trans (leaveReset_only t p)

theorem cxlUp_only (s : State) : RegsOnly s s.cxlUp := .ite ((RegsOnly.refl s).setRbit ..) (.refl s)

theorem pllUp_only (s : State) (b : Nat) : RegsOnly s (s.pllUp b) :=
  .ite (.refl s) (.ite (.ite ((leaveResets_only s _).setRbit ..) (.refl s)) (.ite (cxlUp_only s) (.ite (leaveReset_only s _) (.refl s))))

theorem wake_only (s : State) : RegsOnly s s.wake := (pllUp_only s 1).trans (pllUp_only _ 2)

/-- Nothing wakes while the PLLs of the mesh and of the CXL controller are unlocked. -/
theorem wake_unlocked (h1 : s.rbit .drvClkStatus 0 0 1 = false) (h2 : s.rbit .drvClkStatus 0 0 2 = false) : s.wake = s := by
  have hmesh : s.pllUp 1 = s := by
    unfold State.pllUp
    split
    · rfl
    · rw [if_pos rfl, h1]
      rfl
  rw [State.wake, hmesh]
  unfold State.pllUp
  split
  · rfl
  · rw [if_neg (by decide), if_pos rfl, State.cxlUp, h2]
    rfl

/-- The addresses of every register but DRV_CLK_STATUS. -/
def notClk : Set Nat := {a | a ≠ Reg.drvClkStatus.addr 0 0}

theorem setRbit_notClk (s : State) {r : Reg} (h : r ≠ .drvClkStatus) (i j b : Nat) (v : Bool) :
    RegsOutside notClk s (s.setRbit r i j b v) := by
  have hin : r.addr i j ∈ notClk := fun heq => Reg.addr_ne_of_drv rfl h.symm 0 0 i j heq.symm
  exact setRbit_outside hin ..

theorem leaveReset_notClk (s : State) (p : Nat) : RegsOutside notClk s (s.leaveReset p) := by
  have hready := setRbit_notClk s (r := .drvReady) (by decide) 0 0 (44 + p) true
  unfold State.leaveReset
  exact .ite (.ite ((hready.trans (setRbit_notClk _ (by decide) ..)).trans (setRbit_notClk _ (by decide) ..)) hready) (.refl s)

theorem pllUp_notClk (s : State) (b : Nat) : RegsOutside notClk s (s.pllUp b) :=
  .ite (.refl s) (.ite (.ite ((RegsOutside.foldl (fun t p _ => leaveReset_notClk t p) s).trans (setRbit_notClk _ (by decide) ..)) (.refl s))
    (.ite (.ite (setRbit_notClk _ (by decide) ..) (.refl s)) (.ite (leaveReset_notClk s _) (.refl s))))

theorem pllUp_clk (s : State) (b : Nat) : (s.pllUp b).reg .drvClkStatus 0 0 = s.reg .drvClkStatus 0 0 :=
  (pllUp_notClk s b).reg _ _ _ fun h => h rfl

end Sys2Proof.Machine

/-! SUPPORT. Power, pins, PLLs and bring-up (O43). -/

namespace Sys2Proof.Machine

variable {s t u : State}

/-! ### What a device reset leaves -/

theorem deviceReset_dram (s : State) : s.deviceReset.dram = s.dram := (deviceReset_only s).logOnly.dram
theorem deviceReset_fold (s : State) : s.deviceReset.fold = none := (deviceReset_only s).logOnly.fold
theorem deviceReset_cores (s : State) : s.deviceReset.cores = [] := (deviceReset_only s).logOnly.cores
theorem deviceReset_nor (s : State) : s.deviceReset.nor = s.nor := (deviceReset_only s).logOnly.nor
theorem deviceReset_rst (s : State) : s.deviceReset.rst = s.rst.filter fun r => r.scope == 7 := (deviceReset_only s).logOnly.rst

theorem deviceReset_tripped (h : s.tripped = false) : s.deviceReset.tripped = false := by
  have hreg : s.clearedTrial.reg .thmStatus 0 0 = (BitVec.ofNat 64 Reg.thmStatus.resetVal).toNat := by
    have hout := (setRbit_outside_self s.cleared .secFwStatus 0 0 59 (s.rbit .secFwStatus 0 0 59)).reg .thmStatus 0 0 (by decide)
    rw [State.clearedTrial, hout, cleared_reg, if_neg (by decide)]
  rw [deviceReset_eq, h, if_neg Bool.false_ne_true, State.tripped, State.rbit, hreg]
  decide

/-! ### Pins and power -/

/-- The state at a low level of the pin, or without power: the device no longer counts as tripped. -/
theorem untrip (s : State) : (s.setFld .thmStatus 0 0 63 61 0).tripped = false := by
  rw [State.tripped, State.rbit_setFld_mem _ _ _ _ _ (by decide) (by decide)]
  decide

theorem thmLog_logOnly (s : State) (kind site temp rate : Nat) : LogOnly s (s.thmLog kind site temp rate) := log_logOnly ..

/-- A trip writes logs and registers, and may draw a free value. -/
theorem trip_logOnly (h : s.tripped = false) (i : Nat) : LogOnly s (s.trip i) ∨ LogOnly s.bump (s.trip i) := by
  have hend (u : State) : LogOnly u (((u.setFld .thmStatus 0 0 63 61 0b110).setFld .thmStatus 0 0 59 48 0xFFF).tripStacks) :=
    ((setFld_logOnly ..).trans (setFld_logOnly ..)).trans (tripStacks_only _).logOnly
  rw [trip_of_untripped h, State.showTrip]
  split
  · refine .inl (LogOnly.trans ?_ (hend _))
    unfold State.siteLog
    exact ite_logOnly (thmLog_logOnly ..) (thmLog_logOnly ..)
  · exact .inr ((thmLog_logOnly ..).trans (hend _))

theorem trip_dram (h : s.tripped = false) (i : Nat) : (s.trip i).dram = s.dram := (trip_logOnly h i).elim (·.dram) (·.dram)
theorem trip_fold (h : s.tripped = false) (i : Nat) : (s.trip i).fold = s.fold := (trip_logOnly h i).elim (·.fold) (·.fold)
theorem trip_cores (h : s.tripped = false) (i : Nat) : (s.trip i).cores = s.cores := (trip_logOnly h i).elim (·.cores) (·.cores)

/-- What RESET_PIN leaves before the pad changes: the device reset, and a trip where it trips again. -/
def State.pinReset (s : State) (again : Option Nat) : State :=
  match again with
  | some i => (s.setFld .thmStatus 0 0 63 61 0).deviceReset.trip i
  | none => (s.setFld .thmStatus 0 0 63 61 0).deviceReset

theorem pinReset_spec (s : State) (again : Option Nat) : (s.pinReset again).dram = s.dram ∧ (s.pinReset again).fold = none ∧
    (s.pinReset again).cores = [] ∧ (s.pinReset again).tripped = again.isSome := by
  have huntripped := deviceReset_tripped (untrip s)
  have hdram : (s.setFld .thmStatus 0 0 63 61 0).deviceReset.dram = s.dram := (deviceReset_dram _).trans (State.setFld_dram ..)
  cases again with
  | none => exact ⟨hdram, deviceReset_fold _, deviceReset_cores _, huntripped⟩
  | some i =>
    exact ⟨(trip_dram huntripped i).trans hdram, (trip_fold huntripped i).trans (deviceReset_fold _),
      (trip_cores huntripped i).trans (deviceReset_cores _), (trip_spec huntripped i).1⟩

theorem exec_resetPin (s : State) : exec .resetPin s = .next { s.pinReset (if s.tripped then s.hotSite else none) with
    pads := { (s.pinReset (if s.tripped then s.hotSite else none)).pads with resetN := false } } := by
  show execResetPin s = _
  unfold execResetPin State.pinReset
  generalize (if s.tripped then s.hotSite else none) = again
  cases again <;> rfl

theorem again_isSome (s : State) : (if s.tripped then s.hotSite else none).isSome = true ↔ s.tripped = true ∧ s.hotSite.isSome = true := by
  cases s.tripped <;> simp

/-! ### PLLs -/

theorem pllScope_device {b : Nat} (h : b < 3) : pllScope b = some (7, b) := if_pos h
theorem pllScope_pasture {b : Nat} (h : 24 ≤ b) (h' : b < 36) : pllScope b = some (2, b - 24) := by
  rw [pllScope, if_neg (by omega), if_pos ⟨h, h'⟩]

/-- The PLL of a pasture loses its lock: the reset of the pasture starts with the drain. -/
theorem exec_pllLockLoss_pasture {b : Nat} (h : 24 ≤ b) (h' : b < 36) (hclk : s.rbit .drvClkStatus 0 0 b = true) (hrst : s.rst = []) :
    exec (.pllLockLoss b) s = .next (((s.setRbit .drvClkStatus 0 0 b false).setRst []).quiesce
      { scope := 2, target := b - 24, phase := 2, requested := false, lockWait := true, peers := [] }) := by
  show execPllLockLoss b s = _
  unfold execPllLockLoss
  rw [pllScope_pasture h h']
  dsimp only
  rw [if_neg (fun h7 => absurd h7.1 (by decide)), hclk, if_neg (by decide), if_neg (by decide), startReset_drains _ (by rw [State.setRbit_rst, hrst]) (by decide)]

/-- A PLL of the device loses its lock: the device resets, and waits. -/
theorem exec_pllLockLoss_device {b : Nat} (h : b < 3) (hclk : s.rbit .drvClkStatus 0 0 b = true) (hrst : s.rst = []) :
    exec (.pllLockLoss b) s = .next (s.deviceReset.awaitPll b) := by
  show execPllLockLoss b s = _
  unfold execPllLockLoss
  rw [pllScope_device h]
  dsimp only
  rw [hrst, if_neg (by simp), hclk, if_neg (by decide), if_pos rfl]

/-- A PLL locks that no reset waits for. -/
theorem exec_pllLock_free {b : Nat} (hb : (pllScope b).isSome = true) (hrst : s.rst = []) : exec (.pllLock b) s = .next ((s.setRbit .drvClkStatus 0 0 b true).pllUp b) := by
  show execPllLock b s = _
  rw [execPllLock, if_pos hb, State.pllLock]
  dsimp only
  rw [State.setRbit_rst, hrst]
  rfl

/-- The only PLL that holds the device in reset locks. -/
theorem exec_pllLock_device {b : Nat} (h : b < 3)
    (hrst : s.rst = [{ scope := 7, target := b, phase := 3, requested := false, lockWait := true, peers := [] }]) :
    exec (.pllLock b) s = .next ((s.setRbit .drvClkStatus 0 0 b true).setRst []).wake := by
  show execPllLock b s = _
  rw [execPllLock, State.pllLock, State.setRbit_rst, hrst, pllScope_device h]
  simp

/-! ### Bring-up -/

theorem exec_pastureRelease {p : Nat} (hp : p < 12) (hreset : s.inReset = false) (h : s.rbit .drvReady 0 0 60 = true)
    (hreleased : s.pads.released = 2 ^ p - 1) :
    exec (.pastureRelease p) s = .next (State.leaveReset { s with pads := { s.pads with released := 2 ^ (p + 1) - 1 } } p) := by
  show execPastureRelease p s = _
  rw [execPastureRelease, inRange_next hp, hreset, h, hreleased]
  simp

theorem exec_pastureRelease_early {p : Nat} (hp : p < 12) (hreleased : s.pads.released ≠ 2 ^ p - 1) :
    exec (.pastureRelease p) s = .next s := by
  show execPastureRelease p s = _
  rw [execPastureRelease, inRange_next hp, if_pos]
  simp [hreleased]

/-- A released pasture whose PLL is locked, and the resets of which are over. -/
theorem leaveReset_ready {p : Nat} (hp : p < 12) (hrel : bit s.pads.released p = true) (hclk : s.rbit .drvClkStatus 0 0 (24 + p) = true)
    (hrst : s.rst = []) : (s.leaveReset p).pastureReady p = true ∧
      (s.rbit .drvClkStatus 0 0 1 = true → (s.leaveReset p).rbit .rtrStatus p 0 63 = true) := by
  have hset (t : State) (r : Reg) (hr : r ≠ .drvReady) (i j b : Nat) (v : Bool) : (t.setRbit r i j b v).pastureReady p = t.pastureReady p :=
    congrArg (bit · (44 + p)) (t.reg_drv_setReg rfl hr.symm ..)
  have hready : (s.setRbit .drvReady 0 0 (44 + p) true).pastureReady p = true := State.rbit_setRbit_same _ _ _ _ _ _ (by omega)
  have hmesh : (s.setRbit .drvReady 0 0 (44 + p) true).rbit .drvClkStatus 0 0 1 = s.rbit .drvClkStatus 0 0 1 :=
    congrArg (bit · 1) (setRbit_clk s (by decide) ..)
  unfold State.leaveReset
  rw [hrel, hclk, hrst, if_pos (by simp)]
  dsimp only
  rw [hmesh, State.setRbit_rst, hrst]
  refine ⟨?_, fun h1 => ?_⟩
  · split
    · rw [hset _ _ (by decide), hset _ _ (by decide), hready]
    · exact hready
  · rw [h1, if_pos (by simp)]
    have hkln : Reg.rtrStatus.addr p 0 ≠ Reg.klnStatus.addr 0 0 := by
      simp [Reg.addr, Reg.row, Block.base]
      omega
    rw [State.rbit, State.setRbit, State.reg_setFld_ne _ _ _ _ _ _ _ _ _ _ hkln, ← State.rbit]
    exact State.rbit_setRbit_same _ _ _ _ _ _ (by decide)

/-- A stack that has trained, before its interface learns what it still owes. -/
def State.stackTrained (s : State) (i : Nat) : State :=
  (s.modStk i fun k => { k with trained := true }).setRbit .drvClkStatus 0 0 (36 + i) true

theorem stackTrained_stk (s : State) (i : Nat) : (s.stackTrained i).stk i = { s.stk i with trained := true } := by
  rw [State.stackTrained, stk_congr (State.setRbit_stks ..), State.stk_modStk_same]

theorem stackTrained_clk (s : State) {i : Nat} (hi : i < 12) : (s.stackTrained i).rbit .drvClkStatus 0 0 (36 + i) = true :=
  State.rbit_setRbit_same _ _ _ _ _ _ (by omega)

theorem stackTrained_dram (s : State) (i : Nat) : (s.stackTrained i).dram = s.dram := by
  rw [State.stackTrained, State.setRbit_dram]
  rfl

theorem exec_stackTrained {i : Nat} (hi : i < 12) (hreset : s.inReset = false) (hready : s.pastureReady i = true) :
    exec (.stackTrainingComplete i) s = .next (if (s.stk i).owed then (s.stackTrained i).setRbit .stkStatus i 0 62 true
      else (s.stackTrained i).stackUp i) := by
  show execStackTrainingComplete i s = _
  rw [execStackTrainingComplete, inRange_next hi, hreset, hready, if_neg (by decide), ← State.stackTrained]
  dsimp only
  rw [stackTrained_stk]

theorem stackUp_notClk (s : State) (i : Nat) : RegsOutside notClk s (s.stackUp i) := by
  have hstk := (setRbit_notClk s (r := .stkStatus) (by decide) i 0 63 true).trans
    (setRbit_notClk _ (r := .stkStatus) (by decide) i 0 62 (s.stk i).wiping)
  exact .ite (hstk.trans (setRbit_notClk _ (by decide) ..)) hstk

/-- What a trained stack is once its interface has learned what it owes. -/
theorem trained_spec (s : State) {i : Nat} (hi : i < 12) (u : State)
    (hu : u = (s.stackTrained i).setRbit .stkStatus i 0 62 true ∨ u = (s.stackTrained i).stackUp i) :
    (u.stk i).trained = true ∧ u.rbit .drvClkStatus 0 0 (36 + i) = true ∧ u.dram = s.dram := by
  have hspec : RegsOnly (s.stackTrained i) u ∧ RegsOutside notClk (s.stackTrained i) u := by
    rcases hu with rfl | rfl
    · exact ⟨(RegsOnly.refl _).setRbit .., setRbit_notClk _ (by decide) ..⟩
    · exact ⟨(stackUp_spec _ hi).2.2, stackUp_notClk ..⟩
  obtain ⟨honly, hout⟩ := hspec
  refine ⟨?_, ?_, honly.logOnly.dram.trans (stackTrained_dram s i)⟩
  · rw [stk_congr honly.logOnly.stks, stackTrained_stk]
  · exact (hout.rbit (r := .drvClkStatus) (i := 0) (j := 0) (fun h => h rfl) _).trans (stackTrained_clk s hi)

theorem exec_stackTrained_spec {i : Nat} (hi : i < 12) (hreset : s.inReset = false) (hready : s.pastureReady i = true) :
    ∃ t, exec (.stackTrainingComplete i) s = .next t ∧ (t.stk i).trained = true ∧ t.rbit .drvClkStatus 0 0 (36 + i) = true ∧
      t.dram = s.dram ∧ if (s.stk i).owed then t.initBusy i = true else t.stkReady i = true := by
  have hexec := exec_stackTrained hi hreset hready
  cases howed : (s.stk i).owed with
  | false =>
    rw [howed, if_neg Bool.false_ne_true] at hexec
    simp only [Bool.false_eq_true, if_false]
    obtain ⟨htrained, hclk, hdram⟩ := trained_spec s hi _ (.inr rfl)
    exact ⟨_, hexec, htrained, hclk, hdram, (stackUp_spec _ hi).1⟩
  | true =>
    rw [howed, if_pos rfl] at hexec
    simp only [if_true]
    obtain ⟨htrained, hclk, hdram⟩ := trained_spec s hi _ (.inl rfl)
    exact ⟨_, hexec, htrained, hclk, hdram, State.rbit_setRbit_same _ _ _ _ _ _ (by decide)⟩

/-! ### The three parts -/

theorem exec_resetDevice {v : Word32} (h31 : bit v.toNat 31 = true) (h7 : bits v.toNat 26 24 = 7) :
    exec (.resetDevice v) s = .next s.deviceReset := by
  show execResetDevice v s = _
  rw [execResetDevice, State.writeResetCtrl, h31, if_neg (by decide), if_pos h7]

/-- What a change of the pads leaves when the parts then leave reset. -/
theorem wake_pads (s : State) (p : Pads) : (State.wake { s with pads := p }).pads = p ∧ (State.wake { s with pads := p }).rst = s.rst ∧
    (State.wake { s with pads := p }).dram = s.dram ∧ (s.rbit .drvClkStatus 0 0 1 = false → s.rbit .drvClkStatus 0 0 2 = false →
      State.wake { s with pads := p } = { s with pads := p }) :=
  have h := (wake_only { s with pads := p }).logOnly
  ⟨h.pads, h.rst, h.dram, fun h1 h2 => wake_unlocked h1 h2⟩

/-- What POWER_LOSS leaves before the pad changes. -/
def State.unpowered (s : State) : State := ((s.setFld .thmStatus 0 0 63 61 0).setTherm { s.therm with hot := 0 }).deviceReset

theorem exec_powerLoss (s : State) : exec .powerLoss s = .next { s.unpowered.loseStacks with pads := { s.unpowered.loseStacks.pads with vin := false } } := rfl

theorem unpowered_nor (s : State) : s.unpowered.nor = s.nor := by
  rw [State.unpowered, deviceReset_nor, State.setTherm_nor, State.setFld_nor]

theorem awaitPll_rst (h : s.rst = []) (b : Nat) : (s.awaitPll b).rst =
    [{ scope := 7, target := b, phase := 3, requested := false, lockWait := true, peers := [] }] := by
  rw [State.awaitPll, h]
  rfl

theorem deviceReset_rst_nil (h : s.rst = []) : s.deviceReset.rst = [] := by rw [deviceReset_rst, h, List.filter_nil]

theorem pllScope_isSome {b : Nat} (h : b < 3 ∨ (24 ≤ b ∧ b < 64)) : (pllScope b).isSome = true := by
  unfold pllScope
  split
  · rfl
  · split
    · rfl
    · split
      · rfl
      · rw [if_pos (by omega)]
        rfl

theorem pllUp_locked (s : State) {b : Nat} (hb : b < 64) : ((s.setRbit .drvClkStatus 0 0 b true).pllUp b).rbit .drvClkStatus 0 0 b = true := by
  rw [State.rbit, pllUp_clk, ← State.rbit]
  exact State.rbit_setRbit_same _ _ _ _ _ _ hb

/-- The reset of a pasture that a lost PLL starts. -/
theorem pllLockLoss_pasture_spec {b : Nat} (h : 24 ≤ b) (h' : b < 36) (hclk : s.rbit .drvClkStatus 0 0 b = true) (hrst : s.rst = [])
    (hproc : s.ni.proc = []) : ∃ t, exec (.pllLockLoss b) s = .next t ∧ t.rbit .drvClkStatus 0 0 b = false ∧
      t.rst = [{ scope := 2, target := b - 24, phase := 2, requested := false, lockWait := true, peers := [] }] := by
  have hd := quiesce_draining (s := (s.setRbit .drvClkStatus 0 0 b false).setRst []) (by rw [State.setRst_ni, State.setRbit_ni, hproc])
    { scope := 2, target := b - 24, phase := 2, requested := false, lockWait := true, peers := [] }
  refine ⟨_, exec_pllLockLoss_pasture h h' hclk hrst, ?_, hd.rst⟩
  rw [State.rbit, hd.clk, ← State.rbit, setRst_rbit]
  exact State.rbit_setRbit_same _ _ _ _ _ _ (by omega)

theorem released_bit (p : Nat) : bit (2 ^ (p + 1) - 1) p = true := by
  rw [bit, Nat.testBit_two_pow_sub_one]
  exact decide_eq_true (Nat.lt_succ_self p)

/-- Settles O43: a device reset clears all but what it names, and the pins and PLLs lead to it or to the release of the parts. -/
theorem deviceResetPinsAndBringUp : Obligations.DeviceResetPinsAndBringUp := by
  refine ⟨fun s v h31 h7 => ?_, fun s => ⟨⟨_, rfl, wake_pads s _⟩, ⟨_, rfl, wake_pads s _⟩, ?_, ?_, ?_, fun b h h' hclk hrst hproc =>
    pllLockLoss_pasture_spec h h' hclk hrst hproc, fun b hb hclk hrst => ?_, fun b hb hrst => ?_, fun b hb hrst => ?_⟩,
    fun s p hp hreset => ⟨fun h60 hrel hrst => ?_, fun hrel => exec_pastureRelease_early hp hrel, exec_stackTrained_spec hp hreset⟩⟩
  · have h := (deviceReset_only s).logOnly
    refine ⟨_, exec_resetDevice h31 h7, h.fold, h.cores, h.flocks, h.rst, h.ni, h.dram, h.bales, h.nor, ?_, h.pending,
      (deviceReset_only s).evt, fun f i hf hi => ⟨deviceReset_coreFault s hf hi, deviceReset_timeouts s hf⟩, deviceReset_drvStatus s,
      deviceReset_lms s⟩
    rw [(deviceReset_only s).fw]
    rfl
  · exact ⟨_, exec_powerLoss s, rfl, rfl, rfl, deviceReset_fold _, deviceReset_cores _, unpowered_nor s, fun _ => rfl⟩
  · exact ⟨_, rfl, rfl, deviceReset_dram s, deviceReset_fold s, deviceReset_cores s⟩
  · obtain ⟨hdram, hfold, hcores, htripped⟩ := pinReset_spec s (if s.tripped then s.hotSite else none)
    refine ⟨_, exec_resetPin s, rfl, hdram, hfold, hcores, ?_⟩
    rw [← again_isSome, ← htripped]
    rfl
  · refine ⟨_, exec_pllLockLoss_device hb hclk hrst, deviceReset_fold s, awaitPll_rst (deviceReset_rst_nil hrst) b⟩
  · exact ⟨_, exec_pllLock_free (pllScope_isSome hb) hrst, pllUp_locked s (by omega)⟩
  · refine ⟨_, exec_pllLock_device hb hrst, ?_⟩
    rw [(wake_only _).logOnly.rst]
    rfl
  · have hexec := exec_pastureRelease hp hreset h60 hrel
    have honly := leaveReset_only { s with pads := { s.pads with released := 2 ^ (p + 1) - 1 } } p
    refine ⟨_, hexec, by rw [honly.logOnly.pads], fun hclk => ?_, fun hclk => ?_⟩
    · exact (leaveReset_ready (s := { s with pads := { s.pads with released := 2 ^ (p + 1) - 1 } }) hp (released_bit p) hclk hrst).1
    · exact (leaveReset_ready (s := { s with pads := { s.pads with released := 2 ^ (p + 1) - 1 } }) hp (released_bit p) hclk hrst).2

end Sys2Proof.Machine

/-! SUPPORT. A control codeword leaves a port after the flit codewords that are due before it (R599, R603). -/

namespace Sys2Proof.Machine

variable {s t u : State} {q : Nat}

/-- Port `q` has sent `n` codewords of flits between `s` and `t`. -/
structure SendsFlits (q n : Nat) (s t : State) : Prop where
  sent : Transmits q s t
  next : (t.port q).next = (s.port q).next
  out  : ∃ l : List Output, l.length = n ∧ t.out = s.out ++ l

theorem SendsFlits.refl (s : State) : SendsFlits q 0 s s := ⟨.refl s, rfl, [], rfl, (List.append_nil _).symm⟩

theorem SendsFlits.trans {m n : Nat} (h : SendsFlits q m s t) (h' : SendsFlits q n t u) : SendsFlits q (m + n) s u where
  sent := h.sent.trans h'.sent
  next := h'.next.trans h.next
  out := by
    obtain ⟨l, hl, ht⟩ := h.out
    obtain ⟨l', hl', hu⟩ := h'.out
    exact ⟨l ++ l', by rw [List.length_append, hl, hl'], by rw [hu, ht, List.append_assoc]⟩

theorem sendCodeword_next (s : State) (q : Nat) (data : List Byte) : ((s.sendCodeword q data).port q).next = (s.port q).next := by
  rw [State.sendCodeword, port_emit, port_modPort_same]

theorem sendCodeword_out (s : State) (q : Nat) (data : List Byte) :
    (s.sendCodeword q data).out = s.out ++ [codewordOut q (s.slots q false) data] := rfl

theorem sendFlitWord_sends (s : State) (q : Nat) : SendsFlits q 1 s (s.sendFlitWord q) where
  sent := sendFlitWord_transmits s q
  next := by rw [State.sendFlitWord, sendCodeword_next, port_modPort_same]
  out := ⟨_, rfl, rfl⟩

theorem sendFlitWords_sends (s : State) (q n : Nat) : SendsFlits q n s ((List.range n).foldl (fun s _ => s.sendFlitWord q) s) := by
  induction n with
  | zero => exact .refl s
  | succ n ih =>
    rw [List.range_succ, List.foldl_append]
    exact ih.trans (sendFlitWord_sends ..)

theorem slots_congr (h : t.regs = s.regs) (q : Nat) (rx : Bool) : t.slots q rx = s.slots q rx := by
  have hlane (j : Nat) : t.slotWl q rx j = s.slotWl q rx j := by
    unfold State.slotWl State.lane State.fld
    rw [reg_congr h]
  unfold State.slots
  simp only [hlane]

theorem device_congr (h : t.fold = s.fold) : t.device = s.device := by rw [State.device, h, State.device]

/-- SendControl is a control codeword that carries its lane message and its frame, behind the flits that are due. -/
theorem sendControl_sends (s : State) (q : Nat) (lane : LaneMsg) (muster : Option MusterFrame) :
    s.SendsControl (s.sendControl q lane muster) q (s.flitsDue q) lane muster := by
  have hflits := sendFlitWords_sends s q ((20 - (s.port q).txPos) % 20)
  have hall := sendControl_transmits s q lane muster
  unfold State.SendsControl
  rw [slots_congr hall.regs]
  unfold State.sendControl State.flitsDue
  generalize (List.range ((20 - (s.port q).txPos) % 20)).foldl (fun s _ => s.sendFlitWord q) s = f at hflits
  obtain ⟨l, hl, hout⟩ := hflits.out
  refine ⟨{ credits := f.creditTotals q, cseq := (f.port q).next, lane := lane, muster := muster, selfDevice := f.device, selfPort := q, crc := 0 },
    l, hl, rfl, rfl, hflits.next, device_congr hflits.sent.fold, rfl, by simp [State.creditTotals], ?_, ?_⟩
  · rw [State.sendDue, sendCodeword_next, port_modPort_same, ← hflits.next]
  · rw [State.sendDue, sendCodeword_out, slots_congr (s := s) (t := f.modPort q _) hflits.sent.regs]
    show f.out ++ _ = _
    rw [hout]

end Sys2Proof.Machine

/-! SUPPORT. Muster frames, deaths, fencing and retired cores (O55). -/

namespace Sys2Proof.Machine

variable {s t u : State} {q : Nat}

/-! ### Frames -/

/-- `t` is `s` but for frames that ports have sent. -/
structure Tells (s t : State) : Prop where
  frame : t = { s with ports := t.ports, out := t.out, muster := t.muster }
  said  : t.muster = { s.muster with fseq := t.muster.fseq }

theorem Tells.refl (s : State) : Tells s s := ⟨rfl, rfl⟩

theorem Tells.trans (h : Tells s t) (h' : Tells t u) : Tells s u where
  frame := by rw [h'.frame, h.frame]
  said := by rw [h'.said, h.said]

theorem Tells.foldl {α : Type} {g : State → α → State} {l : List α} (hg : ∀ s x, Tells s (g s x)) (s : State) : Tells s (l.foldl g s) :=
  List.foldlRecOn (motive := Tells s) l g (.refl s) fun t h x _ => h.trans (hg t x)

theorem Tells.regs (h : Tells s t) : t.regs = s.regs := by rw [h.frame]
theorem Tells.ni (h : Tells s t) : t.ni = s.ni := by rw [h.frame]
theorem Tells.fold (h : Tells s t) : t.fold = s.fold := by rw [h.frame]
theorem Tells.suspect (h : Tells s t) : t.muster.suspect = s.muster.suspect := by rw [h.said]
theorem Tells.learned (h : Tells s t) : t.muster.learned = s.muster.learned := by rw [h.said]
theorem Tells.votes (h : Tells s t) : t.muster.votes = s.muster.votes := by rw [h.said]
theorem Tells.dead (h : Tells s t) : t.muster.dead = s.muster.dead := by rw [h.said]

/-- The frame that port `q` sends next, with these entries. -/
def State.frameOf (s : State) (q : Nat) (es : List MusterEntry) : MusterFrame :=
  { jobTag := BitVec.ofNat 32 s.jobTag, fseq := BitVec.ofNat 16 (Sparse.get 0 s.muster.fseq q), state := s.musterState, resv := false,
    entries := es }

/-- The frames of port `q` are counted. -/
def State.counted (s : State) (q : Nat) : State :=
  s.setMuster { s.muster with fseq := Sparse.set 0 s.muster.fseq q ((Sparse.get 0 s.muster.fseq q + 1) % 2 ^ 16) }

theorem sendFrame_eq (s : State) (q : Nat) (es : List MusterEntry) :
    s.sendFrame q es = (s.counted q).sendControl q .none (some (s.frameOf q es)) := rfl

theorem sendFrame_fseq (s : State) (q : Nat) (es : List MusterEntry) :
    Sparse.get 0 (s.sendFrame q es).muster.fseq q = (Sparse.get 0 s.muster.fseq q + 1) % 2 ^ 16 := by
  rw [sendFrame_eq, (sendControl_transmits ..).muster]
  exact Sparse.get_set_same

theorem sendFrame_tells (s : State) (q : Nat) (es : List MusterEntry) : Tells s (s.sendFrame q es) := by
  have h := sendControl_transmits (s.counted q) q .none (some (s.frameOf q es))
  rw [← sendFrame_eq] at h
  refine ⟨?_, ?_⟩
  · rw [h.frame]
    rfl
  · rw [h.muster]
    rfl

theorem sendFrames_tells (s : State) (q : Nat) (es : List MusterEntry) : Tells s (s.sendFrames q es) :=
  .foldl (fun t _ => sendFrame_tells t q _) s

theorem spread_tells (s : State) (e : MusterEntry) (but : Option Nat) : Tells s (s.spread e but) := by
  refine .foldl (fun t q => ?_) s
  split
  · exact sendFrames_tells ..
  · exact .refl t

theorem sendFrames_fseq (s : State) (q : Nat) (es : List MusterEntry) :
    Sparse.get 0 (s.sendFrames q es).muster.fseq q = (Sparse.get 0 s.muster.fseq q + max 1 ((es.length + 6) / 7)) % 2 ^ 16 := by
  unfold State.sendFrames
  have hpos : 0 < max 1 ((es.length + 6) / 7) := by omega
  generalize max 1 ((es.length + 6) / 7) = n at hpos ⊢
  induction n with
  | zero => cases hpos
  | succ n ih =>
    rw [List.range_succ, List.foldl_append, List.foldl_cons, List.foldl_nil, sendFrame_fseq]
    rcases Nat.eq_zero_or_pos n with rfl | hn
    · rfl
    · rw [ih hn]
      omega

/-- Up to seven entries leave in one frame. -/
theorem sendFrames_single (s : State) (q : Nat) {es : List MusterEntry} (h : es.length ≤ 7) : s.sendFrames q es = s.sendFrame q es := by
  have hone : max 1 ((es.length + 6) / 7) = 1 := by omega
  rw [State.sendFrames, hone]
  show s.sendFrame q ((es.drop 0).take 7) = _
  rw [List.drop_zero, List.take_of_length_le h]

theorem sendFrame_sends (s : State) (q : Nat) (es : List MusterEntry) :
    s.SendsControl (s.sendFrame q es) q (s.flitsDue q) .none (some (s.frameOf q es)) :=
  sendControl_sends (s.counted q) q .none (some (s.frameOf q es))

theorem exec_musterPeriodicFrame (hq : q < 64) : exec (.musterPeriodicFrame q) s =
    .next (if s.portUp q then s.sendFrames q (s.muster.suspect.map s.suspectEntry) else s) := by
  show execMusterPeriodicFrame q s = _
  rw [execMusterPeriodicFrame, inRange_next hq]

/-! ### Suspicions and votes -/

theorem weigh_light (s : State) {x : Nat} (h : x = s.device ∨ s.votesFor x < s.quorum) :
    s.weigh x = s.setMuster { s.muster with quorate := s.muster.quorate.filter (· != x) } := by rw [State.weigh, if_pos h]

theorem one_le_quorum (s : State) : 1 ≤ s.quorum := by
  unfold State.quorum
  omega

/-- A device heard on one port alone, and silent there, becomes a suspicion. -/
def State.suspected (s : State) (x : Nat) : State :=
  (((s.setMuster { s.muster with suspect := s.muster.suspect ++ [x] }).incFld .drvMusterStatus 0 0 31 0).musterEvent 1 x
    (entryWord ((s.setMuster { s.muster with suspect := s.muster.suspect ++ [x] }).suspectEntry x)))

theorem suspected_logOnly (s : State) (x : Nat) : LogOnly (s.setMuster { s.muster with suspect := s.muster.suspect ++ [x] }) (s.suspected x) :=
  (incFld_logOnly ..).trans (event_logOnly ..)

theorem suspected_quorum (s : State) (x : Nat) : (s.suspected x).quorum = s.quorum := by
  have hout : RegsOutside {Reg.drvMusterStatus.addr 0 0, Reg.drvEvtStatus.addr 0 0}
      (s.setMuster { s.muster with suspect := s.muster.suspect ++ [x] }) (s.suspected x) :=
    (setFld_outside (.inl rfl) ..).trans (event_outside (.inr rfl) ..)
  unfold State.quorum
  rw [hout.fld (by decide)]
  rfl

/-- The suspicions of a device that knows one other device, silent on the port where it was heard. -/
theorem review_single {d : Nat} (hlearned : s.muster.learned = [(q, d, true)]) (hd : d ≠ s.device) (hsuspect : s.muster.suspect = []) :
    s.review = (((s.suspected d).spread ((s.suspected d).suspectEntry d) none).weigh d) := by
  have hnow : ((s.muster.learned.map fun l => l.2.1).dedup).filter (fun x => s.muster.silent x && x != s.device) = [d] := by
    simp [hlearned, Muster.silent, hd]
  have hnone : s.setMuster { s.muster with suspect := [] } = s := by
    rw [← hsuspect]
    rfl
  unfold State.review
  rw [hnow, hsuspect]
  simp only [List.filter_nil, List.foldl_nil, List.foldl_cons]
  rw [hnone, if_neg (by simp [hsuspect])]
  rfl

theorem review_single_spec {d : Nat} (hlearned : s.muster.learned = [(q, d, true)]) (hd : d ≠ s.device) (hsuspect : s.muster.suspect = [])
    (hvotes : s.muster.votes = []) (hquorum : 2 ≤ s.quorum) :
    s.review.muster.suspect = [d] ∧ s.review.muster.learned = [(q, d, true)] := by
  have hlog := suspected_logOnly s d
  have htell := spread_tells (s.suspected d) ((s.suspected d).suspectEntry d) none
  rw [review_single hlearned hd hsuspect]
  have hquorum' : ((s.suspected d).spread ((s.suspected d).suspectEntry d) none).quorum = s.quorum := by
    rw [← suspected_quorum s d, State.quorum, State.fld, reg_congr htell.regs, ← State.fld, State.quorum]
  have hmuster : (s.suspected d).muster = { s.muster with suspect := [d] } := by
    rw [hlog.muster, hsuspect]
    rfl
  have hs : ((s.suspected d).spread ((s.suspected d).suspectEntry d) none).muster.suspect = [d] := by rw [htell.suspect, hmuster]
  have hv : ((s.suspected d).spread ((s.suspected d).suspectEntry d) none).muster.votes = [] := by rw [htell.votes, hmuster, hvotes]
  have hl : ((s.suspected d).spread ((s.suspected d).suspectEntry d) none).muster.learned = [(q, d, true)] := by
    rw [htell.learned, hmuster, hlearned]
  have hlight : ((s.suspected d).spread ((s.suspected d).suspectEntry d) none).votesFor d <
      ((s.suspected d).spread ((s.suspected d).suspectEntry d) none).quorum := by
    rw [hquorum', State.votesFor, hs, hv]
    simp
    omega
  rw [weigh_light _ (.inr hlight)]
  exact ⟨hs, hl⟩

/-! ### Fencing -/

theorem fence_spec (h : s.fenced = false) {cause kind detail : Nat} (hc4 : cause < 4) :
    (s.fence cause kind detail).fld .drvMusterStatus 0 0 61 60 = cause := by
  rw [State.fence, h, if_neg Bool.false_ne_true, State.musterEvent,
    (event_outside (w := {Reg.drvEvtStatus.addr 0 0}) rfl ..).fld (by decide), State.fld_setFld_same _ _ _ _ _ _ _ (by decide)]
  exact Nat.mod_eq_of_lt hc4

theorem fenced_of_fld {c : Nat} (h : s.fld .drvMusterStatus 0 0 61 60 = c) (hc : 0 < c) : s.fenced = true := by
  rw [State.fenced, h, bne_iff_ne]
  omega

/-! ### Deaths -/

/-- The NI knows of the death and nothing else happens there, with no tag and no packet in hand. -/
theorem niDead_steady (s : State) (x : Nat) (htags : s.ni.tags = []) (hproc : s.ni.proc = []) :
    Steady (s.setNi { s.ni with dead := x :: s.ni.dead.filter (· != x) }) (s.niDead x) := by
  have hevent : Walk steadyFrame (s.setNi { s.ni with dead := x :: s.ni.dead.filter (· != x) })
    ((s.setNi { s.ni with dead := x :: s.ni.dead.filter (· != x) }).niFatalEvent 1 x) := Walk.self.niFatalEvent
  have hproc' := hevent.steady.proc.trans hproc
  have htags' : ((s.setNi { s.ni with dead := x :: s.ni.dead.filter (· != x) }).niFatalEvent 1 x).ni.tags = [] := by
    rw [State.niFatalEvent, (event_logOnly ..).ni]
    split
    · rw [State.setRbit_ni, State.setNi_ni, htags]
    · rw [State.setReg_ni, State.setNi_ni, htags]
  unfold State.niDead
  dsimp only
  generalize (s.setNi { s.ni with dead := x :: s.ni.dead.filter (· != x) }).niFatalEvent 1 x = f at hevent hproc' htags'
  refine hevent.steady.trans ?_
  have hretire : f.retireAllTo x = f := by
    unfold State.retireAllTo
    rw [htags']
    rfl
  rw [hretire]
  have hheld : Walk steadyFrame f (f.dropHeldFrom x) := Walk.self.setNi
  have horphan : Walk steadyFrame f ((f.dropHeldFrom x).orphan x) := by
    refine hheld.setNi ?_
    show List.map _ f.ni.proc = f.ni.proc
    rw [hproc']
    rfl
  have hreplay : Walk steadyFrame f (((f.dropHeldFrom x).orphan x).setNi
    { ((f.dropHeldFrom x).orphan x).ni with replay := ((f.dropHeldFrom x).orphan x).ni.replay.filter fun y => y.src != x }) := horphan.setNi
  exact (hreplay.setNi).steady

/-- What a death changes before its event: the NI, the collectives and what then goes on. -/
theorem dead_steady (s : State) (x : Nat) (htags : s.ni.tags = []) (hproc : s.ni.proc = []) :
    Steady (s.setNi { s.ni with dead := x :: s.ni.dead.filter (· != x) }) ((s.niDead x).kilnDead x).serveWaiting := by
  have hni := niDead_steady s x htags hproc
  have hserve : Walk steadyFrame (s.niDead x) ((s.niDead x).kilnDead x).serveAll := Walk.self.kilnDead.serveAll
  unfold State.serveWaiting
  rw [retryProc_idle (hserve.steady.proc.trans (hni.proc.trans hproc))]
  exact hni.trans (Walk.steady hserve.answerSubs)

/-- The device after it has learned of a death, before it tells the others. -/
def State.deadKnown (s : State) (x kind : Nat) (e : MusterEntry) : State :=
  ((((((s.setMuster { s.muster with dead := x :: s.muster.dead }).niDead x).kilnDead x).serveWaiting.incFld .drvMusterStatus 0 0 59 46).setFld
    .drvMusterStatus 0 0 45 32 x).musterEvent kind x (entryWord e))

theorem learnDead_known (s : State) {x : Nat} (h : x ∈ s.muster.dead) (kind : Nat) (e : MusterEntry) (but : Option Nat) :
    s.learnDead x kind e but = s := if_pos (List.contains_iff_mem.mpr h)

theorem learnDead_new (s : State) {x : Nat} (h : x ∉ s.muster.dead) (kind : Nat) (e : MusterEntry) (but : Option Nat) :
    s.learnDead x kind e but = (s.deadKnown x kind e).spread e but := if_neg (by simpa using h)

theorem deadKnown_spec (s : State) {x kind : Nat} (e : MusterEntry) (htags : s.ni.tags = []) (hproc : s.ni.proc = []) :
    (s.deadKnown x kind e).muster = { s.muster with dead := x :: s.muster.dead } ∧ x ∈ (s.deadKnown x kind e).ni.dead ∧
      (s.deadKnown x kind e).fld .drvMusterStatus 0 0 45 32 = x % 2 ^ 14 ∧
      (s.deadKnown x kind e).fld .drvMusterStatus 0 0 61 60 = s.fld .drvMusterStatus 0 0 61 60 := by
  have hsteady := dead_steady (s.setMuster { s.muster with dead := x :: s.muster.dead }) x htags hproc
  have hheld : (((s.setMuster { s.muster with dead := x :: s.muster.dead }).niDead x).kilnDead x).serveWaiting.fld .drvMusterStatus 0 0 61 60 =
      s.fld .drvMusterStatus 0 0 61 60 := congrArg (bits · 61 60) (hsteady.held .drvMusterStatus (by decide) (by decide))
  have hmuster := hsteady.muster
  have hdead := hsteady.dead
  unfold State.deadKnown
  generalize (((s.setMuster { s.muster with dead := x :: s.muster.dead }).niDead x).kilnDead x).serveWaiting = w at hheld hmuster hdead
  have hlog := event_logOnly ((w.incFld .drvMusterStatus 0 0 59 46).setFld .drvMusterStatus 0 0 45 32 x) 0x0D kind x (entryWord e) 0
  have hout := event_outside (w := {Reg.drvEvtStatus.addr 0 0}) rfl ((w.incFld .drvMusterStatus 0 0 59 46).setFld .drvMusterStatus 0 0 45 32 x)
    0x0D kind x (entryWord e) 0
  rw [State.musterEvent]
  refine ⟨?_, ?_, ?_, ?_⟩
  · rw [hlog.muster, State.setFld_muster, State.incFld, State.setFld_muster, hmuster]
    rfl
  · rw [hlog.ni, State.setFld_ni, State.incFld, State.setFld_ni, hdead]
    exact List.mem_cons_self ..
  · rw [hout.fld (by decide), State.fld_setFld_same _ _ _ _ _ _ _ (by decide)]
  · rw [hout.fld (by decide), State.fld_setFld_ne _ _ _ _ _ _ _ _ _ (by decide) (by omega), State.incFld,
      State.fld_setFld_ne _ _ _ _ _ _ _ _ _ (by decide) (by omega), hheld]

end Sys2Proof.Machine

/-! SUPPORT. Declared deaths, and retired cores (O55). -/

namespace Sys2Proof.Machine

variable {s t u : State} {f n : Nat}

theorem exec_drvDeclare_other {v : Word32} (h : bits v.toNat 13 0 ≠ s.device) :
    exec (.drvDeclare v) s = .next (s.declareDead (bits v.toNat 13 0)) := by
  show execDrvDeclare v s = _
  unfold execDrvDeclare
  dsimp only
  rw [if_neg h]

theorem exec_drvDeclare_self {v : Word32} (h : bits v.toNat 13 0 = s.device) : exec (.drvDeclare v) s = .next (s.fence 3 7 0) := by
  show execDrvDeclare v s = _
  unfold execDrvDeclare
  dsimp only
  rw [if_pos h]

theorem Tells.fld (h : Tells s t) (r : Reg) (i j hi lo : Nat) : t.fld r i j hi lo = s.fld r i j hi lo := by
  rw [State.fld, reg_congr h.regs, State.fld]

/-- A death that is declared for the first time. -/
theorem declareDead_spec {x : Nat} (h : x ∉ s.muster.dead) (hx : x < 2 ^ 14) (htags : s.ni.tags = []) (hproc : s.ni.proc = []) :
    (s.declareDead x).muster.dead = x :: s.muster.dead ∧ x ∈ (s.declareDead x).ni.dead ∧
      (s.declareDead x).fld .drvMusterStatus 0 0 45 32 = x := by
  unfold State.declareDead
  dsimp only
  generalize ({ subject := x, kind := 2, ttl := s.freeVal.toNat % 256, reporter := s.device } : MusterEntry) = e
  rw [learnDead_new s.bump h]
  obtain ⟨hmuster, hdead, hfld, -⟩ := deadKnown_spec s.bump (x := x) (kind := 3) e htags hproc
  have htell := spread_tells (s.bump.deadKnown x 3 e) e none
  refine ⟨?_, ?_, ?_⟩
  · rw [htell.dead, hmuster]
    rfl
  · rw [htell.ni]
    exact hdead
  · rw [htell.fld, hfld, Nat.mod_eq_of_lt hx]

/-- A declared death leaves the fence. -/
theorem declareDead_fence (s : State) (x : Nat) (htags : s.ni.tags = []) (hproc : s.ni.proc = []) :
    (s.declareDead x).fld .drvMusterStatus 0 0 61 60 = s.fld .drvMusterStatus 0 0 61 60 := by
  unfold State.declareDead
  dsimp only
  generalize ({ subject := x, kind := 2, ttl := s.freeVal.toNat % 256, reporter := s.device } : MusterEntry) = e
  by_cases h : x ∈ s.bump.muster.dead
  · rw [learnDead_known s.bump h]
    rfl
  · rw [learnDead_new s.bump h, (spread_tells ..).fld, (deadKnown_spec s.bump e htags hproc).2.2.2]
    rfl

theorem fence_ni (s : State) (cause kind detail : Nat) : (s.fence cause kind detail).ni = s.ni := by
  unfold State.fence State.musterEvent
  split
  · rfl
  · rw [(event_logOnly ..).ni, State.setFld_ni]

/-! ### Retired cores -/

theorem coreBit_bit_lt {lo hi : Reg} (hn : n < 128) : (coreBit lo hi n).2 < 64 := by
  unfold coreBit
  split
  · assumption
  · show n - 64 < 64
    omega

theorem physGood_setCbit_same (s : State) (f : Nat) (hn : n < 128) (v : Bool) :
    (s.setCbit .flkPhysGoodLo .flkPhysGoodHi f n v).physGood f n = v :=
  State.rbit_setRbit_same _ _ _ _ _ _ (coreBit_bit_lt hn)

theorem physGood_setCbit_ne (s : State) (f : Nat) {m : Nat} (hm : m < 128) (hn : n < 128) (h : m ≠ n) (v : Bool) :
    (s.setCbit .flkPhysGoodLo .flkPhysGoodHi f n v).physGood f m = s.physGood f m := by
  have hlohi : Reg.flkPhysGoodLo.addr f 0 ≠ Reg.flkPhysGoodHi.addr f 0 := by simp [Reg.addr, Reg.row, Block.base]
  unfold State.physGood State.cbit State.setCbit coreBit
  split_ifs with hn' hm' hm'
  · exact State.rbit_setRbit_ne _ _ _ _ _ _ _ hn' h
  · rw [State.rbit, State.setRbit, State.reg_setFld_ne _ _ _ _ _ _ _ _ _ _ hlohi.symm, ← State.rbit]
  · rw [State.rbit, State.setRbit, State.reg_setFld_ne _ _ _ _ _ _ _ _ _ _ hlohi, ← State.rbit]
  · exact State.rbit_setRbit_ne _ _ _ _ _ _ _ (by omega) (by omega)

/-- The record of retirements takes the core while it has room. -/
def State.recorded (s : State) (f n : Nat) : State := if s.nor.length < 4096 then { s with nor := s.nor ++ [(f, n)] } else s

theorem recorded_regs (s : State) (f n : Nat) : (s.recorded f n).regs = s.regs := by
  unfold State.recorded
  split <;> rfl

theorem physGood_congr (h : t.regs = s.regs) (f m : Nat) : t.physGood f m = s.physGood f m := by
  unfold State.physGood State.cbit State.rbit
  rw [reg_congr h]

/-- The core is no longer good, and recorded. -/
def State.retired (s : State) (f n : Nat) : State := (s.setCbit .flkPhysGoodLo .flkPhysGoodHi f n false).recorded f n

theorem retire_eq (h : s.physGood f n = true) (kind : Nat) : s.retire f n kind = (s.retired f n).event 0x0E kind
    (f * 2 ^ 14 + (((s.retired f n).flock f).logicalOf n).getD 0x7F * 2 ^ 7 + n) (!decide (s.nor.length < 4096)).toNat 0 := by
  have hrec : (if decide (s.nor.length < 4096) = true then { s.setCbit .flkPhysGoodLo .flkPhysGoodHi f n false with nor := s.nor ++ [(f, n)] }
      else s.setCbit .flkPhysGoodLo .flkPhysGoodHi f n false) = s.retired f n := by
    simp only [decide_eq_true_eq]
    rfl
  unfold State.retire
  rw [h, if_neg (by decide), ← hrec]
  rfl

theorem physGood_event (s : State) (f m source kind loc detail addr : Nat) :
    (s.event source kind loc detail addr).physGood f m = s.physGood f m := by
  have hne (r : Reg) (hr : r ≠ .drvEvtStatus) : r.addr f 0 ∉ ({Reg.drvEvtStatus.addr 0 0} : Set Nat) :=
    fun heq => Reg.addr_ne_of_drv rfl hr.symm 0 0 f 0 (Set.mem_singleton_iff.mp heq).symm
  have hout := event_outside (w := {Reg.drvEvtStatus.addr 0 0}) rfl s source kind loc detail addr
  unfold State.physGood State.cbit coreBit
  split
  · exact hout.rbit (r := .flkPhysGoodLo) (hne _ (by decide)) _
  · exact hout.rbit (r := .flkPhysGoodHi) (hne _ (by decide)) _

theorem retire_spec (h : s.physGood f n = true) (hn : n < 128) (kind : Nat) : (s.retire f n kind).physGood f n = false ∧
    (s.nor.length < 4096 → (s.retire f n kind).nor = s.nor ++ [(f, n)]) ∧
    ∀ m, m < 128 → m ≠ n → (s.retire f n kind).physGood f m = s.physGood f m := by
  rw [retire_eq h kind]
  refine ⟨?_, fun hlen => ?_, fun m hm hne => ?_⟩
  · rw [physGood_event, State.retired, physGood_congr (recorded_regs ..), physGood_setCbit_same _ _ hn]
  · rw [(event_logOnly ..).nor, State.retired, State.recorded, if_pos (show (s.setCbit .flkPhysGoodLo .flkPhysGoodHi f n false).nor.length < 4096 from hlen)]
    rfl
  · rw [physGood_event, State.retired, physGood_congr (recorded_regs ..), physGood_setCbit_ne _ _ hm hn hne]

/-- Settles O55: what leaves and changes is what each event names. -/
theorem musterAndRetirement : Obligations.MusterAndRetirement := by
  intro s
  refine ⟨fun q hq hup => ?_, fun q hq hup => ?_, fun q d b hq hfold hlearned hd hsuspect hvotes hquorum => ?_,
    fun x r hx hsuspect hvotes => ?_, fun v => ⟨fun hx hfree => ?_, fun hx hdead _ _ htags hproc => ?_⟩,
    fun hfree _ _ htags hproc => ?_, rfl, fun v hf hgood => ?_, fun f n hf hn hfree => ⟨fun hgood hlen => ?_, ?_⟩⟩
  · have htell := sendFrames_tells s q (s.muster.suspect.map s.suspectEntry)
    refine ⟨_, by rw [exec_musterPeriodicFrame hq, hup, if_pos rfl], htell.suspect, ?_, fun hlen => ?_⟩
    · rw [sendFrames_fseq, List.length_map]
    · rw [sendFrames_single _ _ (by rwa [List.length_map])]
      exact sendFrame_sends ..
  · rw [exec_musterPeriodicFrame hq, hup, if_neg Bool.false_ne_true]
  · have hspec := review_single_spec (s := s.setMuster { s.muster with learned := [(q, d, true)] }) rfl hd hsuspect hvotes hquorum
    refine ⟨_, ?_, hspec⟩
    show execMusterSilenceExpiry q s = _
    rw [execMusterSilenceExpiry, inRange_next hq, Option.isNone_eq_false_iff.mpr hfold, hlearned]
    simp
  · have hlight : (s.setMuster { s.muster with votes := [] }).votesFor x < (s.setMuster { s.muster with votes := [] }).quorum := by
      have hzero : (s.setMuster { s.muster with votes := [] }).votesFor x = 0 := by simp [State.votesFor, State.setMuster, hsuspect]
      rw [hzero]
      exact one_le_quorum _
    have hnone : s.muster.votes.filter (· != (x, r)) = [] := by simp [hvotes]
    refine ⟨_, rfl, ?_⟩
    rw [hnone, weigh_light _ (.inr hlight)]
    exact ⟨rfl, rfl⟩
  · have hfld := fence_spec hfree (cause := 3) (kind := 7) (detail := 0) (by decide)
    exact ⟨_, exec_drvDeclare_self hx, fenced_of_fld hfld (by decide), hfld⟩
  · exact ⟨_, exec_drvDeclare_other hx, declareDead_spec hdead (bits_lt ..) htags hproc⟩
  · have hfld := fence_spec hfree (cause := 2) (kind := 6) (detail := 0) (by decide)
    have hkept : ((s.fence 2 6 0).declareDead s.device).fld .drvMusterStatus 0 0 61 60 = 2 := by
      rw [declareDead_fence _ _ (by rw [fence_ni, htags]) (by rw [fence_ni, hproc]), hfld]
    exact ⟨_, rfl, fenced_of_fld hkept (by decide), hkept⟩
  · have hn : bits v.toNat 6 0 < 128 := bits_lt ..
    refine ⟨_, ?_, retire_spec hgood hn 3⟩
    show execDrvRetire v s = _
    unfold execDrvRetire
    dsimp only
    rw [if_pos ⟨hf, hn⟩]
  · obtain ⟨hbad, hnor, -⟩ := retire_spec hgood hn 2
    refine ⟨_, ?_, hbad, hnor hlen⟩
    show execSpareSelfTest f n false s = _
    rw [execSpareSelfTest, inRange_next hf, hfree, if_neg (by simpa using hn)]
  · show execSpareSelfTest f n true s = _
    rw [execSpareSelfTest, inRange_next hf]
    simp

end Sys2Proof.Machine

/-! SUPPORT. The state of a port, its credits and its lane map (R605 to R607, R617, R619, Table 15.11). -/

namespace Sys2Proof.Machine

variable {s t u : State} {q : Nat}

/-! ### The registers of a hearth -/

/-- The status register of port `q`. -/
def portReg (q : Nat) : Nat := Reg.hthPortStatus.addr (q / 4) (q % 4)

theorem portReg_inj {q' : Nat} (h : portReg q = portReg q') : q = q' := by
  simp [portReg, Reg.addr, Reg.row, Block.base] at h
  omega

theorem portSlice_lt (hq : q < 64) : portSlice q < 12 := by
  unfold portSlice hearthSlice
  have h16 : q / 4 < 16 := by omega
  interval_cases q / 4 <;> decide

theorem portState_congr (h : t.reg .hthPortStatus (q / 4) (q % 4) = s.reg .hthPortStatus (q / 4) (q % 4)) : t.portState q = s.portState q := by
  rw [State.portState, State.fld, h, ← State.fld, State.portState]

theorem RegsOutside.portState {w : Set Nat} (h : RegsOutside w s t) (hq : portReg q ∉ w) : t.portState q = s.portState q :=
  h.fld hq 62 60

theorem portUp_iff (s : State) (q : Nat) : s.portUp q = true ↔ s.portState q = 2 := by
  rw [State.portUp, beq_iff_eq, State.portState]

/-! ### STATE -/

theorem portState_setPortState (s : State) (q : Nat) {v : Nat} (hv : v < 8) : (s.setPortState q v).portState q = v := by
  rw [State.portState, State.setPortState, State.fld_setRbit_ne _ _ _ _ _ (by decide) (by omega), State.fld_setFld_same _ _ _ _ _ _ _ (by decide)]
  exact Nat.mod_eq_of_lt hv

theorem setPortState_outside (s : State) (q v : Nat) : RegsOutside {portReg q} s (s.setPortState q v) :=
  (setFld_outside_self ..).trans (setRbit_outside_self ..)

theorem setPortState_only (s : State) (q v : Nat) : RegsOnly s (s.setPortState q v) := ((RegsOnly.refl s).setFld ..).setRbit ..

theorem beginTraining_only (s : State) (q : Nat) : RegsOnly s (s.beginTraining q) := .ite (setPortState_only ..) (.refl s)

theorem beginTraining_outside (s : State) (q : Nat) : RegsOutside {portReg q} s (s.beginTraining q) := .ite (setPortState_outside ..) (.refl s)

theorem beginTraining_state (s : State) (q : Nat) : (s.beginTraining q).portState q = if s.mayTrain q then 1 else s.portState q := by
  unfold State.beginTraining
  split
  · exact portState_setPortState s q (by decide)
  · rfl

theorem mayTrain_congr (hst : t.reg .hthStatus (q / 4) 0 = s.reg .hthStatus (q / 4) 0)
    (hctl : t.reg .hthPortCtrl (q / 4) (q % 4) = s.reg .hthPortCtrl (q / 4) (q % 4)) : t.mayTrain q = s.mayTrain q := by
  unfold State.mayTrain State.rbit
  rw [hst, hctl]

/-! ### A port goes down -/

theorem dropPart_only (s : State) (q : Nat) : RegsOnly s (s.dropPart q) := .ite (.refl s) ((RegsOnly.refl s).setFld ..)

/-- What a port that leaves UP writes. -/
def portOffRegs (q : Nat) : Set Nat := {portReg q, Reg.rtrDrop.addr (portSlice q) 0}

theorem dropPart_outside (s : State) (q : Nat) : RegsOutside {Reg.rtrDrop.addr (portSlice q) 0} s (s.dropPart q) :=
  .ite (.refl s) (setFld_outside_self ..)

/-- What stays of a port: the numbers of the control codewords, and the calibration. -/
def Port.offed (p : Port) : Port := { Port.fresh with next := p.next, got := p.got, calTx := p.calTx, calRx := p.calRx }

/-- The registers of a port that leaves UP for state `v`. -/
def State.closed (s : State) (q v : Nat) : State := (s.dropPart q).setPortState q v

theorem portOff_eq (s : State) (q v : Nat) : s.portOff q v = ((s.closed q v).dropCredits q).modPort q Port.offed := rfl

theorem closed_only (s : State) (q v : Nat) : RegsOnly s (s.closed q v) := (dropPart_only s q).trans (setPortState_only ..)

theorem closed_outside (s : State) (q v : Nat) : RegsOutside (portOffRegs q) s (s.closed q v) :=
  ((dropPart_outside s q).mono (by simp [portOffRegs])).trans ((setPortState_outside ..).mono (by simp [portOffRegs]))

theorem portOff_regs (s : State) (q v : Nat) : (s.portOff q v).regs = (s.closed q v).regs := by
  rw [portOff_eq, State.modPort_regs, State.dropCredits, State.setRtr_regs]

theorem portOff_outside (s : State) (q v : Nat) : RegsOutside (portOffRegs q) s (s.portOff q v) :=
  (closed_outside s q v).trans (.of_regs (portOff_regs s q v))

theorem portOff_state (s : State) (q : Nat) {v : Nat} (hv : v < 8) : (s.portOff q v).portState q = v := by
  have hreg : (s.portOff q v).portState q = (s.closed q v).portState q := portState_congr (reg_congr (portOff_regs s q v) ..)
  rw [hreg, State.closed, portState_setPortState _ _ hv]

theorem portOff_port (s : State) (q v : Nat) : (s.portOff q v).port q = (s.port q).offed := by
  rw [portOff_eq, port_modPort_same]
  have hports : ((s.closed q v).dropCredits q).ports = s.ports := by
    rw [State.dropCredits, State.setRtr_ports, (closed_only s q v).logOnly.ports]
  rw [State.port, hports, ← State.port]

theorem portOff_out (s : State) (q v : Nat) : (s.portOff q v).out = s.out := by
  rw [portOff_eq, State.modPort_out, State.dropCredits, State.setRtr_out, (closed_only s q v).out]

theorem portOff_fold (s : State) (q v : Nat) : (s.portOff q v).fold = s.fold := by
  rw [portOff_eq, State.modPort_fold, State.dropCredits, State.setRtr_fold, (closed_only s q v).logOnly.fold]

theorem creditKey_div (q : Nat) (esc : Bool) {cls : Nat} (h : cls < 4) : creditKey q esc cls / 8 = q := by
  unfold creditKey
  cases esc <;> simp <;> omega

/-- A port that holds no credit of its own to begin with has none. -/
theorem portOff_credits (s : State) (q v : Nat) (esc : Bool) {cls : Nat} (h : cls < 4) :
    Sparse.get 0 (s.portOff q v).rtr.seen (creditKey q esc cls) = 0 := by
  show Sparse.get 0 (Sparse.drop (fun k => k / 8 == q) _) _ = 0
  rw [Sparse.get_drop, creditKey_div q esc h, beq_self_eq_true, if_pos rfl]

theorem credits_zero {esc : Bool} {cls : Nat} (h : Sparse.get 0 s.rtr.seen (creditKey q esc cls) = 0) : s.credits q esc cls = 0 := by
  rw [State.credits, h, Nat.zero_sub, ite_self]

theorem startRetrain_outside (s : State) (q : Nat) : RegsOutside (portOffRegs q) s (s.startRetrain q) :=
  (portOff_outside s q 3).trans (setFld_outside (.inl rfl) ..)

theorem startRetrain_state (s : State) (q : Nat) : (s.startRetrain q).portState q = 3 := by
  rw [State.startRetrain, State.incFld, State.portState, State.fld_setFld_ne _ _ _ _ _ _ _ _ _ (by decide) (by omega)]
  exact portOff_state s q (by decide)

theorem startRetrain_port (s : State) (q : Nat) : (s.startRetrain q).port q = (s.port q).offed := by
  rw [State.startRetrain, State.incFld, State.port, State.setFld_ports, ← State.port, portOff_port]

theorem startRetrain_out (s : State) (q : Nat) : (s.startRetrain q).out = s.out := by
  rw [State.startRetrain, State.incFld, State.setFld_out, portOff_out]

/-! ### The lanes of a port -/

/-- The lane register of a direction. -/
def laneAddr (q : Nat) (rx : Bool) : Nat := (laneReg rx).addr (q / 4) (q % 4)

theorem laneAddr_ne_portReg (q q' : Nat) (rx : Bool) : laneAddr q rx ≠ portReg q' := by
  cases rx <;> simp [laneAddr, laneReg, portReg, Reg.addr, Reg.row, Block.base] <;> omega

theorem laneAddr_rx_ne_tx (q : Nat) : laneAddr q true ≠ laneAddr q false := by
  simp [laneAddr, laneReg, Reg.addr, Reg.row, Block.base]

theorem setLane_outside (s : State) (q : Nat) (rx : Bool) (hi lo v : Nat) : RegsOutside {laneAddr q rx} s (s.setLane q rx hi lo v) :=
  setFld_outside_self ..

theorem setLane_only (s : State) (q : Nat) (rx : Bool) (hi lo v : Nat) : RegsOnly s (s.setLane q rx hi lo v) := (RegsOnly.refl s).setFld ..

theorem slotWl_outside {w : Set Nat} {rx : Bool} (h : RegsOutside w s t) (hw : laneAddr q rx ∉ w) (i : Nat) : t.slotWl q rx i = s.slotWl q rx i :=
  h.fld hw ..

section
variable (s : State) (q : Nat) (rx : Bool)

theorem slotWl_setSlot_same {i : Nat} (hi : i < 8) {k : Nat} (hk : k < 16) : (s.setSlot q rx i k).slotWl q rx i = k := by
  rw [State.slotWl, State.lane, State.setSlot, State.setLane, State.fld_setFld_same _ _ _ _ _ _ _ (by omega),
    show 4 * i + 3 + 1 - 4 * i = 4 by omega]
  exact Nat.mod_eq_of_lt hk

theorem slotWl_setSlot_ne {i j : Nat} (hi : i < 8) (h : j ≠ i) (k : Nat) : (s.setSlot q rx i k).slotWl q rx j = s.slotWl q rx j := by
  rw [State.slotWl, State.lane, State.setSlot, State.setLane, State.fld_setFld_ne _ _ _ _ _ _ _ _ _ (by omega) (by omega)]
  rfl

/-- The good wavelengths of a direction, in ascending order. -/
def goodOf (good : Nat) : List Nat := (List.range 9).filter (bit good)

theorem mapLanes_outside (good : Nat) : RegsOutside {laneAddr q rx} s (s.mapLanes q rx good) := by
  have hspare : RegsOutside {laneAddr q rx} s ((s.setSpare q rx (if (goodOf good).length = 9 then 8 else 0xF)).setSpareFor q rx 0xF) :=
    (setLane_outside ..).trans (setLane_outside ..)
  exact (hspare.trans (.foldl (fun t k _ => setLane_outside t ..) _)).trans (.foldl (fun t k _ => setLane_outside t ..) _)

theorem mapLanes_only (good : Nat) : RegsOnly s (s.mapLanes q rx good) := by
  have hspare : RegsOnly s ((s.setSpare q rx (if (goodOf good).length = 9 then 8 else 0xF)).setSpareFor q rx 0xF) :=
    (setLane_only ..).trans (setLane_only ..)
  have hfold {g : State → Nat → State} (hg : ∀ t k, RegsOnly t (g t k)) (l : List Nat) (t : State) (h : RegsOnly s t) :
      RegsOnly s (l.foldl g t) := List.foldlRecOn (motive := fun t => RegsOnly s t) l g h fun t h k _ => h.trans (hg t k)
  exact hfold (fun t k => setLane_only t ..) _ _ (hfold (fun t k => setLane_only t ..) _ _ hspare)

theorem goodOf_lt {good k : Nat} (h : k ∈ goodOf good) : k < 9 := List.mem_range.mp (List.mem_filter.mp h).1

theorem mapLanes_slots (good : Nat) {i : Nat} (hi : i < 8) : (s.mapLanes q rx good).slotWl q rx i = (goodOf good).getD i 0xF := by
  unfold State.mapLanes
  rw [← goodOf]
  have hlt (j : Nat) : ((goodOf good)[j]?).getD 0xF < 16 := by
    cases hj : (goodOf good)[j]? with
    | none => decide
    | some k => exact (goodOf_lt (List.mem_of_getElem? hj)).trans (by decide)
  obtain ⟨-, hslots⟩ := foldl_range_obs (P := fun _ => True) (n := 8) (g := fun s j => s.setSlot q rx j (((goodOf good)[j]?).getD 0xF))
    (obs := fun j t => t.slotWl q rx j) (f := fun j _ => ((goodOf good)[j]?).getD 0xF) (fun _ _ _ h => h)
    (fun t j hj _ => slotWl_setSlot_same t q rx hj (hlt j)) (fun t j hj p _ hne => slotWl_setSlot_ne t q rx hj hne _)
    ((List.range 9).foldl (fun s k => s.setHealth q rx k (if bit good k then 0 else 3))
      ((s.setSpare q rx (if (goodOf good).length = 9 then 8 else 0xF)).setSpareFor q rx 0xF)) trivial
  rw [hslots i hi, List.getD_eq_getElem?_getD]

end

end Sys2Proof.Machine

/-! SUPPORT. Training, retrains and the other moves of a port (O52). -/

namespace Sys2Proof.Machine

variable {s t u : State} {q : Nat}

/-! ### Training -/

/-- The good wavelengths of the two directions, as a training run finds them. -/
def State.goodTx (s : State) (q : Nat) (gt : BitVec 9) : Nat := gt.toNat &&& s.fld .hthStatus (q / 4) 0 62 54

section
variable (hq : q < 64) (hstate : s.portState q = 1 ∨ s.portState q = 3) (hmay : s.mayTrain q = true)
include hq hstate hmay

theorem exec_portTrain (gt gr : BitVec 9) (answered : Bool) : exec (.portTrain q gt gr answered) s = .next (
    if !answered then s.setPortState q 1
    else if (goodOf (s.goodTx q gt)).length < s.minLanes q ∨ (goodOf gr.toNat).length < s.minLanes q then
      (if (goodOf gr.toNat).length < s.minLanes q then
        (if (goodOf (s.goodTx q gt)).length < s.minLanes q then s.hthLog q false 0xF 4 else s).hthLog q true 0xF 4
      else if (goodOf (s.goodTx q gt)).length < s.minLanes q then s.hthLog q false 0xF 4 else s).portOff q 0
    else
      ((((((s.portOff q 2).mapLanes q false (s.goodTx q gt)).mapLanes q true gr.toNat).setFld .hthPortStatus (q / 4) (q % 4) 59 56
        (min 8 (goodOf (s.goodTx q gt)).length)).setFld .hthPortStatus (q / 4) (q % 4) 55 52
          (min 8 (goodOf gr.toNat).length)).offerCredits q).sendControl q .none none) := by
  have hmayNot : ¬ ((s.portState q ≠ 1 ∧ s.portState q ≠ 3) ∨ (!s.mayTrain q) = true) := by
    rcases hstate with h | h <;> simp [h, hmay]
  show execPortTrain q gt gr answered s = _
  rw [execPortTrain, inRange_next hq]
  dsimp only
  rw [if_neg (by simpa [hmay] using hmayNot)]
  rfl

end

/-- A port that comes UP, before its first control codeword. -/
def State.lit (s : State) (q tx rx : Nat) : State :=
  (((((s.portOff q 2).mapLanes q false tx).mapLanes q true rx).setFld .hthPortStatus (q / 4) (q % 4) 59 56
    (min 8 (goodOf tx).length)).setFld .hthPortStatus (q / 4) (q % 4) 55 52 (min 8 (goodOf rx).length)).offerCredits q

/-- The port before the counts of its lanes are shown. -/
def State.mapped (s : State) (q tx rx : Nat) : State := ((s.portOff q 2).mapLanes q false tx).mapLanes q true rx

theorem mapped_only (s : State) (q tx rx : Nat) : RegsOnly (s.portOff q 2) (s.mapped q tx rx) := (mapLanes_only ..).trans (mapLanes_only ..)

theorem mapped_state (s : State) (q tx rx : Nat) : (s.mapped q tx rx).portState q = 2 := by
  have hlane (rx' : Bool) : portReg q ∉ ({laneAddr q rx'} : Set Nat) := fun h => laneAddr_ne_portReg q q rx' (Set.mem_singleton_iff.mp h).symm
  rw [State.mapped, (mapLanes_outside ..).portState (hlane true), (mapLanes_outside ..).portState (hlane false)]
  exact portOff_state s q (by decide)

theorem mapped_slots (s : State) (q tx rx : Nat) {i : Nat} (hi : i < 8) : (s.mapped q tx rx).slotWl q true i = (goodOf rx).getD i 0xF ∧
    (s.mapped q tx rx).slotWl q false i = (goodOf tx).getD i 0xF := by
  have hne : laneAddr q false ∉ ({laneAddr q true} : Set Nat) := fun h => laneAddr_rx_ne_tx q (Set.mem_singleton_iff.mp h).symm
  refine ⟨mapLanes_slots _ q true rx hi, ?_⟩
  rw [State.mapped, slotWl_outside (mapLanes_outside ..) hne]
  exact mapLanes_slots _ q false tx hi

/-- What the port shows once the counts of its lanes stand in its status. -/
theorem lit_regs (s : State) (q tx rx : Nat) : (s.lit q tx rx).regs = (((s.mapped q tx rx).setFld .hthPortStatus (q / 4) (q % 4) 59 56
    (min 8 (goodOf tx).length)).setFld .hthPortStatus (q / 4) (q % 4) 55 52 (min 8 (goodOf rx).length)).regs := by
  rw [State.lit, State.offerCredits, State.setRtr_regs, ← State.mapped]

theorem lit_fields (s : State) (q tx rx : Nat) : (s.lit q tx rx).portState q = 2 ∧
    (s.lit q tx rx).fld .hthPortStatus (q / 4) (q % 4) 59 56 = min 8 (goodOf tx).length ∧
    (s.lit q tx rx).fld .hthPortStatus (q / 4) (q % 4) 55 52 = min 8 (goodOf rx).length := by
  have hfld (hi lo : Nat) : (s.lit q tx rx).fld .hthPortStatus (q / 4) (q % 4) hi lo = (((s.mapped q tx rx).setFld .hthPortStatus (q / 4) (q % 4) 59 56
      (min 8 (goodOf tx).length)).setFld .hthPortStatus (q / 4) (q % 4) 55 52 (min 8 (goodOf rx).length)).fld .hthPortStatus (q / 4) (q % 4) hi lo := by
    rw [State.fld, reg_congr (lit_regs s q tx rx), ← State.fld]
  have hmod (n : Nat) : min 8 n % 2 ^ 4 = min 8 n := Nat.mod_eq_of_lt (by omega)
  refine ⟨?_, ?_, ?_⟩
  · rw [State.portState, hfld, State.fld_setFld_ne _ _ _ _ _ _ _ _ _ (by decide) (by omega),
      State.fld_setFld_ne _ _ _ _ _ _ _ _ _ (by decide) (by omega), ← State.portState, mapped_state]
  · rw [hfld, State.fld_setFld_ne _ _ _ _ _ _ _ _ _ (by decide) (by omega), State.fld_setFld_same _ _ _ _ _ _ _ (by decide)]
    exact hmod _
  · rw [hfld, State.fld_setFld_same _ _ _ _ _ _ _ (by decide)]
    exact hmod _

theorem lit_slots (s : State) (q tx rx : Nat) {i : Nat} (hi : i < 8) : (s.lit q tx rx).slotWl q true i = (goodOf rx).getD i 0xF ∧
    (s.lit q tx rx).slotWl q false i = (goodOf tx).getD i 0xF := by
  have hout : RegsOutside {portReg q} (s.mapped q tx rx) (s.lit q tx rx) :=
    ((setFld_outside_self ..).trans (setFld_outside_self ..)).trans (.of_regs (lit_regs s q tx rx))
  have hne (r : Bool) : laneAddr q r ∉ ({portReg q} : Set Nat) := fun h => laneAddr_ne_portReg q q r (Set.mem_singleton_iff.mp h)
  rw [slotWl_outside hout (hne true), slotWl_outside hout (hne false)]
  exact mapped_slots s q tx rx hi

theorem offerCredits_seen (s : State) (q : Nat) : (s.offerCredits q).rtr.seen = s.rtr.seen := rfl

/-- The fields that the lighting of a port leaves, as the port's end left them. -/
theorem lit_rest (s : State) (q tx rx : Nat) : (s.lit q tx rx).ports = (s.portOff q 2).ports ∧ (s.lit q tx rx).out = s.out ∧
    (s.lit q tx rx).fold = s.fold ∧ (s.lit q tx rx).rtr.seen = (s.portOff q 2).rtr.seen := by
  have honly := (mapped_only s q tx rx).logOnly
  rw [State.lit, ← State.mapped]
  refine ⟨?_, ?_, ?_, ?_⟩
  · rw [State.offerCredits, State.setRtr_ports, State.setFld_ports, State.setFld_ports, honly.ports]
  · rw [State.offerCredits, State.setRtr_out, State.setFld_out, State.setFld_out, (mapped_only s q tx rx).out, portOff_out]
  · rw [State.offerCredits, State.setRtr_fold, State.setFld_fold, State.setFld_fold, honly.fold, portOff_fold]
  · rw [offerCredits_seen, State.setFld_rtr, State.setFld_rtr, honly.rtr]

/-- A control codeword of a state that differs in nothing that it tells. -/
theorem SendsControl.from {lane : LaneMsg} {muster : Option MusterFrame} {n : Nat} (h : s.SendsControl t q n lane muster)
    (hout : s.out = u.out) (hnext : (s.port q).next = (u.port q).next) (hfold : s.fold = u.fold) : u.SendsControl t q n lane muster := by
  obtain ⟨w, flits, hlen, hlane, hmuster, hseq, hdev, hport, hcredits, hnext', hsent⟩ := h
  exact ⟨w, flits, hlen, hlane, hmuster, by rw [hseq, hnext], by rw [hdev, device_congr hfold], hport, hcredits, by rw [hnext', hnext],
    by rw [hsent, hout]⟩

theorem lit_port (s : State) (q tx rx : Nat) : (s.lit q tx rx).port q = (s.port q).offed := by
  rw [State.port, (lit_rest s q tx rx).1, ← State.port, portOff_port]

theorem lit_sends (s : State) (q tx rx : Nat) : s.SendsControl ((s.lit q tx rx).sendControl q .none none) q 0 .none none := by
  have hport := lit_port s q tx rx
  obtain ⟨-, hout, hfold, -⟩ := lit_rest s q tx rx
  have hdue : (s.lit q tx rx).flitsDue q = 0 := by
    rw [State.flitsDue, hport, show (s.port q).offed.txPos = 0 from rfl]
  have hsends := sendControl_sends (s.lit q tx rx) q .none none
  rw [hdue] at hsends
  exact SendsControl.from hsends hout (by rw [hport]; rfl) hfold

/-! ### The state after a log -/

theorem hthLog_outside (s : State) (q : Nat) (rx : Bool) (wl kind : Nat) :
    RegsOutside {Reg.hthEvent.addr (q / 4) 0, Reg.drvEvtStatus.addr 0 0} s (s.hthLog q rx wl kind) := by
  unfold State.hthLog State.log
  dsimp only
  split
  · exact setReg_outside (.inl rfl) ..
  · exact (setReg_outside (.inl rfl) ..).trans (event_outside (.inr rfl) ..)

theorem portReg_not_log (q q' : Nat) : portReg q ∉ ({Reg.hthEvent.addr q' 0, Reg.drvEvtStatus.addr 0 0} : Set Nat) := by
  rintro (h | h) <;> simp [portReg, Reg.addr, Reg.row, Block.base] at h <;> omega

/-- The far end's identity, as it is recorded. -/
theorem comparePeer_fields (s : State) (q d p : Nat) : (s.comparePeer q d p).fld .hthPortStatus (q / 4) (q % 4) 43 30 = d % 2 ^ 14 ∧
    (s.comparePeer q d p).fld .hthPortStatus (q / 4) (q % 4) 51 46 = p % 2 ^ 6 := by
  unfold State.comparePeer
  split
  case isTrue h => exact h
  case isFalse =>
    have hlog (t : State) (hi lo : Nat) : (t.hthLog q true 0xF 6).fld .hthPortStatus (q / 4) (q % 4) hi lo =
        t.fld .hthPortStatus (q / 4) (q % 4) hi lo := (hthLog_outside t q true 0xF 6).fld (portReg_not_log q (q / 4)) ..
    rw [hlog, hlog, State.fld_setFld_ne _ _ _ _ _ _ _ _ _ (by decide) (by omega), State.fld_setFld_same _ _ _ _ _ _ _ (by decide),
      State.fld_setFld_same _ _ _ _ _ _ _ (by decide)]
    exact ⟨rfl, rfl⟩

/-! ### DISABLE, the lasers and the stiles -/

theorem setRbit_portState (s : State) {r : Reg} {i j b : Nat} {v : Bool} (h : portReg q ≠ r.addr i j) :
    (s.setRbit r i j b v).portState q = s.portState q := (setRbit_outside_self s r i j b v).portState (fun hin => h (Set.mem_singleton_iff.mp hin))

theorem setFld_portState (s : State) {r : Reg} {i j hi lo v : Nat} (h : portReg q ≠ r.addr i j) :
    (s.setFld r i j hi lo v).portState q = s.portState q := (setFld_outside_self s r i j hi lo v).portState (fun hin => h (Set.mem_singleton_iff.mp hin))

theorem portReg_ne_ctrl (q q' : Nat) : portReg q ≠ Reg.hthPortCtrl.addr (q' / 4) (q' % 4) := by
  simp [portReg, Reg.addr, Reg.row, Block.base]
  omega

theorem portReg_ne_hth (q h : Nat) : portReg q ≠ Reg.hthStatus.addr h 0 := by
  simp [portReg, Reg.addr, Reg.row, Block.base]
  omega

theorem hth_ne_ctrl (h q : Nat) : Reg.hthStatus.addr h 0 ≠ Reg.hthPortCtrl.addr (q / 4) (q % 4) := by
  simp [Reg.addr, Reg.row, Block.base]
  omega

/-- Port `k` begins training if it is DOWN and may train. -/
def State.tryTrain (s : State) (k : Nat) : State := if s.portState k = 0 then s.beginTraining k else s

/-- The status registers of the ports. -/
def portRegs : Set Nat := {a | ∃ k, a = portReg k}

theorem tryTrain_outside_self (s : State) (k : Nat) : RegsOutside {portReg k} s (s.tryTrain k) := .ite (beginTraining_outside ..) (.refl s)

theorem tryTrain_outside (s : State) (k : Nat) : RegsOutside portRegs s (s.tryTrain k) :=
  (tryTrain_outside_self s k).mono fun _ h => ⟨k, Set.mem_singleton_iff.mp h⟩

theorem tryTrain_only (s : State) (k : Nat) : RegsOnly s (s.tryTrain k) := .ite (beginTraining_only ..) (.refl s)

theorem tryTrain_state (s : State) (k : Nat) : (s.tryTrain k).portState k = if s.portState k = 0 ∧ s.mayTrain k = true then 1 else s.portState k := by
  unfold State.tryTrain
  split
  case isTrue h => simp [beginTraining_state, h]
  case isFalse h => simp [h]

theorem mayTrain_outside (h : RegsOutside portRegs s t) (k : Nat) : t.mayTrain k = s.mayTrain k := by
  refine mayTrain_congr (h.reg _ _ _ ?_) (h.reg _ _ _ ?_)
  · rintro ⟨k', hk⟩
    exact portReg_ne_hth k' (k / 4) hk.symm
  · rintro ⟨k', hk⟩
    exact portReg_ne_ctrl k' k hk.symm

/-- The ports that begin training are those that are DOWN and may train. -/
theorem tryTrains_state (s : State) {g : Nat → Nat} (hg : ∀ i j, g i = g j → i = j) {n i : Nat} (hi : i < n) (hdown : s.portState (g i) = 0) :
    ((List.range n).foldl (fun s i => s.tryTrain (g i)) s).portState (g i) = if s.mayTrain (g i) then 1 else 0 := by
  obtain ⟨-, hstates⟩ := foldl_range_obs (P := fun t => ∀ k, t.mayTrain k = s.mayTrain k) (g := fun s i => s.tryTrain (g i)) (n := n)
    (obs := fun i t => t.portState (g i)) (f := fun i v => if v = 0 ∧ s.mayTrain (g i) = true then 1 else v)
    (fun t i _ h k => (mayTrain_outside (tryTrain_outside t (g i)) k).trans (h k))
    (fun t i _ h => by rw [tryTrain_state, h])
    (fun t i _ p _ hne => (tryTrain_outside_self t (g i)).portState fun h => hne (hg p i (portReg_inj (Set.mem_singleton_iff.mp h))))
    s fun _ => rfl
  rw [hstates i hi, hdown]
  simp

theorem tryTrains_outside (s : State) (g : Nat → Nat) (n : Nat) : RegsOutside portRegs s ((List.range n).foldl (fun s i => s.tryTrain (g i)) s) :=
  .foldl (fun t i _ => tryTrain_outside t (g i)) s

theorem hthStatus_not_portRegs (h : Nat) : Reg.hthStatus.addr h 0 ∉ portRegs := by
  rintro ⟨k, hk⟩
  exact portReg_ne_hth k h hk.symm

/-- A change of HTH_STATUS leaves the state of every port, and its DISABLE. -/
theorem hth_written {w : Set Nat} (h : RegsOutside w s t) (hw : w ⊆ {a | ∃ k, a = Reg.hthStatus.addr k 0}) (q : Nat) :
    t.portState q = s.portState q ∧ t.rbit .hthPortCtrl (q / 4) (q % 4) 1 = s.rbit .hthPortCtrl (q / 4) (q % 4) 1 := by
  refine ⟨h.portState fun hin => ?_, h.rbit (fun hin => ?_) 1⟩
  · obtain ⟨k, hk⟩ := hw hin
    exact portReg_ne_hth q k hk
  · obtain ⟨k, hk⟩ := hw hin
    exact hth_ne_ctrl k q hk.symm

theorem startRetrain_regs_lane (s : State) (q : Nat) (rx : Bool) (hq : q < 64) (i : Nat) : (s.startRetrain q).slotWl q rx i = s.slotWl q rx i := by
  refine slotWl_outside (startRetrain_outside s q) ?_ i
  have hslice := portSlice_lt hq
  rintro (h | h)
  · exact laneAddr_ne_portReg q q rx h
  · cases rx <;> simp [laneAddr, laneReg, Reg.addr, Reg.row, Block.base] at h <;> omega

theorem startRetrain_sends (s : State) (hq : q < 64) : s.SendsControl ((s.sendControl q .retrain none).startRetrain q) q (s.flitsDue q) .retrain none := by
  obtain ⟨w, flits, hlen, hlane, hmuster, hseq, hdev, hport, hcredits, hnext, hsent⟩ := sendControl_sends s q .retrain none
  refine ⟨w, flits, hlen, hlane, hmuster, hseq, hdev, hport, hcredits, ?_, ?_⟩
  · rw [startRetrain_port, ← hnext]
    rfl
  · have hslots : ((s.sendControl q .retrain none).startRetrain q).slots q false = (s.sendControl q .retrain none).slots q false := by
      unfold State.slots
      simp only [startRetrain_regs_lane _ _ _ hq]
    rw [startRetrain_out, hslots, hsent]

theorem exec_retrain (hq : q < 64) : exec (.retrain q) s = .next (if s.portState q = 2 then s.startRetrain q else s) := by
  show execRetrain q s = _
  rw [execRetrain, inRange_next hq]
  rfl

theorem exec_portRetrainWrite (hq : q < 64) : exec (.portRetrainWrite q) s = .next (if s.portState q = 2 then
    (s.sendControl q .retrain none).startRetrain q else if s.portState q = 0 ∧ s.mayTrain q = true then s.startRetrain q else s) := by
  show execPortRetrainWrite q s = _
  rw [execPortRetrainWrite, inRange_next hq]

/-- A port that software disables. -/
theorem portDisable_spec (s : State) (hq : q < 64) : ∃ t, exec (.portDisable q) s = .next t ∧ t.portState q = 4 ∧
    t.rbit .hthPortCtrl (q / 4) (q % 4) 1 = true ∧ ∀ esc cls, cls < 4 → t.credits q esc cls = 0 := by
  refine ⟨(s.setRbit .hthPortCtrl (q / 4) (q % 4) 1 true).portOff q 4, ?_, portOff_state _ _ (by decide), ?_,
    fun esc cls hcls => credits_zero (portOff_credits _ _ _ esc hcls)⟩
  · show execPortDisable q s = _
    rw [execPortDisable, inRange_next hq]
  · have hslice := portSlice_lt hq
    rw [(portOff_outside (s.setRbit .hthPortCtrl (q / 4) (q % 4) 1 true) q 4).rbit]
    · exact State.rbit_setRbit_same _ _ _ _ _ _ (by decide)
    · rintro (h | h)
      · exact portReg_ne_ctrl q q h.symm
      · simp [Reg.addr, Reg.row, Block.base] at h
        omega

/-- A disabled port that software enables. -/
def State.enabled (s : State) (q : Nat) : State := (s.setRbit .hthPortCtrl (q / 4) (q % 4) 1 false).setPortState q 0

theorem exec_portEnable (hq : q < 64) (h : s.portState q = 4) : exec (.portEnable q) s = .next ((s.enabled q).beginTraining q) := by
  show execPortEnable q s = _
  rw [execPortEnable, inRange_next hq]
  dsimp only
  rw [setRbit_portState _ (portReg_ne_ctrl q q), if_pos h]
  rfl

theorem enabled_ctrl (s : State) (q : Nat) : (s.enabled q).rbit .hthPortCtrl (q / 4) (q % 4) 1 = false := by
  rw [State.enabled, (setPortState_outside ..).rbit]
  · exact State.rbit_setRbit_same _ _ _ _ _ _ (by decide)
  · exact fun h => portReg_ne_ctrl q q (Set.mem_singleton_iff.mp h).symm

theorem enabled_hth (s : State) (q b : Nat) : (s.enabled q).rbit .hthStatus (q / 4) 0 b = s.rbit .hthStatus (q / 4) 0 b := by
  rw [State.enabled, (setPortState_outside ..).rbit (fun h => portReg_ne_hth q _ (Set.mem_singleton_iff.mp h).symm),
    (setRbit_outside_self ..).rbit (fun h => hth_ne_ctrl _ q (Set.mem_singleton_iff.mp h))]

theorem enabled_mayTrain (s : State) (q : Nat) : (s.enabled q).mayTrain q = (s.rbit .hthStatus (q / 4) 0 63 && s.rbit .hthStatus (q / 4) 0 (52 + q % 4 / 2)) := by
  rw [State.mayTrain, enabled_hth, enabled_hth, enabled_ctrl, Bool.not_false, Bool.and_true]

/-! ### The lasers and the stiles -/

/-- A hearth whose lasers are stable. -/
def State.laserReady (s : State) (h : Nat) (ok : BitVec 9) : State := (s.setFld .hthStatus h 0 62 54 ok.toNat).setRbit .hthStatus h 0 63 true

theorem exec_hearthLasersStable {h : Nat} (hh : h < 16) (hreset : s.inReset = false) (hready : s.rbit .hthStatus h 0 63 = false) (ok : BitVec 9) :
    exec (.hearthLasersStable h ok) s = .next ((List.range 4).foldl (fun s j => s.tryTrain (4 * h + j)) (s.laserReady h ok)) := by
  show execHearthLasersStable h ok s = _
  rw [execHearthLasersStable, inRange_next hh, hreset, hready, if_neg (by decide)]
  rfl

theorem laserReady_outside (s : State) (h : Nat) (ok : BitVec 9) : RegsOutside {Reg.hthStatus.addr h 0} s (s.laserReady h ok) :=
  (setFld_outside_self ..).trans (setRbit_outside_self ..)

theorem laserReady_fields (s : State) (h : Nat) (ok : BitVec 9) : (s.laserReady h ok).rbit .hthStatus h 0 63 = true ∧
    (s.laserReady h ok).fld .hthStatus h 0 62 54 = ok.toNat ∧ ∀ b < 54, (s.laserReady h ok).rbit .hthStatus h 0 b = s.rbit .hthStatus h 0 b := by
  refine ⟨State.rbit_setRbit_same _ _ _ _ _ _ (by decide), ?_, fun b hb => ?_⟩
  · rw [State.laserReady, State.fld_setRbit_ne _ _ _ _ _ (by decide) (by omega), State.fld_setFld_same _ _ _ _ _ _ _ (by decide)]
    exact Nat.mod_eq_of_lt ok.isLt
  · rw [State.laserReady, State.rbit_setRbit_ne _ _ _ _ _ _ _ (by decide) (by omega), State.rbit_setFld_ne _ _ _ _ _ (by decide) (by omega)]

/-- A hearth one of whose stiles has moved. -/
def State.stileMoved (s : State) (h pair : Nat) : State := s.setRbit .hthStatus h 0 (52 + pair) (!s.inReset)

theorem exec_stileChangeComplete {h pair : Nat} (hh : h < 16) (hpair : pair < 2) : exec (.stileChangeComplete h pair) s =
    .next ((List.range 2).foldl (fun s j => s.tryTrain (4 * h + 2 * pair + j)) (s.stileMoved h pair)) := by
  show execStileChangeComplete h pair s = _
  rw [execStileChangeComplete, if_neg (by omega), inRange_next hh]
  rfl

end Sys2Proof.Machine

/-! SUPPORT. What each event makes of a port (O52). -/

namespace Sys2Proof.Machine

variable {s t u : State} {q : Nat}

/-- The hearth of port `q` has stable lasers. -/
theorem hearthLasersStable_spec (hq : q < 64) (ok : BitVec 9) (hreset : s.inReset = false) (hready : s.rbit .hthStatus (q / 4) 0 63 = false)
    (hdown : s.portState q = 0) : ∃ t, exec (.hearthLasersStable (q / 4) ok) s = .next t ∧ t.rbit .hthStatus (q / 4) 0 63 = true ∧
      t.fld .hthStatus (q / 4) 0 62 54 = ok.toNat ∧
      t.portState q = if s.rbit .hthStatus (q / 4) 0 (52 + q % 4 / 2) && !s.rbit .hthPortCtrl (q / 4) (q % 4) 1 then 1 else 0 := by
  have hq' : 4 * (q / 4) + q % 4 = q := Nat.div_add_mod q 4
  obtain ⟨h63, hok, hbits⟩ := laserReady_fields s (q / 4) ok
  obtain ⟨hstate, hctrl⟩ := hth_written (laserReady_outside s (q / 4) ok) (fun a h => ⟨q / 4, Set.mem_singleton_iff.mp h⟩) q
  have hout := tryTrains_outside (s.laserReady (q / 4) ok) (fun j => 4 * (q / 4) + j) 4
  have htrain := tryTrains_state (s.laserReady (q / 4) ok) (g := fun j => 4 * (q / 4) + j) (n := 4) (i := q % 4) (fun i j h => Nat.add_left_cancel h)
    (Nat.mod_lt _ (by decide)) (by rw [hq', hstate, hdown])
  refine ⟨_, exec_hearthLasersStable (by omega) hreset hready ok, ?_, ?_, ?_⟩
  · rw [hout.rbit (hthStatus_not_portRegs _), h63]
  · rw [hout.fld (hthStatus_not_portRegs _), hok]
  · rw [hq'] at htrain
    rw [htrain, State.mayTrain, h63, hbits _ (by omega), hctrl, Bool.true_and]

/-- A stile of the hearth of port `q` has moved. -/
theorem stileChangeComplete_spec (s : State) (hq : q < 64) : ∃ t, exec (.stileChangeComplete (q / 4) (q % 4 / 2)) s = .next t ∧
    t.rbit .hthStatus (q / 4) 0 (52 + q % 4 / 2) = (!s.inReset) ∧ (s.portState q = 0 → t.portState q =
      if s.rbit .hthStatus (q / 4) 0 63 && !s.inReset && !s.rbit .hthPortCtrl (q / 4) (q % 4) 1 then 1 else 0) := by
  have hq' : 4 * (q / 4) + 2 * (q % 4 / 2) + q % 4 % 2 = q := by omega
  obtain ⟨hstate, hctrl⟩ := hth_written (setRbit_outside_self s .hthStatus (q / 4) 0 (52 + q % 4 / 2) (!s.inReset))
    (fun a h => ⟨q / 4, Set.mem_singleton_iff.mp h⟩) q
  rw [← State.stileMoved] at hstate hctrl
  have hset : (s.stileMoved (q / 4) (q % 4 / 2)).rbit .hthStatus (q / 4) 0 (52 + q % 4 / 2) = (!s.inReset) :=
    State.rbit_setRbit_same _ _ _ _ _ _ (by omega)
  have hkept : (s.stileMoved (q / 4) (q % 4 / 2)).rbit .hthStatus (q / 4) 0 63 = s.rbit .hthStatus (q / 4) 0 63 :=
    State.rbit_setRbit_ne _ _ _ _ _ _ _ (by omega) (by omega)
  have hout := tryTrains_outside (s.stileMoved (q / 4) (q % 4 / 2)) (fun j => 4 * (q / 4) + 2 * (q % 4 / 2) + j) 2
  refine ⟨_, exec_stileChangeComplete (by omega) (by omega), ?_, fun hdown => ?_⟩
  · rw [hout.rbit (hthStatus_not_portRegs _), hset]
  · have htrain := tryTrains_state (s.stileMoved (q / 4) (q % 4 / 2)) (g := fun j => 4 * (q / 4) + 2 * (q % 4 / 2) + j) (n := 2) (i := q % 4 % 2)
      (fun i j h => Nat.add_left_cancel h) (Nat.mod_lt _ (by decide)) (by rw [hq', hstate, hdown])
    rw [hq'] at htrain
    rw [htrain, State.mayTrain, hkept, hset, hctrl]

/-- Settles O52: each event moves the port as its case says, and the registers around it stay. -/
theorem portsTrainRetrainAndClose : Obligations.PortsTrainRetrainAndClose := by
  intro s q hq
  refine ⟨fun gt gr hstate hmay => ⟨⟨_, exec_portTrain hq hstate hmay gt gr false, portState_setPortState s q (by decide)⟩,
    fun hfew => ⟨_, exec_portTrain hq hstate hmay gt gr true, ?_⟩, fun htx hrx => ⟨_, exec_portTrain hq hstate hmay gt gr true, ?_⟩⟩,
    fun gt gr a h1 h3 => ?_, fun d p hstate => ⟨s.comparePeer q d p, ?_, comparePeer_fields s q d p⟩, fun hdown hmay => ?_,
    fun hup => ⟨⟨_, exec_retrain hq, ?_⟩, _, exec_portRetrainWrite hq, ?_⟩, fun hnot => ?_, fun hdown hmay => ⟨_, exec_portRetrainWrite hq, ?_⟩,
    portDisable_spec s hq, fun hdis => ⟨_, exec_portEnable hq hdis, ?_⟩, fun ok hreset hready hdown =>
    hearthLasersStable_spec hq ok hreset hready hdown, stileChangeComplete_spec s hq⟩
  · have hfew : (goodOf (s.goodTx q gt)).length < s.minLanes q ∨ (goodOf gr.toNat).length < s.minLanes q := hfew
    rw [Bool.not_true, if_neg Bool.false_ne_true, if_pos hfew]
    exact portOff_state _ q (by decide)
  · rw [Bool.not_true, if_neg Bool.false_ne_true, if_neg (by rw [not_or]; exact ⟨Nat.not_lt.mpr htx, Nat.not_lt.mpr hrx⟩)]
    rw [← State.lit]
    have hsent := sendControl_transmits (s.lit q (s.goodTx q gt) gr.toNat) q .none none
    obtain ⟨hup, hntx, hnrx⟩ := lit_fields s q (s.goodTx q gt) gr.toNat
    have hseen := (lit_rest s q (s.goodTx q gt) gr.toNat).2.2.2
    refine ⟨?_, lit_sends s q _ _, ?_, ?_, fun i hi => ?_, fun esc cls hcls => credits_zero ?_⟩
    · rw [portUp_iff, portState_congr (reg_congr hsent.regs ..), hup]
    · rw [hsent.fld]
      exact hntx
    · rw [hsent.fld]
      exact hnrx
    · have hslot (rx : Bool) : ((s.lit q (s.goodTx q gt) gr.toNat).sendControl q .none none).slotWl q rx i =
          (s.lit q (s.goodTx q gt) gr.toNat).slotWl q rx i := hsent.fld ..
      rw [hslot, hslot]
      exact lit_slots s q _ _ hi
    · rw [hsent.rtr, hseen]
      exact portOff_credits s q 2 esc hcls
  · show execPortTrain q gt gr a s = _
    rw [execPortTrain, inRange_next hq]
    dsimp only
    rw [if_pos (.inl ⟨h1, h3⟩)]
  · show execTrainingFrame q d p s = _
    rw [execTrainingFrame, inRange_next hq, if_pos hstate]
  · refine ⟨s.beginTraining q, ?_, by rw [beginTraining_state, hmay, if_pos rfl]⟩
    show execTrainingRetryExpiry q s = _
    rw [execTrainingRetryExpiry, inRange_next hq, if_pos (by omega)]
  · rw [if_pos hup]
    exact startRetrain_state s q
  · rw [if_pos hup]
    exact ⟨startRetrain_state _ q, startRetrain_sends s hq⟩
  · rw [exec_retrain hq, if_neg hnot]
  · rw [if_neg (by omega), if_pos ⟨hdown, hmay⟩]
    exact startRetrain_state s q
  · refine ⟨?_, ?_⟩
    · rw [(beginTraining_outside ..).rbit (fun h => portReg_ne_ctrl q q (Set.mem_singleton_iff.mp h).symm), enabled_ctrl]
    · rw [beginTraining_state, enabled_mayTrain, State.enabled, portState_setPortState _ _ (by decide)]

end Sys2Proof.Machine

/-! SUPPORT. The flits of a packet carry the whole of it (R405, R406, Table 10.1). -/

namespace Sys2Proof.Machine

/-! ### Numbers in bytes -/

theorem leAt_append_left {bs : List Byte} (cs : List Byte) {n : Nat} (h : bs.length = n) : leAt (bs ++ cs) 0 n = ofLE bs := by
  rw [leAt, slice, List.drop_zero, List.take_append_of_le_length h.ge, List.take_of_length_le h.le, h, Nat.sub_self, List.replicate_zero,
    List.append_nil]

theorem leAt_append_right (bs cs : List Byte) (i n : Nat) : leAt (bs ++ cs) (bs.length + i) n = leAt cs i n := by
  rw [leAt, slice, List.drop_append, List.drop_eq_nil_of_le (Nat.le_add_right ..), Nat.add_sub_cancel_left, List.nil_append, leAt, slice]

/-- The number at the place of one of some words. -/
theorem leAt_words (ws : List Nat) (cs : List Byte) {i : Nat} (h : i < ws.length) :
    leAt ((ws.map (leBytes 8)).flatten ++ cs) (8 * i) 8 = ws[i] % 2 ^ 64 := by
  induction ws generalizing i with
  | nil => exact absurd h (Nat.not_lt_zero _)
  | cons w ws ih =>
    rw [List.map_cons, List.flatten_cons, List.append_assoc]
    cases i with
    | zero => rw [Nat.mul_zero, leAt_append_left _ (leBytes_length ..), ofLE_leBytes]; rfl
    | succ i =>
      have hat := leAt_append_right (leBytes 8 w) ((ws.map (leBytes 8)).flatten ++ cs) (8 * i) 8
      rw [leBytes_length] at hat
      rw [Nat.mul_succ, Nat.add_comm, hat, ih (Nat.lt_of_succ_lt_succ h)]
      rfl

theorem words_length (ws : List Nat) : ((ws.map (leBytes 8)).flatten).length = 8 * ws.length := by
  induction ws with
  | nil => rfl
  | cons w ws ih => rw [List.map_cons, List.flatten_cons, List.length_append, leBytes_length, ih, List.length_cons, Nat.mul_succ, Nat.add_comm]

/-! ### The flits -/

theorem payFlits_length_eq {f : List Byte} {n : Nat} {bs : List Byte} (h : f ∈ payFlits n bs) : f.length = 64 := by
  induction n generalizing bs with
  | zero => exact absurd h List.not_mem_nil
  | succ n ih =>
    rw [payFlits] at h
    split at h
    · exact absurd h List.not_mem_nil
    · obtain rfl | h := List.mem_cons.mp h
      · exact slice_length ..
      · exact ih h

theorem payFlits_length {n : Nat} {bs : List Byte} (h : bs.length ≤ 64 * n) : (payFlits n bs).length = (bs.length + 63) / 64 := by
  induction n generalizing bs with
  | zero => rw [payFlits, List.eq_nil_of_length_eq_zero (Nat.le_zero.mp h)]; rfl
  | succ n ih =>
    rw [payFlits]
    split
    next hb => rw [List.isEmpty_iff.mp hb]; rfl
    next hb =>
      have hpos : 0 < bs.length := List.length_pos_iff.mpr fun e => hb (List.isEmpty_iff.mpr e)
      rw [List.length_cons, ih (by rw [List.length_drop]; omega), List.length_drop]
      omega

/-- The payload flits are the payload and zero bytes. -/
theorem payFlits_flatten {n : Nat} {bs : List Byte} (h : bs.length ≤ 64 * n) : ∃ k, (payFlits n bs).flatten = bs ++ List.replicate k 0 := by
  induction n generalizing bs with
  | zero => exact ⟨0, by rw [payFlits, List.eq_nil_of_length_eq_zero (Nat.le_zero.mp h)]; rfl⟩
  | succ n ih =>
    rw [payFlits]
    split
    next hb => exact ⟨0, by rw [List.isEmpty_iff.mp hb]; rfl⟩
    next =>
      obtain ⟨k, hk⟩ := ih (bs := bs.drop 64) (by rw [List.length_drop]; omega)
      rw [List.flatten_cons, hk, slice, List.drop_zero]
      by_cases hlen : bs.length ≤ 64
      · refine ⟨64 - bs.length + k, ?_⟩
        rw [List.take_of_length_le hlen, List.drop_eq_nil_of_le hlen, List.nil_append, List.append_assoc, List.replicate_append_replicate]
      · refine ⟨k, ?_⟩
        have hfull : (bs.take 64).length = 64 := List.length_take_of_le (Nat.le_of_not_le hlen)
        rw [hfull, Nat.sub_self, List.replicate_zero, List.append_nil, ← List.append_assoc, List.take_append_drop]

theorem pktHeader_length (p : Packet) : (pktHeader p).length = 64 := words_length (pktWords p)

theorem pktFlits_length_eq {p : Packet} {f : List Byte} (h : f ∈ pktFlits p) : f.length = 64 := by
  obtain rfl | h := List.mem_cons.mp h
  · exact pktHeader_length p
  · exact payFlits_length_eq h

theorem pktFlits_length (p : Packet) : (pktFlits p).length = 1 + (p.payload.length + 63) / 64 := by
  rw [pktFlits, List.length_cons, payFlits_length (by omega), Nat.add_comm]

/-! ### The header words -/

theorem pktWord_zero {dest src cls op status len share hops : Nat} {flag ll : Bool} {w : Nat}
    (hw : w = dest * 2 ^ 50 + src * 2 ^ 36 + cls * 2 ^ 34 + flag.toNat * 2 ^ 33 + ll.toNat * 2 ^ 32 + op * 2 ^ 26 + status * 2 ^ 22 +
      len * 2 ^ 12 + share * 2 ^ 8 + hops)
    (hdest : dest < 2 ^ 14) (hsrc : src < 2 ^ 14) (hcls : cls < 4) (hop : op < 64) (hstatus : status < 16) (hlen : len < 1024)
    (hshare : share < 16) (hhops : hops < 256) :
    w < 2 ^ 64 ∧ bits w 63 50 = dest ∧ bits w 49 36 = src ∧ bits w 35 34 = cls ∧ bit w 33 = flag ∧ bit w 32 = ll ∧ bits w 31 26 = op ∧
      bits w 25 22 = status ∧ bits w 21 12 = len ∧ bits w 11 8 = share ∧ bits w 7 0 = hops := by
  have hflag := flag.toNat_le
  have hll := ll.toNat_le
  simp only [bits, Nat.shiftRight_eq_div_pow]
  refine ⟨by omega, by omega, by omega, by omega, bit_eq_of_div_mod (by omega), bit_eq_of_div_mod (by omega), by omega, by omega, by omega,
    by omega, by omega⟩

/-- Two fields of 32 bits. -/
theorem pktWord_pair {a b : BitVec 32} {w : Nat} (hw : w = a.toNat * 2 ^ 32 + b.toNat) :
    w < 2 ^ 64 ∧ BitVec.ofNat 32 (bits w 63 32) = a ∧ BitVec.ofNat 32 w = b := by
  have ha := a.isLt
  have hb := b.isLt
  simp only [bits, Nat.shiftRight_eq_div_pow]
  exact ⟨by omega, BitVec.eq_of_toNat_eq (by rw [BitVec.toNat_ofNat]; omega), BitVec.eq_of_toNat_eq (by rw [BitVec.toNat_ofNat]; omega)⟩

theorem pktWord_two {rsv2 space offset w : Nat} (hw : w = rsv2 * 2 ^ 50 + space * 2 ^ 48 + offset) (hrsv2 : rsv2 < 2 ^ 14) (hspace : space < 4)
    (hoffset : offset < 2 ^ 48) : w < 2 ^ 64 ∧ bits w 63 50 = rsv2 ∧ bits w 49 48 = space ∧ bits w 47 0 = offset := by
  simp only [bits, Nat.shiftRight_eq_div_pow]
  omega

theorem pktWord_three {ackSeq : BitVec 32} {epoch : BitVec 16} {tag w : Nat} (hw : w = ackSeq.toNat * 2 ^ 32 + epoch.toNat * 2 ^ 16 + tag)
    (htag : tag < 2 ^ 16) : w < 2 ^ 64 ∧ BitVec.ofNat 32 (bits w 63 32) = ackSeq ∧ BitVec.ofNat 16 (bits w 31 16) = epoch ∧ bits w 15 0 = tag := by
  have hack := ackSeq.isLt
  have hepoch := epoch.isLt
  simp only [bits, Nat.shiftRight_eq_div_pow]
  exact ⟨by omega, BitVec.eq_of_toNat_eq (by rw [BitVec.toNat_ofNat]; omega), BitVec.eq_of_toNat_eq (by rw [BitVec.toNat_ofNat]; omega), by omega⟩

theorem pktWord_seven {ackV esc : Bool} {rsv7 w : Nat} {crc : Word32} (hw : w = ackV.toNat * 2 ^ 63 + esc.toNat * 2 ^ 62 + rsv7 * 2 ^ 32 + crc.toNat)
    (hrsv7 : rsv7 < 2 ^ 30) :
    w < 2 ^ 64 ∧ bit w 63 = ackV ∧ bit w 62 = esc ∧ bits w 61 32 = rsv7 ∧ BitVec.ofNat 32 w = crc := by
  have hack := ackV.toNat_le
  have hesc := esc.toNat_le
  have hcrc := crc.isLt
  simp only [bits, Nat.shiftRight_eq_div_pow]
  exact ⟨by omega, bit_eq_of_div_mod (by omega), bit_eq_of_div_mod (by omega), by omega, BitVec.eq_of_toNat_eq (by rw [BitVec.toNat_ofNat]; omega)⟩

theorem ofNat_toNat_mod (w : BitVec 64) : BitVec.ofNat 64 (w.toNat % 2 ^ 64) = w := by
  rw [Nat.mod_eq_of_lt w.isLt, BitVec.ofNat_toNat, BitVec.setWidth_eq]

theorem pktWords_length (p : Packet) : (pktWords p).length = 8 := rfl

/-- The packet that some bytes hold, of which the eight header words and what follows are known. -/
theorem packetOf_eq {p : Packet} {bs : List Byte} (hw : ∀ i (h : i < (pktWords p).length), leAt bs (8 * i) 8 = (pktWords p)[i] % 2 ^ 64)
    (hpay : slice bs 64 p.len = p.payload)
    (hdest : p.dest < 2 ^ 14) (hsrc : p.src < 2 ^ 14) (hcls : p.cls < 4) (hop : p.op < 64) (hstatus : p.status < 16) (hlen : p.len < 1024)
    (hshare : p.share < 16) (hhops : p.hops < 256) (hrsv2 : p.rsv2 < 2 ^ 14) (hspace : p.space < 4) (hoffset : p.offset < 2 ^ 48)
    (htag : p.tag < 2 ^ 16) (hrsv7 : p.rsv7 < 2 ^ 30) : packetOf bs = p := by
  have h0 := hw 0 (by rw [pktWords_length]; decide)
  have h1 := hw 1 (by rw [pktWords_length]; decide)
  have h2 := hw 2 (by rw [pktWords_length]; decide)
  have h3 := hw 3 (by rw [pktWords_length]; decide)
  have h4 := hw 4 (by rw [pktWords_length]; decide)
  have h5 := hw 5 (by rw [pktWords_length]; decide)
  have h6 := hw 6 (by rw [pktWords_length]; decide)
  have h7 := hw 7 (by rw [pktWords_length]; decide)
  simp only [pktWords, List.getElem_cons_zero, List.getElem_cons_succ] at h0 h1 h2 h3 h4 h5 h6 h7
  obtain ⟨l0, e1, e2, e3, e4, e5, e6, e7, e8, e9, e10⟩ := pktWord_zero (flag := p.flag) (ll := p.ll) rfl hdest hsrc hcls hop hstatus hlen hshare hhops
  obtain ⟨l1, f1, f2⟩ := pktWord_pair (a := p.jobTag) (b := p.seq) rfl
  obtain ⟨l2, g1, g2, g3⟩ := pktWord_two rfl hrsv2 hspace hoffset
  obtain ⟨l3, k1, k2, k3⟩ := pktWord_three (ackSeq := p.ackSeq) (epoch := p.epoch) rfl htag
  obtain ⟨l7, m1, m2, m3, m4⟩ := pktWord_seven (ackV := p.ackV) (esc := p.esc) (crc := p.crc) rfl hrsv7
  rw [Nat.mod_eq_of_lt l0] at h0
  rw [Nat.mod_eq_of_lt l1] at h1
  rw [Nat.mod_eq_of_lt l2] at h2
  rw [Nat.mod_eq_of_lt l3] at h3
  rw [Nat.mod_eq_of_lt l7] at h7
  unfold packetOf
  dsimp only
  rw [h0, h1, h2, h3, h4, h5, h6, h7, e1, e2, e3, e4, e5, e6, e7, e8, e9, e10, f1, f2, g1, g2, g3, k1, k2, k3, m1, m2, m3, m4, hpay,
    ofNat_toNat_mod, ofNat_toNat_mod, ofNat_toNat_mod]

theorem slice_append_right {bs cs : List Byte} {n : Nat} (ds : List Byte) (h : bs.length = n) : slice (bs ++ (cs ++ ds)) n cs.length = cs := by
  rw [slice, ← h, List.drop_append_of_le_length Nat.le.refl, List.drop_length, List.nil_append, List.take_left, Nat.sub_self, List.replicate_zero,
    List.append_nil]

/-- The flits of a packet give it back. -/
theorem packetOf_pktFlits {p : Packet}
    (hdest : p.dest < 2 ^ 14) (hsrc : p.src < 2 ^ 14) (hcls : p.cls < 4) (hop : p.op < 64) (hstatus : p.status < 16)
    (hpay : p.len = p.payload.length) (hlen : p.len < 1024) (hshare : p.share < 16) (hhops : p.hops < 256) (hrsv2 : p.rsv2 < 2 ^ 14)
    (hspace : p.space < 4) (hoffset : p.offset < 2 ^ 48) (htag : p.tag < 2 ^ 16) (hrsv7 : p.rsv7 < 2 ^ 30) :
    packetOf (pktFlits p).flatten = p := by
  obtain ⟨k, hk⟩ := payFlits_flatten (n := p.payload.length / 64 + 1) (bs := p.payload) (by omega)
  rw [pktFlits, List.flatten_cons, hk]
  refine packetOf_eq (fun i hi => leAt_words _ _ hi) ?_ hdest hsrc hcls hop hstatus hlen hshare hhops hrsv2 hspace hoffset htag hrsv7
  rw [hpay]
  exact slice_append_right _ (pktHeader_length p)

end Sys2Proof.Machine

/-! SUPPORT. The turns at an output of a router slice (R421). -/

namespace Sys2Proof.Machine

/-- How far a number stands behind the start, in cyclic order. -/
abbrev behind (start size x : Nat) : Nat := (x + size - start) % size

/-- The cyclic choice goes on from a number that leads so far. -/
theorem firstFrom_leads (start size b : Nat) (xs : List Nat) :
    ∃ x ∈ b :: xs, xs.foldl (fun b x => match b with
      | none => some x
      | some y => if behind start size x < behind start size y then some x else some y) (some b) = some x ∧
      ∀ y ∈ b :: xs, behind start size x ≤ behind start size y := by
  induction xs generalizing b with
  | nil => exact ⟨b, .head _, rfl, fun y hy => by rw [List.mem_singleton.mp hy]⟩
  | cons a xs ih =>
    rw [List.foldl_cons]
    dsimp only
    split
    next hlt =>
      obtain ⟨x, hx, hfold, hmin⟩ := ih a
      refine ⟨x, .tail _ hx, hfold, fun y hy => ?_⟩
      obtain rfl | hy := List.mem_cons.mp hy
      · exact (hmin a (.head _)).trans hlt.le
      · exact hmin y hy
    next hle =>
      obtain ⟨x, hx, hfold, hmin⟩ := ih b
      refine ⟨x, ?_, hfold, fun y hy => ?_⟩
      · obtain rfl | hx := List.mem_cons.mp hx
        · exact .head _
        · exact .tail _ (.tail _ hx)
      · obtain rfl | hy := List.mem_cons.mp hy
        · exact hmin y (.head _)
        · obtain rfl | hy := List.mem_cons.mp hy
          · exact (hmin b (.head _)).trans (Nat.le_of_not_lt hle)
          · exact hmin y (.tail _ hy)

/-- Of some numbers, firstFrom finds one that stands behind the start no further than any other. -/
theorem firstFrom_spec {start size : Nat} {xs : List Nat} (h : xs ≠ []) :
    ∃ x ∈ xs, firstFrom start size xs = some x ∧ ∀ y ∈ xs, behind start size x ≤ behind start size y := by
  obtain ⟨b, xs, rfl⟩ := List.exists_cons_of_ne_nil h
  exact firstFrom_leads start size b xs

theorem queueKind_cls {n : Nat} {k : QKind} (h : queueKind n = some k) : (k.rival n).cls < 4 := by
  unfold queueKind at h
  split at h
  next hn => cases h; exact hn
  next =>
    split at h
    next => cases h; exact Nat.mod_lt _ (by decide)
    next =>
      split at h
      next => cases h; exact Nat.mod_lt _ (by decide)
      next =>
        split at h
        next => cases h; exact Nat.mod_lt _ (by decide)
        next => cases h

theorem queueKind_lt {n : Nat} {k : QKind} (h : queueKind n = some k) : n < 4096 ∧ ∀ cls < 4, n ≠ qEject cls := by
  unfold queueKind at h
  unfold qEject
  split at h
  next hn => exact ⟨by omega, fun cls _ => by omega⟩
  next =>
    split at h
    next => exact ⟨by omega, fun cls _ => by omega⟩
    next =>
      split at h
      next => exact ⟨by omega, fun cls _ => by omega⟩
      next =>
        split at h
        next => exact ⟨by omega, fun cls _ => by omega⟩
        next => cases h

theorem rivals_cls {s : State} {i o : Nat} {x : Rival} (h : x ∈ s.rivals i o) : x.cls < 4 := by
  obtain ⟨e, -, he⟩ := List.mem_filterMap.mp h
  split at he
  · cases he
  · split at he
    next k p _ hk _ =>
      split at he
      next =>
        split at he
        · cases he
          exact queueKind_cls hk
        · cases he
      next => cases he
    next => cases he

/-- The class whose turn is first at an output. -/
def State.turnStart (s : State) (i o : Nat) : Nat :=
  let turn := Sparse.get (0, 0) s.rtr.turn (i * 128 + o)
  if turn.2 < s.clsWeight i turn.1 then turn.1 else (turn.1 + 1) % 4

/-- The winner is a rival of the class that comes first, and an escape queue where that class has one. -/
theorem winner_spec {s : State} {i o : Nat} (h : s.rivals i o ≠ []) :
    ∃ x ∈ s.rivals i o, s.winner i o = some x ∧
      (∀ y ∈ s.rivals i o, behind (s.turnStart i o) 4 x.cls ≤ behind (s.turnStart i o) 4 y.cls) ∧
      ((∃ y ∈ s.rivals i o, y.cls = x.cls ∧ y.esc = true) → x.esc = true) := by
  obtain ⟨cls, hcls, hfirst, hmin⟩ := firstFrom_spec (start := s.turnStart i o) (size := 4)
    (mt List.map_eq_nil_iff.mp h : (s.rivals i o).map (fun r => r.cls) ≠ [])
  obtain ⟨r, hr, rfl⟩ := List.mem_map.mp hcls
  let mine := (s.rivals i o).filter fun x => x.cls == r.cls
  let esc := mine.any fun x => x.esc
  let ins := mine.filter fun x => x.esc == esc
  have hmine {x : Rival} : x ∈ mine ↔ x ∈ s.rivals i o ∧ x.cls = r.cls := by
    rw [List.mem_filter, beq_iff_eq]
  have hins {x : Rival} : x ∈ ins ↔ x ∈ mine ∧ x.esc = esc := by rw [List.mem_filter, beq_iff_eq]
  have hsome : ins ≠ [] := by
    cases hesc : esc with
    | true =>
      obtain ⟨x, hx, hxe⟩ := List.any_eq_true.mp hesc
      exact List.ne_nil_of_mem (hins.mpr ⟨hx, hxe.trans hesc.symm⟩)
    | false =>
      have hr' : r ∈ mine := hmine.mpr ⟨hr, rfl⟩
      refine List.ne_nil_of_mem (hins.mpr ⟨hr', Eq.trans ?_ hesc.symm⟩)
      exact Bool.eq_false_iff.mpr fun he => Bool.false_ne_true (hesc.symm.trans (List.any_eq_true.mpr ⟨r, hr', he⟩))
  obtain ⟨q, hq, hfirst', -⟩ := firstFrom_spec
    (start := Sparse.get 0 s.rtr.input ((i * 128 + o) * 8 + r.cls * 2 + esc.toNat)) (size := 4096)
    (mt List.map_eq_nil_iff.mp hsome : ins.map (fun r => r.queue) ≠ [])
  obtain ⟨z, hz, hzq⟩ := List.mem_map.mp hq
  obtain ⟨x, hx⟩ : ∃ x, ins.find? (fun r => r.queue == q) = some x :=
    Option.isSome_iff_exists.mp (List.find?_isSome.mpr ⟨z, hz, beq_iff_eq.mpr hzq⟩)
  obtain ⟨hxm, hxe⟩ := hins.mp (List.mem_of_find?_eq_some hx)
  obtain ⟨hxr, hxc⟩ := hmine.mp hxm
  refine ⟨x, hxr, ?_, fun y hy => hxc ▸ hmin y.cls (List.mem_map_of_mem hy), fun ⟨y, hy, hyc, hye⟩ => ?_⟩
  · have hturn : s.winner i o = match firstFrom (s.turnStart i o) 4 ((s.rivals i o).map fun r => r.cls) with
        | none => none
        | some cls => match firstFrom (Sparse.get 0 s.rtr.input ((i * 128 + o) * 8 + cls * 2 +
              ((((s.rivals i o).filter fun x => x.cls == cls).any fun x => x.esc)).toNat)) 4096
            ((((s.rivals i o).filter fun x => x.cls == cls).filter fun x =>
              x.esc == ((s.rivals i o).filter fun x => x.cls == cls).any fun x => x.esc).map fun r => r.queue) with
          | none => none
          | some q => (((s.rivals i o).filter fun x => x.cls == cls).filter fun x =>
              x.esc == ((s.rivals i o).filter fun x => x.cls == cls).any fun x => x.esc).find? fun r => r.queue == q := rfl
    rw [hturn, hfirst]
    dsimp only
    rw [hfirst']
    exact hx
  · exact hxe.trans (List.any_eq_true.mpr ⟨y, hmine.mpr ⟨hy, hyc.trans hxc⟩, hye⟩)

end Sys2Proof.Machine

/-! SUPPORT. Packets enter, move on and leave the router slices (O44: R411, R413 to R415, R419 to R421, R424). -/

namespace Sys2Proof.Machine

variable {s t u : State} {i n q : Nat} {p : Packet} {k : QKind}

/-! ### The queues -/

/-- The two states differ in the router alone. -/
abbrev RtrOnly (s t : State) : Prop := t = { s with rtr := t.rtr }

theorem RtrOnly.trans (h : RtrOnly s t) (h' : RtrOnly t u) : RtrOnly s u := by rw [RtrOnly, h', h]

theorem queue_congr (h : t.rtr.queues = s.rtr.queues) (i n : Nat) : t.queue i n = s.queue i n := by rw [State.queue, h, State.queue]

theorem queue_setQueue_same (s : State) (i n : Nat) (ps : List Packet) : (s.setQueue i n ps).queue i n = ps := Sparse.get_set_same

theorem queue_setQueue_ne (s : State) {i n i' n' : Nat} (ps : List Packet) (h : i' * 4096 + n' ≠ i * 4096 + n) :
    (s.setQueue i n ps).queue i' n' = s.queue i' n' := Sparse.get_set_ne h

theorem queue_pushQueue_same (s : State) (i n : Nat) (p : Packet) : (s.pushQueue i n p).queue i n = s.queue i n ++ [p] :=
  queue_setQueue_same ..

theorem queue_pushQueue_ne (s : State) {i n i' n' : Nat} (p : Packet) (h : i' * 4096 + n' ≠ i * 4096 + n) :
    (s.pushQueue i n p).queue i' n' = s.queue i' n' := queue_setQueue_ne s _ h

/-- What leaving a queue does: its head goes, and the buffer of a port's input frees. -/
structure Popped (i n : Nat) (s t : State) : Prop where
  only  : RtrOnly s t
  same  : t.queue i n = (s.queue i n).drop 1
  other : ∀ i' n', i' * 4096 + n' ≠ i * 4096 + n → t.queue i' n' = s.queue i' n'
  seen  : t.rtr.seen = s.rtr.seen
  spent : t.rtr.spent = s.rtr.spent

theorem setQueue_popped (s : State) (i n : Nat) : Popped i n s (s.setQueue i n ((s.queue i n).drop 1)) :=
  ⟨rfl, queue_setQueue_same .., fun _ _ h => queue_setQueue_ne s _ h, rfl, rfl⟩

theorem Popped.freed (h : Popped i n s t) (q : Nat) (esc : Bool) (cls : Nat) : Popped i n s (t.freed q esc cls) :=
  ⟨h.only.trans rfl, h.same, h.other, h.seen, h.spent⟩

theorem popQueue_popped (s : State) (i n : Nat) (k : QKind) : Popped i n s (s.popQueue i n k) := by
  cases k with
  | inject cls => exact setQueue_popped s i n
  | mesh dir cls ring => exact setQueue_popped s i n
  | port q cls esc => exact (setQueue_popped s i n).freed q esc cls

theorem turned_only (s : State) (i o : Nat) (r : Rival) : RtrOnly s (s.turned i o r) := rfl

theorem queue_turned (s : State) (i o : Nat) (r : Rival) (i' n' : Nat) : (s.turned i o r).queue i' n' = s.queue i' n' := rfl

/-! ### Credits -/

theorem portUp_congr (h : t.regs = s.regs) (q : Nat) : t.portUp q = s.portUp q := by
  rw [State.portUp, State.fld, reg_congr h, ← State.fld, State.portUp]

theorem credits_congr (hregs : t.regs = s.regs) (hseen : t.rtr.seen = s.rtr.seen) (hspent : t.rtr.spent = s.rtr.spent) (q : Nat) (esc : Bool)
    (cls : Nat) : t.credits q esc cls = s.credits q esc cls := by
  rw [State.credits, portUp_congr hregs, hseen, hspent, State.credits]

/-- A credit that is spent is one less. -/
theorem credits_spend (s : State) (q : Nat) (esc : Bool) (cls : Nat) (h : 0 < s.credits q esc cls) :
    (s.spend q esc cls).credits q esc cls + 1 = s.credits q esc cls := by
  unfold State.credits at h ⊢
  have hup : (s.spend q esc cls).portUp q = s.portUp q := portUp_congr rfl q
  have hspent : Sparse.get 0 (s.spend q esc cls).rtr.spent (creditKey q esc cls) = Sparse.get 0 s.rtr.spent (creditKey q esc cls) + 1 := by
    show Sparse.get 0 (Sparse.upd 0 s.rtr.spent (creditKey q esc cls) (· + 1)) (creditKey q esc cls) = _
    rw [Sparse.upd, Sparse.get_set_same]
  have hseen : (s.spend q esc cls).rtr.seen = s.rtr.seen := rfl
  rw [hup, hspent, hseen]
  split at h
  next hq =>
    rw [if_pos hq, if_pos hq]
    omega
  next => exact absurd h (Nat.lt_irrefl 0)

/-- The port of R415 has a credit. -/
theorem adaptivePort_credits {cls : Nat} {r : Route} (h : s.adaptivePort i cls r = some q) : 0 < s.credits q false cls := by
  unfold State.adaptivePort at h
  dsimp only at h
  generalize hl : (List.range 64).filter (fun q => bit r.minPorts q && decide (0 < s.credits q false cls)) = l at h
  have hall : ∀ x ∈ l, 0 < s.credits x false cls := by
    intro x hx
    rw [← hl] at hx
    exact of_decide_eq_true (Bool.and_eq_true_iff.mp (List.mem_filter.mp hx).2).2
  refine List.foldlRecOn (motive := fun best => ∀ x, best = some x → 0 < s.credits x false cls) l _ (fun _ hx => by cases hx)
    (fun best hbest a ha x hx => ?_) q h
  split at hx
  · cases hx
    exact hall _ ha
  · split at hx
    · cases hx
      exact hall _ ha
    · exact hbest _ hx

/-! ### Arrival -/

theorem discard_rtr (s : State) (i cause port : Nat) (mesh inject : Bool) (p : Packet) : (s.discard i cause port mesh inject p).rtr = s.rtr := by
  unfold State.discard
  split <;> exact (log_logOnly ..).rtr.trans (State.incFld_rtr ..)

/-- The input queue that a packet takes at a port. -/
def portQueue (p : Packet) (q : Nat) : Nat := if p.esc then qPortEsc q p.cls else qPort q p.cls

theorem portArrival_poisoned (hi : s.sliceUp (portSlice q) = true) (hq : s.portUp q = true) (hll : p.ll = false) :
    s.portArrival q p true = (s.discard (portSlice q) 1 q false false p).freed q p.esc p.cls := by
  have hsame : (s.discard (portSlice q) 1 q false false p).queue (portSlice q) (portQueue p q) = s.queue (portSlice q) (portQueue p q) :=
    queue_congr (by rw [discard_rtr]) ..
  unfold State.portArrival State.enterSlice
  rw [← portQueue]
  simp only [hi, hq, hll, Bool.not_true, Bool.and_false, Bool.or_false, Bool.false_eq_true, if_true, if_false, Bool.true_and]
  rw [if_pos (beq_iff_eq.mpr (congrArg List.length hsame))]

theorem portArrival_enters (hi : s.sliceUp (portSlice q) = true) (hq : s.portUp q = true) (hll : p.ll = false) (hfold : s.fold.isSome = true)
    (hdest : p.dest = s.device ∨ (s.route p.dest).isSome = true ∧ p.hops + 1 < s.hopLimit (portSlice q))
    (hroom : (s.queue (portSlice q) (portQueue p q)).length < if p.esc then 4 else 6) :
    s.portArrival q p false = s.pushQueue (portSlice q) (portQueue p q) { p with hops := (p.hops + 1) % 256 } := by
  have henter : s.enterSlice (portSlice q) q false (portQueue p q) (if p.esc then 4 else 6) p false =
      (s.pushQueue (portSlice q) (portQueue p q) { p with hops := (p.hops + 1) % 256 }, true) := by
    unfold State.enterSlice
    dsimp only
    rw [if_neg Bool.false_ne_true, if_neg, if_neg, if_pos hroom]
    · rintro ⟨hne, hle⟩
      obtain heq | ⟨-, hlt⟩ := hdest
      · exact hne heq
      · exact Nat.not_lt.mpr hle hlt
    · rintro (hnone | ⟨hne, hnone⟩)
      · rw [Option.isSome_iff_ne_none] at hfold
        exact hfold (Option.isNone_iff_eq_none.mp hnone)
      · obtain heq | ⟨hsome, -⟩ := hdest
        · exact hne heq
        · rw [Option.isNone_iff_eq_none.mp hnone] at hsome
          cases hsome
  have hlen : ((s.pushQueue (portSlice q) (portQueue p q) { p with hops := (p.hops + 1) % 256 }).queue (portSlice q) (portQueue p q)).length ≠
      (s.queue (portSlice q) (portQueue p q)).length := by
    rw [queue_pushQueue_same, List.length_append]
    exact (Nat.lt_succ_self _).ne'
  unfold State.portArrival
  rw [← portQueue]
  dsimp only
  rw [henter, if_neg (by rw [hi, hq, hll]; decide), if_neg (by rw [hll]; decide)]
  dsimp only
  rw [Bool.true_and, if_neg (mt beq_iff_eq.mp hlen)]

theorem exec_routerPacketArrival (hi : i < 12) (hcls : p.cls < 4) (hlen : p.len = p.payload.length) (hq : q < 64) (hslice : portSlice q = i)
    (bad : Bool) : exec (.routerPacketArrival i q false p bad) s = .next (s.portArrival q p bad) := by
  show execRouterPacketArrival i q false p bad s = _
  rw [execRouterPacketArrival, if_neg (by omega), if_neg Bool.false_ne_true, if_neg (by omega)]

/-! ### Forwarding -/

section
variable (hk : queueKind n = some k) (hi : i < 12) (hup : s.sliceUp i = true) {rest : List Packet} (hqueue : s.queue i n = p :: rest)
include hk hi hup hqueue

theorem exec_packetForward_leaves {o : Nat} (hon : s.onward i n k p = .leaves o t) :
    exec (.packetForward i n) s = .next (if s.winner i o = some (k.rival n) then t.turned i o (k.rival n) else s) := by
  show execPacketForward i n s = _
  rw [execPacketForward, hk]
  dsimp only
  rw [inRange_next hi, hup, hqueue, Bool.not_true, if_neg Bool.false_ne_true]
  dsimp only
  rw [hon]

theorem exec_packetForward_drops (hon : s.onward i n k p = .drops t) : exec (.packetForward i n) s = .next t := by
  show execPacketForward i n s = _
  rw [execPacketForward, hk]
  dsimp only
  rw [inRange_next hi, hup, hqueue, Bool.not_true, if_neg Bool.false_ne_true]
  dsimp only
  rw [hon]

end

theorem not_isNone {α : Type} {o : Option α} (h : o.isSome = true) : ¬o.isNone = true := by
  rw [Option.isNone_iff_eq_none]
  exact Option.isSome_iff_ne_none.mp h

theorem onward_ejects (hfold : s.fold.isSome = true) (hdest : p.dest = s.device)
    (hroom : (s.queue (s.ejectShare p) (qEject p.cls)).length < 8) :
    s.onward i n k p = .leaves (outEject (s.ejectShare p)) ((s.popQueue i n k).pushQueue (s.ejectShare p) (qEject p.cls) p) := by
  unfold State.onward
  dsimp only
  rw [if_neg (not_isNone hfold), if_pos hdest, if_pos hroom]

theorem onward_noRoute (hfold : s.fold.isSome = true) (hdest : p.dest ≠ s.device) (hroute : s.route p.dest = none) :
    s.onward i n k p = .drops ((s.popQueue i n k).discard i 2 0 false true p) := by
  unfold State.onward
  dsimp only
  rw [if_neg (not_isNone hfold), if_neg hdest, hroute]

/-- A packet of the NI itself. -/
def QKind.own : QKind → Bool
  | .inject _ => true
  | _ => false

/-- A packet as it leaves its queue: HOPS rises as the NI's own leaves its slice. -/
def hopped (p : Packet) (own : Bool) : Packet := if own then { p with hops := (p.hops + 1) % 256 } else p

theorem hopped_cls (p : Packet) (own : Bool) : (hopped p own).cls = p.cls := by cases own <;> rfl
theorem hopped_esc (p : Packet) (own : Bool) : (hopped p own).esc = p.esc := by cases own <;> rfl

/-- A packet on the adaptive channel leaves by a port of its own slice that has a credit. -/
theorem moveTo_port (hslice : portSlice q = i) (hesc : p.esc = false) (hcredit : 0 < s.credits q false p.cls) :
    s.moveTo i q p none false = some ((s.spend q false p.cls).sendPacket q p) := by
  have hp : { p with esc := false } = p := by rw [← hesc]
  unfold State.moveTo
  dsimp only [Option.isSome_none]
  rw [if_pos hslice, if_pos (show (if (false && false) = true then 2 else 1) ≤ s.credits q false p.cls from hcredit), hp, State.sendPort, hesc]

theorem onward_adaptive {r : Route} (hfold : s.fold.isSome = true) (hdest : p.dest ≠ s.device) (hroute : s.route p.dest = some r)
    (hesc : p.esc = false) (hport : s.adaptivePort i p.cls r = some q) (hslice : portSlice q = i)
    (hhops : k.own = true → (hopped p k.own).hops < s.hopLimit i) :
    s.onward i n k p = .leaves q (((s.popQueue i n k).spend q false p.cls).sendPacket q (hopped p k.own)) := by
  have hpop := popQueue_popped s i n k
  have hregs : (s.popQueue i n k).regs = s.regs := by rw [hpop.only]
  have hcls := hopped_cls p k.own
  have hmove : (s.popQueue i n k).moveTo i q (hopped p k.own) none false =
      some (((s.popQueue i n k).spend q false p.cls).sendPacket q (hopped p k.own)) := by
    rw [moveTo_port hslice ((hopped_esc p _).trans hesc), hcls]
    rw [hcls, credits_congr hregs hpop.seen hpop.spent]
    exact adaptivePort_credits hport
  have hlimit : (k.own && decide (s.hopLimit i ≤ (hopped p k.own).hops)) = false := by
    cases hown : k.own with
    | false => rfl
    | true => rw [Bool.true_and, decide_eq_false_iff_not, Nat.not_le, ← hown]; exact hhops hown
  have hout : outLink i q = q := by rw [outLink, if_pos hslice]
  have hesc' := (hopped_esc p k.own).trans hesc
  unfold State.onward
  dsimp only
  rw [if_neg (not_isNone hfold), if_neg hdest, hroute]
  change (if (k.own && decide (s.hopLimit i ≤ (hopped p k.own).hops)) = true then _ else if (hopped p k.own).esc = true then _ else
    match s.adaptivePort i (hopped p k.own).cls r with
    | some q => _
    | none => _) = _
  rw [hlimit, if_neg Bool.false_ne_true, hesc', if_neg Bool.false_ne_true, hcls, hport]
  change (match (s.popQueue i n k).moveTo i q (hopped p k.own) none false with
    | some s => Onward.leaves (outLink i q) s
    | none => .stays) = _
  rw [hmove, hout]

/-- What a packet that leaves by a port changes. -/
theorem adaptive_leaves (s : State) (i n q : Nat) (k : QKind) (p' : Packet) {cls : Nat} (hcredit : 0 < s.credits q false cls) (x : Rival) :
    let t := (((s.popQueue i n k).spend q false cls).sendPacket q p').turned i q x
    t = { s with rtr := t.rtr, ports := t.ports, out := t.out } ∧ t.queue i n = (s.queue i n).drop 1 ∧
      t.credits q false cls + 1 = s.credits q false cls := by
  have hpop := popQueue_popped s i n k
  have hsent := sendPacket_transmits ((s.popQueue i n k).spend q false cls) q p'
  have hrtr : (((s.popQueue i n k).spend q false cls).sendPacket q p').rtr = ((s.popQueue i n k).spend q false cls).rtr := by
    rw [hsent.frame]
  have hregs : (s.popQueue i n k).regs = s.regs := by rw [hpop.only]
  have hregs' : (((s.popQueue i n k).spend q false cls).sendPacket q p').regs = ((s.popQueue i n k).spend q false cls).regs := by
    rw [hsent.frame]
  have hsame := credits_congr hregs hpop.seen hpop.spent q false cls
  generalize (((s.popQueue i n k).spend q false cls).sendPacket q p') = u at hsent hrtr hregs'
  refine ⟨?_, ?_, ?_⟩
  · rw [turned_only, hsent.frame]
    show ({ (s.popQueue i n k) with rtr := _, ports := _, out := _ } : State) = _
    rw [hpop.only]
  · rw [queue_turned, queue_congr (congrArg Rtr.queues hrtr)]
    exact hpop.same
  · rw [← hsame] at hcredit ⊢
    rw [← credits_spend _ q false cls hcredit]
    exact congrArg (· + 1) (credits_congr hregs' (congrArg Rtr.seen hrtr) (congrArg Rtr.spent hrtr) q false cls)

/-- What a packet that is ejected changes. -/
theorem eject_leaves (s : State) (i n : Nat) (k : QKind) (p : Packet) (hn : n < 4096) (hcls : p.cls < 4) (hne : n ≠ qEject p.cls)
    (share o : Nat) (x : Rival) :
    let t := ((s.popQueue i n k).pushQueue share (qEject p.cls) p).turned i o x
    RtrOnly s t ∧ t.queue i n = (s.queue i n).drop 1 ∧ t.queue share (qEject p.cls) = s.queue share (qEject p.cls) ++ [p] := by
  have hpop := popQueue_popped s i n k
  have hkey : i * 4096 + n ≠ share * 4096 + qEject p.cls := by
    have : qEject p.cls < 4096 := by unfold qEject; omega
    omega
  refine ⟨(hpop.only.trans rfl).trans (turned_only ..), ?_, ?_⟩
  · rw [queue_turned, queue_pushQueue_ne _ _ hkey]
    exact hpop.same
  · rw [queue_turned, queue_pushQueue_same, hpop.other _ _ hkey.symm]

/-- Settles O44, by what each way onward leaves, the turns at an output, and the header words of a packet. -/
theorem routerMovesPackets : Obligations.RouterMovesPackets := by
  unfold Obligations.RouterMovesPackets
  refine ⟨fun s i p hi hup hcls => ⟨?_, ?_⟩, ?_, ?_⟩
  · intro q hslice hq hport hll hlen
    subst hslice
    refine ⟨fun hfold hdest hroom => ⟨_, exec_routerPacketArrival hi hcls hlen hq rfl false, ?_⟩, ?_⟩
    · rw [portArrival_enters hup hport hll hfold hdest hroom]
      exact ⟨rfl, queue_pushQueue_same .., fun _ _ h => queue_pushQueue_ne _ _ h⟩
    · rw [exec_routerPacketArrival hi hcls hlen hq rfl true, portArrival_poisoned hup hport hll]
  · intro n k rest hk hqueue hfold
    have hrest : (s.queue i n).drop 1 = rest := by rw [hqueue]; rfl
    obtain ⟨hn, hne⟩ := queueKind_lt hk
    refine ⟨fun hdest hroom => ?_, ?_, fun hdest hroute => ?_⟩
    · have hexec := exec_packetForward_leaves hk hi hup hqueue (onward_ejects hfold hdest hroom)
      refine ⟨fun hwin => ?_, fun hlose => by rw [hexec, if_neg hlose]⟩
      rw [if_pos hwin] at hexec
      obtain ⟨honly, hpop, hpush⟩ := eject_leaves s i n k p hn hcls (hne _ hcls) (s.ejectShare p) (outEject (s.ejectShare p)) (k.rival n)
      exact ⟨_, hexec, honly, hpop.trans hrest, hpush⟩
    · intro r q hdest hroute hesc hport hslice own p' hhops hwin
      have hexec := exec_packetForward_leaves hk hi hup hqueue (onward_adaptive hfold hdest hroute hesc hport hslice hhops)
      rw [if_pos hwin] at hexec
      obtain ⟨hframe, hpop, hcredit⟩ := adaptive_leaves s i n q k p' (adaptivePort_credits hport) (k.rival n)
      exact ⟨_, hexec, rfl, hpop.trans hrest, hcredit, hframe⟩
    · rw [exec_packetForward_drops hk hi hup hqueue (onward_noRoute hfold hdest hroute)]
  · intro s i o hsome turn
    obtain ⟨x, hx, hwin, hmin, hesc⟩ := winner_spec hsome
    have hx4 := rivals_cls hx
    refine ⟨x, hx, hwin, ?_, ?_, hesc⟩
    · rintro hweight ⟨y, hy, hyc⟩
      have hstart : s.turnStart i o = turn.1 := if_pos hweight
      have hle := hmin y hy
      have hy4 := rivals_cls hy
      rw [hstart, ← hyc] at hle
      unfold behind at hle
      omega
    · rintro hweight hturn ⟨y, hy, hyc⟩ hxc
      have hstart : s.turnStart i o = (turn.1 + 1) % 4 := if_neg (Nat.not_lt.mpr hweight)
      have hle := hmin y hy
      have hy4 := rivals_cls hy
      rw [hstart, hxc] at hle
      unfold behind at hle
      omega
  · intro p hdest hsrc hcls hop hstatus hpay hlen hshare hhops hrsv2 hspace hoffset htag hrsv7
    exact ⟨fun f => pktFlits_length_eq, by rw [pktFlits_length, hpay],
      packetOf_pktFlits hdest hsrc hcls hop hstatus hpay hlen hshare hhops hrsv2 hspace hoffset htag hrsv7⟩

end Sys2Proof.Machine

/-! SUPPORT. Codewords keep their bytes: the code without errors, the slots, and the control codeword (R597, R598, R603, Table 15.3). -/

namespace Sys2Proof.Machine

/-! ### Bytes of a list -/

theorem leBytes_ofLE (bs : List Byte) : leBytes bs.length (ofLE bs) = bs := by
  induction bs with
  | nil => rfl
  | cons b bs ih =>
    have hb : b.toNat < 256 := b.isLt
    rw [List.length_cons, ofLE, leBytes, show (b.toNat + 256 * ofLE bs) / 256 = ofLE bs by omega, ih]
    refine congrArg (· :: bs) (BitVec.eq_of_toNat_eq ?_)
    rw [BitVec.toNat_ofNat]
    omega

theorem slice_all {bs : List Byte} {n : Nat} (h : bs.length = n) : slice bs 0 n = bs := by
  rw [slice, List.drop_zero, List.take_of_length_le h.le, h, Nat.sub_self, List.replicate_zero, List.append_nil]

/-- The part of a list between two others. -/
theorem slice_between {a b c : List Byte} {n m : Nat} (ha : a.length = n) (hb : b.length = m) : slice (a ++ b ++ c) n m = b := by
  rw [List.append_assoc, ← hb]
  exact slice_append_right c ha

theorem leAt_between {a c : List Byte} {n m v : Nat} (ha : a.length = n) : leAt (a ++ leBytes m v ++ c) n m = v % 256 ^ m := by
  rw [leAt, slice_between ha (leBytes_length ..), ofLE_leBytes]

theorem leAt_one (bs : List Byte) (i : Nat) : leAt bs i 1 = (bs.getD i 0).toNat := by
  unfold leAt slice
  by_cases h : i < bs.length
  · rw [List.drop_eq_getElem_cons h, List.getD_eq_getElem?_getD, List.getElem?_eq_getElem h]
    exact Nat.add_zero _
  · rw [List.drop_eq_nil_of_le (Nat.le_of_not_lt h), List.getD_eq_getElem?_getD, List.getElem?_eq_none (Nat.le_of_not_lt h)]
    rfl

/-! ### RS(136,128) without errors (R597) -/

theorem rsSymbols_length (bs : List Byte) : (rsSymbols bs).length = 128 := by
  rw [rsSymbols, List.length_map, List.length_range]

/-- Ten bits at a time, `n` symbols hold the low 10 n bits. -/
theorem symbols_foldl (v n : Nat) : (((List.range n).map fun i => v / 2 ^ (10 * i) % 2 ^ 10).zipIdx).foldl
    (fun v x => v + x.1 % 2 ^ 10 * 2 ^ (10 * x.2)) 0 = v % 2 ^ (10 * n) := by
  induction n with
  | zero => rw [Nat.mul_zero, Nat.pow_zero, Nat.mod_one]; rfl
  | succ n ih =>
    rw [List.range_succ, List.map_append, List.zipIdx_append, List.foldl_append, ih, List.length_map, List.length_range]
    show v % 2 ^ (10 * n) + v / 2 ^ (10 * n) % 2 ^ 10 % 2 ^ 10 * 2 ^ (10 * (0 + n)) = v % 2 ^ (10 * (n + 1))
    rw [Nat.zero_add, Nat.mod_mod, Nat.mul_succ, Nat.pow_add, Nat.mod_mul, Nat.mul_comm (2 ^ (10 * n))]

theorem rsBytes_rsEncode {bs : List Byte} (h : bs.length = 160) : rsBytes (rsEncode bs) = bs := by
  have hdata : (rsEncode bs).take 128 = rsSymbols bs := by
    rw [rsEncode]
    exact List.take_left' (rsSymbols_length bs)
  have hlt : ofLE bs < 2 ^ (10 * 128) := by
    have hbound := ofLE_lt bs
    rw [h, show (256 : Nat) = 2 ^ 8 from rfl, ← Nat.pow_mul] at hbound
    exact hbound.trans_eq (congrArg (2 ^ ·) (by decide : 8 * 160 = 10 * 128))
  rw [rsBytes, hdata, rsSymbols, symbols_foldl, leAt, slice_all h, Nat.mod_eq_of_lt hlt, ← h]
  exact leBytes_ofLE bs

/-! ### The lane slots (R598) -/

section
variable (n : Nat) (c : List Nat)

theorem onSlots_length : (onSlots n c).length = n := by rw [onSlots, List.length_map, List.length_range]

theorem onSlots_slot_length {l : List Nat} (h : l ∈ onSlots n c) : l.length = (136 + n - 1) / n := by
  obtain ⟨i, -, rfl⟩ := List.mem_map.mp h
  rw [List.length_map, List.length_range, slotTimes]

/-- The symbol on a slot at a time. -/
theorem onSlots_getD {i t : Nat} (hi : i < n) (ht : t < slotTimes n) : ((onSlots n c).getD i []).getD t 0 = c.getD (t * n + i) 0 := by
  have hslot : (onSlots n c).getD i [] = (List.range (slotTimes n)).map fun t => c.getD (t * n + i) 0 := by
    rw [onSlots, List.getD_eq_getElem?_getD, List.getElem?_map, List.getElem?_range hi]
    rfl
  rw [hslot, List.getD_eq_getElem?_getD, List.getElem?_map, List.getElem?_range ht]
  rfl

theorem offSlots_onSlots (hn : 0 < n) (h : c.length = 136) : offSlots (onSlots n c) = c := by
  unfold offSlots
  rw [onSlots_length]
  refine List.ext_getElem (by rw [List.length_map, List.length_range, h]) fun j hj hj' => ?_
  have h136 : j < 136 := h ▸ hj'
  have htime : j / n < slotTimes n := by
    rw [slotTimes, Nat.div_lt_iff_lt_mul hn, show 136 + n - 1 = 135 + n by omega, Nat.add_div_right _ hn, Nat.succ_mul]
    have := Nat.lt_div_mul_add (a := 135) hn
    omega
  rw [List.getElem_map, List.getElem_range, onSlots_getD n c (Nat.mod_lt _ hn) htime, Nat.mul_comm, Nat.div_add_mod]
  rw [List.getD_eq_getElem?_getD, List.getElem?_eq_getElem hj']
  rfl

end

/-! ### The control codeword (R603, Table 15.3) -/

/-- A lane message whose fields fit. -/
def LaneFits (m : LaneMsg) : Prop := m = .none ∨ m = .retrain ∨ (∃ wl, wl < 256 ∧ m = .laserOut wl) ∨
  ∃ rx slot wl b, slot < 256 ∧ wl < 256 ∧ b < 2 ^ 16 ∧ (m = .swapReq rx slot wl b ∨ m = .swapAck rx slot wl b)

/-- The bytes of a swap message after its code, up to the end of the sixteen. -/
theorem swapBytes_read (code : Byte) (rx : Bool) {slot wl b : Nat} (hslot : slot < 256) (hwl : wl < 256) (hb : b < 2 ^ 16) :
    let bs := slice ([code, BitVec.ofNat 8 rx.toNat, BitVec.ofNat 8 slot, BitVec.ofNat 8 wl] ++ leBytes 2 b) 0 16
    leAt bs 0 1 = code.toNat ∧ (leAt bs 1 1 == 1) = rx ∧ leAt bs 2 1 = slot ∧ leAt bs 3 1 = wl ∧ leAt bs 4 2 = b := by
  have hbytes : slice ([code, BitVec.ofNat 8 rx.toNat, BitVec.ofNat 8 slot, BitVec.ofNat 8 wl] ++ leBytes 2 b) 0 16 =
      [code, BitVec.ofNat 8 rx.toNat, BitVec.ofNat 8 slot, BitVec.ofNat 8 wl] ++ leBytes 2 b ++ List.replicate 10 0 := rfl
  have hbyte {v : Nat} (h : v < 256) : (BitVec.ofNat 8 v).toNat = v := by rw [BitVec.toNat_ofNat]; exact Nat.mod_eq_of_lt h
  simp only [hbytes]
  refine ⟨leAt_one .., ?_, (leAt_one ..).trans (hbyte hslot), (leAt_one ..).trans (hbyte hwl), (leAt_between rfl).trans (Nat.mod_eq_of_lt hb)⟩
  rw [leAt_one]
  cases rx <;> rfl

theorem laneOf_laneBytes {m : LaneMsg} (h : LaneFits m) : laneOf (laneBytes m) = m := by
  obtain rfl | rfl | ⟨wl, hwl, rfl⟩ | ⟨rx, slot, wl, b, hslot, hwl, hb, rfl | rfl⟩ := h
  · rfl
  · rfl
  · have hbyte : leAt (laneBytes (.laserOut wl)) 1 1 = wl := by
      rw [leAt_one]
      exact (BitVec.toNat_ofNat ..).trans (Nat.mod_eq_of_lt hwl)
    have hcode : leAt (laneBytes (.laserOut wl)) 0 1 = 3 := leAt_one ..
    unfold laneOf
    rw [hcode, hbyte]
    rfl
  · obtain ⟨hcode, hrx, hs, hw, hbound⟩ := swapBytes_read 1 rx hslot hwl hb
    rw [laneOf, laneBytes, hcode]
    show LaneMsg.swapReq _ _ _ _ = _
    rw [hrx, hs, hw, hbound]
  · obtain ⟨hcode, hrx, hs, hw, hbound⟩ := swapBytes_read 2 rx hslot hwl hb
    rw [laneOf, laneBytes, hcode]
    show LaneMsg.swapAck _ _ _ _ = _
    rw [hrx, hs, hw, hbound]

theorem laneBytes_length (m : LaneMsg) : (laneBytes m).length = 16 := slice_length ..

/-- The eight credit bytes of a control codeword. -/
def creditBytes (w : ControlWord) : List Byte := w.credits.map fun n => BitVec.ofNat 8 (n % 16)

section
variable {w : ControlWord} (hcredits : w.credits.length = 8) (hmuster : w.muster = none)

include hcredits in
theorem creditBytes_length : (creditBytes w).length = 8 := by rw [creditBytes, List.length_map, hcredits]

include hmuster in
/-- The parts of a control codeword without a muster frame. -/
theorem controlBody_eq : controlBody w = creditBytes w ++ leBytes 2 w.cseq ++ laneBytes w.lane ++ leBytes 2 0 ++ List.replicate 64 0 ++
    leBytes 2 (w.selfDevice % 2 ^ 14) ++ leBytes 1 (w.selfPort % 64) ++ List.replicate 61 0 := by
  rw [controlBody, hmuster, creditBytes]

include hcredits hmuster

theorem controlBody_length : (controlBody w).length = 156 := by
  rw [controlBody_eq hmuster]
  simp only [List.length_append, creditBytes_length hcredits, leBytes_length, laneBytes_length, List.length_replicate]

theorem controlBytes_length : (controlBytes w).length = 160 := by
  rw [controlBytes, List.length_append, controlBody_length hcredits hmuster, leBytes_length]

theorem controlOk_signed : controlOk (controlBytes (ctlSigned w)) = true := by
  have hbody : (controlBody (ctlSigned w)) = controlBody w := rfl
  have hlen := controlBody_length hcredits hmuster
  have hcrc : leAt (controlBytes (ctlSigned w)) 156 4 = crc32c (controlBody w) := by
    have hsigned : (BitVec.ofNat 32 (crc32c (controlBody w))).toNat = crc32c (controlBody w) := by
      rw [BitVec.toNat_ofNat, Nat.mod_eq_of_lt (crc32c_lt _)]
    rw [controlBytes, hbody, ← List.append_nil (controlBody w ++ _), leAt_between hlen]
    show (BitVec.ofNat 32 (crc32c (controlBody w))).toNat % 256 ^ 4 = _
    rw [hsigned]
    exact Nat.mod_eq_of_lt (crc32c_lt _)
  have hfront : slice (controlBytes (ctlSigned w)) 0 156 = controlBody w := by
    rw [controlBytes, hbody]
    exact slice_between (a := []) rfl hlen
  rw [controlOk, hcrc, hfront, beq_self_eq_true]

/-- The parts of a control codeword, one by one. -/
theorem controlBytes_parts :
    leAt (controlBytes w) 8 2 = w.cseq % 2 ^ 16 ∧ slice (controlBytes w) 10 16 = laneBytes w.lane ∧
      slice (controlBytes w) 28 64 = List.replicate 64 0 ∧ leAt (controlBytes w) 92 2 = w.selfDevice % 2 ^ 14 ∧
      leAt (controlBytes w) 94 1 = w.selfPort % 64 ∧ leAt (controlBytes w) 156 4 = w.crc.toNat := by
  have hc := creditBytes_length hcredits
  have hlane := laneBytes_length w.lane
  have hcrc : w.crc.toNat % 256 ^ 4 = w.crc.toNat := Nat.mod_eq_of_lt w.crc.isLt
  have hdev : w.selfDevice % 2 ^ 14 % 256 ^ 2 = w.selfDevice % 2 ^ 14 := by omega
  have hport : w.selfPort % 64 % 256 ^ 1 = w.selfPort % 64 := by omega
  have hlen := controlBody_length hcredits hmuster
  have hwhole : leAt (controlBytes w) 156 4 = w.crc.toNat := by
    rw [controlBytes, ← List.append_nil (controlBody w ++ _), leAt_between hlen, hcrc]
  rw [controlBytes, controlBody_eq hmuster] at *
  refine ⟨?_, ?_, ?_, ?_, ?_, hwhole⟩
  · simp only [List.append_assoc]
    rw [← List.append_assoc]
    exact leAt_between hc
  · simp only [List.append_assoc]
    rw [← List.append_assoc, ← List.append_assoc]
    exact slice_between (by rw [List.length_append, hc, leBytes_length]) hlane
  · rw [show ∀ a b c d e f g h i : List Byte, a ++ b ++ c ++ d ++ e ++ f ++ g ++ h ++ i = (a ++ b ++ c ++ d) ++ e ++ (f ++ g ++ h ++ i) by
      simp only [List.append_assoc, implies_true]]
    exact slice_between (by simp only [List.length_append, hc, leBytes_length, hlane]) (List.length_replicate ..)
  · rw [show ∀ a b c d e f g h i : List Byte, a ++ b ++ c ++ d ++ e ++ f ++ g ++ h ++ i = (a ++ b ++ c ++ d ++ e) ++ f ++ (g ++ h ++ i) by
      simp only [List.append_assoc, implies_true]]
    rw [leAt_between (by simp only [List.length_append, hc, leBytes_length, hlane, List.length_replicate]), hdev]
  · rw [show ∀ a b c d e f g h i : List Byte, a ++ b ++ c ++ d ++ e ++ f ++ g ++ h ++ i = (a ++ b ++ c ++ d ++ e ++ f) ++ g ++ (h ++ i) by
      simp only [List.append_assoc, implies_true]]
    rw [leAt_between (by simp only [List.length_append, hc, leBytes_length, hlane, List.length_replicate]), hport]

theorem controlBytes_credits (hlt : ∀ x ∈ w.credits, x < 16) : ((List.range 8).map fun i => leAt (controlBytes w) i 1 % 16) = w.credits := by
  refine List.ext_getElem (by rw [List.length_map, List.length_range, hcredits]) fun i hi hi' => ?_
  have hfront : controlBytes w = creditBytes w ++ (controlBytes w).drop 8 := by
    rw [controlBytes, controlBody_eq hmuster]
    simp only [List.append_assoc]
    rw [List.drop_left' (creditBytes_length hcredits)]
  have hx := hlt _ (List.getElem_mem hi')
  rw [List.getElem_map, List.getElem_range, leAt_one, hfront, List.getD_eq_getElem?_getD,
    List.getElem?_append_left (by rw [creditBytes_length hcredits]; exact hcredits ▸ hi'), creditBytes, List.getElem?_map,
    List.getElem?_eq_getElem hi']
  show (BitVec.ofNat 8 (w.credits[i] % 16)).toNat % 16 = _
  rw [BitVec.toNat_ofNat]
  omega

/-- A control codeword gives back what it says. -/
theorem controlOf_controlBytes (hlt : ∀ x ∈ w.credits, x < 16) (hseq : w.cseq < 2 ^ 16) (hdev : w.selfDevice < 2 ^ 14) (hport : w.selfPort < 64)
    (hlane : LaneFits w.lane) : controlOf (controlBytes w) = w := by
  obtain ⟨h1, h2, h3, h4, h5, h6⟩ := controlBytes_parts hcredits hmuster
  have hframe : frameOf (List.replicate 64 0) = none := rfl
  rw [controlOf, controlBytes_credits hcredits hmuster hlt, h1, h2, h3, h4, h5, h6, laneOf_laneBytes hlane, hframe, Nat.mod_eq_of_lt hseq,
    Nat.mod_mod, Nat.mod_mod, Nat.mod_eq_of_lt hdev, Nat.mod_eq_of_lt hport, BitVec.ofNat_toNat, BitVec.setWidth_eq, ← hmuster]

end

end Sys2Proof.Machine

/-! SUPPORT. Codewords and swaps on an UP link (O53: R599, R600, R604, R608, R611). -/

namespace Sys2Proof.Machine

variable {s t u : State} {q : Nat}

/-! ### Codewords that arrive -/

/-- A port after the place in the codeword sequence has moved on. -/
def State.stepped (s : State) (q : Nat) : State := s.setPort q { s.port q with rxPos := ((s.port q).rxPos + 1) % 20 }

/-- What a codeword that arrived does. -/
def State.decoded (s : State) (q : Nat) (lanes : List (List (BitVec 10))) : State :=
  let word := offSlots (lanes.map fun l => l.map BitVec.toNat)
  match rsDecode word with
  | none =>
    let s' := (s.stepped q).incFld .hthPortCnt (q / 4) (q % 4) 31 0
    if (s.port q).rxPos = 0 then s' else s'.takeFlitWord q (rsBytes word) true
  | some (c, errs) =>
    let s' := (s.stepped q).countCorrected q (s.slots q true) errs
    if (s.port q).rxPos ≠ 0 then s'.takeFlitWord q (rsBytes c) false
    else if controlOk (rsBytes c) then s'.takeControl q (controlOf (rsBytes c))
    else s'

theorem exec_codewordDecode (hq : q < 64) (hup : s.portState q = 2) {lanes : List (List (BitVec 10))} (hslots : s.slots q true ≠ [])
    (hlen : lanes.length = (s.slots q true).length) : exec (.codewordDecode q (s.slots q true) lanes) s = .next (s.decoded q lanes) := by
  show execCodewordDecode q (s.slots q true) lanes s = _
  rw [execCodewordDecode, inRange_next hq]
  dsimp only
  rw [if_neg (by simp [hup, hlen, hslots])]
  rfl

section
variable {lanes : List (List (BitVec 10))} {c : List Nat × List Nat}

theorem decoded_none (h : rsDecode (offSlots (lanes.map fun l => l.map BitVec.toNat)) = none) : s.decoded q lanes =
    if (s.port q).rxPos = 0 then (s.stepped q).incFld .hthPortCnt (q / 4) (q % 4) 31 0
    else ((s.stepped q).incFld .hthPortCnt (q / 4) (q % 4) 31 0).takeFlitWord q (rsBytes (offSlots (lanes.map fun l => l.map BitVec.toNat))) true := by
  rw [State.decoded, h]

theorem decoded_some (h : rsDecode (offSlots (lanes.map fun l => l.map BitVec.toNat)) = some c) : s.decoded q lanes =
    if (s.port q).rxPos ≠ 0 then ((s.stepped q).countCorrected q (s.slots q true) c.2).takeFlitWord q (rsBytes c.1) false
    else if controlOk (rsBytes c.1) then ((s.stepped q).countCorrected q (s.slots q true) c.2).takeControl q (controlOf (rsBytes c.1))
    else (s.stepped q).countCorrected q (s.slots q true) c.2 := by
  rw [State.decoded, h]

end

theorem fld_modPort (s : State) (f : Port → Port) (r : Reg) (i j hi lo : Nat) : (s.modPort q f).fld r i j hi lo = s.fld r i j hi lo := by
  rw [State.fld, reg_congr (State.modPort_regs ..), State.fld]

theorem countCorrected_count (s : State) (q : Nat) (js errs : List Nat) :
    ((s.stepped q).countCorrected q js errs).fld .hthPortCnt (q / 4) (q % 4) 63 32 =
      min (s.fld .hthPortCnt (q / 4) (q % 4) 63 32 + errs.length) (2 ^ 32 - 1) := by
  have hstep : (s.stepped q).fld .hthPortCnt (q / 4) (q % 4) 63 32 = s.fld .hthPortCnt (q / 4) (q % 4) 63 32 := by
    rw [State.fld, reg_congr (s := s) (t := s.stepped q) rfl, State.fld]
  rw [State.countCorrected, fld_modPort, State.addFld, State.fld_setFld_same _ _ _ _ _ _ _ (by decide), hstep]
  exact Nat.mod_eq_of_lt (Nat.lt_of_le_of_lt (Nat.min_le_right ..) (by decide))

/-! ### Control codewords -/

theorem exec_controlCodeword (hq : q < 64) (hup : s.portState q = 2) {w : ControlWord} (hcredits : w.credits.length = 8) :
    exec (.controlCodeword q w) s =
      .next (if w.crc.toNat ≠ crc32c (controlBody w) then s.rxStep q 0 else (s.rxStep q 0).takeControl q w) := by
  show execControlCodeword q w s = _
  rw [execControlCodeword, if_neg (not_not_intro hcredits), inRange_next hq, if_neg (not_not_intro hup)]

/-- The running total of credits that a control codeword brings up to date. -/
def creditNow (old c : Nat) : Nat := old + (c % 16 + 16 - old % 16) % 16

theorem creditNow_spec (old c : Nat) : old ≤ creditNow old c ∧ creditNow old c < old + 16 ∧ creditNow old c % 16 = c % 16 := by
  unfold creditNow
  omega

/-- The counts that a list of credits brings up to date, from place `k` on. -/
theorem credits_foldl (cs : List Nat) (k : Nat) (m : SMap Nat) (i : Nat) :
    Sparse.get 0 ((cs.zipIdx k).foldl (fun m x => Sparse.upd 0 m (q * 8 + x.2) fun old => old + (x.1 % 16 + 16 - old % 16) % 16) m) (q * 8 + i) =
      if k ≤ i ∧ i < k + cs.length then creditNow (Sparse.get 0 m (q * 8 + i)) (cs.getD (i - k) 0) else Sparse.get 0 m (q * 8 + i) := by
  induction cs generalizing k m with
  | nil => rw [if_neg (by rw [List.length_nil]; omega)]; rfl
  | cons c cs ih =>
    rw [List.zipIdx_cons, List.foldl_cons, ih, List.length_cons]
    by_cases hik : i = k
    · subst hik
      rw [if_neg (by omega), if_pos (by omega), Sparse.upd, Sparse.get_set_same, Nat.sub_self]
      rfl
    · rw [Sparse.upd, Sparse.get_set_ne (by omega)]
      by_cases hin : k + 1 ≤ i ∧ i < k + 1 + cs.length
      · rw [if_pos hin, if_pos (by omega), show i - k = (i - (k + 1)) + 1 by omega, List.getD_cons_succ]
      · rw [if_neg hin, if_neg (by omega)]

/-- A port whose control codeword has come. -/
def State.heard (s : State) (q : Nat) (w : ControlWord) : State :=
  ((s.rxStep q 0).modPort q fun p => { p with got := w.cseq % 2 ^ 16 }).takeCredits q w.credits

theorem heard_regs (s : State) (q : Nat) (w : ControlWord) : (s.heard q w).regs = s.regs := rfl

/-- A control codeword that says nothing but its credits. -/
theorem takeControl_credits {w : ControlWord} (hlane : w.lane = .none) (hmuster : w.muster = none)
    (hdev : s.fld .hthPortStatus (q / 4) (q % 4) 43 30 = w.selfDevice % 2 ^ 14)
    (hport : s.fld .hthPortStatus (q / 4) (q % 4) 51 46 = w.selfPort % 2 ^ 6) : (s.rxStep q 0).takeControl q w = s.heard q w := by
  have hfld (hi lo : Nat) : (s.heard q w).fld .hthPortStatus (q / 4) (q % 4) hi lo = s.fld .hthPortStatus (q / 4) (q % 4) hi lo := by
    rw [State.fld, reg_congr (heard_regs s q w), State.fld]
  have hpeer : (s.heard q w).comparePeer q w.selfDevice w.selfPort = s.heard q w := by
    unfold State.comparePeer
    exact if_pos ⟨(hfld ..).trans hdev, (hfld ..).trans hport⟩
  unfold State.takeControl
  rw [hmuster, hlane]
  exact hpeer

theorem heard_port (s : State) (q : Nat) (w : ControlWord) : (s.heard q w).port q = { s.port q with got := w.cseq % 2 ^ 16, rxPos := 1 } := by
  show (((s.rxStep q 0).modPort q fun p => { p with got := w.cseq % 2 ^ 16 })).port q = _
  rw [port_modPort_same, State.rxStep, port_modPort_same]

theorem heard_seen (s : State) {w : ControlWord} (hcredits : w.credits.length = 8) {i : Nat} (hi : i < 8) :
    Sparse.get 0 (s.heard q w).rtr.seen (q * 8 + i) = creditNow (Sparse.get 0 s.rtr.seen (q * 8 + i)) (w.credits.getD i 0) := by
  show Sparse.get 0 ((w.credits.zipIdx).foldl _ s.rtr.seen) (q * 8 + i) = _
  rw [credits_foldl, if_pos (by omega), Nat.sub_zero]

/-! ### Swaps in the transmit direction -/

/-- The far end's SWAP_REQ is granted. -/
theorem swapReq_spec (hq : q < 64) (hup : s.portState q = 2) {slot wl : Nat} (b : Nat) (hslot : slot < 8) (hwl : wl < 9) :
    ∃ t, exec (.swapReq q true slot wl b) s = .next t ∧ s.SendsControl t q (s.flitsDue q) (.swapAck true slot wl b) none ∧
      (t.port q).granted = (s.port q).granted.filter (fun y => y.slot != slot) ++
        [{ slot := slot, wl := wl, bound := b, acked := true, urgent := false }] := by
  let g : State := s.modPort q fun p => { p with
    granted := p.granted.filter (fun y => y.slot != slot) ++ [{ slot := slot, wl := wl, bound := b, acked := true, urgent := false }] }
  have hport : g.port q = { s.port q with
    granted := (s.port q).granted.filter (fun y => y.slot != slot) ++ [{ slot := slot, wl := wl, bound := b, acked := true, urgent := false }] } :=
    port_modPort_same ..
  have hdue : g.flitsDue q = s.flitsDue q := by rw [State.flitsDue, hport, State.flitsDue]
  refine ⟨g.sendControl q (.swapAck true slot wl b) none, ?_, ?_, ?_⟩
  · show execSwapReq q true slot wl b s = _
    rw [execSwapReq, inRange_next hq]
    unfold State.takeSwapReq
    rw [if_neg (by simp [hup]; omega)]
  · have hsends := sendControl_sends g q (.swapAck true slot wl b) none
    rw [hdue] at hsends
    exact SendsControl.from hsends rfl (by rw [hport]) rfl
  · rw [(sendControl_transmits g q (.swapAck true slot wl b) none).port]
    show (g.port q).granted = _
    rw [hport]

theorem swapAck_spec (hq : q < 64) (hup : s.portState q = 2) {x : Swap} (hasked : (s.port q).asked = [x]) :
    ∃ t, exec (.swapAck q true x.slot x.wl x.bound) s = .next t ∧ t = { s with ports := t.ports } ∧
      (t.port q).asked = [{ x with acked := true }] := by
  refine ⟨s.modPort q fun p => { p with asked := p.asked.map fun y =>
    if y.slot = x.slot ∧ y.wl = x.wl ∧ y.bound = x.bound then { y with acked := true } else y }, ?_, rfl, ?_⟩
  · show execSwapAck q true x.slot x.wl x.bound s = _
    rw [execSwapAck, inRange_next hq]
    unfold State.takeSwapAck
    rw [if_neg (by simp [hup])]
  · rw [port_modPort_same]
    dsimp only
    rw [hasked, List.map_singleton, if_pos ⟨rfl, rfl, rfl⟩]

/-! ### A lane register -/

section
variable (s : State) (q : Nat) (rx : Bool)

theorem lane_setLane_same {hi lo v : Nat} (h : hi < 64) : (s.setLane q rx hi lo v).lane q rx hi lo = v % 2 ^ (hi + 1 - lo) :=
  State.fld_setFld_same _ _ _ _ _ _ _ h

theorem lane_setLane_ne {hi lo hi' lo' : Nat} (v : Nat) (h : hi < 64) (hne : hi' < lo ∨ hi < lo') :
    (s.setLane q rx hi lo v).lane q rx hi' lo' = s.lane q rx hi' lo' := State.fld_setFld_ne _ _ _ _ _ _ _ _ _ h hne

end

theorem lane_congr (h : t.regs = s.regs) (q : Nat) (rx : Bool) (hi lo : Nat) : t.lane q rx hi lo = s.lane q rx hi lo := by
  rw [State.lane, State.fld, reg_congr h, ← State.fld, State.lane]

/-- The two states agree in the wavelength of every slot of a direction. -/
structure SameSlots (q : Nat) (rx : Bool) (s t : State) : Prop where
  slot : ∀ i < 8, t.slotWl q rx i = s.slotWl q rx i

theorem SameSlots.trans {rx : Bool} (h : SameSlots q rx s t) (h' : SameSlots q rx t u) : SameSlots q rx s u :=
  ⟨fun i hi => (h'.slot i hi).trans (h.slot i hi)⟩

theorem SameSlots.ite {rx : Bool} {p : Prop} [Decidable p] (h : SameSlots q rx s t) (h' : SameSlots q rx s u) :
    SameSlots q rx s (if p then t else u) := by
  split
  · exact h
  · exact h'

theorem SameSlots.of_regs {rx : Bool} (h : t.regs = s.regs) : SameSlots q rx s t := ⟨fun _ _ => lane_congr h ..⟩

theorem setLane_slots (s : State) (q : Nat) (rx : Bool) {hi lo : Nat} (hlo : 32 ≤ lo) (h : hi < 64) (v : Nat) :
    SameSlots q rx s (s.setLane q rx hi lo v) := ⟨fun _ _ => lane_setLane_ne s q rx v h (by omega)⟩

theorem setSpare_slots (s : State) (q : Nat) (rx : Bool) (k : Nat) : SameSlots q rx s (s.setSpare q rx k) :=
  setLane_slots s q rx (by decide) (by decide) k

theorem setSpareFor_slots (s : State) (q : Nat) (rx : Bool) (j : Nat) : SameSlots q rx s (s.setSpareFor q rx j) :=
  setLane_slots s q rx (by decide) (by decide) j

theorem setLane_port (s : State) (q' q : Nat) (rx : Bool) (hi lo v : Nat) : (s.setLane q' rx hi lo v).port q = s.port q := by
  rw [State.port, (setLane_only ..).logOnly.ports, State.port]

/-- The granted swap takes place. -/
theorem swapSwitch_tx (hq : q < 64) (hup : s.portState q = 2) {x : Swap} {rest : List Swap} (hgranted : (s.port q).granted = x :: rest)
    (hslot : x.slot < 8) (hwl : x.wl < 9) : ∃ t, exec (.swapSwitch q false) s = .next t ∧
      t.slotWl q false x.slot = x.wl ∧ (t.port q).granted = rest ∧ ∀ i, i < 8 → i ≠ x.slot → t.slotWl q false i = s.slotWl q false i := by
  let m : State := (s.modPort q fun p => { p with granted := rest }).setSlot q false x.slot x.wl
  let t : State := if x.wl = m.spare q false ∧ m.health q false (s.slotWl q false x.slot) = 3 then (m.setSpare q false 0xF).setSpareFor q false 0xF
    else m.setSpareFor q false (if x.wl = m.spare q false then x.slot else 0xF)
  have hslots : SameSlots q false m t := .ite ((setSpare_slots ..).trans (setSpareFor_slots ..)) (setSpareFor_slots ..)
  have hgone : (m.port q).granted = rest := by
    show (((s.modPort q fun p => { p with granted := rest }).setSlot q false x.slot x.wl).port q).granted = _
    rw [State.setSlot, setLane_port, port_modPort_same]
  have hport : (t.port q).granted = rest := by
    unfold t
    split
    · rw [State.setSpareFor, setLane_port, State.setSpare, setLane_port, hgone]
    · rw [State.setSpareFor, setLane_port, hgone]
  refine ⟨t, ?_, (hslots.slot _ hslot).trans (slotWl_setSlot_same _ q false hslot (by omega)), hport, fun i hi hne =>
    (hslots.slot i hi).trans ((slotWl_setSlot_ne _ q false hslot hne _).trans (lane_congr (State.modPort_regs ..) ..))⟩
  show execSwapSwitch q false s = _
  rw [execSwapSwitch, inRange_next hq, if_neg (not_not_intro hup), if_neg Bool.false_ne_true, hgranted]

/-! ### Swaps in the receive direction -/

/-- A retrain leaves every slot its wavelength. -/
theorem dropLane_slots (s : State) (hq : q < 64) (wl : Nat) (rx : Bool) : SameSlots q rx s (s.dropLane q wl) := by
  refine ⟨fun i _ => ?_⟩
  have hlog : laneAddr q rx ∉ ({Reg.hthEvent.addr (q / 4) 0, Reg.drvEvtStatus.addr 0 0} : Set Nat) := by
    rintro (h | h) <;> cases rx <;> simp [laneAddr, laneReg, Reg.addr, Reg.row, Block.base] at h <;> omega
  have hsent : ((s.hthLog q true wl 3).sendControl q .retrain none).regs = (s.hthLog q true wl 3).regs := by
    rw [(sendControl_transmits (s.hthLog q true wl 3) q .retrain none).frame]
  rw [State.dropLane, startRetrain_regs_lane _ _ _ hq, State.slotWl, lane_congr hsent, ← State.slotWl, slotWl_outside (hthLog_outside ..) hlog]

theorem dropLane_asked (s : State) (q wl : Nat) : ((s.dropLane q wl).port q).asked = [] := by
  rw [State.dropLane, startRetrain_port]
  rfl

/-- The swap that this end asked for takes place. -/
theorem swapSwitch_rx (hq : q < 64) (hup : s.portState q = 2) {x : Swap} (hasked : (s.port q).asked = [x])
    (hready : x.acked = true ∨ x.urgent = true) (hclaims : (s.port q).claims = []) (hslot : x.slot < 8) (hwl : x.wl < 9) :
    ∃ t, exec (.swapSwitch q true) s = .next t ∧ t.slotWl q true x.slot = x.wl ∧ (t.port q).asked = [] ∧
      ∀ i, i < 8 → i ≠ x.slot → t.slotWl q true i = s.slotWl q true i := by
  let m : State := (s.modPort q fun p => { p with asked := p.asked.erase x }).setSlot q true x.slot x.wl
  have hport : m.port q = { s.port q with asked := [] } := by
    show ((s.modPort q fun p => { p with asked := p.asked.erase x }).setSlot q true x.slot x.wl).port q = _
    rw [State.setSlot, setLane_port, port_modPort_same]
    simp [hasked]
  have hend : SameSlots q true m (s.switchRx q x) ∧ ((s.switchRx q x).port q).asked = [] := by
    unfold State.switchRx
    change SameSlots q true m (if x.wl = m.spare q true then _ else _) ∧ ((if x.wl = m.spare q true then _ else _ : State).port q).asked = []
    by_cases hspare : x.wl = m.spare q true
    · rw [if_pos hspare]
      by_cases hold : m.health q true (s.slotWl q true x.slot) = 3
      · rw [if_pos hold]
        refine ⟨(setSpare_slots ..).trans (setSpareFor_slots ..), ?_⟩
        rw [State.setSpareFor, setLane_port, State.setSpare, setLane_port, hport]
      · rw [if_neg hold]
        exact ⟨.of_regs (State.modPort_regs ..), by rw [port_modPort_same, hport]⟩
    · rw [if_neg hspare]
      let n : State := (m.setSpareFor q true 0xF).modPort q fun p => { p with away := none }
      have hn : SameSlots q true m n := (setSpareFor_slots ..).trans (.of_regs (State.modPort_regs ..))
      have hnport : n.port q = { s.port q with asked := [], away := none } := by
        show ((m.setSpareFor q true 0xF).modPort q fun p => { p with away := none }).port q = _
        rw [port_modPort_same, State.setSpareFor, setLane_port, hport]
      change SameSlots q true m (if 2 ≤ n.health q true x.wl then n.dropLane q x.wl else _) ∧
        ((if 2 ≤ n.health q true x.wl then n.dropLane q x.wl else _ : State).port q).asked = []
      by_cases hbad : 2 ≤ n.health q true x.wl
      · rw [if_pos hbad]
        exact ⟨hn.trans (dropLane_slots n hq _ _), dropLane_asked ..⟩
      · rw [if_neg hbad]
        have hnone : (n.port q).claims = [] := by rw [hnport]; exact hclaims
        change SameSlots q true m (match (n.port q).claims with
          | [] => n
          | _ :: _ => _) ∧ ((match (n.port q).claims with
          | [] => n
          | _ :: _ => _ : State).port q).asked = []
        rw [hnone]
        exact ⟨hn, by rw [hnport]⟩
  obtain ⟨hslots, hgone⟩ := hend
  refine ⟨s.switchRx q x, ?_, (hslots.slot _ hslot).trans (slotWl_setSlot_same _ q true hslot (by omega)), hgone, fun i hi hne =>
    (hslots.slot i hi).trans ((slotWl_setSlot_ne _ q true hslot hne _).trans (lane_congr (State.modPort_regs ..) ..))⟩
  show execSwapSwitch q true s = _
  rw [execSwapSwitch, inRange_next hq, if_neg (not_not_intro hup), if_pos rfl, hasked]
  dsimp only
  rw [if_pos (by simpa using hready)]

end Sys2Proof.Machine

/-! SUPPORT. Failing and retuned wavelengths (O53: R595, R609 to R615, R618). -/

namespace Sys2Proof.Machine

variable {s t u : State} {q k : Nat}

/-! ### Asking for a swap -/

/-- `t` asks for a swap that `s` had not asked for. -/
def AsksSwap (q slot wl : Nat) (urgent : Bool) (s t : State) : Prop := ∃ d, 8 ≤ d ∧ d < 2 ^ 15 ∧
  (t.port q).asked = (s.port q).asked ++
    [{ slot := slot, wl := wl, bound := ((s.port q).got + d) % 2 ^ 16, acked := false, urgent := urgent }]

theorem askSwap_asks (s : State) (q slot wl : Nat) (urgent : Bool) : AsksSwap q slot wl urgent s (s.askSwap q slot wl urgent) := by
  refine ⟨8 + s.freeVal.toNat % 32760, by omega, by omega, ?_⟩
  unfold State.askSwap
  dsimp only
  rw [(sendControl_transmits ..).port]
  show ((State.modPort _ q _).port q).asked = _
  rw [port_modPort_same, Nat.add_assoc]
  rfl

theorem askSwap_regs (s : State) (q slot wl : Nat) (urgent : Bool) : (s.askSwap q slot wl urgent).regs = s.regs := by
  unfold State.askSwap
  dsimp only
  rw [(sendControl_transmits ..).frame]
  rfl

theorem askSwap_calRx (s : State) (q slot wl : Nat) (urgent : Bool) : ((s.askSwap q slot wl urgent).port q).calRx = (s.port q).calRx := by
  unfold State.askSwap
  dsimp only
  rw [(sendControl_transmits ..).port]
  show ((State.modPort _ q _).port q).calRx = _
  rw [port_modPort_same]
  rfl

/-- A swap that is asked for depends on what the port has asked for and has received alone. -/
theorem AsksSwap.from {slot wl : Nat} {urgent : Bool} (h : AsksSwap q slot wl urgent s t) (hasked : (s.port q).asked = (u.port q).asked)
    (hgot : (s.port q).got = (u.port q).got) : AsksSwap q slot wl urgent u t := by
  obtain ⟨d, h8, hlt, ht⟩ := h
  exact ⟨d, h8, hlt, by rw [ht, hasked, hgot]⟩

/-! ### Health -/

theorem health_congr (h : t.regs = s.regs) (q : Nat) (rx : Bool) (k : Nat) : t.health q rx k = s.health q rx k := lane_congr h ..

theorem health_setHealth_same (s : State) (q : Nat) (rx : Bool) {k v : Nat} (hk : k < 9) (hv : v < 4) : (s.setHealth q rx k v).health q rx k = v := by
  rw [State.health, State.setHealth, lane_setLane_same _ _ _ (by omega), show 40 + 2 * k + 1 + 1 - (40 + 2 * k) = 2 by omega]
  exact Nat.mod_eq_of_lt hv

theorem health_setHealth_ne (s : State) (q : Nat) (rx : Bool) {k j : Nat} (hk : k < 9) (h : j ≠ k) (v : Nat) :
    (s.setHealth q rx k v).health q rx j = s.health q rx j := lane_setLane_ne s q rx v (by omega) (by omega)

/-- The health of a wavelength leaves the slots, the spare and what the spare is for. -/
theorem lane_setHealth (s : State) (q : Nat) (rx : Bool) {hi lo : Nat} (hk : k < 9) (h : hi < 40) (v : Nat) :
    (s.setHealth q rx k v).lane q rx hi lo = s.lane q rx hi lo := lane_setLane_ne s q rx v (by omega) (by omega)

theorem health_setSpareFor (s : State) (q : Nat) (rx : Bool) (j k : Nat) : (s.setSpareFor q rx j).health q rx k = s.health q rx k :=
  lane_setLane_ne s q rx j (by decide) (by omega)

theorem health_setSpare (s : State) (q : Nat) (rx : Bool) (j k : Nat) : (s.setSpare q rx j).health q rx k = s.health q rx k :=
  lane_setLane_ne s q rx j (by decide) (by omega)

theorem lane_hthLog (s : State) (q : Nat) (rx : Bool) (wl kind : Nat) (q' : Nat) (rx' : Bool) (hi lo : Nat) :
    (s.hthLog q rx wl kind).lane q' rx' hi lo = s.lane q' rx' hi lo := by
  refine (hthLog_outside s q rx wl kind).fld ?_ hi lo
  rintro (h | h) <;> cases rx' <;> simp [laneReg, Reg.addr, Reg.row, Block.base] at h <;> omega

theorem hthLog_port (s : State) (q : Nat) (rx : Bool) (wl kind : Nat) (q' : Nat) : (s.hthLog q rx wl kind).port q' = s.port q' := by
  rw [State.port, (hthLog_logOnly ..).ports, State.port]

/-- The slot that a wavelength serves is the first. -/
theorem slotOn_zero {rx : Bool} (h : s.slotWl q rx 0 = k) : s.slotOn q rx k = some 0 := by
  unfold State.slotOn lowest
  exact List.find?_cons_of_pos (beq_iff_eq.mpr h)

theorem slotOn_none {rx : Bool} (h : ∀ i, i < 8 → s.slotWl q rx i ≠ k) : s.slotOn q rx k = none := by
  unfold State.slotOn lowest
  rw [List.find?_eq_none]
  exact fun i hi => by rw [beq_iff_eq]; exact h i (List.mem_range.mp hi)

/-! ### A wavelength that is lost -/

/-- The spare is free and takes a slot. -/
theorem claimSpare_takes {slot level : Nat} (hspare : s.spare q true < 9) (haway : (s.port q).away = none) (hfree : s.lane q true 39 36 = 0xF) :
    s.claimSpare q slot level = (s.setSpareFor q true slot).askSwap q slot (s.spare q true) (level == 3) := by
  unfold State.claimSpare
  dsimp only
  rw [if_neg (by omega), haway]
  dsimp only
  rw [if_pos hfree]

/-- A wavelength of the receive direction that serves slot 0 while the spare is free. -/
structure Loses (s : State) (q k : Nat) : Prop where
  up     : s.portState q = 2
  free   : s.hearthBusy (q / 4) = false
  wl     : k < 9
  good   : s.health q true k ≠ 3
  slot   : s.slotWl q true 0 = k
  spare  : s.spare q true < 9
  other  : s.spare q true ≠ k
  unused : s.lane q true 39 36 = 0xF
  away   : (s.port q).away = none

/-- A wavelength marked FAILED, and logged. -/
def State.failed (s : State) (q k kind : Nat) : State := (s.setHealth q true k 3).hthLog q true k kind

theorem failed_lane (s : State) (q kind : Nat) {k hi lo : Nat} (hk : k < 9) (h : hi < 40) : (s.failed q k kind).lane q true hi lo = s.lane q true hi lo := by
  rw [State.failed, lane_hthLog, lane_setHealth s q true hk h]

theorem failed_health (s : State) (q kind : Nat) {k : Nat} (hk : k < 9) : (s.failed q k kind).health q true k = 3 := by
  rw [State.health, State.failed, lane_hthLog]
  exact health_setHealth_same s q true hk (by decide)

theorem failed_port (s : State) (q k kind q' : Nat) : (s.failed q k kind).port q' = s.port q' := by
  rw [State.failed, hthLog_port, State.setHealth, setLane_port]

theorem Loses.failWl_eq (h : Loses s q k) (kind : Nat) : s.failWl q k kind =
    ((s.failed q k kind).setSpareFor q true 0).askSwap q 0 (s.spare q true) true := by
  have hspare : (s.failed q k kind).spare q true = s.spare q true := failed_lane s q kind h.wl (by decide)
  have hslot : (s.failed q k kind).slotOn q true k = some 0 := slotOn_zero ((failed_lane s q kind h.wl (by decide)).trans h.slot)
  have haway : ((s.failed q k kind).port q).away = none := (congrArg Port.away (failed_port ..)).trans h.away
  have hother : ((s.failed q k kind).spare q true == k) = false := beq_eq_false_iff_ne.mpr (hspare ▸ h.other)
  unfold State.failWl
  rw [if_neg (by simp [h.up, h.good]), h.free, if_neg Bool.false_ne_true]
  dsimp only
  rw [← State.failed, hother]
  simp only [Bool.false_eq_true, if_false]
  rw [hslot, haway]
  dsimp only
  rw [claimSpare_takes (hspare ▸ h.spare) haway ((failed_lane s q kind h.wl (by decide)).trans h.unused), hspare]
  rfl

theorem Loses.spec (h : Loses s q k) (kind : Nat) : (s.failWl q k kind).health q true k = 3 ∧ (s.failWl q k kind).lane q true 39 36 = 0 ∧
    AsksSwap q 0 (s.spare q true) true s (s.failWl q k kind) := by
  have hport : ((s.failed q k kind).setSpareFor q true 0).port q = s.port q := by rw [State.setSpareFor, setLane_port, failed_port]
  rw [h.failWl_eq kind]
  refine ⟨?_, ?_, (askSwap_asks ..).from (by rw [hport]) (by rw [hport])⟩
  · rw [health_congr (askSwap_regs ..), health_setSpareFor, failed_health s q kind h.wl]
  · rw [lane_congr (askSwap_regs ..), State.setSpareFor, lane_setLane_same _ _ _ (by decide)]
    rfl

theorem exec_laserOut (hq : q < 64) (hk : k < 9) : exec (.laserOut q k) s = .next (s.failWl q k 1) := by
  show execLaserOut q k s = _
  rw [execLaserOut, inRange_next hq, State.takeLaserOut, if_pos hk]

theorem exec_pilotToneCheck_none (hq : q < 64) (hk : k < 9) (hup : s.portState q = 2) (h3 : s.health q true k ≠ 3) (h1 : s.health q true k ≠ 1) :
    exec (.pilotToneCheck q k none) s = .next (s.failWl q k 1) := by
  show execPilotToneCheck q k none s = _
  rw [execPilotToneCheck, if_neg (Nat.not_le.mpr hk), inRange_next hq, if_neg (by simp [hup, h3, h1])]

/-- A port whose window of corrected symbols starts again. -/
def State.newWindow (s : State) (q : Nat) : State := s.modPort q fun p => { p with corr := [] }

theorem newWindow_port (s : State) (q : Nat) : (s.newWindow q).port q = { s.port q with corr := [] } := port_modPort_same ..

theorem exec_serWindowExpiry (hq : q < 64) : exec (.serWindowExpiry q) s = .next (((List.range 9).filter fun k =>
    decide (max 1 (s.fld .hthCfg (q / 4) 0 15 0) < Sparse.get 0 (s.port q).corr k)).foldl (fun s k => s.failWl q k 1) (s.newWindow q)) := by
  show execSerWindowExpiry q s = _
  rw [execSerWindowExpiry, inRange_next hq]
  rfl

/-- Of the wavelengths, the one that counted too many. -/
theorem serWindow_one {limit n : Nat} (hk : k < 9) (hn : limit < n) :
    ((List.range 9).filter fun j => decide (limit < Sparse.get 0 ([(k, n)] : SMap Nat) j)) = [k] := by
  have hget (j : Nat) : Sparse.get 0 ([(k, n)] : SMap Nat) j = if j = k then n else 0 := by
    by_cases h : j = k
    · subst h; simp [Sparse.get]
    · simp [Sparse.get, h]
  have hiff (j : Nat) : decide (limit < Sparse.get 0 ([(k, n)] : SMap Nat) j) = decide (j = k) := by
    rw [hget]
    by_cases h : j = k <;> simp [h, hn]
  simp only [hiff]
  interval_cases k <;> rfl

theorem Loses.newWindow (h : Loses s q k) : Loses (s.newWindow q) q k where
  up := (portState_congr (reg_congr (State.modPort_regs ..) ..)).trans h.up
  free := h.free
  wl := h.wl
  good := (health_congr (State.modPort_regs ..) ..).symm ▸ h.good
  slot := (lane_congr (State.modPort_regs ..) ..).trans h.slot
  spare := (lane_congr (State.modPort_regs ..) ..).trans_lt h.spare
  other hk := h.other ((lane_congr (State.modPort_regs ..) ..).symm.trans hk)
  unused := (lane_congr (State.modPort_regs ..) ..).trans h.unused
  away := by rw [newWindow_port]; exact h.away

/-! ### Calibration -/

/-- The next wavelength in turn. -/
def State.calStep (s : State) (q k : Nat) : State := s.modPort q fun p => { p with calRx := (k + 1) % 9 }

section
variable (hq : q < 64) (hup : s.portState q = 2) (hfree : s.hearthBusy (q / 4) = false) (hcfg : s.fld .hthCfg (q / 4) 0 31 24 ≠ 0)
  (hk : (s.port q).calRx = k)
include hq hup hfree hcfg hk

theorem exec_level1Calibration_skips (hhealth : s.health q true k ≠ 0) : exec (.level1Calibration q true) s = .next (s.calStep q k) := by
  show execLevel1Calibration q true s = _
  rw [execLevel1Calibration, inRange_next hq, if_neg (by simp [hup, hfree, hcfg])]
  dsimp only
  rw [if_pos rfl, hk, if_pos hhealth]
  rfl

theorem exec_level1Calibration_takes (hhealth : s.health q true k = 0) (hslot : s.slotWl q true 0 = k) (hspare : s.spare q true < 9)
    (hunused : s.lane q true 39 36 = 0xF) (hgood : s.health q true (s.spare q true) = 0) (hasked : (s.port q).asked = []) :
    exec (.level1Calibration q true) s =
      .next ((((s.setHealth q true k 1).setSpareFor q true 0).askSwap q 0 (s.spare q true) false).calStep q k) := by
  show execLevel1Calibration q true s = _
  rw [execLevel1Calibration, inRange_next hq, if_neg (by simp [hup, hfree, hcfg])]
  dsimp only
  rw [if_pos rfl, hk, if_neg (not_not_intro hhealth), slotOn_zero hslot]
  dsimp only
  rw [if_neg (by decide), if_neg (by simp [hunused, hgood, hasked]; omega)]
  rfl

end

/-! ### Sweeps and tones -/

/-- A ring whose tone confirms it. -/
def State.confirmed (s : State) (q k : Nat) : State :=
  s.modPort q fun p => { p with sweeps := Sparse.set 0 p.sweeps k 0, wrong := Sparse.set 0 p.wrong k 0 }

theorem exec_ringSweepComplete (hq : q < 64) (hk : k < 9) (hfree : s.hearthBusy (q / 4) = false) (hhealth : s.health q true k = 2) :
    exec (.ringSweepComplete q true k true) s = .next ((s.confirmed q k).goodWl q true k) := by
  show execRingSweepComplete q true k true s = _
  rw [execRingSweepComplete, if_neg (Nat.not_le.mpr hk), inRange_next hq]
  dsimp only
  rw [if_neg (by simp [hhealth, hfree]), if_pos rfl]
  rfl

theorem exec_ringSweepComplete_not (hq : q < 64) (hk : k < 9) (hfree : s.hearthBusy (q / 4) = false) (hhealth : s.health q true k = 2)
    (hfew : Sparse.get 0 (s.port q).sweeps k + 1 < 3) : exec (.ringSweepComplete q true k false) s =
      .next (s.modPort q fun p => { p with sweeps := Sparse.set 0 p.sweeps k (Sparse.get 0 (s.port q).sweeps k + 1) }) := by
  show execRingSweepComplete q true k false s = _
  rw [execRingSweepComplete, if_neg (Nat.not_le.mpr hk), inRange_next hq]
  dsimp only
  rw [if_neg (by simp [hhealth, hfree]), if_neg Bool.false_ne_true, if_neg (by omega), if_neg (by omega)]

/-- A wavelength that is GOOD again, without a slot of its own that is away. -/
theorem goodWl_spec (s : State) (q : Nat) (hk : k < 9) (haway : (s.port q).away = none) : (s.goodWl q true k).health q true k = 0 ∧
    (s.goodWl q true k).port q = s.port q := by
  have hport : (s.setHealth q true k 0).port q = s.port q := by rw [State.setHealth, setLane_port]
  have hhealth : (s.setHealth q true k 0).health q true k = 0 := health_setHealth_same s q true hk (by decide)
  unfold State.goodWl
  dsimp only
  rw [Bool.not_true, if_neg Bool.false_ne_true, hport, haway]
  dsimp only
  split
  · exact ⟨(health_setSpare ..).trans hhealth, by rw [State.setSpare, setLane_port, hport]⟩
  · exact ⟨hhealth, hport⟩

theorem exec_pilotToneCheck_own (hq : q < 64) (hk : k < 9) (hup : s.portState q = 2) (hhealth : s.health q true k = 0) :
    exec (.pilotToneCheck q k (some k)) s = .next (s.modPort q fun p => { p with wrong := Sparse.set 0 p.wrong k 0 }) := by
  show execPilotToneCheck q k (some k) s = _
  rw [execPilotToneCheck, if_neg (Nat.not_le.mpr hk), inRange_next hq, if_neg (by simp [hup, hhealth])]
  dsimp only
  rw [if_pos rfl]

/-- A port that has found a wrong tone on a ring. -/
def State.mistoned (s : State) (q k n : Nat) : State := s.modPort q fun p => { p with wrong := Sparse.set 0 p.wrong k n }

theorem exec_pilotToneCheck_wrong (hq : q < 64) (hk : k < 9) (hup : s.portState q = 2) (hfree : s.hearthBusy (q / 4) = false)
    (hhealth : s.health q true k = 0) {x : Nat} (hx : x ≠ k) (hwrong : Sparse.get 0 (s.port q).wrong k = 1)
    (hslots : ∀ i, i < 8 → s.slotWl q true i ≠ k) :
    exec (.pilotToneCheck q k (some x)) s = .next (((s.mistoned q k 2).setHealth q true k 2).hthLog q true k 2) := by
  have hnone : (((s.mistoned q k 2).setHealth q true k 2).hthLog q true k 2).slotOn q true k = none := by
    refine slotOn_none fun i hi => ?_
    rw [State.slotWl, lane_hthLog, lane_setHealth _ _ _ hk (by omega), State.mistoned, lane_congr (State.modPort_regs ..)]
    exact hslots i hi
  have hwas : (s.mistoned q k 2).health q true k = 0 := (health_congr (State.modPort_regs ..) ..).trans hhealth
  show execPilotToneCheck q k (some x) s = _
  rw [execPilotToneCheck, if_neg (Nat.not_le.mpr hk), inRange_next hq, if_neg (by simp [hup, hhealth])]
  dsimp only
  rw [if_neg hx, hfree, if_neg Bool.false_ne_true, hwrong]
  rw [← State.mistoned, hwas, if_neg (by decide), hnone]

/-! ### Lasers -/

theorem exec_ringSetpointReturn (hq : q < 64) (hup : s.portState q = 2) {i : Nat} (haway : (s.port q).away = some (i, k))
    (hhealth : s.health q true k = 1) (hclaims : (s.port q).claims ≠ []) :
    exec (.ringSetpointReturn q true) s = .next ((s.setHealth q true k 0).askSwap q i k false) := by
  show execRingSetpointReturn q true s = _
  rw [execRingSetpointReturn, inRange_next hq, if_neg (by simp [hup]), haway]
  dsimp only
  rw [if_pos ⟨hhealth, hclaims⟩]

/-- What a failed laser does to a port of its hearth. -/
def State.laserLost (s : State) (q k : Nat) : State :=
  let s := s.setHealth q false k 3
  let s := if s.spare q false = k then (s.setSpare q false 0xF).setSpareFor q false 0xF else s
  if s.portState q = 2 then s.sendControl q (.laserOut k) none else s

/-- The registers of a port that has lost a laser, before its message. -/
def State.laserMarked (s : State) (q k : Nat) : State :=
  if (s.setHealth q false k 3).spare q false = k then ((s.setHealth q false k 3).setSpare q false 0xF).setSpareFor q false 0xF
  else s.setHealth q false k 3

theorem laserMarked_outside (s : State) (q k : Nat) : RegsOutside {laneAddr q false} s (s.laserMarked q k) :=
  .ite (((setLane_outside ..).trans (setLane_outside ..)).trans (setLane_outside ..)) (setLane_outside ..)

theorem laserLost_regs (s : State) (q k : Nat) : (s.laserLost q k).regs = (s.laserMarked q k).regs := by
  unfold State.laserLost
  dsimp only
  rw [← State.laserMarked]
  split
  · rw [(sendControl_transmits ..).frame]
  · rfl

theorem laserLost_outside (s : State) (q k : Nat) : RegsOutside {laneAddr q false} s (s.laserLost q k) :=
  (laserMarked_outside s q k).trans (.of_regs (laserLost_regs s q k))

theorem laserLost_health (s : State) (q : Nat) (hk : k < 9) : (s.laserLost q k).health q false k = 3 := by
  have hset := health_setHealth_same s q false hk (show 3 < 4 by decide)
  rw [health_congr (laserLost_regs s q k)]
  unfold State.laserMarked
  split
  · rw [health_setSpareFor, health_setSpare, hset]
  · exact hset

/-- A hearth whose laser is out. -/
def State.laserDark (s : State) (h k : Nat) : State := (s.setRbit .hthStatus h 0 (54 + k) false).hthLog (4 * h) false k 5

theorem exec_laserFailure {h : Nat} (hh : h < 16) (hk : k < 9) (hfree : s.hearthBusy h = false) (hlit : s.rbit .hthStatus h 0 (54 + k) = true) :
    exec (.laserFailure h k) s = .next ((List.range 4).foldl (fun s j => s.laserLost (4 * h + j) k) (s.laserDark h k)) := by
  show execLaserFailure h k s = _
  rw [execLaserFailure, if_neg (Nat.not_le.mpr hk), inRange_next hh, State.laserFail, hlit, Bool.not_true, if_neg Bool.false_ne_true, hfree,
    if_neg Bool.false_ne_true]
  rfl

theorem laneAddr_inj {q' : Nat} {rx : Bool} (h : laneAddr q rx = laneAddr q' rx) : q = q' := by
  cases rx <;> simp [laneAddr, laneReg, Reg.addr, Reg.row, Block.base] at h <;> omega

/-- The failed laser is out in the four ports of its hearth. -/
theorem laserLosts_health (s : State) (h : Nat) (hk : k < 9) {i : Nat} (hi : i < 4) :
    ((List.range 4).foldl (fun s j => s.laserLost (4 * h + j) k) s).health (4 * h + i) false k = 3 := by
  obtain ⟨-, hall⟩ := foldl_range_obs (P := fun _ => True) (g := fun s j => s.laserLost (4 * h + j) k) (n := 4)
    (obs := fun j t => t.health (4 * h + j) false k) (f := fun _ _ => 3) (fun _ _ _ h => h) (fun t j _ _ => laserLost_health t _ hk)
    (fun t j _ p _ hne => (laserLost_outside t (4 * h + j) k).fld (fun hin => hne (by
      have := laneAddr_inj (rx := false) (Set.mem_singleton_iff.mp hin)
      omega)) ..) s trivial
  exact hall i hi

theorem laserLosts_rbit (s : State) (h b : Nat) : ((List.range 4).foldl (fun s j => s.laserLost (4 * h + j) k) s).rbit .hthStatus h 0 b =
    s.rbit .hthStatus h 0 b := by
  refine (RegsOutside.foldl (w := {a | ∃ q, a = laneAddr q false}) (fun t j _ => (laserLost_outside t (4 * h + j) k).mono fun a ha =>
    ⟨_, Set.mem_singleton_iff.mp ha⟩) s).rbit ?_ b
  rintro ⟨q, hin⟩
  simp [laneAddr, laneReg, Reg.addr, Reg.row, Block.base] at hin
  omega

theorem laserDark_rbit (s : State) (h : Nat) (hk : k < 9) : (s.laserDark h k).rbit .hthStatus h 0 (54 + k) = false := by
  rw [State.laserDark, (hthLog_outside ..).rbit]
  · exact State.rbit_setRbit_same _ _ _ _ _ _ (by omega)
  · rintro (hin | hin) <;> simp [Reg.addr, Reg.row, Block.base] at hin <;> omega

end Sys2Proof.Machine

/-! PROOFS. Codewords, swaps, and failing and retuned wavelengths (O53). -/

namespace Sys2Proof.Machine

/-- Settles O53, by the bytes that the code, the slots and a control codeword keep, and by what each event makes of the lanes of a port. -/
theorem lanesSwapFailAndRetune : Obligations.LanesSwapFailAndRetune := by
  unfold Obligations.LanesSwapFailAndRetune
  refine ⟨⟨fun bs => rsBytes_rsEncode, fun n c hn _ hc => ⟨offSlots_onSlots n c hn hc, onSlots_length n c, fun l => onSlots_slot_length n c⟩, ?_⟩,
    fun s q hq hup => ⟨?_, ?_, ?_, ?_, ?_, ?_, ?_⟩, fun s q k hq hk hup hfree => ?_⟩
  · exact fun w hlen hlt hseq hdev hport hmuster hlane =>
      ⟨controlBytes_length hlen hmuster, controlOf_controlBytes hlen hmuster hlt hseq hdev hport hlane, controlOk_signed hlen hmuster⟩
  · intro lanes hslots hlen word
    have hexec := exec_codewordDecode hq hup hslots hlen
    refine ⟨fun hnone hpos => ?_, fun hnone hpos => ?_, fun c errs hsome => ⟨countCorrected_count s q _ errs, fun hpos => ?_, fun hpos hok => ?_,
      fun hpos hok => ?_⟩⟩
    · rw [hexec, decoded_none hnone, if_pos hpos]
      rfl
    · rw [hexec, decoded_none hnone, if_neg hpos]
      rfl
    · rw [hexec, decoded_some hsome, if_pos hpos]
      rfl
    · rw [hexec, decoded_some hsome, if_neg (not_not_intro hpos), if_pos hok]
      rfl
    · rw [hexec, decoded_some hsome, if_neg (not_not_intro hpos), if_neg (by rw [hok]; decide)]
      rfl
  · intro w hlen hcrc hlane hmuster hdev hport
    refine ⟨s.heard q w, ?_, rfl, heard_port s q w, fun i hi => ?_⟩
    · rw [exec_controlCodeword hq hup hlen, if_neg (not_not_intro hcrc), takeControl_credits hlane hmuster hdev hport]
    · intro old new
      have hnew : new = creditNow old (w.credits.getD i 0) := heard_seen s hlen hi
      rw [hnew]
      exact creditNow_spec ..
  · intro w hlen hcrc
    rw [exec_controlCodeword hq hup hlen, if_pos hcrc]
    rfl
  · exact fun slot wl b => swapReq_spec hq hup b
  · exact fun x => swapAck_spec hq hup
  · exact fun x rest => swapSwitch_tx hq hup
  · exact fun x => swapSwitch_rx hq hup
  · intro p asks lost
    have hlost {i : Instr} {u : State} (hi : s.health q true k ≠ 3 → exec i s = .next (u.failWl q k 1))
        (hu : Loses s q k → Loses u q k) (hasks : (u.port q).asked = (s.port q).asked) (hgot : (u.port q).got = (s.port q).got)
        (hspare : u.spare q true = s.spare q true) : lost i := by
      intro h3 hslot hsp hother hunused haway
      obtain ⟨hhealth, hlane, hask⟩ := (hu ⟨hup, hfree, hk, h3, hslot, hsp, hother, hunused, haway⟩).spec 1
      rw [hspare] at hask
      exact ⟨_, hi h3, hhealth, hlane, hask.from hasks hgot⟩
    refine ⟨hlost (fun _ => exec_laserOut hq hk) id rfl rfl rfl, fun h1 => hlost (fun h3 => exec_pilotToneCheck_none hq hk hup h3 h1) id rfl rfl rfl,
      fun hcorr => ?_, fun hcorr => ?_, fun hcfg hcal => ⟨fun hhealth => ?_, fun hhealth hslot hspare hother hunused hgood hasked => ?_⟩,
      fun hhealth => ⟨fun haway => ?_, fun hfew => ?_⟩, fun hhealth => ⟨?_, fun x hx hwrong hslots => ?_⟩, fun hlit => ?_, fun i haway hhealth hclaims => ?_⟩
    · refine hlost (u := s.newWindow q) (fun _ => ?_) Loses.newWindow (by rw [newWindow_port]) (by rw [newWindow_port])
        (lane_congr (State.modPort_regs ..) ..)
      rw [exec_serWindowExpiry hq, hcorr, serWindow_one hk (Nat.lt_succ_self _)]
      rfl
    · refine ⟨s.newWindow q, ?_, rfl, ?_⟩
      · rw [exec_serWindowExpiry hq, hcorr]
        rfl
      · rw [newWindow_port, ← hcorr]
    · exact ⟨s.calStep q k, exec_level1Calibration_skips hq hup hfree hcfg hcal hhealth, rfl, port_modPort_same ..⟩
    · have hexec := exec_level1Calibration_takes hq hup hfree hcfg hcal hhealth hslot hspare hunused hgood hasked
      have hport : ((s.setHealth q true k 1).setSpareFor q true 0).port q = s.port q := by
        rw [State.setSpareFor, setLane_port, State.setHealth, setLane_port]
      have hregs : ((((s.setHealth q true k 1).setSpareFor q true 0).askSwap q 0 (s.spare q true) false).calStep q k).regs =
          ((s.setHealth q true k 1).setSpareFor q true 0).regs := (State.modPort_regs ..).trans (askSwap_regs ..)
      obtain ⟨d, h8, hlt, hask⟩ := (askSwap_asks ((s.setHealth q true k 1).setSpareFor q true 0) q 0 (s.spare q true) false).from (u := s)
        (by rw [hport]) (by rw [hport])
      refine ⟨_, hexec, ?_, ?_, ?_, d, h8, hlt, ?_⟩
      · rw [health_congr hregs, health_setSpareFor, health_setHealth_same s q true hk (by decide)]
      · rw [lane_congr hregs, State.setSpareFor, lane_setLane_same _ _ _ (by decide)]
        rfl
      · rw [State.calStep, port_modPort_same]
      · rw [State.calStep, port_modPort_same]
        exact hask
    · have hport : (s.confirmed q k).port q =
          { s.port q with sweeps := Sparse.set 0 (s.port q).sweeps k 0, wrong := Sparse.set 0 (s.port q).wrong k 0 } := port_modPort_same ..
      obtain ⟨hgood, hsame⟩ := goodWl_spec (s.confirmed q k) q hk (by rw [hport]; exact haway)
      refine ⟨_, exec_ringSweepComplete hq hk hfree hhealth, hgood, ?_, ?_⟩ <;> rw [hsame, hport]
      · dsimp only
        rw [Sparse.get_set_same]
      · dsimp only
        rw [Sparse.get_set_same]
    · refine ⟨_, exec_ringSweepComplete_not hq hk hfree hhealth hfew, rfl, ?_⟩
      rw [port_modPort_same]
      dsimp only
      rw [Sparse.get_set_same]
    · refine ⟨_, exec_pilotToneCheck_own hq hk hup hhealth, rfl, ?_⟩
      rw [port_modPort_same]
      dsimp only
      rw [Sparse.get_set_same]
    · refine ⟨_, exec_pilotToneCheck_wrong hq hk hup hfree hhealth hx hwrong hslots, ?_⟩
      rw [State.health, lane_hthLog]
      exact health_setHealth_same _ q true hk (by decide)
    · refine ⟨_, exec_laserFailure (by omega) hk hfree hlit, ?_, fun i hi => laserLosts_health _ _ hk hi⟩
      rw [laserLosts_rbit, laserDark_rbit s _ hk]
    · refine ⟨_, exec_ringSetpointReturn hq hup haway hhealth hclaims, ?_, (askSwap_asks ..).from ?_ ?_⟩
      · rw [health_congr (askSwap_regs ..), health_setHealth_same s q true hk (by decide)]
      · rw [State.setHealth, setLane_port]
      · rw [State.setHealth, setLane_port]

end Sys2Proof.Machine

/-! SUPPORT. A sequenced packet is taken, performed and answered at the NI (R407, R410, R426, R433 to R439, R448, R471). -/

namespace Sys2Proof.Machine

variable {s t u v : State} {p : Packet} {w : Set Nat} {i : Nat}

/-! ### The books of the NI -/

/-- `t` is `s` but for the NI's own books, the queues of the slices that hold no answers of share `i`, the registers of `w`, and what a
log entry changes. -/
structure Books (i : Nat) (w : Set Nat) (s t : State) : Prop where
  log   : LogOnly { s with ni := t.ni, rtr := t.rtr } t
  regs  : RegsOutside w s t
  proc  : t.ni.proc = s.ni.proc
  lines : t.ni.lines = s.ni.lines
  queue : t.queue i (qInject 2) = s.queue i (qInject 2)

theorem Books.refl (s : State) : Books i w s s := ⟨.refl s, .refl s, rfl, rfl, rfl⟩

theorem Books.trans (h : Books i w s t) (h' : Books i w t u) : Books i w s u where
  log := by
    have hlog : LogOnly { s with ni := u.ni, rtr := u.rtr } { t with ni := u.ni, rtr := u.rtr } := by
      unfold LogOnly
      rw [h.log.eq]
    exact hlog.trans h'.log
  regs := h.regs.trans h'.regs
  proc := h'.proc.trans h.proc
  lines := h'.lines.trans h.lines
  queue := h'.queue.trans h.queue

theorem Books.ite {c : Prop} [Decidable c] (h : Books i w s t) (h' : Books i w s u) : Books i w s (if c then t else u) := by
  split
  · exact h
  · exact h'

theorem Books.of_log (h : LogOnly s t) (hregs : RegsOutside w s t) : Books i w s t where
  log := by rw [h.ni, h.rtr]; exact h
  regs := hregs
  proc := by rw [h.ni]
  lines := by rw [h.ni]
  queue := h.queue i _

theorem Books.setNi (s : State) {n : Ni} (hproc : n.proc = s.ni.proc := by rfl) (hlines : n.lines = s.ni.lines := by rfl) :
    Books i w s (s.setNi n) := ⟨.refl _, .of_regs rfl, hproc, hlines, rfl⟩

theorem Books.mono {w' : Set Nat} (h : Books i w s t) (hw : w ⊆ w') : Books i w' s t := ⟨h.log, h.regs.mono hw, h.proc, h.lines, h.queue⟩

section
variable (h : Books i w s t)
include h

theorem Books.store : t.store = s.store := h.log.store
theorem Books.dram : t.dram = s.dram := h.log.dram
theorem Books.scratch : t.scratch = s.scratch := h.log.scratch
theorem Books.fold : t.fold = s.fold := h.log.fold
theorem Books.inter : t.inter = s.inter := h.log.inter
theorem Books.rst : t.rst = s.rst := h.log.rst
theorem Books.kiln : t.kiln = s.kiln := h.log.kiln

theorem Books.lineSt (a : Nat) : t.lineSt a = s.lineSt a := by rw [State.lineSt, h.lines, State.lineSt]

end

/-- The registers of the NI's books. -/
def bookRegs : Set Nat := {Reg.niReplay.addr 0 0, Reg.niCntA.addr 0 0, Reg.niCntB.addr 0 0, Reg.niFaultInfo.addr 0 0, Reg.niFaultAddr.addr 0 0,
  Reg.drvEvtStatus.addr 0 0}

theorem not_bookRegs {r : Reg} (h : r = .drvMusterStatus ∨ r = .drvShadowStatus ∨ r = .drvShadowCtrl ∨ r = .drvReady) : r.addr 0 0 ∉ bookRegs := by
  obtain rfl | rfl | rfl | rfl := h <;> simp [bookRegs, Reg.addr, Reg.row, Block.base]

section
variable (h : Books i bookRegs s t)
include h

theorem Books.fenced : t.fenced = s.fenced := by rw [State.fenced, h.regs.fld (not_bookRegs (.inl rfl)), State.fenced]

theorem Books.isShadow : t.isShadow = s.isShadow := by
  rw [State.isShadow, h.regs.fld (not_bookRegs (.inr (.inl rfl))), h.regs.rbit (not_bookRegs (.inr (.inr (.inl rfl)))), State.isShadow]

theorem Books.flockQuiet : t.flockQuiet = s.flockQuiet := by
  funext f
  rw [State.flockQuiet, State.pastureReady, h.regs.rbit (not_bookRegs (.inr (.inr (.inr rfl)))), h.rst, State.flockQuiet, State.pastureReady]

end

/-! ### What keeps the books -/

theorem setRx_books (s : State) (src : Nat) (r : RxRec) : Books i w s (s.setRx src r) := .setNi s

theorem takeAck_books (s : State) (p : Packet) : Books i w s (s.takeAck p) := .ite ((setRx_books ..).trans (.setNi _)) (.refl s)

theorem storeReplay_books (s : State) (src seq st x : Nat) : Books i w s (s.storeReplay src seq st x) := .setNi s

theorem setFld_books (s : State) {r : Reg} {a b : Nat} (h : r.addr a b ∈ w) (hi lo x : Nat) : Books i w s (s.setFld r a b hi lo x) :=
  .of_log (((RegsOnly.refl s).setFld r a b hi lo x).logOnly) (setFld_outside h ..)

theorem takeReplay_books (s : State) (src seq share : Nat) (pool : Bool) : Books i bookRegs s (s.takeReplay src seq share pool) :=
  (Books.setNi s).trans (setFld_books _ (.inl rfl) ..)

theorem logSent_books (s : State) (p : Packet) (st : Nat) : Books i bookRegs s (s.logSent p st) := by
  refine .ite (.refl s) (.of_log (niLog_logOnly ..) ((log_outside ..).mono ?_))
  rintro a (rfl | rfl | rfl) <;> simp [bookRegs]

theorem takeEject_books (s : State) (p : Packet) : Books (s.ejectShare p) w s (s.takeEject p) where
  log := .refl _
  regs := .of_regs rfl
  proc := rfl
  lines := rfl
  queue := queue_setQueue_ne s _ (by unfold qEject qInject; omega)

/-! ### Answers -/

/-- `t` agrees with `s` in what an answer from share `i` turns on. -/
structure Fronts (i : Nat) (s t : State) : Prop where
  proc   : t.ni.proc = s.ni.proc
  queue  : t.queue i (qInject 2) = s.queue i (qInject 2)
  inter  : t.inter = s.inter
  fenced : t.fenced = s.fenced

theorem Fronts.trans (h : Fronts i s t) (h' : Fronts i t u) : Fronts i s u :=
  ⟨h'.proc.trans h.proc, h'.queue.trans h.queue, h'.inter.trans h.inter, h'.fenced.trans h.fenced⟩

theorem Books.fronts (h : Books i w s t) (hw : Reg.drvMusterStatus.addr 0 0 ∉ w) : Fronts i s t :=
  ⟨h.proc, h.queue, h.inter, by rw [State.fenced, h.regs.fld hw, State.fenced]⟩

/-- `t` agrees with `s` in the memories, the lines, the packets in processing entries and the kiln. -/
structure SameContents (s t : State) : Prop where
  store   : t.store = s.store
  dram    : t.dram = s.dram
  scratch : t.scratch = s.scratch
  lines   : t.ni.lines = s.ni.lines
  proc    : t.ni.proc = s.ni.proc
  kiln    : t.kiln = s.kiln

theorem SameContents.trans (h : SameContents s t) (h' : SameContents t u) : SameContents s u :=
  ⟨h'.store.trans h.store, h'.dram.trans h.dram, h'.scratch.trans h.scratch, h'.lines.trans h.lines, h'.proc.trans h.proc, h'.kiln.trans h.kiln⟩

theorem Books.sameContents (h : Books i w s t) : SameContents s t := ⟨h.store, h.dram, h.scratch, h.lines, h.proc, h.kiln⟩

theorem SameContents.lineSt (h : SameContents s t) (a : Nat) : t.lineSt a = s.lineSt a := by rw [State.lineSt, h.lines, State.lineSt]

theorem ejectShare_congr (h : t.inter = s.inter) (p : Packet) : t.ejectShare p = s.ejectShare p := by
  have hstack : t.stackOf = s.stackOf := by
    funext a
    rw [State.stackOf, h, State.stackOf]
  unfold State.ejectShare
  rw [hstack]

theorem inject_sameContents (s : State) (share : Nat) (q : Packet) : SameContents s (s.inject share q) := ⟨rfl, rfl, rfl, rfl, rfl, rfl⟩

theorem SameContents.refl (s : State) : SameContents s s := ⟨rfl, rfl, rfl, rfl, rfl, rfl⟩

theorem respond_sameContents (s : State) (p : Packet) (st : Nat) (bs : List Byte) : SameContents s (s.respond p st bs) := by
  unfold State.respond
  split
  · exact .refl s
  · exact inject_sameContents ..

/-- The answer of a device that is not fenced joins the answers of the packet's share. -/
theorem respond_answered (h : Fronts (s.ejectShare p) s u) (hfence : s.fenced = false) (st : Nat) (bs : List Byte) :
    s.Answered (u.respond p st bs) p st bs := by
  have hcls : (u.packet p.src 0x20 false st p.share p.seq.toNat 0 0 p.tag 0 0 0 bs).cls = 2 := rfl
  have hq := u.queue_inject (s.ejectShare p) (u.packet p.src 0x20 false st p.share p.seq.toNat 0 0 p.tag 0 0 0 bs)
  rw [hcls, h.queue] at hq
  refine ⟨pktSigned (u.packet p.src 0x20 false st p.share p.seq.toNat 0 0 p.tag 0 0 0 bs), ?_, rfl, rfl, rfl, ?_, rfl, rfl⟩
  · rw [State.respond, h.fenced, hfence, if_neg Bool.false_ne_true, ejectShare_congr h.inter]
    exact hq
  · show BitVec.ofNat 32 p.seq.toNat = p.seq
    rw [BitVec.ofNat_toNat, BitVec.setWidth_eq]

theorem muster_not_bookRegs : Reg.drvMusterStatus.addr 0 0 ∉ bookRegs := not_bookRegs (.inl rfl)

theorem Answered.congr {st : Nat} {bs : List Byte} (h : s.Answered t p st bs)
    (hq : u.queue (s.ejectShare p) (qInject 2) = t.queue (s.ejectShare p) (qInject 2)) : s.Answered u p st bs := by
  obtain ⟨q, hqueue, hrest⟩ := h
  exact ⟨q, hq.trans hqueue, hrest⟩

/-- An answer behind the books. -/
theorem books_respond_answered (h : Fronts (s.ejectShare p) s u) (hbooks : Books (s.ejectShare p) bookRegs u v) (hfence : s.fenced = false)
    (st : Nat) (bs : List Byte) : s.Answered (v.respond p st bs) p st bs ∧ SameContents u (v.respond p st bs) :=
  ⟨respond_answered (h.trans (hbooks.fronts muster_not_bookRegs)) hfence st bs, hbooks.sameContents.trans (respond_sameContents ..)⟩

theorem finishPkt_answered (h : Fronts (s.ejectShare p) s u) (hfence : s.fenced = false) (st : Nat) (bs : List Byte) :
    s.Answered (u.finishPkt p st bs) p st bs ∧ SameContents u (u.finishPkt p st bs) :=
  books_respond_answered h ((setRx_books ..).trans ((storeReplay_books ..).trans (logSent_books ..))) hfence st bs

theorem answerDup_answered (h : Fronts (s.ejectShare p) s u) (hfence : s.fenced = false) (st : Nat) (bs : List Byte) :
    s.Answered (u.answerDup p st bs) p st bs ∧ SameContents u (u.answerDup p st bs) :=
  books_respond_answered h (logSent_books ..) hfence st bs

/-- The acknowledgement that a packet carries, and what waits in processing entries, come after its answer. -/
theorem Answered.after {st : Nat} {bs : List Byte} (h : s.Answered t p st bs) (hsame : SameContents u t) (hproc : u.ni.proc = []) :
    s.Answered (t.takeAck p).retryProc p st bs ∧ SameContents u (t.takeAck p).retryProc := by
  have hbooks : Books (s.ejectShare p) bookRegs t (t.takeAck p) := takeAck_books t p
  have hsame' := hsame.trans hbooks.sameContents
  rw [retryProc_idle (hsame'.proc.trans hproc)]
  exact ⟨Answered.congr h hbooks.queue, hsame'⟩

/-! ### Arrival -/

theorem runPkt_done {share : Nat} {st : Nat} {bs : List Byte} (h : s.perform false p = (t, .done st bs)) :
    s.runPkt share false p = t.finishPkt p st bs := by
  unfold State.runPkt
  rw [h]
  rfl

theorem runPkt_dup {share : Nat} {st : Nat} {bs : List Byte} (h : s.perform false p = (t, .done st bs)) :
    s.runPkt share true p = t.answerDup p st bs := by
  unfold State.runPkt
  rw [h]
  rfl

/-- A sequenced packet that its share takes. -/
structure Arrives (s : State) (p : Packet) : Prop where
  up      : s.niUp = true
  room    : s.injectRoom (s.ejectShare p) 2 = true
  forward : s.mustForward p = false

theorem Arrives.bad (h : Arrives s p) (hok : pktOk p = false) : s.arrivePkt p = (s.takeEject p).incFld .niCntA 0 0 63 32 := by
  obtain ⟨hbit, hfold⟩ := Bool.and_eq_true_iff.mp h.up
  unfold State.arrivePkt
  rw [hbit, h.room, h.forward, hok, if_neg (by decide), if_neg (not_isNone hfold), if_neg (by rw [Bool.false_and]; decide)]
  rfl

theorem Arrives.good (h : Arrives s p) (hok : pktOk p = true) (hjob : p.jobTag.toNat = s.jobTag) (hfence : s.fenced = false) :
    s.arrivePkt p = ((s.takeEject p).classifyPkt p).retryProc := by
  obtain ⟨hbit, hfold⟩ := Bool.and_eq_true_iff.mp h.up
  have hjob' : p.jobTag.toNat = (s.takeEject p).jobTag := hjob
  have hfence' : (s.takeEject p).fenced = false := hfence
  unfold State.arrivePkt
  rw [hbit, h.room, h.forward, hok, if_neg (by decide), if_neg (not_isNone hfold), if_neg (by rw [Bool.false_and]; decide)]
  dsimp only
  rw [if_neg (by decide), if_neg (not_not_intro hjob'), hfence', if_neg Bool.false_ne_true]

theorem classifyPkt_new (h : (s.rx p.src).classify p.epoch.toNat p.seq.toNat = .new) : s.classifyPkt p = (s.takeNew p).takeAck p := by
  rw [State.classifyPkt, h]

theorem classifyPkt_counted (h : (s.rx p.src).classify p.epoch.toNat p.seq.toNat = .inProgress ∨
    (s.rx p.src).classify p.epoch.toNat p.seq.toNat = .acknowledged) : s.classifyPkt p = (s.incFld .niCntB 0 0 63 32).takeAck p := by
  rcases h with h | h <;> rw [State.classifyPkt, h]

theorem classifyPkt_answered (h : (s.rx p.src).classify p.epoch.toNat p.seq.toNat = .answered) : s.classifyPkt p = (s.answerAgain p).takeAck p := by
  rw [State.classifyPkt, h]

theorem classifyPkt_stale (h : (s.rx p.src).classify p.epoch.toNat p.seq.toNat = .stale) :
    s.classifyPkt p = (s.logSent p stSeqStale).respond p stSeqStale (if p.op = 0x03 then List.replicate 8 0 else []) := by
  rw [State.classifyPkt, h]

/-- A New packet that does not wait for its turn is performed behind the books. -/
theorem takeNew_runs (hflag : p.flag = false) (hroom : p.op = 0x02 ∨ (s.ni.replayRoom (s.ejectShare p)).isSome = true) :
    ∃ u, Books i bookRegs s u ∧ s.takeNew p = u.runPkt (s.ejectShare p) false p := by
  have hearly : (p.flag && (s.rx p.src).exp != p.seq.toNat) = false := by rw [hflag, Bool.false_and]
  obtain ⟨pool, hpool⟩ : ∃ pool, (if p.op = 0x02 then some false else s.ni.replayRoom (s.ejectShare p)) = some pool := by
    by_cases hop : p.op = 0x02
    · exact ⟨false, if_pos hop⟩
    · rw [if_neg hop]
      exact Option.isSome_iff_exists.mp (hroom.resolve_left hop)
  let b : State := s.setRx p.src ((s.rx p.src).receive p.epoch.toNat p.seq.toNat)
  refine ⟨(if p.op = 0x02 then b else b.takeReplay p.src p.seq.toNat (s.ejectShare p) pool).takeAck p, ?_, ?_⟩
  · have hb : Books i bookRegs s b := setRx_books ..
    exact (Books.ite hb (hb.trans (takeReplay_books ..))).trans (takeAck_books ..)
  · unfold State.takeNew
    dsimp only
    rw [hpool, hearly]
    rfl

/-- A flagged packet ahead of its turn is held (R448, R449). -/
theorem takeNew_holds (hop : p.op = 0x01) (hflag : p.flag = true) (hexp : (s.rx p.src).exp ≠ p.seq.toNat) {pool hold : Bool}
    (hpool : s.ni.replayRoom (s.ejectShare p) = some pool) (hhold : s.ni.holdRoom (s.ejectShare p) = some hold) :
    Books i bookRegs s (s.takeNew p) ∧ (s.takeNew p).ni.held = s.ni.held ++ [{ p := p, share := s.ejectShare p, pool := hold }] := by
  have hearly : (p.flag && (s.rx p.src).exp != p.seq.toNat) = true := by rw [hflag, Bool.true_and, bne_iff_ne]; exact hexp
  let b : State := s.setRx p.src ((s.rx p.src).receive p.epoch.toNat p.seq.toNat)
  let r : State := b.takeReplay p.src p.seq.toNat (s.ejectShare p) pool
  have hop' : ¬ p.op = 0x02 := by omega
  have hnew : s.takeNew p = r.setNi { r.ni with held := r.ni.held ++ [{ p := p, share := s.ejectShare p, pool := hold }] } := by
    unfold State.takeNew
    simp only [if_neg hop', hpool, hearly, if_true, hhold]
    rfl
  have hr : Books i bookRegs s r := (setRx_books ..).trans (takeReplay_books ..)
  rw [hnew]
  have hheld : r.ni.held = s.ni.held := by
    show (b.takeReplay p.src p.seq.toNat (s.ejectShare p) pool).ni.held = _
    rw [State.takeReplay, State.setFld_ni]
    rfl
  exact ⟨hr.trans (.setNi r), by rw [State.setNi_ni, hheld]⟩

/-- A packet that the NI performs at once is answered with what performing it gives. -/
theorem Admits.answered (h : s.Admits p) {st : Nat} {bs : List Byte} {P : State → Prop}
    (hperform : ∀ u, Books (s.ejectShare p) bookRegs s u → ∃ v, u.perform false p = (v, .done st bs) ∧ Fronts (s.ejectShare p) s v ∧ P v) :
    ∃ v, s.Answered (s.arrivePkt p) p st bs ∧ SameContents v (s.arrivePkt p) ∧ P v := by
  obtain ⟨hup, hroom, hforward, hok, hjob, -, -, hfence, -, hnew, hflag, hreplay, hproc⟩ := h
  have heject : Books (s.ejectShare p) bookRegs s (s.takeEject p) := takeEject_books s p
  obtain ⟨u, hu, htake⟩ := takeNew_runs (s := s.takeEject p) (i := s.ejectShare p) hflag hreplay
  obtain ⟨v, hv, hfronts, hP⟩ := hperform u (heject.trans hu)
  obtain ⟨hans, hsame⟩ := finishPkt_answered hfronts hfence st bs
  obtain ⟨hans', hsame'⟩ := Answered.after hans hsame (hfronts.proc.trans hproc)
  refine ⟨v, ?_, ?_, hP⟩ <;> rw [Arrives.good ⟨hup, hroom, hforward⟩ hok hjob hfence, classifyPkt_new (s := s.takeEject p) hnew, htake, runPkt_done hv]
  · exact hans'
  · exact hsame'

end Sys2Proof.Machine

/-! SUPPORT. What a packet's operation does to a flock store, and what it answers (O45: R464 to R467, R487, R499 to R503). -/

namespace Sys2Proof.Machine

variable {s t u v : State} {p : Packet} {i : Nat}

/-! ### Mirroring (R706) -/

/-- The registers that the mirror stream writes. -/
def mirrorRegs : Set Nat := {Reg.drvShadowStatus.addr 0 0, Reg.drvEvtStatus.addr 0 0}

theorem muster_not_mirrorRegs : Reg.drvMusterStatus.addr 0 0 ∉ mirrorRegs := by simp [mirrorRegs, Reg.addr, Reg.row, Block.base]

theorem niAsk_books (s : State) (r : NiReq) : Books i mirrorRegs s (s.niAsk r) := ⟨.refl _, .of_regs rfl, rfl, rfl, rfl⟩

theorem mirrorRec_books (s : State) (a : Nat) (bs : List Byte) : Books i mirrorRegs s (s.mirrorRec a bs) :=
  .ite (.refl s) (.ite ((setFld_books s (.inl rfl) ..).trans (.of_log (event_logOnly ..) (event_outside (.inr rfl) ..))) (niAsk_books ..))

theorem mirrorWrite_books (n : Nat) : ∀ (s : State) (a : Nat) (bs : List Byte), Books i mirrorRegs s (s.mirrorWrite n a bs) := by
  induction n with
  | zero => exact fun s _ _ => .refl s
  | succ n ih => exact fun s a bs => .ite (.refl s) ((Books.ite (.refl s) (mirrorRec_books ..)).trans (ih ..))

theorem mirrored_books (s : State) (a : Nat) (bs : List Byte) : Books i mirrorRegs s (s.mirrored a bs) := mirrorWrite_books ..

theorem wrStoreAt_fronts (s : State) (a : Nat) (bs : List Byte) : Fronts i s (s.wrStoreAt a bs) := ⟨rfl, rfl, rfl, rfl⟩

/-- A write of a flock store with its mirror. -/
theorem written_fronts (s : State) (x a : Nat) (bs bs' : List Byte) : Fronts i s ((s.wrStoreAt x bs).mirrored a bs') :=
  (wrStoreAt_fronts ..).trans ((mirrored_books ..).fronts muster_not_mirrorRegs)

theorem written_store (s : State) (x a : Nat) (bs bs' : List Byte) :
    ((s.wrStoreAt x bs).mirrored a bs').store = Sparse.writeBytes s.store x bs := (mirrored_books (i := 0) ..).store

/-! ### The operations -/

/-- A packet that is performed: well formed, and the device no shadow. -/
structure Performs (s : State) (p : Packet) : Prop where
  form   : pktWellFormed p = true
  shadow : s.isShadow = false

section
variable (h : Performs s p) (again : Bool)
include h

theorem Performs.perform_write (hop : p.op = 0x01) (hspace : p.space = 0) : s.perform again p = s.pktWrite again p := by
  have hwrite : s.pktWriteOp again p = s.pktWrite again p := by
    unfold State.pktWriteOp
    simp only [hspace, h.shadow, Bool.false_and, Bool.false_eq_true, if_false]
  unfold State.perform
  simp only [h.form, h.shadow, hop, Bool.not_true, Bool.false_eq_true, false_and, if_false, hwrite]

theorem Performs.perform_read (hop : p.op = 0x02) (hspace : p.space = 0) : s.perform again p = s.pktRead again p := by
  have hread : s.pktReadOp again p = s.pktRead again p := by
    unfold State.pktReadOp
    simp only [hspace]
  unfold State.perform
  simp only [h.form, h.shadow, hop, Bool.not_true, Bool.false_eq_true, false_and, if_false, hread]

theorem Performs.perform_atomic (hop : p.op = 0x03) : s.perform again p = s.pktAtomic again p := by
  unfold State.perform
  simp only [h.form, h.shadow, hop, Bool.not_true, Bool.false_eq_true, false_and, if_false]

theorem Performs.perform_signal (hop : p.op = 0x04) : s.perform again p = s.pktSignal p := by
  unfold State.perform
  simp only [h.form, h.shadow, hop, Bool.not_true, Bool.false_eq_true, false_and, if_false]

theorem Performs.perform_cohFwd (hop : p.op = 0x10) : s.perform again p = (s.pktInvalidate p.offset, .done stOk []) := by
  unfold State.perform
  simp only [h.form, h.shadow, hop, Bool.not_true, Bool.false_eq_true, false_and, if_false]

end

/-- An access of a flock store that nothing keeps. -/
structure Reaches (s : State) (a n : Nat) : Prop where
  mem   : memOf a n = some .store
  quiet : (flocksOf .store a n).find? s.flockQuiet = none

theorem Reaches.congr {a n : Nat} (h : Reaches s a n) (hquiet : u.flockQuiet = s.flockQuiet) : Reaches u a n := ⟨h.mem, hquiet ▸ h.quiet⟩

theorem pktWrite_store (h : Reaches s p.offset p.payload.length) :
    s.pktWrite false p = ((s.wrStoreAt (p.offset - storeBase) p.payload).mirrored p.offset p.payload, .done stOk []) := by
  have htry := State.tryWriteMem_store (s := s) (r := pktReq p) 0x3 (bs := p.payload) h.mem h.quiet
  have hne : ¬ (Mem.store = .stacked ∧ s.foreignLine p.offset p.payload.length = true) := fun h => nomatch h.1
  have hne' : ¬ (Mem.store = .stacked ∧ (!false) = true ∧ (s.busyLine p.offset p.payload.length || s.stackShort p.offset true) = true) :=
    fun h => nomatch h.1
  unfold State.pktWrite
  dsimp only
  rw [h.mem]
  dsimp only
  rw [if_neg hne, if_neg hne', if_neg (by decide), htry]
  rfl

theorem pktRead_store (h : Reaches s p.offset (readCount p)) :
    s.pktRead false p = (s, .done stOk (Sparse.readBytes s.store (p.offset - storeBase) (readCount p))) := by
  have htry : s.tryReadMem (pktReq p) 0x3 (readCount p) = (s, some (stOk, Sparse.readBytes s.store (p.offset - storeBase) (readCount p))) :=
    State.tryReadMem_store (r := pktReq p) h.mem h.quiet
  unfold State.pktRead
  dsimp only
  rw [h.mem]
  dsimp only
  rw [if_neg (by simp), if_neg (by simp), htry]
  simp

theorem pktAtomic_store (hspace : p.space = 0) (halign : p.offset % 8 = 0) (h : Reaches s p.offset 8) :
    let old := Sparse.readBytes s.store (p.offset - storeBase) 8
    let new := leBytes 8 (atomicNew (atomicOp p) (ofLE old) p.w4.toNat p.w5.toNat)
    s.pktAtomic false p = ((s.wrStoreAt (p.offset - storeBase) new).mirrored p.offset new, .done stOk old) := by
  intro old new
  have hread := State.tryReadMem_store (s := s) (r := pktReq p) (rs := 0x3) (n := 8) h.mem h.quiet
  have hlen : new.length = 8 := leBytes_length ..
  have hwrite := State.tryWriteMem_store (s := s) (r := pktReq p) 0x3 (bs := new) (hlen ▸ h.mem) (hlen ▸ h.quiet)
  unfold State.pktAtomic
  dsimp only
  rw [if_neg (not_not_intro hspace), h.mem]
  dsimp only
  rw [if_neg (not_not_intro halign), if_neg (by decide), hread]
  show (((s.tryWriteMem (pktReq p) 0x3 new).1).mirrored p.offset new, Perf.done stOk old) = _
  rw [hwrite]
  rfl

theorem pktSignal_store {f off w : Nat} (hspace : p.space = 1) (hplace : sigPlace p.offset = some (.store f off)) (hquiet : s.flockQuiet f = false)
    (hadd : sigAdd (s.sigWord (.store f off)) (sext 48 (leAt p.payload 0 6)) = .ok w) :
    ∃ bs, s.pktSignal p = ((s.wrStore f off (leBytes 8 w)).mirrored p.offset bs, .done stOk []) := by
  refine ⟨leBytes 8 ((s.wrStore f off (leBytes 8 w)).sigWord (.store f off)), ?_⟩
  have hflock : (SigPlace.store f off).flock = f := rfl
  have hsignal : s.addSignal (.store f off) (sext 48 (leAt p.payload 0 6)) 0x2 none = (s.wrStore f off (leBytes 8 w), stOk) := by
    rw [State.addSignal, hadd]
    rfl
  unfold State.pktSignal
  dsimp only
  rw [if_neg (not_not_intro hspace), hplace]
  dsimp only
  rw [hflock, hquiet, if_neg Bool.false_ne_true, hsignal]
  rfl

theorem pktInvalidate_valid {a : Nat} (h : s.lineSt a = .valid) : s.pktInvalidate a = s.setLine a .inv := by
  rw [State.pktInvalidate, h]

theorem lineSt_setLine_same (s : State) (a : Nat) (x : LineSt) : (s.setLine a x).lineSt a = x := Sparse.get_set_same

theorem lineSt_setLine_ne (s : State) {a l : Nat} (h : l ≠ a) (x : LineSt) : (s.setLine a x).lineSt l = s.lineSt l := Sparse.get_set_ne h

theorem setLine_fronts (s : State) (a : Nat) (x : LineSt) : Fronts i s (s.setLine a x) := ⟨rfl, rfl, rfl, rfl⟩

/-! ### Packets that are admitted -/

theorem Admits.performs (h : s.Admits p) (hu : Books i bookRegs s u) : Performs u p := by
  obtain ⟨-, -, -, -, -, hform, -, -, hshadow, -⟩ := h
  exact ⟨hform, hu.isShadow.trans hshadow⟩

theorem pktWellFormed_len (h : pktWellFormed p = true) : p.len = p.payload.length := by
  unfold pktWellFormed at h
  simp only [Bool.and_eq_true, beq_iff_eq] at h
  exact h.1.2

/-- What an operation of Table 10.2 does to the device that takes it. -/
theorem exec_packet {op : Nat} {i : Instr} (he : ∀ s, exec i s = onPacket op p s fun s => s.arrivePkt p) (hop : p.op = op) (h : s.Admits p) :
    exec i s = .next (s.arrivePkt p) := by
  obtain ⟨-, -, -, -, -, hform, -⟩ := h
  rw [he, onPacket_next (pktWellFormed_len hform).symm hop]

theorem stored_frame {a x : Nat} {bs : List Byte} {m m' : SMap Byte} (h : m' = Sparse.writeBytes m a bs) (hx : x < a ∨ a + bs.length ≤ x) :
    Sparse.get 0 m' x = Sparse.get 0 m x := by rw [h, Sparse.get_writeBytes_outside hx]

/-- Settles O45, by what performing each operation does behind the books of the NI. -/
theorem packetsArePerformedAndAnswered : Obligations.PacketsArePerformedAndAnswered := by
  unfold Obligations.PacketsArePerformedAndAnswered
  intro s p h a at' calm
  have hform : pktWellFormed p = true := h.2.2.2.2.2.1
  have hlen := pktWellFormed_len hform
  refine ⟨fun hop hspace hcalm => ?_, fun hop hspace hcalm => ?_, fun hop hspace halign hcalm => ?_, fun f off w hop hspace hplace hquiet hadd => ?_,
    fun hop hline => ?_⟩
  · obtain ⟨v, hans, hsame, hv⟩ := Admits.answered h (st := stOk) (bs := [])
      (P := fun v => v.store = Sparse.writeBytes s.store (a - storeBase) p.payload) fun u hu =>
        ⟨_, ((Admits.performs h hu).perform_write false hop hspace).trans
          (pktWrite_store (Reaches.congr (s := s) (hlen ▸ ⟨hcalm.1, hcalm.2⟩) hu.flockQuiet)),
          (hu.fronts muster_not_bookRegs).trans (written_fronts ..), (written_store ..).trans (by rw [hu.store])⟩
    have hstore := hsame.store.trans hv
    refine ⟨_, exec_packet (fun _ => rfl) hop h, hans, ?_, fun x hx => stored_frame hstore (hlen ▸ hx)⟩
    show Sparse.readBytes (s.arrivePkt p).store (a - storeBase) p.len = _
    rw [hstore, hlen, Sparse.readBytes_writeBytes]
  · obtain ⟨v, hans, hsame, hv⟩ := Admits.answered h (st := stOk) (bs := at' s (readCount p)) (P := fun v => v.store = s.store) fun u hu =>
      ⟨u, ((Admits.performs h hu).perform_read false hop hspace).trans
        ((pktRead_store (Reaches.congr (s := s) ⟨hcalm.1, hcalm.2⟩ hu.flockQuiet)).trans (by rw [hu.store])),
        hu.fronts muster_not_bookRegs, hu.store⟩
    exact ⟨_, exec_packet (fun _ => rfl) hop h, hans, hsame.store.trans hv⟩
  · obtain ⟨v, hans, hsame, hv⟩ := Admits.answered h (st := stOk) (bs := at' s 8)
      (P := fun v => v.store = Sparse.writeBytes s.store (a - storeBase)
        (leBytes 8 (atomicNew (atomicOp p) (ofLE (at' s 8)) p.w4.toNat p.w5.toNat))) fun u hu =>
        ⟨_, ((Admits.performs h hu).perform_atomic false hop).trans
          ((pktAtomic_store hspace halign (Reaches.congr (s := s) ⟨hcalm.1, hcalm.2⟩ hu.flockQuiet)).trans (by rw [hu.store])),
          (hu.fronts muster_not_bookRegs).trans (written_fronts ..), (written_store ..).trans (by rw [hu.store])⟩
    have hstore := hsame.store.trans hv
    have hnew := leBytes_length 8 (atomicNew (atomicOp p) (ofLE (at' s 8)) p.w4.toNat p.w5.toNat)
    refine ⟨_, exec_packet (fun _ => rfl) hop h, hans, ?_, fun x hx => stored_frame hstore (hnew.symm ▸ hx)⟩
    have hread := Sparse.readBytes_writeBytes s.store (a - storeBase) (leBytes 8 (atomicNew (atomicOp p) (ofLE (at' s 8)) p.w4.toNat p.w5.toNat))
    rw [hnew, ← hstore] at hread
    exact hread
  · obtain ⟨v, hans, hsame, hv⟩ := Admits.answered h (st := stOk) (bs := [])
      (P := fun v => v.store = Sparse.writeBytes s.store (f * storeSize + off) (leBytes 8 w)) fun u hu => by
        have hword : u.sigWord (.store f off) = s.sigWord (.store f off) := by
          rw [State.sigWord, State.rdStore, hu.store]
          rfl
        obtain ⟨bs, hbs⟩ := pktSignal_store (s := u) hspace hplace ((congrFun hu.flockQuiet f).trans hquiet) (hword.symm ▸ hadd)
        exact ⟨_, ((Admits.performs h hu).perform_signal false hop).trans hbs, (hu.fronts muster_not_bookRegs).trans (written_fronts ..),
          (written_store ..).trans (by rw [hu.store])⟩
    refine ⟨_, exec_packet (fun _ => rfl) hop h, hans, ?_⟩
    have hread := Sparse.readBytes_writeBytes s.store (f * storeSize + off) (leBytes 8 w)
    rw [leBytes_length, ← hsame.store.trans hv] at hread
    rw [State.sigWord, State.rdStore, hread, ofLE_leBytes]
    rfl
  · obtain ⟨v, hans, hsame, hgone, hrest⟩ := Admits.answered h (st := stOk) (bs := [])
      (P := fun v => v.lineSt a = .inv ∧ ∀ l, l ≠ a → v.lineSt l = s.lineSt l) fun u hu =>
        ⟨u.setLine a .inv, ((Admits.performs h hu).perform_cohFwd false hop).trans (by rw [pktInvalidate_valid ((hu.lineSt a).trans hline)]),
          (hu.fronts muster_not_bookRegs).trans (setLine_fronts ..), lineSt_setLine_same ..,
          fun l hl => (lineSt_setLine_ne u hl _).trans (hu.lineSt l)⟩
    exact ⟨_, exec_packet (fun _ => rfl) hop h, hans, (hsame.lineSt a).trans hgone, fun l hl => (hsame.lineSt l).trans (hrest l hl)⟩

end Sys2Proof.Machine

/-! SUPPORT. Packets that arrive again, or not as they should (O46: R407, R410, R433 to R436, R439, R448, R449). -/

namespace Sys2Proof.Machine

variable {s t u : State} {p : Packet} {i : Nat}

/-! ### The SEQ of a packet that has been received (R433 to R436) -/

/-- A record that names an epoch, and in whose window a SEQ stands as received, or behind which it stands so far that it stays there for `n`
positions more. -/
structure RxRec.Past (r : RxRec) (epoch seq n : Nat) : Prop where
  inUse : r.inUse = true
  epoch : r.epoch = epoch
  exp   : r.exp < 2 ^ 32
  seen  : (seqDiff seq r.exp < 256 ∧ bit r.rcv (seqDiff seq r.exp) = true) ∨ 2 ^ 31 + n ≤ seqDiff seq r.exp

theorem RxRec.Past.not_new {r : RxRec} {epoch seq n : Nat} (h : r.Past epoch seq n) : r.classify epoch seq ≠ .new := by
  unfold RxRec.classify
  dsimp only
  rw [h.inUse, h.epoch, bne_self_eq_false, Bool.and_false, if_neg Bool.false_ne_true, if_neg]
  · split
    · exact fun h => nomatch h
    · split
      · split <;> exact fun h => nomatch h
      · exact fun h => nomatch h
  · rintro ⟨hlt, hnot⟩
    obtain ⟨-, hbit⟩ | hfar := h.seen
    · rw [hbit] at hnot
      cases hnot
    · omega

theorem bit_half (w i : Nat) : bit (w / 2) i = bit w (i + 1) := by rw [bit, bit, Nat.testBit_succ]

/-- A position further on, a SEQ stands one place nearer, or behind. -/
theorem seqDiff_step {seq exp : Nat} (hexp : exp < 2 ^ 32) : seqDiff seq exp = seqDiff seq ((exp + 1) % 2 ^ 32) + 1 ∨
    (seqDiff seq exp = 0 ∧ seqDiff seq ((exp + 1) % 2 ^ 32) = 2 ^ 32 - 1) := by
  unfold seqDiff
  omega

/-- EXP moves past positions without making a SEQ new. -/
theorem RxRec.Past.advance {epoch seq : Nat} (n : Nat) : ∀ {r : RxRec}, n ≤ 256 → r.Past epoch seq n → (r.advance n).Past epoch seq 0 := by
  induction n with
  | zero => exact fun _ h => h
  | succ n ih =>
    intro r hn h
    unfold RxRec.advance
    split
    · refine ih (by omega) ⟨h.inUse, h.epoch, Nat.mod_lt _ (by decide), ?_⟩
      show (seqDiff seq ((r.exp + 1) % 2 ^ 32) < 256 ∧ bit (r.rcv / 2) (seqDiff seq ((r.exp + 1) % 2 ^ 32)) = true) ∨
        2 ^ 31 + n ≤ seqDiff seq ((r.exp + 1) % 2 ^ 32)
      rw [bit_half]
      obtain hstep | ⟨hzero, hlast⟩ := seqDiff_step (seq := seq) h.exp
      · rw [← hstep]
        obtain ⟨hlt, hbit⟩ | hfar := h.seen
        · exact .inl ⟨by omega, hbit⟩
        · exact .inr (by omega)
      · exact .inr (by omega)
    · exact ⟨h.inUse, h.epoch, h.exp, h.seen.imp_right fun hfar => by omega⟩

/-- A record whose packet is new names the packet's epoch, if it names one, and has the SEQ in its window. -/
theorem RxRec.classify_new {r : RxRec} {epoch seq : Nat} (h : r.classify epoch seq = .new) :
    (r.inUse = true → r.epoch = epoch) ∧ seqDiff seq r.exp < 256 := by
  unfold RxRec.classify at h
  dsimp only at h
  split at h
  · cases h
  next hnot =>
    split at h
    next hwin => exact ⟨fun hin => by simpa [hin] using hnot, hwin.1⟩
    next => split at h <;> [cases h; (split at h <;> [(split at h <;> cases h); cases h])]

theorem RxRec.receive_past {r : RxRec} {epoch seq : Nat} (hexp : r.exp < 2 ^ 32) (h : r.classify epoch seq = .new) (n : Nat) :
    (r.receive epoch seq).Past epoch seq n := by
  obtain ⟨hepoch, hlt⟩ := classify_new h
  refine ⟨rfl, ?_, hexp, .inl ⟨hlt, bit_setBit_same ..⟩⟩
  show (if r.inUse = true then r.epoch else epoch) = epoch
  split
  · exact hepoch ‹_›
  · rfl

theorem RxRec.Past.retire {r : RxRec} {epoch seq : Nat} (h : r.Past epoch seq 256) : ((r.retire seq)).Past epoch seq 0 := by
  unfold RxRec.retire
  dsimp only
  split
  next hlt => exact RxRec.Past.advance 256 le_rfl ⟨h.inUse, h.epoch, h.exp, .inl ⟨hlt, bit_setBit_same ..⟩⟩
  next => exact ⟨h.inUse, h.epoch, h.exp, h.seen.imp_right fun hfar => by omega⟩

/-! ### Packets that come again -/

theorem exec_writeOrRead (hop : p.op = 0x01 ∨ p.op = 0x02) (hlen : p.payload.length = p.len) :
    (if p.op = 0x01 then exec (.write p) s else exec (.read p) s) = .next (s.arrivePkt p) := by
  obtain hop | hop := hop
  · rw [if_pos hop]
    show execWrite p s = _
    rw [execWrite, onPacket_next hlen hop]
  · rw [if_neg (by omega)]
    show execRead p s = _
    rw [execRead, onPacket_next hlen hop]

theorem answerAgain_replays (hop : p.op = 0x01) {x : Replay} (hstatus : x.status ≠ stMismatch)
    (hfind : s.ni.replay.find? (fun x => x.src == p.src && x.seq == p.seq.toNat && !x.pending) = some x) :
    s.answerAgain p = (s.logSent p x.status).respond p x.status [] := by
  unfold State.answerAgain
  rw [if_neg (by omega), hfind]
  dsimp only
  rw [if_neg (by rintro (h | h) <;> [omega; exact hstatus h])]

theorem answerAgain_reads (hop : p.op = 0x02) (hspace : p.space = 0) (h : Performs s p) (hreach : Reaches s p.offset (readCount p)) :
    s.answerAgain p = s.answerDup p stOk (Sparse.readBytes s.store (p.offset - storeBase) (readCount p)) := by
  unfold State.answerAgain
  rw [if_pos hop]
  exact runPkt_dup ((h.perform_read false hop hspace).trans (pktRead_store hreach))

theorem takeAck_held (s : State) (p : Packet) : (s.takeAck p).ni.held = s.ni.held := by
  unfold State.takeAck
  dsimp only
  split <;> rfl

/-! ### A flagged packet whose turn has come -/

theorem releaseFlags_none (s : State) (src n : Nat) (h : s.ni.held = []) : s.releaseFlags src n = s := by
  cases n with
  | zero => rfl
  | succ n =>
    rw [State.releaseFlags, State.dueFlag, h]
    rfl

theorem inject_held (s : State) (share : Nat) (q : Packet) : (s.inject share q).ni.held = s.ni.held := rfl

theorem storeReplay_held (s : State) (src seq st x : Nat) : (s.storeReplay src seq st x).ni.held = s.ni.held := rfl

theorem setRx_held (s : State) (src : Nat) (r : RxRec) : (s.setRx src r).ni.held = s.ni.held := rfl

theorem logSent_held (s : State) (p : Packet) (st : Nat) : (s.logSent p st).ni.held = s.ni.held := by
  unfold State.logSent
  split
  · rfl
  · rw [(niLog_logOnly ..).ni]

theorem respond_held (s : State) (p : Packet) (st : Nat) (bs : List Byte) : (s.respond p st bs).ni.held = s.ni.held := by
  unfold State.respond
  split
  · rfl
  · exact inject_held ..

theorem finishPkt_held (s : State) (p : Packet) (st : Nat) (bs : List Byte) : (s.finishPkt p st bs).ni.held = s.ni.held := by
  unfold State.finishPkt
  rw [respond_held, logSent_held, storeReplay_held, setRx_held]

/-- The one packet held, a COH_FWD whose turn it is, is performed and answered. -/
theorem flagHoldRelease_spec {x : Held} (hheld : s.ni.held = [x]) (hop : x.p.op = 0x10)
    (hline : s.lineSt x.p.offset = .valid) (hshadow : s.isShadow = false) (hfence : s.fenced = false) (hform : pktWellFormed x.p = true)
    (hexp : (s.rx x.p.src).exp = x.p.seq.toNat) (hroom : s.injectRoom x.share 2 = true) :
    ∃ t, exec (.flagHoldRelease x.p.src) s = .next t ∧ t.ni.held = [] ∧ s.Answered t x.p stOk [] ∧ t.lineSt x.p.offset = .inv := by
  let u : State := s.setNi { s.ni with held := [] }
  have hu : Books (s.ejectShare x.p) bookRegs s u := .setNi s
  let v : State := u.setLine x.p.offset .inv
  have hv : Fronts (s.ejectShare x.p) s v := (hu.fronts muster_not_bookRegs).trans (setLine_fronts ..)
  have hperform : u.perform false x.p = (v, .done stOk []) := by
    rw [Performs.perform_cohFwd ⟨hform, hu.isShadow.trans hshadow⟩ false hop, pktInvalidate_valid ((hu.lineSt _).trans hline)]
  have hdue : s.dueFlag x.p.src = some x := by
    rw [State.dueFlag, hheld, List.find?_cons_of_pos (by rw [beq_self_eq_true, hexp, beq_self_eq_true]; rfl)]
  have hgone : (v.finishPkt x.p stOk []).ni.held = [] := finishPkt_held ..
  obtain ⟨hans, hsame⟩ := finishPkt_answered hv hfence stOk []
  refine ⟨v.finishPkt x.p stOk [], ?_, hgone, hans, (hsame.lineSt _).trans (lineSt_setLine_same ..)⟩
  have hstep : s.releaseFlags x.p.src (1023 + 1) = v.finishPkt x.p stOk [] := by
    rw [State.releaseFlags, hdue]
    dsimp only
    rw [hroom, if_neg (by decide), hheld, List.erase_cons_head]
    show (State.releaseFlags (u.runPkt x.share false x.p) x.p.src 1023) = _
    rw [runPkt_done hperform, releaseFlags_none _ _ _ hgone]
  show execFlagHoldRelease x.p.src s = _
  rw [execFlagHoldRelease, hstep]

/-- Settles O46, by the window of a receive record and by what each class of Table 10.5 makes of a packet. -/
theorem repeatedAndEarlyPackets : Obligations.RepeatedAndEarlyPackets := by
  unfold Obligations.RepeatedAndEarlyPackets
  refine ⟨fun r epoch seq hexp _ hnew => ⟨((RxRec.receive_past hexp hnew 256).retire).not_new, (RxRec.receive_past hexp hnew 0).not_new⟩,
    fun s hup hproc => ⟨fun p hop hlen hroom hforward => ?_,
      fun x hheld hop hline hshadow hfence hform hexp _ hroom => flagHoldRelease_spec hheld hop hline hshadow hfence hform hexp hroom⟩⟩
  have harrives : Arrives s p := ⟨hup, hroom, hforward⟩
  have heject : Books (s.ejectShare p) bookRegs s (s.takeEject p) := takeEject_books s p
  have hfronts := heject.fronts muster_not_bookRegs
  have hproc0 : (s.takeEject p).ni.proc = [] := hproc
  intro run cls s0 kept
  have hrun : run = .next (s.arrivePkt p) := exec_writeOrRead hop hlen
  have hkept {t : State} (h : SameContents (s.takeEject p) t) : kept t := ⟨h.store, h.dram, h.scratch⟩
  refine ⟨fun hok => by rw [hrun, harrives.bad hok], fun hok hjob hfence => ?_⟩
  have hgood : run = .next ((s.takeEject p).classifyPkt p).retryProc := by rw [hrun, harrives.good hok hjob hfence]
  refine ⟨fun hcls => ?_, fun x hcls hop1 hfind hstatus => ?_, fun hcls hop2 hspace hform hshadow hmem hquiet => ?_, fun hcls => ?_,
    fun pool hold hcls hop1 hflag hexp hpool hhold => ?_⟩
  · have hnone : (((s.takeEject p).incFld .niCntB 0 0 63 32).takeAck p).ni.proc = [] :=
      (takeAck_books (i := 0) (w := ∅) ((s.takeEject p).incFld .niCntB 0 0 63 32) p).proc.trans hproc
    rw [hgood, classifyPkt_counted (s := s.takeEject p) hcls, retryProc_idle hnone]
  · obtain ⟨hans, hsame⟩ := books_respond_answered hfronts (logSent_books (s.takeEject p) p x.status) hfence x.status []
    obtain ⟨hans', hsame'⟩ := Answered.after hans hsame hproc0
    refine ⟨_, hgood, ?_, ?_⟩ <;> rw [classifyPkt_answered (s := s.takeEject p) hcls, answerAgain_replays (s := s.takeEject p) hop1 hstatus hfind]
    · exact hans'
    · exact hkept hsame'
  · obtain ⟨hans, hsame⟩ := answerDup_answered hfronts hfence stOk (Sparse.readBytes s.store (p.offset - storeBase) (readCount p))
    obtain ⟨hans', hsame'⟩ := Answered.after hans hsame hproc0
    have hagain := answerAgain_reads (s := s.takeEject p) hop2 hspace ⟨hform, heject.isShadow.trans hshadow⟩
      (Reaches.congr (s := s) ⟨hmem, hquiet⟩ heject.flockQuiet)
    rw [heject.store] at hagain
    refine ⟨_, hgood, ?_, ?_⟩ <;> rw [classifyPkt_answered (s := s.takeEject p) hcls, hagain]
    · exact hans'
    · exact hkept hsame'
  · obtain ⟨hans, hsame⟩ := books_respond_answered hfronts (logSent_books (s.takeEject p) p stSeqStale) hfence stSeqStale []
    have hstale : (s.takeEject p).classifyPkt p = ((s.takeEject p).logSent p stSeqStale).respond p stSeqStale [] := by
      rw [classifyPkt_stale (s := s.takeEject p) hcls, if_neg (by omega)]
    refine ⟨_, hgood, ?_, ?_⟩ <;> rw [hstale, retryProc_idle (hsame.proc.trans hproc0)]
    · exact hans
    · exact hkept hsame
  · obtain ⟨hbooks, hheld⟩ := takeNew_holds (s := s.takeEject p) (i := s.ejectShare p) hop1 hflag hexp hpool hhold
    have hack : Books (s.ejectShare p) bookRegs ((s.takeEject p).takeNew p) (((s.takeEject p).takeNew p).takeAck p) := takeAck_books ..
    have hall := hbooks.trans hack
    refine ⟨_, hgood, ?_, ?_⟩ <;> rw [classifyPkt_new (s := s.takeEject p) hcls, retryProc_idle (hall.proc.trans hproc0)]
    · rw [takeAck_held, hheld]
      rfl
    · exact hkept hall.sameContents

end Sys2Proof.Machine

/-! SUPPORT. Submissions to the kiln are queued and answered (O48: R523 to R527, R565, R566, R583, R584). -/

namespace Sys2Proof.Machine

variable {s t u v : State} {a st : Nat} {c : Group} {j : KJob} {x : KSub} {o : Origin}

/-! ### The answer of a submission -/

/-- `s` with other submissions that wait for their answers. -/
def State.withSubs (s : State) (l : List KSub) : State := s.setKiln { s.kiln with subs := l }

theorem withSubs_nil (h : s.kiln.subs = []) : s.withSubs [] = s := by
  rw [State.withSubs, ← h, State.setKiln]

/-- The event of a submission that failed changes logs and the free values that are used. -/
theorem klnEvent_rest (s : State) (st kind : Nat) (group seq : Option Nat) (addr : Nat) :
    (s.klnEvent st kind group seq addr).store = s.store ∧ (s.klnEvent st kind group seq addr).kiln = s.kiln ∧
      ∀ i j, (s.klnEvent st kind group seq addr).reg .klnSubmitResult i j = s.reg .klnSubmitResult i j := by
  have hlog (u : State) (ab : KAbort) (g q : Nat) : (u.klnLog st ab g q kind addr).store = u.store ∧ (u.klnLog st ab g q kind addr).kiln = u.kiln ∧
      ∀ i j, (u.klnLog st ab g q kind addr).reg .klnSubmitResult i j = u.reg .klnSubmitResult i j := by
    unfold State.klnLog
    dsimp only
    have hset : LogOnly u (if u.rbit .klnFaultInfo 0 0 63 then u else u.setReg .klnFaultDigest 0 0 (if kind = 1 ∧ ab.cause = 1 then ab.digest else 0)) ∧
        RegsOutside {Reg.klnFaultDigest.addr 0 0} u
          (if u.rbit .klnFaultInfo 0 0 63 then u else u.setReg .klnFaultDigest 0 0 (if kind = 1 ∧ ab.cause = 1 then ab.digest else 0)) := by
      split
      · exact ⟨.refl u, .refl u⟩
      · exact ⟨((RegsOnly.refl u).setReg ..).logOnly, setReg_outside (Set.mem_singleton _) ..⟩
    obtain ⟨hset, hreg⟩ := hset
    refine ⟨(log_logOnly ..).store.trans hset.store, (log_logOnly ..).kiln.trans hset.kiln, fun i j => ?_⟩
    rw [(log_outside ..).reg _ _ _ (by simp [Reg.addr, Reg.row, Block.base]), hreg.reg _ _ _ (by simp [Reg.addr, Reg.row, Block.base])]
  obtain ⟨hstore, hkiln, hreg⟩ := hlog s.bump { cause := 0, culprit := bits s.freeVal.toNat 13 0, detector := bits s.freeVal.toNat 27 14, digest := 0 }
    (group.getD (bits s.freeVal.toNat 49 44)) (seq.getD (bits s.freeVal.toNat 43 28))
  exact ⟨hstore, hkiln, hreg⟩

/-- KLN_SUBMIT_RESULT as a submission leaves it. -/
structure Shows (a st : Nat) (t : State) : Prop where
  status : t.fld .klnSubmitResult 0 0 59 56 = st
  addr   : t.fld .klnSubmitResult 0 0 47 0 = a
  valid  : t.rbit .klnSubmitResult 0 0 63 = true

theorem Shows.congr (h : Shows a st s) (hreg : t.reg .klnSubmitResult 0 0 = s.reg .klnSubmitResult 0 0) : Shows a st t :=
  ⟨by rw [State.fld, hreg]; exact h.status, by rw [State.fld, hreg]; exact h.addr, by rw [State.rbit, hreg]; exact h.valid⟩

theorem submitResult_spec (s : State) (ha : a < 2 ^ 48) (hst : st < 16) (group : Option Nat) :
    Shows a st (s.submitResult a st group) ∧ (s.submitResult a st group).store = s.store ∧ (s.submitResult a st group).kiln = s.kiln := by
  let n := s.fld .klnSubmitResult 0 0 55 48
  let m : State := s.setReg .klnSubmitResult 0 0 (2 ^ 63 + st * 2 ^ 56 + (n + 1) % 256 * 2 ^ 48 + a)
  have hreg : m.reg .klnSubmitResult 0 0 = (2 ^ 63 + st * 2 ^ 56 + (n + 1) % 256 * 2 ^ 48 + a) % 2 ^ 64 := State.reg_setReg_same ..
  have hm : Shows a st m := by
    have hn : (n + 1) % 256 < 256 := Nat.mod_lt _ (by decide)
    refine ⟨?_, ?_, ?_⟩
    · rw [State.fld, hreg, bits, Nat.shiftRight_eq_div_pow]
      omega
    · rw [State.fld, hreg, bits, Nat.shiftRight_eq_div_pow]
      omega
    · rw [State.rbit, hreg]
      exact bit_eq_of_div_mod (by rw [Bool.toNat_true]; omega)
  unfold State.submitResult
  dsimp only
  split
  · exact ⟨hm, State.setReg_store .., State.setReg_kiln ..⟩
  · obtain ⟨hstore, hkiln, hsame⟩ := klnEvent_rest m st 3 group none a
    exact ⟨hm.congr (hsame 0 0), hstore.trans (State.setReg_store ..), hkiln.trans (State.setReg_kiln ..)⟩

/-- A submission that the kiln can answer at once, whatever else waits, is answered; `K` is what it does to the kiln. -/
theorem submitBy_spec (hsubs : s.kiln.subs = []) (hx : x.addr < 2 ^ 48) (hst : st < 16) {K : Kiln → Kiln} {g : Option Nat}
    (hK : ∀ k l, K { k with subs := l } = { K k with subs := l })
    (h : ∀ l, ∃ v, (s.withSubs l).submit x = (v, some (st, g)) ∧ v.store = s.store ∧ v.kiln = K (s.withSubs l).kiln) :
    (s.submitBy o x).store = s.store ∧ (o ≠ .fabric → Shows x.addr st (s.submitBy o x)) ∧ (s.submitBy o x).kiln = K s.kiln := by
  have hKs (l : List KSub) : K (s.withSubs l).kiln = { K s.kiln with subs := l } := hK ..
  have hKnil : { K s.kiln with subs := [] } = K s.kiln := by
    rw [← hKs, withSubs_nil hsubs]
  unfold State.submitBy
  split
  next ho =>
    obtain ⟨v, hv, hstore, hkiln⟩ := h []
    rw [withSubs_nil hsubs] at hv hkiln
    rw [hv]
    exact ⟨hstore, fun hne => absurd ho hne, hkiln⟩
  next =>
    obtain ⟨v, hv, hstore, hkiln⟩ := h [x]
    have hasked : s.setKiln { s.kiln with subs := s.kiln.subs ++ [x] } = s.withSubs [x] := by rw [hsubs]; rfl
    have hanswer : (s.withSubs [x]).answerSubs 1 = (v.setKiln { v.kiln with subs := v.kiln.subs.drop 1 }).submitResult x.addr st g := by
      show (match (s.withSubs [x]).submit x with
        | (s, none) => s
        | (s, some (st, g)) => (s.setKiln { s.kiln with subs := s.kiln.subs.drop 1 }).submitResult x.addr st g) = _
      rw [hv]
    have hdone : ({ v.kiln with subs := v.kiln.subs.drop 1 } : Kiln) = K s.kiln := by
      rw [hkiln, hKs, ← hKnil]
      rfl
    have hlen : (s.withSubs [x]).kiln.subs.length = 1 := rfl
    dsimp only
    rw [hasked, hlen, hanswer, hdone]
    obtain ⟨hshows, hstore', hkiln'⟩ := submitResult_spec (v.setKiln (K s.kiln)) hx hst g
    exact ⟨hstore'.trans hstore, fun _ => hshows, hkiln'⟩

/-! ### Collectives -/

theorem kilnRead_store {r : StackReq} {n : Nat} (h : Reaches s r.addr n) :
    s.kilnRead r n = (s, some (stOk, Sparse.readBytes s.store (r.addr - storeBase) n)) := by
  rw [State.kilnRead, State.kilnReads_store h.mem h.quiet]
  show (s, some (stOk, [Sparse.readBytes s.store (r.addr - storeBase) n].flatten)) = _
  rw [List.flatten_singleton]

/-- What a job that joins its group does to the kiln. -/
def Kiln.join (k : Kiln) (g : Nat) (j : KJob) : Kiln :=
  let q := Sparse.get KGroup.fresh k.groups g
  { k with groups := Sparse.set KGroup.fresh k.groups g { q with jobs := q.jobs ++ [j], next := (q.next + 1) % 2 ^ 16 }, order := k.order + 1 }

/-- A job joins a group against which no abort is recorded. -/
theorem enqueueKJob_join (hpend : (s.kgroup c.num).pend = []) :
    s.enqueueKJob c j = s.setKiln (s.kiln.join c.num j) := by
  let m : State := s.setKiln (s.kiln.join c.num j)
  have hnone : (m.kgroup c.num).pend.find? (fun p => p.seq == j.seq && p.ahead) = none := by
    have hgroup : m.kgroup c.num = { s.kgroup c.num with jobs := (s.kgroup c.num).jobs ++ [j], next := ((s.kgroup c.num).next + 1) % 2 ^ 16 } :=
      Sparse.get_set_same
    rw [hgroup]
    dsimp only
    rw [hpend, List.find?_nil]
  show (match (m.kgroup c.num).pend.find? (fun p => p.seq == j.seq && p.ahead) with
    | some p => m.abortKJob c j p.ab j.addr
    | none => m) = _
  rw [hnone]

theorem join_group (s : State) (g : Nat) (j : KJob) (h : t.kiln = s.kiln.join g j) : t.kgroup g =
    { s.kgroup g with jobs := (s.kgroup g).jobs ++ [j], next := ((s.kgroup g).next + 1) % 2 ^ 16 } := by
  rw [State.kgroup, h]
  exact Sparse.get_set_same

section
variable (hreach : Reaches s a 64) (hconf : s.groupConf (leAt (Sparse.readBytes s.store (a - storeBase) 64) 3 1) = some c)
  (hslice : s.sliceQuiet (s.resvOf c).slice = false)
include hreach hconf hslice

/-- The kiln's answer to a collective descriptor that it can read. -/
theorem submitColl_read :
    let d := Sparse.readBytes s.store (a - storeBase) 64
    s.submitColl a = if !collWellFormed d c.members.length then (s, some (stRefused, some (leAt d 3 1 % 64)))
      else if !collAddresses a d c.members.length then (s, some (stAddressFault, some (leAt d 3 1 % 64)))
      else if 16 ≤ (s.kgroup c.num).queued then (s, some (stDeferred, some (leAt d 3 1 % 64)))
      else (s.enqueueKJob c (collJob c a d (s.kgroup c.num).next s.kiln.order), some (stOk, some (leAt d 3 1 % 64))) := by
  intro d
  have hread : s.kilnRead (kSubReq a) 64 = (s, some (stOk, Sparse.readBytes s.store (a - storeBase) 64)) := kilnRead_store (r := kSubReq a) hreach
  unfold State.submitColl
  rw [hread]
  dsimp only
  rw [if_neg (not_not_intro rfl), hconf]
  dsimp only
  rw [hslice, if_neg Bool.false_ne_true]

end

/-- The first bytes of what a longer read gives. -/
theorem leAt_readBytes_first (m : SMap Byte) (x i k : Nat) : leAt (Sparse.readBytes m x (i + 1)) 0 1 = leAt (Sparse.readBytes m x (k + 1)) 0 1 := by
  rw [leAt_one, leAt_one]
  rfl

/-- The kiln's answer to a bucket submission that meets no obstacle. -/
theorem submitGrad_bucket {bd : List Byte} {feed : List (Nat × Nat)} {ch : Chan} (hhead : Reaches s a 64) (hreach : Reaches s a 128)
    (hbd : Sparse.readBytes s.store (a - storeBase) 128 = bd) (hfeed : Reaches s (bkFeed bd) (4 * bkFeedCount bd))
    (hentries : feedEntries (bkFeedCount bd) (Sparse.readBytes s.store (bkFeed bd - storeBase) (4 * bkFeedCount bd)) = feed)
    (hchan : s.chanConf (bkChan bd) = some ch) (hconf : s.groupConf ch.group = some c) (hslice : s.sliceQuiet (s.resvOf c).slice = false)
    (hform : bucketWellFormed bd feed ch (s.resvOf c).bytes = true) (haddr : bucketAddresses a bd = true)
    (hcores : ∀ e ∈ feed, (coreOfId e.1).isSome = true) (hjobs : (s.chanJobs (bkChan bd)).length < 4) (hroom : (s.kgroup c.num).queued < 16) :
    s.submitGrad a = (s.enqueueKJob c (bucketJob c a bd feed (s.kgroup c.num).next s.kiln.order), some (stOk, some ch.group)) := by
  have hop : ¬ leAt (Sparse.readBytes s.store (a - storeBase) 64) 0 1 = 7 := by
    have hsix : leAt bd 0 1 = 6 := by
      simp only [bucketWellFormed, Bool.and_eq_true, beq_iff_eq] at hform
      exact hform.1.1.1.1.1.1.1.1.1.1.1.1.1.1
    rw [leAt_readBytes_first _ _ 63 127, hbd, hsix]
    decide
  have hfirst : s.kilnRead (kSubReq a) 64 = (s, some (stOk, Sparse.readBytes s.store (a - storeBase) 64)) := kilnRead_store (r := kSubReq a) hhead
  have hlist : s.kilnRead (kSubReq (bkFeed bd)) (4 * bkFeedCount bd) =
      (s, some (stOk, Sparse.readBytes s.store (bkFeed bd - storeBase) (4 * bkFeedCount bd))) := kilnRead_store (r := kSubReq (bkFeed bd)) hfeed
  have hknown : (feed.any fun e => (coreOfId e.1).isNone) = false :=
    List.any_eq_false.2 fun e he => by rw [Option.isNone_iff_eq_none]; exact Option.isSome_iff_ne_none.1 (hcores e he)
  unfold State.submitGrad
  rw [hfirst]
  dsimp only
  rw [if_neg (not_not_intro rfl), if_neg hop]
  unfold State.submitBucket
  rw [State.kilnReads_store hreach.mem hreach.quiet]
  dsimp only
  rw [List.flatten_singleton, hbd, if_neg (not_not_intro rfl), hlist]
  dsimp only
  rw [if_neg (not_not_intro rfl), hchan, hentries]
  dsimp only [Option.map_some, Option.bind_some]
  rw [hconf]
  dsimp only
  rw [hslice, if_neg Bool.false_ne_true, hform, Bool.not_true, if_neg Bool.false_ne_true, haddr, hknown, Bool.not_true, Bool.or_false,
    if_neg Bool.false_ne_true, if_neg (by omega)]

/-- The kiln with a redelivery under way. -/
def Kiln.redeliver (k : Kiln) (a : Nat) (d buck : List Byte) (g : Nat) : Kiln :=
  { k with redel := k.redel ++ [{ id := k.order, addr := a, raw := d, buck := buck, group := g, done := 0, peer := 1, got := [], asked := false, stat := stOk }],
           order := k.order + 1 }

/-- The kiln's answer to a redelivery submission for a bucket that has ended. -/
theorem submitGrad_redel {d buck : List Byte} {ch : Chan} (hreach : Reaches s a 64) (hd : Sparse.readBytes s.store (a - storeBase) 64 = d)
    (hop : leAt d 0 1 = 7) (hbucket : Reaches s (rdBucket d) 96) (hbuck : Sparse.readBytes s.store (rdBucket d - storeBase) 96 = buck)
    (hchan : s.chanConf (bkChan buck) = some ch) (hconf : s.groupConf ch.group = some c) (hslice : s.sliceQuiet (s.resvOf c).slice = false)
    (hform : redelWellFormed a d buck = true) (hsix : leAt buck 0 1 = 6) (hrun : s.runningBucket c.num (rdBucket d) = none)
    (hended : bit (leAt buck 72 1) 6 = true) :
    s.submitGrad a = (s.setKiln (s.kiln.redeliver a d buck c.num), some (stOk, some c.num)) := by
  have hfirst : s.kilnRead (kSubReq a) 64 = (s, some (stOk, d)) := hd ▸ kilnRead_store (r := kSubReq a) hreach
  have hsecond : s.kilnRead (kSubReq (rdBucket d)) 96 = (s, some (stOk, buck)) := hbuck ▸ kilnRead_store (r := kSubReq (rdBucket d)) hbucket
  unfold State.submitGrad
  rw [hfirst]
  dsimp only
  rw [if_neg (not_not_intro rfl), if_pos hop]
  unfold State.submitRedel
  rw [hfirst]
  dsimp only
  rw [if_neg (not_not_intro rfl), hsecond]
  dsimp only
  rw [if_neg (not_not_intro rfl), hchan, Option.bind_some, hconf]
  dsimp only
  rw [hslice, if_neg Bool.false_ne_true, hform, hsix, hrun]
  dsimp only
  rw [hended, if_neg (by decide)]
  rfl

/-! ### The obligation -/

/-- Settles O48: each submission is answered at once (`submitBy_spec`), with what its descriptor in a flock store calls for. -/
theorem submissionsAreQueued : Obligations.SubmissionsAreQueued := by
  intro s o v a calm src result d bd feed buck hsubs
  have ha : a < 2 ^ 48 := bits_lt v.toNat 47 0
  have hsplit {t : State} {st : Nat} (hstore : t.store = s.store) (hshows : o ≠ .fabric → Shows a st t) : result t st :=
    ⟨hstore, fun ho => ⟨(hshows ho).status, (hshows ho).addr, (hshows ho).valid⟩⟩
  have hcalm {a n : Nat} (h : calm a n) (l : List KSub) : Reaches (s.withSubs l) a n := ⟨h.1, h.2⟩
  refine ⟨?_, ?_, fun ch c hreach hop hbucket hchan hconf hslice hform hsix hrun hended => ?_⟩
  · intro c hreach hconf hslice k
    have hread (l : List KSub) : (s.withSubs l).submitColl a =
        if !collWellFormed d c.members.length then (s.withSubs l, some (stRefused, some (leAt d 3 1 % 64)))
        else if !collAddresses a d c.members.length then (s.withSubs l, some (stAddressFault, some (leAt d 3 1 % 64)))
        else if 16 ≤ k.queued then (s.withSubs l, some (stDeferred, some (leAt d 3 1 % 64)))
        else ((s.withSubs l).enqueueKJob c (collJob c a d k.next s.kiln.order), some (stOk, some (leAt d 3 1 % 64))) :=
      submitColl_read (s := s.withSubs l) (hcalm hreach l) hconf hslice
    have hrefuse {st : Nat} (hst : st < 16) (h : ∀ l, (s.withSubs l).submitColl a = (s.withSubs l, some (st, some (leAt d 3 1 % 64)))) :
        ∃ t, exec (.klnSubmit o v) s = .next t ∧ result t st ∧ t.kiln = s.kiln := by
      obtain ⟨hstore, hshows, hkiln⟩ := submitBy_spec (o := o) (x := { addr := a, grad := false }) (K := id) hsubs ha hst (fun _ _ => rfl)
        fun l => ⟨_, h l, rfl, rfl⟩
      exact ⟨_, rfl, hsplit hstore hshows, hkiln⟩
    refine ⟨fun hform => hrefuse (by decide) fun l => ?_, fun hform haddr => ⟨fun hroom hpend => ?_, fun hfull => hrefuse (by decide) fun l => ?_⟩⟩
    · rw [hread, hform]
      rfl
    · have hjoin (l : List KSub) : (s.withSubs l).submitColl a =
          ((s.withSubs l).setKiln ((s.withSubs l).kiln.join c.num (collJob c a d k.next s.kiln.order)), some (stOk, some (leAt d 3 1 % 64))) := by
        rw [hread, hform, haddr, Bool.not_true, if_neg Bool.false_ne_true, if_neg Bool.false_ne_true, if_neg (Nat.not_le_of_lt hroom),
          enqueueKJob_join (s := s.withSubs l) hpend]
      obtain ⟨hstore, hshows, hkiln⟩ := submitBy_spec (o := o) (x := { addr := a, grad := false })
        (K := fun k' => k'.join c.num (collJob c a d k.next s.kiln.order)) hsubs ha (by decide) (fun _ _ => rfl) fun l => ⟨_, hjoin l, rfl, rfl⟩
      exact ⟨_, rfl, hsplit hstore hshows, join_group s c.num _ hkiln⟩
    · rw [hread, hform, haddr, Bool.not_true, if_neg Bool.false_ne_true, if_neg Bool.false_ne_true, if_pos hfull]
  · intro ch c hhead hreach hfeed hchan hconf hslice hform haddr hcores hjobs hroom hpend k
    have hjoin (l : List KSub) : (s.withSubs l).submitGrad a =
        ((s.withSubs l).setKiln ((s.withSubs l).kiln.join c.num (bucketJob c a bd feed k.next s.kiln.order)), some (stOk, some ch.group)) := by
      refine (submitGrad_bucket (hcalm hhead l) (hcalm hreach l) rfl (hcalm hfeed l) rfl hchan hconf hslice hform haddr hcores hjobs hroom).trans ?_
      rw [enqueueKJob_join (s := s.withSubs l) hpend]
      rfl
    obtain ⟨hstore, hshows, hkiln⟩ := submitBy_spec (o := o) (x := { addr := a, grad := true })
      (K := fun k' => k'.join c.num (bucketJob c a bd feed k.next s.kiln.order)) hsubs ha (by decide) (fun _ _ => rfl) fun l => ⟨_, hjoin l, rfl, rfl⟩
    exact ⟨_, rfl, hsplit hstore hshows, join_group s c.num _ hkiln⟩
  · obtain ⟨hstore, hshows, hkiln⟩ := submitBy_spec (o := o) (x := { addr := a, grad := true })
      (K := fun k' => k'.redeliver a d buck c.num) hsubs ha (by decide) (fun _ _ => rfl)
      fun l => ⟨_, submitGrad_redel (hcalm hreach l) rfl hop (hcalm hbucket l) rfl hchan hconf hslice hform hsix hrun hended, rfl, rfl⟩
    exact ⟨_, rfl, hsplit hstore hshows, by rw [hkiln]; rfl⟩

end Sys2Proof.Machine

/-! SUPPORT. CONTRIB packets are offered, taken and answered (O50: R539 to R543, R548, R552). -/

namespace Sys2Proof.Machine

variable {s t u v : State} {p : Packet} {c : Group} {j : KJob} {k : KChunk} {g i : Nat}

/-! ### What the end of a job leaves of the router slices -/

/-- `t` has the router slices, the memory mode and the fold of `s`. -/
structure SameRoads (s t : State) : Prop where
  rtr   : t.rtr = s.rtr
  inter : t.inter = s.inter
  fold  : t.fold = s.fold

theorem SameRoads.refl (s : State) : SameRoads s s := ⟨rfl, rfl, rfl⟩

theorem SameRoads.trans (h : SameRoads s t) (h' : SameRoads t u) : SameRoads s u := ⟨h'.rtr.trans h.rtr, h'.inter.trans h.inter, h'.fold.trans h.fold⟩

theorem SameRoads.ite {q : Prop} [Decidable q] (h : SameRoads s t) (h' : SameRoads s u) : SameRoads s (if q then t else u) := by
  split
  · exact h
  · exact h'

theorem SameRoads.foldl {α : Type} {f : State → α → State} (h : ∀ s x, SameRoads s (f s x)) (l : List α) (s : State) :
    SameRoads s (l.foldl f s) := by
  induction l generalizing s with
  | nil => exact .refl s
  | cons x l ih => exact (h s x).trans (ih _)

theorem MemOnly.roads (h : MemOnly s t) : SameRoads s t := ⟨h.rtr, h.inter, h.fold⟩

theorem LogOnly.roads (h : LogOnly s t) : SameRoads s t := ⟨h.rtr, h.inter, h.fold⟩

theorem flockRefuses_roads (s : State) (r : StackReq) (rs f : Nat) : SameRoads s (s.flockRefuses r rs f) := (resetLog_logOnly ..).roads

theorem tryWriteMem_roads (s : State) (r : StackReq) (rs : Nat) (bs : List Byte) : SameRoads s (s.tryWriteMem r rs bs).1 := by
  unfold State.tryWriteMem
  split
  · exact .refl s
  · exact (tryWrite_memOnly ..).roads
  · split
    · exact flockRefuses_roads ..
    · exact .ite ⟨rfl, rfl, rfl⟩ ⟨rfl, rfl, rfl⟩

theorem kilnPut_roads (s : State) (a : Nat) (bs : List Byte) : SameRoads s (s.kilnPut a bs) := by
  have h := tryWriteMem_roads s (kSubReq a) 0x1 bs
  unfold State.kilnPut
  split
  next heq =>
    rw [heq] at h
    exact h.trans (mirrored_memOnly ..).roads
  next heq =>
    rw [heq] at h
    exact h

theorem setSigWord_roads (s : State) (x : SigPlace) (n : Nat) : SameRoads s (s.setSigWord x n) := by
  cases x <;> exact ⟨rfl, rfl, rfl⟩

theorem addSignal_roads (s : State) (x : SigPlace) (n : Int) (source : Nat) (issuer : Option Nat) :
    SameRoads s (s.addSignal x n source issuer).1 := by
  unfold State.addSignal
  split
  · exact setSigWord_roads ..
  · exact (sigLog_logOnly ..).roads

theorem kilnSignal_roads (s : State) (a : Nat) : SameRoads s (s.kilnSignal a).1 := by
  unfold State.kilnSignal
  split
  · exact .refl s
  · split
    · exact flockRefuses_roads ..
    · exact .ite ((addSignal_roads ..).trans (mirrored_memOnly ..).roads) (addSignal_roads ..)

theorem bump_roads (s : State) : SameRoads s s.bump := ⟨rfl, rfl, rfl⟩

theorem setKiln_roads (s : State) (k : Kiln) : SameRoads s (s.setKiln k) := ⟨rfl, rfl, rfl⟩

theorem modGroup_roads (s : State) (g : Nat) (f : KGroup → KGroup) : SameRoads s (s.modGroup g f) := setKiln_roads ..

theorem klnEvent_roads (s : State) (st kind : Nat) (group seq : Option Nat) (addr : Nat) :
    SameRoads s (s.klnEvent st kind group seq addr) := (bump_roads s).trans (klnLog_logOnly ..).roads

theorem kilnComplete_roads (s : State) (a g seq addr : Nat) : SameRoads s (s.kilnComplete a g seq addr) :=
  .ite (.refl s) (.ite ((kilnSignal_roads ..).trans (klnEvent_roads ..)) (kilnSignal_roads ..))

theorem scatter_roads (s : State) (a n : Nat) : SameRoads s (s.scatter a n) := by
  unfold State.scatter
  dsimp only
  split
  case h_1 | h_4 => exact ⟨rfl, rfl, rfl⟩
  case h_2 | h_3 => exact .ite ⟨rfl, rfl, rfl⟩ ⟨rfl, rfl, rfl⟩

theorem writeEnd_roads (s : State) (e : KEnd) (sealed : Bool) : SameRoads s (s.writeEnd e sealed) := by
  have h : SameRoads s (s.leaveDst e) := .ite (.refl s) (scatter_roads ..)
  unfold State.writeEnd
  dsimp only
  split <;> exact (h.trans (kilnPut_roads ..)).trans (kilnComplete_roads ..)

theorem endKJob_roads (s : State) (e : KEnd) (sealed : Bool) : SameRoads s (s.endKJob e sealed) := by
  have h : SameRoads s (s.dropUnits (kMine e.group e.job.seq) .none) := (dropUnits_memOnly ..).roads
  unfold State.endKJob
  exact (h.trans (.ite (setKiln_roads ..) (writeEnd_roads ..))).trans (modGroup_roads ..)

theorem dropRows_roads (s : State) (b : KBucket) : SameRoads s (s.dropRows b) :=
  .foldl (fun s e => by split <;> exact ⟨rfl, rfl, rfl⟩) _ s

theorem abortKJob_roads (s : State) (c : Group) (j : KJob) (ab : KAbort) (addr : Nat) : SameRoads s (s.abortKJob c j ab addr) := by
  have htell (u : State) : SameRoads u (u.tell c j.digest ab) := .ite (.refl u) ((modGroup_roads ..).trans (setKiln_roads ..))
  have hend (u : State) : SameRoads u (u.endAborted c j ab addr) := by
    have hlog : SameRoads u ((u.incFld .klnCnt 0 0 31 0).klnLog ab.status ab c.num j.seq 1 addr) :=
      (incFld_logOnly ..).roads.trans (klnLog_logOnly ..).roads
    unfold State.endAborted
    dsimp only
    refine SameRoads.trans ?_ (endKJob_roads ..)
    split
    · exact (hlog.trans (dropRows_roads ..)).trans (bump_roads _)
    · exact hlog.trans (bump_roads _)
  have hdrop : SameRoads s (s.dropContribs c.num j.seq) := ⟨rfl, rfl, rfl⟩
  unfold State.abortKJob
  exact ((hdrop.trans (.ite (htell _) (.refl _))).trans (hend _)).trans (modGroup_roads ..)

/-- The end of a job leaves what an answer turns on. -/
theorem abortKJob_fronts (s : State) (c : Group) (j : KJob) (ab : KAbort) (addr : Nat) : Fronts i s (s.abortKJob c j ab addr) := by
  have hroads := abortKJob_roads s c j ab addr
  have hsteady := (Walk.self (F := steadyFrame) (s := s)).abortKJob (c := c) (j := j) (ab := ab) (addr := addr) |>.steady
  refine ⟨hsteady.proc, ?_, hroads.inter, ?_⟩
  · rw [State.queue, hroads.rtr, State.queue]
  · rw [State.fenced, State.fld, hsteady.held .drvMusterStatus (by decide) (by decide), State.fenced, State.fld]

/-! ### Offering a packet (R540, R548) -/

theorem pickPacket_ready (h : s.pickPacket g c.members.length = some k) : s.readyPackets g ≠ [] := by
  intro hnil
  unfold State.pickPacket at h
  rw [hnil] at h
  cases h

theorem sendContrib_eq {d phase step off : Nat} {pay : List Byte} (hready : k.ready j.ty = some (d, phase, step, off, pay)) :
    s.sendContrib c i j k =
      ((s.niAsk (contribReq c i j.seq d j.digest phase step (k.idx + k.ver.toNat * 2 ^ 31) off pay)).putKJob c.num
        (j.putChunk (j.go { k with sent := k.sent + pay.length }))).modGroup c.num fun g =>
          { g with last := d, deficit := g.deficit - packetCost pay.length } := by
  rw [State.sendContrib, hready]

/-- The group whose turn it is sends when it can pay for its packet. -/
theorem drr_sends {d phase step off n : Nat} {pay : List Byte} {gs : List Nat} (hturn : Sparse.get 64 s.kiln.turn i = g)
    (hconf : s.groupConf g = some c) (hrun : (s.kgroup g).running = some j) (hpick : s.pickPacket g c.members.length = some k)
    (hready : k.ready j.ty = some (d, phase, step, off, pay)) (hpay : packetCost pay.length ≤ (s.kgroup g).deficit) :
    s.drr i gs (n + 1) = s.sendContrib c i j k := by
  rw [State.drr]
  dsimp only
  rw [hturn, hconf, hrun]
  dsimp only
  rw [hpick]
  dsimp only
  rw [hready]
  dsimp only
  rw [if_pos hpay]

/-! ### Answering a packet (R541, R542) -/

theorem klnStatus_not_bookRegs : Reg.klnStatus.addr 0 0 ∉ bookRegs := by simp [bookRegs, Reg.addr, Reg.row, Block.base]

section
variable (hbooks : Books i bookRegs s u)
include hbooks

theorem Books.groupConf : u.groupConf = s.groupConf := funext fun g => State.groupConf_congr hbooks.fold g

theorem Books.kgroup : u.kgroup = s.kgroup := funext fun g => State.kgroup_congr hbooks.kiln g

theorem Books.resvOf : u.resvOf c = s.resvOf c := by rw [State.resvOf, hbooks.fold, State.resvOf]

theorem Books.sliceQuiet (n : Nat) : u.sliceQuiet n = s.sliceQuiet n := by
  rw [State.sliceQuiet, hbooks.rst, hbooks.regs.rbit klnStatus_not_bookRegs, State.sliceQuiet]

end

/-- A CONTRIB of the running collective of its group. -/
structure Meets (s : State) (p : Packet) (c : Group) (j : KJob) : Prop where
  phase : kpPhase p ≠ 15
  conf  : s.groupConf (kpGroup p) = some c
  slice : (s.resvOf c).slice = kpSlice p
  quiet : s.sliceQuiet (kpSlice p) = false
  run   : (s.kgroup c.num).running = some j
  now   : seqPlace (s.kgroup c.num).current (kpSeq p) = 0

theorem Meets.books (h : Meets s p c j) (hu : Books i bookRegs s u) : Meets u p c j where
  phase := h.phase
  conf := by rw [hu.groupConf]; exact h.conf
  slice := hu.resvOf.symm ▸ h.slice
  quiet := (hu.sliceQuiet _).trans h.quiet
  run := by rw [hu.kgroup]; exact h.run
  now := by rw [hu.kgroup]; exact h.now

section
variable (h : Meets s p c j)
include h

theorem kilnAnswer_takes {ch : KChunk} (hdigest : p.w4.toNat = j.digest) (htake : j.takeData c.members.length p = (stOk, some ch, false)) :
    s.kilnAnswer p = (s.putKJob c.num (j.putChunk ch), stOk, 0) := by
  unfold State.kilnAnswer
  dsimp only
  rw [h.quiet, if_neg (by simp), h.conf]
  dsimp only
  rw [if_neg (not_not_intro h.slice), if_neg h.phase, h.now, h.run]
  simp only [hdigest, ne_eq, not_true_eq_false, if_false, htake]

theorem kilnAnswer_mismatch (hdigest : p.w4.toNat ≠ j.digest) : s.kilnAnswer p =
    (s.abortKJob c j { cause := 1, culprit := kpSender p, detector := c.my, digest := p.w4.toNat } j.addr, stMismatch,
      (s.kgroup c.num).ownDigest) := by
  unfold State.kilnAnswer
  dsimp only
  rw [h.quiet, if_neg (by simp), h.conf]
  dsimp only
  rw [if_neg (not_not_intro h.slice), if_neg h.phase, h.now, h.run]
  simp only [hdigest, ne_eq, not_false_eq_true, if_true, State.abortGroup, h.run]

end

/-- A CONTRIB is performed by the kiln's answer. -/
theorem Performs.perform_contrib (h : Performs s p) {st x : Nat} (hop : p.op = 0x30) (hanswer : s.kilnAnswer p = (t, st, x))
    (hst : st ≠ stDeferred) : s.perform false p = (t, .done st (if st = stMismatch then leBytes 8 x else [])) := by
  unfold State.perform
  simp only [h.form, h.shadow, hop, Bool.not_true, Bool.false_eq_true, false_and, if_false, hanswer, if_neg hst]

/-- Settles O50: the slice's choice, and the kiln's answer behind the books of the NI. -/
theorem contributionsTravel : Obligations.ContributionsTravel := by
  intro s
  refine ⟨fun i x c hi hquiet hfind hconf => ?_, fun i g c j k d phase step off pay hi hquiet hnone hmem hturn hconf hrun hpick hready hpay => ?_,
    fun p c j hadm hop hphase hconf hslice hquiet hrun hnow => ⟨fun ch hdigest htake => ?_, fun hdigest => ?_⟩⟩
  · have hexec : exec (.kilnPacketInject i) s = .next ((s.setKiln { s.kiln with notices := s.kiln.notices.erase x }).niAsk
        (contribReq c i (bits x.digest 63 48) x.dest x.digest 15 0 0 0 (noticePayload x.ab))) := by
      show execKilnPacketInject i s = _
      rw [execKilnPacketInject, inRange_next hi]
      dsimp only
      rw [hquiet, if_neg Bool.false_ne_true, hfind]
      dsimp only
      rw [hconf]
    exact ⟨_, hexec, rfl, rfl, rfl⟩
  · have hnum := State.groupConf_num hconf
    have hany : ((s.sliceGroups i).any fun g => !(s.readyPackets g).isEmpty) = true :=
      List.any_eq_true.2 ⟨g, hmem, by rw [Bool.not_eq_true', List.isEmpty_eq_false_iff]; exact pickPacket_ready hpick⟩
    have hexec : exec (.kilnPacketInject i) s = .next (s.sendContrib c i j k) := by
      show execKilnPacketInject i s = _
      rw [execKilnPacketInject, inRange_next hi]
      dsimp only
      rw [hquiet, if_neg Bool.false_ne_true, hnone]
      dsimp only
      rw [hany, if_pos rfl, drr_sends (n := 8191) hturn hconf hrun hpick hready hpay]
    rw [sendContrib_eq hready] at hexec
    refine ⟨_, hexec, rfl, rfl, ?_⟩
    rw [hnum, State.kgroup_modGroup_same, State.kgroup_putKJob_same]
    rfl
  · have hmeets : Meets s p c j := ⟨hphase, hconf, hslice, hquiet, hrun, hnow⟩
    obtain ⟨v, hans, hsame, hv⟩ := Admits.answered hadm (st := stOk) (bs := [])
      (P := fun v => v.kgroup c.num = (s.kgroup c.num).put (j.putChunk ch)) fun u hu =>
        ⟨_, (Admits.performs hadm hu).perform_contrib hop (kilnAnswer_takes (hmeets.books hu) hdigest htake) (by decide),
          (hu.fronts muster_not_bookRegs).trans ⟨rfl, rfl, rfl, rfl⟩, by rw [State.kgroup_putKJob_same, hu.kgroup]⟩
    exact ⟨_, exec_packet (fun _ => rfl) hop hadm, hans, (State.kgroup_congr hsame.kiln _).trans hv⟩
  · have hmeets : Meets s p c j := ⟨hphase, hconf, hslice, hquiet, hrun, hnow⟩
    obtain ⟨v, hans, hsame, hv⟩ := Admits.answered hadm (st := stMismatch) (bs := leBytes 8 (s.kgroup c.num).ownDigest)
      (P := fun v => (v.kgroup c.num).aborted = j.seq) fun u hu =>
        ⟨_, ((Admits.performs hadm hu).perform_contrib hop (kilnAnswer_mismatch (hmeets.books hu) hdigest) (by decide)).trans
            (by rw [if_pos rfl, hu.kgroup]),
          (hu.fronts muster_not_bookRegs).trans (abortKJob_fronts ..), State.abortKJob_aborted ..⟩
    exact ⟨_, exec_packet (fun _ => rfl) hop hadm, hans, (congrArg KGroup.aborted (State.kgroup_congr hsame.kiln _)).trans hv⟩

end Sys2Proof.Machine

/-! SUPPORT. Collectives start, move their chunks and end (O49: R520, R528, R530, R537, R549 to R554). -/

namespace Sys2Proof.Machine

variable {s t u : State} {c : Group} {j : KJob} {k : KChunk} {g a n b m lo : Nat} {bs : List Byte}

/-! ### Ranges of a flock store -/

theorem Steady.flockQuiet (h : Steady s t) : t.flockQuiet = s.flockQuiet := by
  funext f
  rw [State.flockQuiet, State.pastureReady, State.rbit, h.held .drvReady (by decide) (by decide), h.rst, State.flockQuiet, State.pastureReady,
    State.rbit]

theorem memOf_store_bounds (h : memOf a n = some .store) : storeBase ≤ a ∧ a + n ≤ 0x0200A8000000 := by
  unfold memOf at h
  split at h
  · cases h
  · split at h
    · assumption
    · split at h <;> cases h

theorem memOf_store (h : storeBase ≤ a ∧ a + n ≤ 0x0200A8000000) : memOf a n = some .store := by
  have hhigh : ¬ a + n ≤ 0x018000000000 := by
    have hbase := h.1
    unfold storeBase at hbase
    omega
  rw [memOf, if_neg hhigh, if_pos h]

/-- A range of a flock store is none of stacked memory, whatever its length. -/
theorem memOf_store_ne_stacked (h : memOf a n = some .store) : memOf a m ≠ some .stacked := by
  have hbase := (memOf_store_bounds h).1
  unfold storeBase at hbase
  unfold memOf
  rw [if_neg (by omega)]
  split
  · exact fun h => by cases h
  · split <;> exact fun h => by cases h

/-- A part of a range that nothing keeps. -/
theorem Reaches.sub (h : Reaches s a n) (hlo : a ≤ b) (hhi : b + m ≤ a + n) : Reaches s b m := by
  obtain ⟨hbase, htop⟩ := memOf_store_bounds h.mem
  refine ⟨memOf_store ⟨by omega, by omega⟩, List.find?_eq_none.2 fun f hf => List.find?_eq_none.1 h.quiet f ?_⟩
  simp only [flocksOf, List.mem_filter, Bool.and_eq_true, decide_eq_true_eq] at hf ⊢
  obtain ⟨hmem, hbelow, habove⟩ := hf
  exact ⟨hmem, by omega, by omega⟩

/-! ### Bales -/

/-- The bytes of writes stored one after the other. -/
def storeAll (mem : SMap Byte) (ws : List (Nat × List Byte)) : SMap Byte :=
  ws.foldl (fun m w => Sparse.writeBytes m (w.1 - storeBase) w.2) mem

theorem writeBytes_append (xs : List Byte) : ∀ (mem : SMap Byte) (a : Nat) (ys : List Byte),
    Sparse.writeBytes mem a (xs ++ ys) = Sparse.writeBytes (Sparse.writeBytes mem a xs) (a + xs.length) ys := by
  induction xs with
  | nil => exact fun _ _ _ => rfl
  | cons x xs ih =>
    intro mem a ys
    rw [List.cons_append, Sparse.writeBytes, ih, Sparse.writeBytes, List.length_cons, Nat.add_right_comm, Nat.add_assoc]

theorem balePieces_nil (n a : Nat) : balePieces n a [] = [] := by cases n <;> rfl

theorem balePieces_cons (n a : Nat) (h : bs ≠ []) :
    balePieces (n + 1) a bs = (a, bs.take (4096 - a % 4096)) :: balePieces n (a + (4096 - a % 4096)) (bs.drop (4096 - a % 4096)) := by
  have hne : bs.isEmpty = false := by rwa [List.isEmpty_eq_false_iff]
  rw [balePieces, hne]
  rfl

/-- Bytes stored bale by bale are stored. -/
theorem storeAll_balePieces (n : Nat) : ∀ (mem : SMap Byte) (a : Nat) (bs : List Byte), storeBase ≤ a → bs.length + a % 4096 ≤ 4096 * n →
    storeAll mem (balePieces n a bs) = Sparse.writeBytes mem (a - storeBase) bs := by
  induction n with
  | zero =>
    intro mem a bs _ hlen
    rw [List.length_eq_zero_iff.1 (show bs.length = 0 by omega)]
    rfl
  | succ n ih =>
    intro mem a bs hbase hlen
    by_cases hbs : bs = []
    · rw [hbs, balePieces_nil]
      rfl
    · rw [balePieces_cons n a hbs]
      show storeAll (Sparse.writeBytes mem (a - storeBase) (bs.take (4096 - a % 4096))) _ = _
      rw [ih _ _ _ (by omega) (by rw [List.length_drop]; omega)]
      by_cases hshort : bs.length ≤ 4096 - a % 4096
      · rw [List.drop_eq_nil_of_le hshort, List.take_of_length_le hshort]
        rfl
      · have happend := writeBytes_append (bs.take (4096 - a % 4096)) mem (a - storeBase) (bs.drop (4096 - a % 4096))
        rw [List.take_append_drop, List.length_take, Nat.min_eq_left (by omega)] at happend
        rw [happend, show a + (4096 - a % 4096) - storeBase = a - storeBase + (4096 - a % 4096) by omega]

/-- The bales of a range lie in it. -/
theorem balePieces_within (n : Nat) : ∀ (a : Nat) (bs : List Byte), ∀ w ∈ balePieces n a bs, a ≤ w.1 ∧ w.1 + w.2.length ≤ a + bs.length := by
  induction n with
  | zero => exact fun _ _ _ h => by cases h
  | succ n ih =>
    intro a bs w hw
    by_cases hbs : bs = []
    · rw [hbs, balePieces_nil] at hw
      cases hw
    · rw [balePieces_cons n a hbs, List.mem_cons] at hw
      rcases hw with rfl | hw
      · exact ⟨Nat.le_refl a, Nat.add_le_add_left (List.length_take_le' ..) a⟩
      · have hpos : 0 < bs.length := List.length_pos_iff.2 hbs
        obtain ⟨hlo, hhi⟩ := ih _ _ w hw
        rw [List.length_drop] at hhi
        by_cases hshort : bs.length ≤ 4096 - a % 4096
        · rw [List.drop_eq_nil_of_le hshort, balePieces_nil] at hw
          cases hw
        · exact ⟨by omega, by omega⟩

/-! ### The kiln's accesses of a flock store -/

theorem kilnEccs_store (h : memOf a n ≠ some .stacked) (errs : Errs) : s.kilnEccs errs 0 [(a, n)] = s := by
  rw [State.kilnEccs, if_neg h]
  rfl

theorem kilnPrep_store {r : StackReq} : ∀ (ws : List (Nat × List Byte)) (s : State), (∀ w ∈ ws, Reaches s w.1 w.2.length) →
    s.kilnPrep r ws = (s, .go, 0)
  | [], _, _ => rfl
  | w :: ws, s, h => by
    obtain ⟨hw, hws⟩ := List.forall_mem_cons.1 h
    have hne : ¬ memOf w.1 w.2.length = some .stacked := memOf_store_ne_stacked hw.mem
    rw [State.kilnPrep, if_neg hne]
    dsimp only
    rw [kilnPrep_store ws s hws]
    rfl

theorem kilnCommit_store {r : StackReq} : ∀ (ws : List (Nat × List Byte)) (s : State), (∀ w ∈ ws, Reaches s w.1 w.2.length) →
    ∃ t, s.kilnCommit r ws = (t, stOk, 0) ∧ t.store = storeAll s.store ws ∧ t.kiln = s.kiln
  | [], s, _ => ⟨s, rfl, rfl, rfl⟩
  | w :: ws, s, h => by
    obtain ⟨hw, hws⟩ := List.forall_mem_cons.1 h
    let v : State := (s.wrStoreAt (w.1 - storeBase) w.2).mirrored w.1 w.2
    have hsteady : Steady s v := ((Walk.self (F := steadyFrame) (s := s)).wrStoreAt.mirrored (a := w.1) (bs := w.2)).steady
    have hmirror := mirrored_memOnly (s.wrStoreAt (w.1 - storeBase) w.2) w.1 w.2
    obtain ⟨t, ht, hstore, hkiln⟩ := kilnCommit_store (r := r) ws v fun x hx => (hws x hx).congr hsteady.flockQuiet
    have hne : ¬ memOf w.1 w.2.length = some .stacked := memOf_store_ne_stacked hw.mem
    have htry := State.tryWriteMem_store (s := s) (r := { r with addr := w.1 }) 0x1 hw.mem hw.quiet
    refine ⟨t, ?_, hstore.trans (congrArg (storeAll · ws) hmirror.store), hkiln.trans hmirror.kiln⟩
    rw [State.kilnCommit, if_neg hne, htry]
    exact ht

/-- A range of a flock store is written bale by bale. -/
theorem kilnStore_range {r : StackReq} (h : Reaches s a bs.length) :
    ∃ t, s.kilnStore r (balePieces (bs.length / 4096 + 2) a bs) = (t, some (stOk, 0)) ∧
      t.store = Sparse.writeBytes s.store (a - storeBase) bs ∧ t.kiln = s.kiln := by
  have hall : ∀ w ∈ balePieces (bs.length / 4096 + 2) a bs, Reaches s w.1 w.2.length := fun w hw => by
    obtain ⟨hlo, hhi⟩ := balePieces_within _ _ _ w hw
    exact h.sub hlo hhi
  obtain ⟨t, ht, hstore, hkiln⟩ := kilnCommit_store (r := r) _ s hall
  refine ⟨t, ?_, hstore.trans (storeAll_balePieces _ _ _ _ (memOf_store_bounds h.mem).1 (by omega)), hkiln⟩
  rw [State.kilnStore, kilnPrep_store _ s hall]
  dsimp only
  rw [ht]

/-! ### Chunks -/

theorem loadChunk_store (hparts : j.srcParts c.members.length c.my (s.resvOf c).bytes k.idx = [(a, n, lo)]) (hreach : Reaches s a n) :
    s.loadChunk c j k = s.putKJob c.num (j.putChunk (j.enter { k with
      elems := placeElems k.elems lo ((elemsOf (kElem j.ty) (Sparse.readBytes s.store (a - storeBase) n)).map fun x => if k.wide then toWide x else x) })) := by
  have hread := State.kilnReads_store (s := s) (r := kReq c.num j.seq k.idx 0) hreach.mem hreach.quiet
  unfold State.loadChunk
  dsimp only
  rw [hparts, List.map_singleton, hread]
  rfl

theorem countOverflow_rest (s : State) (g seq n : Nat) : (s.countOverflow g seq n).store = s.store ∧ (s.countOverflow g seq n).kiln = s.kiln := by
  have h : LogOnly s (s.countOverflow g seq n) := by
    unfold State.countOverflow
    split
    · exact .refl s
    · exact (setFld_logOnly ..).trans (setReg_logOnly ..)
  exact ⟨h.store, h.kiln⟩

theorem storeChunk_store (hparts : j.dstParts c.members.length c.my (s.resvOf c).bytes k.idx = [(a, lo, n)])
    (hbs : (((k.elems.drop lo).take n).map (leBytes (kElem j.ty))).flatten = bs) (hreach : Reaches s a bs.length) :
    (s.storeChunk c j k).store = Sparse.writeBytes s.store (a - storeBase) bs ∧
      (s.storeChunk c j k).kgroup c.num = (s.kgroup c.num).put { j.dropChunk k with ended := j.ended + 1 } := by
  obtain ⟨t, ht, hstore, hkiln⟩ := kilnStore_range (r := kReq c.num j.seq k.idx 0) hreach
  obtain ⟨hstore', hkiln'⟩ := countOverflow_rest t c.num j.seq k.ovf
  unfold State.storeChunk
  dsimp only
  rw [hparts, List.map_singleton, List.flatMap_singleton]
  dsimp only
  rw [hbs, ht]
  dsimp only
  rw [if_neg (not_not_intro rfl), State.kgroup_putKJob_same, State.kgroup_congr (hkiln'.trans hkiln)]
  exact ⟨hstore'.trans hstore, rfl⟩

/-! ### The end of a collective -/

theorem KJob.tail_length (j : KJob) (status : Nat) (ab : KAbort) : (j.tail status ab).length = 18 := by
  simp only [KJob.tail, List.length_append, leBytes_length]

/-- A collective whose completion word is 0 and whose descriptor can be written: no gate holds its writes. -/
structure Closes (s : State) (g : Nat) (j : KJob) : Prop where
  coll   : j.bucket = none
  comp   : j.comp = 0
  free   : s.kilnHolds g j.seq = false
  writes : Reaches s (j.addr + 40) 18

/-- A kiln with a group changed. -/
def Kiln.changeGroup (k : Kiln) (g : Nat) (f : KGroup → KGroup) : Kiln :=
  { k with groups := Sparse.set KGroup.fresh k.groups g (f (Sparse.get KGroup.fresh k.groups g)) }

theorem modGroup_kiln (s : State) (g : Nat) (f : KGroup → KGroup) : (s.modGroup g f).kiln = s.kiln.changeGroup g f := rfl

theorem changeGroup_notices (k : Kiln) (g : Nat) (f : KGroup → KGroup) : (k.changeGroup g f).notices = k.notices := rfl

theorem kgroup_changeGroup {k : Kiln} {f : KGroup → KGroup} (h : t.kiln = k.changeGroup g f) (hs : s.kiln = k) : t.kgroup g = f (s.kgroup g) := by
  rw [State.kgroup, h, ← hs]
  exact Sparse.get_set_same

/-- A group that a job has left. -/
def KGroup.without (k : KGroup) (j : KJob) : KGroup :=
  { k with jobs := k.jobs.filter fun x => x.seq != j.seq, pend := k.pend.filter fun p => p.seq != j.seq }

theorem writeEnd_collective {e : KEnd} (hcoll : e.job.bucket = none) (hcomp : e.job.comp = 0) (sealed : Bool) :
    s.writeEnd e sealed = (s.leaveDst e).kilnPut (e.job.addr + 40) (e.job.tail e.status e.ab) := by
  simp only [State.writeEnd, hcoll, hcomp, State.kilnComplete_zero, State.leaveDst]

theorem endKJob_collective {e : KEnd} (h : Closes s e.group e.job) (sealed : Bool) :
    Sparse.readBytes (s.endKJob e sealed).store (e.job.addr + 40 - storeBase) 18 = e.job.tail e.status e.ab ∧
      (s.endKJob e sealed).kiln = s.kiln.changeGroup e.group (·.without e.job) := by
  obtain ⟨hcoll, hcomp, hfree, hmem, hcalm⟩ := h
  have hdrop := dropUnits_memOnly s (kMine e.group e.job.seq) .none
  obtain ⟨hkiln, hregs, hrst⟩ := (s.dropUnits (kMine e.group e.job.seq) .none).leaveDst_rest e
  have hless := dropUnits_noNewEntries s (kMine e.group e.job.seq) .none
  have hquiet := State.flockQuiet_congr (hregs.trans hless.regs) (hrst.trans hdrop.rst)
  have hlen := e.job.tail_length e.status e.ab
  rw [← hquiet] at hcalm
  unfold State.endKJob
  dsimp only
  rw [hless.kilnHolds hfree, if_neg Bool.false_ne_true, writeEnd_collective hcoll hcomp, State.modGroup_store, modGroup_kiln,
    State.kilnPut_kiln hlen hmem, hkiln, hdrop.kiln]
  exact ⟨State.readBytes_kilnPut hlen hmem hcalm, rfl⟩

theorem kilnHolds_congr (h : t.stks = s.stks) (g seq : Nat) : t.kilnHolds g seq = s.kilnHolds g seq := by
  have hstk : t.stk = s.stk := by
    funext i
    rw [State.stk, h, State.stk]
  rw [State.kilnHolds, hstk, State.kilnHolds]

theorem Closes.congr (h : Closes s g j) (hstks : t.stks = s.stks) (hsteady : Steady s t) : Closes t g j where
  coll := h.coll
  comp := h.comp
  free := (kilnHolds_congr hstks ..).trans h.free
  writes := h.writes.congr hsteady.flockQuiet

/-! ### Aborts -/

theorem tell_jobs {digest : Nat} {ab : KAbort} : ((s.tell c digest ab).kgroup c.num).jobs = (s.kgroup c.num).jobs := by
  unfold State.tell
  dsimp only
  split
  · rfl
  · let f : KGroup → KGroup := fun k => { k with heard := k.heard ++ [(bits digest 63 48, ab.detector)] }
    exact (congrArg KGroup.jobs (s.kgroup_modGroup_same c.num f)).trans rfl

theorem tell_notices {digest : Nat} {ab : KAbort} (h : (bits digest 63 48, ab.detector) ∉ (s.kgroup c.num).heard) :
    (s.tell c digest ab).kiln.notices = s.kiln.notices ++
      (treeChildren c.members.length ab.detector c.my).map fun d => { dest := d, digest := digest, ab := ab } := by
  unfold State.tell
  dsimp only
  rw [if_neg (by rwa [List.contains_iff_mem])]
  rfl

theorem tell_closes {digest : Nat} {ab : KAbort} (h : Closes s g j) : Closes (s.tell c digest ab) g j := by
  unfold State.tell
  dsimp only
  split
  · exact h
  · exact h.congr rfl .congr

/-- What the abort of a collective by this member leaves. -/
structure Aborts (s t : State) (c : Group) (j : KJob) (ab : KAbort) : Prop where
  tail    : Sparse.readBytes t.store (j.addr + 40 - storeBase) 18 = j.tail stAborted ab
  jobs    : (t.kgroup c.num).jobs = (s.kgroup c.num).jobs.filter fun x => x.seq != j.seq
  aborted : (t.kgroup c.num).aborted = j.seq
  notices : (bits j.digest 63 48, c.my) ∉ (s.kgroup c.num).heard → t.kiln.notices = s.kiln.notices ++
    (treeChildren c.members.length c.my c.my).map fun d => { dest := d, digest := j.digest, ab := ab }

theorem abortKJob_own {cause addr : Nat} (h : Closes s c.num j) (hone : cause ≠ 1) (hfive : cause ≠ 5) :
    Aborts s (s.abortKJob c j { cause := cause, culprit := c.my, detector := c.my, digest := 0 } addr) c j
      { cause := cause, culprit := c.my, detector := c.my, digest := 0 } := by
  let ab : KAbort := { cause := cause, culprit := c.my, detector := c.my, digest := 0 }
  let d : State := s.dropContribs c.num j.seq
  let w : State := d.tell c j.digest ab
  let u : State := (w.incFld .klnCnt 0 0 31 0).klnLog ab.status ab c.num j.seq 1 addr
  let e : KEnd := { group := c.num, m := c.members.length, job := j, status := ab.status, ab := ab, peak := sext 16 u.freeVal.toNat }
  have hstatus : ab.status = stAborted := if_neg hone
  have hd : Closes d c.num j := h.congr rfl .congr
  have hlog : LogOnly w u := (incFld_logOnly ..).trans (klnLog_logOnly ..)
  have hsteady : Steady w u.bump := (Walk.self (F := steadyFrame) (s := w)).incFld.klnLog.bump.steady
  have hu : Closes u.bump c.num j := (tell_closes hd).congr hlog.stks hsteady
  have heq : s.abortKJob c j ab addr = (u.bump.endKJob e false).modGroup c.num fun k =>
      { k with aborted := j.seq, owed := if j.run then some j.seq else k.owed } := by
    unfold State.abortKJob
    dsimp only
    rw [if_pos ⟨hfive, rfl⟩]
    unfold State.endAborted
    dsimp only
    rw [h.coll]
  obtain ⟨htail, hkiln⟩ := endKJob_collective (e := e) hu false
  have hbump : u.bump.kiln = w.kiln := hlog.kiln
  refine ⟨?_, ?_, State.abortKJob_aborted .., fun hnew => ?_⟩
  · rw [heq, State.modGroup_store, ← hstatus]
    exact htail
  · rw [heq, State.kgroup_modGroup_same, kgroup_changeGroup hkiln hbump.symm]
    exact congrArg (List.filter fun x : KJob => x.seq != j.seq) tell_jobs
  · rw [heq, modGroup_kiln, changeGroup_notices, hkiln, changeGroup_notices, hbump]
    exact tell_notices (s := d) hnew

theorem abortKJob_groupConf (ab : KAbort) (addr : Nat) : (s.abortKJob c j ab addr).groupConf g = s.groupConf g :=
  State.groupConf_congr (abortKJob_roads ..).fold g

/-! ### The commands -/

section
variable (hg : g < 64) (hconf : s.groupConf g = some c)
include hg hconf

theorem exec_collectiveStart (hhead : (s.kgroup g).head = some j)
    (hothers : ∀ d ∈ s.sharing c, ∀ x ∈ (s.kgroup d.num).jobs, x.run = false ∧ j.order ≤ x.order)
    (hslice : s.sliceQuiet (s.resvOf c).slice = false) (hout : s.contribsOut g (s.kgroup g).owed = false) :
    exec (.collectiveStart g) s = .next (((s.kgroup g).pend.find? fun p => p.seq == j.seq).elim
      (s.modGroup g fun k => { k.put { j with run := true } with owed := none }) fun p => s.abortKJob c j p.ab j.addr) := by
  have hnone : (((s.sharing c).flatMap fun d => (s.kgroup d.num).jobs).any fun x => x.run || decide (x.order < j.order)) = false := by
    refine List.any_eq_false.2 fun x hx => ?_
    obtain ⟨d, hd, hxd⟩ := List.mem_flatMap.1 hx
    obtain ⟨hrun, horder⟩ := hothers d hd x hxd
    rw [hrun, decide_eq_false (Nat.not_lt.2 horder)]
    decide
  show execCollectiveStart g s = _
  rw [execCollectiveStart, inRange_next hg, hconf, hhead]
  simp only [hnone, hslice, hout, Bool.or_self, Bool.false_eq_true, if_false]
  cases (s.kgroup g).pend.find? fun p => p.seq == j.seq <;> rfl

variable (hrun : (s.kgroup g).running = some j) (hcoll : j.bucket = none)
include hrun

theorem exec_chunkStart : exec (.chunkStart g) s =
    .next (if j.mayStart c.members.length (s.resvOf c).bytes then s.startChunk c j else s) := by
  show execChunkStart g s = _
  rw [execChunkStart, inRange_next hg, hconf, hrun]

include hcoll

theorem exec_kilnMemoryComplete {errs : Errs} (hchunk : j.chunk k.idx false = some k) : exec (.kilnMemoryComplete g k.idx errs) s =
    .next (if k.stage = .loading then
        (s.kilnEccs errs 0 ((j.srcParts c.members.length c.my (s.resvOf c).bytes k.idx).map fun x => (x.1, x.2.1))).loadChunk c j k
      else if k.stage = .storing then
        (s.kilnEccs errs 0 ((j.dstParts c.members.length c.my (s.resvOf c).bytes k.idx).map fun x => (x.1, x.2.2 * kElem j.ty))).storeChunk c j k
      else s) := by
  show execKilnMemoryComplete g k.idx errs s = _
  rw [execKilnMemoryComplete, inRange_next hg, hconf, hrun]
  dsimp only
  rw [hchunk]
  dsimp only
  rw [hcoll, if_neg (by decide)]

theorem exec_collectiveEnd (hending : s.kiln.ending = []) : exec (.collectiveEnd g) s =
    .next (if j.ended = j.nchunks c.members.length (s.resvOf c).bytes then
      s.endKJob { group := g, m := c.members.length, job := j, status := stOk, ab := KAbort.none, peak := 0 } false else s) := by
  have hwrite : s.writeEnds g = s := by
    rw [State.writeEnds, hending]
    rfl
  show execCollectiveEnd g s = _
  rw [execCollectiveEnd, inRange_next hg, hwrite]
  dsimp only
  rw [hconf, hrun]
  simp only [hcoll, Option.isNone_none, true_and]

end

/-- A chunk that has SRC to read waits for it. -/
theorem startChunk_coll (hcoll : j.bucket = none) (hparts : j.srcParts c.members.length c.my (s.resvOf c).bytes j.next ≠ []) :
    let n := j.chunkN c.members.length (s.resvOf c).bytes j.next
    s.startChunk c j = s.putKJob c.num
      { j with chunks := j.chunks ++ [j.mkChunk c j.next n false (List.replicate n 0) .loading], next := j.next + 1 } := by
  intro n
  have hne : (j.srcParts c.members.length c.my (s.resvOf c).bytes j.next).isEmpty = false := by rwa [List.isEmpty_eq_false_iff]
  unfold State.startChunk
  dsimp only
  rw [hcoll]
  dsimp only
  rw [hne, if_neg Bool.false_ne_true]

theorem abortOwn_eq (hconf : s.groupConf g = some c) (hrun : (s.kgroup g).running = some j) (cause : Nat) : s.abortOwn g cause =
    s.abortKJob c j { cause := cause, culprit := c.my, detector := c.my, digest := 0 } j.addr := by
  rw [State.abortOwn, hconf, hrun]

theorem abortOwn_idle (hrun : (s.kgroup g).running = none) (cause : Nat) : s.abortOwn g cause = s := by
  rw [State.abortOwn, hrun]
  split
  next h => cases h
  next => rfl

/-- KLN_CTRL.RESET of a group whose own abort leaves it no job. -/
theorem execKlnCtrlReset_empty {v : Word64} (hg : bits v.toNat 5 0 = g) (hconf : (s.abortOwn g 6).groupConf g = some c)
    (hjobs : ((s.abortOwn g 6).kgroup g).jobs = []) : exec (.klnCtrlReset v) s =
      .next ((s.abortOwn g 6).modGroup g fun k => { k with next := 0, aborted := 0, pend := [], heard := [] }) := by
  show execKlnCtrlReset v s = _
  unfold execKlnCtrlReset
  rw [hg]
  dsimp only
  rw [hconf]
  dsimp only
  rw [hjobs, List.foldl_nil]

theorem exec_kilnStallExpiry (hg : g < 64) : exec (.kilnStallExpiry g) s = .next (if s.fld .klnStall 0 0 15 0 = 0 then s else s.abortOwn g 7) := by
  show execKilnStallExpiry g s = _
  rw [execKilnStallExpiry, inRange_next hg]

/-- Settles O49, by what each command does to the job and what the end of a job leaves. -/
theorem collectivesRunAndAbort : Obligations.CollectivesRunAndAbort := by
  refine ⟨fun s g c hg hconf => ?_, fun s v c => ?_⟩
  · intro kg m bytes calm
    obtain rfl := State.groupConf_num hconf
    have hcalm {a n : Nat} (h : calm a n) : Reaches s a n := ⟨h.1, h.2⟩
    refine ⟨fun j hhead hothers hslice hout => ?_, fun j hrun hcoll => ⟨fun hmay hparts => ?_, fun hmay => ?_, fun k a n lo errs hchunk hstage hparts hreach => ?_,
      ?_, fun hended hcomp hreach hending hholds => ?_, fun hended hending => ?_⟩⟩
    · have hexec := exec_collectiveStart hg hconf hhead hothers hslice hout
      refine ⟨fun hpend => ?_, fun p hpend hseq => ?_⟩
      · rw [show (s.kgroup c.num).pend = [] from hpend, List.find?_nil, Option.elim_none] at hexec
        exact ⟨_, hexec, rfl, State.kgroup_modGroup_same ..⟩
      · rw [show (s.kgroup c.num).pend = [p] from hpend, List.find?_cons_of_pos (by rw [beq_iff_eq]; exact hseq)] at hexec
        exact hexec
    · have hexec := exec_chunkStart hg hconf hrun
      rw [if_pos hmay, startChunk_coll hcoll hparts] at hexec
      exact ⟨_, _, hexec, rfl, State.kgroup_putKJob_same .., rfl, rfl, List.length_replicate ..⟩
    · have hexec := exec_chunkStart hg hconf hrun
      rwa [if_neg (by rw [show j.mayStart _ _ = false from hmay]; decide)] at hexec
    · have hexec := exec_kilnMemoryComplete (errs := errs) hg hconf hrun hcoll hchunk
      have hparts' : j.srcParts c.members.length c.my (s.resvOf c).bytes k.idx = [(a, n, lo)] := hparts
      rw [if_pos hstage, hparts', List.map_singleton, kilnEccs_store (memOf_store_ne_stacked hreach.1), loadChunk_store hparts' (hcalm hreach)] at hexec
      exact ⟨_, hexec, rfl, State.kgroup_putKJob_same ..⟩
    · intro k a n lo errs hchunk hstage hparts bs hreach
      have hexec := exec_kilnMemoryComplete (errs := errs) hg hconf hrun hcoll hchunk
      have hparts' : j.dstParts c.members.length c.my (s.resvOf c).bytes k.idx = [(a, lo, n)] := hparts
      rw [if_neg (by rw [hstage]; decide), if_pos hstage, hparts', List.map_singleton, kilnEccs_store (memOf_store_ne_stacked hreach.1)] at hexec
      obtain ⟨hstore, hgroup⟩ := storeChunk_store (bs := bs) hparts' rfl (hcalm hreach)
      exact ⟨_, hexec, by rw [hstore, Sparse.readBytes_writeBytes], hgroup⟩
    · have hexec := exec_collectiveEnd hg hconf hrun hcoll hending
      obtain ⟨htail, hkiln⟩ := endKJob_collective (e := { group := c.num, m := c.members.length, job := j, status := stOk, ab := KAbort.none, peak := 0 })
        ⟨hcoll, hcomp, hholds, hcalm hreach⟩ false
      rw [if_pos hended] at hexec
      exact ⟨_, hexec, htail, congrArg KGroup.jobs (kgroup_changeGroup hkiln rfl)⟩
    · have hexec := exec_collectiveEnd hg hconf hrun hcoll hending
      rwa [if_neg hended] at hexec
  · intro g kg hconf ab
    have hnum := State.groupConf_num hconf
    have hg : g < 64 := bits_lt v.toNat 5 0
    refine ⟨fun j hrun hcoll hcomp hholds hmem hquiet => ?_, fun hidle => ?_, fun hoff => ?_, fun hjobs => ?_⟩
    · intro ends
      have hcloses : Closes s c.num j := hnum.symm ▸ ⟨hcoll, hcomp, hholds, hmem, hquiet⟩
      have hends {i : Instr} {cause : Nat} (hexec : exec i s = .next (s.abortOwn g cause)) (hone : cause ≠ 1) (hfive : cause ≠ 5) : ends i cause := by
        obtain ⟨htail, hjobs, haborted, hnotices⟩ := abortKJob_own (addr := j.addr) hcloses hone hfive
        rw [hnum] at hjobs haborted hnotices
        exact ⟨_, hexec.trans (congrArg _ (abortOwn_eq hconf hrun cause)), htail, hjobs, haborted, hnotices⟩
      refine ⟨hends rfl (by decide) (by decide), fun hstall => hends ((exec_kilnStallExpiry hg).trans (congrArg _ (if_neg hstall))) (by decide) (by decide),
        fun hone => ?_⟩
      have habort := abortKJob_own (addr := j.addr) (cause := 6) hcloses (by decide) (by decide)
      have hempty : ((s.abortOwn g 6).kgroup g).jobs = [] := by
        have hjobs := habort.jobs
        rw [hnum, show (s.kgroup g).jobs = [j] from hone] at hjobs
        rw [abortOwn_eq hconf hrun, hjobs]
        simp
      have hexec := execKlnCtrlReset_empty (v := v) rfl ((by rw [abortOwn_eq hconf hrun, abortKJob_groupConf]; exact hconf) :
        (s.abortOwn g 6).groupConf g = some c) hempty
      refine ⟨_, hexec, ?_⟩
      rw [State.kgroup_modGroup_same]
      exact ⟨hempty, rfl, rfl, rfl⟩
    · exact congrArg Host.Outcome.next (abortOwn_idle hidle 6)
    · exact (exec_kilnStallExpiry hg).trans (congrArg _ (if_pos hoff))
    · have hrun : (s.kgroup g).running = none := by rw [KGroup.running, show (s.kgroup g).jobs = [] from hjobs, List.find?_nil]
      have hsame := abortOwn_idle hrun 6
      have hexec := execKlnCtrlReset_empty (s := s) (v := v) (c := c) rfl (by rw [hsame]; exact hconf) (by rw [hsame]; exact hjobs)
      rw [hsame] at hexec
      exact ⟨_, hexec, rfl, State.kgroup_modGroup_same ..⟩

end Sys2Proof.Machine

/-! SUPPORT. The identity of a fold whose rank is too wide for DRV_SELF (R259; O40). -/

namespace Sys2Proof.Machine

/-- A fold whose RANK is one bit wider than its field of DRV_SELF. -/
def wideFold : Fold :=
  { header := [], device := 0, rank := 2 ^ 14, threshold := 0, jobTag := 0, ranks := [], dims := [], routes := [], groups := [], resvs := [],
    windows := [], chans := [] }

/-- The last step of the apply phase of an image without FLOCK sections. -/
def wideJob : FoldJob := { src := 0, mode := false, top := [], flock := none, fold := some wideFold, step := 7, sec := 0, off := 0 }

theorem applyStep_wideJob (s : State) : s.applyStep wideJob = (s, .bound) := rfl

/-- The RANK of such a fold carries into the bit of DRV_SELF that tells that a fold is loaded. -/
theorem setIdentity_wideFold (s : State) : (s.setIdentity wideFold 0).rbit .drvSelf 0 0 30 = false := by
  rw [State.setIdentity, State.rbit, State.reg_setReg_same]
  decide

/-- Refutes O40: DRV_SELF.VALID is claimed of every fold, and RANK 2^14, which exceeds its field, clears it. -/
theorem not_foldLoadChecksThenApplies : ¬ Obligations.FoldLoadChecksThenApplies := by
  unfold Obligations.FoldLoadChecksThenApplies
  rintro ⟨-, -, -, happly, -⟩
  obtain ⟨-, hbound⟩ := happly State.reset State.reset wideJob 0 wideFold rfl rfl
  obtain ⟨-, -, -, -, -, -, -, hvalid, -⟩ := hbound (applyStep_wideJob _)
  have hclear := setIdentity_wideFold (State.reset.takeFold wideFold)
  exact Bool.false_ne_true (hclear.symm.trans hvalid)

end Sys2Proof.Machine
